-- ==== Sys2Proof/Word.lean ====
section
/-! DEFINITION. The word types of the block: bytes, 64-bit registers, 512-bit flits. -/

namespace Sys2Proof

/-- A byte. -/
abbrev Byte := BitVec 8
/-- A register or one TBL_DATA word (R8). -/
abbrev Word := BitVec 64
/-- A flit, byte 0 in the most significant place (R7, R37). -/
abbrev Flit := BitVec 512

/-- Bits [hi:lo] of a bit vector, as a number (R7). -/
def bitsOf {n : Nat} (w : BitVec n) (hi lo : Nat) : Nat := (w.toNat >>> lo) % 2 ^ (hi - lo + 1)

/-- One bit of a bit vector. -/
def bitOf {n : Nat} (w : BitVec n) (i : Nat) : Bool := w.getLsbD i

/-- `w` with bits [hi:lo] replaced by the low bits of `v`. -/
def setBits {n : Nat} (w : BitVec n) (hi lo v : Nat) : BitVec n :=
  (w &&& ~~~(BitVec.ofNat n ((2 ^ (hi - lo + 1) - 1) <<< lo))) |||
    BitVec.ofNat n ((v % 2 ^ (hi - lo + 1)) <<< lo)

/-- A Bool as a number. -/
def bit (b : Bool) : Nat := if b then 1 else 0

end Sys2Proof
end

