-- ==== Sys2Proof/Syntax.lean ====
section
/-! DEFINITION. The commands of the block: one constructor per row of the opcode table, with the row's operands. -/

namespace Sys2Proof

/-- Who accesses a register (R330): a frame on a house port, a REG.REQ from a CA, or the device itself. -/
inductive Master where
  | house (port : Nat)
  | inband (ca : BitVec 32)
  | device
  deriving DecidableEq, Repr

/-- A token bucket of a port (R122): the maximum or minimum bucket of queue `q`, or the collective bucket. -/
inductive BucketId where
  | maxOf (q : Nat)
  | minOf (q : Nat)
  | coll
  deriving DecidableEq, Repr

/-- A resource that carries commitments (R134). -/
inductive Resource where
  | port (lane : Nat)
  | loom (k : Nat)
  deriving DecidableEq, Repr

/-- An Ethernet frame with EtherType 0x88B5 on a house port (R326, R327): addresses, 802.1Q tag, and the bytes from
the KLink header on. -/
structure KFrame where
  dst : Nat
  src : Nat
  tag : Option (BitVec 32)
  bytes : List Byte
  deriving DecidableEq, Repr

/-- An image of a die's firmware: its SVN and its digest (R313, R316). -/
structure FwImage where
  svn : Nat
  digest : BitVec 384
  deriving DecidableEq, Repr

/-- A Wardrobe macro at its threshold, and the packets that it has given with an uncorrectable error (R295). -/
structure MacroErrors where
  number : Nat
  bad : List Nat
  deriving DecidableEq, Repr

/-- What the replica paths read, in 1/1,024: the largest reading of the Stage, and that of each Loom (R306). -/
structure Replicas where
  stage : Nat
  looms : List Nat
  deriving DecidableEq, Repr

/-- The commands of the block. -/
inductive Instr where
  /-- NOP, R181. -/
  | cueNop (loom engine : Nat)
  /-- END, R181. -/
  | cueEnd (loom engine : Nat)
  /-- BREAK, R181. -/
  | cueBreak (loom engine a : Nat)
  /-- SWAIT, R181. -/
  | cueSwait (loom engine : Nat)
  /-- RDTIME, R181. -/
  | cueRdtime (loom engine d : Nat)
  /-- ADD, R181. -/
  | cueAdd (loom engine d a b : Nat)
  /-- SUB, R181. -/
  | cueSub (loom engine d a b : Nat)
  /-- AND, R181. -/
  | cueAnd (loom engine d a b : Nat)
  /-- OR, R181. -/
  | cueOr (loom engine d a b : Nat)
  /-- XOR, R181. -/
  | cueXor (loom engine d a b : Nat)
  /-- SLL, R181. -/
  | cueSll (loom engine d a b : Nat)
  /-- SRL, R181. -/
  | cueSrl (loom engine d a b : Nat)
  /-- SRA, R181. -/
  | cueSra (loom engine d a b : Nat)
  /-- SLT, R181. -/
  | cueSlt (loom engine d a b : Nat)
  /-- SLTU, R181. -/
  | cueSltu (loom engine d a b : Nat)
  /-- MUL, R181. -/
  | cueMul (loom engine d a b : Nat)
  /-- MULHU, R181. -/
  | cueMulhu (loom engine d a b : Nat)
  /-- MIN, R181. -/
  | cueMin (loom engine d a b : Nat)
  /-- MAX, R181. -/
  | cueMax (loom engine d a b : Nat)
  /-- MINU, R181. -/
  | cueMinu (loom engine d a b : Nat)
  /-- MAXU, R181. -/
  | cueMaxu (loom engine d a b : Nat)
  /-- ADDI, R181. -/
  | cueAddi (loom engine d a imm : Nat)
  /-- ANDI, R181. -/
  | cueAndi (loom engine d a imm : Nat)
  /-- ORI, R181. -/
  | cueOri (loom engine d a imm : Nat)
  /-- XORI, R181. -/
  | cueXori (loom engine d a imm : Nat)
  /-- SHI, R181. -/
  | cueShi (loom engine d a op amt : Nat)
  /-- CAT, R181. -/
  | cueCat (loom engine d a imm : Nat)
  /-- LD, R181. -/
  | cueLd (loom engine d a imm : Nat)
  /-- ST, R181. -/
  | cueSt (loom engine d a imm : Nat)
  /-- FSET, R181. -/
  | cueFset (loom engine a imm : Nat)
  /-- FCLR, R181. -/
  | cueFclr (loom engine a imm : Nat)
  /-- FTEST, R181. -/
  | cueFtest (loom engine d a imm : Nat)
  /-- WAITF, R181. -/
  | cueWaitf (loom engine a imm : Nat)
  /-- BEQ, R181. -/
  | cueBeq (loom engine a b off : Nat)
  /-- BNE, R181. -/
  | cueBne (loom engine a b off : Nat)
  /-- BLT, R181. -/
  | cueBlt (loom engine a b off : Nat)
  /-- BGE, R181. -/
  | cueBge (loom engine a b off : Nat)
  /-- BLTU, R181. -/
  | cueBltu (loom engine a b off : Nat)
  /-- BGEU, R181. -/
  | cueBgeu (loom engine a b off : Nat)
  /-- JAL, R181. -/
  | cueJal (loom engine d off : Nat)
  /-- JALR, R181. -/
  | cueJalr (loom engine d a imm : Nat)
  /-- VADD, R182. -/
  | cueVadd (loom engine vd va vb p w : Nat)
  /-- VSUB, R182. -/
  | cueVsub (loom engine vd va vb p w : Nat)
  /-- VAND, R182. -/
  | cueVand (loom engine vd va vb p w : Nat)
  /-- VOR, R182. -/
  | cueVor (loom engine vd va vb p w : Nat)
  /-- VXOR, R182. -/
  | cueVxor (loom engine vd va vb p w : Nat)
  /-- VMIN, R182. -/
  | cueVmin (loom engine vd va vb p w : Nat)
  /-- VMAX, R182. -/
  | cueVmax (loom engine vd va vb p w : Nat)
  /-- VMINU, R182. -/
  | cueVminu (loom engine vd va vb p w : Nat)
  /-- VMAXU, R182. -/
  | cueVmaxu (loom engine vd va vb p w : Nat)
  /-- VSEL, R182. -/
  | cueVsel (loom engine vd va vb p w : Nat)
  /-- VCEQ, R182. -/
  | cueVceq (loom engine vd va vb p w : Nat)
  /-- VCLT, R182. -/
  | cueVclt (loom engine vd va vb p w : Nat)
  /-- VCLTU, R182. -/
  | cueVcltu (loom engine vd va vb p w : Nat)
  /-- VMOV, R182. -/
  | cueVmov (loom engine vd va p w : Nat)
  /-- PAND, R182. -/
  | cuePand (loom engine pd pa pb : Nat)
  /-- POR, R182. -/
  | cuePor (loom engine pd pa pb : Nat)
  /-- PNOT, R182. -/
  | cuePnot (loom engine pd pa : Nat)
  /-- VLD, R182. -/
  | cueVld (loom engine vd a imm : Nat)
  /-- VST, R182. -/
  | cueVst (loom engine vd a imm : Nat)
  /-- VSPLAT, R182. -/
  | cueVsplat (loom engine vd a w : Nat)
  /-- VEXT, R182. -/
  | cueVext (loom engine d va idx w : Nat)
  /-- ACLR, R183. -/
  | cueAclr (loom engine acc : Nat)
  /-- VACC, R183. -/
  | cueVacc (loom engine acc a vb part p : Nat)
  /-- AOUT, R183. -/
  | cueAout (loom engine vd acc b part : Nat)
  /-- OPEN, R186. -/
  | cueOpen (loom engine ch sa : Nat)
  /-- TAKE_RED, R186. -/
  | cueTakeRed (loom engine ch flag sb : Nat)
  /-- TAKE, R186. -/
  | cueTake (loom engine ch flag sb : Nat)
  /-- REDUCE_TILE, R186. -/
  | cueReduceTile (loom engine ch flag sa sb v : Nat)
  /-- ROUND_TILE, R186. -/
  | cueRoundTile (loom engine ch flag sa sb v : Nat)
  /-- GIVE, R186. -/
  | cueGive (loom engine ch flag sa sb : Nat)
  /-- EXCHANGE, R186. -/
  | cueExchange (loom engine ch flag out : Nat)
  /-- SYNC_COLLECT, R186. -/
  | cueSyncCollect (loom engine ch flag : Nat)
  /-- SYNC_ARRIVE, R186. -/
  | cueSyncArrive (loom engine ch flag : Nat)
  /-- SYNC_RELEASE, R186. -/
  | cueSyncRelease (loom engine ch flag : Nat)
  /-- SYNC_AWAIT, R186. -/
  | cueSyncAwait (loom engine ch flag : Nat)
  /-- RETIRE, R186. -/
  | cueRetire (loom engine ch flag sa : Nat)
  /-- ABANDON, R186. -/
  | cueAbandon (loom engine ch flag : Nat)
  /-- BOLT_FETCH, R186. -/
  | cueBoltFetch (loom engine flag sa sb : Nat)
  /-- BOLT_STASH, R186. -/
  | cueBoltStash (loom engine flag sa sb : Nat)
  /-- CUE_SAMPLE, R193. -/
  | cueSample (loom engine : Nat)
  /-- ILLEGAL, R180. -/
  | cueIllegal (loom engine word : Nat)
  /-- NPOR_ASSERT, R21. -/
  | nporAssert
  /-- POWER_START, R337. -/
  | powerStart
  /-- PWR_OK_FALL, R22. -/
  | pwrOkFall
  /-- VIN_BROWN_OUT, R22. -/
  | vinBrownOut
  /-- SHUTDOWN_DONE, R22. -/
  | shutdownDone (pwrOkBack : Bool)
  /-- VSTBY_LOSS, R20. -/
  | vstbyLoss
  /-- START_RAILS_READY, R337. -/
  | startRailsReady
  /-- START_STAGE_PLLS_LOCKED, R337. -/
  | startStagePllsLocked
  /-- START_PROMPTER_STARTED, R315. -/
  | startPrompterStarted (okA okB : Bool) (svnA svnB : Nat) (digA digB : BitVec 384)
  /-- START_SEAMS_UP, R337. -/
  | startSeamsUp
  /-- START_MEMORY_READY, R337. -/
  | startMemoryReady
  /-- START_HOUSE_PORTS_UP, R337. -/
  | startHousePortsUp
  /-- START_FIRMWARE_VERIFIED, R315. -/
  | startFirmwareVerified (wingOk loomOk libOk : Bool) (wing loom lib : FwImage)
  /-- START_LOOMS_LOADED, R337. -/
  | startLoomsLoaded
  /-- START_DONE, R337. -/
  | startDone (elapsed : Nat)
  /-- SEAM_LINK_TRAINED, R19. -/
  | seamLinkTrained (site siteId bundles : Nat)
  /-- SEAM_FLIT_ARRIVAL, R30. -/
  | seamFlitArrival (site : Nat) (flit : BitVec 1120)
  /-- SEAM_REPAIR_TRIGGER, R31. -/
  | seamRepairTrigger (site : Nat)
  /-- SEAM_REPAIR_DONE, R31. -/
  | seamRepairDone (site : Nat) (failed : List Nat)
  /-- REF_LOCKED, R23. -/
  | refLocked
  /-- DEVICE_RST, R33. -/
  | deviceRst (m : Master)
  /-- DIE_RST, R33. -/
  | dieRst (m : Master) (data : Word)
  /-- DIE_HOLD, R33. -/
  | dieHold (m : Master) (data : Word)
  /-- DIE_RESET_WIDTH_END, R33. -/
  | dieResetWidthEnd (site : Nat)
  /-- DIE_RUNNING, R34. -/
  | dieRunning (site : Nat)
  /-- WING_PLL_UNLOCK, R34. -/
  | wingPllUnlock (wing : Nat)
  /-- LOOM_PLL_UNLOCK, R34. -/
  | loomPllUnlock (loom : Nat)
  /-- STACK_PLL_UNLOCK, R34. -/
  | stackPllUnlock (stack : Nat)
  /-- STACK_MIRROR_REBUILT, R223. -/
  | stackMirrorRebuilt (stack : Nat)
  /-- TMU_PLL_UNLOCK, R34. -/
  | tmuPllUnlock
  /-- TMU_PLL_RELOCK, R34. -/
  | tmuPllRelock
  /-- REF_LOSS, R34. -/
  | refLoss
  /-- REF_RETURN, R34. -/
  | refReturn
  /-- REF_LOSS_TIMEOUT, R34. -/
  | refLossTimeout
  /-- HEAD_FLIT_ARRIVAL, R62. -/
  | headFlitArrival (lane : Nat) (flit : Flit)
  /-- BODY_FLIT_ARRIVAL, R38. -/
  | bodyFlitArrival (lane : Nat) (flit : Flit)
  /-- IDLE_FLIT_ARRIVAL, R253. -/
  | idleFlitArrival (lane : Nat) (flit : Flit)
  /-- TRANSMIT_FLIT, R120. -/
  | transmitFlit (lane : Nat)
  /-- MEMBER_SELECTION_RETRY, R71. -/
  | memberSelectionRetry (pid : Nat)
  /-- HOLD_LIMIT_EXPIRY, R106. -/
  | holdLimitExpiry (lane : Nat) (timed : Bool)
  /-- ORIGIN_IDLE_EXPIRY, R73. -/
  | originIdleExpiry (src dst : BitVec 32) (vl : Nat)
  /-- RSQ_LEARN_EXPIRY, R110. -/
  | rsqLearnExpiry (src dst : BitVec 32) (vl : Nat) (pv : Bool)
  /-- RSQ_GAP_EXPIRY, R112. -/
  | rsqGapExpiry (src dst : BitVec 32) (vl : Nat) (pv : Bool)
  /-- RSQ_IDLE_EXPIRY, R113. -/
  | rsqIdleExpiry (src dst : BitVec 32) (vl : Nat) (pv : Bool)
  /-- BUCKET_WHEEL_EXPIRY, R123. -/
  | bucketWheelExpiry (port : Nat) (b : BucketId)
  /-- OVERFLOW_SLOT_EMPTY, R123. -/
  | overflowSlotEmpty (slot : Nat)
  /-- GATE_EDGE, R129. -/
  | gateEdge (port : Nat)
  /-- RO_SWAP, R130. -/
  | roSwap (m : Master) (port : Nat) (data : Word)
  /-- RO_ACTIVATE, R130. -/
  | roActivate (port : Nat)
  /-- RO_STOP, R130. -/
  | roStop (m : Master) (port : Nat) (data : Word)
  /-- RO_RESUME, R130. -/
  | roResume (port : Nat)
  /-- QRATE_WRITE, R133. -/
  | qrateWrite (m : Master) (port q : Nat) (data : Word)
  /-- QOWN_WRITE, R121. -/
  | qownWrite (m : Master) (port q : Nat) (data : Word)
  /-- GRANTED_RECOMPUTE, R134. -/
  | grantedRecompute (r : Resource)
  /-- LAUNCH_FIRE, R275. -/
  | launchFire (port entry : Nat)
  /-- LAUNCH_WINDOW_EXPIRY, R275. -/
  | launchWindowExpiry (port tc : Nat)
  /-- LAUNCH_HOLD_MAX_EXPIRY, R275. -/
  | launchHoldMaxExpiry (port tc : Nat)
  /-- TBL_READ, R81. -/
  | tblRead (m : Master) (table index : Nat)
  /-- TBL_WRITE, R81. -/
  | tblWrite (m : Master) (table index : Nat)
  /-- TBL_INSERT, R86. -/
  | tblInsert (m : Master) (table : Nat)
  /-- TBL_DELETE, R81. -/
  | tblDelete (m : Master) (table : Nat) (byKey : Bool) (index : Nat)
  /-- TBL_MOVE, R81. -/
  | tblMove (m : Master) (table index index2 : Nat)
  /-- TBL_SEARCH, R81. -/
  | tblSearch (m : Master) (table index : Nat)
  /-- TBL_CMD_DONE, R82. -/
  | tblCmdDone
  /-- TBL_TCAM_PART_WRITE, R84. -/
  | tblTcamPartWrite (m : Master) (data : Word)
  /-- TBL_COMPAT_WRITE, R91. -/
  | tblCompatWrite (m : Master) (data : Word)
  /-- TBL_DMA_OPEN, R92. -/
  | tblDmaOpen (m : Master) (data : Word)
  /-- TBL_DMA_COMMIT, R92. -/
  | tblDmaCommit (m : Master) (data : Word)
  /-- TBL_DMA_COMMIT_DONE, R92. -/
  | tblDmaCommitDone
  /-- SCRUB_CYCLE, R90. -/
  | scrubCycle
  /-- SCRUB_REPAIR, R90. -/
  | scrubRepair (table index : Nat)
  /-- PROVISIONAL_INSTALL, R77. -/
  | provisionalInstall (n : Nat)
  /-- PROVISIONAL_DELETE, R78. -/
  | provisionalDelete (slot : Nat)
  /-- BORDER_FRAME_ARRIVAL, R95. -/
  | borderFrameArrival (port : Nat) (frame : List Byte)
  /-- BORDER_PFC_ARRIVAL, R94. -/
  | borderPfcArrival (port : Nat) (frame : List Byte)
  /-- PRT_BORDER_WRITE, R93. -/
  | prtBorderWrite (m : Master) (port : Nat) (data : Word)
  /-- BORDER_BLOCK_LOCK_CHANGE, R250. -/
  | borderBlockLockChange (lane : Nat) (locked : Bool)
  /-- MAC_AGE_TICK, R96. -/
  | macAgeTick
  /-- MAC_FLUSH, R96. -/
  | macFlush (port : Nat)
  /-- ETH_ENCAP, R97. -/
  | ethEncap (pid : Nat)
  /-- WRD_COLL_POOL_WRITE, R103. -/
  | wrdCollPoolWrite (m : Master) (data : Word)
  /-- LINK_CTL_WRITE, R250. -/
  | linkCtlWrite (m : Master) (port : Nat) (data : Word)
  /-- RECALL, R250. -/
  | recall (m : Master) (port : Nat)
  /-- LANE_SERVICE_EXIT, R250. -/
  | laneServiceExit (lane : Nat)
  /-- RETRAIN, R232. -/
  | retrain (m : Master) (wing j : Nat) (data : Word)
  /-- TRAINING_DONE, R252. -/
  | trainingDone (lane : Nat)
  /-- TRAIN_TIMEOUT, R251. -/
  | trainTimeout (lane : Nat)
  /-- ROLL_CALL_SEND, R257. -/
  | rollCallSend (lane : Nat)
  /-- ROLL_CALL, R257. -/
  | rollCall (lane : Nat)
  /-- ROLL_CALL_TIMEOUT, R251. -/
  | rollCallTimeout (lane : Nat)
  /-- ABSENT_TIMEOUT, R260. -/
  | absentTimeout (lane : Nat)
  /-- FAILED_RETRY, R251. -/
  | failedRetry (lane : Nat)
  /-- PRT_SEAT_WRITE, R261. -/
  | prtSeatWrite (m : Master) (port : Nat) (data : Word)
  /-- HEARTBEAT_SEND, R264. -/
  | heartbeatSend (lane : Nat)
  /-- HEARTBEAT, R264. -/
  | heartbeat (lane : Nat)
  /-- HB_LAPSE, R265. -/
  | hbLapse (lane : Nat)
  /-- LOS_DETECT, R265. -/
  | losDetect (lane : Nat)
  /-- LOCK_LOSS, R265. -/
  | lockLoss (lane : Nat)
  /-- NEIGHBOUR_FAILED, R278. -/
  | neighbourFailed (lane : Nat)
  /-- FENCE_LIFT, R282. -/
  | fenceLift (m : Master) (port : Nat)
  /-- FENCE_HOLD, R282. -/
  | fenceHold (m : Master) (port : Nat)
  /-- FM_REGISTER, R283. -/
  | fmRegister (m : Master) (n : Nat) (data : Word)
  /-- FM_LOCK, R283. -/
  | fmLock (m : Master)
  /-- EXPEL, R285. -/
  | expel (pid : Nat)
  /-- EXPEL_GATHER_EXPIRY, R285. -/
  | expelGatherExpiry
  /-- STRIKE, R288. -/
  | strike (pid : Nat)
  /-- SEAL, R287. -/
  | seal (pid : Nat)
  /-- STRIKE_PURGE_DONE, R288. -/
  | strikePurgeDone (prod : Nat)
  /-- LAUNCH, R293. -/
  | launch (pid : Nat)
  /-- LAUNCH_REPLY, R294. -/
  | launchReply (pid : Nat)
  /-- LAUNCH_REPLY_DEADLINE, R293. -/
  | launchReplyDeadline (prod : Nat)
  /-- NOTICE, R45. -/
  | notice (pid : Nat)
  /-- REG_REQ, R54. -/
  | regReq (pid : Nat)
  /-- REG_WRITE, R8. -/
  | regWrite (m : Master) (addr : Nat) (data : Word)
  /-- READ_CLEAR, R10. -/
  | readClear (m : Master) (addr : Nat)
  /-- BCAST_WRITE, R332. -/
  | bcastWrite (m : Master) (offset : Nat) (data : Word)
  /-- KLINK_REG_FRAME, R328. -/
  | klinkRegFrame (port : Nat) (f : KFrame)
  /-- KLINK_DEBUG_FRAME, R329. -/
  | klinkDebugFrame (port : Nat) (f : KFrame)
  /-- HOUSE_LOCK, R330. -/
  | houseLock (m : Master)
  /-- HOUSE_PORT_LOCK_CHANGE, R335. -/
  | housePortLockChange (port : Nat) (locked : Bool)
  /-- TBL_ENS_WRITE, R140. -/
  | tblEnsWrite (m : Master) (n : Nat) (second : Bool) (data : Word)
  /-- CONTRIB, R145. -/
  | contrib (pid : Nat)
  /-- A2A_ROWS, R150. -/
  | a2aRows (pid : Nat)
  /-- ARRIVE, R148. -/
  | arrive (pid : Nat)
  /-- RESULT, R201. -/
  | result (pid : Nat)
  /-- RELEASE, R148. -/
  | release (pid : Nat)
  /-- COLL_STALL_EXPIRY, R152. -/
  | collStallExpiry (loom : Nat)
  /-- MEMBER_DEAD_POISON, R152. -/
  | memberDeadPoison (ca : BitVec 32)
  /-- STREAM_OP_DONE, R186. -/
  | streamOpDone (loom engine idx : Nat)
  /-- ENGINE_FAULT, R204. -/
  | engineFault (loom engine : Nat)
  /-- ENGINE_RESTART, R204. -/
  | engineRestart (loom slot : Nat)
  /-- F255_TIMEOUT, R189. -/
  | f255Timeout (loom engine : Nat)
  /-- LOAD, R198. -/
  | ldrLoad (m : Master) (loom : Nat) (data : Word)
  /-- UNLOAD, R199. -/
  | ldrUnload (m : Master) (loom : Nat) (data : Word)
  /-- ACTIVATE, R202. -/
  | ldrActivate (m : Master) (loom : Nat) (data : Word)
  /-- STOP, R202. -/
  | ldrStop (m : Master) (loom : Nat) (data : Word)
  /-- ACTIVATE_INCOMING, R202. -/
  | activateIncoming (loom : Nat)
  /-- LOADER_CMD_DONE, R197. -/
  | loaderCmdDone (loom : Nat)
  /-- IMAGE_RESTORE, R205. -/
  | imageRestore (loom : Nat)
  /-- BOLT_READ, R222. -/
  | boltRead (pid : Nat)
  /-- BOLT_READ_CONVERT, R224. -/
  | boltReadConvert (pid : Nat)
  /-- BOLT_WRITE, R222. -/
  | boltWrite (pid : Nat)
  /-- WRITE_FLAG, R216. -/
  | writeFlag (pid : Nat)
  /-- ATOMIC, R213. -/
  | atomic (pid : Nat)
  /-- REDUCE_WRITE, R224. -/
  | reduceWrite (pid : Nat)
  /-- FENCE, R218. -/
  | fence (pid : Nat)
  /-- SWATCH_XFER, R220. -/
  | swatchXfer (pid : Nat)
  /-- RESPONSE_AT_INGRESS, R218. -/
  | responseAtIngress (pid : Nat)
  /-- FLAG_HOLD_EXPIRY, R218. -/
  | flagHoldExpiry (src dst : BitVec 32) (pv : Bool)
  /-- MOVE_LIMIT_EXPIRY, R221. -/
  | moveLimitExpiry (index : Nat)
  /-- DEAD_LAPSE_EXPIRY, R226. -/
  | deadLapseExpiry (lane : Nat)
  /-- DEAD_TARGET_REFUSE, R226. -/
  | deadTargetRefuse (ca : BitVec 32)
  /-- DEAD_TARGET_LEDGER, R226. -/
  | deadTargetLedger (ca : BitVec 32)
  /-- TEARDOWN, R226. -/
  | teardown (ca : BitVec 32)
  /-- LANE_PARK, R233. -/
  | lanePark (lane : Nat)
  /-- LASER_IDLE_OFF, R233. -/
  | laserIdleOff (wing laser : Nat)
  /-- LASER_TAP_FAIL, R236. -/
  | laserTapFail (wing laser : Nat)
  /-- LASER_SWAP, R240. -/
  | laserSwap (m : Master) (wing : Nat) (data : Word)
  /-- SWAP_FADE, R240. -/
  | swapFade (m : Master) (wing : Nat) (data : Word)
  /-- LASER_DRAIN_CHECK, R237. -/
  | laserDrainCheck (wing group : Nat)
  /-- LASER_WAVELENGTH_READY, R237. -/
  | laserWavelengthReady (wing group : Nat) (ok : Bool)
  /-- LASER_SWAP_COMPLETE, R237. -/
  | laserSwapComplete (wing group : Nat)
  /-- LASER_CROSSFADE_DONE, R238. -/
  | laserCrossfadeDone (wing group : Nat)
  /-- XT_COMMIT, R243. -/
  | xtCommit (m : Master) (wing : Nat) (data : Word)
  /-- XTALK_APPLY, R243. -/
  | xtalkApply (wing : Nat)
  /-- RX_POWER_REFRESH, R241. -/
  | rxPowerRefresh (wing j power near : Nat)
  /-- HEATER_TELEMETRY, R242. -/
  | heaterTelemetry (wing heater err : Nat)
  /-- HEAT_FF_LOST, R242. -/
  | heatFfLost (wing : Nat)
  /-- HEATER_RANGE, R244. -/
  | heaterRange (wing heater : Nat) (atMax : Bool)
  /-- TRAP_COMMIT, R246. -/
  | trapCommit (m : Master) (wing : Nat) (data : Word)
  /-- TRAP_SWITCH_DONE, R246. -/
  | trapSwitchDone (wing : Nat)
  /-- TRAP_DARK, R248. -/
  | trapDark (wing input : Nat)
  /-- TRAP_LIT, R248. -/
  | trapLit (wing input : Nat)
  /-- TMU_RATE_WRITE, R267. -/
  | tmuRateWrite (m : Master) (data : Word)
  /-- TMU_OFFSET_STEP, R269. -/
  | tmuOffsetStep (m : Master) (data : Word)
  /-- TMU_CTL_WRITE, R271. -/
  | tmuCtlWrite (m : Master) (data : Word)
  /-- TMU_NOW_READ, R268. -/
  | tmuNowRead (m : Master)
  /-- SERVO_HOLD_EXPIRY, R271. -/
  | servoHoldExpiry
  /-- TIME_PTP, R270. -/
  | timePtp (pid : Nat)
  /-- SRAM_ROW_REPAIR, R295. -/
  | sramRowRepair (site array row : Nat)
  /-- WRD_MACRO_WITHDRAW, R295. -/
  | wrdMacroWithdraw (errors : MacroErrors)
  /-- WRD_MACRO_DRAINED, R295. -/
  | wrdMacroDrained (macroNo : Nat)
  /-- GLB_RHS_WRITE, R297. -/
  | glbRhsWrite (m : Master) (n : Nat) (data : Word)
  /-- REHEARSAL_INJECT, R297. -/
  | rehearsalInject (n : Nat)
  /-- RHS_EFFECT, R297. -/
  | rhsEffect (n : Nat)
  /-- RHS_MUTE_END, R297. -/
  | rhsMuteEnd (n : Nat)
  /-- GOVERNOR_UPDATE, R301. -/
  | governorUpdate (energy : Nat)
  /-- GOVERNOR_ACTION, R304. -/
  | governorAction
  /-- PWR_CAP_UNMET, R303. -/
  | pwrCapUnmet
  /-- PWR_CAP_MIN_WRITE, R300. -/
  | pwrCapMinWrite (m : Master) (data : Word)
  /-- PWR_CAP_INST_WRITE, R300. -/
  | pwrCapInstWrite (m : Master) (data : Word)
  /-- REPLICA_MEASURE, R306. -/
  | replicaMeasure (factor : Replicas) (corrected : Nat)
  /-- MINUTE_CLOSE, R307. -/
  | minuteClose
  /-- THERMAL_SAMPLE, R308. -/
  | thermalSample (temps : List Nat)
  /-- THERM_LIMIT, R308. -/
  | thermLimit
  /-- EXTEND, R314. -/
  | secExtend (m : Master) (data : Word)
  /-- SVN_COMMIT, R316. -/
  | svnCommit (m : Master) (data : Word)
  /-- DBG_NONCE, R321. -/
  | dbgNonce (m : Master) (data : Word)
  /-- DBG_SUBMIT, R321. -/
  | dbgSubmit (m : Master) (data : Word)
  /-- DBG_CLOSE, R322. -/
  | dbgClose (m : Master) (data : Word)
  /-- DBG_NONCE_EXPIRY, R321. -/
  | dbgNonceExpiry
  /-- DBG_MINUTES_EXPIRY, R322. -/
  | dbgMinutesExpiry
  /-- GET_VERSION, R317. -/
  | getVersion (port : Nat) (f : KFrame)
  /-- GET_CAPABILITIES, R317. -/
  | getCapabilities (port : Nat) (f : KFrame)
  /-- NEGOTIATE_ALGORITHMS, R317. -/
  | negotiateAlgorithms (port : Nat) (f : KFrame)
  /-- GET_DIGESTS, R317. -/
  | getDigests (port : Nat) (f : KFrame)
  /-- GET_CERTIFICATE, R317. -/
  | getCertificate (port : Nat) (f : KFrame)
  /-- CHALLENGE, R317. -/
  | challenge (port : Nat) (f : KFrame)
  /-- GET_MEASUREMENTS, R318. -/
  | getMeasurements (port : Nat) (f : KFrame)
  /-- CNT_FREEZE, R344. -/
  | cntFreeze (m : Master) (data : Word)
  /-- CNT_THAW, R344. -/
  | cntThaw (m : Master) (data : Word)
  /-- CNT_SNAP, R345. -/
  | cntSnap (m : Master) (data : Word)
  /-- CNT_CUT, R344. -/
  | cntCut
  /-- SNAPSHOT_WRITE, R346. -/
  | snapshotWrite
  /-- FREEZE_AUTO_THAW, R344. -/
  | freezeAutoThaw
  /-- CNT_PERIODIC_SNAP, R345. -/
  | cntPeriodicSnap
  /-- CNT_VAL_WRITE, R344. -/
  | cntValWrite (m : Master) (inst index : Nat) (data : Word)
  /-- VSTBY_RETURN, R21. -/
  | vstbyReturn
  /-- LASER_WARMED, R233. -/
  | laserWarmed (wing laser : Nat)
  /-- HEATER_IN_RANGE, R244. -/
  | heaterInRange (wing heater : Nat)
  /-- KLINK_BAD, R327. -/
  | klinkBad (port : Nat) (f : KFrame)
  /-- UNSUPPORTED_REQUEST, R317. -/
  | unsupportedRequest (port : Nat) (f : KFrame)
  /-- SEND_STATUS, R147. -/
  | sendStatus (pid : Nat)
  deriving DecidableEq, Repr

end Sys2Proof
end

