-- ==== Sys2Proof/Decode.lean ====
section
/-! DEFINITION. The Cue instruction words (R179 to R183, R186): decoder and encoder; and the command that a word of the
opcode table spells. -/

namespace Sys2Proof

/-- The opcode table gives no row any bits, so no word spells a command. -/
def decodeTableWord (_nbits _w : Nat) : Option Instr := none

/-! ## Formats (R179) -/

/-- `n` bits of a word from bit `lo` on. -/
def fieldAt (w lo n : Nat) : Nat := w / 2 ^ lo % 2 ^ n

def sWord (mj d a b f : Nat) : Nat := mj * 2 ^ 26 + d * 2 ^ 20 + a * 2 ^ 14 + b * 2 ^ 8 + f
def iWord (mj d a imm : Nat) : Nat := mj * 2 ^ 26 + d * 2 ^ 20 + a * 2 ^ 14 + imm
def vWord (mj vd va vb p f : Nat) : Nat := mj * 2 ^ 26 + vd * 2 ^ 21 + va * 2 ^ 16 + vb * 2 ^ 11 + p * 2 ^ 8 + f
def cWord (mj ch fl sa sb v : Nat) : Nat := mj * 2 ^ 26 + ch * 2 ^ 22 + fl * 2 ^ 14 + sa * 2 ^ 8 + sb * 2 ^ 2 + v
def jWord (mj d off : Nat) : Nat := mj * 2 ^ 26 + d * 2 ^ 20 + off

/-! ## Decoder -/

/-- SYS group (R181). -/
def cueDecodeSys (k e w : Nat) : Instr :=
  match fieldAt w 0 8 with
  | 0 => .cueNop k e
  | 1 => .cueEnd k e
  | 2 => .cueBreak k e (fieldAt w 14 6)
  | 3 => .cueSwait k e
  | 4 => .cueRdtime k e (fieldAt w 20 6)
  | _ => .cueIllegal k e w

/-- ALU group (R181). -/
def cueDecodeAlu (k e w : Nat) : Instr :=
  match fieldAt w 0 8 with
  | 0 => .cueAdd k e (fieldAt w 20 6) (fieldAt w 14 6) (fieldAt w 8 6)
  | 1 => .cueSub k e (fieldAt w 20 6) (fieldAt w 14 6) (fieldAt w 8 6)
  | 2 => .cueAnd k e (fieldAt w 20 6) (fieldAt w 14 6) (fieldAt w 8 6)
  | 3 => .cueOr k e (fieldAt w 20 6) (fieldAt w 14 6) (fieldAt w 8 6)
  | 4 => .cueXor k e (fieldAt w 20 6) (fieldAt w 14 6) (fieldAt w 8 6)
  | 5 => .cueSll k e (fieldAt w 20 6) (fieldAt w 14 6) (fieldAt w 8 6)
  | 6 => .cueSrl k e (fieldAt w 20 6) (fieldAt w 14 6) (fieldAt w 8 6)
  | 7 => .cueSra k e (fieldAt w 20 6) (fieldAt w 14 6) (fieldAt w 8 6)
  | 8 => .cueSlt k e (fieldAt w 20 6) (fieldAt w 14 6) (fieldAt w 8 6)
  | 9 => .cueSltu k e (fieldAt w 20 6) (fieldAt w 14 6) (fieldAt w 8 6)
  | 10 => .cueMul k e (fieldAt w 20 6) (fieldAt w 14 6) (fieldAt w 8 6)
  | 11 => .cueMulhu k e (fieldAt w 20 6) (fieldAt w 14 6) (fieldAt w 8 6)
  | 12 => .cueMin k e (fieldAt w 20 6) (fieldAt w 14 6) (fieldAt w 8 6)
  | 13 => .cueMax k e (fieldAt w 20 6) (fieldAt w 14 6) (fieldAt w 8 6)
  | 14 => .cueMinu k e (fieldAt w 20 6) (fieldAt w 14 6) (fieldAt w 8 6)
  | 15 => .cueMaxu k e (fieldAt w 20 6) (fieldAt w 14 6) (fieldAt w 8 6)
  | _ => .cueIllegal k e w

/-- SHI and the FLAG group (R181). -/
def cueDecodeShi (k e w : Nat) : Instr :=
  if fieldAt w 12 2 = 3 then .cueIllegal k e w
  else .cueShi k e (fieldAt w 20 6) (fieldAt w 14 6) (fieldAt w 12 2) (fieldAt w 0 6)

def cueDecodeFlag (k e w : Nat) : Instr :=
  match fieldAt w 12 2 with
  | 0 => .cueFset k e (fieldAt w 14 6) (fieldAt w 0 8)
  | 1 => .cueFclr k e (fieldAt w 14 6) (fieldAt w 0 8)
  | 2 => .cueFtest k e (fieldAt w 20 6) (fieldAt w 14 6) (fieldAt w 0 8)
  | _ => .cueWaitf k e (fieldAt w 14 6) (fieldAt w 0 8)

/-- VOP group (R182). -/
def cueDecodeVop (k e w : Nat) : Instr :=
  match fieldAt w 0 6 with
  | 0 => .cueVadd k e (fieldAt w 21 5) (fieldAt w 16 5) (fieldAt w 11 5) (fieldAt w 8 3) (fieldAt w 6 2)
  | 1 => .cueVsub k e (fieldAt w 21 5) (fieldAt w 16 5) (fieldAt w 11 5) (fieldAt w 8 3) (fieldAt w 6 2)
  | 2 => .cueVand k e (fieldAt w 21 5) (fieldAt w 16 5) (fieldAt w 11 5) (fieldAt w 8 3) (fieldAt w 6 2)
  | 3 => .cueVor k e (fieldAt w 21 5) (fieldAt w 16 5) (fieldAt w 11 5) (fieldAt w 8 3) (fieldAt w 6 2)
  | 4 => .cueVxor k e (fieldAt w 21 5) (fieldAt w 16 5) (fieldAt w 11 5) (fieldAt w 8 3) (fieldAt w 6 2)
  | 5 => .cueVmin k e (fieldAt w 21 5) (fieldAt w 16 5) (fieldAt w 11 5) (fieldAt w 8 3) (fieldAt w 6 2)
  | 6 => .cueVmax k e (fieldAt w 21 5) (fieldAt w 16 5) (fieldAt w 11 5) (fieldAt w 8 3) (fieldAt w 6 2)
  | 7 => .cueVminu k e (fieldAt w 21 5) (fieldAt w 16 5) (fieldAt w 11 5) (fieldAt w 8 3) (fieldAt w 6 2)
  | 8 => .cueVmaxu k e (fieldAt w 21 5) (fieldAt w 16 5) (fieldAt w 11 5) (fieldAt w 8 3) (fieldAt w 6 2)
  | 9 => .cueVsel k e (fieldAt w 21 5) (fieldAt w 16 5) (fieldAt w 11 5) (fieldAt w 8 3) (fieldAt w 6 2)
  | 10 => if fieldAt w 24 2 = 0 then .cueVceq k e (fieldAt w 21 3) (fieldAt w 16 5) (fieldAt w 11 5) (fieldAt w 8 3) (fieldAt w 6 2)
    else .cueIllegal k e w
  | 11 => if fieldAt w 24 2 = 0 then .cueVclt k e (fieldAt w 21 3) (fieldAt w 16 5) (fieldAt w 11 5) (fieldAt w 8 3) (fieldAt w 6 2)
    else .cueIllegal k e w
  | 12 => if fieldAt w 24 2 = 0 then .cueVcltu k e (fieldAt w 21 3) (fieldAt w 16 5) (fieldAt w 11 5) (fieldAt w 8 3) (fieldAt w 6 2)
    else .cueIllegal k e w
  | 13 => .cueVmov k e (fieldAt w 21 5) (fieldAt w 16 5) (fieldAt w 8 3) (fieldAt w 6 2)
  | 14 => if fieldAt w 24 2 = 0 ∧ fieldAt w 19 2 = 0 ∧ fieldAt w 14 2 = 0 ∧ fieldAt w 8 3 = 0 ∧ fieldAt w 6 2 = 0 then
      .cuePand k e (fieldAt w 21 3) (fieldAt w 16 3) (fieldAt w 11 3)
    else .cueIllegal k e w
  | 15 => if fieldAt w 24 2 = 0 ∧ fieldAt w 19 2 = 0 ∧ fieldAt w 14 2 = 0 ∧ fieldAt w 8 3 = 0 ∧ fieldAt w 6 2 = 0 then
      .cuePor k e (fieldAt w 21 3) (fieldAt w 16 3) (fieldAt w 11 3)
    else .cueIllegal k e w
  | 16 => if fieldAt w 24 2 = 0 ∧ fieldAt w 19 2 = 0 ∧ fieldAt w 14 2 = 0 ∧ fieldAt w 8 3 = 0 ∧ fieldAt w 6 2 = 0 then
      .cuePnot k e (fieldAt w 21 3) (fieldAt w 16 3)
    else .cueIllegal k e w
  | _ => .cueIllegal k e w

/-- ACC group (R183). -/
def cueDecodeAcc (k e w : Nat) : Instr :=
  if fieldAt w 3 1 = 0 then
    match fieldAt w 6 2 with
    | 0 => if fieldAt w 24 2 = 0 then .cueAclr k e (fieldAt w 20 4) else .cueIllegal k e w
    | 1 => if fieldAt w 24 2 = 0 ∧ fieldAt w 13 1 = 0 then
        .cueVacc k e (fieldAt w 20 4) (fieldAt w 14 6) (fieldAt w 8 5) (fieldAt w 4 2) (fieldAt w 0 3)
      else .cueIllegal k e w
    | 2 => if fieldAt w 25 1 = 0 ∧ fieldAt w 18 2 = 0 then
        .cueAout k e (fieldAt w 20 5) (fieldAt w 14 4) (fieldAt w 8 6) (fieldAt w 4 2)
      else .cueIllegal k e w
    | _ => .cueIllegal k e w
  else .cueIllegal k e w

/-- VLD, VST, VSPLAT and VEXT (R182). -/
def cueDecodeVld (k e w : Nat) : Instr :=
  if fieldAt w 25 1 = 0 then .cueVld k e (fieldAt w 20 5) (fieldAt w 14 6) (fieldAt w 0 14) else .cueIllegal k e w
def cueDecodeVst (k e w : Nat) : Instr :=
  if fieldAt w 25 1 = 0 then .cueVst k e (fieldAt w 20 5) (fieldAt w 14 6) (fieldAt w 0 14) else .cueIllegal k e w
def cueDecodeVsplat (k e w : Nat) : Instr :=
  if fieldAt w 25 1 = 0 then .cueVsplat k e (fieldAt w 20 5) (fieldAt w 14 6) (fieldAt w 0 2) else .cueIllegal k e w
def cueDecodeVext (k e w : Nat) : Instr :=
  if fieldAt w 19 1 = 0 then .cueVext k e (fieldAt w 20 6) (fieldAt w 14 5) (fieldAt w 0 6) (fieldAt w 8 2)
  else .cueIllegal k e w

/-- Stream instructions (R186). -/
def cueDecodeOpen (k e w : Nat) : Instr :=
  if fieldAt w 14 8 = 0 ∧ fieldAt w 0 2 = 0 then .cueOpen k e (fieldAt w 22 4) (fieldAt w 8 6) else .cueIllegal k e w
def cueDecodeTakeRed (k e w : Nat) : Instr :=
  if fieldAt w 8 6 = 0 ∧ fieldAt w 0 2 = 0 then .cueTakeRed k e (fieldAt w 22 4) (fieldAt w 14 8) (fieldAt w 2 6)
  else .cueIllegal k e w
def cueDecodeTake (k e w : Nat) : Instr :=
  if fieldAt w 8 6 = 0 ∧ fieldAt w 0 2 = 0 then .cueTake k e (fieldAt w 22 4) (fieldAt w 14 8) (fieldAt w 2 6)
  else .cueIllegal k e w
def cueDecodeReduce (k e w : Nat) : Instr :=
  if fieldAt w 1 1 = 0 then
    .cueReduceTile k e (fieldAt w 22 4) (fieldAt w 14 8) (fieldAt w 8 6) (fieldAt w 2 6) (fieldAt w 0 1)
  else .cueIllegal k e w
def cueDecodeRound (k e w : Nat) : Instr :=
  if fieldAt w 1 1 = 0 then
    .cueRoundTile k e (fieldAt w 22 4) (fieldAt w 14 8) (fieldAt w 8 6) (fieldAt w 2 6) (fieldAt w 0 1)
  else .cueIllegal k e w
def cueDecodeGive (k e w : Nat) : Instr :=
  if fieldAt w 0 2 = 0 then .cueGive k e (fieldAt w 22 4) (fieldAt w 14 8) (fieldAt w 8 6) (fieldAt w 2 6)
  else .cueIllegal k e w
def cueDecodeExchange (k e w : Nat) : Instr :=
  if fieldAt w 8 6 = 0 ∧ fieldAt w 2 2 = 0 ∧ fieldAt w 0 2 = 0 then
    .cueExchange k e (fieldAt w 22 4) (fieldAt w 14 8) (fieldAt w 4 4)
  else .cueIllegal k e w
def cueDecodeSync (k e w : Nat) : Instr :=
  match fieldAt w 0 2 with
  | 0 => .cueSyncCollect k e (fieldAt w 22 4) (fieldAt w 14 8)
  | 1 => .cueSyncArrive k e (fieldAt w 22 4) (fieldAt w 14 8)
  | 2 => .cueSyncRelease k e (fieldAt w 22 4) (fieldAt w 14 8)
  | _ => .cueSyncAwait k e (fieldAt w 22 4) (fieldAt w 14 8)
def cueDecodeRetire (k e w : Nat) : Instr :=
  if fieldAt w 0 2 = 0 then .cueRetire k e (fieldAt w 22 4) (fieldAt w 14 8) (fieldAt w 8 6) else .cueIllegal k e w
def cueDecodeAbandon (k e w : Nat) : Instr :=
  if fieldAt w 0 2 = 0 then .cueAbandon k e (fieldAt w 22 4) (fieldAt w 14 8) else .cueIllegal k e w
def cueDecodeBolt (k e w : Nat) : Instr :=
  if fieldAt w 2 1 = 0 then
    match fieldAt w 0 2 with
    | 0 => .cueBoltFetch k e (fieldAt w 14 8) (fieldAt w 8 6) (fieldAt w 2 6)
    | 1 => .cueBoltStash k e (fieldAt w 14 8) (fieldAt w 8 6) (fieldAt w 2 6)
    | _ => .cueIllegal k e w
  else .cueIllegal k e w

/-- The Cue command that engine `e` of Loom `k` issues from an instruction word (R180). -/
def cueDecode (k e w : Nat) : Instr :=
  match fieldAt w 26 6 with
  | 0x00 => cueDecodeSys k e w
  | 0x01 => cueDecodeAlu k e w
  | 0x02 => .cueAddi k e (fieldAt w 20 6) (fieldAt w 14 6) (fieldAt w 0 14)
  | 0x03 => .cueAndi k e (fieldAt w 20 6) (fieldAt w 14 6) (fieldAt w 0 14)
  | 0x04 => .cueOri k e (fieldAt w 20 6) (fieldAt w 14 6) (fieldAt w 0 14)
  | 0x05 => .cueXori k e (fieldAt w 20 6) (fieldAt w 14 6) (fieldAt w 0 14)
  | 0x06 => cueDecodeShi k e w
  | 0x07 => .cueCat k e (fieldAt w 20 6) (fieldAt w 14 6) (fieldAt w 0 14)
  | 0x08 => .cueLd k e (fieldAt w 20 6) (fieldAt w 14 6) (fieldAt w 0 14)
  | 0x09 => .cueSt k e (fieldAt w 20 6) (fieldAt w 14 6) (fieldAt w 0 14)
  | 0x0A => cueDecodeFlag k e w
  | 0x10 => .cueBeq k e (fieldAt w 20 6) (fieldAt w 14 6) (fieldAt w 0 14)
  | 0x11 => .cueBne k e (fieldAt w 20 6) (fieldAt w 14 6) (fieldAt w 0 14)
  | 0x12 => .cueBlt k e (fieldAt w 20 6) (fieldAt w 14 6) (fieldAt w 0 14)
  | 0x13 => .cueBge k e (fieldAt w 20 6) (fieldAt w 14 6) (fieldAt w 0 14)
  | 0x14 => .cueBltu k e (fieldAt w 20 6) (fieldAt w 14 6) (fieldAt w 0 14)
  | 0x15 => .cueBgeu k e (fieldAt w 20 6) (fieldAt w 14 6) (fieldAt w 0 14)
  | 0x16 => .cueJal k e (fieldAt w 20 6) (fieldAt w 0 20)
  | 0x17 => .cueJalr k e (fieldAt w 20 6) (fieldAt w 14 6) (fieldAt w 0 14)
  | 0x20 => cueDecodeVop k e w
  | 0x21 => cueDecodeVld k e w
  | 0x22 => cueDecodeVst k e w
  | 0x23 => cueDecodeVsplat k e w
  | 0x24 => cueDecodeVext k e w
  | 0x28 => cueDecodeAcc k e w
  | 0x30 => cueDecodeOpen k e w
  | 0x31 => cueDecodeTakeRed k e w
  | 0x32 => cueDecodeTake k e w
  | 0x33 => cueDecodeReduce k e w
  | 0x34 => cueDecodeRound k e w
  | 0x35 => cueDecodeGive k e w
  | 0x36 => cueDecodeExchange k e w
  | 0x37 => cueDecodeSync k e w
  | 0x38 => cueDecodeRetire k e w
  | 0x39 => cueDecodeAbandon k e w
  | 0x3A => cueDecodeBolt k e w
  | _ => .cueIllegal k e w

/-! ## Encoder -/

/-- Words of the scalar instructions. -/
def cueEncodeScalar (i : Instr) : Option Nat :=
  match i with
  | .cueNop _ _ => some (sWord 0 0 0 0 0)
  | .cueEnd _ _ => some (sWord 0 0 0 0 1)
  | .cueBreak _ _ a => some (sWord 0 0 a 0 2)
  | .cueSwait _ _ => some (sWord 0 0 0 0 3)
  | .cueRdtime _ _ d => some (sWord 0 d 0 0 4)
  | .cueAdd _ _ d a b => some (sWord 1 d a b 0)
  | .cueSub _ _ d a b => some (sWord 1 d a b 1)
  | .cueAnd _ _ d a b => some (sWord 1 d a b 2)
  | .cueOr _ _ d a b => some (sWord 1 d a b 3)
  | .cueXor _ _ d a b => some (sWord 1 d a b 4)
  | .cueSll _ _ d a b => some (sWord 1 d a b 5)
  | .cueSrl _ _ d a b => some (sWord 1 d a b 6)
  | .cueSra _ _ d a b => some (sWord 1 d a b 7)
  | .cueSlt _ _ d a b => some (sWord 1 d a b 8)
  | .cueSltu _ _ d a b => some (sWord 1 d a b 9)
  | .cueMul _ _ d a b => some (sWord 1 d a b 10)
  | .cueMulhu _ _ d a b => some (sWord 1 d a b 11)
  | .cueMin _ _ d a b => some (sWord 1 d a b 12)
  | .cueMax _ _ d a b => some (sWord 1 d a b 13)
  | .cueMinu _ _ d a b => some (sWord 1 d a b 14)
  | .cueMaxu _ _ d a b => some (sWord 1 d a b 15)
  | .cueAddi _ _ d a imm => some (iWord 2 d a imm)
  | .cueAndi _ _ d a imm => some (iWord 3 d a imm)
  | .cueOri _ _ d a imm => some (iWord 4 d a imm)
  | .cueXori _ _ d a imm => some (iWord 5 d a imm)
  | .cueShi _ _ d a op amt => some (iWord 6 d a (op * 2 ^ 12 + amt))
  | .cueCat _ _ d a imm => some (iWord 7 d a imm)
  | .cueLd _ _ d a imm => some (iWord 8 d a imm)
  | .cueSt _ _ d a imm => some (iWord 9 d a imm)
  | .cueFset _ _ a imm => some (iWord 10 0 a imm)
  | .cueFclr _ _ a imm => some (iWord 10 0 a (2 ^ 12 + imm))
  | .cueFtest _ _ d a imm => some (iWord 10 d a (2 * 2 ^ 12 + imm))
  | .cueWaitf _ _ a imm => some (iWord 10 0 a (3 * 2 ^ 12 + imm))
  | .cueBeq _ _ a b off => some (iWord 16 a b off)
  | .cueBne _ _ a b off => some (iWord 17 a b off)
  | .cueBlt _ _ a b off => some (iWord 18 a b off)
  | .cueBge _ _ a b off => some (iWord 19 a b off)
  | .cueBltu _ _ a b off => some (iWord 20 a b off)
  | .cueBgeu _ _ a b off => some (iWord 21 a b off)
  | .cueJal _ _ d off => some (jWord 22 d off)
  | .cueJalr _ _ d a imm => some (iWord 23 d a imm)
  | _ => none

/-- Words of the vector and accumulator instructions. -/
def cueEncodeVector (i : Instr) : Option Nat :=
  match i with
  | .cueVadd _ _ vd va vb p w => some (vWord 32 vd va vb p (w * 2 ^ 6 + 0))
  | .cueVsub _ _ vd va vb p w => some (vWord 32 vd va vb p (w * 2 ^ 6 + 1))
  | .cueVand _ _ vd va vb p w => some (vWord 32 vd va vb p (w * 2 ^ 6 + 2))
  | .cueVor _ _ vd va vb p w => some (vWord 32 vd va vb p (w * 2 ^ 6 + 3))
  | .cueVxor _ _ vd va vb p w => some (vWord 32 vd va vb p (w * 2 ^ 6 + 4))
  | .cueVmin _ _ vd va vb p w => some (vWord 32 vd va vb p (w * 2 ^ 6 + 5))
  | .cueVmax _ _ vd va vb p w => some (vWord 32 vd va vb p (w * 2 ^ 6 + 6))
  | .cueVminu _ _ vd va vb p w => some (vWord 32 vd va vb p (w * 2 ^ 6 + 7))
  | .cueVmaxu _ _ vd va vb p w => some (vWord 32 vd va vb p (w * 2 ^ 6 + 8))
  | .cueVsel _ _ vd va vb p w => some (vWord 32 vd va vb p (w * 2 ^ 6 + 9))
  | .cueVceq _ _ vd va vb p w => some (vWord 32 vd va vb p (w * 2 ^ 6 + 10))
  | .cueVclt _ _ vd va vb p w => some (vWord 32 vd va vb p (w * 2 ^ 6 + 11))
  | .cueVcltu _ _ vd va vb p w => some (vWord 32 vd va vb p (w * 2 ^ 6 + 12))
  | .cueVmov _ _ vd va p w => some (vWord 32 vd va 0 p (w * 2 ^ 6 + 13))
  | .cuePand _ _ pd pa pb => some (vWord 32 pd pa pb 0 14)
  | .cuePor _ _ pd pa pb => some (vWord 32 pd pa pb 0 15)
  | .cuePnot _ _ pd pa => some (vWord 32 pd pa 0 0 16)
  | .cueVld _ _ vd a imm => some (iWord 33 vd a imm)
  | .cueVst _ _ vd a imm => some (iWord 34 vd a imm)
  | .cueVsplat _ _ vd a w => some (iWord 35 vd a w)
  | .cueVext _ _ d va idx w => some (iWord 36 d va (w * 2 ^ 8 + idx))
  | .cueAclr _ _ acc => some (sWord 40 acc 0 0 0)
  | .cueVacc _ _ acc a vb part p => some (sWord 40 acc a vb (64 + part * 2 ^ 4 + p))
  | .cueAout _ _ vd acc b part => some (sWord 40 vd acc b (128 + part * 2 ^ 4))
  | _ => none

/-- Words of the stream instructions. -/
def cueEncodeStream (i : Instr) : Option Nat :=
  match i with
  | .cueOpen _ _ ch sa => some (cWord 48 ch 0 sa 0 0)
  | .cueTakeRed _ _ ch flag sb => some (cWord 49 ch flag 0 sb 0)
  | .cueTake _ _ ch flag sb => some (cWord 50 ch flag 0 sb 0)
  | .cueReduceTile _ _ ch flag sa sb v => some (cWord 51 ch flag sa sb v)
  | .cueRoundTile _ _ ch flag sa sb v => some (cWord 52 ch flag sa sb v)
  | .cueGive _ _ ch flag sa sb => some (cWord 53 ch flag sa sb 0)
  | .cueExchange _ _ ch flag out => some (cWord 54 ch flag 0 (out * 4) 0)
  | .cueSyncCollect _ _ ch flag => some (cWord 55 ch flag 0 0 0)
  | .cueSyncArrive _ _ ch flag => some (cWord 55 ch flag 0 0 1)
  | .cueSyncRelease _ _ ch flag => some (cWord 55 ch flag 0 0 2)
  | .cueSyncAwait _ _ ch flag => some (cWord 55 ch flag 0 0 3)
  | .cueRetire _ _ ch flag sa => some (cWord 56 ch flag sa 0 0)
  | .cueAbandon _ _ ch flag => some (cWord 57 ch flag 0 0 0)
  | .cueBoltFetch _ _ flag sa sb => some (cWord 58 0 flag sa sb 0)
  | .cueBoltStash _ _ flag sa sb => some (cWord 58 0 flag sa sb 1)
  | .cueIllegal _ _ word => some word
  | _ => none

/-- The word of a Cue instruction, from the encoding tables of R179 to R186; none for a command that is no Cue
instruction. Bits an instruction does not use are 0. -/
def cueEncode (i : Instr) : Option Nat :=
  match cueEncodeScalar i with
  | some w => some w
  | none =>
    match cueEncodeVector i with
    | some w => some w
    | none => cueEncodeStream i

end Sys2Proof
end

