-- ==== Sys2Proof/Machine/Bits.lean ====
section
/-! DEFINITION. Byte order (R7), CRCs (R39, R72, R88) and serial-number comparison (R58). -/

namespace Sys2Proof.Machine

/-- The `n` bytes of a number, most significant first (R7). -/
def bytesOf : Nat → Nat → List Byte
  | 0, _ => []
  | n + 1, v => BitVec.ofNat 8 (v >>> (8 * n)) :: bytesOf n v

/-- The number a list of bytes spells, most significant first (R7). -/
def ofBytes (bs : List Byte) : Nat := bs.foldl (fun a b => a * 256 + b.toNat) 0

/-- The number at `len` bytes from offset `off`; bytes past the end read 0. -/
def bytesAt (bs : List Byte) (off len : Nat) : Nat :=
  let t := (bs.drop off).take len
  ofBytes t * 256 ^ (len - t.length)

/-- One bit of a CRC of `w` bits with polynomial `poly`, most significant bit first. -/
def crcBit (w poly c : Nat) (b : Bool) : Nat :=
  let top := (c >>> (w - 1)) % 2 == 1
  let s := (c * 2) % 2 ^ w
  if top != b then s ^^^ poly else s

/-- A byte into the CRC, most significant bit first. -/
def crcByte (w poly c : Nat) (b : Byte) : Nat :=
  crcBit w poly (crcBit w poly (crcBit w poly (crcBit w poly (crcBit w poly (crcBit w poly (crcBit w poly
    (crcBit w poly c (bitOf b 7)) (bitOf b 6)) (bitOf b 5)) (bitOf b 4)) (bitOf b 3)) (bitOf b 2)) (bitOf b 1)) (bitOf b 0)

/-- CRC-16 of R39: polynomial 0x8BB7, initial value 0xFFFF, no reflection, no final XOR. -/
def crc16 (bs : List Byte) : Nat := bs.foldl (crcByte 16 0x8BB7) 0xFFFF

/-- CRC-32 with polynomial `poly`, initial value 0xFFFF_FFFF, no reflection, no final XOR (R88). -/
def crc32 (poly : Nat) (bs : List Byte) : Nat := bs.foldl (crcByte 32 poly) 0xFFFFFFFF

/-- The bytes of a flit, byte 0 first. -/
def flitBytes (f : Flit) : List Byte := bytesOf 64 f.toNat

/-- The correct CRC-16 of a flit: over bytes 0–61 (R39). -/
def flitCrc (f : Flit) : Nat := crc16 (bytesOf 62 (f.toNat >>> 16))

/-- A flit whose CRC-16 is good. -/
def crcGood (f : Flit) : Bool := bitsOf f 15 0 == flitCrc f

/-- A stomp: bytes 62–63 hold the inverse of the correct CRC-16 (R39). -/
def isStomp (f : Flit) : Bool := bitsOf f 15 0 == 0xFFFF - flitCrc f

/-- A flit with its CRC-16 in place. -/
def sealFlit (v : Nat) : Flit := BitVec.ofNat 512 (v * 65536 + crc16 (bytesOf 62 v))

/-- A flit with the inverse of its CRC-16: a stomp. -/
def stompFlit (v : Nat) : Flit := BitVec.ofNat 512 (v * 65536 + (0xFFFF - crc16 (bytesOf 62 v)))

/-- delta of R58. -/
def delta (a b n : Nat) : Nat := (a + 2 ^ n - b % 2 ^ n) % 2 ^ n

/-- newer of R58. -/
def newer (a b n : Nat) : Bool := decide (1 ≤ delta a b n ∧ delta a b n ≤ 2 ^ (n - 1) - 1)

/-- ceil of a / b. -/
def ceilDiv (a b : Nat) : Nat := (a + b - 1) / b

/-- The least natural number below `n` for which `p` holds, if any. -/
def firstBelow (n : Nat) (p : Nat → Bool) : Option Nat := (List.range n).find? p

/-- A signed value of `w` bits as an integer. -/
def signedOf (w v : Nat) : Int := if 2 ^ (w - 1) ≤ v % 2 ^ w then (v % 2 ^ w : Int) - 2 ^ w else (v % 2 ^ w : Int)

/-- An integer modulo 2^w, as a natural number. -/
def wrapTo (w : Nat) (x : Int) : Nat := (x % (2 ^ w : Int)).toNat

end Sys2Proof.Machine
end

