-- ==== Sys2Proof/Machine/Crypto.lean ====
section
/-! DEFINITION. SHA-384 (FIPS 180-4), ECDSA over P-384 (FIPS 186-5), HMAC and the KDF of NIST SP 800-108, which the spec names
for images, expulsion, attestation and debug access (R196, R283, R285, R309, R310, R312, R321). -/

namespace Sys2Proof.Machine

/-! ## SHA-384 -/

def shaK : List Nat :=
  [0x428A2F98D728AE22, 0x7137449123EF65CD, 0xB5C0FBCFEC4D3B2F, 0xE9B5DBA58189DBBC,
   0x3956C25BF348B538, 0x59F111F1B605D019, 0x923F82A4AF194F9B, 0xAB1C5ED5DA6D8118,
   0xD807AA98A3030242, 0x12835B0145706FBE, 0x243185BE4EE4B28C, 0x550C7DC3D5FFB4E2,
   0x72BE5D74F27B896F, 0x80DEB1FE3B1696B1, 0x9BDC06A725C71235, 0xC19BF174CF692694,
   0xE49B69C19EF14AD2, 0xEFBE4786384F25E3, 0x0FC19DC68B8CD5B5, 0x240CA1CC77AC9C65] ++
  [0x2DE92C6F592B0275, 0x4A7484AA6EA6E483, 0x5CB0A9DCBD41FBD4, 0x76F988DA831153B5,
   0x983E5152EE66DFAB, 0xA831C66D2DB43210, 0xB00327C898FB213F, 0xBF597FC7BEEF0EE4,
   0xC6E00BF33DA88FC2, 0xD5A79147930AA725, 0x06CA6351E003826F, 0x142929670A0E6E70,
   0x27B70A8546D22FFC, 0x2E1B21385C26C926, 0x4D2C6DFC5AC42AED, 0x53380D139D95B3DF,
   0x650A73548BAF63DE, 0x766A0ABB3C77B2A8, 0x81C2C92E47EDAEE6, 0x92722C851482353B] ++
  [0xA2BFE8A14CF10364, 0xA81A664BBC423001, 0xC24B8B70D0F89791, 0xC76C51A30654BE30,
   0xD192E819D6EF5218, 0xD69906245565A910, 0xF40E35855771202A, 0x106AA07032BBD1B8,
   0x19A4C116B8D2D0C8, 0x1E376C085141AB53, 0x2748774CDF8EEB99, 0x34B0BCB5E19B48A8,
   0x391C0CB3C5C95A63, 0x4ED8AA4AE3418ACB, 0x5B9CCA4F7763E373, 0x682E6FF3D6B2B8A3,
   0x748F82EE5DEFB2FC, 0x78A5636F43172F60, 0x84C87814A1F0AB72, 0x8CC702081A6439EC] ++
  [0x90BEFFFA23631E28, 0xA4506CEBDE82BDE9, 0xBEF9A3F7B2C67915, 0xC67178F2E372532B,
   0xCA273ECEEA26619C, 0xD186B8C721C0C207, 0xEADA7DD6CDE0EB1E, 0xF57D4F7FEE6ED178,
   0x06F067AA72176FBA, 0x0A637DC5A2C898A6, 0x113F9804BEF90DAE, 0x1B710B35131C471B,
   0x28DB77F523047D84, 0x32CAAB7B40C72493, 0x3C9EBE0A15C9BEBC, 0x431D67C49C100D4C,
   0x4CC5D4BECB3E42B6, 0x597F299CFC657E2A, 0x5FCB6FAB3AD6FAEC, 0x6C44198C4A475817]

def shaIv : List Nat :=
  [0xCBBB9D5DC1059ED8, 0x629A292A367CD507, 0x9159015A3070DD17, 0x152FECD8F70E5939,
   0x67332667FFC00B31, 0x8EB44A8768581511, 0xDB0C2E0D64F98FA7, 0x47B5481DBEFA4FA4]

/-- Right rotation of a 64-bit word. -/
def rotr (x n : Nat) : Nat := (x >>> n) ||| (x <<< (64 - n)) % 2 ^ 64

/-- The message schedule: words in reverse order, extended by `n`. -/
def shaSched : Nat → List Nat → List Nat
  | 0, w => w
  | n + 1, w =>
    let a := w.getD 1 0; let b := w.getD 14 0
    let s1 := rotr a 19 ^^^ rotr a 61 ^^^ (a >>> 6)
    let s0 := rotr b 1 ^^^ rotr b 8 ^^^ (b >>> 7)
    shaSched n (((s1 + w.getD 6 0 + s0 + w.getD 15 0) % 2 ^ 64) :: w)

/-- One round on the working variables a to h. -/
def shaRound (v : List Nat) (kw : Nat) : List Nat :=
  let a := v.getD 0 0; let b := v.getD 1 0; let c := v.getD 2 0; let d := v.getD 3 0
  let e := v.getD 4 0; let f := v.getD 5 0; let g := v.getD 6 0; let h := v.getD 7 0
  let t1 := h + (rotr e 14 ^^^ rotr e 18 ^^^ rotr e 41) + ((e &&& f) ^^^ ((2 ^ 64 - 1 - e) &&& g)) + kw
  let t2 := (rotr a 28 ^^^ rotr a 34 ^^^ rotr a 39) + ((a &&& b) ^^^ (a &&& c) ^^^ (b &&& c))
  [(t1 + t2) % 2 ^ 64, a, b, c, (d + t1) % 2 ^ 64, e, f, g]

/-- Rounds over the constants and the schedule together. -/
def shaRounds : List Nat → List Nat → List Nat → List Nat
  | k :: ks, w :: ws, v => shaRounds ks ws (shaRound v (k + w))
  | _, _, v => v

/-- One 128-byte block. -/
def shaBlock (h : List Nat) (bs : List Byte) : List Nat :=
  let w := (List.range 16).map (fun i => bytesAt bs (8 * i) 8)
  List.zipWith (fun x y => (x + y) % 2 ^ 64) h (shaRounds shaK (shaSched 64 w.reverse).reverse h)

/-- The blocks of a padded message. -/
def shaBlocks : Nat → List Nat → List Byte → List Nat
  | 0, h, _ => h
  | n + 1, h, bs => shaBlocks n (shaBlock h (bs.take 128)) (bs.drop 128)

/-- SHA-384 of a byte string. -/
def sha384 (bs : List Byte) : BitVec 384 :=
  let len := bs.length
  let z := (111 + 128 - len % 128) % 128
  let padded := bs ++ (128#8 :: List.replicate z 0) ++ bytesOf 16 (8 * len)
  BitVec.ofNat 384 (((shaBlocks (padded.length / 128) shaIv padded).take 6).foldl (fun a x => a * 2 ^ 64 + x) 0)

/-! ## P-384 -/

def p384P : Nat := 2 ^ 384 - 2 ^ 128 - 2 ^ 96 + 2 ^ 32 - 1
def p384B : Nat := 0xB3312FA7E23EE7E4988E056BE3F82D19181D9C6EFE8141120314088F5013875AC656398D8A2ED19D2A85C8EDD3EC2AEF
def p384N : Nat := 0xFFFFFFFFFFFFFFFFFFFFFFFFFFFFFFFFFFFFFFFFFFFFFFFFC7634D81F4372DDF581A0DB248B0A77AECEC196ACCC52973
def p384Gx : Nat := 0xAA87CA22BE8B05378EB1C71EF320AD746E1D3B628BA79B9859F741E082542A385502F25DBF55296C3A545E3872760AB7
def p384Gy : Nat := 0x3617DE4A96262C6F5D9E98BF9292DC29F8F41DBD289A147CE9DA3113B5F0B8C00A60B1CE1D7E819D7A431D7C90EA0E5F

/-- The bits of a number, least significant first. -/
def natBits : Nat → Nat → List Bool
  | 0, _ => []
  | n + 1, v => (v % 2 == 1) :: natBits n (v / 2)

/-- b ^ e modulo m for e of 384 bits. -/
def powMod (b e m : Nat) : Nat :=
  (natBits 384 e).reverse.foldl (fun a t => let a := a * a % m; if t then a * b % m else a) 1
/-- Inverse modulo a prime. -/
def invMod (a m : Nat) : Nat := powMod (a % m) (m - 2) m
def subMod (a b m : Nat) : Nat := (a + m - b % m) % m

/-- A point in Jacobian coordinates; Z = 0 is the point at infinity. -/
abbrev JPt := Nat × Nat × Nat

def jDouble (q : JPt) : JPt :=
  let p := p384P
  let (x, y, z) := q
  if z = 0 ∨ y = 0 then (1, 1, 0)
  else
    let yy := y * y % p
    let s := 4 * x * yy % p
    let zz := z * z % p
    let m := 3 * subMod x zz p * (x + zz) % p
    let x3 := subMod (m * m) (2 * s) p
    (x3, subMod (m * subMod s x3 p) (8 * yy * yy) p, 2 * y * z % p)

def jAdd (q r : JPt) : JPt :=
  let p := p384P
  let (x1, y1, z1) := q
  let (x2, y2, z2) := r
  if z1 = 0 then r else if z2 = 0 then q
  else
    let a := z1 * z1 % p; let b := z2 * z2 % p
    let u1 := x1 * b % p; let u2 := x2 * a % p
    let s1 := y1 * z2 * b % p; let s2 := y2 * z1 * a % p
    if u1 = u2 then (if s1 = s2 then jDouble q else (1, 1, 0))
    else
      let h := subMod u2 u1 p; let w := subMod s2 s1 p
      let hh := h * h % p; let hhh := h * hh % p; let v := u1 * hh % p
      let x3 := subMod (subMod (w * w) hhh p) (2 * v) p
      (x3, subMod (w * subMod v x3 p) (s1 * hhh) p, h * z1 * z2 % p)

def jMul (k : Nat) (q : JPt) : JPt :=
  (natBits 384 k).reverse.foldl (fun a t => let a := jDouble a; if t then jAdd a q else a) (1, 1, 0)

/-- A public key, x then y, is a point of the curve (R283). -/
def p384OnCurve (key : BitVec 768) : Bool :=
  let x := key.toNat / 2 ^ 384; let y := key.toNat % 2 ^ 384
  decide (x < p384P ∧ y < p384P) && (y * y % p384P == (x * x * x + (p384P - 3) * x + p384B) % p384P)

/-- ECDSA P-384 verification of (r, s) over a SHA-384 digest (R196). -/
def ecdsaVerify (key : BitVec 768) (digest : BitVec 384) (r s : Nat) : Bool :=
  if 1 ≤ r ∧ r < p384N ∧ 1 ≤ s ∧ s < p384N then
    p384OnCurve key &&
      (let w := invMod s p384N
       let q := jAdd (jMul (digest.toNat * w % p384N) (p384Gx, p384Gy, 1))
         (jMul (r * w % p384N) (key.toNat / 2 ^ 384, key.toNat % 2 ^ 384, 1))
       q.2.2 != 0 && (let zi := invMod q.2.2 p384P
                      q.1 * zi % p384P * zi % p384P % p384N == r))
  else false

/-- A point in affine coordinates. -/
def jAffine (q : JPt) : Nat × Nat :=
  let zi := invMod q.2.2 p384P
  (q.1 * zi % p384P * zi % p384P, q.2.1 * zi % p384P * zi % p384P * zi % p384P)

/-- The public key of a secret scalar, x then y. -/
def ecdsaPublic (key : Nat) : BitVec 768 :=
  let q := jAffine (jMul key (p384Gx, p384Gy, 1))
  BitVec.ofNat 768 (q.1 * 2 ^ 384 + q.2)

/-- ECDSA P-384 signature (r, s) over a digest, with a secret scalar and a secret number below the group's order. -/
def ecdsaSign (key k : Nat) (digest : BitVec 384) : Nat × Nat :=
  let r := (jAffine (jMul k (p384Gx, p384Gy, 1))).1 % p384N
  (r, invMod k p384N * (digest.toNat + r * key) % p384N)

/-! ## HMAC and key derivation over SHA-384 (R310, R312) -/

/-- HMAC-SHA-384 under a key of at most 128 bytes. -/
def hmac384 (key msg : List Byte) : BitVec 384 :=
  let k := key ++ List.replicate (128 - key.length) 0
  sha384 (k.map (· ^^^ 0x5C#8) ++ bytesOf 48 (sha384 (k.map (· ^^^ 0x36#8) ++ msg)).toNat)

/-- The KDF of NIST SP 800-108 in counter mode for 384 bits: one block. -/
def kdf384 (key label context : List Byte) : BitVec 384 :=
  hmac384 key (bytesOf 4 1 ++ label ++ [0] ++ context ++ bytesOf 4 384)

end Sys2Proof.Machine
end

