-- ==== Sys2Proof/Machine/Arith.lean ====
section
/-! DEFINITION. The arithmetic of the Looms and of Bolt memory (R155 to R173): number formats, exact lanes, ordered and
fast sums, rounding, MX blocks, and the other operations. -/

namespace Sys2Proof.Machine

/-! ## The arithmetic word (R155, R156) -/

/-- The 32-bit arithmetic word. -/
abbrev AWord := BitVec 32

def AWord.fmt (a : AWord) : Nat := bitsOf a 31 27
def AWord.ofmt (a : AWord) : Nat := bitsOf a 26 22
/-- PFMT, with 0x1F meaning OFMT. -/
def AWord.pfmt (a : AWord) : Nat := if bitsOf a 21 17 = 0x1F then AWord.ofmt a else bitsOf a 21 17
def AWord.op (a : AWord) : Nat := bitsOf a 16 13
def AWord.mode (a : AWord) : Nat := bitsOf a 12 11
def AWord.rnd (a : AWord) : Nat := bitsOf a 10 9
def AWord.xlo (a : AWord) : Nat := bitsOf a 7 0

/-- A floating-point element format: exponent and mantissa bits, bias, infinity, and its NaN: 0 none, 1 as IEEE 754,
2 the E4M3 pattern (R157). -/
structure FFmt where
  eb : Nat
  mb : Nat
  bias : Nat
  inf : Bool
  nan : Nat
  deriving DecidableEq, Repr

/-- The element format of a floating-point FMT code (R157). -/
def ffmt (f : Nat) : Option FFmt :=
  match f with
  | 0 => some ⟨11, 52, 1023, true, 1⟩
  | 1 => some ⟨8, 23, 127, true, 1⟩
  | 2 => some ⟨8, 7, 127, true, 1⟩
  | 3 => some ⟨5, 10, 15, true, 1⟩
  | 4 => some ⟨4, 3, 7, false, 2⟩
  | 5 => some ⟨5, 2, 15, true, 1⟩
  | 6 => some ⟨4, 3, 7, false, 2⟩
  | 7 => some ⟨5, 2, 15, true, 1⟩
  | 8 => some ⟨3, 2, 3, false, 0⟩
  | 9 => some ⟨2, 3, 1, false, 0⟩
  | 10 => some ⟨2, 1, 1, false, 0⟩
  | _ => none

def isFloat (f : Nat) : Bool := (ffmt f).isSome
def isMx (f : Nat) : Bool := decide (6 ≤ f ∧ f ≤ 10)
def isSigned (f : Nat) : Bool := decide (16 ≤ f ∧ f ≤ 18)
def isInt (f : Nat) : Bool := isSigned f || decide (20 ≤ f ∧ f ≤ 22)

/-- Bits of one element. -/
def elemBits (f : Nat) : Nat :=
  match f with
  | 0 => 64 | 1 => 32 | 2 => 16 | 3 => 16 | 4 => 8 | 5 => 8 | 6 => 8 | 7 => 8 | 8 => 6 | 9 => 6 | 10 => 4
  | 16 => 8 | 17 => 16 | 18 => 32 | 20 => 8 | 21 => 16 | 22 => 32 | _ => 0

/-- A valid arithmetic word (R156). -/
def awValid (a : AWord) : Bool :=
  let f := AWord.fmt a; let o := AWord.ofmt a; let p := AWord.pfmt a
  let known := elemBits f != 0 && elemBits o != 0 && elemBits p != 0
  let same := o == f && p == f
  match AWord.op a with
  | 0 => known && same
  | 1 =>
    if isFloat f then known && isFloat o && isFloat p && AWord.mode a != 3 && AWord.rnd a != 3
      && (AWord.mode a != 0 || (f != 0 && o != 0 && p != 0))
    else known && isInt o && isInt p
  | 2 => known && same && AWord.rnd a != 3
  | 3 => known && same && AWord.rnd a != 3
  | 4 => known && same && [1, 2, 3, 17, 18, 21, 22].contains f
  | 5 => known && same && isInt f
  | 6 => known && same && isInt f
  | 7 => known && same && isInt f
  | 8 => known && f == 20 && o == 20 && p == 20
  | _ => false

/-! ## Values -/

/-- An exact value: NaN, an infinity, or ±m × 2^e (R157). -/
inductive Val where
  | nan
  | inf (neg : Bool)
  | fin (neg : Bool) (m : Nat) (e : Int)
  deriving DecidableEq, Repr

/-- m × 2^k for a k that keeps it whole, floor otherwise. -/
def shl (m : Nat) (k : Int) : Nat := if 0 ≤ k then m * 2 ^ k.toNat else m / 2 ^ (-k).toNat

/-- Decodes a floating-point element (R157). -/
def decodeFloat (t : FFmt) (b : Nat) : Val :=
  let s := b / 2 ^ (t.eb + t.mb) % 2 == 1
  let ex := b / 2 ^ t.mb % 2 ^ t.eb
  let m := b % 2 ^ t.mb
  if t.nan = 1 ∧ ex = 2 ^ t.eb - 1 then (if m = 0 then .inf s else .nan)
  else if t.nan = 2 ∧ ex = 2 ^ t.eb - 1 ∧ m = 2 ^ t.mb - 1 then .nan
  else if ex = 0 then .fin s m (1 - (t.bias : Int) - t.mb)
  else .fin s (2 ^ t.mb + m) ((ex : Int) - t.bias - t.mb)

/-- Decodes an element of any non-MX format, or an MX element before scaling. -/
def decodeElem (f b : Nat) : Val :=
  match ffmt f with
  | some t => decodeFloat t b
  | none =>
    if isSigned f then
      let v := signedOf (elemBits f) b
      .fin (decide (v < 0)) v.natAbs 0
    else .fin false b 0

/-- Canonical NaN of a format (R163). -/
def canonNan (f : Nat) : Nat :=
  match f with
  | 0 => 0x7FF8000000000000 | 1 => 0x7FC00000 | 2 => 0x7FC0 | 3 => 0x7E00 | 4 => 0x7F | 5 => 0x7E | 6 => 0x7F | 7 => 0x7E
  | _ => 0

/-- The largest finite value of an element format: significand and exponent (R157). -/
def maxFin (t : FFmt) : Nat × Int :=
  match t.nan with
  | 1 => (2 ^ (t.mb + 1) - 1, (2 ^ t.eb - 2 : Int) - t.bias - t.mb)
  | 2 => (2 ^ (t.mb + 1) - 2, (2 ^ t.eb - 1 : Int) - t.bias - t.mb)
  | _ => (2 ^ (t.mb + 1) - 1, (2 ^ t.eb - 1 : Int) - t.bias - t.mb)

/-- Bits of ±k × 2^q, with k below 2^(mb+1) and q the quantum of its exponent. -/
def packFloat (t : FFmt) (neg : Bool) (k : Nat) (q : Int) : Nat :=
  let s := if neg then 2 ^ (t.eb + t.mb) else 0
  if k < 2 ^ t.mb then s + k
  else s + (q + t.mb + t.bias).toNat * 2 ^ t.mb + (k - 2 ^ t.mb)

/-- m1 × 2^e1 compared with m2 × 2^e2: greater. -/
def magGt (m1 : Nat) (e1 : Int) (m2 : Nat) (e2 : Int) : Bool :=
  let e := min e1 e2
  decide (m2 * 2 ^ (e2 - e).toNat < m1 * 2 ^ (e1 - e).toNat)

/-- Rounds ±m × 2^e, m > 0, to a quantum: the whole multiple (R166, R167). `r` is R of R167. -/
def roundK (rnd r m : Nat) (e q : Int) : Nat :=
  if q ≤ e then m * 2 ^ (e - q).toNat
  else
    let s := (q - e).toNat
    let k := m / 2 ^ s
    let rem := m % 2 ^ s
    match rnd with
    | 0 => if 2 ^ s < 2 * rem ∨ (2 * rem = 2 ^ s ∧ k % 2 = 1) then k + 1 else k
    | 2 => if 2 ^ 32 ≤ m * 2 ^ 32 / 2 ^ s % 2 ^ 32 + r then k + 1 else k
    | _ => k

/-- Rounds a finite nonzero value to a floating-point format: the bits, and whether it lies beyond the largest finite
value (R166). -/
def roundFloat (t : FFmt) (rnd r : Nat) (neg : Bool) (m : Nat) (e : Int) : Nat × Bool :=
  let top : Int := (Nat.log2 m : Int) + e
  let q : Int := max top (1 - (t.bias : Int)) - t.mb
  let k := roundK rnd r m e q
  let up := k != roundK 1 r m e q
  let (k, q) := if k = 2 ^ (t.mb + 1) then (2 ^ t.mb, q + 1) else (k, q)
  let (mk, mq) := maxFin t
  if magGt m e mk mq then
    -- nearest even: the rounded value passes the largest; stochastic: the draw rounds up in magnitude
    let toInf := t.inf && (if rnd = 0 then magGt k q mk mq else rnd == 2 && up)
    (if toInf then (if neg then 2 ^ (t.eb + t.mb) else 0) + (2 ^ t.eb - 1) * 2 ^ t.mb else packFloat t neg mk mq, true)
  else (packFloat t neg k q, false)

/-- The format a result is rounded to: an MX element type is a target without infinity (R166, R168). -/
def targetFmt (f : Nat) : Option FFmt := (ffmt f).map (fun t => { t with inf := t.inf && !isMx f })

/-- A value in a target format (R163, R166): its bits, and 1 where it counts in ARITH_SAT. -/
def encodeVal (f rnd r : Nat) (v : Val) : Nat × Nat :=
  match targetFmt f with
  | some t =>
    match v with
    | .nan => (canonNan f, 0)
    | .inf s => if t.inf then ((if s then 2 ^ (t.eb + t.mb) else 0) + (2 ^ t.eb - 1) * 2 ^ t.mb, 0) else (canonNan f, 0)
    | .fin s 0 _ => (if s then 2 ^ (t.eb + t.mb) else 0, 0)
    | .fin s (m + 1) e => let x := roundFloat t rnd r s (m + 1) e; (x.1, bit x.2)
  | none =>
    match v with
    | .fin s m e =>
      let w := elemBits f
      let x : Int := if s then -(shl m e : Int) else (shl m e : Int)
      let lo : Int := if isSigned f then -(2 ^ (w - 1)) else 0
      let hi : Int := if isSigned f then 2 ^ (w - 1) - 1 else 2 ^ w - 1
      (wrapTo w (max lo (min hi x)), bit (decide (x < lo ∨ hi < x)))
    | _ => (0, 0)

/-! ## Exact lanes (R160 to R163) -/

/-- An accumulator lane: its sum in LSB units, its flags and its count of additions. -/
structure ALane where
  sum : Int := 0
  nan : Bool := false
  pinf : Bool := false
  ninf : Bool := false
  nz : Bool := false
  cnt : Nat := 0
  deriving DecidableEq, Repr

/-- Exponent of a lane's LSB for an FMT (R160). -/
def lsbExp (f xlo : Nat) : Int :=
  if 1 ≤ f ∧ f ≤ 3 then -149 else if f = 4 ∨ f = 5 then -16 else if isMx f then (xlo : Int) - 143 else 0

/-- The wide class (R160). -/
def isWide (f : Nat) : Bool := decide (1 ≤ f ∧ f ≤ 3)

/-- One input into an exact lane (R160, R161). -/
def ALane.add (l : ALane) (lsb : Int) (v : Val) : ALane :=
  let l := { l with cnt := l.cnt + 1,
                    nz := (l.nz || l.cnt == 0) && (match v with | .fin true 0 _ => true | _ => false) }
  match v with
  | .nan => { l with nan := true }
  | .inf true => { l with ninf := true }
  | .inf false => { l with pinf := true }
  | .fin s m e => { l with sum := if s then l.sum - shl m (e - lsb) else l.sum + shl m (e - lsb) }

/-- The value of a lane at readout (R163). -/
def ALane.val (l : ALane) (lsb : Int) : Val :=
  if l.nan || (l.pinf && l.ninf) then .nan
  else if l.pinf then .inf false
  else if l.ninf then .inf true
  else if l.sum = 0 then .fin l.nz 0 0
  else .fin (decide (l.sum < 0)) l.sum.natAbs lsb

/-! ## Tree arithmetic (R164, R165) -/

/-- Rounds an exact value to FP32 or FP64, nearest even, as a value. -/
def toTree (f : Nat) (v : Val) : Val :=
  match ffmt (if f = 0 then 0 else 1) with
  | none => v
  | some t =>
    match v with
    | .fin s (m + 1) e => decodeFloat t (roundFloat t 0 0 s (m + 1) e).1
    | v => v

/-- IEEE 754 addition of two values of the tree arithmetic, nearest even. -/
def treeAdd (f : Nat) (a b : Val) : Val :=
  match a, b with
  | .nan, _ => .nan
  | _, .nan => .nan
  | .inf s, .inf t => if s = t then .inf s else .nan
  | .inf s, _ => .inf s
  | _, .inf s => .inf s
  | .fin s m e, .fin t n k =>
    let q := min e k
    let x : Int := (if s then -1 else 1) * (m * 2 ^ (e - q).toNat : Nat) + (if t then -1 else 1) * (n * 2 ^ (k - q).toNat : Nat)
    if x = 0 then .fin (s && t) 0 0
    else toTree f (.fin (decide (x < 0)) x.natAbs q)

/-- One level of the tree of R164. -/
def treeLevel (f : Nat) : List Val → List Val
  | a :: b :: l => treeAdd f a b :: treeLevel f l
  | l => l

/-- The ordered sum of R164 over inputs in member order; fuel is the number of levels. -/
def orderedSum (f : Nat) : Nat → List Val → Val
  | _, [] => .fin false 0 0
  | _, [x] => x
  | 0, x :: _ => x
  | n + 1, l => orderedSum f n (treeLevel f l)

/-! ## Other operations (R170 to R173) -/

/-- Rank of a value for MAX and MIN: a comparison where −0 is below +0 (R170). -/
def valLt (a b : Val) : Bool :=
  match a, b with
  | .inf true, .inf true => false
  | .inf true, _ => true
  | _, .inf true => false
  | .inf false, _ => false
  | _, .inf false => true
  | .fin s m e, .fin t n k =>
    match s, t with
    | true, false => true
    | false, true => false
    | false, false => magGt n k m e
    | true, true => magGt m e n k
  | _, _ => false

/-- MAX or MIN of two values: NaN if either is (R170). -/
def valMax (isMax : Bool) (a b : Val) : Val :=
  match a, b with
  | .nan, _ => .nan
  | _, .nan => .nan
  | a, b => if isMax then (if valLt a b then b else a) else (if valLt b a then b else a)

/-- ARGMAX of two records (value, INDEX): the greater value, NaN above all, then the lower INDEX (R171). -/
def argMax (a b : Val × Nat) : Val × Nat :=
  match a.1, b.1 with
  | .nan, .nan => if b.2 < a.2 then b else a
  | .nan, _ => a
  | _, .nan => b
  | x, y => if valLt x y then b else if valLt y x then a else if b.2 < a.2 then b else a

/-- Multiplication by 2 in GF(2^8) with 0x11D (R173). -/
def gfDouble (a : Nat) : Nat := if a < 128 then 2 * a else (2 * a) ^^^ 0x11D

/-- Multiplication in GF(2^8) (R173). -/
def gfMul (a b : Nat) : Nat :=
  ((List.range 8).foldl (fun (st : Nat × Nat) i =>
    ((if b.testBit i then st.1 ^^^ st.2 else st.1), gfDouble st.2)) (0, a % 256)).1

/-! ## Stochastic rounding (R167) -/

def mix64 (z : Nat) : Nat :=
  let z := ((z ^^^ (z >>> 30)) * 0xBF58476D1CE4E5B9) % 2 ^ 64
  let z := ((z ^^^ (z >>> 27)) * 0x94D049BB133111EB) % 2 ^ 64
  z ^^^ (z >>> 31)

/-- R for element `e` of a tile: bits [63:32] of the seed. -/
def stochR (ens group opseq tile e : Nat) : Nat :=
  mix64 (mix64 ((ens <<< 30) ||| (group <<< 16) ||| opseq) ^^^ (((tile <<< 20) ||| e) % 2 ^ 64)) / 2 ^ 32

/-! ## Tiles (R158, R159, R162, R168) -/

/-- Elements in `n` bytes of a format, or none where the length does not suit it (R159). -/
def tileElems (f n : Nat) : Option Nat :=
  if isMx f then
    -- 32 elements of elemBits bits and one scale byte a block, a multiple of 64 blocks
    let blk := 4 * elemBits f + 1
    if n % (64 * blk) = 0 then some (n / blk * 32) else none
  else if elemBits f = 0 then none
  else if n % (elemBits f / 8) = 0 then some (n / (elemBits f / 8)) else none

/-- The element bits of a tile, one by one, most significant first. -/
def elemsOf (f : Nat) (bs : List Byte) (count : Nat) : List Nat :=
  let w := elemBits f
  if w % 8 = 0 then (List.range count).map (fun i => bytesAt bs (i * (w / 8)) (w / 8))
  else
    let g := if w = 6 then 3 else 1
    let per := if w = 6 then 4 else 2
    (List.range count).map (fun i =>
      bytesAt bs (i / per * g) g / 2 ^ (w * (per - 1 - i % per)) % 2 ^ w)

/-- The scale byte of each block of an MX tile (R159). -/
def scalesOf (f : Nat) (bs : List Byte) (count : Nat) : List Nat :=
  let off := count * elemBits f / 8
  (List.range (count / 32)).map (fun b => bytesAt bs (off + b) 1)

/-- An MX element's value under its block's scale (R158). -/
def mxVal (f b x : Nat) : Val :=
  if x = 0xFF then .nan
  else match decodeElem f b with
    | .fin s m e => .fin s m (e + x - 127)
    | v => v

/-- The values of a tile's elements (R157 to R159). -/
def tileVals (f : Nat) (bs : List Byte) (count : Nat) : List Val :=
  if isMx f then
    let sc := scalesOf f bs count
    (elemsOf f bs count).mapIdx (fun i b => mxVal f b (sc.getD (i / 32) 0))
  else (elemsOf f bs count).map (decodeElem f)

/-- The values an exact narrow lane takes from an MX tile: blocks outside the window count as zeros or as NaN (R162). -/
def tileValsExact (f xlo : Nat) (bs : List Byte) (count : Nat) : List Val :=
  if isMx f then
    let sc := scalesOf f bs count
    (elemsOf f bs count).mapIdx (fun i b =>
      let x := sc.getD (i / 32) 0
      if x = 0xFF then .nan
      else if x < xlo then .fin (b.testBit (elemBits f - 1)) 0 0
      else if xlo + 64 ≤ x then .nan
      else mxVal f b x)
  else (elemsOf f bs count).map (decodeElem f)

/-- Blocks of an MX tile below and above the window (R162). -/
def mxOut (f xlo : Nat) (bs : List Byte) (count : Nat) : Nat × Nat :=
  if isMx f then
    let sc := scalesOf f bs count
    (sc.countP (fun x => decide (x < xlo)), sc.countP (fun x => decide (xlo + 64 ≤ x ∧ x ≠ 0xFF)))
  else (0, 0)

/-- emax of an MX element type (R168). -/
def mxEmax (f : Nat) : Int := match f with | 6 => 8 | 7 => 15 | 8 => 4 | 9 => 2 | _ => 2

/-- One block of an MX result from its 32 values: scale, element bits, and saturations (R168). -/
def mxBlock (f rnd : Nat) (rs : Nat → Nat) (vs : List Val) : Nat × List Nat × Nat :=
  if vs.any (fun v => match v with | .fin _ _ _ => false | _ => true) then (0xFF, vs.map (fun _ => 0), 0)
  else
    let top := vs.foldl (fun (o : Option Int) v =>
      match v with
      | .fin _ (m + 1) e =>
        let l : Int := (Nat.log2 (m + 1) : Int) + e
        (match o with | none => some l | some x => some (max x l))
      | _ => o) none
    match top with
    | none => (0, vs.map (fun v => (encodeVal f 0 0 v).1), 0)
    | some l =>
      let x : Int := max 0 (min 254 (l - mxEmax f + 127))
      let es := vs.mapIdx (fun i v =>
        match v with
        | .fin s m e => encodeVal f rnd (rs i) (.fin s m (e + 127 - x))
        | v => encodeVal f rnd (rs i) v)
      (x.toNat, es.map (·.1), es.foldl (fun a y => a + y.2) 0)

/-- Packs elements of `w` bits into bytes, most significant first (R159). -/
def packElems (w : Nat) (es : List Nat) : List Byte :=
  if w % 8 = 0 then es.flatMap (fun e => bytesOf (w / 8) e)
  else
    let per := if w = 6 then 4 else 2
    let g := if w = 6 then 3 else 1
    (List.range (es.length / per)).flatMap (fun i =>
      bytesOf g (((es.drop (i * per)).take per).foldl (fun a e => a * 2 ^ w + e) 0))

/-- A tile of results in a format: its bytes and its ARITH_SAT count (R159, R163, R166 to R168). -/
def encodeTile (f rnd : Nat) (rs : Nat → Nat) (vs : List Val) : List Byte × Nat :=
  if isMx f then
    let bl := (List.range (vs.length / 32)).map (fun b =>
      mxBlock f rnd (fun i => rs (32 * b + i)) ((vs.drop (32 * b)).take 32))
    (packElems (elemBits f) (bl.flatMap (fun x => x.2.1)) ++ bl.map (fun x => BitVec.ofNat 8 x.1),
     bl.foldl (fun a x => a + x.2.2) 0)
  else
    let es := vs.mapIdx (fun i v => encodeVal f rnd (rs i) v)
    (packElems (elemBits f) (es.map (·.1)), es.foldl (fun a x => a + x.2) 0)

/-! ## Reduction of whole inputs -/

/-- Element-wise transposition: the i-th elements of every list. -/
def column {α : Type} (dflt : α) (ls : List (List α)) (i : Nat) : List α := ls.map (fun l => l.getD i dflt)

/-- The value sum of one element's inputs, in member order (`ord`) and arrival order (`arr`) (R160, R164, R165). -/
def sumVals (a : AWord) (ord arr : List Val) : Val :=
  let f := AWord.fmt a
  if isInt f ∨ AWord.mode a = 0 then (ord.foldl (fun l v => l.add (lsbExp f (AWord.xlo a)) v) ({} : ALane)).val (lsbExp f (AWord.xlo a))
  else if AWord.mode a = 1 then orderedSum f ord.length (ord.map (toTree f))
  else match arr.map (toTree f) with
    | [] => .fin false 0 0
    | x :: l => l.foldl (treeAdd f) x

/-- What a reduction gives: the values of SUM, MAX and MIN before rounding, or the bytes of the other operations. -/
inductive Reduced where
  | vals (l : List Val)
  | bytes (l : List Byte)
  deriving DecidableEq, Repr

/-- Reduces inputs of `n` bytes each, listed in member order and in arrival order. GF_LIN gives row `coef` (R170 to R173). -/
def reduceBytes (a : AWord) (n : Nat) (ord arr : List (List Byte)) (coef : List Nat) : Reduced :=
  let f := AWord.fmt a
  let cnt := (tileElems f n).getD 0
  match AWord.op a with
  | 0 => .bytes (ord.headD [])
  | 1 =>
    let dec := fun b => if AWord.mode a = 0 then tileValsExact f (AWord.xlo a) b cnt else tileVals f b cnt
    let vo := ord.map dec
    let va := arr.map dec
    .vals ((List.range cnt).map (fun i => sumVals a (column .nan vo i) (column .nan va i)))
  | 2 =>
    let vo := ord.map (fun b => tileVals f b cnt)
    .vals ((List.range cnt).map (fun i => (column .nan vo i).foldl (valMax true) ((column .nan vo i).headD .nan)))
  | 3 =>
    let vo := ord.map (fun b => tileVals f b cnt)
    .vals ((List.range cnt).map (fun i => (column .nan vo i).foldl (valMax false) ((column .nan vo i).headD .nan)))
  | 4 =>
    let w := elemBits f / 8
    let recOf (b : List Byte) (i : Nat) : Val × Nat := (decodeElem f (bytesAt b (8 * i) w), bytesAt b (8 * i + 4) 4)
    .bytes ((List.range (n / 8)).flatMap (fun i =>
      let rs := ord.map (fun b => recOf b i)
      let best := rs.foldl argMax (rs.headD (.nan, 0))
      bytesOf w (encodeVal f 0 0 best.1).1 ++ bytesOf (4 - w) 0 ++ bytesOf 4 best.2))
  | 8 =>
    .bytes ((List.range n).map (fun j =>
      BitVec.ofNat 8 ((ord.mapIdx (fun i b => gfMul (coef.getD i 0) (bytesAt b j 1))).foldl (· ^^^ ·) 0)))
  | o =>
    .bytes ((List.range n).map (fun j =>
      BitVec.ofNat 8 ((ord.drop 1).foldl (fun x b =>
        let y := bytesAt b j 1
        if o = 5 then x &&& y else if o = 6 then x ||| y else x ^^^ y) (bytesAt (ord.headD []) j 1))))

/-- Bytes of one accumulator record: 48 wide, 32 narrow (R224). -/
def recBytes (f : Nat) : Nat := if isWide f then 48 else 32

/-- An accumulator record's lane (R224). -/
def laneOfRec (f : Nat) (bs : List Byte) : ALane :=
  let w := if isWide f then 40 else 20
  let st := bytesAt bs (if isWide f then 40 else 24) 8
  { sum := signedOf (8 * w) (bytesAt bs 0 w), nan := st.testBit 63, pinf := st.testBit 62, ninf := st.testBit 61,
    nz := st.testBit 60, cnt := st % 2 ^ 40 }

/-- The record of a lane (R224). -/
def recOfLane (f : Nat) (l : ALane) : List Byte :=
  let w := if isWide f then 40 else 20
  bytesOf w (wrapTo (8 * w) l.sum) ++ (if isWide f then [] else bytesOf 4 0)
    ++ bytesOf 8 (bit l.nan * 2 ^ 63 + bit l.pinf * 2 ^ 62 + bit l.ninf * 2 ^ 61 + bit l.nz * 2 ^ 60 + l.cnt % 2 ^ 40)

end Sys2Proof.Machine
end

