-- ==== Sys2Proof/Config.lean ====
section
/-! DEFINITION. Values the spec leaves open or gives to an implementation: opaque constants, which no proof can see. -/

namespace Sys2Proof

/-- A free value for the `n`-th time the model needs one. DESIGN CHOICE: nothing constrains it. -/
opaque Config.freeNat : Nat → Nat

/-- A byte of the coefficients that a descriptor names where its block is not aligned or leaves data memory, by address: R185
lists no trap for such a block and states no bytes for it. -/
opaque Config.coefByte : Nat → BitVec 8
/-- Where the copy of an image begins in its Loom's part of the staging region, by resident slot: R197 gives no layout. -/
opaque Config.stagingAt : Nat → Nat

/-- The PTP domain number configured for the servo: the spec names no register for it (R270). -/
opaque Config.ptpDomain : Nat
/-- The servo's estimate of its offset, in 2^-16 ns, from a fresh value, the ingress time of the Sync, its originTimestamp and
correctionFields, the egress time of the last Delay_Req, and the receiveTimestamp and correctionField of the Delay_Resp that
answered one: the spec states no computation of it (R270). -/
opaque Config.servoEstimate : Nat → Nat × Nat × Nat → Nat → List Nat → Option (Nat × Nat × Nat) → Option (Nat × Nat) → Int
/-- sourcePortIdentity of the device's own PTP messages: no spec value. -/
opaque Config.clockIdentity : Nat

/-- TC of the packets a Loom makes: the spec gives none. A free value. -/
opaque Config.loomTc : Nat
/-- CA of the Loom that hosts the stage above, by production, group kind and group: the spec does not say how a Loom
knows it. A free value. -/
opaque Config.upperHost : Nat → Bool → Nat → Nat

/-- Public key of the Charex library, x then y, as the library image carries it: no spec value. -/
opaque Config.charexKey : BitVec 768
/-- DATA of REPAIR and its kin, by kind, site and unit: the spec says what it names and not where. -/
opaque Config.repairData : Nat → Nat → Nat → BitVec 64
/-- Digest of an overlay entry, by kind, site, unit, spare and TIME_LOW: the spec gives the entry no byte layout. -/
opaque Config.overlayDigest : Nat → Nat → Nat → Nat → Nat → BitVec 384

/-- TC of the FAULT packets the device makes: the spec gives none. A free value. -/
opaque Config.faultTc : Nat
/-- Digest of the fabric-manager registrations, by their register words: the spec gives no byte layout. -/
opaque Config.fmDigest : List (BitVec 64) → BitVec 384

/-- DATA of DEBUG_OPENED, by level and slot: the spec says what it names and not where. -/
opaque Config.debugData : Nat → Nat → BitVec 64
/-- The certificate chain of an SPDM slot, by slot and public key: the fuses hold that of slot 0, and the security module
issues that of slot 1 (R312). The spec gives no certificate's bytes. -/
opaque Config.certChain : Nat → BitVec 768 → List (BitVec 8)
/-- The digest that an SPDM signature is made over, by request and response: DSP0274 forms it from the whole conversation. -/
opaque Config.spdmHash : List (BitVec 8) → List (BitVec 8) → BitVec 384
/-- CTExponent, DataTransferSize and MaxSPDMmsgSize of CAPABILITIES: no spec values (R317). -/
opaque Config.spdmSizes : Nat → Nat
/-- Label of the key derivation of R312, by slot: the spec gives none. -/
opaque Config.kdfLabel : Nat → List (BitVec 8)
/-- What a debug write of class 3 asks for, by address and data: the engine of its Loom (R329), and 0 to let it run, 1 to halt
it, 2 to let it take one step. The spec does not lay class 3 out. -/
opaque Config.haltOp : Nat → BitVec 64 → Nat × Nat
/-- The digest of the fuse configuration that SEC_MEAS0 takes, by part, SVN floor and owner slots: no byte layout given. -/
opaque Config.fuseDigest : Nat → Nat → Nat → Nat → Nat → BitVec 384 → BitVec 384
/-- The crosstalk matrix that firmware loads, by Wing and index (R243). -/
opaque Config.xtalk : Nat → Nat → BitVec 64
/-- Addresses of debug space that lie inside the security module (R329): the spec does not say which. -/
opaque Config.securitySpace : Nat → Bool

/-- Which tick of five has the 52,428 units (R266): the spec does not say. -/
opaque Config.tickPhase : Nat

/-- The 64-byte unit of the carve-out region for committed table copies that holds an entry, by its storage key: R223 gives
the region and no layout (R90). -/
opaque Config.copyUnit : Nat → Nat

/-- Bias, in 0.05 % of its maximum, at which a laser gives the commissioned power, by laser, recorded OMA and a fresh number
(R235): the spec gives no such curve. -/
opaque Config.biasFor : Nat → Nat → Nat → Nat
/-- Element that a circuit passes in a stage of the trapdoor network, by its path's number and the stage (R245): the spec
leaves the rearrangement to the device. -/
opaque Config.trapElement : Nat → Nat → Nat
/-- Drive that a heater's locking loop demands, by a fresh number, Wing and heater (R242, R243). -/
opaque Config.loopDrive : Nat → Nat → Nat → Int
/-- Correction that firmware's coefficients predict for a heater, by a fresh number, Wing and heater (R242). -/
opaque Config.feedForward : Nat → Nat → Nat → Int
/-- Largest drive of a heater (R243). -/
opaque Config.heaterMax : Nat → Nat

end Sys2Proof
end

