-- ==== Sys2Proof/Machine/NMap.lean ====
section
/-! DEFINITION. Sorted association lists keyed by a Nat: the sparse stores of the block. -/

namespace Sys2Proof.Machine

/-- A sparse store: pairs of a key and a value, keys strictly rising. -/
abbrev NMap (α : Type) := List (Nat × α)

/-- The value at a key. -/
def NMap.find {α : Type} : NMap α → Nat → Option α
  | [], _ => none
  | (k, v) :: m, j => if j = k then some v else NMap.find m j

/-- The value at a key, or the default. -/
def NMap.get {α : Type} (m : NMap α) (dflt : α) (j : Nat) : α := (m.find j).getD dflt

/-- The store with a value at a key, in key order. -/
def NMap.put {α : Type} : NMap α → Nat → α → NMap α
  | [], j, x => [(j, x)]
  | (k, v) :: m, j, x =>
    if j < k then (j, x) :: (k, v) :: m
    else if j = k then (j, x) :: m
    else (k, v) :: NMap.put m j x

/-- The store without a key. -/
def NMap.erase {α : Type} : NMap α → Nat → NMap α
  | [], _ => []
  | (k, v) :: m, j => if j = k then NMap.erase m j else (k, v) :: NMap.erase m j

/-- The store with a value at a key, where the value `dflt` is held by listing nothing. -/
def NMap.putD {α : Type} [DecidableEq α] (m : NMap α) (dflt : α) (j : Nat) (x : α) : NMap α :=
  if x = dflt then m.erase j else m.put j x

/-- Keys strictly rising. -/
def NMap.sorted {α : Type} : NMap α → Bool
  | [] => true
  | [_] => true
  | (k, _) :: (j, w) :: m => decide (k < j) && NMap.sorted ((j, w) :: m)

end Sys2Proof.Machine
end

