-- ==== Sys2Proof/Machine/RegMap.lean ====
section
/-! DEFINITION. The register families of the spec: where each lies (R8, R331), its fields, their access codes (R10) and
their reset values, written from the register tables of the spec's chapters. -/

namespace Sys2Proof.Machine

/-- The access codes of R10. -/
inductive Acc where
  | ro | rw | w1c | w1s | rc | wo | rwl
  deriving DecidableEq, Repr

/-- The register families of the spec, each under the name its table has (index letters left out). -/
inductive RF where
  /-- R19, register table beside it. -/
  | GLB_ID
  /-- R19, register table beside it. -/
  | GLB_SITE_MAP
  /-- R24, register table beside it. -/
  | GLB_REF_CTL
  /-- R32, register table beside it. -/
  | GLB_SEAM_STAT
  /-- R32, register table beside it. -/
  | GLB_RESET_CTL
  /-- R64, register table beside it. -/
  | TBL_ROUTE_CTL
  /-- R64, register table beside it. -/
  | TBL_DOWN
  /-- R64, register table beside it. -/
  | TBL_UP
  /-- R65, register table beside it. -/
  | PRT_ROUTE
  /-- R79, register table beside it. -/
  | TBL_CMD
  /-- R79, register table beside it. -/
  | TBL_STAT
  /-- R79, register table beside it. -/
  | TBL_DATA
  /-- R84, register table beside it. -/
  | TBL_TCAM_PART
  /-- R90, register table beside it. -/
  | TBL_DMA_LOCK
  /-- R94, register table beside it. -/
  | PRT_BORDER
  /-- R94, register table beside it. -/
  | PRT_BORDER_MAC
  /-- R96, register table beside it. -/
  | PRT_LEARN
  /-- R96, register table beside it. -/
  | TBL_LEARN_CTL
  /-- R102, register table beside it. -/
  | WRD_POOL
  /-- R102, register table beside it. -/
  | WRD_RES
  /-- R102, register table beside it. -/
  | WRD_SHARE
  /-- R102, register table beside it. -/
  | WRD_COLL_POOL
  /-- R103, register table beside it. -/
  | WRD_PROD
  /-- R349, register table beside it. -/
  | PRT_MARK
  /-- R108, register table beside it. -/
  | WRD_RSQ_CTL
  /-- R108, register table beside it. -/
  | WRD_RSQ_STAT
  /-- R121, register table beside it. -/
  | PRT_QRATE
  /-- R121, register table beside it. -/
  | PRT_QOWN
  /-- R121, register table beside it. -/
  | PRT_VLG
  /-- R127, register table beside it. -/
  | PRT_TCMAP
  /-- R127, register table beside it. -/
  | PRT_COLOUR
  /-- R127, register table beside it. -/
  | PRT_POL
  /-- R130, register table beside it. -/
  | PRT_RO_CTL
  /-- R130, register table beside it. -/
  | PRT_RO_BASE
  /-- R130, register table beside it. -/
  | PRT_RO_ENTRY
  /-- R131, register table beside it. -/
  | PRT_SCHED
  /-- R138, register table beside it. -/
  | TBL_ENS_A
  /-- R138, register table beside it. -/
  | TBL_ENS_B
  /-- R138, register table beside it. -/
  | TBL_ENS_C
  /-- R151, register table beside it. -/
  | LOM_COLL_CTL
  /-- R191, register table beside it. -/
  | CUE_ENG_STAT
  /-- R191, register table beside it. -/
  | CUE_ENG_TRAP
  /-- R193, register table beside it. -/
  | CUE_SAMPLE_CTL
  /-- R196, register table beside it. -/
  | CUE_LDR_CMD
  /-- R196, register table beside it. -/
  | CUE_LDR_SRC
  /-- R196, register table beside it. -/
  | CUE_LDR_STAT
  /-- R219, register table beside it. -/
  | MEM_CTL
  /-- R219, register table beside it. -/
  | MEM_LEDGER
  /-- R232, register table beside it. -/
  | WNG_LANE_CTL
  /-- R232, register table beside it. -/
  | WNG_LANE_STAT
  /-- R234, register table beside it. -/
  | WNG_LASER
  /-- R239, register table beside it. -/
  | WNG_LASER_CMD
  /-- R241, register table beside it. -/
  | WNG_CTL
  /-- R243, register table beside it. -/
  | WNG_XTALK
  /-- R244, register table beside it. -/
  | WNG_HEAT_STAT
  /-- R245, register table beside it. -/
  | WNG_TRAP_MAP
  /-- R245, register table beside it. -/
  | WNG_TRAP_CTL
  /-- R250, register table beside it. -/
  | PRT_LINK_CTL
  /-- R250, register table beside it. -/
  | PRT_LINK_STAT
  /-- R257, register table beside it. -/
  | GLB_LINK_CTL
  /-- R257, register table beside it. -/
  | PRT_SEAT
  /-- R257, register table beside it. -/
  | PRT_PEER
  /-- R268, register table beside it. -/
  | TMU_FRC
  /-- R268, register table beside it. -/
  | TMU_RATE
  /-- R268, register table beside it. -/
  | TMU_OFFSET
  /-- R268, register table beside it. -/
  | TMU_OFFSET_FINE
  /-- R268, register table beside it. -/
  | TMU_NOW
  /-- R268, register table beside it. -/
  | TMU_NOW_FRAC
  /-- R269, register table beside it. -/
  | TMU_CTL
  /-- R269, register table beside it. -/
  | TMU_STAT
  /-- R274, register table beside it. -/
  | PRT_LAUNCH_CTL
  /-- R274, register table beside it. -/
  | PRT_LAUNCH
  /-- R281, register table beside it. -/
  | PRT_FENCE
  /-- R282, register table beside it. -/
  | GLB_FM
  /-- R282, register table beside it. -/
  | GLB_FM_KEY
  /-- R282, register table beside it. -/
  | GLB_FM_LOCK
  /-- R285, register table beside it. -/
  | GLB_EXPEL
  /-- R287, register table beside it. -/
  | GLB_PROD
  /-- R296, register table beside it. -/
  | GLB_REPAIR
  /-- R296, register table beside it. -/
  | GLB_RHS
  /-- R299, register table beside it. -/
  | PWR_STAT
  /-- R299, register table beside it. -/
  | PWR_CAP_MIN
  /-- R299, register table beside it. -/
  | PWR_CAP_INST
  /-- R303, register table beside it. -/
  | PWR_GOV
  /-- R306, register table beside it. -/
  | PWR_LOG_A
  /-- R306, register table beside it. -/
  | PWR_LOG_B
  /-- R308, register table beside it. -/
  | PWR_THERM
  /-- R314, register table beside it. -/
  | SEC_MEAS
  /-- R314, register table beside it. -/
  | SEC_EXT_DIGEST
  /-- R314, register table beside it. -/
  | SEC_EXT_CTL
  /-- R316, register table beside it. -/
  | SEC_STATE
  /-- R320, register table beside it. -/
  | SEC_DBG_CTL
  /-- R320, register table beside it. -/
  | SEC_DBG_NONCE
  /-- R320, register table beside it. -/
  | SEC_DBG_RESP
  /-- R329, register table beside it. -/
  | GLB_HOUSE_ACL
  /-- R329, register table beside it. -/
  | GLB_HOUSE_LOCK
  /-- R331, register table beside it. -/
  | PRT_BCAST_SEL
  /-- R331, register table beside it. -/
  | PRT_BCAST_MASK
  /-- R333, register table beside it. -/
  | GLB_SUB
  /-- R333, register table beside it. -/
  | GLB_NLOG_A
  /-- R333, register table beside it. -/
  | GLB_NLOG_B
  /-- R333, register table beside it. -/
  | GLB_NLOG_C
  /-- R333, register table beside it. -/
  | GLB_NLOG_STAT
  /-- R336, register table beside it. -/
  | GLB_START
  /-- R340, register table beside it. -/
  | CNT_VAL
  /-- R340, register table beside it. -/
  | CNT_CHAIN
  /-- R341, register table beside it. -/
  | CNT_FILT_A
  /-- R341, register table beside it. -/
  | CNT_FILT_B
  /-- R341, register table beside it. -/
  | CNT_FILT_C
  /-- R341, register table beside it. -/
  | CNT_FILT_D
  /-- R343, register table beside it. -/
  | CNT_FREEZE
  /-- R345, register table beside it. -/
  | CNT_DMA_CTL
  /-- R345, register table beside it. -/
  | CNT_SNAP_WP
  /-- R345, register table beside it. -/
  | CNT_SNAP_RP
  /-- R345, register table beside it. -/
  | CNT_SMP_WP
  /-- R345, register table beside it. -/
  | CNT_SMP_RP
  deriving DecidableEq, Repr

/-- A field of a register family: bits [hi:lo], its access code and its reset value. -/
structure Fld where
  rf : RF
  hi : Nat
  lo : Nat
  acc : Acc
  rst : Nat
  deriving DecidableEq, Repr

/-- PART of GLB_ID. -/
def F.GLB_ID_PART : Fld := ⟨.GLB_ID, 63, 48, .ro, 0⟩
/-- STEPPING of GLB_ID. -/
def F.GLB_ID_STEPPING : Fld := ⟨.GLB_ID, 47, 40, .ro, 0⟩
/-- SERIAL of GLB_ID. -/
def F.GLB_ID_SERIAL : Fld := ⟨.GLB_ID, 39, 8, .ro, 0⟩
/-- SITE_STATE of GLB_SITE_MAP. -/
def F.GLB_SITE_MAP_SITE_STATE : Fld := ⟨.GLB_SITE_MAP, 49, 0, .ro, 0⟩
/-- DISCIPLINE_EN of GLB_REF_CTL. -/
def F.GLB_REF_CTL_DISCIPLINE_EN : Fld := ⟨.GLB_REF_CTL, 63, 63, .rw, 0⟩
/-- LANE of GLB_REF_CTL. -/
def F.GLB_REF_CTL_LANE : Fld := ⟨.GLB_REF_CTL, 41, 32, .rw, 0⟩
/-- STATE of GLB_REF_CTL. -/
def F.GLB_REF_CTL_STATE : Fld := ⟨.GLB_REF_CTL, 2, 0, .ro, 0⟩
/-- STATE of GLB_SEAM_STAT. -/
def F.GLB_SEAM_STAT_STATE : Fld := ⟨.GLB_SEAM_STAT, 63, 60, .ro, 0⟩
/-- BUNDLES_UP of GLB_SEAM_STAT. -/
def F.GLB_SEAM_STAT_BUNDLES_UP : Fld := ⟨.GLB_SEAM_STAT, 59, 52, .ro, 0⟩
/-- UNDERSTUDIES_IN of GLB_SEAM_STAT. -/
def F.GLB_SEAM_STAT_UNDERSTUDIES_IN : Fld := ⟨.GLB_SEAM_STAT, 51, 44, .ro, 0⟩
/-- REPLAYS of GLB_SEAM_STAT. -/
def F.GLB_SEAM_STAT_REPLAYS : Fld := ⟨.GLB_SEAM_STAT, 31, 0, .rc, 0⟩
/-- DEVICE_RST of GLB_RESET_CTL. -/
def F.GLB_RESET_CTL_DEVICE_RST : Fld := ⟨.GLB_RESET_CTL, 63, 63, .wo, 0⟩
/-- DIE_HOLD of GLB_RESET_CTL. -/
def F.GLB_RESET_CTL_DIE_HOLD : Fld := ⟨.GLB_RESET_CTL, 56, 33, .rw, 0⟩
/-- DIE_RST of GLB_RESET_CTL. -/
def F.GLB_RESET_CTL_DIE_RST : Fld := ⟨.GLB_RESET_CTL, 24, 1, .w1s, 0⟩
/-- TIER of TBL_ROUTE_CTL. -/
def F.TBL_ROUTE_CTL_TIER : Fld := ⟨.TBL_ROUTE_CTL, 63, 62, .rw, 0⟩
/-- ORIGIN_IDLE of TBL_ROUTE_CTL. -/
def F.TBL_ROUTE_CTL_ORIGIN_IDLE : Fld := ⟨.TBL_ROUTE_CTL, 57, 48, .rw, 100⟩
/-- OWN_CA of TBL_ROUTE_CTL. -/
def F.TBL_ROUTE_CTL_OWN_CA : Fld := ⟨.TBL_ROUTE_CTL, 31, 0, .rw, 0⟩
/-- VALID of TBL_DOWN. -/
def F.TBL_DOWN_VALID : Fld := ⟨.TBL_DOWN, 63, 63, .rw, 0⟩
/-- SET of TBL_DOWN. -/
def F.TBL_DOWN_SET : Fld := ⟨.TBL_DOWN, 11, 0, .rw, 0⟩
/-- VALID of TBL_UP. -/
def F.TBL_UP_VALID : Fld := ⟨.TBL_UP, 63, 63, .rw, 0⟩
/-- SET of TBL_UP. -/
def F.TBL_UP_SET : Fld := ⟨.TBL_UP, 11, 0, .rw, 0⟩
/-- DIR of PRT_ROUTE. -/
def F.PRT_ROUTE_DIR : Fld := ⟨.PRT_ROUTE, 63, 62, .rw, 0⟩
/-- OP of TBL_CMD. -/
def F.TBL_CMD_OP : Fld := ⟨.TBL_CMD, 63, 60, .wo, 0⟩
/-- TABLE of TBL_CMD. -/
def F.TBL_CMD_TABLE : Fld := ⟨.TBL_CMD, 59, 56, .wo, 0⟩
/-- BY_KEY of TBL_CMD. -/
def F.TBL_CMD_BY_KEY : Fld := ⟨.TBL_CMD, 55, 55, .wo, 0⟩
/-- INDEX of TBL_CMD. -/
def F.TBL_CMD_INDEX : Fld := ⟨.TBL_CMD, 51, 32, .wo, 0⟩
/-- INDEX2 of TBL_CMD. -/
def F.TBL_CMD_INDEX2 : Fld := ⟨.TBL_CMD, 31, 12, .wo, 0⟩
/-- BUSY of TBL_STAT. -/
def F.TBL_STAT_BUSY : Fld := ⟨.TBL_STAT, 63, 63, .ro, 0⟩
/-- OVERRUN of TBL_STAT. -/
def F.TBL_STAT_OVERRUN : Fld := ⟨.TBL_STAT, 62, 62, .w1c, 0⟩
/-- RESULT of TBL_STAT. -/
def F.TBL_STAT_RESULT : Fld := ⟨.TBL_STAT, 59, 56, .ro, 0⟩
/-- INDEX of TBL_STAT. -/
def F.TBL_STAT_INDEX : Fld := ⟨.TBL_STAT, 51, 32, .ro, 0⟩
/-- DONE_COUNT of TBL_STAT. -/
def F.TBL_STAT_DONE_COUNT : Fld := ⟨.TBL_STAT, 31, 0, .ro, 0⟩
/-- DATA of TBL_DATA. -/
def F.TBL_DATA_DATA : Fld := ⟨.TBL_DATA, 63, 0, .rw, 0⟩
/-- COORD_SLOTS of TBL_TCAM_PART. -/
def F.TBL_TCAM_PART_COORD_SLOTS : Fld := ⟨.TBL_TCAM_PART, 16, 0, .rw, 130048⟩
/-- LOCK of TBL_DMA_LOCK. -/
def F.TBL_DMA_LOCK_LOCK : Fld := ⟨.TBL_DMA_LOCK, 63, 63, .rw, 0⟩
/-- COMPAT of TBL_DMA_LOCK. -/
def F.TBL_DMA_LOCK_COMPAT : Fld := ⟨.TBL_DMA_LOCK, 62, 62, .rw, 0⟩
/-- STATE of TBL_DMA_LOCK. -/
def F.TBL_DMA_LOCK_STATE : Fld := ⟨.TBL_DMA_LOCK, 61, 60, .ro, 0⟩
/-- FAIL_TABLE of TBL_DMA_LOCK. -/
def F.TBL_DMA_LOCK_FAIL_TABLE : Fld := ⟨.TBL_DMA_LOCK, 31, 31, .ro, 0⟩
/-- FAIL_INDEX of TBL_DMA_LOCK. -/
def F.TBL_DMA_LOCK_FAIL_INDEX : Fld := ⟨.TBL_DMA_LOCK, 19, 0, .ro, 0⟩
/-- EN of PRT_BORDER. -/
def F.PRT_BORDER_EN : Fld := ⟨.PRT_BORDER, 63, 63, .rw, 0⟩
/-- WIDTH of PRT_BORDER. -/
def F.PRT_BORDER_WIDTH : Fld := ⟨.PRT_BORDER, 62, 61, .rw, 0⟩
/-- UNK_FLOOD of PRT_BORDER. -/
def F.PRT_BORDER_UNK_FLOOD : Fld := ⟨.PRT_BORDER, 60, 60, .rw, 0⟩
/-- PFC_EN of PRT_BORDER. -/
def F.PRT_BORDER_PFC_EN : Fld := ⟨.PRT_BORDER, 59, 59, .rw, 0⟩
/-- PROD of PRT_BORDER. -/
def F.PRT_BORDER_PROD : Fld := ⟨.PRT_BORDER, 58, 47, .rw, 0⟩
/-- PVID of PRT_BORDER. -/
def F.PRT_BORDER_PVID : Fld := ⟨.PRT_BORDER, 46, 35, .rw, 0⟩
/-- DEF_PCP of PRT_BORDER. -/
def F.PRT_BORDER_DEF_PCP : Fld := ⟨.PRT_BORDER, 34, 32, .rw, 0⟩
/-- PCP_TC of PRT_BORDER. -/
def F.PRT_BORDER_PCP_TC : Fld := ⟨.PRT_BORDER, 23, 0, .rw, 0⟩
/-- STEER_MAC of PRT_BORDER_MAC. -/
def F.PRT_BORDER_MAC_STEER_MAC : Fld := ⟨.PRT_BORDER_MAC, 47, 0, .rw, 0⟩
/-- LEARN_EN of PRT_LEARN. -/
def F.PRT_LEARN_LEARN_EN : Fld := ⟨.PRT_LEARN, 63, 63, .rw, 0⟩
/-- OVER_DROP of PRT_LEARN. -/
def F.PRT_LEARN_OVER_DROP : Fld := ⟨.PRT_LEARN, 62, 62, .rw, 0⟩
/-- LEARN_LIMIT of PRT_LEARN. -/
def F.PRT_LEARN_LEARN_LIMIT : Fld := ⟨.PRT_LEARN, 51, 32, .rw, 0⟩
/-- LEARNED of PRT_LEARN. -/
def F.PRT_LEARN_LEARNED : Fld := ⟨.PRT_LEARN, 19, 0, .ro, 0⟩
/-- AGE_TIME of TBL_LEARN_CTL. -/
def F.TBL_LEARN_CTL_AGE_TIME : Fld := ⟨.TBL_LEARN_CTL, 63, 48, .rw, 300⟩
/-- SHARED of WRD_POOL. -/
def F.WRD_POOL_SHARED : Fld := ⟨.WRD_POOL, 52, 32, .ro, 0⟩
/-- SHARED_FREE of WRD_POOL. -/
def F.WRD_POOL_SHARED_FREE : Fld := ⟨.WRD_POOL, 20, 0, .ro, 0⟩
/-- VL7 of WRD_RES. -/
def F.WRD_RES_VL7 : Fld := ⟨.WRD_RES, 63, 56, .rw, 18⟩
/-- VL6 of WRD_RES. -/
def F.WRD_RES_VL6 : Fld := ⟨.WRD_RES, 55, 48, .rw, 18⟩
/-- VL5 of WRD_RES. -/
def F.WRD_RES_VL5 : Fld := ⟨.WRD_RES, 47, 40, .rw, 18⟩
/-- VL4 of WRD_RES. -/
def F.WRD_RES_VL4 : Fld := ⟨.WRD_RES, 39, 32, .rw, 18⟩
/-- VL3 of WRD_RES. -/
def F.WRD_RES_VL3 : Fld := ⟨.WRD_RES, 31, 24, .rw, 18⟩
/-- VL2 of WRD_RES. -/
def F.WRD_RES_VL2 : Fld := ⟨.WRD_RES, 23, 16, .rw, 18⟩
/-- VL1 of WRD_RES. -/
def F.WRD_RES_VL1 : Fld := ⟨.WRD_RES, 15, 8, .rw, 18⟩
/-- VL0 of WRD_RES. -/
def F.WRD_RES_VL0 : Fld := ⟨.WRD_RES, 7, 0, .rw, 36⟩
/-- DETOUR of WRD_SHARE. -/
def F.WRD_SHARE_DETOUR : Fld := ⟨.WRD_SHARE, 63, 56, .rw, 18⟩
/-- ALPHA_SHIFT of WRD_SHARE. -/
def F.WRD_SHARE_ALPHA_SHIFT : Fld := ⟨.WRD_SHARE, 55, 52, .rw, 3⟩
/-- HOLD_LIMIT of WRD_SHARE. -/
def F.WRD_SHARE_HOLD_LIMIT : Fld := ⟨.WRD_SHARE, 51, 36, .rw, 2000⟩
/-- POOL of WRD_COLL_POOL. -/
def F.WRD_COLL_POOL_POOL : Fld := ⟨.WRD_COLL_POOL, 52, 32, .rw, 262144⟩
/-- ADMITTED of WRD_COLL_POOL. -/
def F.WRD_COLL_POOL_ADMITTED : Fld := ⟨.WRD_COLL_POOL, 20, 0, .ro, 0⟩
/-- QUOTA_EN of WRD_PROD. -/
def F.WRD_PROD_QUOTA_EN : Fld := ⟨.WRD_PROD, 63, 63, .rw, 0⟩
/-- QUOTA of WRD_PROD. -/
def F.WRD_PROD_QUOTA : Fld := ⟨.WRD_PROD, 52, 32, .rw, 0⟩
/-- USED of WRD_PROD. -/
def F.WRD_PROD_USED : Fld := ⟨.WRD_PROD, 20, 0, .ro, 0⟩
/-- T1 of PRT_MARK. -/
def F.PRT_MARK_T1 : Fld := ⟨.PRT_MARK, 52, 32, .rw, 64⟩
/-- T2 of PRT_MARK. -/
def F.PRT_MARK_T2 : Fld := ⟨.PRT_MARK, 20, 0, .rw, 512⟩
/-- GAP of WRD_RSQ_CTL. -/
def F.WRD_RSQ_CTL_GAP : Fld := ⟨.WRD_RSQ_CTL, 63, 52, .rw, 20⟩
/-- IDLE of WRD_RSQ_CTL. -/
def F.WRD_RSQ_CTL_IDLE : Fld := ⟨.WRD_RSQ_CTL, 51, 40, .rw, 50⟩
/-- LEARN of WRD_RSQ_CTL. -/
def F.WRD_RSQ_CTL_LEARN : Fld := ⟨.WRD_RSQ_CTL, 39, 24, .rw, 1000⟩
/-- HIGH of WRD_RSQ_STAT. -/
def F.WRD_RSQ_STAT_HIGH : Fld := ⟨.WRD_RSQ_STAT, 47, 32, .rc, 0⟩
/-- IN_USE of WRD_RSQ_STAT. -/
def F.WRD_RSQ_STAT_IN_USE : Fld := ⟨.WRD_RSQ_STAT, 15, 0, .ro, 0⟩
/-- MIN_RATE of PRT_QRATE. -/
def F.PRT_QRATE_MIN_RATE : Fld := ⟨.PRT_QRATE, 63, 50, .rw, 0⟩
/-- MAX_RATE of PRT_QRATE. -/
def F.PRT_QRATE_MAX_RATE : Fld := ⟨.PRT_QRATE, 49, 36, .rw, 0⟩
/-- WEIGHT of PRT_QRATE. -/
def F.PRT_QRATE_WEIGHT : Fld := ⟨.PRT_QRATE, 35, 28, .rw, 1⟩
/-- BURST of PRT_QRATE. -/
def F.PRT_QRATE_BURST : Fld := ⟨.PRT_QRATE, 27, 12, .rw, 280⟩
/-- PROD of PRT_QOWN. -/
def F.PRT_QOWN_PROD : Fld := ⟨.PRT_QOWN, 63, 52, .rw, 0⟩
/-- TIER of PRT_QOWN. -/
def F.PRT_QOWN_TIER : Fld := ⟨.PRT_QOWN, 51, 50, .rw, 3⟩
/-- BREACHED of PRT_QOWN. -/
def F.PRT_QOWN_BREACHED : Fld := ⟨.PRT_QOWN, 49, 49, .ro, 0⟩
/-- GRANTED of PRT_QOWN. -/
def F.PRT_QOWN_GRANTED : Fld := ⟨.PRT_QOWN, 35, 22, .ro, 0⟩
/-- VL6 of PRT_VLG. -/
def F.PRT_VLG_VL6 : Fld := ⟨.PRT_VLG, 47, 40, .rw, 1⟩
/-- VL5 of PRT_VLG. -/
def F.PRT_VLG_VL5 : Fld := ⟨.PRT_VLG, 39, 32, .rw, 1⟩
/-- VL4 of PRT_VLG. -/
def F.PRT_VLG_VL4 : Fld := ⟨.PRT_VLG, 31, 24, .rw, 1⟩
/-- VL3 of PRT_VLG. -/
def F.PRT_VLG_VL3 : Fld := ⟨.PRT_VLG, 23, 16, .rw, 1⟩
/-- VL2 of PRT_VLG. -/
def F.PRT_VLG_VL2 : Fld := ⟨.PRT_VLG, 15, 8, .rw, 1⟩
/-- VL1 of PRT_VLG. -/
def F.PRT_VLG_VL1 : Fld := ⟨.PRT_VLG, 7, 0, .rw, 1⟩
/-- EN of PRT_TCMAP. -/
def F.PRT_TCMAP_EN : Fld := ⟨.PRT_TCMAP, 63, 63, .rw, 0⟩
/-- MAP of PRT_TCMAP. -/
def F.PRT_TCMAP_MAP : Fld := ⟨.PRT_TCMAP, 23, 0, .rw, 0⟩
/-- COLOUR of PRT_COLOUR. -/
def F.PRT_COLOUR_COLOUR : Fld := ⟨.PRT_COLOUR, 15, 0, .rw, 0⟩
/-- EN of PRT_POL. -/
def F.PRT_POL_EN : Fld := ⟨.PRT_POL, 63, 63, .rw, 0⟩
/-- PER_TC of PRT_POL. -/
def F.PRT_POL_PER_TC : Fld := ⟨.PRT_POL, 62, 62, .rw, 0⟩
/-- BASE of PRT_POL. -/
def F.PRT_POL_BASE : Fld := ⟨.PRT_POL, 61, 49, .rw, 0⟩
/-- EN of PRT_RO_CTL. -/
def F.PRT_RO_CTL_EN : Fld := ⟨.PRT_RO_CTL, 63, 63, .rw, 0⟩
/-- SWAP of PRT_RO_CTL. -/
def F.PRT_RO_CTL_SWAP : Fld := ⟨.PRT_RO_CTL, 62, 62, .w1s, 0⟩
/-- STATE of PRT_RO_CTL. -/
def F.PRT_RO_CTL_STATE : Fld := ⟨.PRT_RO_CTL, 61, 60, .ro, 0⟩
/-- LAST of PRT_RO_CTL. -/
def F.PRT_RO_CTL_LAST : Fld := ⟨.PRT_RO_CTL, 59, 52, .rw, 0⟩
/-- DOMAIN of PRT_RO_CTL. -/
def F.PRT_RO_CTL_DOMAIN : Fld := ⟨.PRT_RO_CTL, 51, 44, .rw, 0⟩
/-- PROD of PRT_RO_CTL. -/
def F.PRT_RO_CTL_PROD : Fld := ⟨.PRT_RO_CTL, 43, 32, .rw, 0⟩
/-- ACTIVE_LAST of PRT_RO_CTL. -/
def F.PRT_RO_CTL_ACTIVE_LAST : Fld := ⟨.PRT_RO_CTL, 31, 24, .ro, 0⟩
/-- ENTRY of PRT_RO_CTL. -/
def F.PRT_RO_CTL_ENTRY : Fld := ⟨.PRT_RO_CTL, 23, 16, .ro, 0⟩
/-- BASE of PRT_RO_BASE. -/
def F.PRT_RO_BASE_BASE : Fld := ⟨.PRT_RO_BASE, 63, 0, .rw, 0⟩
/-- EVEN of PRT_RO_ENTRY. -/
def F.PRT_RO_ENTRY_EVEN : Fld := ⟨.PRT_RO_ENTRY, 63, 32, .rw, 0⟩
/-- ODD of PRT_RO_ENTRY. -/
def F.PRT_RO_ENTRY_ODD : Fld := ⟨.PRT_RO_ENTRY, 31, 0, .rw, 0⟩
/-- ADMIT_LIMIT of PRT_SCHED. -/
def F.PRT_SCHED_ADMIT_LIMIT : Fld := ⟨.PRT_SCHED, 63, 50, .rw, 3800⟩
/-- COMMITTED of PRT_SCHED. -/
def F.PRT_SCHED_COMMITTED : Fld := ⟨.PRT_SCHED, 49, 36, .ro, 0⟩
/-- COLL_RATE of PRT_SCHED. -/
def F.PRT_SCHED_COLL_RATE : Fld := ⟨.PRT_SCHED, 35, 22, .ro, 0⟩
/-- VL7_RATE of PRT_SCHED. -/
def F.PRT_SCHED_VL7_RATE : Fld := ⟨.PRT_SCHED, 21, 8, .ro, 0⟩
/-- REFUSED of PRT_SCHED. -/
def F.PRT_SCHED_REFUSED : Fld := ⟨.PRT_SCHED, 7, 0, .rc, 0⟩
/-- VALID of TBL_ENS_A. -/
def F.TBL_ENS_A_VALID : Fld := ⟨.TBL_ENS_A, 63, 63, .rw, 0⟩
/-- HALL_HI of TBL_ENS_A. -/
def F.TBL_ENS_A_HALL_HI : Fld := ⟨.TBL_ENS_A, 59, 58, .rw, 0⟩
/-- HALL_LO of TBL_ENS_A. -/
def F.TBL_ENS_A_HALL_LO : Fld := ⟨.TBL_ENS_A, 57, 56, .rw, 0⟩
/-- POD_HI of TBL_ENS_A. -/
def F.TBL_ENS_A_POD_HI : Fld := ⟨.TBL_ENS_A, 55, 49, .rw, 0⟩
/-- POD_LO of TBL_ENS_A. -/
def F.TBL_ENS_A_POD_LO : Fld := ⟨.TBL_ENS_A, 48, 42, .rw, 0⟩
/-- RACK_HI of TBL_ENS_A. -/
def F.TBL_ENS_A_RACK_HI : Fld := ⟨.TBL_ENS_A, 41, 37, .rw, 0⟩
/-- RACK_LO of TBL_ENS_A. -/
def F.TBL_ENS_A_RACK_LO : Fld := ⟨.TBL_ENS_A, 36, 32, .rw, 0⟩
/-- TRAY_HI of TBL_ENS_A. -/
def F.TBL_ENS_A_TRAY_HI : Fld := ⟨.TBL_ENS_A, 31, 28, .rw, 0⟩
/-- TRAY_LO of TBL_ENS_A. -/
def F.TBL_ENS_A_TRAY_LO : Fld := ⟨.TBL_ENS_A, 27, 24, .rw, 0⟩
/-- SLOT_HI of TBL_ENS_A. -/
def F.TBL_ENS_A_SLOT_HI : Fld := ⟨.TBL_ENS_A, 23, 21, .rw, 0⟩
/-- SLOT_LO of TBL_ENS_A. -/
def F.TBL_ENS_A_SLOT_LO : Fld := ⟨.TBL_ENS_A, 20, 18, .rw, 0⟩
/-- UNIT_HI of TBL_ENS_A. -/
def F.TBL_ENS_A_UNIT_HI : Fld := ⟨.TBL_ENS_A, 17, 15, .rw, 0⟩
/-- UNIT_LO of TBL_ENS_A. -/
def F.TBL_ENS_A_UNIT_LO : Fld := ⟨.TBL_ENS_A, 14, 12, .rw, 0⟩
/-- FN of TBL_ENS_A. -/
def F.TBL_ENS_A_FN : Fld := ⟨.TBL_ENS_A, 11, 4, .rw, 0⟩
/-- LOOM_MASK of TBL_ENS_A. -/
def F.TBL_ENS_A_LOOM_MASK : Fld := ⟨.TBL_ENS_A, 3, 0, .rw, 0⟩
/-- EXCL_EN of TBL_ENS_B. -/
def F.TBL_ENS_B_EXCL_EN : Fld := ⟨.TBL_ENS_B, 63, 63, .rw, 0⟩
/-- EXCL of TBL_ENS_B. -/
def F.TBL_ENS_B_EXCL : Fld := ⟨.TBL_ENS_B, 59, 12, .rw, 0⟩
/-- MEMBERS of TBL_ENS_C. -/
def F.TBL_ENS_C_MEMBERS : Fld := ⟨.TBL_ENS_C, 50, 32, .ro, 0⟩
/-- STALL of LOM_COLL_CTL. -/
def F.LOM_COLL_CTL_STALL : Fld := ⟨.LOM_COLL_CTL, 63, 48, .rw, 1000⟩
/-- STATE of CUE_ENG_STAT. -/
def F.CUE_ENG_STAT_STATE : Fld := ⟨.CUE_ENG_STAT, 63, 60, .ro, 0⟩
/-- PROD of CUE_ENG_STAT. -/
def F.CUE_ENG_STAT_PROD : Fld := ⟨.CUE_ENG_STAT, 59, 48, .ro, 0⟩
/-- IMAGE of CUE_ENG_STAT. -/
def F.CUE_ENG_STAT_IMAGE : Fld := ⟨.CUE_ENG_STAT, 47, 40, .ro, 0⟩
/-- POSITION of CUE_ENG_STAT. -/
def F.CUE_ENG_STAT_POSITION : Fld := ⟨.CUE_ENG_STAT, 39, 34, .ro, 0⟩
/-- QUEUE of CUE_ENG_STAT. -/
def F.CUE_ENG_STAT_QUEUE : Fld := ⟨.CUE_ENG_STAT, 20, 16, .ro, 0⟩
/-- PC of CUE_ENG_STAT. -/
def F.CUE_ENG_STAT_PC : Fld := ⟨.CUE_ENG_STAT, 15, 0, .ro, 0⟩
/-- CAUSE of CUE_ENG_TRAP. -/
def F.CUE_ENG_TRAP_CAUSE : Fld := ⟨.CUE_ENG_TRAP, 63, 56, .ro, 0⟩
/-- PC of CUE_ENG_TRAP. -/
def F.CUE_ENG_TRAP_PC : Fld := ⟨.CUE_ENG_TRAP, 47, 32, .ro, 0⟩
/-- DETAIL of CUE_ENG_TRAP. -/
def F.CUE_ENG_TRAP_DETAIL : Fld := ⟨.CUE_ENG_TRAP, 31, 0, .ro, 0⟩
/-- EN of CUE_SAMPLE_CTL. -/
def F.CUE_SAMPLE_CTL_EN : Fld := ⟨.CUE_SAMPLE_CTL, 63, 63, .rw, 0⟩
/-- MODE of CUE_SAMPLE_CTL. -/
def F.CUE_SAMPLE_CTL_MODE : Fld := ⟨.CUE_SAMPLE_CTL, 62, 62, .rw, 0⟩
/-- PROD_EN of CUE_SAMPLE_CTL. -/
def F.CUE_SAMPLE_CTL_PROD_EN : Fld := ⟨.CUE_SAMPLE_CTL, 61, 61, .rw, 0⟩
/-- PROD of CUE_SAMPLE_CTL. -/
def F.CUE_SAMPLE_CTL_PROD : Fld := ⟨.CUE_SAMPLE_CTL, 59, 48, .rw, 0⟩
/-- PERIOD of CUE_SAMPLE_CTL. -/
def F.CUE_SAMPLE_CTL_PERIOD : Fld := ⟨.CUE_SAMPLE_CTL, 31, 0, .rw, 100000⟩
/-- OP of CUE_LDR_CMD. -/
def F.CUE_LDR_CMD_OP : Fld := ⟨.CUE_LDR_CMD, 63, 60, .wo, 0⟩
/-- FORCE of CUE_LDR_CMD. -/
def F.CUE_LDR_CMD_FORCE : Fld := ⟨.CUE_LDR_CMD, 59, 59, .wo, 0⟩
/-- IMAGE of CUE_LDR_CMD. -/
def F.CUE_LDR_CMD_IMAGE : Fld := ⟨.CUE_LDR_CMD, 55, 48, .wo, 0⟩
/-- SET of CUE_LDR_CMD. -/
def F.CUE_LDR_CMD_SET : Fld := ⟨.CUE_LDR_CMD, 47, 44, .wo, 0⟩
/-- PROD of CUE_LDR_CMD. -/
def F.CUE_LDR_CMD_PROD : Fld := ⟨.CUE_LDR_CMD, 43, 32, .wo, 0⟩
/-- ADDR of CUE_LDR_SRC. -/
def F.CUE_LDR_SRC_ADDR : Fld := ⟨.CUE_LDR_SRC, 39, 0, .rw, 0⟩
/-- BUSY of CUE_LDR_STAT. -/
def F.CUE_LDR_STAT_BUSY : Fld := ⟨.CUE_LDR_STAT, 63, 63, .ro, 0⟩
/-- OVERRUN of CUE_LDR_STAT. -/
def F.CUE_LDR_STAT_OVERRUN : Fld := ⟨.CUE_LDR_STAT, 62, 62, .w1c, 0⟩
/-- STATUS of CUE_LDR_STAT. -/
def F.CUE_LDR_STAT_STATUS : Fld := ⟨.CUE_LDR_STAT, 59, 56, .ro, 0⟩
/-- IMAGE of CUE_LDR_STAT. -/
def F.CUE_LDR_STAT_IMAGE : Fld := ⟨.CUE_LDR_STAT, 55, 48, .ro, 0⟩
/-- REASON of CUE_LDR_STAT. -/
def F.CUE_LDR_STAT_REASON : Fld := ⟨.CUE_LDR_STAT, 47, 40, .ro, 0⟩
/-- DONE_COUNT of CUE_LDR_STAT. -/
def F.CUE_LDR_STAT_DONE_COUNT : Fld := ⟨.CUE_LDR_STAT, 31, 0, .ro, 0⟩
/-- FLAG_HOLD of MEM_CTL. -/
def F.MEM_CTL_FLAG_HOLD : Fld := ⟨.MEM_CTL, 63, 52, .rw, 100⟩
/-- MOVE_LIMIT of MEM_CTL. -/
def F.MEM_CTL_MOVE_LIMIT : Fld := ⟨.MEM_CTL, 51, 40, .rw, 1000⟩
/-- DEAD_LAPSE of MEM_CTL. -/
def F.MEM_CTL_DEAD_LAPSE : Fld := ⟨.MEM_CTL, 39, 32, .rw, 20⟩
/-- HIGH of MEM_LEDGER. -/
def F.MEM_LEDGER_HIGH : Fld := ⟨.MEM_LEDGER, 52, 32, .rc, 0⟩
/-- IN_USE of MEM_LEDGER. -/
def F.MEM_LEDGER_IN_USE : Fld := ⟨.MEM_LEDGER, 20, 0, .ro, 0⟩
/-- FEC of WNG_LANE_CTL. -/
def F.WNG_LANE_CTL_FEC : Fld := ⟨.WNG_LANE_CTL, 63, 63, .rw, 0⟩
/-- RETRAIN of WNG_LANE_CTL. -/
def F.WNG_LANE_CTL_RETRAIN : Fld := ⟨.WNG_LANE_CTL, 62, 62, .w1s, 0⟩
/-- OSTATE of WNG_LANE_STAT. -/
def F.WNG_LANE_STAT_OSTATE : Fld := ⟨.WNG_LANE_STAT, 63, 60, .ro, 0⟩
/-- RX_POWER of WNG_LANE_STAT. -/
def F.WNG_LANE_STAT_RX_POWER : Fld := ⟨.WNG_LANE_STAT, 59, 48, .ro, 2048⟩
/-- FAR_MARGIN of WNG_LANE_STAT. -/
def F.WNG_LANE_STAT_FAR_MARGIN : Fld := ⟨.WNG_LANE_STAT, 47, 38, .ro, 0⟩
/-- NEAR_MARGIN of WNG_LANE_STAT. -/
def F.WNG_LANE_STAT_NEAR_MARGIN : Fld := ⟨.WNG_LANE_STAT, 37, 28, .ro, 0⟩
/-- STATE of WNG_LASER. -/
def F.WNG_LASER_STATE : Fld := ⟨.WNG_LASER, 63, 60, .ro, 0⟩
/-- GROUP of WNG_LASER. -/
def F.WNG_LASER_GROUP : Fld := ⟨.WNG_LASER, 59, 56, .ro, 15⟩
/-- EOL_WARN of WNG_LASER. -/
def F.WNG_LASER_EOL_WARN : Fld := ⟨.WNG_LASER, 55, 55, .ro, 0⟩
/-- BIAS of WNG_LASER. -/
def F.WNG_LASER_BIAS : Fld := ⟨.WNG_LASER, 43, 34, .ro, 0⟩
/-- MARGIN of WNG_LASER. -/
def F.WNG_LASER_MARGIN : Fld := ⟨.WNG_LASER, 33, 24, .ro, 0⟩
/-- HOURS of WNG_LASER. -/
def F.WNG_LASER_HOURS : Fld := ⟨.WNG_LASER, 23, 0, .ro, 0⟩
/-- OP of WNG_LASER_CMD. -/
def F.WNG_LASER_CMD_OP : Fld := ⟨.WNG_LASER_CMD, 63, 60, .wo, 0⟩
/-- GROUP of WNG_LASER_CMD. -/
def F.WNG_LASER_CMD_GROUP : Fld := ⟨.WNG_LASER_CMD, 59, 56, .wo, 0⟩
/-- BUSY of WNG_LASER_CMD. -/
def F.WNG_LASER_CMD_BUSY : Fld := ⟨.WNG_LASER_CMD, 55, 55, .ro, 0⟩
/-- RESULT of WNG_LASER_CMD. -/
def F.WNG_LASER_CMD_RESULT : Fld := ⟨.WNG_LASER_CMD, 54, 52, .ro, 0⟩
/-- AUTO_SWAP of WNG_CTL. -/
def F.WNG_CTL_AUTO_SWAP : Fld := ⟨.WNG_CTL, 63, 63, .rw, 1⟩
/-- FF_EN of WNG_CTL. -/
def F.WNG_CTL_FF_EN : Fld := ⟨.WNG_CTL, 62, 62, .rw, 1⟩
/-- XT_EN of WNG_CTL. -/
def F.WNG_CTL_XT_EN : Fld := ⟨.WNG_CTL, 61, 61, .rw, 0⟩
/-- XT_COMMIT of WNG_CTL. -/
def F.WNG_CTL_XT_COMMIT : Fld := ⟨.WNG_CTL, 60, 60, .w1s, 0⟩
/-- MON_INT of WNG_CTL. -/
def F.WNG_CTL_MON_INT : Fld := ⟨.WNG_CTL, 59, 58, .rw, 2⟩
/-- COEF of WNG_XTALK. -/
def F.WNG_XTALK_COEF : Fld := ⟨.WNG_XTALK, 63, 0, .rw, 0⟩
/-- WORST_PM of WNG_HEAT_STAT. -/
def F.WNG_HEAT_STAT_WORST_PM : Fld := ⟨.WNG_HEAT_STAT, 63, 48, .rc, 0⟩
/-- WORST_HEATER of WNG_HEAT_STAT. -/
def F.WNG_HEAT_STAT_WORST_HEATER : Fld := ⟨.WNG_HEAT_STAT, 47, 40, .rc, 0⟩
/-- OUT of WNG_TRAP_MAP. -/
def F.WNG_TRAP_MAP_OUT : Fld := ⟨.WNG_TRAP_MAP, 63, 0, .rw, 0⟩
/-- COMMIT of WNG_TRAP_CTL. -/
def F.WNG_TRAP_CTL_COMMIT : Fld := ⟨.WNG_TRAP_CTL, 63, 63, .w1s, 0⟩
/-- STATE of WNG_TRAP_CTL. -/
def F.WNG_TRAP_CTL_STATE : Fld := ⟨.WNG_TRAP_CTL, 62, 61, .ro, 0⟩
/-- RESULT of WNG_TRAP_CTL. -/
def F.WNG_TRAP_CTL_RESULT : Fld := ⟨.WNG_TRAP_CTL, 60, 58, .ro, 0⟩
/-- DARK of WNG_TRAP_CTL. -/
def F.WNG_TRAP_CTL_DARK : Fld := ⟨.WNG_TRAP_CTL, 57, 48, .rw, 150⟩
/-- MOVED of WNG_TRAP_CTL. -/
def F.WNG_TRAP_CTL_MOVED : Fld := ⟨.WNG_TRAP_CTL, 15, 0, .ro, 0⟩
/-- EN of PRT_LINK_CTL. -/
def F.PRT_LINK_CTL_EN : Fld := ⟨.PRT_LINK_CTL, 63, 63, .rw, 0⟩
/-- TYPE of PRT_LINK_CTL. -/
def F.PRT_LINK_CTL_TYPE : Fld := ⟨.PRT_LINK_CTL, 62, 61, .rw, 1⟩
/-- RECALL of PRT_LINK_CTL. -/
def F.PRT_LINK_CTL_RECALL : Fld := ⟨.PRT_LINK_CTL, 60, 60, .w1s, 0⟩
/-- STATE of PRT_LINK_STAT. -/
def F.PRT_LINK_STAT_STATE : Fld := ⟨.PRT_LINK_STAT, 63, 60, .ro, 0⟩
/-- FENCED of PRT_LINK_STAT. -/
def F.PRT_LINK_STAT_FENCED : Fld := ⟨.PRT_LINK_STAT, 59, 59, .ro, 0⟩
/-- CAUSE of PRT_LINK_STAT. -/
def F.PRT_LINK_STAT_CAUSE : Fld := ⟨.PRT_LINK_STAT, 58, 55, .ro, 0⟩
/-- RTT of PRT_LINK_STAT. -/
def F.PRT_LINK_STAT_RTT : Fld := ⟨.PRT_LINK_STAT, 54, 44, .ro, 0⟩
/-- DOWNS of PRT_LINK_STAT. -/
def F.PRT_LINK_STAT_DOWNS : Fld := ⟨.PRT_LINK_STAT, 31, 16, .rc, 0⟩
/-- REPLAYS of PRT_LINK_STAT. -/
def F.PRT_LINK_STAT_REPLAYS : Fld := ⟨.PRT_LINK_STAT, 15, 0, .rc, 0⟩
/-- PLAN_GEN of GLB_LINK_CTL. -/
def F.GLB_LINK_CTL_PLAN_GEN : Fld := ⟨.GLB_LINK_CTL, 63, 32, .rw, 0⟩
/-- LEVEL_CAP of GLB_LINK_CTL. -/
def F.GLB_LINK_CTL_LEVEL_CAP : Fld := ⟨.GLB_LINK_CTL, 29, 28, .rw, 3⟩
/-- VERSION of GLB_LINK_CTL. -/
def F.GLB_LINK_CTL_VERSION : Fld := ⟨.GLB_LINK_CTL, 7, 0, .ro, 1⟩
/-- EXPECT of PRT_SEAT. -/
def F.PRT_SEAT_EXPECT : Fld := ⟨.PRT_SEAT, 63, 62, .rw, 0⟩
/-- CA of PRT_SEAT. -/
def F.PRT_SEAT_CA : Fld := ⟨.PRT_SEAT, 61, 38, .rw, 0⟩
/-- PEER_LANE of PRT_SEAT. -/
def F.PRT_SEAT_PEER_LANE : Fld := ⟨.PRT_SEAT, 37, 28, .rw, 0⟩
/-- LANE_ANY of PRT_SEAT. -/
def F.PRT_SEAT_LANE_ANY : Fld := ⟨.PRT_SEAT, 27, 27, .rw, 0⟩
/-- CA of PRT_PEER. -/
def F.PRT_PEER_CA : Fld := ⟨.PRT_PEER, 63, 40, .ro, 0⟩
/-- LANE of PRT_PEER. -/
def F.PRT_PEER_LANE : Fld := ⟨.PRT_PEER, 39, 30, .ro, 0⟩
/-- VERSION of PRT_PEER. -/
def F.PRT_PEER_VERSION : Fld := ⟨.PRT_PEER, 29, 22, .ro, 0⟩
/-- LEVEL_PEER of PRT_PEER. -/
def F.PRT_PEER_LEVEL_PEER : Fld := ⟨.PRT_PEER, 21, 20, .ro, 0⟩
/-- LEVEL of PRT_PEER. -/
def F.PRT_PEER_LEVEL : Fld := ⟨.PRT_PEER, 19, 18, .ro, 0⟩
/-- YEFEDRA of PRT_PEER. -/
def F.PRT_PEER_YEFEDRA : Fld := ⟨.PRT_PEER, 17, 17, .ro, 0⟩
/-- FRC of TMU_FRC. -/
def F.TMU_FRC_FRC : Fld := ⟨.TMU_FRC, 63, 0, .ro, 0⟩
/-- RATE of TMU_RATE. -/
def F.TMU_RATE_RATE : Fld := ⟨.TMU_RATE, 39, 0, .rw, 0⟩
/-- STEP_NS of TMU_OFFSET. -/
def F.TMU_OFFSET_STEP_NS : Fld := ⟨.TMU_OFFSET, 63, 0, .wo, 0⟩
/-- STEP_FRAC of TMU_OFFSET_FINE. -/
def F.TMU_OFFSET_FINE_STEP_FRAC : Fld := ⟨.TMU_OFFSET_FINE, 15, 0, .rw, 0⟩
/-- NS of TMU_NOW. -/
def F.TMU_NOW_NS : Fld := ⟨.TMU_NOW, 63, 0, .ro, 0⟩
/-- FRAC of TMU_NOW_FRAC. -/
def F.TMU_NOW_FRAC_FRAC : Fld := ⟨.TMU_NOW_FRAC, 15, 0, .ro, 0⟩
/-- SYNC of TMU_CTL. -/
def F.TMU_CTL_SYNC : Fld := ⟨.TMU_CTL, 63, 63, .rw, 0⟩
/-- SERVO of TMU_CTL. -/
def F.TMU_CTL_SERVO : Fld := ⟨.TMU_CTL, 62, 62, .rw, 1⟩
/-- DOMAIN of TMU_CTL. -/
def F.TMU_CTL_DOMAIN : Fld := ⟨.TMU_CTL, 61, 54, .rw, 0⟩
/-- HOLD of TMU_CTL. -/
def F.TMU_CTL_HOLD : Fld := ⟨.TMU_CTL, 53, 40, .rw, 1000⟩
/-- VALID of TMU_STAT. -/
def F.TMU_STAT_VALID : Fld := ⟨.TMU_STAT, 63, 63, .ro, 0⟩
/-- LOCKED of TMU_STAT. -/
def F.TMU_STAT_LOCKED : Fld := ⟨.TMU_STAT, 62, 62, .ro, 0⟩
/-- SYNCED of TMU_STAT. -/
def F.TMU_STAT_SYNCED : Fld := ⟨.TMU_STAT, 61, 61, .ro, 0⟩
/-- STEPS of TMU_STAT. -/
def F.TMU_STAT_STEPS : Fld := ⟨.TMU_STAT, 47, 32, .rc, 0⟩
/-- EN of PRT_LAUNCH_CTL. -/
def F.PRT_LAUNCH_CTL_EN : Fld := ⟨.PRT_LAUNCH_CTL, 63, 63, .rw, 0⟩
/-- TCMASK of PRT_LAUNCH_CTL. -/
def F.PRT_LAUNCH_CTL_TCMASK : Fld := ⟨.PRT_LAUNCH_CTL, 62, 55, .rw, 0⟩
/-- WINDOW of PRT_LAUNCH_CTL. -/
def F.PRT_LAUNCH_CTL_WINDOW : Fld := ⟨.PRT_LAUNCH_CTL, 43, 32, .rw, 1000⟩
/-- HOLD_MAX of PRT_LAUNCH_CTL. -/
def F.PRT_LAUNCH_CTL_HOLD_MAX : Fld := ⟨.PRT_LAUNCH_CTL, 31, 16, .rw, 100⟩
/-- VALID of PRT_LAUNCH. -/
def F.PRT_LAUNCH_VALID : Fld := ⟨.PRT_LAUNCH, 63, 63, .rw, 0⟩
/-- TC of PRT_LAUNCH. -/
def F.PRT_LAUNCH_TC : Fld := ⟨.PRT_LAUNCH, 62, 60, .rw, 0⟩
/-- COUNT of PRT_LAUNCH. -/
def F.PRT_LAUNCH_COUNT : Fld := ⟨.PRT_LAUNCH, 59, 48, .rw, 0⟩
/-- TIME of PRT_LAUNCH. -/
def F.PRT_LAUNCH_TIME : Fld := ⟨.PRT_LAUNCH, 47, 0, .rw, 0⟩
/-- LIFT of PRT_FENCE. -/
def F.PRT_FENCE_LIFT : Fld := ⟨.PRT_FENCE, 63, 63, .w1s, 0⟩
/-- HOLD of PRT_FENCE. -/
def F.PRT_FENCE_HOLD : Fld := ⟨.PRT_FENCE, 62, 62, .rw, 0⟩
/-- VALID of GLB_FM. -/
def F.GLB_FM_VALID : Fld := ⟨.GLB_FM, 63, 63, .rwl, 0⟩
/-- CA of GLB_FM. -/
def F.GLB_FM_CA : Fld := ⟨.GLB_FM, 31, 0, .rwl, 0⟩
/-- KEY of GLB_FM_KEY. -/
def F.GLB_FM_KEY_KEY : Fld := ⟨.GLB_FM_KEY, 63, 0, .rwl, 0⟩
/-- LOCK of GLB_FM_LOCK. -/
def F.GLB_FM_LOCK_LOCK : Fld := ⟨.GLB_FM_LOCK, 63, 63, .w1s, 0⟩
/-- LAST_SEQ of GLB_EXPEL. -/
def F.GLB_EXPEL_LAST_SEQ : Fld := ⟨.GLB_EXPEL, 63, 32, .ro, 0⟩
/-- VOTES of GLB_EXPEL. -/
def F.GLB_EXPEL_VOTES : Fld := ⟨.GLB_EXPEL, 31, 27, .ro, 0⟩
/-- STATE of GLB_PROD. -/
def F.GLB_PROD_STATE : Fld := ⟨.GLB_PROD, 63, 61, .ro, 0⟩
/-- GEN of GLB_PROD. -/
def F.GLB_PROD_GEN : Fld := ⟨.GLB_PROD, 60, 53, .ro, 0⟩
/-- LAUNCHER of GLB_PROD. -/
def F.GLB_PROD_LAUNCHER : Fld := ⟨.GLB_PROD, 52, 21, .ro, 0⟩
/-- OVERLAY of GLB_REPAIR. -/
def F.GLB_REPAIR_OVERLAY : Fld := ⟨.GLB_REPAIR, 63, 53, .ro, 0⟩
/-- WRD_FREE of GLB_REPAIR. -/
def F.GLB_REPAIR_WRD_FREE : Fld := ⟨.GLB_REPAIR, 52, 49, .ro, 0⟩
/-- LASER_FREE of GLB_REPAIR. -/
def F.GLB_REPAIR_LASER_FREE : Fld := ⟨.GLB_REPAIR, 48, 43, .ro, 0⟩
/-- ENGINE_FREE of GLB_REPAIR. -/
def F.GLB_REPAIR_ENGINE_FREE : Fld := ⟨.GLB_REPAIR, 42, 38, .ro, 0⟩
/-- EN of GLB_RHS. -/
def F.GLB_RHS_EN : Fld := ⟨.GLB_RHS, 63, 63, .rw, 0⟩
/-- KIND of GLB_RHS. -/
def F.GLB_RHS_KIND : Fld := ⟨.GLB_RHS, 62, 60, .rw, 0⟩
/-- PROD of GLB_RHS. -/
def F.GLB_RHS_PROD : Fld := ⟨.GLB_RHS, 59, 48, .rw, 0⟩
/-- TARGET of GLB_RHS. -/
def F.GLB_RHS_TARGET : Fld := ⟨.GLB_RHS, 47, 24, .rw, 0⟩
/-- PERIOD of GLB_RHS. -/
def F.GLB_RHS_PERIOD : Fld := ⟨.GLB_RHS, 23, 8, .rw, 1000⟩
/-- COUNT of GLB_RHS. -/
def F.GLB_RHS_COUNT : Fld := ⟨.GLB_RHS, 7, 0, .rw, 0⟩
/-- POWER of PWR_STAT. -/
def F.PWR_STAT_POWER : Fld := ⟨.PWR_STAT, 63, 48, .ro, 0⟩
/-- TARGET of PWR_STAT. -/
def F.PWR_STAT_TARGET : Fld := ⟨.PWR_STAT, 47, 32, .ro, 0⟩
/-- WINDOW of PWR_STAT. -/
def F.PWR_STAT_WINDOW : Fld := ⟨.PWR_STAT, 31, 16, .ro, 0⟩
/-- UNMET of PWR_STAT. -/
def F.PWR_STAT_UNMET : Fld := ⟨.PWR_STAT, 7, 7, .ro, 0⟩
/-- INST_OVER of PWR_STAT. -/
def F.PWR_STAT_INST_OVER : Fld := ⟨.PWR_STAT, 6, 6, .ro, 0⟩
/-- EN of PWR_CAP_MIN. -/
def F.PWR_CAP_MIN_EN : Fld := ⟨.PWR_CAP_MIN, 63, 63, .rw, 0⟩
/-- CAP of PWR_CAP_MIN. -/
def F.PWR_CAP_MIN_CAP : Fld := ⟨.PWR_CAP_MIN, 15, 0, .rw, 1700⟩
/-- EN of PWR_CAP_INST. -/
def F.PWR_CAP_INST_EN : Fld := ⟨.PWR_CAP_INST, 63, 63, .rw, 1⟩
/-- CAP of PWR_CAP_INST. -/
def F.PWR_CAP_INST_CAP : Fld := ⟨.PWR_CAP_INST, 15, 0, .rw, 1700⟩
/-- STEP of PWR_GOV. -/
def F.PWR_GOV_STEP : Fld := ⟨.PWR_GOV, 63, 60, .ro, 2⟩
/-- LOOM_RATE of PWR_GOV. -/
def F.PWR_GOV_LOOM_RATE : Fld := ⟨.PWR_GOV, 59, 55, .ro, 16⟩
/-- PARKED of PWR_GOV. -/
def F.PWR_GOV_PARKED : Fld := ⟨.PWR_GOV, 53, 44, .ro, 0⟩
/-- FACTOR of PWR_GOV. -/
def F.PWR_GOV_FACTOR : Fld := ⟨.PWR_GOV, 43, 32, .ro, 1024⟩
/-- STEP_MIN of PWR_GOV. -/
def F.PWR_GOV_STEP_MIN : Fld := ⟨.PWR_GOV, 31, 28, .rw, 5⟩
/-- BOOST of PWR_GOV. -/
def F.PWR_GOV_BOOST : Fld := ⟨.PWR_GOV, 27, 27, .rw, 0⟩
/-- SEQ of PWR_LOG_A. -/
def F.PWR_LOG_A_SEQ : Fld := ⟨.PWR_LOG_A, 63, 40, .ro, 0⟩
/-- VALID of PWR_LOG_A. -/
def F.PWR_LOG_A_VALID : Fld := ⟨.PWR_LOG_A, 39, 39, .ro, 0⟩
/-- ALIGNED of PWR_LOG_A. -/
def F.PWR_LOG_A_ALIGNED : Fld := ⟨.PWR_LOG_A, 38, 38, .ro, 0⟩
/-- INCOMPLETE of PWR_LOG_A. -/
def F.PWR_LOG_A_INCOMPLETE : Fld := ⟨.PWR_LOG_A, 37, 37, .ro, 0⟩
/-- OVER of PWR_LOG_A. -/
def F.PWR_LOG_A_OVER : Fld := ⟨.PWR_LOG_A, 36, 36, .ro, 0⟩
/-- INST_OVER of PWR_LOG_A. -/
def F.PWR_LOG_A_INST_OVER : Fld := ⟨.PWR_LOG_A, 35, 35, .ro, 0⟩
/-- UNMET of PWR_LOG_A. -/
def F.PWR_LOG_A_UNMET : Fld := ⟨.PWR_LOG_A, 34, 34, .ro, 0⟩
/-- ENERGY of PWR_LOG_A. -/
def F.PWR_LOG_A_ENERGY : Fld := ⟨.PWR_LOG_A, 27, 0, .ro, 0⟩
/-- PEAK of PWR_LOG_B. -/
def F.PWR_LOG_B_PEAK : Fld := ⟨.PWR_LOG_B, 63, 48, .ro, 0⟩
/-- END of PWR_LOG_B. -/
def F.PWR_LOG_B_END : Fld := ⟨.PWR_LOG_B, 47, 0, .ro, 0⟩
/-- STAGE_TJ of PWR_THERM. -/
def F.PWR_THERM_STAGE_TJ : Fld := ⟨.PWR_THERM, 63, 56, .ro, 0⟩
/-- LOOM_TJ of PWR_THERM. -/
def F.PWR_THERM_LOOM_TJ : Fld := ⟨.PWR_THERM, 55, 48, .ro, 0⟩
/-- WING_TJ of PWR_THERM. -/
def F.PWR_THERM_WING_TJ : Fld := ⟨.PWR_THERM, 47, 40, .ro, 0⟩
/-- HBM_T of PWR_THERM. -/
def F.PWR_THERM_HBM_T : Fld := ⟨.PWR_THERM, 39, 32, .ro, 0⟩
/-- VALUE of SEC_MEAS. -/
def F.SEC_MEAS_VALUE : Fld := ⟨.SEC_MEAS, 63, 0, .ro, 0⟩
/-- DIGEST of SEC_EXT_DIGEST. -/
def F.SEC_EXT_DIGEST_DIGEST : Fld := ⟨.SEC_EXT_DIGEST, 63, 0, .rw, 0⟩
/-- OP of SEC_EXT_CTL. -/
def F.SEC_EXT_CTL_OP : Fld := ⟨.SEC_EXT_CTL, 63, 62, .wo, 0⟩
/-- INDEX of SEC_EXT_CTL. -/
def F.SEC_EXT_CTL_INDEX : Fld := ⟨.SEC_EXT_CTL, 61, 58, .wo, 0⟩
/-- SECURITY of SEC_STATE. -/
def F.SEC_STATE_SECURITY : Fld := ⟨.SEC_STATE, 63, 62, .ro, 0⟩
/-- DEBUG of SEC_STATE. -/
def F.SEC_STATE_DEBUG : Fld := ⟨.SEC_STATE, 61, 60, .ro, 0⟩
/-- BANK of SEC_STATE. -/
def F.SEC_STATE_BANK : Fld := ⟨.SEC_STATE, 59, 59, .ro, 0⟩
/-- SVN of SEC_STATE. -/
def F.SEC_STATE_SVN : Fld := ⟨.SEC_STATE, 58, 51, .ro, 0⟩
/-- SVN_MIN of SEC_STATE. -/
def F.SEC_STATE_SVN_MIN : Fld := ⟨.SEC_STATE, 50, 43, .ro, 0⟩
/-- OWNER_VALID of SEC_STATE. -/
def F.SEC_STATE_OWNER_VALID : Fld := ⟨.SEC_STATE, 42, 39, .ro, 0⟩
/-- MFG_CLOSED of SEC_STATE. -/
def F.SEC_STATE_MFG_CLOSED : Fld := ⟨.SEC_STATE, 38, 38, .ro, 1⟩
/-- LOCKOUTS of SEC_STATE. -/
def F.SEC_STATE_LOCKOUTS : Fld := ⟨.SEC_STATE, 37, 32, .ro, 0⟩
/-- OP of SEC_DBG_CTL. -/
def F.SEC_DBG_CTL_OP : Fld := ⟨.SEC_DBG_CTL, 63, 62, .wo, 0⟩
/-- LEVEL of SEC_DBG_CTL. -/
def F.SEC_DBG_CTL_LEVEL : Fld := ⟨.SEC_DBG_CTL, 61, 60, .wo, 0⟩
/-- SLOT of SEC_DBG_CTL. -/
def F.SEC_DBG_CTL_SLOT : Fld := ⟨.SEC_DBG_CTL, 59, 58, .wo, 0⟩
/-- MINUTES of SEC_DBG_CTL. -/
def F.SEC_DBG_CTL_MINUTES : Fld := ⟨.SEC_DBG_CTL, 57, 46, .wo, 0⟩
/-- RESULT of SEC_DBG_CTL. -/
def F.SEC_DBG_CTL_RESULT : Fld := ⟨.SEC_DBG_CTL, 45, 43, .ro, 0⟩
/-- FAILS of SEC_DBG_CTL. -/
def F.SEC_DBG_CTL_FAILS : Fld := ⟨.SEC_DBG_CTL, 42, 41, .ro, 0⟩
/-- REMAIN of SEC_DBG_CTL. -/
def F.SEC_DBG_CTL_REMAIN : Fld := ⟨.SEC_DBG_CTL, 40, 29, .ro, 0⟩
/-- NONCE of SEC_DBG_NONCE. -/
def F.SEC_DBG_NONCE_NONCE : Fld := ⟨.SEC_DBG_NONCE, 63, 0, .ro, 0⟩
/-- RESP of SEC_DBG_RESP. -/
def F.SEC_DBG_RESP_RESP : Fld := ⟨.SEC_DBG_RESP, 63, 0, .rw, 0⟩
/-- VALID of GLB_HOUSE_ACL. -/
def F.GLB_HOUSE_ACL_VALID : Fld := ⟨.GLB_HOUSE_ACL, 63, 63, .rwl, 0⟩
/-- RHS of GLB_HOUSE_ACL. -/
def F.GLB_HOUSE_ACL_RHS : Fld := ⟨.GLB_HOUSE_ACL, 62, 62, .rwl, 0⟩
/-- CA of GLB_HOUSE_ACL. -/
def F.GLB_HOUSE_ACL_CA : Fld := ⟨.GLB_HOUSE_ACL, 31, 8, .rwl, 0⟩
/-- LOCK of GLB_HOUSE_LOCK. -/
def F.GLB_HOUSE_LOCK_LOCK : Fld := ⟨.GLB_HOUSE_LOCK, 63, 63, .w1s, 0⟩
/-- MODE of PRT_BCAST_SEL. -/
def F.PRT_BCAST_SEL_MODE : Fld := ⟨.PRT_BCAST_SEL, 63, 62, .rw, 0⟩
/-- WING of PRT_BCAST_SEL. -/
def F.PRT_BCAST_SEL_WING : Fld := ⟨.PRT_BCAST_SEL, 61, 58, .rw, 0⟩
/-- SET of PRT_BCAST_SEL. -/
def F.PRT_BCAST_SEL_SET : Fld := ⟨.PRT_BCAST_SEL, 57, 46, .rw, 0⟩
/-- MASK of PRT_BCAST_MASK. -/
def F.PRT_BCAST_MASK_MASK : Fld := ⟨.PRT_BCAST_MASK, 63, 0, .rw, 0⟩
/-- VALID of GLB_SUB. -/
def F.GLB_SUB_VALID : Fld := ⟨.GLB_SUB, 63, 63, .rw, 0⟩
/-- MODE of GLB_SUB. -/
def F.GLB_SUB_MODE : Fld := ⟨.GLB_SUB, 62, 62, .rw, 0⟩
/-- MIN_SEV of GLB_SUB. -/
def F.GLB_SUB_MIN_SEV : Fld := ⟨.GLB_SUB, 61, 60, .rw, 0⟩
/-- HPORT of GLB_SUB. -/
def F.GLB_SUB_HPORT : Fld := ⟨.GLB_SUB, 59, 58, .rw, 0⟩
/-- TC of GLB_SUB. -/
def F.GLB_SUB_TC : Fld := ⟨.GLB_SUB, 57, 55, .rw, 6⟩
/-- TARGET of GLB_SUB. -/
def F.GLB_SUB_TARGET : Fld := ⟨.GLB_SUB, 47, 0, .rw, 0⟩
/-- HIGH of GLB_NLOG_A. -/
def F.GLB_NLOG_A_HIGH : Fld := ⟨.GLB_NLOG_A, 63, 0, .ro, 0⟩
/-- LOW of GLB_NLOG_B. -/
def F.GLB_NLOG_B_LOW : Fld := ⟨.GLB_NLOG_B, 63, 0, .ro, 0⟩
/-- SEQ of GLB_NLOG_C. -/
def F.GLB_NLOG_C_SEQ : Fld := ⟨.GLB_NLOG_C, 63, 32, .ro, 0⟩
/-- REMOTE of GLB_NLOG_C. -/
def F.GLB_NLOG_C_REMOTE : Fld := ⟨.GLB_NLOG_C, 31, 31, .ro, 0⟩
/-- NEXT_SEQ of GLB_NLOG_STAT. -/
def F.GLB_NLOG_STAT_NEXT_SEQ : Fld := ⟨.GLB_NLOG_STAT, 63, 32, .ro, 0⟩
/-- PHASE of GLB_START. -/
def F.GLB_START_PHASE : Fld := ⟨.GLB_START, 63, 60, .ro, 0⟩
/-- ELAPSED of GLB_START. -/
def F.GLB_START_ELAPSED : Fld := ⟨.GLB_START, 59, 44, .ro, 0⟩
/-- WRAP of CNT_VAL. -/
def F.CNT_VAL_WRAP : Fld := ⟨.CNT_VAL, 63, 63, .ro, 0⟩
/-- HIGH of CNT_VAL. -/
def F.CNT_VAL_HIGH : Fld := ⟨.CNT_VAL, 62, 62, .ro, 0⟩
/-- VALUE of CNT_VAL. -/
def F.CNT_VAL_VALUE : Fld := ⟨.CNT_VAL, 47, 0, .rw, 0⟩
/-- PAIRS of CNT_CHAIN. -/
def F.CNT_CHAIN_PAIRS : Fld := ⟨.CNT_CHAIN, 31, 0, .rw, 0⟩
/-- EN of CNT_FILT_A. -/
def F.CNT_FILT_A_EN : Fld := ⟨.CNT_FILT_A, 63, 63, .rw, 0⟩
/-- EVENT of CNT_FILT_A. -/
def F.CNT_FILT_A_EVENT : Fld := ⟨.CNT_FILT_A, 62, 56, .rw, 0⟩
/-- PRIV of CNT_FILT_A. -/
def F.CNT_FILT_A_PRIV : Fld := ⟨.CNT_FILT_A, 55, 54, .rw, 0⟩
/-- MASTER of CNT_FILT_A. -/
def F.CNT_FILT_A_MASTER : Fld := ⟨.CNT_FILT_A, 53, 52, .rw, 0⟩
/-- PROD of CNT_FILT_A. -/
def F.CNT_FILT_A_PROD : Fld := ⟨.CNT_FILT_A, 51, 40, .rw, 0⟩
/-- PORT of CNT_FILT_A. -/
def F.CNT_FILT_A_PORT : Fld := ⟨.CNT_FILT_A, 39, 30, .rw, 0⟩
/-- VLS of CNT_FILT_A. -/
def F.CNT_FILT_A_VLS : Fld := ⟨.CNT_FILT_A, 29, 22, .rw, 255⟩
/-- TCS of CNT_FILT_A. -/
def F.CNT_FILT_A_TCS : Fld := ⟨.CNT_FILT_A, 21, 14, .rw, 255⟩
/-- OPC_LO of CNT_FILT_B. -/
def F.CNT_FILT_B_OPC_LO : Fld := ⟨.CNT_FILT_B, 63, 56, .rw, 0⟩
/-- OPC_HI of CNT_FILT_B. -/
def F.CNT_FILT_B_OPC_HI : Fld := ⟨.CNT_FILT_B, 55, 48, .rw, 255⟩
/-- ADDR_EN of CNT_FILT_B. -/
def F.CNT_FILT_B_ADDR_EN : Fld := ⟨.CNT_FILT_B, 47, 47, .rw, 0⟩
/-- FA_LO of CNT_FILT_C. -/
def F.CNT_FILT_C_FA_LO : Fld := ⟨.CNT_FILT_C, 63, 0, .rw, 0⟩
/-- FA_HI of CNT_FILT_D. -/
def F.CNT_FILT_D_FA_HI : Fld := ⟨.CNT_FILT_D, 63, 0, .rw, 0⟩
/-- FREEZE of CNT_FREEZE. -/
def F.CNT_FREEZE_FREEZE : Fld := ⟨.CNT_FREEZE, 63, 63, .rw, 0⟩
/-- SNAP of CNT_FREEZE. -/
def F.CNT_FREEZE_SNAP : Fld := ⟨.CNT_FREEZE, 62, 62, .w1s, 0⟩
/-- STATE of CNT_FREEZE. -/
def F.CNT_FREEZE_STATE : Fld := ⟨.CNT_FREEZE, 61, 60, .ro, 0⟩
/-- CUT of CNT_FREEZE. -/
def F.CNT_FREEZE_CUT : Fld := ⟨.CNT_FREEZE, 47, 0, .ro, 0⟩
/-- EN of CNT_DMA_CTL. -/
def F.CNT_DMA_CTL_EN : Fld := ⟨.CNT_DMA_CTL, 63, 63, .rw, 0⟩
/-- PERIOD of CNT_DMA_CTL. -/
def F.CNT_DMA_CTL_PERIOD : Fld := ⟨.CNT_DMA_CTL, 47, 32, .rw, 1000⟩
/-- PTR of CNT_SNAP_WP. -/
def F.CNT_SNAP_WP_PTR : Fld := ⟨.CNT_SNAP_WP, 29, 0, .ro, 0⟩
/-- PTR of CNT_SNAP_RP. -/
def F.CNT_SNAP_RP_PTR : Fld := ⟨.CNT_SNAP_RP, 29, 0, .rw, 0⟩
/-- PTR of CNT_SMP_WP. -/
def F.CNT_SMP_WP_PTR : Fld := ⟨.CNT_SMP_WP, 29, 0, .ro, 0⟩
/-- PTR of CNT_SMP_RP. -/
def F.CNT_SMP_RP_PTR : Fld := ⟨.CNT_SMP_RP, 29, 0, .rw, 0⟩

/-- The fields of each family (reserved bits belong to none, R9). -/
def RF.fields : RF → List Fld
  | .GLB_ID => [F.GLB_ID_PART, F.GLB_ID_STEPPING, F.GLB_ID_SERIAL]
  | .GLB_SITE_MAP => [F.GLB_SITE_MAP_SITE_STATE]
  | .GLB_REF_CTL => [F.GLB_REF_CTL_DISCIPLINE_EN, F.GLB_REF_CTL_LANE, F.GLB_REF_CTL_STATE]
  | .GLB_SEAM_STAT => [F.GLB_SEAM_STAT_STATE, F.GLB_SEAM_STAT_BUNDLES_UP, F.GLB_SEAM_STAT_UNDERSTUDIES_IN, F.GLB_SEAM_STAT_REPLAYS]
  | .GLB_RESET_CTL => [F.GLB_RESET_CTL_DEVICE_RST, F.GLB_RESET_CTL_DIE_HOLD, F.GLB_RESET_CTL_DIE_RST]
  | .TBL_ROUTE_CTL => [F.TBL_ROUTE_CTL_TIER, F.TBL_ROUTE_CTL_ORIGIN_IDLE, F.TBL_ROUTE_CTL_OWN_CA]
  | .TBL_DOWN => [F.TBL_DOWN_VALID, F.TBL_DOWN_SET]
  | .TBL_UP => [F.TBL_UP_VALID, F.TBL_UP_SET]
  | .PRT_ROUTE => [F.PRT_ROUTE_DIR]
  | .TBL_CMD => [F.TBL_CMD_OP, F.TBL_CMD_TABLE, F.TBL_CMD_BY_KEY, F.TBL_CMD_INDEX, F.TBL_CMD_INDEX2]
  | .TBL_STAT => [F.TBL_STAT_BUSY, F.TBL_STAT_OVERRUN, F.TBL_STAT_RESULT, F.TBL_STAT_INDEX, F.TBL_STAT_DONE_COUNT]
  | .TBL_DATA => [F.TBL_DATA_DATA]
  | .TBL_TCAM_PART => [F.TBL_TCAM_PART_COORD_SLOTS]
  | .TBL_DMA_LOCK => [F.TBL_DMA_LOCK_LOCK, F.TBL_DMA_LOCK_COMPAT, F.TBL_DMA_LOCK_STATE, F.TBL_DMA_LOCK_FAIL_TABLE, F.TBL_DMA_LOCK_FAIL_INDEX]
  | .PRT_BORDER => [F.PRT_BORDER_EN, F.PRT_BORDER_WIDTH, F.PRT_BORDER_UNK_FLOOD, F.PRT_BORDER_PFC_EN, F.PRT_BORDER_PROD, F.PRT_BORDER_PVID, F.PRT_BORDER_DEF_PCP, F.PRT_BORDER_PCP_TC]
  | .PRT_BORDER_MAC => [F.PRT_BORDER_MAC_STEER_MAC]
  | .PRT_LEARN => [F.PRT_LEARN_LEARN_EN, F.PRT_LEARN_OVER_DROP, F.PRT_LEARN_LEARN_LIMIT, F.PRT_LEARN_LEARNED]
  | .TBL_LEARN_CTL => [F.TBL_LEARN_CTL_AGE_TIME]
  | .WRD_POOL => [F.WRD_POOL_SHARED, F.WRD_POOL_SHARED_FREE]
  | .WRD_RES => [F.WRD_RES_VL7, F.WRD_RES_VL6, F.WRD_RES_VL5, F.WRD_RES_VL4, F.WRD_RES_VL3, F.WRD_RES_VL2, F.WRD_RES_VL1, F.WRD_RES_VL0]
  | .WRD_SHARE => [F.WRD_SHARE_DETOUR, F.WRD_SHARE_ALPHA_SHIFT, F.WRD_SHARE_HOLD_LIMIT]
  | .WRD_COLL_POOL => [F.WRD_COLL_POOL_POOL, F.WRD_COLL_POOL_ADMITTED]
  | .WRD_PROD => [F.WRD_PROD_QUOTA_EN, F.WRD_PROD_QUOTA, F.WRD_PROD_USED]
  | .PRT_MARK => [F.PRT_MARK_T1, F.PRT_MARK_T2]
  | .WRD_RSQ_CTL => [F.WRD_RSQ_CTL_GAP, F.WRD_RSQ_CTL_IDLE, F.WRD_RSQ_CTL_LEARN]
  | .WRD_RSQ_STAT => [F.WRD_RSQ_STAT_HIGH, F.WRD_RSQ_STAT_IN_USE]
  | .PRT_QRATE => [F.PRT_QRATE_MIN_RATE, F.PRT_QRATE_MAX_RATE, F.PRT_QRATE_WEIGHT, F.PRT_QRATE_BURST]
  | .PRT_QOWN => [F.PRT_QOWN_PROD, F.PRT_QOWN_TIER, F.PRT_QOWN_BREACHED, F.PRT_QOWN_GRANTED]
  | .PRT_VLG => [F.PRT_VLG_VL6, F.PRT_VLG_VL5, F.PRT_VLG_VL4, F.PRT_VLG_VL3, F.PRT_VLG_VL2, F.PRT_VLG_VL1]
  | .PRT_TCMAP => [F.PRT_TCMAP_EN, F.PRT_TCMAP_MAP]
  | .PRT_COLOUR => [F.PRT_COLOUR_COLOUR]
  | .PRT_POL => [F.PRT_POL_EN, F.PRT_POL_PER_TC, F.PRT_POL_BASE]
  | .PRT_RO_CTL => [F.PRT_RO_CTL_EN, F.PRT_RO_CTL_SWAP, F.PRT_RO_CTL_STATE, F.PRT_RO_CTL_LAST, F.PRT_RO_CTL_DOMAIN, F.PRT_RO_CTL_PROD, F.PRT_RO_CTL_ACTIVE_LAST, F.PRT_RO_CTL_ENTRY]
  | .PRT_RO_BASE => [F.PRT_RO_BASE_BASE]
  | .PRT_RO_ENTRY => [F.PRT_RO_ENTRY_EVEN, F.PRT_RO_ENTRY_ODD]
  | .PRT_SCHED => [F.PRT_SCHED_ADMIT_LIMIT, F.PRT_SCHED_COMMITTED, F.PRT_SCHED_COLL_RATE, F.PRT_SCHED_VL7_RATE, F.PRT_SCHED_REFUSED]
  | .TBL_ENS_A => [F.TBL_ENS_A_VALID, F.TBL_ENS_A_HALL_HI, F.TBL_ENS_A_HALL_LO, F.TBL_ENS_A_POD_HI, F.TBL_ENS_A_POD_LO, F.TBL_ENS_A_RACK_HI, F.TBL_ENS_A_RACK_LO, F.TBL_ENS_A_TRAY_HI, F.TBL_ENS_A_TRAY_LO, F.TBL_ENS_A_SLOT_HI, F.TBL_ENS_A_SLOT_LO, F.TBL_ENS_A_UNIT_HI, F.TBL_ENS_A_UNIT_LO, F.TBL_ENS_A_FN, F.TBL_ENS_A_LOOM_MASK]
  | .TBL_ENS_B => [F.TBL_ENS_B_EXCL_EN, F.TBL_ENS_B_EXCL]
  | .TBL_ENS_C => [F.TBL_ENS_C_MEMBERS]
  | .LOM_COLL_CTL => [F.LOM_COLL_CTL_STALL]
  | .CUE_ENG_STAT => [F.CUE_ENG_STAT_STATE, F.CUE_ENG_STAT_PROD, F.CUE_ENG_STAT_IMAGE, F.CUE_ENG_STAT_POSITION, F.CUE_ENG_STAT_QUEUE, F.CUE_ENG_STAT_PC]
  | .CUE_ENG_TRAP => [F.CUE_ENG_TRAP_CAUSE, F.CUE_ENG_TRAP_PC, F.CUE_ENG_TRAP_DETAIL]
  | .CUE_SAMPLE_CTL => [F.CUE_SAMPLE_CTL_EN, F.CUE_SAMPLE_CTL_MODE, F.CUE_SAMPLE_CTL_PROD_EN, F.CUE_SAMPLE_CTL_PROD, F.CUE_SAMPLE_CTL_PERIOD]
  | .CUE_LDR_CMD => [F.CUE_LDR_CMD_OP, F.CUE_LDR_CMD_FORCE, F.CUE_LDR_CMD_IMAGE, F.CUE_LDR_CMD_SET, F.CUE_LDR_CMD_PROD]
  | .CUE_LDR_SRC => [F.CUE_LDR_SRC_ADDR]
  | .CUE_LDR_STAT => [F.CUE_LDR_STAT_BUSY, F.CUE_LDR_STAT_OVERRUN, F.CUE_LDR_STAT_STATUS, F.CUE_LDR_STAT_IMAGE, F.CUE_LDR_STAT_REASON, F.CUE_LDR_STAT_DONE_COUNT]
  | .MEM_CTL => [F.MEM_CTL_FLAG_HOLD, F.MEM_CTL_MOVE_LIMIT, F.MEM_CTL_DEAD_LAPSE]
  | .MEM_LEDGER => [F.MEM_LEDGER_HIGH, F.MEM_LEDGER_IN_USE]
  | .WNG_LANE_CTL => [F.WNG_LANE_CTL_FEC, F.WNG_LANE_CTL_RETRAIN]
  | .WNG_LANE_STAT => [F.WNG_LANE_STAT_OSTATE, F.WNG_LANE_STAT_RX_POWER, F.WNG_LANE_STAT_FAR_MARGIN, F.WNG_LANE_STAT_NEAR_MARGIN]
  | .WNG_LASER => [F.WNG_LASER_STATE, F.WNG_LASER_GROUP, F.WNG_LASER_EOL_WARN, F.WNG_LASER_BIAS, F.WNG_LASER_MARGIN, F.WNG_LASER_HOURS]
  | .WNG_LASER_CMD => [F.WNG_LASER_CMD_OP, F.WNG_LASER_CMD_GROUP, F.WNG_LASER_CMD_BUSY, F.WNG_LASER_CMD_RESULT]
  | .WNG_CTL => [F.WNG_CTL_AUTO_SWAP, F.WNG_CTL_FF_EN, F.WNG_CTL_XT_EN, F.WNG_CTL_XT_COMMIT, F.WNG_CTL_MON_INT]
  | .WNG_XTALK => [F.WNG_XTALK_COEF]
  | .WNG_HEAT_STAT => [F.WNG_HEAT_STAT_WORST_PM, F.WNG_HEAT_STAT_WORST_HEATER]
  | .WNG_TRAP_MAP => [F.WNG_TRAP_MAP_OUT]
  | .WNG_TRAP_CTL => [F.WNG_TRAP_CTL_COMMIT, F.WNG_TRAP_CTL_STATE, F.WNG_TRAP_CTL_RESULT, F.WNG_TRAP_CTL_DARK, F.WNG_TRAP_CTL_MOVED]
  | .PRT_LINK_CTL => [F.PRT_LINK_CTL_EN, F.PRT_LINK_CTL_TYPE, F.PRT_LINK_CTL_RECALL]
  | .PRT_LINK_STAT => [F.PRT_LINK_STAT_STATE, F.PRT_LINK_STAT_FENCED, F.PRT_LINK_STAT_CAUSE, F.PRT_LINK_STAT_RTT, F.PRT_LINK_STAT_DOWNS, F.PRT_LINK_STAT_REPLAYS]
  | .GLB_LINK_CTL => [F.GLB_LINK_CTL_PLAN_GEN, F.GLB_LINK_CTL_LEVEL_CAP, F.GLB_LINK_CTL_VERSION]
  | .PRT_SEAT => [F.PRT_SEAT_EXPECT, F.PRT_SEAT_CA, F.PRT_SEAT_PEER_LANE, F.PRT_SEAT_LANE_ANY]
  | .PRT_PEER => [F.PRT_PEER_CA, F.PRT_PEER_LANE, F.PRT_PEER_VERSION, F.PRT_PEER_LEVEL_PEER, F.PRT_PEER_LEVEL, F.PRT_PEER_YEFEDRA]
  | .TMU_FRC => [F.TMU_FRC_FRC]
  | .TMU_RATE => [F.TMU_RATE_RATE]
  | .TMU_OFFSET => [F.TMU_OFFSET_STEP_NS]
  | .TMU_OFFSET_FINE => [F.TMU_OFFSET_FINE_STEP_FRAC]
  | .TMU_NOW => [F.TMU_NOW_NS]
  | .TMU_NOW_FRAC => [F.TMU_NOW_FRAC_FRAC]
  | .TMU_CTL => [F.TMU_CTL_SYNC, F.TMU_CTL_SERVO, F.TMU_CTL_DOMAIN, F.TMU_CTL_HOLD]
  | .TMU_STAT => [F.TMU_STAT_VALID, F.TMU_STAT_LOCKED, F.TMU_STAT_SYNCED, F.TMU_STAT_STEPS]
  | .PRT_LAUNCH_CTL => [F.PRT_LAUNCH_CTL_EN, F.PRT_LAUNCH_CTL_TCMASK, F.PRT_LAUNCH_CTL_WINDOW, F.PRT_LAUNCH_CTL_HOLD_MAX]
  | .PRT_LAUNCH => [F.PRT_LAUNCH_VALID, F.PRT_LAUNCH_TC, F.PRT_LAUNCH_COUNT, F.PRT_LAUNCH_TIME]
  | .PRT_FENCE => [F.PRT_FENCE_LIFT, F.PRT_FENCE_HOLD]
  | .GLB_FM => [F.GLB_FM_VALID, F.GLB_FM_CA]
  | .GLB_FM_KEY => [F.GLB_FM_KEY_KEY]
  | .GLB_FM_LOCK => [F.GLB_FM_LOCK_LOCK]
  | .GLB_EXPEL => [F.GLB_EXPEL_LAST_SEQ, F.GLB_EXPEL_VOTES]
  | .GLB_PROD => [F.GLB_PROD_STATE, F.GLB_PROD_GEN, F.GLB_PROD_LAUNCHER]
  | .GLB_REPAIR => [F.GLB_REPAIR_OVERLAY, F.GLB_REPAIR_WRD_FREE, F.GLB_REPAIR_LASER_FREE, F.GLB_REPAIR_ENGINE_FREE]
  | .GLB_RHS => [F.GLB_RHS_EN, F.GLB_RHS_KIND, F.GLB_RHS_PROD, F.GLB_RHS_TARGET, F.GLB_RHS_PERIOD, F.GLB_RHS_COUNT]
  | .PWR_STAT => [F.PWR_STAT_POWER, F.PWR_STAT_TARGET, F.PWR_STAT_WINDOW, F.PWR_STAT_UNMET, F.PWR_STAT_INST_OVER]
  | .PWR_CAP_MIN => [F.PWR_CAP_MIN_EN, F.PWR_CAP_MIN_CAP]
  | .PWR_CAP_INST => [F.PWR_CAP_INST_EN, F.PWR_CAP_INST_CAP]
  | .PWR_GOV => [F.PWR_GOV_STEP, F.PWR_GOV_LOOM_RATE, F.PWR_GOV_PARKED, F.PWR_GOV_FACTOR, F.PWR_GOV_STEP_MIN, F.PWR_GOV_BOOST]
  | .PWR_LOG_A => [F.PWR_LOG_A_SEQ, F.PWR_LOG_A_VALID, F.PWR_LOG_A_ALIGNED, F.PWR_LOG_A_INCOMPLETE, F.PWR_LOG_A_OVER, F.PWR_LOG_A_INST_OVER, F.PWR_LOG_A_UNMET, F.PWR_LOG_A_ENERGY]
  | .PWR_LOG_B => [F.PWR_LOG_B_PEAK, F.PWR_LOG_B_END]
  | .PWR_THERM => [F.PWR_THERM_STAGE_TJ, F.PWR_THERM_LOOM_TJ, F.PWR_THERM_WING_TJ, F.PWR_THERM_HBM_T]
  | .SEC_MEAS => [F.SEC_MEAS_VALUE]
  | .SEC_EXT_DIGEST => [F.SEC_EXT_DIGEST_DIGEST]
  | .SEC_EXT_CTL => [F.SEC_EXT_CTL_OP, F.SEC_EXT_CTL_INDEX]
  | .SEC_STATE => [F.SEC_STATE_SECURITY, F.SEC_STATE_DEBUG, F.SEC_STATE_BANK, F.SEC_STATE_SVN, F.SEC_STATE_SVN_MIN, F.SEC_STATE_OWNER_VALID, F.SEC_STATE_MFG_CLOSED, F.SEC_STATE_LOCKOUTS]
  | .SEC_DBG_CTL => [F.SEC_DBG_CTL_OP, F.SEC_DBG_CTL_LEVEL, F.SEC_DBG_CTL_SLOT, F.SEC_DBG_CTL_MINUTES, F.SEC_DBG_CTL_RESULT, F.SEC_DBG_CTL_FAILS, F.SEC_DBG_CTL_REMAIN]
  | .SEC_DBG_NONCE => [F.SEC_DBG_NONCE_NONCE]
  | .SEC_DBG_RESP => [F.SEC_DBG_RESP_RESP]
  | .GLB_HOUSE_ACL => [F.GLB_HOUSE_ACL_VALID, F.GLB_HOUSE_ACL_RHS, F.GLB_HOUSE_ACL_CA]
  | .GLB_HOUSE_LOCK => [F.GLB_HOUSE_LOCK_LOCK]
  | .PRT_BCAST_SEL => [F.PRT_BCAST_SEL_MODE, F.PRT_BCAST_SEL_WING, F.PRT_BCAST_SEL_SET]
  | .PRT_BCAST_MASK => [F.PRT_BCAST_MASK_MASK]
  | .GLB_SUB => [F.GLB_SUB_VALID, F.GLB_SUB_MODE, F.GLB_SUB_MIN_SEV, F.GLB_SUB_HPORT, F.GLB_SUB_TC, F.GLB_SUB_TARGET]
  | .GLB_NLOG_A => [F.GLB_NLOG_A_HIGH]
  | .GLB_NLOG_B => [F.GLB_NLOG_B_LOW]
  | .GLB_NLOG_C => [F.GLB_NLOG_C_SEQ, F.GLB_NLOG_C_REMOTE]
  | .GLB_NLOG_STAT => [F.GLB_NLOG_STAT_NEXT_SEQ]
  | .GLB_START => [F.GLB_START_PHASE, F.GLB_START_ELAPSED]
  | .CNT_VAL => [F.CNT_VAL_WRAP, F.CNT_VAL_HIGH, F.CNT_VAL_VALUE]
  | .CNT_CHAIN => [F.CNT_CHAIN_PAIRS]
  | .CNT_FILT_A => [F.CNT_FILT_A_EN, F.CNT_FILT_A_EVENT, F.CNT_FILT_A_PRIV, F.CNT_FILT_A_MASTER, F.CNT_FILT_A_PROD, F.CNT_FILT_A_PORT, F.CNT_FILT_A_VLS, F.CNT_FILT_A_TCS]
  | .CNT_FILT_B => [F.CNT_FILT_B_OPC_LO, F.CNT_FILT_B_OPC_HI, F.CNT_FILT_B_ADDR_EN]
  | .CNT_FILT_C => [F.CNT_FILT_C_FA_LO]
  | .CNT_FILT_D => [F.CNT_FILT_D_FA_HI]
  | .CNT_FREEZE => [F.CNT_FREEZE_FREEZE, F.CNT_FREEZE_SNAP, F.CNT_FREEZE_STATE, F.CNT_FREEZE_CUT]
  | .CNT_DMA_CTL => [F.CNT_DMA_CTL_EN, F.CNT_DMA_CTL_PERIOD]
  | .CNT_SNAP_WP => [F.CNT_SNAP_WP_PTR]
  | .CNT_SNAP_RP => [F.CNT_SNAP_RP_PTR]
  | .CNT_SMP_WP => [F.CNT_SMP_WP_PTR]
  | .CNT_SMP_RP => [F.CNT_SMP_RP_PTR]

/-- Number of each family, the low part of its storage key. -/
def RF.num : RF → Nat
  | .GLB_ID => 0
  | .GLB_SITE_MAP => 1
  | .GLB_REF_CTL => 2
  | .GLB_SEAM_STAT => 3
  | .GLB_RESET_CTL => 4
  | .TBL_ROUTE_CTL => 5
  | .TBL_DOWN => 6
  | .TBL_UP => 7
  | .PRT_ROUTE => 8
  | .TBL_CMD => 9
  | .TBL_STAT => 10
  | .TBL_DATA => 11
  | .TBL_TCAM_PART => 12
  | .TBL_DMA_LOCK => 13
  | .PRT_BORDER => 14
  | .PRT_BORDER_MAC => 15
  | .PRT_LEARN => 16
  | .TBL_LEARN_CTL => 17
  | .WRD_POOL => 18
  | .WRD_RES => 19
  | .WRD_SHARE => 20
  | .WRD_COLL_POOL => 21
  | .WRD_PROD => 22
  | .PRT_MARK => 23
  | .WRD_RSQ_CTL => 24
  | .WRD_RSQ_STAT => 25
  | .PRT_QRATE => 26
  | .PRT_QOWN => 27
  | .PRT_VLG => 28
  | .PRT_TCMAP => 29
  | .PRT_COLOUR => 30
  | .PRT_POL => 31
  | .PRT_RO_CTL => 32
  | .PRT_RO_BASE => 33
  | .PRT_RO_ENTRY => 34
  | .PRT_SCHED => 35
  | .TBL_ENS_A => 36
  | .TBL_ENS_B => 37
  | .TBL_ENS_C => 38
  | .LOM_COLL_CTL => 39
  | .CUE_ENG_STAT => 40
  | .CUE_ENG_TRAP => 41
  | .CUE_SAMPLE_CTL => 42
  | .CUE_LDR_CMD => 43
  | .CUE_LDR_SRC => 44
  | .CUE_LDR_STAT => 45
  | .MEM_CTL => 46
  | .MEM_LEDGER => 47
  | .WNG_LANE_CTL => 48
  | .WNG_LANE_STAT => 49
  | .WNG_LASER => 50
  | .WNG_LASER_CMD => 51
  | .WNG_CTL => 52
  | .WNG_XTALK => 53
  | .WNG_HEAT_STAT => 54
  | .WNG_TRAP_MAP => 55
  | .WNG_TRAP_CTL => 56
  | .PRT_LINK_CTL => 57
  | .PRT_LINK_STAT => 58
  | .GLB_LINK_CTL => 59
  | .PRT_SEAT => 60
  | .PRT_PEER => 61
  | .TMU_FRC => 62
  | .TMU_RATE => 63
  | .TMU_OFFSET => 64
  | .TMU_OFFSET_FINE => 65
  | .TMU_NOW => 66
  | .TMU_NOW_FRAC => 67
  | .TMU_CTL => 68
  | .TMU_STAT => 69
  | .PRT_LAUNCH_CTL => 70
  | .PRT_LAUNCH => 71
  | .PRT_FENCE => 72
  | .GLB_FM => 73
  | .GLB_FM_KEY => 74
  | .GLB_FM_LOCK => 75
  | .GLB_EXPEL => 76
  | .GLB_PROD => 77
  | .GLB_REPAIR => 78
  | .GLB_RHS => 79
  | .PWR_STAT => 80
  | .PWR_CAP_MIN => 81
  | .PWR_CAP_INST => 82
  | .PWR_GOV => 83
  | .PWR_LOG_A => 84
  | .PWR_LOG_B => 85
  | .PWR_THERM => 86
  | .SEC_MEAS => 87
  | .SEC_EXT_DIGEST => 88
  | .SEC_EXT_CTL => 89
  | .SEC_STATE => 90
  | .SEC_DBG_CTL => 91
  | .SEC_DBG_NONCE => 92
  | .SEC_DBG_RESP => 93
  | .GLB_HOUSE_ACL => 94
  | .GLB_HOUSE_LOCK => 95
  | .PRT_BCAST_SEL => 96
  | .PRT_BCAST_MASK => 97
  | .GLB_SUB => 98
  | .GLB_NLOG_A => 99
  | .GLB_NLOG_B => 100
  | .GLB_NLOG_C => 101
  | .GLB_NLOG_STAT => 102
  | .GLB_START => 103
  | .CNT_VAL => 104
  | .CNT_CHAIN => 105
  | .CNT_FILT_A => 106
  | .CNT_FILT_B => 107
  | .CNT_FILT_C => 108
  | .CNT_FILT_D => 109
  | .CNT_FREEZE => 110
  | .CNT_DMA_CTL => 111
  | .CNT_SNAP_WP => 112
  | .CNT_SNAP_RP => 113
  | .CNT_SMP_WP => 114
  | .CNT_SMP_RP => 115

/-- Byte address of each family's first register. -/
def RF.base : RF → Nat
  | .GLB_ID => 0x0
  | .GLB_SITE_MAP => 0x8
  | .GLB_REF_CTL => 0x18
  | .GLB_SEAM_STAT => 0x100
  | .GLB_RESET_CTL => 0x10
  | .TBL_ROUTE_CTL => 0x210000
  | .TBL_DOWN => 0x211000
  | .TBL_UP => 0x213000
  | .PRT_ROUTE => 0x1000100
  | .TBL_CMD => 0x200000
  | .TBL_STAT => 0x200008
  | .TBL_DATA => 0x200010
  | .TBL_TCAM_PART => 0x200050
  | .TBL_DMA_LOCK => 0x200058
  | .PRT_BORDER => 0x1000200
  | .PRT_BORDER_MAC => 0x1000208
  | .PRT_LEARN => 0x1000210
  | .TBL_LEARN_CTL => 0x200060
  | .WRD_POOL => 0x400000
  | .WRD_RES => 0x400008
  | .WRD_SHARE => 0x400010
  | .WRD_COLL_POOL => 0x400018
  | .WRD_PROD => 0x408000
  | .PRT_MARK => 0x1000300
  | .WRD_RSQ_CTL => 0x400020
  | .WRD_RSQ_STAT => 0x400028
  | .PRT_QRATE => 0x1000800
  | .PRT_QOWN => 0x1000808
  | .PRT_VLG => 0x1000408
  | .PRT_TCMAP => 0x1000500
  | .PRT_COLOUR => 0x1000508
  | .PRT_POL => 0x1000510
  | .PRT_RO_CTL => 0x1000420
  | .PRT_RO_BASE => 0x1000428
  | .PRT_RO_ENTRY => 0x1001000
  | .PRT_SCHED => 0x1000400
  | .TBL_ENS_A => 0x220000
  | .TBL_ENS_B => 0x220008
  | .TBL_ENS_C => 0x220010
  | .LOM_COLL_CTL => 0x8000100
  | .CUE_ENG_STAT => 0x8002000
  | .CUE_ENG_TRAP => 0x8002008
  | .CUE_SAMPLE_CTL => 0x8000180
  | .CUE_LDR_CMD => 0x8000200
  | .CUE_LDR_SRC => 0x8000208
  | .CUE_LDR_STAT => 0x8000210
  | .MEM_CTL => 0xD000000
  | .MEM_LEDGER => 0xD000008
  | .WNG_LANE_CTL => 0x6001000
  | .WNG_LANE_STAT => 0x6001008
  | .WNG_LASER => 0x6000100
  | .WNG_LASER_CMD => 0x6000180
  | .WNG_CTL => 0x6000000
  | .WNG_XTALK => 0x6008000
  | .WNG_HEAT_STAT => 0x6000218
  | .WNG_TRAP_MAP => 0x6000200
  | .WNG_TRAP_CTL => 0x6000210
  | .PRT_LINK_CTL => 0x1000000
  | .PRT_LINK_STAT => 0x1000008
  | .GLB_LINK_CTL => 0x20
  | .PRT_SEAT => 0x1000010
  | .PRT_PEER => 0x1000018
  | .TMU_FRC => 0x100000
  | .TMU_RATE => 0x100008
  | .TMU_OFFSET => 0x100010
  | .TMU_OFFSET_FINE => 0x100018
  | .TMU_NOW => 0x100020
  | .TMU_NOW_FRAC => 0x100028
  | .TMU_CTL => 0x100030
  | .TMU_STAT => 0x100038
  | .PRT_LAUNCH_CTL => 0x1000600
  | .PRT_LAUNCH => 0x1001800
  | .PRT_FENCE => 0x1000020
  | .GLB_FM => 0x200
  | .GLB_FM_KEY => 0x240
  | .GLB_FM_LOCK => 0x230
  | .GLB_EXPEL => 0x238
  | .GLB_PROD => 0x8000
  | .GLB_REPAIR => 0x600
  | .GLB_RHS => 0x500
  | .PWR_STAT => 0x1010
  | .PWR_CAP_MIN => 0x1000
  | .PWR_CAP_INST => 0x1008
  | .PWR_GOV => 0x1018
  | .PWR_LOG_A => 0x1100
  | .PWR_LOG_B => 0x1108
  | .PWR_THERM => 0x1020
  | .SEC_MEAS => 0x2400
  | .SEC_EXT_DIGEST => 0x2040
  | .SEC_EXT_CTL => 0x2010
  | .SEC_STATE => 0x2000
  | .SEC_DBG_CTL => 0x2008
  | .SEC_DBG_NONCE => 0x2020
  | .SEC_DBG_RESP => 0x2100
  | .GLB_HOUSE_ACL => 0x800
  | .GLB_HOUSE_LOCK => 0x880
  | .PRT_BCAST_SEL => 0x700
  | .PRT_BCAST_MASK => 0x780
  | .GLB_SUB => 0x900
  | .GLB_NLOG_A => 0x20000
  | .GLB_NLOG_B => 0x20008
  | .GLB_NLOG_C => 0x20010
  | .GLB_NLOG_STAT => 0x980
  | .GLB_START => 0x28
  | .CNT_VAL => 0xC000000
  | .CNT_CHAIN => 0xC400200
  | .CNT_FILT_A => 0xC400000
  | .CNT_FILT_B => 0xC400008
  | .CNT_FILT_C => 0xC400010
  | .CNT_FILT_D => 0xC400018
  | .CNT_FREEZE => 0xC800000
  | .CNT_DMA_CTL => 0xC800008
  | .CNT_SNAP_WP => 0xC800010
  | .CNT_SNAP_RP => 0xC800018
  | .CNT_SMP_WP => 0xC800020
  | .CNT_SMP_RP => 0xC800028

/-- Index dimensions of each family: stride in bytes, first index, number of indices, outermost first. -/
def RF.dims : RF → List (Nat × Nat × Nat)
  | .GLB_ID => []
  | .GLB_SITE_MAP => []
  | .GLB_REF_CTL => []
  | .GLB_SEAM_STAT => [(0x8, 1, 20)]
  | .GLB_RESET_CTL => []
  | .TBL_ROUTE_CTL => []
  | .TBL_DOWN => [(0x8, 0, 1024)]
  | .TBL_UP => [(0x8, 0, 129)]
  | .PRT_ROUTE => [(0x10000, 0, 1024)]
  | .TBL_CMD => []
  | .TBL_STAT => []
  | .TBL_DATA => [(0x8, 0, 8)]
  | .TBL_TCAM_PART => []
  | .TBL_DMA_LOCK => []
  | .PRT_BORDER => [(0x10000, 0, 1024)]
  | .PRT_BORDER_MAC => [(0x10000, 0, 1024)]
  | .PRT_LEARN => [(0x10000, 0, 1024)]
  | .TBL_LEARN_CTL => []
  | .WRD_POOL => []
  | .WRD_RES => []
  | .WRD_SHARE => []
  | .WRD_COLL_POOL => []
  | .WRD_PROD => [(0x8, 0, 4096)]
  | .PRT_MARK => [(0x10000, 0, 1024)]
  | .WRD_RSQ_CTL => []
  | .WRD_RSQ_STAT => []
  | .PRT_QRATE => [(0x10000, 0, 1024), (0x10, 0, 64)]
  | .PRT_QOWN => [(0x10000, 0, 1024), (0x10, 0, 64)]
  | .PRT_VLG => [(0x10000, 0, 1024)]
  | .PRT_TCMAP => [(0x10000, 0, 1024)]
  | .PRT_COLOUR => [(0x10000, 0, 1024)]
  | .PRT_POL => [(0x10000, 0, 1024), (0x8, 0, 8)]
  | .PRT_RO_CTL => [(0x10000, 0, 1024)]
  | .PRT_RO_BASE => [(0x10000, 0, 1024)]
  | .PRT_RO_ENTRY => [(0x10000, 0, 1024), (0x8, 0, 128)]
  | .PRT_SCHED => [(0x10000, 0, 1024)]
  | .TBL_ENS_A => [(0x20, 0, 64)]
  | .TBL_ENS_B => [(0x20, 0, 64)]
  | .TBL_ENS_C => [(0x20, 0, 64)]
  | .LOM_COLL_CTL => [(0x1000000, 0, 4)]
  | .CUE_ENG_STAT => [(0x1000000, 0, 4), (0x10, 0, 68)]
  | .CUE_ENG_TRAP => [(0x1000000, 0, 4), (0x10, 0, 68)]
  | .CUE_SAMPLE_CTL => [(0x1000000, 0, 4)]
  | .CUE_LDR_CMD => [(0x1000000, 0, 4)]
  | .CUE_LDR_SRC => [(0x1000000, 0, 4)]
  | .CUE_LDR_STAT => [(0x1000000, 0, 4)]
  | .MEM_CTL => []
  | .MEM_LEDGER => []
  | .WNG_LANE_CTL => [(0x100000, 0, 16), (0x10, 0, 65)]
  | .WNG_LANE_STAT => [(0x100000, 0, 16), (0x10, 0, 65)]
  | .WNG_LASER => [(0x100000, 0, 16), (0x8, 0, 11)]
  | .WNG_LASER_CMD => [(0x100000, 0, 16)]
  | .WNG_CTL => [(0x100000, 0, 16)]
  | .WNG_XTALK => [(0x100000, 0, 16), (0x40, 0, 128), (0x8, 0, 5)]
  | .WNG_HEAT_STAT => [(0x100000, 0, 16)]
  | .WNG_TRAP_MAP => [(0x100000, 0, 16), (0x8, 0, 2)]
  | .WNG_TRAP_CTL => [(0x100000, 0, 16)]
  | .PRT_LINK_CTL => [(0x10000, 0, 1024)]
  | .PRT_LINK_STAT => [(0x10000, 0, 1024)]
  | .GLB_LINK_CTL => []
  | .PRT_SEAT => [(0x10000, 0, 1024)]
  | .PRT_PEER => [(0x10000, 0, 1024)]
  | .TMU_FRC => []
  | .TMU_RATE => []
  | .TMU_OFFSET => []
  | .TMU_OFFSET_FINE => []
  | .TMU_NOW => []
  | .TMU_NOW_FRAC => []
  | .TMU_CTL => []
  | .TMU_STAT => []
  | .PRT_LAUNCH_CTL => [(0x10000, 0, 1024)]
  | .PRT_LAUNCH => [(0x10000, 0, 1024), (0x8, 0, 64)]
  | .PRT_FENCE => [(0x10000, 0, 1024)]
  | .GLB_FM => [(0x8, 0, 5)]
  | .GLB_FM_KEY => [(0x60, 0, 5), (0x8, 0, 12)]
  | .GLB_FM_LOCK => []
  | .GLB_EXPEL => []
  | .GLB_PROD => [(0x8, 0, 4096)]
  | .GLB_REPAIR => []
  | .GLB_RHS => [(0x8, 0, 16)]
  | .PWR_STAT => []
  | .PWR_CAP_MIN => []
  | .PWR_CAP_INST => []
  | .PWR_GOV => []
  | .PWR_LOG_A => [(0x10, 0, 64)]
  | .PWR_LOG_B => [(0x10, 0, 64)]
  | .PWR_THERM => []
  | .SEC_MEAS => [(0x40, 0, 16), (0x8, 0, 6)]
  | .SEC_EXT_DIGEST => [(0x8, 0, 6)]
  | .SEC_EXT_CTL => []
  | .SEC_STATE => []
  | .SEC_DBG_CTL => []
  | .SEC_DBG_NONCE => [(0x8, 0, 4)]
  | .SEC_DBG_RESP => [(0x8, 0, 24)]
  | .GLB_HOUSE_ACL => [(0x8, 0, 16)]
  | .GLB_HOUSE_LOCK => []
  | .PRT_BCAST_SEL => []
  | .PRT_BCAST_MASK => [(0x8, 0, 16)]
  | .GLB_SUB => [(0x8, 0, 8)]
  | .GLB_NLOG_A => [(0x20, 0, 4096)]
  | .GLB_NLOG_B => [(0x20, 0, 4096)]
  | .GLB_NLOG_C => [(0x20, 0, 4096)]
  | .GLB_NLOG_STAT => []
  | .GLB_START => []
  | .CNT_VAL => [(0x200, 0, 1064), (0x8, 0, 64)]
  | .CNT_CHAIN => [(0x400, 0, 1064)]
  | .CNT_FILT_A => [(0x400, 0, 1064), (0x20, 0, 16)]
  | .CNT_FILT_B => [(0x400, 0, 1064), (0x20, 0, 16)]
  | .CNT_FILT_C => [(0x400, 0, 1064), (0x20, 0, 16)]
  | .CNT_FILT_D => [(0x400, 0, 1064), (0x20, 0, 16)]
  | .CNT_FREEZE => []
  | .CNT_DMA_CTL => []
  | .CNT_SNAP_WP => []
  | .CNT_SNAP_RP => []
  | .CNT_SMP_WP => []
  | .CNT_SMP_RP => []

/-- Every family, in the order of the spec. -/
def RF.all : List RF :=
  [.GLB_ID, .GLB_SITE_MAP, .GLB_REF_CTL, .GLB_SEAM_STAT, .GLB_RESET_CTL, .TBL_ROUTE_CTL,
   .TBL_DOWN, .TBL_UP, .PRT_ROUTE, .TBL_CMD, .TBL_STAT, .TBL_DATA,
   .TBL_TCAM_PART, .TBL_DMA_LOCK, .PRT_BORDER, .PRT_BORDER_MAC, .PRT_LEARN, .TBL_LEARN_CTL,
   .WRD_POOL, .WRD_RES, .WRD_SHARE, .WRD_COLL_POOL, .WRD_PROD, .PRT_MARK,
   .WRD_RSQ_CTL, .WRD_RSQ_STAT, .PRT_QRATE, .PRT_QOWN, .PRT_VLG, .PRT_TCMAP,
   .PRT_COLOUR, .PRT_POL, .PRT_RO_CTL, .PRT_RO_BASE, .PRT_RO_ENTRY, .PRT_SCHED,
   .TBL_ENS_A, .TBL_ENS_B, .TBL_ENS_C, .LOM_COLL_CTL, .CUE_ENG_STAT, .CUE_ENG_TRAP,
   .CUE_SAMPLE_CTL, .CUE_LDR_CMD, .CUE_LDR_SRC, .CUE_LDR_STAT, .MEM_CTL, .MEM_LEDGER,
   .WNG_LANE_CTL, .WNG_LANE_STAT, .WNG_LASER, .WNG_LASER_CMD, .WNG_CTL, .WNG_XTALK,
   .WNG_HEAT_STAT, .WNG_TRAP_MAP, .WNG_TRAP_CTL, .PRT_LINK_CTL, .PRT_LINK_STAT, .GLB_LINK_CTL,
   .PRT_SEAT, .PRT_PEER, .TMU_FRC, .TMU_RATE, .TMU_OFFSET, .TMU_OFFSET_FINE,
   .TMU_NOW, .TMU_NOW_FRAC, .TMU_CTL, .TMU_STAT, .PRT_LAUNCH_CTL, .PRT_LAUNCH,
   .PRT_FENCE, .GLB_FM, .GLB_FM_KEY, .GLB_FM_LOCK, .GLB_EXPEL, .GLB_PROD,
   .GLB_REPAIR, .GLB_RHS, .PWR_STAT, .PWR_CAP_MIN, .PWR_CAP_INST, .PWR_GOV,
   .PWR_LOG_A, .PWR_LOG_B, .PWR_THERM, .SEC_MEAS, .SEC_EXT_DIGEST, .SEC_EXT_CTL,
   .SEC_STATE, .SEC_DBG_CTL, .SEC_DBG_NONCE, .SEC_DBG_RESP, .GLB_HOUSE_ACL, .GLB_HOUSE_LOCK,
   .PRT_BCAST_SEL, .PRT_BCAST_MASK, .GLB_SUB, .GLB_NLOG_A, .GLB_NLOG_B, .GLB_NLOG_C,
   .GLB_NLOG_STAT, .GLB_START, .CNT_VAL, .CNT_CHAIN, .CNT_FILT_A, .CNT_FILT_B,
   .CNT_FILT_C, .CNT_FILT_D, .CNT_FREEZE, .CNT_DMA_CTL, .CNT_SNAP_WP, .CNT_SNAP_RP,
   .CNT_SMP_WP, .CNT_SMP_RP]

/-- The flat index of an offset into a family's dimensions, if the offset hits a register exactly. -/
def dimsIndex : List (Nat × Nat × Nat) → Nat → Nat → Option Nat
  | [], off, acc => if off = 0 then some acc else none
  | (st, lo, c) :: ds, off, acc =>
    if lo ≤ off / st ∧ off / st < lo + c then dimsIndex ds (off % st) (acc * c + off / st) else none

/-- The byte offset of a flat index. -/
def dimsOffset : List (Nat × Nat × Nat) → Nat → Nat
  | [], _ => 0
  | (st, _, _) :: ds, i =>
    let inner := ds.foldl (fun p d => p * d.2.2) 1
    st * (i / inner) + dimsOffset ds (i % inner)

/-- The byte address of register `i` of a family. -/
def RF.addr (r : RF) (i : Nat) : Nat := r.base + dimsOffset r.dims i

/-- Whether address `a` is a register of family `r`, and which one. -/
def RF.hit (r : RF) (a : Nat) : Option Nat := if r.base ≤ a then dimsIndex r.dims (a - r.base) 0 else none

/-- The register at a byte address (R8: an address no register lies at is unmapped). -/
def regAt (a : Nat) : Option (RF × Nat) :=
  RF.all.findSome? (fun r => (r.hit a).map (fun i => (r, i)))

/-- The storage key of register `i` of a family. -/
def RF.key (r : RF) (i : Nat) : Nat := i * 128 + r.num
/-- The family's number and the register's index that a storage key names. -/
def keyNum (k : Nat) : Nat := k % 128
def keyIdx (k : Nat) : Nat := k / 128

/-- The reset word that the field table gives a family. -/
def RF.tableReset (r : RF) : Word :=
  r.fields.foldl (fun w f => setBits w f.hi f.lo f.rst) 0

end Sys2Proof.Machine
end

