-- ==== Sys2Proof/Machine/State.lean ====
section
/-! DEFINITION. The state of the block as plain data: the queue of waiting commands, Bolt memory, and the device. -/

namespace Sys2Proof.Machine

/-- Where a packet held in the Wardrobe stands. -/
inductive Place where
  /-- At ingress: routed, its head waits for credit, an origin way or source space (R71, R73, R104). -/
  | ingress
  /-- In egress queue `q` of a lane; 64 + v is the detour sideline of VL v (R114, R119). -/
  | queue (lane q : Nat)
  /-- In a resequencing window of a lane's egress queue, or of Bolt memory (lane 1025) (R109). -/
  | held (lane q : Nat)
  /-- At the head of its egress queue, waiting for a context, ledger room or the end of a hold (R109, R218, R219). -/
  | rsqWait (lane q : Nat)
  /-- At a local function of the device, FN `fn` (R45). -/
  | atFn (fn : Nat)
  /-- A VL2 response at the endpoint-facing ingress of a lane, before the terminal's accounting (R218). -/
  | respIn (lane : Nat)
  /-- A SWATCH_XFER that passed the swatch check at its owner's ingress lane (R220). -/
  | xferIn (lane : Nat)
  /-- Its egress lane has failed: what still arrives of it is read and dropped (R349). -/
  | drain
  deriving DecidableEq, Repr

/-- A route resolved as a head arrives (R62): a function of this device, or a spray set with the detour turn allowed or
not. -/
inductive Route where
  | here
  | set (s : Nat) (detOk : Bool)
  deriving DecidableEq, Repr

/-- A packet held in the Wardrobe, or at a function of the device. -/
structure Pkt where
  /-- The model's own name of the packet. -/
  id : Nat
  /-- The 128-bit header (R40). -/
  hdr : BitVec 128
  /-- The route word (R42). -/
  rw : BitVec 32
  /-- The VL in the FCW (R37). -/
  vl : Nat
  /-- The VL on which it arrived. -/
  vlIn : Nat := 0
  /-- Head payload bytes after the route word (R37). -/
  pay : BitVec 320
  /-- Body and tail payloads that have arrived, in order (R37). -/
  body : List (BitVec 480) := []
  /-- Lane of arrival, or 1024 + internal source (R101). -/
  inl : Nat
  /-- The last flit has arrived. -/
  whole : Bool := true
  /-- The packet is known to be stomped or cut short (R39). -/
  bad : Bool := false
  place : Place := .ingress
  /-- Its route, once resolved (R62). -/
  route : Option Route := none
  /-- It waits for a way of the origin table, and the wait is counted (R73). -/
  stalled : Bool := false
  /-- Order stamp within its queue. -/
  stamp : Nat := 0
  /-- Flits already sent on the egress lane. -/
  sent : Nat := 0
  /-- The buffer it occupies; 0 for none yet. -/
  buf : Nat := 0
  /-- Its number in its resequencing context, once it has one (R109, R218). -/
  rsqNo : Nat := 0
  numbered : Bool := false
  /-- It has been counted in RSQ_OVERRUN (R111). -/
  overrun : Bool := false
  /-- FRC units at the arrival of its head (R273). -/
  frcIn : Nat := 0
  /-- It was made by this device as an answer or report: no generation check at egress. -/
  own : Bool := false
  /-- Released from a held VL7 queue without an entry, after HOLD_MAX (R275). -/
  free : Bool := false
  /-- FRC units when its head left, and its PTP message has been corrected (R273, R274). -/
  frcOut : Nat := 0
  ptpDone : Bool := false
  /-- ADDR of a request as its end point sent it, where this device knows it (R343). -/
  fa : Option Nat := none
  deriving DecidableEq, Repr

/-- Which pool a buffer's cells are charged to (R101, R102). -/
inductive Pool where
  | reserve | detour | shared | coll
  /-- A packet of the collective pool that waits for cells of its production's reservation there (R102, R115). -/
  | collDue
  /-- Shared cells that no lane-VL account holds: border queues, and packets of a lane that went down. -/
  | common
  deriving DecidableEq, Repr

/-- One buffer of Wardrobe cells; a flooded frame's copies share one (R99). -/
structure Buf where
  /-- Lane-VL key 8 × lane + VL, lanes from 1,024 on standing for internal sources. -/
  lv : Nat
  pool : Pool
  cells : Nat
  /-- The production whose WRD_PROD.USED counts the cells, if any (R104); in the collective pool the one whose reservation
  they fill, which USED does not count (R102). -/
  prod : Option Nat
  /-- Charged over quota (R104). -/
  overQ : Bool
  refs : Nat
  deriving DecidableEq, Repr

/-- Credit and space of one lane and VL, or of one internal source and VL (R100 to R104). -/
structure LaneVl where
  /-- Totals received from the peer, modulo 2^24 (R254). -/
  nTot : Nat := 0
  dTot : Nat := 0
  /-- Flits charged toward the peer, modulo 2^24. -/
  nChg : Nat := 0
  dChg : Nat := 0
  /-- Totals granted to the peer, modulo 2^24. -/
  nGrant : Nat := 0
  dGrant : Nat := 0
  /-- Flits the peer has charged, modulo 2^24. -/
  nRx : Nat := 0
  dRx : Nat := 0
  /-- Cells set aside and in use. -/
  resCap : Nat := 0
  detCap : Nat := 0
  resUsed : Nat := 0
  detUsed : Nat := 0
  /-- Reserve and detour cells that have freed and whose credit has not gone back yet. -/
  resOwed : Nat := 0
  detOwed : Nat := 0
  /-- Shared cells held, and promised as credit. -/
  shHeld : Nat := 0
  shProm : Int := 0
  /-- Cells charged over quota (R104 step 1). -/
  overQ : Nat := 0
  deriving DecidableEq, Repr

/-- What a lane does once its open packets have finished (R250). -/
inductive Exit where
  | recall | retype | seatFail (toState : Nat)
  deriving DecidableEq, Repr

/-- A received link-local message: HEARTBEAT or ROLL_CALL, with its head payload (R56). -/
structure LinkMsg where
  hb : Bool
  pay : BitVec 352
  deriving DecidableEq, Repr

/-- What a programmable counter judges an event by (R343). -/
structure EvCtx where
  src : BitVec 32 := 0
  prod : Nat := 0
  inl : Nat := 0
  vl : Nat := 0
  tc : Nat := 0
  opc : Nat := 0
  /-- The FA of a request as the end point sent it. -/
  fa : Option Nat := none
  deriving DecidableEq, Repr

/-- Link state of one lane beyond its registers (R253 to R265). -/
structure Lane where
  rxNext : Nat := 0
  replayReq : Bool := false
  txNext : Nat := 0
  /-- Last RSEQ the peer has acknowledged; 2,047 before any. -/
  acked : Nat := 2047
  /-- Numbered flits sent and not yet acknowledged, oldest first (R255). -/
  replay : List (Nat × Flit) := []
  /-- Flits to send again, in order. -/
  resend : List Flit := []
  /-- RSEQ last replayed and how often in a row. -/
  runSeq : Nat := 2048
  run : Nat := 0
  /-- Numbered flits sent since the last idle flit (R253). -/
  sinceIdle : Nat := 0
  peerServing : Bool := false
  /-- Packets open on receipt: VL0–VL6 and VL7 (R38). -/
  rxLow : Option Nat := none
  rxHigh : Option Nat := none
  /-- The open packet on VL0–VL6, or on VL7, is being discarded up to its tail. -/
  dropLow : Bool := false
  dropHigh : Bool := false
  /-- What the flits of the packet whose head came last on VL0–VL6, and on VL7, are judged by (R343). -/
  lowCtx : EvCtx := {}
  highCtx : EvCtx := {}
  /-- Packets open on transmission. -/
  txLow : Option Nat := none
  txHigh : Option Nat := none
  /-- Link-local messages received and not yet taken. -/
  linkRx : List LinkMsg := []
  /-- A good ROLL_CALL has been received in this roll call. -/
  peerSeen : Bool := false
  /-- Last CA received from the peer. -/
  lastCa : BitVec 32 := 0
  rollDue : Bool := false
  hbDue : Bool := false
  hbCount : Nat := 0
  exiting : Option Exit := none
  /-- The 100 ms of R260 run, and NEIGHBOUR_MISSING has been raised in them. -/
  absentRun : Bool := false
  skewRaised : Bool := false
  /-- elapsed units when roll call was entered, and at the last numbered flit sent in it (RTT). -/
  rttFrom : Option Nat := none
  rttSeq : Nat := 0
  /-- The next numbered flit starts the measurement of RTT. -/
  rttArm : Bool := false
  muted : Bool := false
  /-- Elapsed units at the last HEARTBEAT that counted (R264). -/
  hbAt : Option Nat := none
  /-- The FEC mode in use, latched as training began: FEC-S (R231). -/
  fecS : Bool := false
  /-- The peer has reported a FAR_MARGIN, and this receiver has a margin estimate (R232, R253). -/
  farValid : Bool := false
  nearValid : Bool := false
  /-- The lane's type before a change that waits for its open packets (R250). -/
  wasType : Option Nat := none
  /-- It left UP under R265, and its neighbour has not been judged since (R278). -/
  fell : Bool := false
  /-- A lift waits for the lane to reach UP (R282). -/
  liftDue : Bool := false
  /-- elapsed units at the last HEARTBEAT with DRAINING (R304). -/
  drainAt : Option Nat := none
  /-- PFC state of a border lane: priorities paused by the partner, with the time each pause ends (R94). -/
  paused : NMap Nat := []
  /-- XOFF sent for these priorities (R98). -/
  xoff : BitVec 8 := 0
  deriving DecidableEq, Repr

/-- A token bucket: level in 2^-16 flit, the elapsed units at its last fill, and its wheel entry (R122, R123). -/
structure Bucket where
  lvl : Int := 0
  at_ : Nat := 0
  /-- FRC units of its expiry while it stands on the wheel. -/
  wheel : Option Nat := none
  /-- In the overflow wheel rather than the fine wheel. -/
  far : Bool := false
  /-- Elapsed units when it last rose above 0. -/
  rose : Nat := 0
  /-- Set once the bucket exists. -/
  live : Bool := false
  deriving DecidableEq, Repr

/-- A running order in force (R128 to R130). -/
structure RunOrder where
  entries : List (Nat × Nat)
  base : Nat
  deriving DecidableEq, Repr

/-- Scheduler state of one port (R119 to R130, R275). -/
structure Port where
  dg : NMap Nat := []
  dq : NMap Nat := []
  /-- VL group that holds the turn, and whether it does. -/
  gTurn : Option Nat := none
  gPtr : Nat := 1
  /-- Per group: queue that holds the turn, and the rotation's place. -/
  qTurn : NMap Nat := []
  qPtr : NMap Nat := []
  maxB : NMap Bucket := []
  minB : NMap Bucket := []
  collB : Bucket := {}
  order : Option RunOrder := none
  /-- Suspended; and the cycle that time stood in when it was synchronised again: the order resumes with a later one (R130). -/
  suspended : Bool := false
  resumeFrom : Option Int := none
  /-- Release counts of held VL7 queues, by TC (R275). -/
  release : NMap Nat := []
  /-- PRT_LAUNCH entries written past or passed by a forward step: they fire late (R275). -/
  late : List Nat := []
  /-- The list pending at BASE (R130). -/
  pendingOrder : Option RunOrder := none
  /-- GRANTED of the running order, in 0.1 Gb/s (R134). -/
  grVl7 : Nat := 0
  /-- Collective reservations by production, and what is granted of each, in 0.1 Gb/s (R134). -/
  coll : NMap Nat := []
  collGr : NMap Nat := []
  deriving DecidableEq, Repr

/-- A resequencing context (R109, R218). -/
structure Ctx where
  src : BitVec 32
  dst : BitVec 32
  /-- 1, 2 or 5 (VL6 is keyed as VL5). -/
  vl : Nat
  /-- PSN_VALID of its packets. -/
  pv : Bool
  /-- Egress lane, or 1025 for Bolt memory. -/
  lane : Nat
  next : Nat
  learning : Bool
  gapOn : Bool
  /-- Next number given to a packet without PSN. -/
  arr : Nat
  /-- The request held at NEXT (R218), and whether it waits for room in the ledger. -/
  hold : Option Nat
  full : Bool := false
  deriving DecidableEq, Repr

/-- OUT and ERR of one memory flow (R218). -/
structure Flow where
  src : BitVec 32
  dst : BitVec 32
  outW : Nat := 0
  outA : Nat := 0
  errW : Nat := 0
  errA : Nat := 0
  deriving DecidableEq, Repr

/-- A memory ledger entry (R218). -/
structure Led where
  src : BitVec 32
  dst : BitVec 32
  tag : Nat
  writing : Bool
  prod : Nat
  gen : Nat
  tc : Nat
  addr : Nat
  /-- What a programmable counter judges the request by (R343). -/
  ctx : EvCtx := {}
  deriving DecidableEq, Repr

/-- A swatch move in progress (R220). -/
structure Move where
  newOwner : BitVec 32
  newMode : Bool
  owner : BitVec 32
  tag : Nat
  tc : Nat
  gen : Nat
  addr : Nat
  deriving DecidableEq, Repr

/-- A target marked dead for a production, with the timeline step reached (R226). -/
structure Dead where
  ca : Nat
  prod : Nat
  /-- 0 declared, 1 refusing, 2 ledger completed, 3 TEARDOWN sent. -/
  phase : Nat
  poisoned : Nat
  deriving DecidableEq, Repr

/-- A PSN origin context (R73). -/
structure Origin where
  src : BitVec 32
  dst : BitVec 32
  vl : Nat
  row : Nat
  psn : Nat
  /-- ORIGIN_IDLE has run out: the way may be taken. -/
  idle : Bool
  deriving DecidableEq, Repr

/-- Packets, buffers, lanes and ports. -/
structure Net where
  pkts : List Pkt := []
  /-- Packets the device has made and not yet routed. -/
  outbox : List Pkt := []
  bufs : NMap Buf := []
  nextId : Nat := 1
  nextStamp : Nat := 0
  lanes : NMap Lane := []
  lvs : NMap LaneVl := []
  ports : NMap Port := []
  ctxs : List Ctx := []
  flows : List Flow := []
  ledger : List Led := []
  origins : List Origin := []
  deads : List Dead := []
  /-- Policer buckets by index: Tc, Tp in bytes × 2^16 and the elapsed units at the last fill. -/
  pol : NMap (Nat × Nat × Nat) := []
  /-- Rotating pointer of each spray set (R71). -/
  sprayPtr : NMap Nat := []
  /-- TBL_DOWN indices whose set has gone from an eligible member to none since they and it were written (R77). -/
  downLost : List Nat := []
  /-- End points whose lane has failed, by CA[31:8], not yet declared dead (R226). -/
  endsDown : List Nat := []
  /-- Wardrobe cells withdrawn for good, and the idle cells of each macro that drains (R295). -/
  lostCells : Nat := 0
  draining : NMap Nat := []
  deriving DecidableEq, Repr

/-- A hardware write to the tables that is held back while a command runs (R82). -/
inductive HwWrite where
  /-- A source address learned, moved or met again on a port (R96). -/
  | learn (lane vid sa : Nat)
  | age
  /-- The learned entries of a port that went down (R96). -/
  | flush (port : Nat)
  /-- A provisional exception for a TBL_DOWN index, and the end of one (R77, R78). -/
  | install (n : Nat)
  | remove (slot : Nat)
  /-- A bad entry, by its storage key (R90). -/
  | scrub (key : Nat)
  deriving DecidableEq, Repr

/-- The six tables of TBL_CMD and their command engine (R79 to R92). -/
structure Tabs where
  /-- Entry words DATA0–DATA7, keyed 2^20 × table + index; a listed entry is VALID. -/
  ent : NMap (BitVec 512) := []
  /-- Staged rows 2s of the SPRAY table (R68). -/
  staged : NMap (BitVec 512) := []
  /-- The running command: the TBL_CMD word (R80). -/
  cmd : Option Word := none
  /-- Live entries with a parity error; tables 6 and 7 stand for TBL_DOWN and TBL_UP (R89). -/
  parity : List Nat := []
  /-- Hardware writes held back, oldest first, and border ports that went down and keep their learned entries still. -/
  waiting : List HwWrite := []
  flush : List Nat := []
  moves : NMap Move := []
  /-- Membership index of each swatch entry: CA[31:8] of its writers and readers (R207). -/
  members : NMap (List Nat × List Nat) := []
  /-- Provisional slots in use: the TBL_DOWN index and the set it named when the exception was installed (R77, R78). -/
  prov : NMap (Nat × Nat) := []
  deriving DecidableEq, Repr

/-- What leaves the device, in order. -/
inductive Out where
  /-- A flit on a lane. -/
  | flit (lane : Nat) (f : Flit)
  /-- A frame on a border port, with its FCS (R51). -/
  | frame (port : Nat) (bytes : List Byte)
  /-- A PFC frame on a border port: priority and XOFF (true) or XON. -/
  | pfc (port pri : Nat) (xoff : Bool)
  /-- A KLink or SPDM response on a house port: destination MAC, tag, frame bytes. -/
  | klink (port : Nat) (mac : Nat) (tag : Option (BitVec 32)) (bytes : List Byte)
  /-- Completion of a register access: status and read data (R8). -/
  | reg (status : Nat) (data : Word)
  deriving DecidableEq, Repr

/-- A notice waiting to be sent to the subscribers: log SEQ, notice bits, and the source CA of a relayed one. -/
structure Relay where
  seq : Nat
  bits : BitVec 128
  remote : Option (BitVec 32)
  /-- The subscriptions that were VALID for it as it was raised (R333). -/
  subs : List Nat
  deriving DecidableEq, Repr

/-- Network time beyond its registers (R266 to R271). -/
structure Tmu where
  /-- FRC in 2^-16 ns, modulo 2^64. -/
  frc : Nat := 0
  /-- Units of 2^-16 ns elapsed since the Stage left reset, never wrapping: what intervals are judged by (R277). -/
  total : Nat := 0
  /-- Tick number, for the five-tick pattern of R266. -/
  tick : Nat := 0
  /-- T at the last RATE write or step, in 2^-48 ns, modulo 2^112, and FRC then. -/
  base : Nat := 0
  baseFrc : Nat := 0
  /-- Fraction latched by the last read of TMU_NOW. -/
  latch : Nat := 0
  /-- The reference is present. -/
  refOk : Bool := true
  /-- The servo (R270): T in PTP format at the ingress of the last Sync it used and at the egress of its last Delay_Req,
  consecutive Sync intervals within ±5 ns, and the sequence number of its next Delay_Req. -/
  syncIn : Option (Nat × Nat × Nat) := none
  reqOut : Option (Nat × Nat × Nat) := none
  good : Nat := 0
  reqSeq : Nat := 0
  /-- sourcePortIdentity with sequenceId, and correctionField, of a two-step Sync that waits for its Follow_Up. -/
  syncWait : Option (Nat × Nat) := none
  /-- receiveTimestamp and correctionField of the Delay_Resp that last answered a Delay_Req of the servo. -/
  delayResp : Option (Nat × Nat) := none
  deriving DecidableEq, Repr

/-- One repair, of the fused repair map or of the runtime repair overlay (R296). -/
structure Repair where
  /-- 0 SRAM row, 1 Wardrobe macro, 2 seam lane, 3 Cue engine, 4 laser: the rows of R295 in order. -/
  kind : Nat
  site : Nat
  unit : Nat
  spare : Nat
  time : Nat
  deriving DecidableEq, Repr

/-- What the fuses, the fuse counters and the package straps hold: nothing resets them (R18, R19, R310, R316, R320). -/
structure Fuse where
  /-- GLB_ID.PART, STEPPING and SERIAL. -/
  part : Nat := 0x1024
  stepping : Nat := 1
  serial : Nat := 0
  /-- SITE_ID and check strap of each site, 0 to 24. -/
  straps : List (Nat × Nat) := (List.range 25).map (fun s => (s, if s = 0 then 3 else if s ≤ 16 then 1 else if s ≤ 20 then 2 else 3))
  /-- SHA-384 of each owner key, and the slots programmed and not revoked. -/
  owners : List (BitVec 384) := [0, 0, 0, 0]
  ownerValid : Nat := 0
  /-- Fused SVN floor, SVN counter, and lockout count. -/
  svnFloor : Nat := 0
  svnCount : Nat := 0
  lockouts : Nat := 0
  /-- Stage supply of step 2 in mV, and the guard-band that ageing has added to every step over life (R305). -/
  stepTwo : Nat := 730
  guard : Nat := 0
  /-- The device secret (R310). -/
  secret : BitVec 256 := 0
  /-- SHA-384 of the Kapilor firmware key. -/
  fwKey : BitVec 384 := 0
  /-- The fused repair map, by its digest and by its repairs: none is fused in (DESIGN CHOICE, log entry 10: no row switches in
  a seam understudy, a spare row, macro or engine, or an understudy laser). -/
  map : BitVec 384 := 0
  repairs : List Repair := []
  deriving DecidableEq, Repr

/-- The power state of R324. -/
inductive PowerState where
  /-- No VSTBY. -/
  | off
  /-- VSTBY; nPOR or PWR_OK low. -/
  | standby
  /-- The start-up table runs. -/
  | starting
  | running
  /-- R22 or a thermal trip. -/
  | shutdown
  deriving DecidableEq, Repr

/-- A production whose purge runs (R288). -/
structure StrikeJob where
  prod : Nat
  gen : Nat
  /-- elapsed units at the STRIKE that began it, and cells purged. -/
  at_ : Nat
  cells : Nat
  /-- Senders to answer, with the TC of their STRIKEs. -/
  senders : List (BitVec 32 × Nat)
  deriving DecidableEq, Repr

/-- A LAUNCH whose replies are awaited (R293). -/
structure LaunchJob where
  prod : Nat
  gen : Nat
  parent : BitVec 32
  tc : Nat
  tag : Nat
  /-- BUDGET as received, and elapsed units at receipt. -/
  budget : Nat
  at_ : Nat
  /-- Children awaited: CA and SUBTREE. -/
  kids : List (Nat × Nat)
  /-- Missing entries gathered. -/
  missing : List (Nat × Nat)
  deriving DecidableEq, Repr

/-- The gathering of expulsion votes (R285): its pair and the elapsed units at its first counted vote. -/
structure Gather where
  target : Nat
  seq : Nat
  at_ : Nat
  deriving DecidableEq, Repr

/-- The HMAC_DRBG of NIST SP 800-90A with SHA-384: Key, V and the reseed counter (R310). -/
structure Drbg where
  key : BitVec 384 := 0
  v : BitVec 384 := 0
  count : Nat := 0
  deriving DecidableEq, Repr

/-- The security module beyond its registers and fuses (R310 to R323). -/
structure Sec where
  /-- The DRBG and the key store: the identity key, and the key derived at boot from SEC_MEAS1 (R310, R312). -/
  drbg : Drbg := {}
  identityKey : Option (BitVec 384) := none
  bootKey : Option (BitVec 384) := none
  nonce : Option (BitVec 256) := none
  lockedOut : Bool := false
  /-- Owner slot and level of the opening, its MINUTES, and FRC units when it opened (R322). -/
  openBy : Nat := 0
  minutes : Nat := 0
  openAt : Nat := 0
  /-- House port of the last SUBMIT that was taken, and elapsed units then (R325). -/
  submitted : Option (Nat × Nat) := none
  /-- The Charex library has been loaded (R315). -/
  library : Bool := false
  /-- Verified Wing firmware and Loom microcode are loaded (R315). -/
  wingFw : Bool := false
  loomFw : Bool := false
  deriving DecidableEq, Repr

/-- The power measurement and the governor beyond their registers (R299 to R307). -/
structure Pwr where
  /-- Energy of each of the last 60,000 ms in mJ, newest first. -/
  hist : List Nat := []
  /-- The running minute: energy in mJ, peak, and its flags OVER, INST_OVER, UNMET and INCOMPLETE. -/
  energy : Nat := 0
  peak : Nat := 0
  over_ : Bool := false
  inst : Bool := false
  unmet : Bool := false
  incomplete : Bool := false
  /-- SEQ of the next entry, and END of the last one. -/
  seq : Nat := 0
  /-- Thermal target (R308), and the governor's target: none for no limit (R301). -/
  thermal : Option Nat := none
  target : Option Nat := none
  /-- Caps per minute that a write has lowered, with elapsed units of the write (R301). -/
  oldCaps : List (Nat × Nat) := []
  /-- ms that POWER has stood above PWR_CAP_INST, and at or below 97 % of TARGET. -/
  overMs : Nat := 0
  calm : Nat := 0
  /-- Lanes chosen for parking, oldest first (R304). -/
  parked : List Nat := []
  /-- The delay factor that each Loom's replica paths read, in 1/1,024 (R306). -/
  loomFactor : NMap Nat := []
  /-- Dies warned at 100 °C, by site (R308). -/
  warned : List Nat := []
  deriving DecidableEq, Repr

/-- A seam link on its Stage side (R28 to R31). -/
structure Seam where
  /-- Next SEQ expected, and next SEQ to send. -/
  rxNext : Nat := 0
  txNext : Nat := 0
  /-- Data flits sent and not acknowledged, oldest first: SEQ, channel and payload. -/
  replay : List (Nat × Nat × BitVec 1024) := []
  /-- Fabric flits that wait for their channel, oldest first. -/
  queue : List (Nat × Flit) := []
  /-- By channel, modulo 4,096: totals granted by the die, used toward it, and released to it (R29). -/
  credit : NMap Nat := []
  used_ : NMap Nat := []
  rel : NMap Nat := []
  /-- Channel whose total the next flit carries, and channel served last. -/
  crCh : Nat := 0
  turn : Nat := 0
  /-- A replay has been asked for and has not come; the SEQ asked for last, and how often in a row. -/
  waiting : Bool := false
  askSeq : Nat := 4096
  asked : Nat := 0
  /-- SEQ last replayed and how often in a row. -/
  runSeq : Nat := 4096
  run : Nat := 0
  /-- Elapsed units at each CRC failure of the last 100 µs, newest first, 65 at most; the same of the replay requests
  received. -/
  bad : List Nat := []
  farBad : List Nat := []
  /-- Understudies in use that the full overlay could not record, by bundle; bundles out of the stripe. -/
  used : List Nat := []
  out : List Nat := []
  /-- The die has been reset once for want of bundles (R32). -/
  retried : Bool := false
  deriving DecidableEq, Repr

/-- A rehearsal register's injection in hand (R297, R298): 1 announced, 2 in effect. -/
structure Inject where
  phase : Nat
  /-- The word of the register when it was announced. -/
  word : BitVec 64
  /-- The engine that an ENGINE_TRAP stopped. -/
  unit : Nat := 0
  deriving DecidableEq, Repr

/-- A cached KLink response (R328). -/
structure KCache where
  port : Nat
  mac : Nat
  seq : Nat
  resp : List Byte
  deriving DecidableEq, Repr

/-- A laser swap in progress (R237, R238). -/
structure Swap where
  group : Nat
  /-- The understudy brought in, and the working laser it replaces. -/
  under : Nat
  old : Nat
  /-- Crossfade: the lanes stay LIT. -/
  fade : Bool
  /-- Row reached: 0 draining or warming, 1 drained, 2 at wavelength, 3 switched and retraining. -/
  row : Nat
  /-- Started by WNG_LASER_CMD. -/
  byCmd : Bool
  /-- The drain was not done in time (R237). -/
  fallback : Bool
  /-- The group's lanes that had trained when the swap began, or when its working laser failed (R239). -/
  lanes : List Nat := []
  deriving DecidableEq, Repr

/-- A Wing beyond its registers (R234 to R248). -/
structure Wing where
  /-- The last committed trapdoor map, WNG_TRAP_MAP0 then 1; the Stage keeps it (R246). -/
  trap : BitVec 128 := 0
  /-- Trapdoor inputs whose circuit is reported dark (R248), and the path of each circuit through the network, by output: a
  free value (R245). -/
  dark : List Nat := []
  path : NMap Nat := []
  swaps : List Swap := []
  /-- The crosstalk matrix in use, by WNG_XTALK index within the Wing (R243). -/
  xt : NMap Word := []
  /-- Heaters out of range (R244). -/
  clamped : List Nat := []
  /-- Consecutive reports of a MARGIN below 1.0 dB, by group, and lanes reported low alone (R236). -/
  low : NMap Nat := []
  lowLanes : List Nat := []
  /-- Bias of each laser in 0.05 % of its maximum (R235), and the lasers that have come to a new one, not judged yet (R236). -/
  bias : NMap Nat := []
  settled : List Nat := []
  /-- Feed-forward telemetry is missing and reported; the last prediction that it gave, which the correction stands on; and
  what the locking loops demand: free values (R242, R243). -/
  ffLost : Bool := false
  ff : Option Nat := none
  loops : Nat := 0
  /-- Codewords with symbols in error that the Wing's receivers have decoded and not counted yet: lane and how many. No
  command makes one (R231, R339). -/
  codewords : List (Nat × Nat) := []
  deriving DecidableEq, Repr

/-- A channel of a Cue image's channel table (R195). -/
structure Chan where
  /-- 0 DOWN-IN, 1 DOWN-OUT, 2 UP-OUT, 3 UP-IN (R184). -/
  dir : Nat
  vl : Nat
  ens : Bool
  group : Nat
  /-- W − 1. -/
  wm1 : Nat
  accBase : Nat
  slot : Nat
  tileMax : Nat
  linkRate : Nat
  member : Nat
  deriving DecidableEq, Repr

/-- A resident Cue image (R194, R197). -/
structure Image where
  set : Nat
  prod : Nat
  gen : Nat
  /-- The whole image. -/
  bytes : List Byte
  /-- SHA-384 recorded at LOAD (R205). -/
  sha : BitVec 384
  /-- Its Bolt region as translated at admission: offset, length, local address (R199). -/
  bolt : List (Nat × Nat × Nat) := []
  /-- Port rate reserved by lane, in 0.1 Gb/s (R199). -/
  rates : List (Nat × Nat) := []
  /-- Which of its production's tile SRAM parts its allocation starts (R175, R199). -/
  bank : Nat := 0
  /-- Its engines run it, or have run it since its set was made active (R202). -/
  started : Bool := false
  /-- It stands STOPPED for want of engines, its reduction rate granted 0 (R203, R204). -/
  lack : Bool := false
  /-- Its Loom has been reset, and its staging copy has not been checked yet (R205). -/
  stale : Bool := false
  /-- Where its copy begins in its Loom's part of the staging region (R197). -/
  copyAt : Nat := 0
  deriving DecidableEq, Repr

/-- An accumulator area in tile SRAM: a slot of a binding, or an area of REDUCE.TILE (R184, R186). -/
structure Area where
  word : BitVec 32
  opseq : Nat
  tile : Nat
  /-- TILE_LEN in 64-byte units. -/
  len : Nat
  /-- Inputs in order of arrival: member, chunk, bytes. -/
  ins : List (Nat × Nat × List Byte) := []
  poison : Bool := false
  /-- elapsed units when it opened, and COLL_STALL raised for it (R152). -/
  openAt : Nat := 0
  stalled : Bool := false
  /-- Bytes of storage after its header (R184). -/
  size : Nat := 0
  /-- A program has written over it: what a read-out gives is not stated. -/
  over_ : Bool := false
  deriving DecidableEq, Repr

/-- Rows of one (source, destination) pair of an all-to-all: row, and the segments received of it (R149, R150). -/
structure A2aRow where
  src : Nat
  dst : Nat
  row : Nat
  segs : List Nat
  deriving DecidableEq, Repr

/-- The state of a binding of (PROD, group) on a Loom (R141, R200). -/
structure Bind where
  prod : Nat
  ens : Bool
  group : Nat
  cur : Nat := 0
  /-- Descriptor of op CUR and its coefficient block, once opened. -/
  desc : Option (BitVec 512) := none
  coef : List Byte := []
  /-- Open tiles, and results arriving from above. -/
  tiles : List Area := []
  up : List Area := []
  /-- Tiles of op CUR that have closed. -/
  closed : List Nat := []
  /-- ARRIVE received: member and ROWS_SENT. -/
  arrived : List (Nat × Nat) := []
  rows : List A2aRow := []
  /-- EXCHANGE has finished on op CUR: its last packets have been sent. -/
  exchDone : Bool := false
  /-- RELEASE of KIND 0 has arrived from above. -/
  upRelease : Bool := false
  /-- Engine positions that have issued RETIRE, and the descriptor it gave. -/
  retired : List Nat := []
  next : Option (BitVec 512 × List Byte) := none
  /-- Member indices taken as dead (R152). -/
  dead : List Nat := []
  /-- Chunks sent up and not yet answered by a result: tile, chunk, TILE_LEN and bytes (R147). -/
  sent : List (Nat × Nat × Nat × List Byte) := []
  deriving DecidableEq, Repr

/-- A long accumulator: its arithmetic word, its lanes in EXACT SUM, and its values otherwise (R178). -/
structure LongAcc where
  word : BitVec 32
  lanes : NMap ALane := []
  vals : NMap Val := []
  deriving DecidableEq, Repr

/-- An issued stream operation: the instruction word, and its operands as read at issue (R186). -/
structure StreamOp where
  word : Nat
  a : Word := 0
  b : Word := 0
  b1 : Word := 0
  /-- CUR of the channel's binding at issue. -/
  seq : Nat := 0
  /-- The descriptor and coefficient block that OPEN or RETIRE read. -/
  desc : Option (BitVec 512 × List Byte) := none
  /-- It has had its effect and waits for these packets: of GIVE until they are in the Wardrobe, of EXCHANGE until they have
  left (R186). -/
  made : Option (List Nat) := none
  deriving DecidableEq, Repr

/-- A Cue engine (R175, R191). -/
structure Engine where
  /-- STATE of CUE_ENG_STAT. -/
  st : Nat := 0
  /-- Resident slot of its image, its production, and its position. -/
  image : Nat := 0
  prod : Nat := 0
  pos : Nat := 0
  pc : Nat := 0
  sreg : NMap Word := []
  vreg : NMap (BitVec 512) := []
  acc : NMap LongAcc := []
  preds : NMap Word := []
  flags : BitVec 256 := 0
  dmem : NMap Byte := []
  queue : List StreamOp := []
  /-- Instructions issued since the image started; where the last sampling period ran out, in instructions and in ns; and
  the instructions issued by then, until the sample is taken (R193). -/
  issued : Nat := 0
  sampleAt : Nat := 0
  sampleT : Nat := 0
  dueAt : Option Nat := none
  /-- elapsed units when F255 was set by the Prompter (R189). -/
  stopAt : Option Nat := none
  deriving DecidableEq, Repr

/-- A loader command that runs (R197, R202). -/
structure LdrJob where
  /-- The CUE_LDR_CMD word. -/
  cmd : Word
  /-- The outcome settled at once: STATUS, REASON and IMAGE; or a swap of sets. -/
  result : Option (Nat × Nat × Nat)
  /-- Incoming engines have been chosen, and their bindings accept (R202). -/
  incoming : Bool := false
  deriving DecidableEq, Repr

/-- A Loom (R139 to R205). -/
structure Loom where
  engines : NMap Engine := []
  images : NMap Image := []
  /-- Active set by production. -/
  active : NMap Nat := []
  /-- Productions whose bindings do not accept while sets change (R202). -/
  closed : List Nat := []
  binds : List Bind := []
  /-- Tile SRAM that differs from zero, by (production × 256 + bank) × 2^28 + tile address; areas by the same key. -/
  tile : NMap Byte := []
  areas : NMap Area := []
  /-- Tile SRAM ranges, start and length, whose bytes hold accumulations: the spec gives no layout for them. -/
  junk : List (Nat × Nat) := []
  ldr : Option LdrJob := none
  /-- Image slots whose engines wait for a restart: the faulty engine, and the one that took its place, if it has (R204). -/
  subst : NMap (Nat × Option Nat) := []
  /-- Reduction rate granted, in GB/s, of the productions that are granted less than they reserve (R134). -/
  grants : NMap Nat := []
  /-- Engines that debug has halted, with the steps each may still take (R319). -/
  halted : NMap Nat := []
  deriving DecidableEq, Repr

/-- The device: everything but the queue and Bolt memory. -/
structure Dev where
  /-- Register words that differ from their reset words, keyed by `RF.key`. -/
  regs : NMap Word := []
  net : Net := {}
  tab : Tabs := {}
  tmu : Tmu := {}
  wings : NMap Wing := []
  looms : NMap Loom := []
  /-- House ports whose link holds block lock (R335). -/
  houseUp : List Nat := []
  relay : List Relay := []
  /-- 64-byte units of Bolt memory, by local address ÷ 64, that read with an uncorrectable error: no command makes one, and
  a write of the whole unit ends it (R60, R214, R223). -/
  ecc : List Nat := []
  /-- 64-byte units that read with an error which the code corrects: no command makes one either (R339). -/
  eccSoft : List Nat := []
  /-- Memory stacks whose carve-out half is being rewritten from the mirror (R223). -/
  rebuilding : List Nat := []
  /-- Pending counts of frozen counters, by CNT_VAL index (R344). -/
  cntPend : NMap Nat := []
  /-- Power state, the levels of nPOR and PWR_OK, and a thermal trip that holds the device off (R21, R308, R324). -/
  power : PowerState := .standby
  porHigh : Bool := true
  pwrOk : Bool := false
  tripped : Bool := false
  /-- Sites whose minimum reset width has ended (R33), and sites whose seam link may not train again (R32). -/
  widthDone : List Nat := []
  seamDead : List Nat := []
  seams : NMap Seam := []
  /-- Flits that have left on the seam links, in order, with their sites. -/
  seamOut : List (Nat × BitVec 1120) := []
  /-- Payloads that have come over the seam links, in order: site, channel and 128 bytes (R28). -/
  seamIn : List (Nat × Nat × BitVec 1024) := []
  /-- Writes of GLB_RESET_CTL that wait for their completion to leave over a Wing they reset: the packet, its source, and the
  word (R33). -/
  resetDue : List (Nat × BitVec 32 × Word) := []
  /-- Retention SRAM: the repair overlay (R296), and each laser's elapsed units in RUNNING up to its last leaving it (R234). -/
  overlay : List Repair := []
  laserRan : NMap Nat := []
  /-- Elapsed units when a laser went RUNNING, by its WNG_LASER index (R234). -/
  laserFrom : NMap Nat := []
  /-- Median far-end received OMA recorded as a group was first commissioned, by 8 × Wing + group: a free value (R235). -/
  oma : NMap Nat := []
  /-- Spare rows used, by site × 2^20 + array; Wardrobe spares left (R295). -/
  rowSpares : NMap Nat := []
  wrdSpare : Nat := 8
  /-- Owner keys of productions, x then y (R196, R293). -/
  keys : NMap (BitVec 768) := []
  strikes : List StrikeJob := []
  launches : List LaunchJob := []
  gather : Option Gather := none
  rhs : NMap Inject := []
  /-- Lanes whose transmitter a rehearsal mutes are in their Lane; Wings whose group fades by rehearsal (R297). -/
  fades : List (Nat × Nat) := []
  sec : Sec := {}
  pwr : Pwr := {}
  kcache : List KCache := []
  /-- The snapshot in hand is periodic (R345). -/
  snapPeriodic : Bool := false
  /-- A cut has been fixed and not reached (R344). -/
  cutDue : Bool := false
  /-- T in ns at the cut, or 0 (R346), and the number of records written. -/
  cutT : Nat := 0
  snapSeq : Nat := 0
  /-- FRC units of the last cut (R344). -/
  cutFrc : Nat := 0
  /-- Prompter firmware runs (R315, R338); debug has halted it (R319). -/
  prompter : Bool := false
  prompterHalt : Bool := false
  /-- SPDM responses in progress, one per house port (R317). -/
  spdm : NMap Out := []
  /-- Words of debug space that a debug write has left there, by debug address (R319, R329). -/
  debugWords : NMap Word := []
  /-- Elapsed units at the last notice of each rate-limited kind and key. -/
  limits : NMap Nat := []
  out : List Out := []
  /-- The model's own counter that the free values are applied to. -/
  fresh : Nat := 0
  fuse : Fuse := {}
  deriving DecidableEq, Repr

/-- The state of the block. -/
structure State where
  /-- Commands waiting, first in, first out. -/
  pending : List Instr := []
  /-- Bolt memory: bytes that differ from zero, by local address (R35). -/
  mem : NMap (BitVec 8) := []
  d : Dev := {}
  deriving DecidableEq, Repr

/-- Why a step stops. -/
inductive Fault where
  /-- Raised by a command whose lane, port, Wing, Loom, site, stack or other unit number names nothing the spec gives
  the device. Safe: no such event can happen. -/
  | noSuchUnit
  deriving DecidableEq, Repr

/-- Why a command is refused. -/
inductive Refusal where
  /-- The command named has no meaning in the model. Safe. -/
  | notModelled (mnemonic : String)
  deriving DecidableEq, Repr

/-- The machine right after reset. -/
def State.reset : State := {}

end Sys2Proof.Machine
end

