-- ==== Sys2Proof/Machine/Ops.lean ====
section
/-! DEFINITION. The named operations over the state: registers, lanes, ports, time, and the wrappers that turn a device
update into the outcome of a command. -/

namespace Sys2Proof.Machine

/-- What a command answers. -/
abbrev Res := Host.Outcome State Fault Refusal

/-- Bolt memory: bytes that differ from 0, by local address. -/
abbrev Mem := NMap (BitVec 8)

/-- A command that changes the device alone. -/
def onDev (s : State) (f : Dev → Dev) : Res := .next { s with d := f s.d }

/-- A command that reads Bolt memory and changes the device alone. -/
def onDevM (s : State) (f : Mem → Dev → Dev) : Res := .next { s with d := f s.mem s.d }

/-- A command that changes the device and Bolt memory. -/
def onBoth (s : State) (f : Dev × Mem → Dev × Mem) : Res :=
  .next { s with d := (f (s.d, s.mem)).1, mem := (f (s.d, s.mem)).2 }

/-- A command about a unit: it stops by name where the spec gives the device no such unit. -/
def ifUnit (ok : Bool) (r : Res) : Res := if ok then r else .fault .noSuchUnit

/-- A change that an event makes only where the state allows the event. -/
def Dev.when (d : Dev) (c : Bool) (f : Dev → Dev) : Dev := if c then f d else d

/-- A change made where a value is present. -/
def Dev.whenSome {α : Type} (d : Dev) (o : Option α) (f : α → Dev → Dev) : Dev :=
  match o with
  | some a => f a d
  | none => d

/-- A change made once for each element of a list. -/
def Dev.each {α : Type} (d : Dev) (l : List α) (f : Dev → α → Dev) : Dev := l.foldl f d

/-! ## Bolt memory bytes -/

/-- One byte of Bolt memory; a byte nothing has written reads 0 (DESIGN CHOICE). -/
def memByte (m : Mem) (a : Nat) : BitVec 8 := m.get 0 a

/-- Writes one byte, in canonical form. -/
def memPut (m : Mem) (a : Nat) (b : BitVec 8) : Mem := m.putD 0 a b

/-- `n` bytes from an address. -/
def memRead (m : Mem) (a n : Nat) : List Byte := (List.range n).map (fun i => memByte m (a + i))

/-- Writes bytes from an address on. -/
def memWrite : Mem → Nat → List Byte → Mem
  | m, _, [] => m
  | m, a, b :: bs => memWrite (memPut m a b) (a + 1) bs

/-- A big-endian number of `n` bytes. -/
def memNat (m : Mem) (a n : Nat) : Nat := ofBytes (memRead m a n)

/-- The canonical form: keys strictly rising, no listed byte 0. -/
def Memory.wf (m : Mem) : Bool := m.sorted && m.all (fun c => c.2 ≠ 0)

/-! ## Registers -/

/-- Maximum of the power caps on each part (R1, R300). -/
def Dev.capMax (d : Dev) : Nat := if d.fuse.part = 0x0512 then 1050 else 1700

/-- Minimum of the power caps (R300). -/
def Dev.capMin (d : Dev) : Nat := if d.fuse.part = 0x0512 then 500 else 800

/-- The word a register holds at reset (R337): its table's reset values, with those that differ by part or instance. -/
def Dev.resetWord (d : Dev) (r : RF) (i : Nat) : Word :=
  match r with
  | .GLB_ID => BitVec.ofNat 64 (d.fuse.part * 2 ^ 48 + d.fuse.stepping % 256 * 2 ^ 40 + d.fuse.serial % 2 ^ 32 * 256)
  | .PWR_CAP_MIN => setBits (RF.tableReset .PWR_CAP_MIN) 15 0 d.capMax
  | .PWR_CAP_INST => setBits (RF.tableReset .PWR_CAP_INST) 15 0 d.capMax
  | .CNT_CHAIN =>
    if 16 ≤ i ∧ i < 1040 then 3 else if 1040 ≤ i ∧ i < 1056 then 1
    else if 1056 ≤ i ∧ i < 1060 then 3 else if 1060 ≤ i ∧ i < 1064 then 3 else 0
  | .WNG_LANE_STAT => if i % 65 = 64 ∧ i / 65 ≠ 0 ∧ i / 65 ≠ (if d.fuse.part = 0x0512 then 4 else 8) then 0 else RF.tableReset .WNG_LANE_STAT
  | r => r.tableReset

/-- The word a register holds. -/
def Dev.rd (d : Dev) (r : RF) (i : Nat) : Word := d.regs.get (d.resetWord r i) (r.key i)

/-- Sets the word a register holds. -/
def Dev.wr (d : Dev) (r : RF) (i : Nat) (w : Word) : Dev :=
  { d with regs := d.regs.putD (d.resetWord r i) (r.key i) w }

/-- A field's value. -/
def Dev.fld (d : Dev) (f : Fld) (i : Nat) : Nat := bitsOf (d.rd f.rf i) f.hi f.lo

/-- A one-bit field. -/
def Dev.flag (d : Dev) (f : Fld) (i : Nat) : Bool := d.fld f i == 1

/-- Sets a field. -/
def Dev.setFld (d : Dev) (f : Fld) (i : Nat) (v : Nat) : Dev := d.wr f.rf i (setBits (d.rd f.rf i) f.hi f.lo v)

/-- Adds to a field that saturates at its largest value. -/
def Dev.bumpSat (d : Dev) (f : Fld) (i : Nat) (n : Nat) : Dev :=
  d.setFld f i (min (d.fld f i + n) (2 ^ (f.hi - f.lo + 1) - 1))

/-- The value a written word has for a field. -/
def fldOf (f : Fld) (w : Word) : Nat := bitsOf w f.hi f.lo

/-! ## Parts and sites -/

/-- Number of optical data lanes (R1). -/
def Dev.nLanes (d : Dev) : Nat := if d.fuse.part = 0x0512 then 512 else 1024

/-- Number of Wings (R1). -/
def Dev.nWings (d : Dev) : Nat := if d.fuse.part = 0x0512 then 8 else 16

/-- SITE_STATE of a site: 0 EMPTY, 1 RUNNING, 2 RESET, 3 FAULTED (R19). -/
def Dev.site (d : Dev) (s : Nat) : Nat := bitsOf (d.rd .GLB_SITE_MAP 0) (2 * s + 1) (2 * s)

/-- Sets SITE_STATE of a site. -/
def Dev.setSite (d : Dev) (s v : Nat) : Dev := d.wr .GLB_SITE_MAP 0 (setBits (d.rd .GLB_SITE_MAP 0) (2 * s + 1) (2 * s) v)

/-- Site of Wing n, Loom k and stack m. -/
def wingSite (n : Nat) : Nat := n + 1
def loomSite (k : Nat) : Nat := k + 17
def stackSite (m : Nat) : Nat := m + 21

/-- A site is RUNNING. -/
def Dev.siteUp (d : Dev) (s : Nat) : Bool := d.site s == 1

/-! ## Lanes, ports, packets -/

def Dev.lane (d : Dev) (l : Nat) : Lane := d.net.lanes.get {} l
def Dev.setLane (d : Dev) (l : Nat) (x : Lane) : Dev := { d with net := { d.net with lanes := d.net.lanes.put l x } }
def Dev.modLane (d : Dev) (l : Nat) (f : Lane → Lane) : Dev := d.setLane l (f (d.lane l))
def Dev.lv (d : Dev) (k : Nat) : LaneVl := d.net.lvs.get {} k
def Dev.setLv (d : Dev) (k : Nat) (x : LaneVl) : Dev := { d with net := { d.net with lvs := d.net.lvs.put k x } }
def Dev.modLv (d : Dev) (k : Nat) (f : LaneVl → LaneVl) : Dev := d.setLv k (f (d.lv k))
def Dev.port (d : Dev) (p : Nat) : Port := d.net.ports.get {} p
def Dev.setPort (d : Dev) (p : Nat) (x : Port) : Dev := { d with net := { d.net with ports := d.net.ports.put p x } }
def Dev.modPort (d : Dev) (p : Nat) (f : Port → Port) : Dev := d.setPort p (f (d.port p))

/-- Lane-VL key. -/
def lvKey (lane v : Nat) : Nat := 8 * lane + v

/-- The packet of a given name. -/
def Dev.pkt (d : Dev) (id : Nat) : Option Pkt := d.net.pkts.find? (fun p => p.id == id)

/-- Replaces the packet of a given name. -/
def Dev.modPkt (d : Dev) (id : Nat) (f : Pkt → Pkt) : Dev :=
  { d with net := { d.net with pkts := d.net.pkts.map (fun p => if p.id = id then f p else p) } }

/-- Removes the packet of a given name. -/
def Dev.dropPkt (d : Dev) (id : Nat) : Dev :=
  { d with net := { d.net with pkts := d.net.pkts.filter (fun p => p.id ≠ id) } }

/-- Something leaves the device. -/
def Dev.emitOut (d : Dev) (o : Out) : Dev := { d with out := d.out ++ [o] }

/-- A free value: an opaque number nothing constrains, a fresh one each time. -/
def Dev.freeNat (d : Dev) : Nat × Dev := (Config.freeNat d.fresh, { d with fresh := d.fresh + 1 })

/-! ## Packet fields -/

def Pkt.dst (p : Pkt) : BitVec 32 := p.hdr.extractLsb' 96 32
def Pkt.src (p : Pkt) : BitVec 32 := p.hdr.extractLsb' 64 32
def Pkt.prod (p : Pkt) : Nat := bitsOf p.hdr 63 52
def Pkt.gen (p : Pkt) : Nat := bitsOf p.hdr 51 44
def Pkt.opc (p : Pkt) : Nat := bitsOf p.hdr 43 36
def Pkt.len (p : Pkt) : Nat := bitsOf p.hdr 35 29
def Pkt.cm (p : Pkt) : Nat := bitsOf p.hdr 28 27
def Pkt.tc (p : Pkt) : Nat := bitsOf p.hdr 26 24
def Pkt.psn (p : Pkt) : Nat := bitsOf p.hdr 23 0
def Pkt.detour (p : Pkt) : Bool := bitOf p.rw 31
def Pkt.psnValid (p : Pkt) : Bool := bitOf p.rw 30
def Pkt.hops (p : Pkt) : Nat := bitsOf p.rw 29 24
def Pkt.status (p : Pkt) : Nat := bitsOf p.rw 23 20
def Pkt.opx (p : Pkt) : Nat := bitsOf p.rw 19 0
/-- Flits of the packet (R38). -/
def Pkt.flits (p : Pkt) : Nat := p.len + 1
/-- Cells it occupies (R99). -/
def Pkt.cells (p : Pkt) : Nat := ceilDiv p.flits 4
/-- Cells of it that have not been read whole (R99). -/
def Pkt.cellsHeld (p : Pkt) : Nat := p.cells - p.sent / 4
/-- Credit charged for it, in flits (R100). -/
def Pkt.credit (p : Pkt) : Nat := 4 * p.cells
/-- It came from an internal source (R101). -/
def Pkt.internal (p : Pkt) : Bool := decide (1024 ≤ p.inl)

/-- A field of the head payload: `len` bytes at offset `off`, the route word at offset 0. -/
def Pkt.at (p : Pkt) (off len : Nat) : Nat :=
  bitsOf (p.rw ++ p.pay) (351 - 8 * off) (352 - 8 * (off + len))

/-- The packet's payload bytes from head-payload offset 4 on. -/
def Pkt.bytes (p : Pkt) : List Byte :=
  bytesOf 40 p.pay.toNat ++ p.body.flatMap (fun b => bytesOf 60 b.toNat)

/-- `n` payload bytes from head-payload offset `off` (4 or more). -/
def Pkt.bytesFrom (p : Pkt) (off n : Nat) : List Byte :=
  let t := (p.bytes.drop (off - 4)).take n
  t ++ List.replicate (n - t.length) 0

def Pkt.setRw (p : Pkt) (hi lo v : Nat) : Pkt := { p with rw := setBits p.rw hi lo v }
def Pkt.setHdr (p : Pkt) (hi lo v : Nat) : Pkt := { p with hdr := setBits p.hdr hi lo v }

/-- A header (R40). -/
def mkHdr (dst src : BitVec 32) (prod gen opc len tc : Nat) : BitVec 128 :=
  BitVec.ofNat 128 (dst.toNat * 2 ^ 96 + src.toNat * 2 ^ 64 + prod % 4096 * 2 ^ 52 + gen % 256 * 2 ^ 44
    + opc % 256 * 2 ^ 36 + len % 128 * 2 ^ 29 + tc % 8 * 2 ^ 24)

/-- A head payload after the route word, from fields (offset, bytes, value). -/
def mkPay (fs : List (Nat × Nat × Nat)) : BitVec 320 :=
  BitVec.ofNat 320 (fs.foldl (fun a f => a + f.2.2 % 2 ^ (8 * f.2.1) * 2 ^ (8 * (44 - f.1 - f.2.1))) 0)

/-- Splits payload bytes from offset 4 into the head payload and body payloads. -/
def splitBody : Nat → List Byte → List (BitVec 480)
  | 0, _ => []
  | n + 1, bs => BitVec.ofNat 480 (bytesAt bs 0 60) :: splitBody n (bs.drop 60)

/-- The least LEN that carries `n` payload bytes from offset 4. -/
def lenFor (n : Nat) : Nat := ceilDiv (n - 40) 60

/-! ## Status codes (R60) -/
def St.OK : Nat := 0
def St.POISON : Nat := 1
def St.DENIED : Nat := 2
def St.GEN_STALE : Nat := 3
def St.STRUCK : Nat := 4
def St.CAPACITY_DROP : Nat := 5
def St.TIMEOUT : Nat := 6
def St.UNSUPPORTED : Nat := 7
def St.ECC_UNCORR : Nat := 8
def St.ADMISSION_REFUSED : Nat := 9
def St.MISCAST : Nat := 10

/-- Place of a status in the order of precedence of R61; OK comes last. -/
def St.rank (s : Nat) : Nat := ([4, 3, 7, 2, 1, 8, 6].idxOf? s).getD 7

/-- The higher of two statuses in the order of R61. -/
def St.join (a b : Nat) : Nat := if St.rank b < St.rank a then b else a

/-! ## Time (R266 to R268) -/

/-- T in units of 2^-48 ns, modulo 2^112. -/
def Dev.timeFull (d : Dev) : Nat :=
  let adv : Nat := (d.tmu.frc + 2 ^ 64 - d.tmu.baseFrc % 2 ^ 64) % 2 ^ 64
  let rate : Int := signedOf 40 (d.fld F.TMU_RATE_RATE 0)
  wrapTo 112 ((d.tmu.base : Int) + (adv : Int) * 2 ^ 32 + ((adv : Int) * rate) / 2 ^ 16)

/-- The readout of T in ns, 64 bits. -/
def Dev.timeNs (d : Dev) : Nat := d.timeFull / 2 ^ 48 % 2 ^ 64

/-- FRC in ns. -/
def Dev.frcNs (d : Dev) : Nat := d.tmu.frc / 65536

/-- FRC advance in units since an earlier reading of it, modulo 2^64 (R277). -/
def Dev.sinceFrc (d : Dev) (then_ : Nat) : Nat := (d.tmu.frc + 2 ^ 64 - then_ % 2 ^ 64) % 2 ^ 64

/-- Elapsed units since an earlier count of them: an interval of any length (R277). -/
def Dev.since (d : Dev) (then_ : Nat) : Nat := d.tmu.total - then_

/-- TMU_STAT.SYNCED: SYNC, VALID and LOCKED all 1 and DOMAIN not 0. -/
def Dev.syncedNow (d : Dev) : Bool :=
  d.flag F.TMU_CTL_SYNC 0 && d.flag F.TMU_STAT_VALID 0 && d.flag F.TMU_STAT_LOCKED 0 && d.fld F.TMU_CTL_DOMAIN 0 != 0

end Sys2Proof.Machine
end

