-- ==== Sys2Proof/Machine/Counters.lean ====
section
/-! DEFINITION. The counters (R339 to R344) and the notices (R55, R333, R334): names, codes, counting and raising. -/

namespace Sys2Proof.Machine

/-! Fixed counters of a Global instance, by index (R339). -/
def C.KLINK_BAD : Nat := 0
def C.NOTICE_RELAY_SKIP : Nat := 1
def C.EXPEL_BAD : Nat := 2
def C.RHS_SKIP : Nat := 3
def C.LAUNCH_LATE_REPLY : Nat := 4
def C.SNAP_SKIP : Nat := 5
def C.SNAP_LOST : Nat := 6
def C.DISCARD_INTERNAL : Nat := 7
def C.GEN_AHEAD_INT : Nat := 8
def C.GEN_BEHIND_INT : Nat := 9
/-! Fixed counters of a Tables instance, by index (R339). -/
def C.TBL_OVERRUN : Nat := 0
def C.TBL_PARITY : Nat := 1
def C.PROV_FULL : Nat := 2
def C.POLICE_MISS : Nat := 3
def C.LEARN_OVER : Nat := 4
def C.LEARN_FULL : Nat := 5
def C.MAC_MOVE : Nat := 6
def C.MAC_MOVE_STATIC : Nat := 7
/-! Fixed counters of a Wardrobe instance, by index (R339). -/
def C.ORIGIN_STALL : Nat := 0
def C.QUOTA_OVER : Nat := 1
def C.HOLD_STOMP : Nat := 2
def C.RSQ_STALL : Nat := 3
def C.RSQ_DUP : Nat := 4
def C.RSQ_OVERRUN : Nat := 5
def C.RSQ_LATE : Nat := 6
def C.RSQ_GAP : Nat := 7
/-! Fixed counters of a Memory fabric instance, by index (R339). -/
def C.REQ_CHECKED : Nat := 0
def C.LEDGER_STALL : Nat := 1
def C.FLAG_TIMEOUT : Nat := 2
def C.XFER_ORPHAN : Nat := 3
/-! Fixed counters of a Time unit instance, by index (R339). -/
def C.TIME_FOREIGN : Nat := 0
def C.PTP_PDELAY_DROP : Nat := 1
def C.PTP_NO_TIME : Nat := 2
def C.PTP_CORRECTED : Nat := 3
/-! Fixed counters of a Power instance, by index (R339). -/
def C.GOV_STEP_DOWN : Nat := 0
def C.GOV_PARK : Nat := 1
/-! Fixed counters of a Port instance, by index (R339). -/
def C.RX_FLIT : Nat := 0
def C.TX_FLIT : Nat := 2
def C.RX_PKT : Nat := 4
def C.TX_PKT : Nat := 5
def C.MARK_T1 : Nat := 6
def C.MARK_T2 : Nat := 7
def C.CREDIT_OVERRUN : Nat := 8
def C.LANE_NOT_SERVING : Nat := 9
def C.FENCE_DISCARD : Nat := 10
def C.STRIKE_DISCARD : Nat := 11
def C.SRC_MISMATCH : Nat := 12
def C.HOP_EXPIRED : Nat := 13
def C.GEN_AHEAD : Nat := 14
def C.GEN_BEHIND : Nat := 15
def C.POLICE_DROP : Nat := 16
def C.GATE_OVERRUN : Nat := 17
def C.LAUNCH_LATE : Nat := 18
def C.LAUNCH_MISS : Nat := 19
def C.LAUNCH_STALE : Nat := 20
def C.BORDER_EGR_DROP : Nat := 21
def C.BORDER_ING_DROP : Nat := 22
def C.BORDER_NO_PROD : Nat := 23
def C.PAUSE_DROP : Nat := 24
def C.FRAMING_ERR : Nat := 25
def C.BAD_HEADER : Nat := 26
def C.FN_REFUSED : Nat := 27
def C.NO_LIVE_GEN : Nat := 28
def C.NO_ROUTE : Nat := 29
def C.ROUTE_DISCARD : Nat := 30
def C.TURN_VIOLATION : Nat := 31
def C.DETOUR_EXHAUSTED : Nat := 32
def C.NOTICE_REFUSED : Nat := 33
def C.BORDER_BAD_FRAME : Nat := 34
def C.BORDER_UNK_DROP : Nat := 35
def C.BORDER_ROUTE_DISCARD : Nat := 36
def C.BORDER_NO_PORT : Nat := 37
def C.DISCARD_OTHER : Nat := 38
/-! Fixed counters of a Wing instance, by index (R339). -/
def C.FEC_SYM_CORR : Nat := 0
def C.FEC_CW_UNCORR : Nat := 2
def C.SEAM_CRC_FAIL : Nat := 3
def C.SEAM_REPLAY : Nat := 4
def C.LASER_SWAPS : Nat := 5
def C.TRAP_COMMITS : Nat := 6
/-! Fixed counters of a Loom instance, by index (R339). -/
def C.CONTRIB_64B : Nat := 0
def C.RESULT_64B : Nat := 2
def C.COLL_LATE : Nat := 4
def C.COLL_EARLY : Nat := 5
def C.COLL_DUP : Nat := 6
def C.COLL_REFUSED : Nat := 7
def C.MX_UNDER : Nat := 8
def C.MX_OVER : Nat := 9
def C.ARITH_SAT : Nat := 10
def C.SAMPLE_LOST : Nat := 11
def C.CUE_LDR_OVERRUN : Nat := 12
/-! Fixed counters of a Memory stack instance, by index (R339). -/
def C.READ_64B : Nat := 0
def C.WRITE_64B : Nat := 2
def C.ATOMIC : Nat := 4
def C.ECC_CORR : Nat := 5
def C.ECC_UNCORR : Nat := 6

/-! Notice TYPE codes (R334). -/
def N.REG_RESERVED : Nat := 0x01
def N.STRAP_MISMATCH : Nat := 0x02
def N.DIE_FAULT : Nat := 0x03
def N.REF_HOLDOVER : Nat := 0x04
def N.REF_LOSS : Nat := 0x05
def N.SEAM_REPAIR : Nat := 0x06
def N.SEAM_DEGRADED : Nat := 0x07
def N.RESET_REFUSED : Nat := 0x08
def N.BOLT_STACK_LOST : Nat := 0x09
def N.TIME_LOSS : Nat := 0x0A
def N.FRAMING_ERR : Nat := 0x10
def N.BAD_HEADER : Nat := 0x11
def N.SRC_MISMATCH : Nat := 0x12
def N.HOP_EXPIRED : Nat := 0x13
def N.NO_ROUTE : Nat := 0x14
def N.TURN_VIOLATION : Nat := 0x15
def N.DETOUR_EXHAUSTED : Nat := 0x16
def N.SPRAY_CONFIG : Nat := 0x17
def N.ORIGIN_FULL : Nat := 0x18
def N.TBL_PARITY : Nat := 0x20
def N.TBL_PART_REFUSED : Nat := 0x21
def N.TBL_MODE_REFUSED : Nat := 0x22
def N.TBL_COMMIT : Nat := 0x23
def N.TBL_COMMIT_FAIL : Nat := 0x24
def N.BORDER_CONFIG : Nat := 0x25
def N.BORDER_NO_PORT : Nat := 0x26
def N.WRD_POOL_REFUSED : Nat := 0x30
def N.HOLD_EXPIRED : Nat := 0x31
def N.RSQ_FULL : Nat := 0x32
def N.RATE_REFUSED : Nat := 0x33
def N.RO_DOMAIN : Nat := 0x34
def N.RO_NO_TIME : Nat := 0x35
def N.RO_LATE : Nat := 0x36
def N.RO_BAD_ENTRY : Nat := 0x37
def N.GUARANTEE_BREACH : Nat := 0x38
def N.GUARANTEE_RESTORED : Nat := 0x39
def N.CAST_BUSY : Nat := 0x40
def N.ENS_REFUSED : Nat := 0x41
def N.ENS_BUSY : Nat := 0x42
def N.COLL_REFUSED : Nat := 0x43
def N.COLL_SHAPE : Nat := 0x44
def N.COLL_STALL : Nat := 0x45
def N.COLL_POISON : Nat := 0x46
def N.CUE_TRAP : Nat := 0x47
def N.CUE_LDR_DONE : Nat := 0x48
def N.CUE_SUBSTITUTED : Nat := 0x49
def N.CUE_NO_UNDERSTUDY : Nat := 0x4A
def N.IMAGE_LOST : Nat := 0x4B
def N.LEDGER_FULL : Nat := 0x50
def N.SWATCH_XFER_LOST : Nat := 0x51
def N.TEARDOWN : Nat := 0x52
def N.BIAS_EOL_WARN : Nat := 0x60
def N.LANE_MARGIN_LOW : Nat := 0x61
def N.LASER_SWAP_START : Nat := 0x62
def N.LASER_SWAPPED : Nat := 0x63
def N.LASER_FAILED : Nat := 0x64
def N.LASER_NO_UNDERSTUDY : Nat := 0x65
def N.HEAT_FF_LOST : Nat := 0x66
def N.HEATER_RANGE : Nat := 0x67
def N.TRAP_REFUSED : Nat := 0x68
def N.TRAP_DONE : Nat := 0x69
def N.TRAP_RESTORED : Nat := 0x6A
def N.TRAP_DARK : Nat := 0x6B
def N.TRAP_LIT : Nat := 0x6C
def N.LINK_DOWN : Nat := 0x70
def N.MISCAST : Nat := 0x71
def N.NEIGHBOUR_EXTRA : Nat := 0x72
def N.NEIGHBOUR_MISSING : Nat := 0x73
def N.PLAN_SKEW : Nat := 0x74
def N.TIME_SYNC : Nat := 0x75
def N.TIME_UNSYNC : Nat := 0x76
def N.TIME_DOMAIN_REFUSED : Nat := 0x77
def N.FAULT : Nat := 0x80
def N.FM_KEY_BAD : Nat := 0x81
def N.EXPEL_VOTE : Nat := 0x82
def N.EXPEL_REFUSED : Nat := 0x83
def N.EXPELLED : Nat := 0x84
def N.REPAIR : Nat := 0x85
def N.REPAIR_EXHAUSTED : Nat := 0x86
def N.REPAIR_UNRECORDED : Nat := 0x87
def N.REHEARSAL_INJECT : Nat := 0x88
def N.PWR_CAP_REFUSED : Nat := 0x90
def N.PWR_CAP_UNMET : Nat := 0x91
def N.PWR_MINUTE : Nat := 0x92
def N.THERM_WARN : Nat := 0x93
def N.THERM_LIMIT : Nat := 0x94
def N.THERM_TRIP : Nat := 0x95
def N.FW_REFUSED : Nat := 0x96
def N.DEBUG_OPENED : Nat := 0x97
def N.DEBUG_CLOSED : Nat := 0x98
def N.START_DONE : Nat := 0xA0
def N.HOUSE_DOWN : Nat := 0xA1
def N.HOUSE_UP : Nat := 0xA2

/-- SEVERITY of a notice type (R334): FATAL, ERROR, INFO by the lists, WARN otherwise. -/
def N.severity (t : Nat) : Nat :=
  if t ∈ [N.REF_LOSS, N.THERM_TRIP] then 3
  else if t ∈ [N.DIE_FAULT, N.SEAM_DEGRADED, N.BOLT_STACK_LOST, N.TIME_LOSS, N.GUARANTEE_BREACH, N.COLL_POISON, N.CUE_TRAP, N.IMAGE_LOST, N.TEARDOWN, N.LASER_FAILED, N.LINK_DOWN, N.FAULT, N.EXPELLED, N.REPAIR_EXHAUSTED, N.PWR_CAP_UNMET, N.THERM_LIMIT, N.FW_REFUSED] then 2
  else if t ∈ [N.SEAM_REPAIR, N.TBL_COMMIT, N.GUARANTEE_RESTORED, N.CUE_LDR_DONE, N.CUE_SUBSTITUTED, N.LASER_SWAP_START, N.LASER_SWAPPED, N.TRAP_DONE, N.TRAP_RESTORED, N.TRAP_LIT, N.TIME_SYNC, N.EXPEL_VOTE, N.REPAIR, N.REHEARSAL_INJECT, N.PWR_MINUTE, N.DEBUG_CLOSED, N.START_DONE, N.HOUSE_UP] then 0
  else 1

/-! SOURCE codes (R334): site × 8 + unit. -/
def Src.prompter : Nat := 0
def Src.core : Nat := 1
def Src.tables : Nat := 2
def Src.memory : Nat := 3
def Src.time : Nat := 4
def Src.power : Nat := 5
def Src.security : Nat := 6
def Src.die (site : Nat) : Nat := 8 * site

/-! ## Counting -/

/-- An instance that exists on the part (R340). -/
def Dev.instOk (d : Dev) (i : Nat) : Bool :=
  decide (i < 6 ∨ (16 ≤ i ∧ i < 16 + d.nLanes) ∨ (1040 ≤ i ∧ i < 1040 + d.nWings) ∨ (1056 ≤ i ∧ i < 1064))

/-- CNT_VAL index of a counter. -/
def cntIdx (inst idx : Nat) : Nat := inst * 64 + idx

/-- Adds `n` to a counter's value: wraps, with WRAP or the carry into the chained half (R341). -/
def Dev.addCount (d : Dev) (inst idx n : Nat) : Dev :=
  let v := d.fld F.CNT_VAL_VALUE (cntIdx inst idx) + n
  let d1 := d.setFld F.CNT_VAL_VALUE (cntIdx inst idx) v
  if v < 2 ^ 48 then d1
  else if idx % 2 = 0 ∧ bitOf (d.rd .CNT_CHAIN inst) (idx / 2) then
    let h := d.fld F.CNT_VAL_VALUE (cntIdx inst (idx + 1)) + v / 2 ^ 48
    d1.setFld F.CNT_VAL_VALUE (cntIdx inst (idx + 1)) h
  else d1.setFld F.CNT_VAL_WRAP (cntIdx inst idx) 1

/-- The cut that has been fixed is reached: the counter stands at C or past it (R344). -/
def Dev.cutPast (d : Dev) : Bool := d.cutDue && decide (d.sinceFrc d.cutFrc < 2 ^ 63)

/-- STATE of CNT_FREEZE: from C onward it is FROZEN or SNAPPING (R344). -/
def Dev.cutState (d : Dev) : Nat :=
  let st := d.fld F.CNT_FREEZE_STATE 0
  if st ≠ 0 then st else if d.cutPast then (if d.flag F.CNT_FREEZE_SNAP 0 then 2 else 1) else 0

/-- Counts `n` events: in the counter, or in its pending count from the cut on until the thaw (R344). A high half
of a chained pair counts nothing but its carry (R341). -/
def Dev.count (d : Dev) (inst idx n : Nat) : Dev :=
  if !d.instOk inst then d
  else if idx % 2 = 1 ∧ idx < 64 ∧ bitOf (d.rd .CNT_CHAIN inst) (idx / 2) then d
  else if d.cutState = 0 then d.addCount inst idx n
  else { d with cntPend := d.cntPend.put (cntIdx inst idx) ((d.cntPend.get 0 (cntIdx inst idx) + n) % 2 ^ 32) }

def Dev.countGlb (d : Dev) (c : Nat) : Dev := d.count 0 c 1
def Dev.countTbl (d : Dev) (c : Nat) : Dev := d.count 1 c 1
def Dev.countWrd (d : Dev) (c : Nat) : Dev := d.count 2 c 1
def Dev.countMem (d : Dev) (c : Nat) : Dev := d.count 3 c 1
def Dev.countTmu (d : Dev) (c : Nat) : Dev := d.count 4 c 1
def Dev.countPwr (d : Dev) (c : Nat) : Dev := d.count 5 c 1
def Dev.countPort (d : Dev) (l c : Nat) : Dev := d.count (16 + l) c 1
def Dev.countWing (d : Dev) (w c n : Nat) : Dev := d.count (1040 + w) c n
def Dev.countLoom (d : Dev) (k c n : Nat) : Dev := d.count (1056 + k) c n
def Dev.countStack (d : Dev) (m c n : Nat) : Dev := d.count (1060 + m) c n

/-- A CA holds house privilege (R330): a VALID GLB_HOUSE_ACL or GLB_FM entry names its bits [31:8]. -/
def Dev.housePriv (d : Dev) (ca : BitVec 32) : Bool :=
  (List.range 16).any (fun n => d.flag F.GLB_HOUSE_ACL_VALID n && d.fld F.GLB_HOUSE_ACL_CA n == bitsOf ca 31 8)
  || (List.range 5).any (fun n => d.flag F.GLB_FM_VALID n && d.fld F.GLB_FM_CA n / 256 == bitsOf ca 31 8)

/-- A CA is a registered fabric manager (R330). -/
def Dev.isFm (d : Dev) (ca : BitVec 32) : Bool :=
  (List.range 5).any (fun n => d.flag F.GLB_FM_VALID n && d.fld F.GLB_FM_CA n / 256 == bitsOf ca 31 8)

/-- Filter j of an instance passes an occurrence of an event (R342, R343). -/
def Dev.filterPass (d : Dev) (inst j ev : Nat) (x : EvCtx) : Bool :=
  let k := inst * 16 + j
  let priv := d.fld F.CNT_FILT_A_PRIV k
  let mas := d.fld F.CNT_FILT_A_MASTER k
  d.flag F.CNT_FILT_A_EN k && d.fld F.CNT_FILT_A_EVENT k == ev
  && (priv == 0 || (priv == 1 && d.housePriv x.src) || (priv == 2 && !d.housePriv x.src))
  && (mas == 0 || (mas == 1 && x.prod == d.fld F.CNT_FILT_A_PROD k) || (mas == 2 && x.inl == d.fld F.CNT_FILT_A_PORT k))
  && (d.fld F.CNT_FILT_A_VLS k).testBit x.vl && (d.fld F.CNT_FILT_A_TCS k).testBit x.tc
  && decide (d.fld F.CNT_FILT_B_OPC_LO k ≤ x.opc ∧ x.opc ≤ d.fld F.CNT_FILT_B_OPC_HI k)
  && (!d.flag F.CNT_FILT_B_ADDR_EN k ||
    match x.fa with
    | some a => decide (d.fld F.CNT_FILT_C_FA_LO k ≤ a ∧ a ≤ d.fld F.CNT_FILT_D_FA_HI k)
    | none => false)

/-- Counts an event on the programmable counters of an instance: index 48 + j for filter j. -/
def Dev.countEv (d : Dev) (inst ev n : Nat) (x : EvCtx) : Dev :=
  d.each (List.range 16) (fun d j => if d.filterPass inst j ev x then d.count inst (48 + j) n else d)

/-- The judging facts of a packet. -/
def Pkt.ctx (p : Pkt) : EvCtx := { src := p.src, prod := p.prod, inl := p.inl, vl := p.vl, tc := p.tc, opc := p.opc, fa := p.fa }

/-! ## Notices -/

/-- The 128 bits of a notice (R55). -/
def noticeBits (t sev src prod data low : Nat) : BitVec 128 :=
  BitVec.ofNat 128 (t % 256 * 2 ^ 120 + sev % 4 * 2 ^ 118 + src % 256 * 2 ^ 110 + prod % 4096 * 2 ^ 98
    + data % 2 ^ 64 * 2 ^ 32 + low % 2 ^ 32)

/-- The subscriptions that take a notice of a severity (R333). -/
def Dev.subscribers (d : Dev) (sev : Nat) : List Nat :=
  (List.range 8).filter (fun n => d.flag F.GLB_SUB_VALID n && decide (d.fld F.GLB_SUB_MIN_SEV n ≤ sev))

/-- Writes a notice to the next entry of the log and leaves it for the relay to the subscribers that take it (R333). -/
def Dev.logNotice (d : Dev) (bits : BitVec 128) (remote : Option (BitVec 32)) : Dev :=
  let seq := d.fld F.GLB_NLOG_STAT_NEXT_SEQ 0
  let n := seq % 4096
  let d := d.setFld F.GLB_NLOG_A_HIGH n (bitsOf bits 127 64)
  let d := d.setFld F.GLB_NLOG_B_LOW n (bitsOf bits 63 0)
  let d := d.setFld F.GLB_NLOG_C_SEQ n seq
  let d := d.setFld F.GLB_NLOG_C_REMOTE n (bit remote.isSome)
  let d := d.setFld F.GLB_NLOG_STAT_NEXT_SEQ 0 (seq + 1)
  { d with relay := d.relay ++ [⟨seq, bits, remote, d.subscribers (bitsOf bits 119 118)⟩] }

/-- Raises a notice of the device's own with a severity of the rule's choosing. In RECOVERY none is raised (R315). -/
def Dev.noticeSev (d : Dev) (t sev src prod data : Nat) : Dev :=
  if d.fld F.SEC_STATE_SECURITY 0 = 2 then d else d.logNotice (noticeBits t sev src prod data d.timeNs) none

/-- Raises a notice of the device's own (R333). -/
def Dev.notice (d : Dev) (t src prod data : Nat) : Dev := d.noticeSev t (N.severity t) src prod data

/-- Raises a notice at most once per millisecond per key (R59, R76). -/
def Dev.noticeLim (d : Dev) (t src prod data key : Nat) : Dev :=
  let k := t * 2 ^ 32 + key
  match d.limits.find k with
  | some f => if d.since f < 1000000 * 65536 then d
              else ({ d with limits := d.limits.put k d.tmu.total }).notice t src prod data
  | none => ({ d with limits := d.limits.put k d.tmu.total }).notice t src prod data

/-- DATA with a lane in [57:48] (R348). -/
def laneData (l : Nat) : Nat := l % 1024 * 2 ^ 48

/-- DATA of a notice about a packet: lane of arrival, or [58] and the source (R348). -/
def Pkt.laneData (p : Pkt) : Nat :=
  if p.internal then 2 ^ 58 + (p.inl - 1024) % 16 * 2 ^ 48 else p.inl * 2 ^ 48

/-- A discard or refusal of a packet, an event of the port where it arrived (R342). -/
def Dev.countDrop (d : Dev) (p : Pkt) : Dev := if p.internal then d else d.countEv (16 + p.inl) 5 1 p.ctx

/-- Counts a discard or refusal of a packet that no other counter takes: DISCARD_OTHER, or DISCARD_INTERNAL (R339). -/
def Dev.discardOther (d : Dev) (p : Pkt) : Dev :=
  if p.internal then d.countGlb C.DISCARD_INTERNAL
  else (d.countPort p.inl C.DISCARD_OTHER).countEv (16 + p.inl) 5 1 p.ctx

/-- Counts a discard of a packet in a named port counter, or in DISCARD_INTERNAL (R339). -/
def Dev.discardAs (d : Dev) (p : Pkt) (c : Nat) : Dev :=
  if p.internal then d.countGlb C.DISCARD_INTERNAL
  else (d.countPort p.inl c).countEv (16 + p.inl) 5 1 p.ctx

end Sys2Proof.Machine
end

