-- ==== Sys2Proof/Machine/Seams.lean ====
section
/-! DEFINITION. Seam links (R27 to R32): flits, channels and their credit, acknowledgement and replay, as the Stage's end
keeps them. -/

namespace Sys2Proof.Machine

/-! ## A link's registers and dimensions -/

/-- Bundles of a seam link, and the fewest it may run with (R27, R32). -/
def seamTotal (s : Nat) : Nat := if s ≤ 16 then 36 else 128
def seamFloor (s : Nat) : Nat := if s ≤ 16 then 27 else 96

def Dev.seam (d : Dev) (s : Nat) : Seam := d.seams.get {} s
def Dev.setSeam (d : Dev) (s : Nat) (x : Seam) : Dev := { d with seams := d.seams.put s x }
def Dev.seamState (d : Dev) (s : Nat) : Nat := d.fld F.GLB_SEAM_STAT_STATE s
/-- A seam link carries traffic: UP or DEGRADED. -/
def Dev.seamUp (d : Dev) (s : Nat) : Bool := d.seamState s == 2 || d.seamState s == 4

/-- The repairs in force at start-up: the fused map, then the overlay (R296). -/
def Dev.repairs (d : Dev) : List Repair := d.fuse.repairs ++ d.overlay

/-- Understudies in use on a link: fused, of the overlay, and those the full overlay could not record (R31, R32, R296). -/
def Dev.understudies (d : Dev) (s : Nat) : List Nat :=
  (d.repairs.filter (fun r => r.kind == 2 && r.site == s)).map (·.unit) ++ (d.seam s).used

/-- Spare rows and Wardrobe spares as start-up finds them: those that the repairs in force have taken are used (R295, R296). -/
def spareRows (l : List Repair) : NMap Nat :=
  (l.filter (fun r => r.kind == 0)).foldl (fun a r =>
    a.put (r.site * 2 ^ 20 + r.unit / 1024) (a.get 0 (r.site * 2 ^ 20 + r.unit / 1024) + 1)) []
def spareMacros (l : List Repair) : Nat := 8 - l.countP (fun r => r.kind == 1)

/-! ## Flits (R28) -/

/-- Bytes of a seam flit, byte 0 first. -/
def seamBytes (f : BitVec 1120) : List Byte := bytesOf 140 f.toNat

/-- A byte into the CRC-32 of IEEE 802.3, least significant bit first. -/
def crcRefl (c : Nat) (b : Byte) : Nat :=
  (List.range 8).foldl (fun c _ => if c % 2 = 1 then (c / 2) ^^^ 0xEDB88320 else c / 2) (c ^^^ b.toNat)

/-- CRC-32 over bytes 0–135 of a seam flit, with the IEEE 802.3 polynomial (R28). R28 gives the polynomial alone: the
reflected form, the start and the end inverted, and the most significant byte first in bytes 136–139 are the model's
(DESIGN CHOICE, log entry 205). -/
def seamCrc (f : BitVec 1120) : Nat := ((seamBytes f).take 136).foldl crcRefl 0xFFFFFFFF ^^^ 0xFFFFFFFF

/-- A seam header field (R28). -/
def seamFld (f : BitVec 1120) (hi lo : Nat) : Nat := bitsOf f (1056 + hi) (1056 + lo)

/-- The payload of a seam flit. -/
def seamPayload (f : BitVec 1120) : BitVec 1024 := f.extractLsb' 32 1024

/-- A seam flit from its header fields and its payload, sealed with its CRC. -/
def mkSeam (kind ch seq ack crCh cr : Nat) (pay : BitVec 1024) : BitVec 1120 :=
  let h := kind % 16 * 2 ^ 60 + ch % 16 * 2 ^ 56 + seq % 4096 * 2 ^ 44 + ack % 4096 * 2 ^ 32 + crCh % 16 * 2 ^ 28 + cr % 4096 * 2 ^ 16
  let v := h * 2 ^ 1056 + pay.toNat * 2 ^ 32
  BitVec.ofNat 1120 (v + seamCrc (BitVec.ofNat 1120 v))

/-! ## What the Stage sends (R29, R30) -/

/-- The last data SEQ received good. -/
def Seam.ack (x : Seam) : Nat := (x.rxNext + 4095) % 4096

/-- Total of credits granted by the die on a channel: 16 at training (R29). -/
def Seam.granted (x : Seam) (ch : Nat) : Nat := x.credit.get 16 ch
/-- Total of credits granted to the die on a channel. -/
def Seam.released (x : Seam) (ch : Nat) : Nat := x.rel.get 16 ch
/-- Credits left on a channel. -/
def Seam.credits (x : Seam) (ch : Nat) : Nat := (x.granted ch + 4096 - x.used_.get 0 ch % 4096) % 4096

/-- A seam flit of a kind, with the ACK and the credit total that every flit carries: of the channel released last. -/
def Seam.flit (x : Seam) (kind ch seq : Nat) (pay : BitVec 1024) : BitVec 1120 :=
  mkSeam kind ch seq x.ack x.crCh (x.released x.crCh) pay

/-- A flit leaves on a seam link. -/
def Dev.seamEmit (d : Dev) (s : Nat) (f : BitVec 1120) : Dev := { d with seamOut := d.seamOut ++ [(s, f)] }

/-- Channels in the order of service: 0, 11 and 12 strictly first (R29), the others in turn after the one served last. -/
def Seam.order (x : Seam) : List Nat :=
  [0, 11, 12] ++ ((List.range 16).map (fun i => (x.turn + 1 + i) % 16)).filter (fun c => c ≠ 0 ∧ c ≠ 11 ∧ c ≠ 12)

/-- The channel that sends next: one with something to send and a credit. -/
def Seam.nextCh (x : Seam) : Option Nat :=
  x.order.find? (fun c => x.queue.any (fun q => q.1 == c) && decide (0 < x.credits c))

/-- A payload of one or two fabric flits. -/
def seamPair : List Flit → BitVec 1024
  | a :: b :: _ => a ++ b
  | [a] => a ++ (0 : BitVec 512)
  | [] => 0

/-- One data flit of a channel leaves: up to two of its fabric flits, a SEQ, a credit, and a place in the replay buffer. -/
def Dev.seamData (d : Dev) (s ch : Nat) : Dev :=
  let x := d.seam s
  let own := x.queue.filter (fun q => q.1 == ch)
  let pay := seamPair (own.map (·.2))
  let rest := (own.drop 2) ++ x.queue.filter (fun q => q.1 != ch)
  let y := { x with queue := rest, txNext := (x.txNext + 1) % 4096, replay := x.replay ++ [(x.txNext, ch, pay)],
                    used_ := x.used_.put ch ((x.used_.get 0 ch + 1) % 4096), turn := ch }
  (d.setSeam s y).seamEmit s (x.flit 1 ch x.txNext pay)

/-- Sends what a link can send: while it carries traffic, has a credit for what waits, and holds fewer than 1,024
unacknowledged flits (R29, R30). -/
def Dev.seamDrain : Nat → Dev → Nat → Dev
  | 0, d, _ => d
  | n + 1, d, s =>
    if d.seamUp s ∧ d.tmu.refOk ∧ (d.seam s).replay.length < 1024 then
      match (d.seam s).nextCh with
      | some ch => Dev.seamDrain n (d.seamData s ch) s
      | none => d
    else d

/-- Sends all a link can send. -/
def Dev.seamPump (d : Dev) (s : Nat) : Dev := Dev.seamDrain ((d.seam s).queue.length) d s

/-- A fabric flit crosses to the Wing of its lane on the channel of its VL (R29). -/
def Dev.seamSend (d : Dev) (l vl : Nat) (f : Flit) : Dev :=
  let s := wingSite (l / 64)
  (d.setSeam s { d.seam s with queue := (d.seam s).queue ++ [(vl, f)] }).seamPump s

/-! ## What the Stage receives (R30, R31) -/

/-- The unacknowledged data flits after a cumulative ACK. -/
def seamAck : List (Nat × Nat × BitVec 1024) → Nat → Option (List (Nat × Nat × BitVec 1024))
  | [], _ => none
  | x :: l, a => if x.1 = a then some l else seamAck l a

/-- One more event, beside those of the last 100 µs (R31): more than 64 of them meet the trigger. -/
def Dev.tally (d : Dev) (l : List Nat) : List Nat :=
  (d.tmu.total :: l.filter (fun t => decide (d.since t ≤ 100000 * 65536))).take 65

/-- A replay is asked for, from the last good SEQ (R30). -/
def Dev.seamAsk (d : Dev) (s : Nat) : Dev :=
  let x := d.seam s
  let y := { x with waiting := true, askSeq := x.rxNext, asked := if x.askSeq = x.rxNext then x.asked + 1 else 1 }
  (d.setSeam s y).seamEmit s (y.flit 3 0 0 0)

/-- A CRC failure on a seam link: counted, and a replay asked for (R30, R31). -/
def Dev.seamBad (d : Dev) (s : Nat) : Dev :=
  let d := d.setSeam s { d.seam s with bad := d.tally (d.seam s).bad }
  let d := if s ≤ 16 then d.countWing (s - 1) C.SEAM_CRC_FAIL 1 else d
  d.seamAsk s

/-- The unacknowledged flits leave again, in order (R30). -/
def Dev.seamResend (d : Dev) (s : Nat) : Dev :=
  d.each (d.seam s).replay (fun d f => d.seamEmit s ((d.seam s).flit 1 f.2.1 f.1 f.2.2))

/-- A replay request: counted, and the flits after ACK leave again (R30, R31). -/
def Dev.seamReplay (d : Dev) (s : Nat) (ack : Nat) : Dev :=
  let x := d.seam s
  let q := (ack + 1) % 4096
  let d := d.setSeam s { x with runSeq := q, run := if x.runSeq = q then x.run + 1 else 1, farBad := d.tally x.farBad }
  let d := d.bumpSat F.GLB_SEAM_STAT_REPLAYS s 1
  let d := if s ≤ 16 then d.countWing (s - 1) C.SEAM_REPLAY 1 else d
  d.seamResend s

/-- A good data flit that is the next expected: its payload is delivered on its channel at once, so that the receive buffer
of 2,048 flits never fills, its credit is released, and both are acknowledged (R28 to R30). One already received is
acknowledged again; one after a failure is discarded until the replay comes. What a payload means is not laid out: the
fabric flits and accesses that it carries reach the switch as commands of their own (DESIGN CHOICE, log entry 193). -/
def Dev.seamTake (d : Dev) (s : Nat) (f : BitVec 1120) : Dev :=
  let x := d.seam s
  let seq := seamFld f 55 44
  let ch := seamFld f 59 56
  if seq = x.rxNext then
    let y := { x with rxNext := (x.rxNext + 1) % 4096, waiting := false, crCh := ch, rel := x.rel.put ch ((x.released ch + 1) % 4096) }
    ({ d.setSeam s y with seamIn := d.seamIn ++ [(s, ch, seamPayload f)] }).seamEmit s (y.flit 2 0 0 0)
  else if delta x.rxNext seq 12 ≤ 2048 then d.seamEmit s (x.flit 0 0 0 0)
  else if x.waiting then d
  else d.seamAsk s

/-- The credit total that a flit brings (R29). -/
def Seam.heed (x : Seam) (f : BitVec 1120) : Seam := { x with credit := x.credit.put (seamFld f 31 28) (seamFld f 27 16) }

/-- A good seam flit: ACK, the credit total, and its KIND (R28 to R30). -/
def Dev.seamGood (d : Dev) (s : Nat) (f : BitVec 1120) : Dev :=
  let x := d.seam s
  let x := match seamAck x.replay (seamFld f 43 32) with | some r => { x with replay := r } | none => x
  let d := d.setSeam s (x.heed f)
  let d := match seamFld f 63 60 with
    | 1 => d.seamTake s f
    | 3 => d.seamReplay s (seamFld f 43 32)
    | _ => d
  d.seamPump s

/-- A seam flit that is good. One of a reserved KIND counts as one whose CRC fails (DESIGN CHOICE, log entry 206: R28 gives
KIND 5–15 no effect). -/
def seamOk (f : BitVec 1120) : Bool := decide (seamFld f 63 60 < 5) && bitsOf f 31 0 == seamCrc f

/-- SEAM_FLIT_ARRIVAL (R30). On a link that trains, a good training flit advertises credit (R29). -/
def execSeamFlitArrival (site : Nat) (flit : BitVec 1120) (s : State) : Res :=
  ifUnit (decide (1 ≤ site ∧ site < 21)) <| onDev s fun d =>
    d.when d.tmu.refOk fun d =>
      if d.seamUp site then (if seamOk flit then d.seamGood site flit else d.seamBad site)
      else d.when (seamFld flit 63 60 == 4 && seamOk flit) (fun d => d.setSeam site ((d.seam site).heed flit))

/-! ## Training and repair (R29, R31, R32) -/

/-- A seam link comes UP with a number of bundles, DEGRADED where some are out (R32). The table has no row for the start of
training: a link goes from DOWN to UP or DEGRADED in one command, and GLB_SEAM_STAT.STATE never shows 1 TRAINING (DESIGN
CHOICE, log entry 247). -/
def Dev.seamOpen (d : Dev) (s bundles : Nat) : Dev :=
  let n := min bundles (seamTotal s)
  let d := d.setFld F.GLB_SEAM_STAT_BUNDLES_UP s n
  if n = seamTotal s then d.setFld F.GLB_SEAM_STAT_STATE s 2
  else (d.setFld F.GLB_SEAM_STAT_STATE s 4).notice N.SEAM_DEGRADED (Src.die s) 0 0

/-- A link starts over: no data in flight, 16 credits on every channel (R29). -/
def Seam.afterReset (x : Seam) : Seam := { used := x.used, retried := x.retried }

/-- The trigger of R31 is met, at this end or at the die's. -/
def Seam.mustRepair (x : Seam) : Bool :=
  decide (8 ≤ x.run) || decide (8 ≤ x.asked) || decide (64 < x.bad.length) || decide (64 < x.farBad.length)

/-- SEAM_REPAIR_TRIGGER (R31): both ends stop sending data. -/
def execSeamRepairTrigger (site : Nat) (s : State) : Res :=
  ifUnit (decide (1 ≤ site ∧ site < 21)) <| onDev s fun d =>
    d.when (d.seamUp site && (d.seam site).mustRepair) (fun d => d.setFld F.GLB_SEAM_STAT_STATE site 3)

/-- The 1,024 training flits that check a repaired link (R31). -/
def Dev.seamTrain (d : Dev) (s : Nat) : Dev := { d with seamOut := d.seamOut ++ List.replicate 1024 (s, (d.seam s).flit 4 0 0 0) }

end Sys2Proof.Machine
end

