-- ==== Sys2Proof/Machine/Wardrobe.lean ====
section
/-! DEFINITION. The Wardrobe: pools, credit, quotas and buffers (R99 to R104, R107). -/

namespace Sys2Proof.Machine

/-- Cells of the Wardrobe (R99). -/
def totalCells : Nat := 2097152

/-- Cells set aside as ingress, source and detour reserves (R101). -/
def Dev.setAside (d : Dev) : Nat := d.net.lvs.foldl (fun a x => a + x.2.resCap + x.2.detCap) 0

/-- Cells in the shared pool: those no other pool holds (R101). -/
def Dev.sharedTotal (d : Dev) : Nat :=
  totalCells - d.net.lostCells - d.net.draining.foldl (fun a x => a + x.2) 0 - d.setAside - d.fld F.WRD_COLL_POOL_POOL 0

/-- Shared cells held or promised. -/
def Dev.sharedUsed (d : Dev) : Int :=
  d.net.lvs.foldl (fun a x => a + (x.2.shHeld : Int) + x.2.shProm) (0 : Int)
    + d.net.bufs.foldl (fun a x => if x.2.pool = .common then a + (x.2.cells : Int) else a) (0 : Int)

/-- SHARED_FREE: shared cells neither held nor promised as credit (R102). -/
def Dev.sharedFree (d : Dev) : Nat := ((d.sharedTotal : Int) - d.sharedUsed).toNat

/-- The share of one lane-VL: SHARED_FREE >> ALPHA_SHIFT (R102). -/
def Dev.shareLimit (d : Dev) : Nat := d.sharedFree >>> d.fld F.WRD_SHARE_ALPHA_SHIFT 0

/-- Reserve in cells for VL v; values below 18 act as 18 (R103). -/
def Dev.resCells (d : Dev) (v : Nat) : Nat := max 18 (bitsOf (d.rd .WRD_RES 0) (8 * v + 7) (8 * v))

/-- Detour reserve in cells; values below 18 act as 18 (R103). -/
def Dev.detCells (d : Dev) : Nat := max 18 (d.fld F.WRD_SHARE_DETOUR 0)

/-- The credit of reserve cells that have freed is returned to the peer (R102). -/
def Dev.giveBack (d : Dev) (k : Nat) : Dev :=
  let x := d.lv k
  if x.resOwed = 0 ∧ x.detOwed = 0 then d
  else d.setLv k { x with nGrant := (x.nGrant + 4 * x.resOwed) % 2 ^ 24, dGrant := (x.dGrant + 4 * x.detOwed) % 2 ^ 24, resOwed := 0, detOwed := 0 }

/-- Further normal credit backed by shared cells, up to the lane-VL's share (R102); none while it holds over-quota cells
(R104). -/
def Dev.grantShared (d : Dev) (k : Nat) : Dev :=
  let x := d.lv k
  let room : Int := (d.shareLimit : Int) - ((x.shHeld : Int) + x.shProm)
  if d.fld F.PRT_LINK_CTL_TYPE (k / 8) ≤ 1 ∧ 0 < x.resCap ∧ x.overQ = 0 ∧ 0 < room then
    d.setLv k { x with shProm := x.shProm + room, nGrant := (x.nGrant + 4 * room.toNat) % 2 ^ 24 }
  else d

/-- Credit issued to a lane-VL: what has freed, and its share; none to an internal source, and none while the seam link of
the lane's Wing repairs itself (R31, R102). -/
def Dev.grant (d : Dev) (k : Nat) : Dev :=
  if k < 8192 ∧ d.seamState (wingSite (k / 512)) ≠ 3 then (d.giveBack k).grantShared k else d

/-- Bring-up of a lane's reserves and credit: the initial advertisement (R101, R102). -/
def Dev.openCredit (d : Dev) (lane : Nat) (fabric : Bool) : Dev :=
  d.each (List.range 8) (fun d v =>
    let r := d.resCells v
    let t := if fabric ∧ 1 ≤ v ∧ v ≤ 6 then d.detCells else 0
    d.setLv (lvKey lane v) { resCap := r, detCap := t, nGrant := 4 * r, dGrant := 4 * t })

/-- Internal source `i` comes up: 0 the Prompter, 1 Bolt memory, 2–5 the Looms. Its reserves take the widths of WRD_RES
(R101, R103). -/
def Dev.openSource (d : Dev) (i : Nat) : Dev :=
  d.each (List.range 8) (fun d v => d.modLv (lvKey (1024 + i) v) (fun x => { x with resCap := d.resCells v }))

/-- A production is at or above its quota (R104). -/
def Dev.overQuota (d : Dev) (prod : Nat) : Bool :=
  d.flag F.WRD_PROD_QUOTA_EN prod && decide (d.fld F.WRD_PROD_QUOTA prod ≤ d.fld F.WRD_PROD_USED prod)

/-- Adds to a production's USED. -/
def Dev.addUsed (d : Dev) (prod n : Nat) : Dev := d.setFld F.WRD_PROD_USED prod (d.fld F.WRD_PROD_USED prod + n)

/-- Takes from a production's USED. -/
def Dev.subUsed (d : Dev) (prod n : Nat) : Dev := d.setFld F.WRD_PROD_USED prod (d.fld F.WRD_PROD_USED prod - n)

/-- A new buffer. -/
def Dev.addBuf (d : Dev) (b : Buf) : Nat × Dev :=
  (d.net.nextId, { d with net := { d.net with bufs := d.net.bufs.put d.net.nextId b, nextId := d.net.nextId + 1 } })

/-! ## The collective pool (R102, R115, R199) -/

def Dev.loom (d : Dev) (k : Nat) : Loom := d.looms.get {} k

/-- A field of an image: `n` bytes at offset `off` (R194). -/
def Image.nat (i : Image) (off n : Nat) : Nat := bytesAt i.bytes off n
/-- CELLS of an image (R194). -/
def Image.cells (i : Image) : Nat := i.nat 28 4

/-- Resident images of a Loom. -/
def Loom.imgs (x : Loom) : List Image := x.images.map (·.2)

/-- A production's reservation: the largest total of any of its sets (R199). -/
def reserved (l : List Image) (prod : Nat) (f : Image → Nat) : Nat :=
  (List.range 16).foldl (fun a s => max a ((l.filter (fun i => i.prod == prod && i.set == s)).foldl (fun b i => b + f i) 0)) 0

/-- Cells of the collective pool that packets of a production from Loom k hold. -/
def Dev.collHeld (d : Dev) (k prod : Nat) : Nat :=
  d.net.bufs.foldl (fun a x => if x.2.pool = .coll ∧ x.2.lv / 8 = 1026 + k ∧ x.2.prod = some prod then a + x.2.cells else a) 0

/-- The reservation made at admission has room for `n` more cells; one that holds none takes a packet of any size. -/
def Dev.collRoom (d : Dev) (k prod n : Nat) : Bool :=
  let h := d.collHeld k prod
  h == 0 || decide (h + n ≤ reserved (d.loom k).imgs prod Image.cells)

/-- A packet's buffer waits for the collective pool. -/
def Dev.collWaits (d : Dev) (p : Pkt) : Bool := match d.net.bufs.find p.buf with | some b => b.pool == .collDue | none => false

/-- A buffer that waits for the collective pool takes its cells there, where the reservation has room. -/
def Dev.chargeColl (d : Dev) (id : Nat) : Option Dev :=
  match d.net.bufs.find id with
  | none => some d
  | some b =>
    if b.pool ≠ .collDue then some d
    else if d.collRoom (b.lv / 8 - 1026) (b.prod.getD 0) b.cells then
      some { d with net := { d.net with bufs := d.net.bufs.put id { b with pool := .coll } } }
    else none

/-- Charges an arriving packet's cells: to the detour reserve when it came on detour credit, to the lane-VL's reserve
when that has room for the whole packet, to shared cells otherwise (R102, R104). Cells of either of the last two that a
production over its quota takes stop further shared-backed credit while they are held (R104 step 3). -/
def Dev.chargeLane (d : Dev) (k : Nat) (onDetour : Bool) (p : Pkt) : Nat × Dev :=
  let n := p.cells
  let x := d.lv k
  if onDetour then
    (d.setLv k { x with detUsed := x.detUsed + n }).addBuf ⟨k, .detour, n, none, false, 1⟩
  else if x.resUsed + n ≤ x.resCap then
    let o := d.overQuota p.prod
    (d.setLv k { x with resUsed := x.resUsed + n, overQ := x.overQ + (if o then n else 0) }).addBuf ⟨k, .reserve, n, none, o, 1⟩
  else
    let o := d.overQuota p.prod
    let d1 := d.setLv k { x with shHeld := x.shHeld + n, shProm := x.shProm - n, overQ := x.overQ + (if o then n else 0) }
    let d2 := (d1.addUsed p.prod n).when o (fun d => d.countWrd C.QUOTA_OVER)
    d2.addBuf ⟨k, .shared, n, some p.prod, o, 1⟩

/-- Charges a packet of an internal source: to its reserve, else to shared cells within the quota rule and the share that
R102 gives a lane-VL (R101, R104; DESIGN CHOICE, log entry 248: the share of an internal source is not stated); none where it
must wait. -/
def Dev.chargeSource (d : Dev) (k : Nat) (p : Pkt) : Option (Nat × Dev) :=
  let n := p.cells
  let x := d.lv k
  let o := d.overQuota p.prod
  if x.resUsed + n ≤ x.resCap then
    some ((d.setLv k { x with resUsed := x.resUsed + n, overQ := x.overQ + (if o then n else 0) }).addBuf ⟨k, .reserve, n, none, o, 1⟩)
  else if x.overQ = 0 ∧ x.shHeld + n ≤ d.shareLimit then
    let d1 := d.setLv k { x with shHeld := x.shHeld + n, overQ := if o then n else 0 }
    some (((d1.addUsed p.prod n).when o (fun d => d.countWrd C.QUOTA_OVER)).addBuf ⟨k, .shared, n, some p.prod, o, 1⟩)
  else none

/-- Charges cells to the shared pool without a lane-VL account (border queues, R98); over quota it is counted (R104). -/
def Dev.chargeCommon (d : Dev) (n prod : Nat) : Nat × Dev :=
  ((d.addUsed prod n).when (d.overQuota prod) (fun d => d.countWrd C.QUOTA_OVER)).addBuf ⟨0, .common, n, some prod, false, 1⟩

/-- `n` cells of a buffer are free: they and their credit return to the pool that backed them (R102, R107), while the seam
link of the lane's Wing does not repair itself (R31). -/
def Dev.returnCells (d : Dev) (b : Buf) (n : Nat) : Dev :=
  let d := if b.pool = .coll ∨ b.pool = .collDue then d else d.whenSome b.prod (fun q d => d.subUsed q n)
  let x := d.lv b.lv
  match b.pool with
  | .reserve => (d.setLv b.lv { x with resUsed := x.resUsed - n, overQ := x.overQ - (if b.overQ then n else 0), resOwed := if b.lv < 8192 then x.resOwed + n else 0 }).grant b.lv
  | .detour => (d.setLv b.lv { x with detUsed := x.detUsed - n, detOwed := x.detOwed + n }).grant b.lv
  | .shared => (d.setLv b.lv { x with shHeld := x.shHeld - n, overQ := x.overQ - (if b.overQ then n else 0) }).grant b.lv
  | .coll => d
  | .collDue => d
  | .common => d

/-- Frees one reference of a buffer; the last one returns its cells (R99). -/
def Dev.freeBuf (d : Dev) (id : Nat) : Dev :=
  match d.net.bufs.find id with
  | none => d
  | some b =>
    if 1 < b.refs then { d with net := { d.net with bufs := d.net.bufs.put id { b with refs := b.refs - 1 } } }
    else ({ d with net := { d.net with bufs := d.net.bufs.erase id } } : Dev).returnCells b b.cells

/-- Cells of a buffer that some packet in it has not read whole. -/
def Dev.cellsNeeded (d : Dev) (id : Nat) : Nat :=
  d.net.pkts.foldl (fun a p => if p.buf = id then max a p.cellsHeld else a) 0

/-- Frees the cells of a buffer whose last flit every packet in it has read (R99, R107). -/
def Dev.trimBuf (d : Dev) (id : Nat) : Dev :=
  match d.net.bufs.find id with
  | none => d
  | some b =>
    if d.cellsNeeded id < b.cells then
      ({ d with net := { d.net with bufs := d.net.bufs.put id { b with cells := d.cellsNeeded id } } } : Dev).returnCells b
        (b.cells - d.cellsNeeded id)
    else d

/-- A lane that no longer receives a packet: what still comes of it is dropped as it arrives. -/
def Lane.forget (id : Nat) (x : Lane) : Lane :=
  if x.rxLow = some id then { x with rxLow := none, dropLow := true }
  else if x.rxHigh = some id then { x with rxHigh := none, dropHigh := true } else x

/-- No lane receives the packet any more. -/
def Dev.forgetRx (d : Dev) (id : Nat) : Dev :=
  { d with net := { d.net with lanes := d.net.lanes.map (fun (x : Nat × Lane) => (x.1, x.2.forget id)) } }

/-- A packet leaves the device or is discarded: its cells are freed, and what still arrives of it is dropped. -/
def Dev.endPkt (d : Dev) (id : Nat) : Dev :=
  match d.pkt id with
  | none => d
  | some p => (((d.freeBuf p.buf).dropPkt id).trimBuf p.buf).forgetRx id

/-- A lane goes down: its reserves return, and what it holds stays in shared cells until it is freed (R101). -/
def Dev.closeCredit (d : Dev) (lane : Nat) : Dev :=
  let mine (b : Buf) : Bool := b.lv / 8 == lane
  let bufs := d.net.bufs.map (fun x => if mine x.2 && x.2.pool != .common && x.2.pool != .coll && x.2.pool != .collDue
    then (x.1, { x.2 with pool := .common }) else x)
  let d := { d with net := { d.net with bufs := bufs } }
  d.each (List.range 8) (fun d v => d.setLv (lvKey lane v) {})

/-- A packet as the device's own, put in the outbox. -/
def Dev.send (d : Dev) (p : Pkt) : Dev := { d with net := { d.net with outbox := d.net.outbox ++ [p] } }

/-- The next order stamp. -/
def Dev.stamp (d : Dev) : Nat × Dev := (d.net.nextStamp, { d with net := { d.net with nextStamp := d.net.nextStamp + 1 } })

/-- Puts a packet at the end of a place's order. -/
def Dev.moveTo (d : Dev) (id : Nat) (pl : Place) : Dev :=
  let (n, d) := d.stamp
  d.modPkt id (fun p => { p with place := pl, stamp := n })

/-- Cells in an egress queue: those of every packet queued there or held for it (R108, R111). -/
def Dev.depth (d : Dev) (lane q : Nat) : Nat :=
  d.net.pkts.foldl (fun a p =>
    if p.place = .queue lane q ∨ p.place = .held lane q ∨ p.place = .rsqWait lane q then a + p.cellsHeld else a) 0

/-- The mark of a queue of depth D cells on a port (R108). -/
def Dev.queueMark (d : Dev) (lane v depth : Nat) : Nat :=
  if v = 0 ∨ v = 7 then 0
  else if d.fld F.PRT_MARK_T2 lane < depth then 2
  else if d.fld F.PRT_MARK_T1 lane < depth then 1 else 0

/-- CM of a packet as it arrives; 3 counts as 2 (R41). -/
def Pkt.cmIn (p : Pkt) : Nat := if p.cm = 3 then 2 else p.cm

/-- Counts what a mark does to a packet as it joins a queue (R108, R339). -/
def Dev.countMark (d : Dev) (p : Pkt) (lane m : Nat) : Dev :=
  let d := if m = 1 then d.countPort lane C.MARK_T1 else if m = 2 then d.countPort lane C.MARK_T2 else d
  if p.cmIn < m then d.countEv (16 + lane) 4 1 p.ctx else d

/-- CM of a packet as it is charged: 0b10 where its production is at or above its quota (R104). -/
def Dev.quotaMark (d : Dev) (p : Pkt) : Pkt := if d.overQuota p.prod then p.setHdr 28 27 2 else p

/-! ## Answers -/

/-- A completion or answer on VL2 made for a request, in the form of R59 and R214; source 0 is the Prompter, 1 Bolt
memory (R101). The ADDR is that of the request as held here, PAD says that no data follows, and XFER marks the
answer to a SWATCH_XFER (R210). -/
def answerReq (p : Pkt) (opc status src : Nat) : Pkt :=
  { id := 0, hdr := mkHdr p.src p.dst p.prod p.gen opc 0 p.tc, rw := BitVec.ofNat 32 (status * 2 ^ 20 + bit (opc == 0x21 && p.opc == 0x16) * 2 ^ 16 + 12),
    vl := 2, pay := mkPay [(4, 2, p.at 4 2), (8, 8, p.at 8 8)], inl := 1024 + src, own := true }

/-- A SEND.STATUS that answers a contribution or rows (R59, R143, R145). -/
def answerContrib (p : Pkt) (status reason count src : Nat) : Pkt :=
  { id := 0, hdr := mkHdr p.src p.dst p.prod p.gen 0x43 0 p.tc, rw := BitVec.ofNat 32 (status * 2 ^ 20 + 24),
    vl := 4,
    pay := mkPay [(4, 4, p.at 4 4), (8, 4, p.at 8 4 / 2 ^ 14 * 2 ^ 14 + (if p.opc = 0x30 then p.at 8 4 / 2 ^ 10 % 16 * 2 ^ 10 else 0) + reason),
      (12, 4, if p.opc = 0x30 then p.at 12 4 else 0), (16, 4, count)], inl := 1024 + src, own := true }

/-- A VL1 request. -/
def Pkt.isReq (p : Pkt) : Bool := p.vl == 1
/-- A contribution that a refusal answers: CONTRIB or A2A.ROWS on VL3. -/
def Pkt.isContrib (p : Pkt) : Bool := p.vl == 3 && (p.opc == 0x30 || p.opc == 0x31)

/-- A packet of which only a request is answered: a request is completed with the status, anything else discarded by `drop`
(R45, R59). The packet itself ends. -/
def Dev.refuseReq (d : Dev) (p : Pkt) (status : Nat) (drop : Dev → Dev) : Dev :=
  (if p.isReq then ((d.send (answerReq p 0x21 status 0)).countEv 3 10 1 p.ctx).countDrop p else drop d).endPkt p.id

/-- Refuses a packet with a status: a request is completed, a contribution answered, anything else discarded by `drop`
(R57, R76, R126). The packet itself ends. -/
def Dev.refuse (d : Dev) (p : Pkt) (status : Nat) (drop : Dev → Dev) : Dev :=
  let d := if p.isReq then ((d.send (answerReq p 0x21 status 0)).countEv 3 10 1 p.ctx).countDrop p
    else if p.isContrib then (d.send (answerContrib p status 0 0 0)).countDrop p
    else drop d
  d.endPkt p.id

/-! ## Generations (R57) -/

/-- The refusal of R57 at a check point: STRUCK where no generation is live, GEN_STALE where another is. -/
def Dev.genCheck (d : Dev) (p : Pkt) : Option Nat :=
  if d.fld F.GLB_PROD_STATE p.prod ≠ 1 then some St.STRUCK
  else if d.fld F.GLB_PROD_GEN p.prod ≠ p.gen then some St.GEN_STALE else none

/-- Counts a GEN_STALE refusal as ahead or behind (R57, R339). -/
def Dev.countStale (d : Dev) (p : Pkt) : Dev :=
  if newer p.gen (d.fld F.GLB_PROD_GEN p.prod) 8 then
    if p.internal then d.countGlb C.GEN_AHEAD_INT else d.countPort p.inl C.GEN_AHEAD
  else if p.internal then d.countGlb C.GEN_BEHIND_INT else d.countPort p.inl C.GEN_BEHIND

/-- Refuses a packet at a generation check point (R57). -/
def Dev.refuseGen (d : Dev) (p : Pkt) (st : Nat) : Dev :=
  let d := if st = St.GEN_STALE then d.countStale p else d
  d.refuse p st (fun d => if st = St.STRUCK then d.discardAs p C.NO_LIVE_GEN else d.countDrop p)

end Sys2Proof.Machine
end

