-- ==== Sys2Proof/Machine/Rsq.lean ====
section
/-! DEFINITION. The terminal resequencer and the terminal's memory accounting (R109 to R113, R216 to R219). -/

namespace Sys2Proof.Machine

/-- The lane number that stands for the entry to Bolt memory. -/
def boltLane : Nat := 1025

/-- Key of a resequencing context: VL6 is keyed as VL5, packets with and without PSN apart (R109, R218). -/
structure CtxKey where
  src : BitVec 32
  dst : BitVec 32
  vl : Nat
  pv : Bool
  deriving DecidableEq, Repr

def Ctx.ckey (c : Ctx) : CtxKey := ⟨c.src, c.dst, c.vl, c.pv⟩
def Pkt.ckey (p : Pkt) : CtxKey := ⟨p.src, p.dst, if p.vl = 6 then 5 else p.vl, p.psnValid⟩

def Dev.ctx (d : Dev) (k : CtxKey) : Option Ctx := d.net.ctxs.find? (fun c => c.ckey == k)
def Dev.setCtxs (d : Dev) (l : List Ctx) : Dev := { d with net := { d.net with ctxs := l } }
def Dev.modCtx (d : Dev) (k : CtxKey) (f : Ctx → Ctx) : Dev :=
  d.setCtxs (d.net.ctxs.map (fun c => if c.ckey = k then f c else c))

/-- Updates WRD_RSQ_STAT from the number of contexts in use. What was in use right after a read counts in HIGH too. -/
def Dev.noteCtxs (d : Dev) : Dev :=
  let n := d.net.ctxs.length
  (d.setFld F.WRD_RSQ_STAT_IN_USE 0 n).setFld F.WRD_RSQ_STAT_HIGH 0 (max n (max (d.fld F.WRD_RSQ_STAT_IN_USE 0) (d.fld F.WRD_RSQ_STAT_HIGH 0)))

def Dev.addCtx (d : Dev) (c : Ctx) : Dev := (d.setCtxs (d.net.ctxs ++ [c])).noteCtxs
def Dev.dropCtx (d : Dev) (k : CtxKey) : Dev := (d.setCtxs (d.net.ctxs.filter (fun c => c.ckey ≠ k))).noteCtxs

/-- A packet stands in a resequencing window. -/
def Pkt.isHeld (p : Pkt) : Bool := match p.place with | .held _ _ => true | _ => false

/-- The packets held in a context's window. -/
def Dev.heldOf (d : Dev) (k : CtxKey) : List Pkt := d.net.pkts.filter (fun p => p.isHeld && p.ckey == k)

/-- The egress queue of a packet: its VL's detour sideline with DETOUR 1, else queue 8 × VL + TC (R114, R119). -/
def Pkt.qIdx (p : Pkt) : Nat := if p.detour && decide (1 ≤ p.vl ∧ p.vl ≤ 6) then 64 + p.vl else 8 * p.vl + p.tc

/-! ## Flows and the ledger (R218) -/

def Dev.flow (d : Dev) (src dst : BitVec 32) : Flow :=
  (d.net.flows.find? (fun f => f.src == src && f.dst == dst)).getD { src := src, dst := dst }

def Dev.setFlow (d : Dev) (f : Flow) : Dev :=
  { d with net := { d.net with flows := d.net.flows.filter (fun g => !(g.src == f.src && g.dst == f.dst)) ++ [f] } }

/-- Raises ERR_A, and ERR_W where the request was a writing one, to the higher status (R218). -/
def Dev.raiseErr (d : Dev) (src dst : BitVec 32) (st : Nat) (w : Bool) : Dev :=
  let f := d.flow src dst
  if st = St.OK then d
  else d.setFlow { f with errA := St.join f.errA st, errW := if w then St.join f.errW st else f.errW }

/-- Writing requests: WRITE, WRITE.FLAG, ATOMIC, REDUCE.WRITE (R218). -/
def writingOpc (o : Nat) : Bool := decide (0x11 ≤ o ∧ o ≤ 0x14)

/-- MEM_LEDGER.IN_USE and HIGH. What was in use right after a read counts in HIGH too. -/
def Dev.noteLedger (d : Dev) : Dev :=
  let n := d.net.ledger.length
  (d.setFld F.MEM_LEDGER_IN_USE 0 n).setFld F.MEM_LEDGER_HIGH 0 (max n (max (d.fld F.MEM_LEDGER_IN_USE 0) (d.fld F.MEM_LEDGER_HIGH 0)))

/-- Records a delivered request in the ledger and in its flow's OUT counts. -/
def Dev.ledgerAdd (d : Dev) (p : Pkt) : Dev :=
  let w := writingOpc p.opc
  let f := d.flow p.src p.dst
  let d := d.setFlow { f with outA := f.outA + 1, outW := f.outW + bit w }
  ({ d with net := { d.net with ledger := d.net.ledger ++ [Led.mk p.src p.dst (p.at 4 2) w p.prod p.gen p.tc (p.at 8 8) p.ctx] } }).noteLedger

/-- The ledger entry of a request. -/
def Dev.ledgerFind (d : Dev) (src dst : BitVec 32) (tag : Nat) : Option Led :=
  d.net.ledger.find? (fun l => l.src == src && l.dst == dst && l.tag == tag)

/-- Removes the first element equal to one. -/
def eraseOne {α : Type} [DecidableEq α] : List α → α → List α
  | [], _ => []
  | a :: l, x => if a = x then l else a :: eraseOne l x

/-- Retires a ledger entry. -/
def Dev.ledgerDrop (d : Dev) (l : Led) : Dev :=
  let f := d.flow l.src l.dst
  let d := d.setFlow { f with outA := f.outA - 1, outW := f.outW - bit l.writing }
  ({ d with net := { d.net with ledger := eraseOne d.net.ledger l } }).noteLedger

/-- A target is refusing for a production (R226, from the 2 µs step on). -/
def Dev.deadFor (d : Dev) (dst : BitVec 32) (prod : Nat) : Bool :=
  d.net.deads.any (fun x => x.ca == bitsOf dst 31 8 && x.prod == prod && decide (1 ≤ x.phase))

/-- Counts a poisoned request of a production (R226). -/
def Dev.countPoison (d : Dev) (dst : BitVec 32) (prod : Nat) : Dev :=
  { d with net := { d.net with deads := d.net.deads.map (fun x =>
      if x.ca = bitsOf dst 31 8 ∧ x.prod = prod then { x with poisoned := x.poisoned + 1 } else x) } }

/-- Completes a request on its target's behalf: from the Prompter, or from Bolt memory for its own flows (R101). -/
def Dev.completeReq (d : Dev) (p : Pkt) (st lane : Nat) : Dev :=
  let d := d.send (answerReq p 0x21 st (if lane = boltLane then 1 else 0))
  ((if st = St.OK then d else d.countEv 3 10 1 p.ctx)).endPkt p.id

/-- The lane at whose egress a packet is held; `l` where it is not held yet. -/
def Pkt.rsqLane (p : Pkt) (l : Nat) : Nat :=
  match p.place with
  | .held x _ => x
  | .rsqWait x _ => x
  | _ => l

/-- A lane's egress keeps queued packets: ROLL_CALL, UP, MISCAST and QUARANTINED (R250, R349). -/
def Dev.laneLive (d : Dev) (l : Nat) : Bool :=
  let st := d.fld F.PRT_LINK_STAT_STATE l
  decide (2 ≤ st ∧ st ≤ 5)

/-- A packet leaves the resequencer: to its egress queue, or to Bolt memory. A lane out of service keeps none (R349). -/
def Dev.letGo (d : Dev) (p : Pkt) (lane : Nat) : Dev :=
  if lane = boltLane then d.moveTo p.id (.atFn 1)
  else if d.laneLive lane then d.moveTo p.id (.queue lane p.qIdx)
  else (d.discardOther p).endPkt p.id

/-- The memory ledger has no free entry (R218). -/
def Dev.ledgerFull (d : Dev) : Bool := decide (1048576 ≤ d.net.ledger.length)

/-- A request at NEXT waits for room in the ledger, and for nothing else (R218). -/
def Dev.waitsLedger (d : Dev) (p : Pkt) : Bool :=
  p.vl == 1 && d.ledgerFull && !(p.opc == 0x15 || p.opc == 0x16 || (p.opc == 0x12 && (d.flow p.src p.dst).outW != 0))

/-- Delivers the packet at NEXT, if nothing holds it (R111, R112, R218, R226); Bolt memory refuses a SWATCH_XFER with HOUSE
set (R223). -/
def Dev.deliver1 (d : Dev) (c : Ctx) (p : Pkt) : Option Dev :=
  let lane := p.rsqLane c.lane
  if p.vl = 1 then
    let f := d.flow p.src p.dst
    if d.deadFor p.dst p.prod then some ((d.countPoison p.dst p.prod).completeReq p St.POISON lane)
    else if lane = boltLane ∧ p.opc = 0x16 ∧ bitOf p.rw 18 then
      some ((d.raiseErr p.src p.dst St.DENIED false).completeReq p St.DENIED lane)
    else if p.bad then
      some (if p.psnValid then (d.raiseErr p.src p.dst St.TIMEOUT (writingOpc p.opc)).completeReq p St.TIMEOUT lane
        else (d.discardOther p).endPkt p.id)
    else if p.opc = 0x15 then none
    else if p.opc = 0x16 then
      if f.outA = 0 then some ((d.setFlow { f with errW := 0, errA := 0 }).completeReq p f.errA lane) else none
    else if p.opc = 0x12 ∧ f.outW ≠ 0 then none
    else if p.opc = 0x12 ∧ f.errW ≠ 0 then
      some ((d.setFlow { f with errW := 0 }).completeReq p f.errW lane)
    else if d.ledgerFull then none
    else some ((d.ledgerAdd p).letGo p lane)
  else if p.vl = 2 ∧ p.bad then some ((d.discardOther p).endPkt p.id)
  else some (d.letGo p lane)

/-- Delivers from NEXT on, while slots are filled and nothing holds (R111); a context that learns delivers nothing (R110).
The gap timer runs while NEXT's slot is empty and a packet is held (R112, R219). -/
def Dev.advance : Nat → Dev → CtxKey → Dev
  | 0, d, _ => d
  | n + 1, d, k =>
    match d.ctx k with
    | none => d
    | some c =>
      if c.learning then d
      else match (d.heldOf k).find? (fun p => p.rsqNo == c.next) with
      | none => d.modCtx k (fun c => { c with hold := none, full := false, gapOn := !(d.heldOf k).isEmpty })
      | some p =>
        match d.deliver1 c p with
        | some d' => (d'.modCtx k (fun c => { c with next := (c.next + 1) % 2 ^ 24, hold := none, full := false, gapOn := false })).advance n k
        | none =>
          let stalled := d.waitsLedger p
          let d := if stalled ∧ !(c.full && c.hold == some p.id) then
              (d.countMem C.LEDGER_STALL).noticeLim N.LEDGER_FULL Src.memory 0
                ((if p.rsqLane c.lane = boltLane then 2 ^ 58 + 2 ^ 48 else laneData (p.rsqLane c.lane)) + d.net.ledger.length % 2 ^ 21) 0
            else d
          d.modCtx k (fun c => { c with hold := some p.id, full := stalled, gapOn := false })

/-- Delivery from NEXT on, over every held packet. -/
def Dev.runCtx (d : Dev) (k : CtxKey) : Dev := d.advance ((d.heldOf k).length + 1) k

/-- The held packet nearest after NEXT. -/
def Dev.lowestHeld (d : Dev) (c : Ctx) : Option Pkt :=
  (d.heldOf c.ckey).foldl (fun o p =>
    match o with
    | none => some p
    | some q => if delta p.rsqNo c.next 24 < delta q.rsqNo c.next 24 then some p else some q) none

/-- The GAP_REPORT of a bulk flow (R52). -/
def Dev.gapPkt (d : Dev) (p : Pkt) (first count : Nat) : Pkt :=
  { id := 0, hdr := mkHdr p.dst p.src p.prod p.gen 0x02 0 p.tc, rw := BitVec.ofNat 32 (16 * 2 ^ 24),
    vl := p.vl, pay := mkPay [(4, 4, first), (8, 4, count), (12, 4, d.timeNs)], inl := 1024, own := true }

/-- A packet of the device's own joins a place at the end of its order, under a new name. -/
def Dev.pushPkt (d : Dev) (g : Pkt) (pl : Place) : Dev :=
  { d with net := { d.net with pkts := d.net.pkts ++ [{ g with id := d.net.nextId, stamp := d.net.nextStamp, place := pl, frcIn := d.tmu.frc }],
                               nextId := d.net.nextId + 1, nextStamp := d.net.nextStamp + 1 } }

/-- GAP_REPORT for a bulk flow released past a gap, put ahead of packet `p` and marked as it joins the queue (R52, R108,
R112). It takes the Prompter's cells (R101): none while the Prompter has no room for it. -/
def Dev.gapReport (d : Dev) (c : Ctx) (p : Pkt) (first count : Nat) : Option Dev :=
  let l := p.rsqLane c.lane
  if !d.laneLive l then some d
  else
    let g := d.quotaMark (d.gapPkt p first count)
    (d.chargeSource (lvKey 1024 g.vl) g).map fun x =>
      let m := x.2.queueMark l g.vl (x.2.depth l p.qIdx + g.cells)
      (x.2.countMark g l m).pushPkt { g.setHdr 28 27 (max g.cmIn m) with buf := x.1 } (.queue l p.qIdx)

/-- The treatment of PSNs skipped by a gap expiry (R112, R218): none while a GAP_REPORT has to wait for its cells. -/
def Dev.skipGap (d : Dev) (c : Ctx) (p : Pkt) (n : Nat) : Option Dev :=
  if c.vl = 5 then d.gapReport c p c.next n
  else
    let d := d.count 2 C.RSQ_GAP n
    some (if c.vl = 1 then d.raiseErr c.src c.dst St.TIMEOUT true else d)

/-- The PSNs from NEXT up to a held packet are skipped, if there are any. -/
def Dev.skipTo (d : Dev) (c : Ctx) (p : Pkt) : Option Dev :=
  if delta p.rsqNo c.next 24 = 0 then some d else d.skipGap c p (delta p.rsqNo c.next 24)

/-- NEXT moves to a held packet, and delivery goes on; nothing happens while a GAP_REPORT has to wait (R112). -/
def Dev.moveGap (d : Dev) (k : CtxKey) (c : Ctx) (p : Pkt) : Dev :=
  d.whenSome (d.skipTo c p) fun x _ => (x.modCtx k (fun c => { c with next := p.rsqNo })).runCtx k

/-- What the gap timer's expiry does to a context, by its lowest held packet (R112). -/
def Dev.passGap (d : Dev) (k : CtxKey) (c : Ctx) : Option Pkt → Dev
  | none => d.modCtx k (fun c => { c with gapOn := false })
  | some p => d.moveGap k c p

/-- The gap timer's expiry: NEXT moves to the lowest held PSN, and delivery goes on (R112). -/
def Dev.expireGap (d : Dev) (k : CtxKey) : Dev := d.whenSome (d.ctx k) fun c d => d.passGap k c (d.lowestHeld c)

/-- A late packet or a duplicate, by the flow's VL (R112); one to a dead target is POISON, which stands before TIMEOUT
(R61, R226). -/
def Dev.lateOrDup (d : Dev) (c : Ctx) (p : Pkt) : Dev :=
  if c.vl = 1 then
    if d.deadFor p.dst p.prod then (d.countPoison p.dst p.prod).completeReq p St.POISON c.lane else d.completeReq p St.TIMEOUT c.lane
  else if c.vl = 2 then d.letGo p c.lane
  else d.endPkt p.id

/-- Gap expiries until NEXT is past PSN `upTo`, for an overrun by packet `a` (R111). -/
def Dev.overrunTo : Nat → Dev → CtxKey → Pkt → Nat → Dev
  | 0, d, _, _, _ => d
  | n + 1, d, k, a, upTo =>
    match d.ctx k with
    | none => d
    | some c =>
      if c.hold.isSome then d
      else if 2 ^ 23 ≤ delta upTo c.next 24 then d
      else
        match d.lowestHeld c with
        | some p =>
          if delta p.rsqNo c.next 24 ≤ delta upTo c.next 24 then (d.expireGap k).overrunTo n k a upTo
          else d.whenSome (d.skipGap c p (delta upTo c.next 24 + 1)) (fun d' _ => d'.modCtx k (fun c => { c with next := (upTo + 1) % 2 ^ 24 }))
        | none => d.whenSome (d.skipGap c a (delta upTo c.next 24 + 1)) (fun d' _ => d'.modCtx k (fun c => { c with next := (upTo + 1) % 2 ^ 24 }))

/-- Places a packet of an existing context by d = delta(p, NEXT, 24) (R111, R219). -/
def Dev.rsqFeed (d : Dev) (c : Ctx) (p : Pkt) (lane q : Nat) : Dev :=
  let k := c.ckey
  let dl := delta p.rsqNo c.next 24
  let dup := (d.heldOf k).any (fun h => h.rsqNo == p.rsqNo)
  let hold (d : Dev) : Dev := d.modPkt p.id (fun x => { x with place := .held lane q })
  if dl < 4096 then
    if dup then (d.countWrd C.RSQ_DUP).lateOrDup { c with lane := lane } p
    else if dl = 0 then (hold d).runCtx k
    else (hold d).modCtx k (fun c => { c with gapOn := c.gapOn || c.hold.isNone })
  else if dl < 2 ^ 23 then
    if c.hold.isSome then d.moveTo p.id (.rsqWait lane q)
    else
      let d := (if p.overrun then d else (d.modPkt p.id (fun x => { x with overrun := true })).countWrd C.RSQ_OVERRUN).overrunTo ((d.heldOf k).length + 1) k { p with place := .rsqWait lane q } ((p.rsqNo + 2 ^ 24 - 4096) % 2 ^ 24)
      match d.ctx k with
      | none => d
      | some c' =>
        if 4096 ≤ delta p.rsqNo c'.next 24 then d.moveTo p.id (.rsqWait lane q)
        else (hold d).runCtx k
  else (d.countWrd C.RSQ_LATE).lateOrDup { c with lane := lane } p

/-- A packet's number in a context: its PSN, or the next in order of arrival, or the one it has taken (R109, R218). -/
def Pkt.rsqNumber (p : Pkt) (c : Ctx) : Nat := if p.psnValid then p.psn else if p.numbered then p.rsqNo else c.arr

/-- The packet takes its number in a context, once. -/
def Dev.rsqNumber (d : Dev) (c : Ctx) (p : Pkt) : Dev :=
  let d' := d.modPkt p.id (fun x => { x with rsqNo := p.rsqNumber c, numbered := true })
  if p.psnValid ∨ p.numbered then d' else d'.modCtx p.ckey (fun c => { c with arr := (c.arr + 1) % 2 ^ 24 })

/-- A packet opens a context: learning, or at NEXT (R110). -/
def Dev.rsqOpen (d : Dev) (p : Pkt) (lane q : Nat) : Dev :=
  let no := if p.psnValid then p.psn else 0
  let learn := d.fld F.WRD_RSQ_CTL_LEARN 0 != 0
  let d := (d.addCtx { src := p.src, dst := p.dst, vl := p.ckey.vl, pv := p.ckey.pv, lane := lane, next := no, learning := learn,
                       gapOn := false, arr := 1, hold := none }).modPkt p.id
    (fun x => { x with rsqNo := no, numbered := true, place := .held lane q })
  if learn then d else d.runCtx p.ckey

/-- A packet joins a context: held while it learns, else placed by its number. -/
def Dev.rsqJoin (d : Dev) (c : Ctx) (p : Pkt) (lane q : Nat) : Dev :=
  let d := d.rsqNumber c p
  if c.learning then d.modPkt p.id (fun x => { x with place := .held lane q })
  else d.rsqFeed c { p with rsqNo := p.rsqNumber c } lane q

/-- Learning ends: NEXT is set, and every packet held is placed as R111 says (R110). -/
def Dev.rsqLearned (d : Dev) (k : CtxKey) (next : Nat) : Dev :=
  let hs := d.heldOf k
  let d := d.modCtx k (fun c => { c with learning := false, next := next })
  let d := d.each hs (fun d p => d.modPkt p.id (fun x => { x with place := .ingress }))
  d.each hs (fun d p =>
    match d.ctx k, p.place with
    | some c, .held l q => d.rsqFeed c p l q
    | _, _ => d)

/-- A packet reaches its terminal: it takes or joins a context, or waits for one (R109, R110, R218). -/
def Dev.rsqPlace (d : Dev) (id lane q : Nat) : Dev :=
  match d.pkt id with
  | none => d
  | some p =>
    match d.ctx p.ckey with
    | some c => d.rsqJoin c p lane q
    | none =>
      if 32768 ≤ d.net.ctxs.length then
        ((d.countWrd C.RSQ_STALL).noticeLim N.RSQ_FULL Src.core 0 (laneData lane + 32768) 0).moveTo id (.rsqWait lane q)
      else d.rsqOpen p lane q

/-- Packets that wait at the head of their egress queue for a context or the end of a hold try again (R109, R219). -/
def Dev.rsqRetry (d : Dev) : Dev :=
  d.each (d.net.pkts.filterMap (fun p => match p.place with | .rsqWait l q => some (p.id, l, q) | _ => none))
    (fun d x =>
      match d.pkt x.1 with
      | none => d
      | some p =>
        match d.ctx p.ckey with
        | some c => if c.hold.isSome && decide (4096 ≤ delta (p.rsqNumber c) c.next 24) then d else d.rsqPlace x.1 x.2.1 x.2.2
        | none => if d.net.ctxs.length < 32768 then d.rsqPlace x.1 x.2.1 x.2.2 else d)

/-- Every context whose request waits for room in the ledger tries again (R218). -/
def Dev.retryFull (d : Dev) : Dev :=
  if d.ledgerFull then d else d.each (d.net.ctxs.filter (fun c => c.full)) (fun d c => d.runCtx c.ckey)

/-- Every context of a flow tries its held request again, and those that wait for the ledger (R218). -/
def Dev.retryFlow (d : Dev) (src dst : BitVec 32) : Dev :=
  (((d.runCtx ⟨src, dst, 1, true⟩).runCtx ⟨src, dst, 1, false⟩).retryFull).rsqRetry

end Sys2Proof.Machine
end

