-- ==== Sys2Proof/Machine/Route.lean ====
section
/-! DEFINITION. Route resolution, spraying and enqueueing (R62 to R76, R108, R114), and packets the device makes. -/

namespace Sys2Proof.Machine

/-! ## Table lookups (R79, R89) -/

/-- Storage key of an entry. -/
def tblKey (table idx : Nat) : Nat := table * 2 ^ 20 + idx

/-- An entry as stored, VALID or not listed. -/
def Dev.ent (d : Dev) (table idx : Nat) : Option (BitVec 512) := d.tab.ent.find (tblKey table idx)

/-- Offset in pair A's carve-out of the committed copy of an entry (R90, R223). -/
def copyOff (key : Nat) : Nat := 0x40000000 + 64 * (Config.copyUnit key % 2 ^ 22)

/-- An entry is written, and with it its committed copy on both stacks of pair A, which ends an error there (R35, R83, R90). -/
def Dev.setEnt (d : Dev) (table idx : Nat) (e : BitVec 512) : Dev :=
  let key := tblKey table idx
  let unit (m : Nat) : Nat := (m * 0x1200000000 + 0x1000000000 + copyOff key) / 64
  { d with ecc := d.ecc.filter (fun u => u ≠ unit 0 ∧ u ≠ unit 1),
           tab := { d.tab with ent := d.tab.ent.put key e, parity := d.tab.parity.filter (· ≠ key) } }

def Dev.dropEnt (d : Dev) (table idx : Nat) : Dev :=
  { d with tab := { d.tab with ent := d.tab.ent.erase (tblKey table idx),
                               parity := d.tab.parity.filter (· ≠ tblKey table idx) } }

/-- The entries of one table, as (index, words). -/
def Dev.entries (d : Dev) (table : Nat) : List (Nat × BitVec 512) :=
  d.tab.ent.filterMap (fun x => if x.1 / 2 ^ 20 = table then some (x.1 % 2 ^ 20, x.2) else none)

/-- DATAn [hi:lo] of an entry. -/
def dataOf (e : BitVec 512) (n hi lo : Nat) : Nat := bitsOf e (448 - 64 * n + hi) (448 - 64 * n + lo)

/-- An entry with DATAn [hi:lo] replaced. -/
def setData (e : BitVec 512) (n hi lo v : Nat) : BitVec 512 := setBits e (448 - 64 * n + hi) (448 - 64 * n + lo) v

/-- An entry has a parity error. -/
def Dev.badParity (d : Dev) (table idx : Nat) : Bool := d.tab.parity.contains (tblKey table idx)

/-- A lookup has met a parity error in an entry (R89). -/
def Dev.noteParity (d : Dev) (table idx : Nat) : Dev :=
  (d.countTbl C.TBL_PARITY).noticeLim N.TBL_PARITY Src.tables 0 (table * 2 ^ 60 + idx) (tblKey table idx)

/-- A lookup by index: an entry with a parity error counts as absent (R89). -/
def Dev.look (d : Dev) (table idx : Nat) : Option (BitVec 512) × Dev :=
  match d.ent table idx with
  | none => (none, d)
  | some e => if d.badParity table idx then (none, d.noteParity table idx) else (some e, d)

/-! ## The TCAM (R63, R84 to R87) -/

def tcamKey (e : BitVec 512) : Nat := e.toNat >>> 352
def tcamMask (e : BitVec 512) : Nat := (e.toNat >>> 160) % 2 ^ 160
def tcamAction (e : BitVec 512) : Nat := dataOf e 6 63 62
def tcamSet (e : BitVec 512) : Nat := dataOf e 6 11 0

/-- Length of a prefix mask of `w` bits. -/
def prefixLen (w m : Nat) : Nat := (List.range w).countP (fun i => m.testBit i)

/-- Address prefix length of an entry: DST_CA or IPv4 in [145:114], IPv6 in [145:18]. -/
def tcamPrefix (e : BitVec 512) : Nat :=
  if tcamKey e / 2 ^ 158 = 3 then prefixLen 128 (tcamMask e / 2 ^ 18 % 2 ^ 128)
  else prefixLen 32 (tcamMask e / 2 ^ 114 % 2 ^ 32)

/-- Order of R63 and R86: a longer prefix first, then a PROD or DOMAIN value before the wildcard. -/
def tcamRank (e : BitVec 512) : Nat := 2 * tcamPrefix e + (if tcamMask e / 2 ^ 146 % 4096 = 0 then 0 else 1)

/-- First slot above the coordinate partition (R84); each half of it in compatibility mode (R91). -/
def Dev.coordEnd (d : Dev) : Nat :=
  1024 + (if d.flag F.TBL_DMA_LOCK_COMPAT 0 then d.fld F.TBL_TCAM_PART_COORD_SLOTS 0 / 2 else d.fld F.TBL_TCAM_PART_COORD_SLOTS 0)

/-- The winning entry for a search key among slots `lo` to `hi` − 1 (R63, R86, R87): higher rank, then the higher region. -/
def Dev.tcamFind (d : Dev) (key lo hi : Nat) : Option (BitVec 512) × Dev :=
  let ms := (d.entries 0).filter (fun x => decide (lo ≤ x.1 ∧ x.1 < hi) && (key ^^^ tcamKey x.2) &&& tcamMask x.2 == 0)
  let d := d.each (ms.filter (fun x => d.badParity 0 x.1)) (fun d x => d.noteParity 0 x.1)
  let best := (ms.filter (fun x => !d.badParity 0 x.1)).foldl (fun o x =>
    match o with
    | none => some x
    | some y =>
      if tcamRank y.2 < tcamRank x.2 ∨ (tcamRank y.2 = tcamRank x.2 ∧ y.1 < 1024 ∧ 1024 ≤ x.1) then some x else some y) none
  (best.map (·.2), d)

/-- The coordinate lookup of R63: key {PROD, DST_CA}, over the provisional region and the coordinate partition. -/
def Dev.tcamCoord (d : Dev) (prod dst : Nat) : Option (BitVec 512) × Dev :=
  d.tcamFind (1 * 2 ^ 158 + prod * 2 ^ 146 + dst * 2 ^ 114) 0 d.coordEnd

/-! ## Arithmetic routing (R64) -/

def caHall (c : Nat) : Nat := c / 2 ^ 30 % 4
def caPod (c : Nat) : Nat := c / 2 ^ 23 % 128
def caRack (c : Nat) : Nat := c / 2 ^ 18 % 32

/-- The device's own CA (R17). -/
def Dev.ownCa (d : Dev) : Nat := d.fld F.TBL_ROUTE_CTL_OWN_CA 0

/-- Own CA with a function number. -/
def Dev.ownFn (d : Dev) (fn : Nat) : BitVec 32 := BitVec.ofNat 32 (d.ownCa / 256 * 256 + fn)

/-- The down-table index of a destination inside the cover (R64). -/
def Dev.downIndex (d : Dev) (dst : Nat) : Option Nat :=
  let o := d.ownCa
  match d.fld F.TBL_ROUTE_CTL_TIER 0 with
  | 1 => if dst / 2 ^ 18 = o / 2 ^ 18 then some (dst / 2 ^ 8 % 1024) else none
  | 2 => if dst / 2 ^ 23 = o / 2 ^ 23 then some (caRack dst) else none
  | 3 => if caHall dst = caHall o then some (caPod dst) else none
  | _ => none

/-- The up-table index of a destination outside the cover (R64). -/
def Dev.upIndex (d : Dev) (dst : Nat) : Nat :=
  if d.fld F.TBL_ROUTE_CTL_TIER 0 = 3 then 128
  else if caHall dst = caHall d.ownCa then caPod dst else 128

/-- The table numbers that stand for TBL_DOWN and TBL_UP in the DATA of TBL_PARITY: R79 gives them none (DESIGN CHOICE,
log 217). -/
def downTable : Nat := 6
def upTable : Nat := 7

/-- A route entry's set where it is VALID; one with a parity error counts as absent (R64, R89). -/
def Dev.routeEntry (d : Dev) (table n : Nat) (valid set : Fld) : Option Nat × Dev :=
  if !d.flag valid n then (none, d)
  else if d.badParity table n then (none, d.noteParity table n)
  else (some (d.fld set n), d)

/-- The spray set arithmetic gives (R64). -/
def Dev.arithmetic (d : Dev) (dst : Nat) : Option Nat × Dev :=
  if d.fld F.TBL_ROUTE_CTL_TIER 0 = 0 then (none, d)
  else match d.downIndex dst with
    | some n => d.routeEntry downTable n F.TBL_DOWN_VALID F.TBL_DOWN_SET
    | none => d.routeEntry upTable (d.upIndex dst) F.TBL_UP_VALID F.TBL_UP_SET

/-! ## Lanes of a spray set (R66 to R69) -/

/-- Type of a lane: PRT_LINK_CTL.TYPE, or the type before while a change waits for open packets (R250). -/
def Dev.ltype (d : Dev) (l : Nat) : Nat := (d.lane l).wasType.getD (d.fld F.PRT_LINK_CTL_TYPE l)
/-- PRT_LINK_STAT.STATE of a lane. -/
def Dev.lstate (d : Dev) (l : Nat) : Nat := d.fld F.PRT_LINK_STAT_STATE l
/-- WNG_LANE_STAT and WNG_LANE_CTL index of a lane. -/
def wngLane (l : Nat) : Nat := l / 64 * 65 + l % 64
/-- Direction of departure: 0 DOWN, 1 UP, 2 LATERAL; endpoint-facing lanes act as DOWN (R66). -/
def Dev.dir (d : Dev) (l : Nat) : Nat := if d.ltype l = 0 then 0 else d.fld F.PRT_ROUTE_DIR l

/-- A lane is in service for packets (R69, R251): UP, not fenced, the peer serving, not leaving service, and neither
parked nor draining. -/
def Dev.inService (d : Dev) (l : Nat) : Bool :=
  decide (l < d.nLanes) && d.lstate l == 3 && decide (d.ltype l ≤ 1) && !d.flag F.PRT_LINK_STAT_FENCED l
  && (d.lane l).peerServing && (d.lane l).exiting.isNone
  && d.fld F.WNG_LANE_STAT_OSTATE (wngLane l) != 2 && d.fld F.WNG_LANE_STAT_OSTATE (wngLane l) != 3

/-- How a packet arrived: 0 upward, 1 downward, 2 laterally, 3 generated on this device (R66, R97). -/
def Dev.arrival (d : Dev) (p : Pkt) : Nat :=
  if p.internal then 3 else if d.ltype p.inl = 2 then 0
  else match d.dir p.inl with | 0 => 0 | 1 => 1 | _ => 2

/-- Judgement of a departure on a lane (R66, R75): 0 forward, 1 a detour turn, 2 a second detour turn, 3 a violation. -/
def Dev.turn (d : Dev) (p : Pkt) (l : Nat) (detOk : Bool) : Nat :=
  let a := d.arrival p
  if a = 0 ∨ a = 3 ∨ d.dir l = 0 then 0
  else if d.dir l = 1 ∧ detOk then (if p.detour then 2 else 1)
  else 3

/-- Compatibility level a packet needs (R263). -/
def Pkt.level (p : Pkt) : Nat := if 0xC0 ≤ p.opc then 3 else if p.vl = 7 then 2 else 1

/-- Slot j of spray set s: FIRST_LANE and width, where VALID (R68). -/
def slotOf (e : BitVec 512) (j : Nat) : Option (Nat × Nat) :=
  let w := bitsOf e (511 - 16 * (j % 32)) (496 - 16 * (j % 32))
  if w / 2 ^ 15 = 1 then some (w % 1024, w / 2 ^ 11 % 16 + 1) else none

/-- The members of a set: slot and lanes. A row with a parity error is missing (R68, R89). -/
def Dev.members (d : Dev) (s : Nat) : List (Nat × List Nat) × Dev :=
  let (r0, d) := d.look 2 (2 * s)
  let (r1, d) := d.look 2 (2 * s + 1)
  ((List.range 64).filterMap (fun j =>
    match (if j < 32 then r0 else r1) with
    | none => none
    | some e => (slotOf e j).map (fun x => (j, (List.range x.2).map (x.1 + ·)))), d)

/-- Neighbour CA[31:8] of a lane from roll call. -/
def Dev.peerCa (d : Dev) (l : Nat) : Nat := d.fld F.PRT_PEER_CA l

/-- Reference lane of a member: its lowest lane whose state is UP (R69). -/
def Dev.refLane (d : Dev) (ls : List Nat) : Option Nat := ls.find? (fun l => d.lstate l == 3)

/-- A lane is eligible but for the turn rules (R67, R69, R263). -/
def Dev.baseEligible (d : Dev) (p : Pkt) (ref l : Nat) : Bool :=
  d.inService l && d.peerCa l == d.peerCa ref && decide (p.level ≤ d.fld F.PRT_PEER_LEVEL l)
  && !(!p.internal && d.ltype p.inl != 2 && d.peerCa p.inl == d.peerCa l)

/-- The eligible lanes of a member for a packet. -/
def Dev.eligibleLanes (d : Dev) (p : Pkt) (detOk : Bool) (ls : List Nat) : List Nat :=
  match d.refLane ls with
  | none => []
  | some r => ls.filter (fun l => d.baseEligible p r l && decide (d.turn p l detOk ≤ 1))

/-- A lane stands for cut-outs: UP and not fenced, as an endpoint-facing or fabric-facing lane (R77). -/
def Dev.stands (d : Dev) (l : Nat) : Bool :=
  decide (l < d.nLanes) && d.lstate l == 3 && decide (d.ltype l ≤ 1) && !d.flag F.PRT_LINK_STAT_FENCED l

/-- A member has a lane that some packet could use until it goes down or is fenced: for cut-outs (R77). -/
def Dev.memberAlive (d : Dev) (ls : List Nat) : Bool :=
  match d.refLane ls with
  | none => false
  | some r => ls.any (fun l => d.stands l && (d.lane l).peerServing && d.peerCa l == d.peerCa r)

/-- Raises SPRAY_CONFIG for members whose UP lanes lead to different neighbours (R69). -/
def Dev.checkSpray (d : Dev) (s : Nat) (ms : List (Nat × List Nat)) : Dev :=
  d.each ms (fun d m =>
    match d.refLane m.2 with
    | none => d
    | some r =>
      match m.2.find? (fun l => d.lstate l == 3 && d.peerCa l != d.peerCa r) with
      | none => d
      | some l => d.noticeLim N.SPRAY_CONFIG Src.core 0 (laneData l + s * 2 ^ 32 + m.1 * 2 ^ 24) s)

/-! ## Selection (R70 to R72) -/

/-- Packets selected one by one: VL1–VL6 but for ETH_ENCAP and GAP_REPORT (R70). -/
def Pkt.perPacket (p : Pkt) : Bool := decide (1 ≤ p.vl ∧ p.vl ≤ 6) && p.opc != 0x01 && p.opc != 0x02
/-- Packets whose first spray assigns a PSN (R70). -/
def Pkt.takesPsn (p : Pkt) : Bool := p.perPacket && p.vl != 3 && p.vl != 4

/-- The VL on which a packet leaves on a lane: VL5 becomes VL6 at its turning point (R66). -/
def Dev.vlOut (d : Dev) (p : Pkt) (l : Nat) : Nat := if p.vl = 5 ∧ d.arrival p = 0 ∧ d.dir l ≠ 1 then 6 else p.vl

/-- DETOUR as it will be on leaving (R75). -/
def Dev.detourOut (d : Dev) (p : Pkt) (l : Nat) (detOk : Bool) : Bool := p.detour || d.turn p l detOk == 1

/-- A packet with DETOUR 1 uses detour credit: on a fabric-facing lane, on VL1 to VL6, the VLs that have it (R71, R100,
R102). On VL0 and VL7 the rules name no detour credit: normal credit (DESIGN CHOICE, log 212). -/
def Dev.onDetour (d : Dev) (l v : Nat) (det : Bool) : Bool := det && d.ltype l == 1 && decide (1 ≤ v ∧ v ≤ 6)

/-- Available downstream credit, in flits (R254): detour credit or normal credit. -/
def Dev.creditOf (d : Dev) (l v : Nat) (det : Bool) : Nat :=
  let x := d.lv (lvKey l v)
  if d.onDetour l v det then (x.dTot + 2 ^ 24 - x.dChg) % 2 ^ 24 else (x.nTot + 2 ^ 24 - x.nChg) % 2 ^ 24

/-- Flits queued on a lane for a VL, with the unsent flits of an open packet (R71). -/
def Dev.queued (d : Dev) (l v : Nat) : Nat :=
  d.net.pkts.foldl (fun a p =>
    match p.place with
    | .queue x _ => if x = l ∧ p.vl = v then a + (p.flits - p.sent) else a
    | .held x _ => if x = l ∧ p.vl = v then a + p.flits else a
    | .rsqWait x _ => if x = l ∧ p.vl = v then a + p.flits else a
    | _ => a) 0

/-- The score of a lane, where it has credit (R71). -/
def Dev.score (d : Dev) (p : Pkt) (detOk : Bool) (l : Nat) : Option Int :=
  let v := d.vlOut p l
  let c := d.creditOf l v (d.detourOut p l detOk)
  if c = 0 then none else some ((c : Int) - d.queued l v)

/-- The first element of largest key. -/
def bestBy {α : Type} (l : List α) (key : α → Int) : Option α :=
  l.foldl (fun o x => match o with | none => some x | some y => if key y < key x then some x else some y) none

/-- Hash of R72. -/
def Pkt.flowHash (p : Pkt) : Nat :=
  crc16 (bytesOf 4 p.src.toNat ++ bytesOf 4 p.dst.toNat ++ bytesOf 2 p.prod ++ bytesOf 1 p.vl ++ bytesOf 1 p.tc
    ++ (if p.opc = 0x01 then bytesOf 2 (p.at 4 4 / 2 ^ 22) else []))

/-- A selection's outcome. -/
inductive Choice where
  /-- A lane, with the number of eligible members. -/
  | lane (l n : Nat)
  /-- Eligible lanes, none with credit (R71). -/
  | noCredit
  /-- No eligible lane; the cause of R69: 0 NO_ROUTE, 2 TURN_VIOLATION, 3 DETOUR_EXHAUSTED. -/
  | none (cause : Nat)
  deriving DecidableEq, Repr

/-- Member and lane selection (R69 to R72). -/
def Dev.select (d : Dev) (p : Pkt) (s : Nat) (detOk : Bool) : Choice × Dev :=
  let (ms, d) := d.members s
  let d := d.checkSpray s ms
  let el := (ms.map (fun m => (m.1, d.eligibleLanes p detOk m.2))).filter (fun m => !m.2.isEmpty)
  if el.isEmpty then
    let excl (t : Nat) := ms.any (fun m =>
      match d.refLane m.2 with
      | none => false
      | some r => m.2.any (fun l => d.baseEligible p r l && d.turn p l detOk == t))
    (.none (if excl 2 then 3 else if excl 3 then 2 else 0), d)
  else if p.perPacket then
    let cand := (el.map (fun m => (m.1, m.2.filterMap (fun l => (d.score p detOk l).map (fun x => (l, x)))))).filter
      (fun m => !m.2.isEmpty)
    let total (m : Nat × List (Nat × Int)) : Int := m.2.foldl (fun a x => a + x.2) 0
    match bestBy cand total with
    | none => (.noCredit, d)
    | some b =>
      let tied := cand.filter (fun m => total m == total b)
      let ptr := d.net.sprayPtr.get 0 s
      let pick := ((tied.find? (fun m => decide (ptr ≤ m.1))).orElse (fun _ => tied.head?)).getD b
      let d := if 1 < tied.length then { d with net := { d.net with sprayPtr := d.net.sprayPtr.put s ((pick.1 + 1) % 64) } } else d
      match bestBy pick.2 (fun x => x.2) with
      | none => (.noCredit, d)
      | some x => (.lane x.1 el.length, d)
  else
    let h := p.flowHash
    match el[h % el.length]? with
    | none => (.noCredit, d)
    | some m =>
      match m.2[(h / 256) % m.2.length]? with
      | none => (.noCredit, d)
      | some l => (.lane l el.length, d)

/-! ## PSN origin (R58, R73) -/

/-- VL of a flow's key at its first spray; VL6 counts as VL5 (R58). -/
def Pkt.flowVl (p : Pkt) : Nat := if p.vl = 6 then 5 else p.vl

/-- Row of the origin table (R73). -/
def originRow (src dst : BitVec 32) (vl : Nat) : Nat :=
  crc16 (bytesOf 4 src.toNat ++ bytesOf 4 dst.toNat ++ bytesOf 1 vl) % 16384

def Dev.setOrigins (d : Dev) (l : List Origin) : Dev := { d with net := { d.net with origins := l } }

/-- The next PSN of a flow, or none where its row's 16 ways are all busy (R73). Which free way a new flow takes is not
stated: a free value. -/
def Dev.assignPsn (d : Dev) (p : Pkt) : Option (Nat × Dev) :=
  let v := p.flowVl
  let row := originRow p.src p.dst v
  let mine (o : Origin) : Bool := o.src == p.src && o.dst == p.dst && o.vl == v
  match d.net.origins.find? mine with
  | some o =>
    some ((o.psn + 1) % 2 ^ 24,
      d.setOrigins (d.net.origins.map (fun x => if mine x then { x with psn := (x.psn + 1) % 2 ^ 24, idle := false } else x)))
  | none =>
    let new : Origin := ⟨p.src, p.dst, v, row, 0, false⟩
    let inRow := d.net.origins.filter (fun o => o.row == row)
    let idle := inRow.filter (fun o => o.idle)
    let unused := 16 - inRow.length
    if idle.length + unused = 0 then none
    else
      let (x, d) := d.freeNat
      let j := x % (idle.length + unused)
      match (if unused ≤ j then idle[j - unused]? else none) with
      | some o => some (0, d.setOrigins (d.net.origins.map (fun x => if x = o then new else x)))
      | none => some (0, d.setOrigins (d.net.origins ++ [new]))

/-! ## Enqueueing (R41, R43, R108, R114) -/

/-- A packet is marked as it joins a queue (R41, R108). -/
def Dev.markPkt (d : Dev) (p : Pkt) (lane : Nat) : Dev :=
  let m := d.queueMark lane p.vl (d.depth lane p.qIdx + p.cells)
  (d.countMark p lane m).modPkt p.id (fun x => x.setHdr 28 27 (max p.cmIn m))

/-- The generation check of an endpoint-facing egress (R57). -/
def Dev.egressCheck (d : Dev) (p : Pkt) (lane : Nat) : Option Nat :=
  if d.ltype lane = 0 ∧ (p.opc < 0x60 ∨ 0x80 ≤ p.opc) ∧ !p.own then d.genCheck p else none

/-- A packet routed to a lane joins its queue or its resequencing context. -/
def Dev.enqueue (d : Dev) (id lane : Nat) : Dev :=
  match d.pkt id with
  | none => d
  | some p =>
    let d := d.markPkt p lane
    match d.egressCheck p lane with
    | some st => d.refuseGen p st
    | none =>
      if d.ltype lane = 0 ∧ (p.psnValid ∨ p.vl = 1) then d.rsqPlace id lane p.qIdx
      else d.moveTo id (.queue lane p.qIdx)

/-! ## Resolution (R62, R76) -/

/-- The notice of a route refusal: cause 0 NO_ROUTE, 1 ROUTE_DISCARD, 2 TURN_VIOLATION, 3 DETOUR_EXHAUSTED (R76). -/
def Dev.noteRoute (d : Dev) (p : Pkt) (cause data : Nat) : Dev :=
  match cause with
  | 0 => d.noticeLim N.NO_ROUTE Src.core 0 data p.inl
  | 1 => d
  | 2 => d.noticeLim N.TURN_VIOLATION Src.core 0 data p.inl
  | _ => d.noticeLim N.DETOUR_EXHAUSTED Src.core 0 data p.inl

/-- The counter of a route refusal (R76). -/
def routeCounter (cause : Nat) : Nat :=
  match cause with
  | 0 => C.NO_ROUTE | 1 => C.ROUTE_DISCARD | 2 => C.TURN_VIOLATION | _ => C.DETOUR_EXHAUSTED

/-- A management request from outside that would have to leave over a lane in MISCAST or QUARANTINED to the neighbour it
is addressed to (R259). -/
def Dev.miscast (d : Dev) (p : Pkt) (set : Nat) : Bool :=
  p.vl == 0 && !p.internal && (p.opc == 0x60 || decide (0x72 ≤ p.opc ∧ p.opc ≤ 0x77))
  && (d.members set).1.any (fun m => m.2.any (fun l => (d.lstate l == 4 || d.lstate l == 5) && d.peerCa l == bitsOf p.dst 31 8))

/-- A route refusal (R76); a management request that needs a miscast lane completes with MISCAST (R60, R259). -/
def Dev.refuseRoute (d : Dev) (p : Pkt) (cause set : Nat) : Dev :=
  if cause ≠ 1 ∧ d.miscast p set then (d.send (answerReq p 0x21 St.MISCAST 0)).endPkt p.id
  else (d.noteRoute p cause (p.laneData + set * 2 ^ 32 + p.dst.toNat)).refuse p (if cause = 1 then St.DENIED else St.POISON)
    (fun d => d.discardAs p (routeCounter cause))

/-- A packet that its function does not take (R45). -/
def Dev.unsupported (d : Dev) (p : Pkt) : Dev := d.refuse p St.UNSUPPORTED (fun d => d.discardOther p)

/-- A packet to FN 0x01, Bolt memory: requests, checked and resequenced (R45, R57). -/
def Dev.toBolt (d : Dev) (p : Pkt) : Dev :=
  if p.vl = 1 then
    match d.genCheck p with
    | some st => d.refuseGen p st
    | none => d.rsqPlace p.id boltLane 0
  else d.unsupported p

/-- A packet to a Loom: VL3 and VL4, and user opcodes on the VLs that carry them, checked (R45, R47, R48, R57). DESIGN CHOICE
(log 34): R45 gives a Loom no use for anything else; a VL1 request is completed with UNSUPPORTED, and the rest discarded in
DISCARD_OTHER. -/
def Dev.toLoom (d : Dev) (p : Pkt) (fn : Nat) : Dev :=
  if p.vl = 3 ∨ p.vl = 4 ∨ 0xC0 ≤ p.opc then
    match d.genCheck p with
    | some st => d.refuseGen p st
    | none => d.moveTo p.id (.atFn fn)
  else d.unsupported p

/-- A management message that is of no use to FN 0x00: an answer to nothing it asked. -/
def Pkt.idleMgmt (p : Pkt) : Bool := p.opc == 0x61 || p.opc == 0x72 || p.opc == 0x74

/-- A packet to FN 0x00, the Prompter (R45, R49, R97). -/
def Dev.toPrompter (d : Dev) (p : Pkt) : Dev :=
  if p.vl = 0 then
    if p.idleMgmt then (d.discardOther p).endPkt p.id else d.moveTo p.id (.atFn 0)
  else if p.opc = 0x01 ∨ p.opc = 0x50 then d.moveTo p.id (.atFn 0)
  else d.unsupported p

/-- A packet addressed to this device reaches its function (R45, R47, R49, R57). DESIGN CHOICE (log 33): R45 does not say
what FN 0xFF does with a packet that is no NOTICE, nor FN 0x01 with one that is not on VL1; here a request is completed with
UNSUPPORTED, a CONTRIB or an A2A.ROWS answered with SEND.STATUS, and the rest discarded in DISCARD_OTHER. -/
def Dev.toLocal (d : Dev) (p : Pkt) : Dev :=
  let fn := bitsOf p.dst 7 0
  if p.vl = 0 ∧ p.opc = 0x62 then d.moveTo p.id (.atFn fn)
  else if fn = 1 then d.toBolt p
  else if 0x10 ≤ fn ∧ fn ≤ 0x13 then d.toLoom p fn
  else if fn = 0 then d.toPrompter p
  else if fn = 0xFF then d.unsupported p
  else d.refuseReq p St.UNSUPPORTED (fun d => d.discardAs p C.FN_REFUSED)

/-- The route of a packet not addressed to this device: a spray set and whether a detour turn is allowed; or the
cause of a refusal (R62 to R64). -/
def Dev.routeSet (d : Dev) (p : Pkt) : ((Nat × Bool) ⊕ Nat) × Dev :=
  match d.tcamCoord p.prod p.dst.toNat with
  | (some e, d) =>
    if tcamAction e = 2 then (.inr 1, d) else (.inl (tcamSet e, tcamAction e == 1), d)
  | (none, d) =>
    match d.arithmetic p.dst.toNat with
    | (some s, d) => (.inl (s, false), d)
    | (none, d) => (.inr 0, d)

/-- The PSN that a packet takes on a lane, if it takes one; none where no way of the origin table is free (R70, R73). -/
def Dev.numberPkt (d : Dev) (p : Pkt) (n : Nat) : Option (Option Nat × Dev) :=
  if p.takesPsn ∧ ¬ p.psnValid ∧ 2 ≤ n then (d.assignPsn p).map (fun x => (some x.1, x.2)) else some (none, d)

/-- A packet as it leaves on a lane: its VL and DETOUR after the turn, its PSN, and HOPS (R62, R66, R75). -/
def Dev.leaving (d : Dev) (p : Pkt) (l : Nat) (detOk : Bool) (psn : Option Nat) : Pkt :=
  let p1 := { p with vl := d.vlOut p l }
  let p1 := if d.detourOut p l detOk then p1.setRw 31 31 1 else p1
  let p1 := match psn with | some x => (p1.setHdr 23 0 x).setRw 30 30 1 | none => p1
  if p.internal then p1.setRw 29 24 16 else p1.setRw 29 24 (p.hops - 1)

/-- The buffer of a packet that takes a lane: one of its own, or cells of its internal source (R101). -/
def Dev.chargeOut (d : Dev) (p : Pkt) : Option (Nat × Dev) :=
  if p.buf = 0 then d.chargeSource (lvKey p.inl p.vl) p else (d.chargeColl p.buf).map (fun d => (p.buf, d))

/-- A packet waits for a way of the origin table: counted once (R73). -/
def Dev.stallPkt (d : Dev) (p : Pkt) : Dev :=
  if p.stalled then d
  else ((d.modPkt p.id (fun x => { x with stalled := true })).countWrd C.ORIGIN_STALL).noticeLim N.ORIGIN_FULL Src.core 0
    (p.laneData + originRow p.src p.dst p.flowVl * 2 ^ 32) 0

/-- The packet takes its lane: a PSN, cells for an internal source, the turn, HOPS, and the queue (R62, R101, R104). -/
def Dev.takeLane (d : Dev) (p : Pkt) (l n : Nat) (detOk : Bool) : Dev :=
  match d.numberPkt p n with
  | none => d.stallPkt p
  | some x =>
    let q := if p.buf = 0 then d.quotaMark p else p
    match x.2.chargeOut q with
    | none => d
    | some y => (y.2.modPkt p.id (fun _ => { d.leaving q l detOk x.1 with buf := y.1 })).enqueue p.id l

/-- An earlier packet of its lane or source, and VL, waits at ingress: this one stands behind it (R71, R73), unless that one
waits for cells that another production's admission reserved (R187). -/
def Dev.behind (d : Dev) (p : Pkt) : Bool :=
  d.net.pkts.any (fun q => decide (q.id < p.id) && q.place == .ingress && q.inl == p.inl && q.vl == p.vl
    && (q.prod == p.prod || !d.collWaits q))

/-- A packet resolved to a route goes on: to a function of this device, or to a lane of its set, or it stays at ingress for
want of credit, a way or space, behind those that wait before it (R71, R73). -/
def Dev.proceed (d : Dev) (p : Pkt) (r : Route) : Dev :=
  if d.behind p then d
  else match r with
  | .here => d.toLocal p
  | .set s det =>
    match d.select p s det with
    | (.lane l n, d) => d.takeLane p l n det
    | (.noCredit, d) => d
    | (.none cause, d) => d.refuseRoute p cause s

/-- The packet's route is settled, and it goes on. -/
def Dev.routed (d : Dev) (p : Pkt) (r : Route) : Dev :=
  (d.modPkt p.id (fun x => { x with route := some r })).proceed { p with route := some r } r

/-- Resolves a packet's route once, and acts on it (R43, R62); a packet that waits runs the selection alone again (R71). -/
def Dev.forward (d : Dev) (id : Nat) : Dev :=
  match d.pkt id with
  | none => d
  | some p =>
    match p.route with
    | some r => d.proceed p r
    | none =>
      if p.dst.toNat / 256 = d.ownCa / 256 then d.routed p .here
      else if p.hops = 0 ∧ !p.internal then
        let d := d.noticeLim N.HOP_EXPIRED Src.core 0 (p.laneData + p.dst.toNat) p.inl
        (d.discardAs p C.HOP_EXPIRED).endPkt p.id
      else
        match d.routeSet p with
        | (.inr cause, d) => d.refuseRoute p cause 0xFFF
        | (.inl (s, det), d) => d.routed p (.set s det)

/-- Adds a packet to the Wardrobe under a new name. -/
def Dev.addPkt (d : Dev) (p : Pkt) : Nat × Dev :=
  (d.net.nextId, { d with net := { d.net with pkts := d.net.pkts ++ [{ p with id := d.net.nextId, frcIn := d.tmu.frc }],
                                              nextId := d.net.nextId + 1 } })

/-- Routes every packet the device has made so far. -/
def Dev.sendMade (d : Dev) : Dev :=
  let l := d.net.outbox
  let d := { d with net := { d.net with outbox := [] } }
  d.each l (fun d p => let (i, d) := d.addPkt p; d.forward i)

/-- Routes what the device has made, and what answers it: a contribution of a Loom's own may be refused, and answers make
no answers. -/
def Dev.settle (d : Dev) : Dev := d.sendMade.sendMade

/-- A command's last part: what it has made is routed. -/
def sendOut (r : Res) : Res :=
  match r with
  | .next s => .next { s with d := s.d.settle }
  | r => r

/-- Packets waiting at ingress try again, oldest first. -/
def Dev.retryWaiting (d : Dev) (c : Pkt → Bool) : Dev :=
  d.each (d.net.pkts.filter (fun p => p.place == .ingress && c p)) (fun d p => d.forward p.id)

end Sys2Proof.Machine
end

