-- ==== Sys2Proof/Machine/MemFab.lean ====
section
/-! DEFINITION. The rack memory fabric (R206 to R221): swatch checks, holds, handoff, and responses at ingress. -/

namespace Sys2Proof.Machine

/-! ## Requests -/

/-- Data bytes of a request or response: 12 + 60 × LEN − PAD (R210). -/
def Pkt.memLen (p : Pkt) : Nat := 12 + 60 * p.len - bitsOf p.rw 5 0
def Pkt.xlated (p : Pkt) : Bool := bitOf p.rw 19
def Pkt.house (p : Pkt) : Bool := bitOf p.rw 18
def Pkt.convert (p : Pkt) : Bool := bitOf p.rw 17
def Pkt.tag (p : Pkt) : Nat := p.at 4 2
def Pkt.addr (p : Pkt) : Nat := p.at 8 8
/-- READ: BYTES (R211). -/
def Pkt.rdBytes (p : Pkt) : Nat := p.at 6 2 % 4096 + 1
def Pkt.aop (p : Pkt) : Nat := p.at 6 2 / 4096
def Pkt.asize (p : Pkt) : Nat := p.at 6 2 / 1024 % 4
/-- Bytes of an ATOMIC operand, 0 for the reserved size. -/
def Pkt.abytes (p : Pkt) : Nat := match p.asize with | 0 => 4 | 1 => 8 | 2 => 16 | _ => 0
def Pkt.aword (p : Pkt) : AWord := BitVec.ofNat 32 (p.at 16 4)

/-- AOP and size combinations of R213. -/
def aopOk (aop bytes : Nat) : Bool :=
  match aop with
  | 0 => bytes == 4 || bytes == 8
  | 1 => bytes == 4
  | 2 => bytes != 0
  | 3 => bytes != 0
  | 4 => bytes == 4 || bytes == 8
  | 5 => bytes == 4 || bytes == 8
  | 6 => bytes == 4 || bytes == 8
  | 7 => bytes == 4 || bytes == 8
  | 8 => bytes != 0
  | 9 => bytes != 0
  | 10 => bytes != 0
  | _ => false

/-- REDUCE.WRITE as an accumulation into records (R224). -/
def reduceExact (a : AWord) : Bool :=
  AWord.op a == 1 && AWord.mode a == 0 && decide ((1 ≤ AWord.fmt a ∧ AWord.fmt a ≤ 5) ∨ isInt (AWord.fmt a))

/-- REDUCE.WRITE as a combination in place (R156, R224). -/
def reduceInPlace (a : AWord) : Bool :=
  let f := AWord.fmt a
  elemBits f != 0 && (AWord.op a == 2 || AWord.op a == 3 || (isInt f && decide (5 ≤ AWord.op a ∧ AWord.op a ≤ 7)))

/-- Bytes of one element of a format whose elements fill whole bytes. -/
def elemBytes (f : Nat) : Nat := elemBits f / 8

/-- Elements in `n` bytes of a format at a target: a whole number of them, an MX format in whole tiles (R159, R212). -/
def elemCount (f n : Nat) : Nat := (tileElems f n).getD 0

/-- The byte range a request covers at its address (R209, R224). -/
def Pkt.extent (p : Pkt) : Nat :=
  match p.opc with
  | 0x10 => if p.convert then elemCount (AWord.ofmt p.aword) p.rdBytes * recBytes (AWord.fmt p.aword) else p.rdBytes
  | 0x13 => p.abytes
  | 0x14 => if reduceExact p.aword then p.memLen / max 1 (elemBytes (AWord.fmt p.aword)) * recBytes (AWord.fmt p.aword) else p.memLen
  | 0x16 => 1
  | _ => p.memLen

/-- The layout rules of R209's first check: 4 KiB crossing, and R212 and R213. Elements of an MX format are whole with the scale
bytes of their tile (R159). -/
def Pkt.layoutOk (p : Pkt) : Bool :=
  let n := if p.opc = 0x10 then p.rdBytes else if p.opc = 0x13 then p.abytes else p.memLen
  let cross := p.addr / 4096 != (p.addr + (n - 1)) / 4096
  match p.opc with
  | 0x10 => !cross
  | 0x11 => !cross && decide (1 ≤ n ∧ n ≤ 4096)
  | 0x12 => decide (1 ≤ n ∧ n ≤ 64) && p.addr / 64 == (p.addr + (n - 1)) / 64
  | 0x13 => aopOk p.aop p.abytes && p.addr % max 1 p.abytes == 0 && p.memLen == (if p.aop = 2 then 2 * p.abytes else p.abytes)
  | 0x14 => decide (1 ≤ n ∧ n ≤ 4096) && decide (0 < elemBits (AWord.fmt p.aword))
      && (8 * n % max 1 (elemBits (AWord.fmt p.aword)) == 0 || (tileElems (AWord.fmt p.aword) n).isSome)
  | _ => true

/-! ## The swatch check (R206, R209) -/

def swBase (e : BitVec 512) : Nat := dataOf e 0 63 12
def swLimit (e : BitVec 512) : Nat := dataOf e 1 63 12
def swLocal (e : BitVec 512) : Nat := dataOf e 2 63 12
def swTarget (e : BitVec 512) : Nat := dataOf e 3 63 32
def swOwner (e : BitVec 512) : Nat := dataOf e 3 31 0
def swProd (e : BitVec 512) : Nat := dataOf e 0 11 0
def swShared (e : BitVec 512) : Bool := dataOf e 4 63 63 == 1
def swState (e : BitVec 512) : Nat := dataOf e 4 32 31

/-- The VALID swatch entry of a production that holds an address, if a lookup finds it (R209, R89). -/
def Dev.swatchAt (d : Dev) (prod addr : Nat) : Option (Nat × BitVec 512) × Dev :=
  let hit := (d.entries 3).find? (fun x => swProd x.2 == prod && decide (swBase x.2 ≤ addr / 4096 ∧ addr / 4096 ≤ swLimit x.2))
  match hit with
  | none => (none, d)
  | some x => if d.badParity 3 x.1 then (none, d.noteParity 3 x.1) else (some x, d)

/-- The source may make this request of the entry (R209). -/
def Dev.swatchAllows (d : Dev) (idx : Nat) (e : BitVec 512) (p : Pkt) : Bool :=
  let src := bitsOf p.src 31 8
  let (ws, rs) := d.tab.members.get ([], []) idx
  let owner := swOwner e / 256 == src
  let writer := dataOf e 4 47 47 == 1 && ws.contains src
  let reader := dataOf e 4 62 62 == 1 && rs.contains src
  if p.opc = 0x10 then owner || reader || (writer && !swShared e)
  else if p.opc = 0x16 then owner && swState e == 0
  else !swShared e && swState e != 1 && (owner || writer)

/-- The check of R209 on a VL1 request: the status of a refusal, or the entry that passes it. -/
def Dev.swatchCheck (d : Dev) (p : Pkt) : (Nat ⊕ (Nat × BitVec 512)) × Dev :=
  if !p.layoutOk then (.inl St.UNSUPPORTED, d)
  else match d.swatchAt p.prod p.addr with
    | (none, d) => (.inl St.DENIED, d)
    | (some (i, e), d) =>
      if swLimit e < (p.addr + (p.extent - 1)) / 4096 then (.inl St.DENIED, d)
      else if p.dst.toNat ≠ swTarget e then (.inl St.DENIED, d)
      else if !d.swatchAllows i e p then (.inl St.DENIED, d)
      else if swState e = 2 then (.inl St.POISON, d)
      else (.inr (i, e), d)

/-- ADDR replaced by the local address, with XLATED set (R209). -/
def Pkt.translate (p : Pkt) (e : BitVec 512) : Pkt :=
  let a := swLocal e * 4096 + (p.addr - swBase e * 4096)
  let p := p.setRw 19 19 1
  { p with pay := setBits p.pay 287 224 a }

/-! ## Responses at ingress, holds and handoff -/

/-- A response passes the endpoint-facing ingress: its ledger entry retires, and holds may be released (R218). -/
def Dev.responseIn (d : Dev) (p : Pkt) : Dev :=
  match d.ledgerFind p.dst p.src p.tag with
  | none => d
  | some l => ((d.ledgerDrop l).raiseErr l.src l.dst p.status l.writing).retryFlow l.src l.dst

/-- The response has been accounted for, and stands at ingress as any other packet. -/
def Dev.responseTaken (d : Dev) (p : Pkt) : Dev := (d.responseIn p).modPkt p.id (fun p => { p with place := .ingress })

/-- RESPONSE_AT_INGRESS (R218): the terminal's accounting, then the response goes on. -/
def execResponseAtIngress (pid : Nat) (s : State) : Res :=
  onDev s fun d =>
    match d.pkt pid with
    | none => d
    | some p =>
      match p.place with
      | .respIn _ => ((d.responseTaken p).forward pid).settle
      | _ => d

/-- Entry `i` goes MOVING, the move is kept, and the request stands at ingress translated. -/
def Dev.moveStart (d : Dev) (p : Pkt) (i : Nat) (e : BitVec 512) : Dev :=
  let d := d.setEnt 3 i (setData e 4 32 31 1)
  let mv : Move := ⟨BitVec.ofNat 32 (p.at 16 4), p.at 20 1 % 2 == 1, p.src, p.tag, p.tc, p.gen, p.addr⟩
  ({ d with tab := { d.tab with moves := d.tab.moves.put i mv } } : Dev).modPkt p.id (fun p => { p.translate e with place := .ingress })

/-- SWATCH_XFER (R220): the entry goes MOVING, the move is kept, and the request is forwarded translated. -/
def swatchXferMade (pid : Nat) (s : State) : Res :=
  onDev s fun d =>
    match d.pkt pid with
    | none => d
    | some p =>
      match p.place with
      | .xferIn _ =>
        match d.swatchCheck p with
        | (.inl st, d) => d.refuse p st (fun d => d)
        | (.inr (i, e), d) => (d.moveStart p i e).forward pid
      | _ => d

/-- SWATCH_XFER: what it makes is then routed. -/
def execSwatchXfer (pid : Nat) (s : State) : Res := sendOut (swatchXferMade pid s)

/-- A completion with XFER set passes the egress toward the owner: the move it matches ends (R220, R221). -/
def Dev.xferDone (d : Dev) (p : Pkt) : Dev :=
  match d.tab.moves.find? (fun x => x.2.owner == p.dst && x.2.tag == p.tag &&
      (match d.ent 3 x.1 with | some e => swTarget e == p.src.toNat | none => false)) with
  | none => d.countMem C.XFER_ORPHAN
  | some (i, mv) =>
    let d := { d with tab := { d.tab with moves := d.tab.moves.erase i } }
    match d.ent 3 i with
    | none => d
    | some e =>
      let e := setData e 4 32 31 0
      d.setEnt 3 i (if p.status = St.OK then setData (setData e 3 31 0 mv.newOwner.toNat) 4 63 63 (bit mv.newMode) else e)

/-- MOVE_LIMIT_EXPIRY (R221): the entry returns to OWNED, the owner gets TIMEOUT, SWATCH_XFER_LOST is raised. -/
def moveLimitExpiryMade (index : Nat) (s : State) : Res :=
  onDev s fun d =>
    match d.tab.moves.find index, d.ent 3 index with
    | some mv, some e =>
      let d := d.setEnt 3 index (setData e 4 32 31 0)
      let d := { d with tab := { d.tab with moves := d.tab.moves.erase index } }
      let a : Pkt := { id := 0, hdr := mkHdr mv.owner (BitVec.ofNat 32 (swTarget e)) (swProd e) mv.gen 0x21 0 mv.tc,
                       rw := BitVec.ofNat 32 (St.TIMEOUT * 2 ^ 20 + 2 ^ 16 + 12), vl := 2,
                       pay := mkPay [(4, 2, mv.tag), (8, 8, mv.addr)], inl := 1024, own := true }
      (d.send a).notice N.SWATCH_XFER_LOST Src.memory (swProd e) 0
    | _, _ => d

/-- MOVE_LIMIT_EXPIRY: what it makes is then routed. -/
def execMoveLimitExpiry (index : Nat) (s : State) : Res := sendOut (moveLimitExpiryMade index s)

/-- The request held at NEXT of a memory context. -/
def Dev.heldAt (d : Dev) (k : CtxKey) : Option (Ctx × Pkt) :=
  match d.ctx k with
  | none => none
  | some c => c.hold.bind (fun i => (d.pkt i).map (fun p => (c, p)))

/-- NEXT passes a held request that has been completed. -/
def Dev.passHeld (d : Dev) (k : CtxKey) : Dev :=
  (d.modCtx k (fun c => { c with next := (c.next + 1) % 2 ^ 24, hold := none, gapOn := false })).runCtx k

/-- FENCE (R218): a FENCE held at NEXT is completed with ERR_A once OUT_A is 0, and both ERR are reset. -/
def fenceMade (pid : Nat) (s : State) : Res :=
  onDev s fun d =>
    match d.pkt pid with
    | none => d
    | some p =>
      match d.heldAt p.ckey with
      | none => d
      | some (c, h) =>
        let f := d.flow p.src p.dst
        if h.id = pid ∧ p.opc = 0x15 ∧ f.outA = 0 then
          (((d.setFlow { f with errW := 0, errA := 0 }).completeReq p f.errA c.lane).passHeld c.ckey).rsqRetry
        else d

/-- FENCE: what it makes is then routed. -/
def execFence (pid : Nat) (s : State) : Res := sendOut (fenceMade pid s)

/-- FLAG_HOLD_EXPIRY (R218): the held WRITE.FLAG, FENCE or SWATCH_XFER is completed with TIMEOUT and not delivered. -/
def flagHoldExpiryMade (src dst : BitVec 32) (pv : Bool) (s : State) : Res :=
  onDev s fun d =>
    match d.heldAt ⟨src, dst, 1, pv⟩ with
    | none => d
    | some (c, p) =>
      if p.opc = 0x12 ∨ p.opc = 0x15 ∨ p.opc = 0x16 then
        let d := d.setFlow { d.flow src dst with errW := 0, errA := 0 }
        (((d.countMem C.FLAG_TIMEOUT).completeReq p St.TIMEOUT c.lane).passHeld c.ckey).rsqRetry
      else d

/-- FLAG_HOLD_EXPIRY: what it makes is then routed. -/
def execFlagHoldExpiry (src dst : BitVec 32) (pv : Bool) (s : State) : Res := sendOut (flagHoldExpiryMade src dst pv s)

/-- RSQ_LEARN_EXPIRY (R110): NEXT becomes the PSN that every other held PSN is newer than, and delivery begins. -/
def execRsqLearnExpiry (src dst : BitVec 32) (vl : Nat) (pv : Bool) (s : State) : Res :=
  onDev s fun d =>
    let k : CtxKey := ⟨src, dst, vl, pv⟩
    match d.ctx k with
    | none => d
    | some c =>
      if c.learning then
        let hs := d.heldOf k
        let first := (hs.find? (fun p => hs.all (fun q => q.rsqNo == p.rsqNo || newer q.rsqNo p.rsqNo 24))).orElse
          (fun _ => hs.head?)
        ((d.rsqLearned k ((first.map (·.rsqNo)).getD c.next)).rsqRetry).settle
      else d

/-- RSQ_GAP_EXPIRY (R112): the skipped PSNs are treated by the flow's VL, and delivery goes on from the lowest held. -/
def execRsqGapExpiry (src dst : BitVec 32) (vl : Nat) (pv : Bool) (s : State) : Res :=
  onDev s fun d =>
    let k : CtxKey := ⟨src, dst, vl, pv⟩
    match d.ctx k with
    | none => d
    | some c => if c.gapOn then ((d.expireGap k).rsqRetry).settle else d

/-- RSQ_IDLE_EXPIRY (R113, R218): an idle context is released unless its memory flow has requests outstanding, and a
packet waiting for a context may take it. -/
def execRsqIdleExpiry (src dst : BitVec 32) (vl : Nat) (pv : Bool) (s : State) : Res :=
  onDev s fun d =>
    let k : CtxKey := ⟨src, dst, vl, pv⟩
    match d.ctx k with
    | none => d
    | some c =>
      if c.gapOn ∨ c.learning ∨ !(d.heldOf k).isEmpty ∨ (vl = 1 ∧ 0 < (d.flow src dst).outA) then d
      else ((d.dropCtx k).rsqRetry).settle

end Sys2Proof.Machine
end

