-- ==== Sys2Proof/Machine/Police.lean ====
section
/-! DEFINITION. Ingress colouring, policing and TC maps (R124 to R127). -/

namespace Sys2Proof.Machine

/-- Scale of a policer level: one byte in units of Mb/s × 2^-16 ns. -/
def polScale : Nat := 524288000

/-- POLICER fields of an entry (R127). -/
def polCir (e : BitVec 512) : Nat := dataOf e 0 63 44
def polPir (e : BitVec 512) : Nat := dataOf e 0 43 24
def polCbs (e : BitVec 512) : Nat := dataOf e 0 23 0
def polPbs (e : BitVec 512) : Nat := dataOf e 1 63 40
def polAware (e : BitVec 512) : Bool := dataOf e 1 39 39 == 1
def polY (e : BitVec 512) : Nat := dataOf e 1 38 37
def polR (e : BitVec 512) : Nat := dataOf e 1 36 35

/-- The buckets of a policer after refilling: Tc and Tp in scaled bytes (R125). -/
def Dev.polLevels (d : Dev) (idx : Nat) (e : BitVec 512) : Nat × Nat :=
  let (tc, tp, at_) := d.net.pol.get (polCbs e * polScale, polPbs e * polScale, d.tmu.total) idx
  let dt := d.since at_
  (min (polCbs e * polScale) (tc + dt * polCir e), min (polPbs e * polScale) (tp + dt * polPir e))

/-- The two-rate three-colour marker: 0 green, 1 yellow, 2 red (R125). -/
def Dev.meter (d : Dev) (idx : Nat) (e : BitVec 512) (pre bytes : Nat) : Nat × Dev :=
  let (tc, tp) := d.polLevels idx e
  let b := bytes * polScale
  let (c, tc, tp) :=
    if (polAware e ∧ pre = 2) ∨ tp < b then (2, tc, tp)
    else if (polAware e ∧ pre = 1) ∨ tc < b then (1, tc, tp - b)
    else (0, tc - b, tp - b)
  (c, { d with net := { d.net with pol := d.net.pol.put idx (tc, tp, d.tmu.total) } })

/-- Steps 1 and 2 of R124 for a VL, TC and size: the action, 0 PASS, 1 MARK or 2 DROP. -/
def Dev.police (d : Dev) (port v tc bytes : Nat) : Nat × Dev :=
  let pre := d.fld F.PRT_COLOUR_COLOUR port / 4 ^ tc % 4
  let k := port * 8 + v
  if d.flag F.PRT_POL_EN k then
    let idx := d.fld F.PRT_POL_BASE k + (if d.flag F.PRT_POL_PER_TC k then tc else 0)
    match d.look 5 idx with
    | (none, d) => (0, d.countTbl C.POLICE_MISS)
    | (some e, d) =>
      let (c, d) := d.meter idx e pre bytes
      let act := if c = 1 then polY e else if c = 2 then polR e else 0
      (if act = 2 ∧ (v = 0 ∨ v = 2 ∨ v = 4) then 1 else act, d)
  else (0, d)

/-- Step 3 of R124: the TC an ingress port's map gives. -/
def Dev.tcMap (d : Dev) (port tc : Nat) : Nat :=
  if d.flag F.PRT_TCMAP_EN port then d.fld F.PRT_TCMAP_MAP port / 8 ^ tc % 8 else tc

/-- A packet that arrives on a lane, as the policer's action and the TC map leave it (R124, R126). -/
def Dev.policed (d : Dev) (p : Pkt) (act : Nat) : Pkt :=
  (if act = 1 then p.setHdr 28 27 2 else p).setHdr 26 24 (d.tcMap p.inl p.tc)

/-- A request to a function of this device that takes none (R45). -/
def Dev.wrongFn (d : Dev) (p : Pkt) : Bool :=
  p.vl == 1 && p.dst.toNat / 256 == d.ownCa / 256 && bitsOf p.dst 7 0 != 1

/-- A request that breaks a layout rule its ingress checks (R209). -/
def Dev.badLayout (d : Dev) (p : Pkt) : Bool :=
  p.vl == 1 && d.ltype p.inl == 0 && p.opc != 0x15 && !p.house && !p.layoutOk

/-- A policed packet: a request is completed with DENIED, or with UNSUPPORTED where that applies too; a contribution is
answered; any other is discarded (R61, R126). -/
def Dev.policeDrop (d : Dev) (p : Pkt) : Dev :=
  d.refuse p (if d.wrongFn p || d.badLayout p then St.UNSUPPORTED else St.DENIED)
    (fun d => (d.countPort p.inl C.POLICE_DROP).countEv (16 + p.inl) 5 1 p.ctx)

end Sys2Proof.Machine
end

