-- ==== Sys2Proof/Machine/Link.lean ====
section
/-! DEFINITION. Flits on a lane: arrival checks (R37 to R59), credit and replay (R253 to R255), and a lane's leaving
of service (R265, R349). -/

namespace Sys2Proof.Machine

/-! ## Flit fields -/

def fcwType (f : Flit) : Nat := bitsOf f 511 510
def fcwVl (f : Flit) : Nat := bitsOf f 509 507
def fcwRseq (f : Flit) : Nat := bitsOf f 506 496

/-- A flit's first 62 bytes from a TYPE, VL and RSEQ and the 60 bytes that follow. -/
def flitBody (ty vl rseq rest : Nat) : Nat := ((ty * 8 + vl) * 2048 + rseq % 2048) * 2 ^ 480 + rest % 2 ^ 480

/-- The 60 bytes of a head flit after its FCW: header, route word, payload. -/
def Pkt.headBytes (p : Pkt) : Nat := p.hdr.toNat * 2 ^ 352 + p.rw.toNat * 2 ^ 320 + p.pay.toNat

/-- The packet a head flit opens. -/
def pktOfHead (lane : Nat) (f : Flit) : Pkt :=
  let v := fcwVl f
  let hdr := BitVec.ofNat 128 (bitsOf f 495 368)
  { id := 0, hdr := hdr, rw := BitVec.ofNat 32 (bitsOf f 367 336), vl := v, vlIn := v,
    pay := BitVec.ofNat 320 (bitsOf f 335 16), inl := lane, whole := bitsOf hdr 35 29 == 0 }

/-! ## A lane's states -/

/-- Sets PRT_LINK_STAT.STATE. A lane out of TRAINING trains no more, and RETRAIN reads 0 again (R232); a border lane's
stands until block lock. -/
def Dev.setState (d : Dev) (l st : Nat) : Dev :=
  let d := d.setFld F.PRT_LINK_STAT_STATE l st
  if st = 1 ∨ (d.ltype l = 2 ∧ st = 0) then d else d.setFld F.WNG_LANE_CTL_RETRAIN (wngLane l) 0

/-- The discipline lane goes down while the reference is steered toward it: it holds its last frequency (R23). -/
def Dev.refLaneDown (d : Dev) (l : Nat) : Dev :=
  if d.flag F.GLB_REF_CTL_DISCIPLINE_EN 0 ∧ d.fld F.GLB_REF_CTL_LANE 0 = l ∧ 1 ≤ d.fld F.GLB_REF_CTL_STATE 0 ∧ d.fld F.GLB_REF_CTL_STATE 0 ≤ 2 then
    (d.setFld F.GLB_REF_CTL_STATE 0 3).notice N.REF_HOLDOVER Src.prompter 0 (laneData l)
  else d

/-- Records an exit from UP: CAUSE, DOWNS and LINK_DOWN (R250, R265). A lane not in UP only records its CAUSE. -/
def Dev.exitUp (d : Dev) (l cause dest : Nat) : Dev :=
  let was := d.lstate l == 3
  let d := (d.setFld F.PRT_LINK_STAT_CAUSE l cause).setState l dest
  if was then
    let d := (d.bumpSat F.PRT_LINK_STAT_DOWNS l 1).notice N.LINK_DOWN Src.core 0 (laneData l + cause * 2 ^ 44 + dest * 2 ^ 40)
    d.refLaneDown l
  else d

/-- The lane of a packet's egress queue. -/
def Place.egress : Place → Option Nat
  | .queue l _ => some l
  | .held l _ => some l
  | .rsqWait l _ => some l
  | _ => none

/-- The packet is open on its egress lane. -/
def Dev.isOpen (d : Dev) (l id : Nat) : Bool := (d.lane l).txLow == some id || (d.lane l).txHigh == some id

/-- A packet held in a resequencing context: the lane's loss leaves it there (R112, R226). -/
def Place.inContext : Place → Bool
  | .held _ _ => true
  | _ => false

/-- Every packet queued on a lane whose head has not left is discarded and counted (R349). -/
def Dev.dropQueued (d : Dev) (l : Nat) : Dev :=
  d.each (d.net.pkts.filter (fun p => p.place.egress == some l && !p.place.inContext && !d.isOpen l p.id))
    (fun d p => (d.discardOther p).endPkt p.id)

/-- A stomped request that its terminal has released completes with TIMEOUT, which retires its ledger entry (R112, R218). -/
def Dev.lateReq (d : Dev) (p : Pkt) (src : Nat) : Dev :=
  match (if p.vl = 1 then d.ledgerFind p.src p.dst p.tag else none) with
  | some l =>
    ((((d.ledgerDrop l).raiseErr l.src l.dst St.TIMEOUT l.writing).send (answerReq p 0x21 St.TIMEOUT src)).countEv 3 10 1 p.ctx).retryFlow
      l.src l.dst
  | none => d

/-- A stomped request with PSN_VALID 0 of which nothing has left is discarded, and with it the ledger entry it took (R39,
R111). -/
def Dev.unlist (d : Dev) (p : Pkt) : Dev :=
  match d.ledgerFind p.src p.dst p.tag with
  | some l => (d.ledgerDrop l).retryFlow l.src l.dst
  | none => d

/-- A packet that turns out stomped or cut short ends: what was forwarded will end in a stomped tail, and a request that was
partly released is completed with TIMEOUT; a packet numbered for a resequencer fills its slot; any other is discarded,
counted by `count` (R39, R111, R112). -/
def Dev.stompAs (d : Dev) (id : Nat) (count : Dev → Pkt → Dev) : Dev :=
  let d := d.modPkt id (fun p => { p with bad := true, whole := true })
  match d.pkt id with
  | none => d
  | some p =>
    match p.place with
    | .held _ _ => d
    | .rsqWait _ _ => d
    | .queue l _ =>
      if d.isOpen l id then d.lateReq p 0
      else if d.ltype l = 0 ∧ p.vl = 1 then (if p.psnValid then d.lateReq p 0 else (count d p).unlist p).endPkt id
      else if d.ltype l = 0 ∧ p.psnValid ∧ p.vl ≠ 2 then d
      else (count d p).endPkt id
    | .atFn 1 => (d.lateReq p 1).endPkt id
    | .drain => d.endPkt id
    | _ => (count d p).endPkt id

/-- A packet turns out stomped: a discard of it is counted in DISCARD_OTHER (R339). -/
def Dev.stompPkt (d : Dev) (id : Nat) : Dev := d.stompAs id Dev.discardOther

/-- The packets being received on a lane are cut short (R349). -/
def Dev.cutReceive (d : Dev) (l : Nat) : Dev :=
  let x := d.lane l
  let d := d.whenSome x.rxLow (fun i d => d.stompPkt i)
  d.whenSome x.rxHigh (fun i d => d.stompPkt i)

/-- A packet open on an egress that failed: what has arrived of it is dropped at once, and the rest as it arrives, its
cells freed as they are read (R349). -/
def Dev.drainPkt (d : Dev) (id : Nat) : Dev :=
  match d.pkt id with
  | none => d
  | some p =>
    if p.whole then d.endPkt id
    else (d.modPkt id (fun p => { p with place := .drain, sent := p.body.length + 1 })).trimBuf p.buf

/-- The packets open on a lane's egress end at once (R349). -/
def Dev.cutSend (d : Dev) (l : Nat) : Dev :=
  let x := d.lane l
  let d := d.whenSome x.txLow (fun i d => d.drainPkt i)
  d.whenSome x.txHigh (fun i d => d.drainPkt i)

/-- TBL_DOWN indices that are VALID and whose set has a member that passes a test. -/
def Dev.downWith (d : Dev) (c : List Nat → Bool) : List Nat :=
  (d.regs.filterMap (fun x => if keyNum x.1 = RF.num .TBL_DOWN then some (keyIdx x.1) else none)).filter (fun n =>
    d.flag F.TBL_DOWN_VALID n && ((d.members (d.fld F.TBL_DOWN_SET n)).1.any (fun m => c m.2)))

/-- TBL_DOWN indices whose set has an eligible member, or one whose lanes only finish their packets (R77). -/
def Dev.aliveDown (d : Dev) : List Nat := d.downWith d.memberAlive

/-- Makes a change and notes the TBL_DOWN sets that lost their last eligible member by it, all their lanes down or fenced
(R77). -/
def Dev.noteLost (d : Dev) (f : Dev → Dev) : Dev :=
  let before := d.aliveDown
  let d := f d
  let after := d.aliveDown
  let some_ := d.downWith (fun ls => ls.any d.stands)
  { d with net := { d.net with downLost :=
      (d.net.downLost.filter (fun n => !after.contains n)) ++ before.filter (fun n => !some_.contains n) } }

/-- What a lane keeps of its link state when it leaves service. -/
def Lane.afterDown (x : Lane) : Lane := { hbCount := x.hbCount, muted := x.muted, fecS := x.fecS, absentRun := x.absentRun, liftDue := x.liftDue, drainAt := x.drainAt, fell := x.fell }

/-- A lane leaves service and its link starts over: packets end as R349 says, credit and reserves return. -/
def Dev.leaveService (d : Dev) (l : Nat) : Dev :=
  let d := (d.cutReceive l).cutSend l
  let d := d.dropQueued l
  (d.closeCredit l).modLane l Lane.afterDown

/-- A lane in UP, MISCAST or QUARANTINED goes FAILED (R251, R349). -/
def Dev.laneStop (d : Dev) (l cause : Nat) : Dev :=
  if 3 ≤ d.lstate l ∧ d.lstate l ≤ 5 then d.noteLost (fun d => (d.exitUp l cause 6).leaveService l) else d

/-- The endpoint-facing lane was the last one UP to its end point: it is to be declared dead (R226, DEDUCED, log 226). -/
def Dev.endLost (d : Dev) (l : Nat) : Dev :=
  let ca := d.peerCa l
  if d.ltype l = 0 ∧ ca ≠ 0 ∧ !(List.range d.nLanes).any (fun x => d.ltype x == 0 && d.lstate x == 3 && d.peerCa x == ca) then
    { d with net := { d.net with endsDown := d.net.endsDown.erase ca ++ [ca] } }
  else d

/-- A lane fails under R265: its neighbour or its end point is to be judged where it was UP (R226, R278). -/
def Dev.laneFail (d : Dev) (l cause : Nat) : Dev :=
  let was := d.lstate l == 3
  let d := d.laneStop l cause
  if was then (d.modLane l (fun x => { x with fell := true })).endLost l else d

/-! ## Numbered flits (R39, R255) -/

/-- The link takes a numbered flit, counted by the facts of its packet: true where it is good and the next expected; else it
asks for a replay (R255, R343). -/
def Dev.takeNumbered (d : Dev) (l : Nat) (f : Flit) (c : EvCtx) : Bool × Dev :=
  let x := d.lane l
  if (crcGood f ∨ isStomp f) ∧ fcwRseq f = x.rxNext then
    let d := d.setLane l { x with rxNext := (x.rxNext + 1) % 2048, replayReq := false }
    (true, (d.countPort l C.RX_FLIT).countEv (16 + l) 1 1 c)
  else (false, d.setLane l { x with replayReq := true })

/-- A lane whose link runs: ROLL_CALL, UP, MISCAST or QUARANTINED (R251), with the package reference present (R34). -/
def Dev.linkRuns (d : Dev) (l : Nat) : Bool :=
  d.tmu.refOk && decide (d.ltype l ≤ 1) && (d.lstate l == 2 || d.lstate l == 3 || d.lstate l == 4 || d.lstate l == 5)

/-- Opens a discard up to the tail on the packet's half of the link. -/
def Dev.dropRest (d : Dev) (l v len : Nat) : Dev :=
  if len = 0 then d
  else d.modLane l (fun x => if v = 7 then { x with dropHigh := true } else { x with dropLow := true })

/-! ## Header checks (R47, R48, R59) -/

/-- Opcodes that R48 lists. -/
def knownOpc (o : Nat) : Bool :=
  decide (o ≤ 0x02 ∨ (0x10 ≤ o ∧ o ≤ 0x16) ∨ (0x20 ≤ o ∧ o ≤ 0x22) ∨ (0x30 ≤ o ∧ o ≤ 0x32) ∨ (0x40 ≤ o ∧ o ≤ 0x43)
    ∨ o = 0x50 ∨ (0x60 ≤ o ∧ o ≤ 0x62) ∨ (0x70 ≤ o ∧ o ≤ 0x77) ∨ 0xC0 ≤ o)

/-- Opcodes a VL carries (R47). -/
def opcOnVl (o v : Nat) : Bool :=
  match v with
  | 0 => decide (0x60 ≤ o ∧ o ≤ 0x7F)
  | 1 => decide (0x10 ≤ o ∧ o ≤ 0x1F)
  | 2 => decide (0x20 ≤ o ∧ o ≤ 0x2F)
  | 3 => decide ((0x30 ≤ o ∧ o ≤ 0x3F) ∨ 0xC0 ≤ o)
  | 4 => decide ((0x40 ≤ o ∧ o ≤ 0x4F) ∨ 0xC0 ≤ o)
  | 5 => decide (o ≤ 0x0F ∨ 0xC0 ≤ o)
  | 6 => decide (o ≤ 0x0F ∨ 0xC0 ≤ o)
  | _ => decide (o ≤ 0x0F ∨ (0x50 ≤ o ∧ o ≤ 0x5F))

/-- PAD of an opcode whose layout carries it (R50, R143, R210). -/
def padOk (p : Pkt) : Bool :=
  let pad := bitsOf p.rw 5 0
  let lim (n : Nat) : Bool := decide (pad ≤ if p.len = 0 then n else 59)
  if p.opc = 0x00 then lim 40
  else if 0x10 ≤ p.opc ∧ p.opc ≤ 0x22 then lim 12
  else if 0x30 ≤ p.opc ∧ p.opc ≤ 0x43 then lim 28
  else true

/-- The function of a Loom (R45). -/
def loomFn (ca : BitVec 32) : Bool := decide (0x10 ≤ bitsOf ca 7 0 ∧ bitsOf ca 7 0 ≤ 0x13)

/-- A user opcode outside R48, which lets it pass between end points and Loom engines of a live generation: from an end point
to no Loom or of a generation that is not live; to a function of this device that is no Loom; or with no Loom at either
end. -/
def Dev.badUser (d : Dev) (p : Pkt) : Bool :=
  decide (0xC0 ≤ p.opc) && ((d.ltype p.inl == 0 && (!loomFn p.dst || (d.genCheck p).isSome))
    || (p.dst.toNat / 256 == d.ownCa / 256 && !loomFn p.dst) || !(loomFn p.dst || loomFn p.src))

/-- A malformed header after the framing and LEN checks (R59). -/
def Dev.badHeader (d : Dev) (p : Pkt) : Bool :=
  !knownOpc p.opc || !opcOnVl p.opc p.vl || !padOk p || d.badUser p

/-- BAD_HEADER, at most once per port per millisecond, and its counter (R59, R348). -/
def Dev.noteBadHeader (d : Dev) (p : Pkt) : Dev :=
  (d.countPort p.inl C.BAD_HEADER).noticeLim N.BAD_HEADER Src.core 0
    (laneData p.inl + p.opc * 2 ^ 40 + p.len * 2 ^ 33 + p.vl * 2 ^ 29) p.inl

/-- FRAMING_ERR, at most once per port per millisecond, and its counter; what is discarded by it is judged by `c` (R59, R342,
R348). -/
def Dev.noteFraming (d : Dev) (l v ty : Nat) (c : EvCtx) : Dev :=
  ((d.countPort l C.FRAMING_ERR).countEv (16 + l) 5 1 c).noticeLim N.FRAMING_ERR Src.core 0 (laneData l + v * 2 ^ 45 + ty * 2 ^ 43) l

/-- The packet open on receipt on a VL's half of the link. -/
def Lane.rxOpen (x : Lane) (v : Nat) : Option Nat := if v = 7 then x.rxHigh else x.rxLow
/-- Sets it. -/
def Lane.setRx (x : Lane) (v : Nat) (o : Option Nat) : Lane := if v = 7 then { x with rxHigh := o } else { x with rxLow := o }

/-- A packet that passed the checks of its ingress goes on: a response to the terminal's accounting, a request through the
swatch check, anything else to its route (R209, R218). -/
def Dev.admitPkt (d : Dev) (p : Pkt) (ep : Bool) : Dev :=
  if ep ∧ p.vl = 2 then d.modPkt p.id (fun p => { p with place := .respIn p.inl })
  else if ep ∧ p.vl = 1 ∧ p.opc ≠ 0x15 ∧ !p.house then
    let d := ((d.countMem C.REQ_CHECKED).countEv 3 8 1 p.ctx).countEv 3 9 (ceilDiv p.extent 64) p.ctx
    match d.swatchCheck p with
    | (.inl st, d) => d.refuse p (if d.wrongFn p then St.join st St.UNSUPPORTED else st) (fun d => d)
    | (.inr (_, e), d) =>
      if p.opc = 0x16 then d.modPkt p.id (fun p => { p with place := .xferIn p.inl })
      else (d.modPkt p.id (fun p => p.translate e)).forward p.id
  else d.forward p.id

/-- A struck production's packets are discarded from entry to STRIKING on; once it is STRUCK or SEALED, an end point's
are refused by the check of its ingress (R57, R288). -/
def Dev.strikesAt (d : Dev) (prod : Nat) (ep : Bool) : Bool :=
  d.fld F.GLB_PROD_STATE prod == 2 || (decide (3 ≤ d.fld F.GLB_PROD_STATE prod) && !ep)

/-- The generation and policing checks of an ingress: the status of R61 that stands first is the one given (R57, R61, R124,
R126, R288). -/
def Dev.ingressChecks (d : Dev) (p : Pkt) (ep : Bool) (act : Nat) : Dev :=
  let checked := decide (p.opc < 0x60 ∨ 0x80 ≤ p.opc)
  if checked ∧ d.strikesAt p.prod ep ∧ ¬(ep ∧ p.vl = 1) then (d.discardAs p C.STRIKE_DISCARD).endPkt p.id
  else
    match (if ep ∧ checked then d.genCheck p else none) with
    | some st => d.refuseGen p st
    | none => if act = 2 then d.policeDrop p else d.admitPkt p ep

/-- A packet that passed the link's checks meets the checks of its ingress and is routed (R43, R46, R49, R57, R124). -/
def Dev.ingress (d : Dev) (id : Nat) : Dev :=
  match d.pkt id with
  | none => d
  | some p =>
    let ep := d.ltype p.inl == 0
    if ep ∧ bitsOf p.src 31 8 ≠ d.fld F.PRT_SEAT_CA p.inl then
      let d := d.noticeLim N.SRC_MISMATCH Src.core 0 (laneData p.inl + p.src.toNat) p.inl
      (d.discardAs p C.SRC_MISMATCH).endPkt id
    else if ep ∧ 0x72 ≤ p.opc ∧ p.opc ≤ 0x77 ∧ !d.isFm p.src then (d.discardOther p).endPkt id
    else
      let p := if ep then p.setRw 29 24 16 else p
      let p := if ep ∧ p.vl = 1 then p.setRw 19 19 0 else p
      let (act, d) := d.police p.inl p.vl p.tc (64 * p.flits)
      let p := if act = 2 then p else d.policed p act
      (d.modPkt id (fun _ => p)).ingressChecks p ep act

/-- A refusal may have ended a packet whose body is still to come: the rest is dropped as it arrives. -/
def Dev.openRx (d : Dev) (l v id len : Nat) : Dev :=
  if len = 0 then d
  else if (d.pkt id).isSome then d.modLane l (fun x => x.setRx v (some id))
  else d.dropRest l v len

/-- A packet that its head began ends here, and with it what is still to come of it. -/
def Dev.refuseHead (d : Dev) (l : Nat) (f : Flit) (p : Pkt) (id : Nat) : Dev :=
  let d := d.endPkt id
  if isStomp f then d else d.dropRest l p.vl p.len

/-- The packet open on a half of the link is discarded by a check that counts the event itself (R59). -/
def Dev.cutOpen (d : Dev) (l v o : Nat) : Dev := (d.modLane l (fun x => x.setRx v none)).stompAs o (fun d _ => d)

/-- A head while a packet is open on its half of the link: both are discarded (R38, R59). -/
def Dev.headOverOpen (d : Dev) (l : Nat) (p : Pkt) (o : Nat) : Dev :=
  ((d.noteFraming l p.vl 1 p.ctx).whenSome (d.pkt o) (fun q d => d.countDrop q)).cutOpen l p.vl o

/-- A link-local head: consumed here, without cells or credit; the checks of R59 in their order (R49). -/
def Dev.linkLocalHead (d : Dev) (l : Nat) (f : Flit) (p : Pkt) : Dev :=
  if isStomp f then d
  else match (d.lane l).rxLow with
  | some o => (d.headOverOpen l p o).dropRest l p.vl p.len
  | none =>
    if 69 < p.len then ((d.noteBadHeader p).countDrop p).dropRest l p.vl p.len
    else (d.modLane l (fun x => { x with linkRx := x.linkRx ++ [⟨p.opc == 0x71, p.rw ++ p.pay⟩] })).dropRest l p.vl p.len

/-- A head goes straight to a resequencer of this device, with no refusal on its way: to an end point of it, or to Bolt
memory (R62, R109). -/
def Dev.reachesRsq (d : Dev) (p : Pkt) : Bool :=
  if p.dst.toNat / 256 = d.ownCa / 256 then bitsOf p.dst 7 0 == 1 && p.vl == 1 && (d.genCheck p).isNone
  else p.hops != 0 &&
    match (d.routeSet p).1 with
    | .inl (s, det) => match (d.select p s det).1 with
      | .lane l _ => d.ltype l == 0 && (d.egressCheck p l).isNone
      | _ => false
    | .inr _ => false

/-- A head that is stomped: the packet is discarded, without the checks that follow; one from a neighbour with a PSN that goes
straight to a resequencer fills its slot there (R39, R59, R111). -/
def Dev.stompedHead (d : Dev) (p : Pkt) (id : Nat) : Dev :=
  if d.ltype p.inl = 1 ∧ p.psnValid ∧ p.len ≤ 69 ∧ !d.badHeader p ∧ d.reachesRsq p then (d.forward id).stompPkt id
  else (d.discardOther p).endPkt id

/-- The checks of a packet that holds its credit and cells (R59, R259, R279). -/
def Dev.headChecks (d : Dev) (l : Nat) (f : Flit) (p : Pkt) (id : Nat) : Dev :=
  if d.flag F.PRT_LINK_STAT_FENCED l then (d.discardAs p C.FENCE_DISCARD).refuseHead l f p id
  else if d.lstate l ≠ 3 then (d.discardAs p C.LANE_NOT_SERVING).refuseHead l f p id
  else if isStomp f then d.stompedHead p id
  else match (d.lane l).rxOpen p.vl with
  | some o => (d.headOverOpen l p o).refuseHead l f p id
  | none =>
    let d :=
      if 69 < p.len then ((d.noteBadHeader p).countDrop p).endPkt id
      else if d.badHeader p then (d.noteBadHeader p).refuseReq { p with id := id } St.UNSUPPORTED (fun d => d.countDrop p)
      else d.ingress id
    d.openRx l p.vl id p.len

/-- A request that arrives keeps the ADDR its end point sent: on an endpoint-facing lane, or where no device has translated
it (R209, R343). -/
def Pkt.withFa (p : Pkt) (ep : Bool) : Pkt :=
  if p.vl = 1 ∧ p.opc ≠ 0x15 ∧ (ep ∨ !bitOf p.rw 19) then { p with fa := some p.addr } else p

/-- A head takes its half of the link: what is still to come of a packet discarded before is forgotten, and its own flits
are judged by it (DESIGN CHOICE, log entry 31: the head is taken as good, with no FRAMING_ERR). -/
def Lane.newHead (x : Lane) (p : Pkt) (stomp : Bool) : Lane :=
  if p.vl = 7 then { x with dropHigh := x.dropHigh && stomp, highCtx := if stomp then x.highCtx else p.ctx }
  else { x with dropLow := x.dropLow && stomp, lowCtx := if stomp then x.lowCtx else p.ctx }

/-- HEAD_FLIT_ARRIVAL (R62): the link takes the flit, the packet takes its credit and cells, is checked, and its route is
resolved once. A packet without credit fails the lane (R254). -/
def Dev.headArrival (d : Dev) (l : Nat) (f : Flit) : Dev :=
  let p := (pktOfHead l f).withFa (d.ltype l == 0)
  match d.takeNumbered l f p.ctx with
  | (false, d) => d
  | (true, d) =>
    let d := (d.countPort l C.RX_PKT).countEv (16 + l) 0 1 p.ctx
    let d := d.modLane l (fun x => x.newHead p (isStomp f))
    if p.vl = 0 ∧ (p.opc = 0x70 ∨ p.opc = 0x71) then d.linkLocalHead l f p
    else
      let onDet := d.onDetour l p.vl p.detour
      let k := lvKey l p.vl
      let c := d.lv k
      let have_ := if onDet then (c.dGrant + 2 ^ 24 - c.dRx) % 2 ^ 24 else (c.nGrant + 2 ^ 24 - c.nRx) % 2 ^ 24
      if have_ < p.credit then (d.countPort l C.CREDIT_OVERRUN).laneFail l 5
      else
        let d := d.setLv k (if onDet then { c with dRx := (c.dRx + p.credit) % 2 ^ 24 } else { c with nRx := (c.nRx + p.credit) % 2 ^ 24 })
        let q := d.quotaMark p
        let (b, d) := d.chargeLane k onDet p
        let (id, d) := d.addPkt { q with buf := b, bad := isStomp f }
        (d.grant k).headChecks l f { p with id := id } id

/-- A body or tail flit of an open packet is stored; of one whose egress has failed, it is dropped (R38, R349). -/
def Dev.joinBody (d : Dev) (l v : Nat) (p : Pkt) (f : Flit) (tail : Bool) : Dev :=
  let d := d.modPkt p.id (fun p => { p with body := p.body ++ [BitVec.ofNat 480 (bitsOf f 495 16)], whole := tail })
  let d := if tail then d.modLane l (fun x => x.setRx v none) else d
  if p.place = .drain then d.drainPkt p.id else d

/-- A stomp on a VL: the last flit of the packet open there, and nothing where none is (R39, R59). -/
def Dev.bodyStomp (d : Dev) (l v : Nat) : Dev :=
  match ((d.lane l).rxOpen v).bind (fun i => d.pkt i) with
  | none => d
  | some p => if p.vlIn = v then (d.modLane l (fun x => x.setRx v none)).stompPkt p.id else d

/-- The facts that a body or tail flit is counted by: those of the packet open on its half, or being dropped there, with the
VL of its FCW (R343). -/
def Dev.flitCtx (d : Dev) (l v : Nat) : EvCtx :=
  let x := d.lane l
  match (x.rxOpen v).bind (fun i => d.pkt i) with
  | some p => { p.ctx with vl := v }
  | none =>
    if v = 7 ∧ x.dropHigh then x.highCtx
    else if v ≠ 7 ∧ x.dropLow then { x.lowCtx with vl := v }
    else { inl := l, vl := v }

/-- A body or tail flit joins the open packet of its VL (R38, R39, R59); what a fenced lane still receives of one is
dropped (R279). -/
def Dev.bodyArrival (d : Dev) (l : Nat) (f : Flit) : Dev :=
  match d.takeNumbered l f (d.flitCtx l (fcwVl f)) with
  | (false, d) => d
  | (true, d) =>
    let v := fcwVl f
    let x := d.lane l
    let tail := fcwType f == 3
    let last := tail || isStomp f
    if (if v = 7 then x.dropHigh else x.dropLow) then
      if last then d.setLane l (if v = 7 then { x with dropHigh := false } else { x with dropLow := false }) else d
    else if isStomp f then d.bodyStomp l v
    else
      match (x.rxOpen v).bind (fun i => d.pkt i) with
      | none => d.noteFraming l v (fcwType f) { inl := l, vl := v }
      | some p =>
        if p.vlIn ≠ v then
          ((d.noteFraming l v (fcwType f) p.ctx).cutOpen l v p.id).dropRest l v 1
        else if (p.body.length + 1 = p.len) ≠ (tail = true) then
          let d := ((d.noteBadHeader p).countDrop p).cutOpen l v p.id
          if tail then d else d.dropRest l v 1
        else d.joinBody l v p f tail

/-- BODY_FLIT_ARRIVAL. -/
def execBodyFlitArrival (lane : Nat) (flit : Flit) (s : State) : Res :=
  ifUnit (decide (lane < s.d.nLanes)) <| onDev s fun d =>
    d.when (d.linkRuns lane && decide (2 ≤ fcwType flit)) (fun d => (d.bodyArrival lane flit).settle)

/-! ## Idle flits (R253 to R255) -/

def idleServing (f : Flit) : Bool := bitOf f 495
def idleReplay (f : Flit) : Bool := bitOf f 494
def idleAck (f : Flit) : Nat := bitsOf f 490 480
def idleN (f : Flit) (v : Nat) : Nat := bitsOf f (479 - 24 * v) (456 - 24 * v)
def idleD (f : Flit) (v : Nat) : Nat := bitsOf f (287 - 24 * (v - 1)) (264 - 24 * (v - 1))
def idleMarginValid (f : Flit) : Bool := bitOf f 143
def idleMargin (f : Flit) : Nat := bitsOf f 137 128

/-- The unacknowledged flits after a cumulative ACK. -/
def ackThrough : List (Nat × Flit) → Nat → Option (List (Nat × Flit))
  | [], _ => none
  | x :: l, a => if x.1 = a then some l else ackThrough l a

/-- Takes ACK and the replay request of an idle flit (R255). The eighth replay of one RSEQ in a row fails the lane. -/
def Dev.takeAck (d : Dev) (l : Nat) (f : Flit) : Dev :=
  let x := d.lane l
  let a := idleAck f
  let x := match ackThrough x.replay a with | some r => { x with replay := r, acked := a } | none => x
  let d := d.setLane l x
  let d := match x.rttFrom with
    | some t =>
      if delta x.acked x.rttSeq 11 < 1024 then
        (d.setFld F.PRT_LINK_STAT_RTT l (min 2047 (d.since t / 655360))).modLane l (fun x => { x with rttFrom := none })
      else d
    | none => d
  if idleReplay f then
    let d := d.bumpSat F.PRT_LINK_STAT_REPLAYS l 1
    let x := d.lane l
    if x.resend ≠ [] ∨ x.replay = [] then d
    else
      let s := (a + 1) % 2048
      let run := if x.runSeq = s then x.run + 1 else 1
      if run = 8 then d.laneFail l 3
      else d.setLane l { x with resend := x.replay.map (·.2), runSeq := s, run := run }
  else d

/-- MEMBER_SELECTION_RETRY (R71): a head waiting at ingress runs selection again, and then those behind it. -/
def execMemberSelectionRetry (pid : Nat) (s : State) : Res :=
  onDev s fun d =>
    match d.pkt pid with
    | none => d
    | some p =>
      if p.place = .ingress then
        ((d.forward pid).retryWaiting (fun q => decide (pid < q.id) && q.inl == p.inl && q.vl == p.vl)).settle
      else d

/-- ORIGIN_IDLE_EXPIRY (R73): the way of an idle flow is free, and heads that wait for a way of its row try again. -/
def execOriginIdleExpiry (src dst : BitVec 32) (vl : Nat) (s : State) : Res :=
  onDev s fun d =>
    let d := d.setOrigins (d.net.origins.map (fun o => if o.src = src ∧ o.dst = dst ∧ o.vl = vl then { o with idle := true } else o))
    (d.retryWaiting (fun _ => true)).settle

end Sys2Proof.Machine
end

