-- ==== Sys2Proof/Machine/RegCore.lean ====
section
/-! DEFINITION. The rules every register access meets (R2, R8 to R12, R330, R338), apart from each register's own. -/

namespace Sys2Proof.Machine

/-- The master is a house port, or the device itself. -/
def isHousePort : Master → Bool
  | .house _ => true
  | .device => true
  | .inband _ => false

/-- The master holds house privilege (R330). -/
def Dev.houseM (d : Dev) (m : Master) : Bool := match m with | .inband ca => d.housePriv ca | _ => true
/-- The master is a registered fabric manager, or a house port. -/
def Dev.fmM (d : Dev) (m : Master) : Bool := match m with | .inband ca => d.isFm ca | _ => true
/-- The master holds rehearsal privilege. -/
def Dev.rhsM (d : Dev) (m : Master) : Bool :=
  match m with
  | .inband ca => (List.range 16).any (fun n => d.flag F.GLB_HOUSE_ACL_VALID n && d.flag F.GLB_HOUSE_ACL_RHS n
      && d.fld F.GLB_HOUSE_ACL_CA n == bitsOf ca 31 8)
  | _ => true

/-- Unit (port, Wing or Loom) of register `i` of a family. -/
def RF.unit (r : RF) (i : Nat) : Nat := i / (r.dims.tail.foldl (fun a x => a * x.2.2) 1)

def RF.isPrt (r : RF) : Bool := decide (0x1000000 ≤ r.base ∧ r.base < 0x6000000)
def RF.isWng (r : RF) : Bool := decide (0x6000000 ≤ r.base ∧ r.base < 0x8000000)
def RF.isLom (r : RF) : Bool := decide (0x8000000 ≤ r.base ∧ r.base < 0xC000000)

/-- Counter instance of register `i` of a counter family (R339). -/
def RF.inst (r : RF) (i : Nat) : Option Nat :=
  match r with
  | .CNT_VAL => some (i / 64)
  | .CNT_CHAIN => some i
  | .CNT_FILT_A => some (i / 16)
  | .CNT_FILT_B => some (i / 16)
  | .CNT_FILT_C => some (i / 16)
  | .CNT_FILT_D => some (i / 16)
  | _ => none

/-- A register lies there: R339 lists no counter instance 6 to 15 (R8). -/
def RF.mapped (r : RF) (i : Nat) : Bool := (r.inst i).all (fun n => decide (n < 6 ∨ 16 ≤ n))

/-- A register of a lane, Wing or counter instance that the part does not have: reads zero, ignores writes (R2, R340). -/
def Dev.absentReg (d : Dev) (r : RF) (i : Nat) : Bool :=
  (r.isPrt && decide (d.nLanes ≤ r.unit i)) || (r.isWng && decide (d.nWings ≤ r.unit i)) || (r.inst i).any (fun n => !d.instOk n)

/-- Site of a counter instance other than the Stage's (R339). -/
def instSite (n : Nat) : Option Nat :=
  if 1040 ≤ n ∧ n < 1056 then some (wingSite (n - 1040))
  else if 1056 ≤ n ∧ n < 1060 then some (loomSite (n - 1056))
  else if 1060 ≤ n ∧ n < 1064 then some (stackSite (n - 1060)) else none

/-- The register's die is not RUNNING (R338, R340). -/
def Dev.regDown (d : Dev) (r : RF) (i : Nat) : Bool :=
  (r.isWng && !d.absentReg r i && !d.siteUp (wingSite (r.unit i))) || (r.isLom && !d.siteUp (loomSite (r.unit i)))
  || ((r.inst i).bind instSite).any (fun s => !d.absentReg r i && !d.siteUp s)

/-- SOURCE of REG_RESERVED (R334). -/
def RF.source (r : RF) (i : Nat) : Nat :=
  if r.isPrt then Src.core
  else if r.isWng then Src.die (wingSite (r.unit i))
  else if r.isLom then Src.die (loomSite (r.unit i))
  else if r.base < 0x1000 then Src.prompter
  else if r.base < 0x2000 then Src.power
  else if r.base < 0x3000 then Src.security
  else if r.base < 0x100000 then Src.prompter
  else if r.base < 0x200000 then Src.time
  else if r.base < 0x400000 then Src.tables
  else if r.base < 0x1000000 then Src.core
  else if 0xD000000 ≤ r.base then Src.memory
  else Src.prompter

/-- Registers that accept writes only from a house port (R283, R321, R330, SVN_COMMIT). -/
def RF.housePortOnly (r : RF) : Bool :=
  match r with
  | .GLB_FM => true | .GLB_FM_KEY => true | .GLB_FM_LOCK => true | .GLB_HOUSE_ACL => true | .GLB_HOUSE_LOCK => true
  | .SEC_DBG_CTL => true | .SEC_DBG_RESP => true
  | _ => false

/-- A write the master may not make (R33, R140, R282, R297, R300, R314, R316, R321, R330). -/
def Dev.writeDenied (d : Dev) (m : Master) (r : RF) (w : Word) : Bool :=
  match r with
  | .SEC_EXT_CTL => !(fldOf F.SEC_EXT_CTL_OP w == 2 && isHousePort m)
      && !(fldOf F.SEC_EXT_CTL_OP w == 1 && decide (8 ≤ fldOf F.SEC_EXT_CTL_INDEX w))
  | .TBL_ENS_A => !d.fmM m
  | .TBL_ENS_B => !d.fmM m
  | .GLB_RHS => !d.rhsM m
  | .PWR_CAP_INST => fldOf F.PWR_CAP_INST_EN w == 0 && !isHousePort m
  | .GLB_RESET_CTL => fldOf F.GLB_RESET_CTL_DEVICE_RST w == 1 && !isHousePort m
  | r => r.housePortOnly && !isHousePort m

/-- The Prompter does not answer: before it starts, and in RECOVERY but for the SEC_ registers over a house port (R315,
R338). -/
def Dev.noPrompter (d : Dev) (m : Master) (r : RF) : Bool :=
  !d.prompter
  && !(d.fld F.SEC_STATE_SECURITY 0 == 2 && decide (0x2000 ≤ r.base ∧ r.base < 0x3000) && isHousePort m)

/-- The status with which an access ends before it reaches the register, if it does (R8, R61, R330, R338). -/
def Dev.regRefused (d : Dev) (m : Master) (r : RF) (i : Nat) (w : Option Word) : Option Nat :=
  if !r.mapped i ∨ d.noPrompter m r then some St.UNSUPPORTED
  else if d.regDown r i then some St.UNSUPPORTED
  else if !d.houseM m then some St.DENIED
  else match w with
    | some w => if d.writeDenied m r w then some St.DENIED else none
    | none => none

/-- EVENT codes of a counter instance (R342). -/
def eventOk (n v : Nat) : Bool :=
  if 16 ≤ n ∧ n < 1040 then decide (v ≤ 5)
  else if n = 3 then decide (8 ≤ v ∧ v ≤ 10)
  else if 1056 ≤ n ∧ n < 1060 then v == 16 || v == 17
  else if 1060 ≤ n ∧ n < 1064 then v == 24
  else false

/-- A field of a written word holds a reserved encoding: the lowest bit of the first such field (R9). -/
def Dev.reservedEnc (d : Dev) (r : RF) (i : Nat) (w : Word) : Option Nat :=
  let bad (f : Fld) (c : Nat → Bool) : Option Nat := if c (fldOf f w) then some f.lo else none
  let zero (f : Fld) : Option Nat := bad f (· == 0)
  let firstOf (l : List (Option Nat)) : Option Nat := l.findSome? id
  match r with
  | .TBL_TCAM_PART => bad F.TBL_TCAM_PART_COORD_SLOTS (fun v => v % 1024 != 0 || decide (130048 < v))
  | .PRT_ROUTE => bad F.PRT_ROUTE_DIR (· == 3)
  | .WRD_RSQ_CTL => firstOf [zero F.WRD_RSQ_CTL_GAP, zero F.WRD_RSQ_CTL_IDLE]
  | .PRT_MARK => bad F.PRT_MARK_T1 (fun v => decide (fldOf F.PRT_MARK_T2 w ≤ v))
  | .PRT_QRATE => zero F.PRT_QRATE_WEIGHT
  | .PRT_VLG => firstOf [zero F.PRT_VLG_VL6, zero F.PRT_VLG_VL5, zero F.PRT_VLG_VL4, zero F.PRT_VLG_VL3, zero F.PRT_VLG_VL2,
      zero F.PRT_VLG_VL1]
  | .PRT_COLOUR => bad F.PRT_COLOUR_COLOUR (fun v => (List.range 8).any (fun t => v / 4 ^ t % 4 == 3))
  | .PRT_POL => bad F.PRT_POL_BASE (fun v => fldOf F.PRT_POL_PER_TC w == 1 && decide (8184 < v))
  | .TMU_RATE => bad F.TMU_RATE_RATE (fun v => decide (2 ^ 37 < (signedOf 40 v).natAbs))
  | .PRT_RO_ENTRY => firstOf [bad F.PRT_RO_ENTRY_EVEN (fun v => v % 2 ^ 24 == 0), bad F.PRT_RO_ENTRY_ODD (fun v => v % 2 ^ 24 == 0)]
  | .PRT_LAUNCH_CTL => zero F.PRT_LAUNCH_CTL_WINDOW
  | .PRT_LAUNCH => zero F.PRT_LAUNCH_COUNT
  | .PRT_LINK_CTL => bad F.PRT_LINK_CTL_TYPE (fun v => v == 2 &&
      !(if d.fuse.part = 0x0512 then i / 64 ∈ [0, 1] else i / 64 ∈ [0, 1, 14, 15] : Bool))
  | .PRT_SEAT => bad F.PRT_SEAT_EXPECT (· == 3)
  | .GLB_LINK_CTL => zero F.GLB_LINK_CTL_LEVEL_CAP
  | .GLB_RHS => firstOf [bad F.GLB_RHS_KIND (fun v => decide (5 ≤ v)), zero F.GLB_RHS_PERIOD]
  | .PWR_CAP_MIN => bad F.PWR_CAP_MIN_CAP (fun v => decide (v < d.capMin ∨ d.capMax < v))
  | .PWR_CAP_INST => bad F.PWR_CAP_INST_CAP (fun v => decide (v < d.capMin ∨ d.capMax < v))
  | .PWR_GOV => bad F.PWR_GOV_STEP_MIN (fun v => decide (v < 2 ∨ 7 < v))
  | .SEC_EXT_CTL => bad F.SEC_EXT_CTL_OP (· == 3)
  | .SEC_DBG_CTL => if fldOf F.SEC_DBG_CTL_OP w = 2 then firstOf [zero F.SEC_DBG_CTL_LEVEL, zero F.SEC_DBG_CTL_MINUTES] else none
  | .GLB_SUB => bad F.GLB_SUB_HPORT (· == 3)
  | .MEM_CTL => firstOf [zero F.MEM_CTL_FLAG_HOLD, zero F.MEM_CTL_MOVE_LIMIT]
  | .CNT_DMA_CTL => zero F.CNT_DMA_CTL_PERIOD
  | .CNT_FILT_A => firstOf [bad F.CNT_FILT_A_EVENT (fun v => !eventOk (i / 16) v), bad F.CNT_FILT_A_PRIV (· == 3), bad F.CNT_FILT_A_MASTER (· == 3)]
  | .WNG_LASER_CMD => bad F.WNG_LASER_CMD_OP (fun v => decide (3 ≤ v))
  | _ => none

/-- The lock that closes a family's RWL fields (R12, R283, R330). -/
def Dev.locked (d : Dev) (r : RF) : Bool :=
  match r with
  | .GLB_FM => d.flag F.GLB_FM_LOCK_LOCK 0
  | .GLB_FM_KEY => d.flag F.GLB_FM_LOCK_LOCK 0
  | .GLB_HOUSE_ACL => d.flag F.GLB_HOUSE_LOCK_LOCK 0
  | _ => false

/-- The word after a plain write, by the access codes of R10. -/
def Dev.written (d : Dev) (r : RF) (i : Nat) (w : Word) : Word :=
  r.fields.foldl (fun a f =>
    let v := bitsOf w f.hi f.lo
    match f.acc with
    | .rw => setBits a f.hi f.lo v
    | .rwl => if d.locked r then a else setBits a f.hi f.lo v
    | .w1c => setBits a f.hi f.lo (Nat.land (bitsOf a f.hi f.lo) (2 ^ (f.hi - f.lo + 1) - 1 - v))
    | .w1s => setBits a f.hi f.lo (Nat.lor (bitsOf a f.hi f.lo) v)
    | _ => a) (d.rd r i)

/-- A plain write (R10). -/
def Dev.plainWrite (d : Dev) (r : RF) (i : Nat) (w : Word) : Dev := d.wr r i (d.written r i w)

/-- A write that has reached its register: the status it completes with, and the device after the register's own
operation, or after the discard of a reserved encoding (R2, R8, R9). -/
def Dev.regWith (d : Dev) (m : Master) (r : RF) (i : Nat) (w : Word) (op : Dev → Dev) : Nat × Dev :=
  match d.regRefused m r i (some w) with
  | some st => (st, d)
  | none =>
    if d.absentReg r i then (St.OK, d)
    else match d.reservedEnc r i w with
      | some b => (St.OK, d.notice N.REG_RESERVED (r.source i) 0 (r.addr i * 2 ^ 32 + b))
      | none => (St.OK, op d)

/-- A register-write command: the write, and its completion. -/
def Dev.regRow (d : Dev) (m : Master) (r : RF) (i : Nat) (w : Word) (op : Dev → Dev) : Dev :=
  let x := d.regWith m r i w op
  x.2.emitOut (.reg x.1 0)

/-- A read that has reached its register: RC fields clear with the read (R10). -/
def Dev.rcClear (d : Dev) (r : RF) (i : Nat) : Dev :=
  if r.fields.any (fun f => f.acc == .rc) then
    d.wr r i (r.fields.foldl (fun a f => if f.acc = .rc then setBits a f.hi f.lo 0 else a) (d.rd r i))
  else d

end Sys2Proof.Machine
end

