-- ==== Sys2Proof/Machine/Ptp.lean ====
section
/-! DEFINITION. The transparent clock: PTP messages in packets, residence and correction (R273, R274). -/

namespace Sys2Proof.Machine

/-- A packet with `bs` in place of its payload bytes from head-payload offset `off` (4 or more). -/
def Pkt.setBytes (p : Pkt) (off : Nat) (bs : List Byte) : Pkt :=
  let l := p.bytes
  let l' := l.take (off - 4) ++ bs ++ l.drop (off - 4 + bs.length)
  { p with pay := BitVec.ofNat 320 (bytesAt l' 0 40), body := splitBody p.body.length (l'.drop 40) }

/-! ## The frame check sequence (R51, R94) -/

/-- A byte with its bits in reverse order. -/
def revByte (b : Nat) : Nat := (List.range 8).foldl (fun a i => a * 2 + b / 2 ^ i % 2) 0

/-- The frame check sequence of IEEE 802.3 over the frame's other bytes, in transmission order (R94). -/
def fcsOf (bs : List Byte) : List Byte :=
  let c := crc32 0x04C11DB7 (bs.map (fun b => BitVec.ofNat 8 (revByte b.toNat)))
  (bytesOf 4 (0xFFFFFFFF - c)).map (fun b => BitVec.ofNat 8 (revByte b.toNat))

/-! ## PTP messages -/

/-- Where a PTP message sits in a packet: payload offset of its header, and of a UDP checksum before it. -/
structure PtpAt where
  hdr : Nat
  udp : Option Nat
  deriving DecidableEq, Repr

/-- Payload offset of an encapsulated frame's byte 0 (R51). -/
def ethBase : Nat := 8

/-- EtherType of an encapsulated frame after at most one 802.1Q tag, and the payload offset of what follows. -/
def Pkt.etherType (p : Pkt) : Nat × Nat :=
  let t := ofBytes (p.bytesFrom (ethBase + 12) 2)
  if t = 0x8100 then (ofBytes (p.bytesFrom (ethBase + 16) 2), ethBase + 18) else (t, ethBase + 14)

/-- The PTP message of a packet, recognised as R274 says from the bytes present. -/
def Pkt.ptp (p : Pkt) : Option PtpAt :=
  if p.opc = 0x50 then some ⟨4, none⟩
  else if p.opc = 0x01 then
    let (t, o) := p.etherType
    let b (i : Nat) : Nat := ofBytes (p.bytesFrom i 1)
    if t = 0x88F7 then some ⟨o, none⟩
    else if t = 0x0800 ∧ b (o + 9) = 17 then
      let u := o + b o % 16 * 4
      if ofBytes (p.bytesFrom (u + 2) 2) = 319 then some ⟨u + 8, some (u + 6)⟩ else none
    else if t = 0x86DD ∧ b (o + 6) = 17 then
      if ofBytes (p.bytesFrom (o + 42) 2) = 319 then some ⟨o + 48, some (o + 46)⟩ else none
    else none
  else none

/-- Bytes of a packet present from payload offset 4 on. -/
def Pkt.present (p : Pkt) : Nat := 40 + 60 * p.body.length

/-- Enough of a packet is present to recognise and correct a PTP message in it, or the whole of it is: the head flit holds
what EtherType 0x88F7 needs. -/
def Pkt.ptpKnown (p : Pkt) : Bool :=
  p.opc != 0x01 || p.etherType.1 == 0x88F7 || p.whole || decide (144 ≤ p.present)

/-- A reading of T, in units of 2^-16 ns, in PTP format: seconds to 48 bits, ns, and the 16 fraction bits (R268). -/
def ptpTime (t : Nat) : Nat × Nat × Nat := (t / 65536 / 10 ^ 9 % 2 ^ 48, t / 65536 % 10 ^ 9, t % 65536)

/-- T now in units of 2^-16 ns (R267). -/
def Dev.timeUnits (d : Dev) : Nat := d.timeFull / 2 ^ 32

/-- messageType of a PTP message with a version the device treats, if the packet holds one (R274). -/
def Pkt.ptpType (p : Pkt) : Option Nat :=
  match p.ptp with
  | none => none
  | some a =>
    let t := ofBytes (p.bytesFrom a.hdr 1)
    let v := ofBytes (p.bytesFrom (a.hdr + 1) 1)
    if v % 16 = 2 ∧ v / 16 ≤ 1 then some (t % 16) else none

/-- Sync or Delay_Req. -/
def ptpEvent (t : Nat) : Bool := t == 0 || t == 1
/-- A peer-delay message. -/
def ptpPdelay (t : Nat) : Bool := t == 2 || t == 3 || t == 0xA

/-- Residence in units of 2^-16 ns (R273). -/
def Dev.residence (d : Dev) (fin fout : Nat) : Nat :=
  let dt : Nat := (fout + 2 ^ 64 - fin % 2 ^ 64) % 2 ^ 64
  ((dt : Int) + (dt : Int) * signedOf 40 (d.fld F.TMU_RATE_RATE 0) / 2 ^ 48).toNat

/-- One's-complement sum of two 16-bit words. -/
def add1c (a b : Nat) : Nat := if a + b < 65536 then a + b else a + b - 65535

/-- A UDP checksum after a field of 64 bits changes: incremental, 0 left at 0 (R274). -/
def udpUpdate (c old new : Nat) : Nat :=
  if c = 0 then 0
  else
    let w (v i : Nat) : Nat := v / 65536 ^ i % 65536
    let s := (List.range 4).foldl (fun a i => add1c (add1c a (65535 - w old i)) (w new i)) (65535 - c)
    if s = 65535 then 65535 else 65535 - s

/-- correctionField with a residence added: saturates at its largest value (R274). -/
def addCorrection (c r : Nat) : Nat := ((signedOf 64 c + (r : Int)) ⊓ (2 ^ 63 - 1)) |> wrapTo 64

/-- The packet with its residence added to correctionField. -/
def Dev.correct (d : Dev) (p : Pkt) : Pkt :=
  match p.ptp with
  | none => { p with ptpDone := true }
  | some a =>
    let old := ofBytes (p.bytesFrom (a.hdr + 8) 8)
    let new := addCorrection old (d.residence p.frcIn p.frcOut)
    let q := p.setBytes (a.hdr + 8) (bytesOf 8 new)
    let q := match a.udp with
      | none => q
      | some u => q.setBytes u (bytesOf 2 (udpUpdate (ofBytes (p.bytesFrom u 2)) old new))
    { q with ptpDone := true }

/-- A PTP message that R274 discards, with the counter it goes to. -/
def Dev.ptpDrop (d : Dev) (p : Pkt) : Option Nat :=
  match p.ptpType with
  | none => none
  | some t =>
    if ptpPdelay t then some C.PTP_PDELAY_DROP
    else if ptpEvent t && !d.flag F.TMU_STAT_LOCKED 0 then some C.PTP_NO_TIME else none

/-- Corrects the message of a packet whose head has left, once enough of it is present (R274). -/
def Dev.ptpRewrite (d : Dev) (p : Pkt) : Dev :=
  if p.ptpDone then d
  else match p.ptpType with
    | some t => if ptpEvent t then (d.modPkt p.id (fun _ => d.correct p)).countTmu C.PTP_CORRECTED
                else d.modPkt p.id (fun p => { p with ptpDone := true })
    | none => d.modPkt p.id (fun p => { p with ptpDone := true })

end Sys2Proof.Machine
end

