-- ==== Sys2Proof/Machine/Buckets.lean ====
section
/-! DEFINITION. Token buckets, the timing wheel, running-order gates, and the admission of commitments (R119 to R135). -/

namespace Sys2Proof.Machine

/-- Index of queue q of a port in PRT_QRATE and PRT_QOWN. -/
def qi (l q : Nat) : Nat := l * 64 + q

/-! ## Buckets (R122, R123) -/

/-- One flit in the units of a bucket's level: 0.1 Gb/s × 2^-16 ns is 1 / 335,544,320 flit. -/
def flitUnits : Nat := 335544320

/-- Bucket depth in flits; values below 70 act as 70. -/
def Dev.burst (d : Dev) (l q : Nat) : Nat := max 70 (d.fld F.PRT_QRATE_BURST (qi l q))

/-- Fill rate of a bucket, in 0.1 Gb/s. -/
def Dev.bRate (d : Dev) (l : Nat) : BucketId → Nat
  | .maxOf q => d.fld F.PRT_QRATE_MAX_RATE (qi l q)
  | .minOf q => d.fld F.PRT_QRATE_MIN_RATE (qi l q)
  | .coll => d.fld F.PRT_SCHED_COLL_RATE l

/-- Depth of a bucket, in level units. -/
def Dev.bDepth (d : Dev) (l : Nat) : BucketId → Nat
  | .maxOf q => d.burst l q * flitUnits
  | .minOf q => d.burst l q * flitUnits
  | .coll => 280 * flitUnits

def Port.bucket (p : Port) : BucketId → Bucket
  | .maxOf q => p.maxB.get {} q
  | .minOf q => p.minB.get {} q
  | .coll => p.collB

def Port.setBucket (p : Port) (i : BucketId) (b : Bucket) : Port :=
  match i with
  | .maxOf q => { p with maxB := p.maxB.put q b }
  | .minOf q => { p with minB := p.minB.put q b }
  | .coll => { p with collB := b }

def Dev.bucket (d : Dev) (l : Nat) (i : BucketId) : Bucket := (d.port l).bucket i
def Dev.setBucket (d : Dev) (l : Nat) (i : BucketId) (b : Bucket) : Dev := d.modPort l (fun p => p.setBucket i b)

/-- A bucket filled up to now; one that nothing has used yet is full, and counts as having risen above 0 at elapsed time 0,
so that it goes before every bucket that has been charged. DESIGN CHOICE (log 56): R122 gives such a bucket neither a level
nor a time of rising. -/
def Dev.bNow (d : Dev) (l : Nat) (i : BucketId) : Bucket :=
  let b := d.bucket l i
  let lvl : Int := if b.live then b.lvl + (d.since b.at_ * d.bRate l i : Nat) else (d.bDepth l i : Nat)
  { b with lvl := min (d.bDepth l i : Nat) lvl, at_ := d.tmu.total, live := true, rose := if b.live then b.rose else 0 }

/-- A time rounded up to a 4 ns boundary of FRC (R123). -/
def wheelSlot (t : Nat) : Nat := ceilDiv t 262144 * 262144 % 2 ^ 64

/-- A bucket at or below 0 stands on the wheel at the time it will rise above 0 (R123). -/
def Dev.bWheel (d : Dev) (l : Nat) (i : BucketId) (b : Bucket) : Bucket :=
  if b.lvl ≤ 0 ∧ 0 < d.bRate l i then
    let dt := (-b.lvl).toNat / d.bRate l i + 1
    let t := wheelSlot (d.tmu.frc + dt)
    { b with wheel := some t, far := decide (65536 * 65536 < (t + 2 ^ 64 - d.tmu.frc) % 2 ^ 64),
             rose := d.tmu.total + dt }
  else { b with wheel := none, far := false }

/-- Takes flits from a bucket that exists. -/
def Dev.bCharge (d : Dev) (l : Nat) (i : BucketId) (flits : Nat) : Dev :=
  if d.bRate l i = 0 then d
  else
    let b := d.bNow l i
    d.setBucket l i (d.bWheel l i { b with lvl := b.lvl - (flits * flitUnits : Nat) })

/-- A bucket lets a packet start: above 0 and off the wheel. -/
def Dev.bOk (d : Dev) (l : Nat) (i : BucketId) : Bool :=
  let b := d.bNow l i
  b.wheel.isNone && decide (0 < b.lvl)

/-- Changes a rate register with its buckets kept: filled at the old rate up to now, then entered afresh. -/
def Dev.bRerate (d : Dev) (l : Nat) (is : List BucketId) (f : Dev → Dev) : Dev :=
  let d1 := d.each is (fun d i => if d.bRate l i = 0 then d else d.setBucket l i (d.bNow l i))
  let d2 := f d1
  d2.each is (fun d i =>
    if d.bRate l i = 0 then d.setBucket l i {}
    else if (d.bucket l i).live then d.setBucket l i (d.bWheel l i (d.bNow l i)) else d)

/-- BUCKET_WHEEL_EXPIRY (R123): a bucket whose time has come leaves the fine wheel. -/
def execBucketWheelExpiry (port : Nat) (b : BucketId) (s : State) : Res :=
  ifUnit (decide (port < s.d.nLanes)) <| onDev s fun d =>
    let x := d.bucket port b
    match x.wheel with
    | none => d
    | some t => d.when (!x.far && decide (d.sinceFrc t < 2 ^ 63)) (fun d => d.setBucket port b { x with wheel := none })

/-- Overflow slot of a wheel time: 65,536 ns each, 1,024 of them (R123). -/
def overflowSlot (t : Nat) : Nat := t / (65536 * 65536) % 1024

/-- A bucket of an overflow slot enters the fine wheel. -/
def Bucket.near (b : Bucket) (slot : Nat) : Bucket :=
  match b.wheel with
  | some t => if b.far ∧ overflowSlot t = slot then { b with far := false } else b
  | none => b

/-- OVERFLOW_SLOT_EMPTY (R123): the entries of one overflow slot enter the fine wheel. -/
def execOverflowSlotEmpty (slot : Nat) (s : State) : Res :=
  onDev s fun d =>
    { d with net := { d.net with ports := d.net.ports.map (fun x => (x.1, { x.2 with
        maxB := x.2.maxB.map (fun b => (b.1, b.2.near slot)), minB := x.2.minB.map (fun b => (b.1, b.2.near slot)),
        collB := x.2.collB.near slot })) } }

/-! ## Gates (R128 to R130) -/

/-- Sum of the durations of a running order, in ns. -/
def RunOrder.cycle (o : RunOrder) : Nat := o.entries.foldl (fun a e => a + e.2) 0

/-- Sum of the durations of the entries that open VL v. -/
def RunOrder.openNs (o : RunOrder) (v : Nat) : Nat := o.entries.foldl (fun a e => if e.1.testBit v then a + e.2 else a) 0

/-- Time within the cycle, in 2^-16 ns. -/
def Dev.cyclePos (d : Dev) (o : RunOrder) : Nat :=
  (((d.timeFull / 2 ^ 32 : Nat) : Int) - (o.base * 65536 : Nat)).emod ((max 1 o.cycle) * 65536 : Nat) |>.toNat

/-- The entry that a time within the cycle falls in, and what is left of it (2^-16 ns). -/
def entryAt : List (Nat × Nat) → Nat → Nat → Nat × Nat
  | [], _, i => (i, 0)
  | e :: es, pos, i => if pos < e.2 * 65536 then (i, e.2 * 65536 - pos) else entryAt es (pos - e.2 * 65536) (i + 1)

/-- Time that leading entries keep VL v open (2^-16 ns). -/
def openRun (v : Nat) : List (Nat × Nat) → Nat
  | [] => 0
  | e :: es => if e.1.testBit v then e.2 * 65536 + openRun v es else 0

/-- Time from now for which VL v stays open without a break (2^-16 ns); none where it never closes. -/
def Dev.openFor (d : Dev) (o : RunOrder) (v : Nat) : Option Nat :=
  if o.entries.all (fun e => e.1.testBit v) then none
  else
    let (i, left) := entryAt o.entries (d.cyclePos o) 0
    match o.entries[i]? with
    | none => some 0
    | some e => if e.1.testBit v then some (left + openRun v (o.entries.drop (i + 1) ++ o.entries)) else some 0

/-- The running order whose gates apply to a port now: none opens every gate. -/
def Dev.activeOrder (d : Dev) (l : Nat) : Option RunOrder :=
  if (d.port l).suspended then none else (d.port l).order

/-- A running order with the VL7 windows of a breached commitment narrowed in proportion (R134). -/
def RunOrder.narrow (o : RunOrder) (granted rate : Nat) : RunOrder :=
  { o with entries := o.entries.flatMap (fun e =>
      if e.1.testBit 7 then [(e.1, e.2 * granted / max 1 rate), (e.1 - 128, e.2 - e.2 * granted / max 1 rate)] else [e]) }

/-- Time from now for which VL v stays open by the active list; none where it never closes. -/
def Dev.openNow (d : Dev) (l v : Nat) : Option Nat :=
  match d.activeOrder l with
  | none => none
  | some o =>
    let r := d.fld F.PRT_SCHED_VL7_RATE l
    d.openFor (if v = 7 ∧ (d.port l).grVl7 < r then o.narrow (d.port l).grVl7 r else o) v

/-- The list that takes over at its BASE (R130). -/
def Dev.nextOrder (d : Dev) (l : Nat) : Option RunOrder :=
  if (d.port l).suspended then none else (d.port l).pendingOrder

/-- Time from now for which VL v stays open without a break, through the start of a pending list (R129, R130). -/
def Dev.openTime (d : Dev) (l v : Nat) : Option Nat :=
  match d.nextOrder l with
  | none => d.openNow l v
  | some p =>
    let wait := p.base * 65536 - d.timeFull / 2 ^ 32
    let after := if p.entries.all (fun e => e.1.testBit v) then none else some (wait + openRun v p.entries)
    match d.openNow l v with
    | none => after
    | some t => if t < wait then some t else after

/-- Gate v is open on a port for a packet of n flits (R129). -/
def Dev.gateFits (d : Dev) (l v n : Nat) : Bool :=
  if v = 0 then true
  else match d.openTime l v with
    | none => true
    | some t => decide (8388608 * n ≤ t * 100)

/-- PRT_RO_CTL.STATE from the state of the port's running order (R130). -/
def Dev.roState (d : Dev) (l : Nat) : Dev :=
  let p := d.port l
  d.setFld F.PRT_RO_CTL_STATE l
    (if !d.flag F.PRT_RO_CTL_EN l then 0 else if p.suspended then 3 else if d.flag F.PRT_RO_CTL_SWAP l then 2
     else if p.order.isSome then 1 else 0)

/-- PRT_RO_CTL.ENTRY from the time (R129). -/
def Dev.roEntry (d : Dev) (l : Nat) : Dev :=
  match d.activeOrder l with
  | none => d
  | some o => d.setFld F.PRT_RO_CTL_ENTRY l (entryAt o.entries (d.cyclePos o) 0).1

/-- The VLs whose gates are open by the entry now running. -/
def Dev.gateMask (d : Dev) (l : Nat) : Nat :=
  match d.activeOrder l with
  | none => 255
  | some o => ((o.entries[d.fld F.PRT_RO_CTL_ENTRY l]?).map (·.1)).getD 0

/-- Makes a change that may close gates: the entry that time stands in is selected, and each packet open as its gate closes
is counted (R129). -/
def Dev.moveGates (d : Dev) (l : Nat) (f : Dev → Dev) : Dev :=
  let old := d.gateMask l
  let d := (f d).roEntry l
  let opens := ([(d.lane l).txLow, (d.lane l).txHigh].filterMap id).filterMap (fun i => d.pkt i)
  d.count (16 + l) C.GATE_OVERRUN (opens.countP (fun p => p.vl != 0 && old.testBit p.vl && !(d.gateMask l).testBit p.vl))

/-- The cycle of a running order that time stands in (R129). -/
def Dev.cycleNo (d : Dev) (o : RunOrder) : Int :=
  (((d.timeFull / 2 ^ 32 : Nat) : Int) - (o.base * 65536 : Nat)).fdiv ((max 1 o.cycle) * 65536 : Nat)

/-- Ports that hold a running order or a pending one. -/
def Dev.roPorts (d : Dev) : List Nat :=
  d.net.ports.filterMap (fun x => if x.2.order.isSome ∨ x.2.pendingOrder.isSome then some x.1 else none)

/-- Time is synchronised anew, or has been stepped: a suspended order resumes with the next cycle after the present one (R130). -/
def Dev.markResume (d : Dev) : Dev :=
  if d.syncedNow then
    d.each (d.roPorts.filter (fun l => (d.port l).suspended)) (fun d l =>
      d.modPort l (fun p => { p with resumeFrom := p.order.map d.cycleNo }))
  else d

/-! ## Commitments (R132, R133) -/

/-- A guarantee notice: at most once per production per resource per millisecond (R135). DESIGN CHOICE (log 107): a rate too
large for its 14-bit DATA field, as a Loom's may be, is cut modulo 2^14 there; R135 does not say what the field then holds. -/
def Dev.guarantee (d : Dev) (t prod cls tier res idx granted committed : Nat) : Dev :=
  d.noticeLim t Src.core prod (cls * 2 ^ 60 + tier * 2 ^ 58 + res * 2 ^ 56 + idx * 2 ^ 46 + granted % 2 ^ 14 * 2 ^ 32
    + committed % 2 ^ 14 * 2 ^ 18) (prod * 2 ^ 12 + res * 2 ^ 11 + idx)

/-- A commitment was granted `was` of `old`, and now `granted` of `new`: raises GUARANTEE_BREACH where it falls below its
value, and GUARANTEE_RESTORED where it is whole again (R135). -/
def Dev.guaranteeMove (d : Dev) (prod cls tier res idx was old granted new : Nat) : Dev :=
  if was < old ∧ new ≤ granted ∧ 0 < new then d.guarantee N.GUARANTEE_RESTORED prod cls tier res idx granted new
  else if old ≤ was ∧ granted < new then d.guarantee N.GUARANTEE_BREACH prod cls tier res idx granted new
  else d

/-- The same for a commitment whose value stands. -/
def Dev.guaranteeChange (d : Dev) (prod cls tier res idx was granted committed : Nat) : Dev :=
  d.guaranteeMove prod cls tier res idx was committed granted committed

/-- The lane is the first of an enabled border port. -/
def Dev.isBorderPort (d : Dev) (l : Nat) : Bool :=
  decide (l < d.nLanes) && d.ltype l == 2 && d.flag F.PRT_BORDER_EN l
/-- Lanes of a border port. -/
def Dev.borderWidth (d : Dev) (l : Nat) : Nat := 2 ^ d.fld F.PRT_BORDER_WIDTH l
/-- All lanes of a border port are UP. -/
def Dev.borderUp (d : Dev) (l : Nat) : Bool :=
  d.isBorderPort l && (List.range (d.borderWidth l)).all (fun i => d.lstate (l + i) == 3)

/-- Port rate, in 0.1 Gb/s (R132). -/
def Dev.portRate (d : Dev) (l : Nat) : Nat := if d.ltype l = 2 then 2000 * d.borderWidth l else 4000

/-- The smaller of two fractions. -/
def minFrac (a b : Nat × Nat) : Nat × Nat := if a.1 * b.2 ≤ b.1 * a.2 then a else b

/-- The fraction of its rate that a port carries now: 0 out of service, less with a throttled Wing (R32), a low governor
step (R305) or a long fibre (R256). -/
def Dev.capFrac (d : Dev) (l : Nat) : Nat × Nat :=
  if !(if d.ltype l = 2 then d.borderUp l else d.inService l) then (0, 1)
  else
    let b := d.fld F.GLB_SEAM_STAT_BUNDLES_UP (wingSite (l / 64))
    let seam := if d.seamState (wingSite (l / 64)) = 4 ∧ b < 32 then (b, 32) else (1, 1)
    let step := d.fld F.PWR_GOV_STEP 0
    let gov := if step = 6 then (360, 400) else if step = 7 then (330, 400) else (1, 1)
    let rtt := if 262 < d.fld F.PRT_LINK_STAT_RTT l then (262, d.fld F.PRT_LINK_STAT_RTT l) else (1, 1)
    minFrac seam (minFrac gov rtt)

/-- The capacity for commitments A, as a fraction of 0.1 Gb/s (R132). -/
def Dev.admitCap (d : Dev) (l : Nat) : Nat × Nat :=
  let c := d.capFrac l
  (min (d.fld F.PRT_SCHED_ADMIT_LIMIT l) (d.portRate l) * c.1, c.2)

/-- Queues with a committed minimum, and their rates. -/
def Dev.commits (d : Dev) (l : Nat) : List (Nat × Nat) :=
  (List.range 64).filterMap (fun q =>
    let r := d.fld F.PRT_QRATE_MIN_RATE (qi l q)
    if r = 0 then none else some (q, r))

/-- COMMITTED from its parts. -/
def Dev.recommit (d : Dev) (l : Nat) : Dev :=
  d.setFld F.PRT_SCHED_COMMITTED l (d.fld F.PRT_SCHED_VL7_RATE l + d.fld F.PRT_SCHED_COLL_RATE l
    + (d.commits l).foldl (fun a x => a + x.2) 0)

/-- A commitment on the port is breached. -/
def Dev.breached (d : Dev) (l : Nat) : Bool :=
  let p := d.port l
  decide (p.grVl7 < d.fld F.PRT_SCHED_VL7_RATE l)
  || p.coll.any (fun x => decide (p.collGr.get 0 x.1 < x.2))
  || (d.commits l).any (fun x => d.flag F.PRT_QOWN_BREACHED (qi l x.1))

/-- The commitments of a port fit A: minimum rates `ms`, a VL7 rate, a collective rate, and a running order (R133). -/
def Dev.commitsFit (d : Dev) (l : Nat) (ms : List (Nat × Nat)) (vl7 coll : Nat) (o : Option RunOrder) : Bool :=
  let (an, ad) := d.admitCap l
  let sum (c : Nat × Nat → Bool) : Nat := ms.foldl (fun a x => if c x then a + x.2 else a) 0
  decide ((vl7 + coll + sum (fun _ => true)) * ad ≤ an)
  && (List.range 6).all (fun i =>
    let v := i + 1
    let (open_, cyc) := match o with | some o => (o.openNs v, max 1 o.cycle) | none => (1, 1)
    decide ((sum (fun x => x.1 / 8 == v) + (if v = 3 ∨ v = 4 then coll else 0)) * ad * cyc ≤ an * open_))

/-- VL7_RATE of a running order on a port. -/
def Dev.vl7Of (d : Dev) (l : Nat) (o : RunOrder) : Nat := d.portRate l * o.openNs 7 / max 1 o.cycle

/-- A refused commitment (R133). -/
def Dev.rateRefused (d : Dev) (l prod : Nat) : Dev :=
  (d.bumpSat F.PRT_SCHED_REFUSED l 1).notice N.RATE_REFUSED Src.core prod (laneData l)

/-- A write of PRT_QRATEq (R121, R122, R133). -/
def Dev.wrQrate (d : Dev) (l q : Nat) (w : Word) : Dev :=
  let i := qi l q
  let old := d.fld F.PRT_QRATE_MIN_RATE i
  let new := fldOf F.PRT_QRATE_MIN_RATE w
  let ms := ((d.commits l).filter (fun x => x.1 ≠ q)) ++ (if new = 0 then [] else [(q, new)])
  let vlOk := decide (q / 8 ∈ [1, 2, 5, 6])
  let fits := d.commitsFit l ms (d.fld F.PRT_SCHED_VL7_RATE l) (d.fld F.PRT_SCHED_COLL_RATE l) (d.port l).order
  if (new ≠ 0 ∧ !vlOk) ∨ (old < new ∧ (d.breached l ∨ !fits)) then d.rateRefused l (d.fld F.PRT_QOWN_PROD i)
  else
    let d := d.bRerate l [.maxOf q, .minOf q] (fun d => d.plainWrite .PRT_QRATE i w)
    let g := if d.flag F.PRT_QOWN_BREACHED i then min (d.fld F.PRT_QOWN_GRANTED i) new else new
    let was := d.fld F.PRT_QOWN_GRANTED i
    let d := (d.setFld F.PRT_QOWN_GRANTED i g).setFld F.PRT_QOWN_BREACHED i (bit (decide (g < new)))
    (d.guaranteeMove (d.fld F.PRT_QOWN_PROD i) 4 (d.fld F.PRT_QOWN_TIER i) 0 l was old g new).recommit l

/-- A write of PRT_QOWNq: discarded while the queue has a minimum rate and the owner would change (R121). -/
def Dev.wrQown (d : Dev) (l q : Nat) (w : Word) : Dev :=
  let i := qi l q
  if d.fld F.PRT_QRATE_MIN_RATE i ≠ 0 then d.notice N.RATE_REFUSED Src.core (d.fld F.PRT_QOWN_PROD i) (laneData l)
  else d.plainWrite .PRT_QOWN i w

/-- QRATE_WRITE (R121, R133). -/
def execQrateWrite (m : Master) (port q : Nat) (data : Word) (s : State) : Res :=
  ifUnit (decide (port < 1024 ∧ q < 64)) <| onDev s fun d =>
    d.regRow m .PRT_QRATE (qi port q) data (fun d => d.wrQrate port q data)

/-- QOWN_WRITE (R121). -/
def execQownWrite (m : Master) (port q : Nat) (data : Word) (s : State) : Res :=
  ifUnit (decide (port < 1024 ∧ q < 64)) <| onDev s fun d =>
    d.regRow m .PRT_QOWN (qi port q) data (fun d => d.wrQown port q data)

/-! ## Running orders (R130) -/

/-- The shadow list, entries 0 to LAST (R128). -/
def Dev.shadowList (d : Dev) (l last : Nat) : List (Nat × Nat) :=
  (List.range (last + 1)).map (fun j =>
    let w := d.rd .PRT_RO_ENTRY (l * 128 + j / 2)
    let e := if j % 2 = 0 then bitsOf w 63 32 else bitsOf w 31 0
    (e / 2 ^ 24, e % 2 ^ 24))

/-- The running order stops: every gate opens, and VL7_RATE is released (R130). -/
def Dev.roStopNow (d : Dev) (l : Nat) : Dev :=
  let d := d.modPort l (fun p => { p with order := none, pendingOrder := none, suspended := false, resumeFrom := none, grVl7 := 0 })
  let d := (d.setFld F.PRT_SCHED_VL7_RATE l 0).setFld F.PRT_RO_CTL_SWAP l 0
  ((d.setFld F.PRT_RO_CTL_ENTRY l 0).setFld F.PRT_RO_CTL_ACTIVE_LAST l 0).recommit l

/-- Judges a SWAP: the notice of its refusal, if any (R130, R133). DESIGN CHOICE (log 60): a list whose cycle is longer than
the 16,777,215 ns of R128 is refused with RO_BAD_ENTRY; R130 names no refusal for it. -/
def Dev.swapRefusal (d : Dev) (l : Nat) (o : RunOrder) : Option Nat :=
  let vl7 := d.vl7Of l o
  let frac (o : Option RunOrder) (v : Nat) : Nat × Nat := match o with | some o => (o.openNs v, max 1 o.cycle) | none => (1, 1)
  let cur := (d.port l).order
  let changed := (List.range 6).any (fun i =>
    let a := frac cur (i + 1); let b := frac (some o) (i + 1)
    a.1 * b.2 != b.1 * a.2)
  if d.fld F.PRT_RO_CTL_DOMAIN l ≠ d.fld F.TMU_CTL_DOMAIN 0 then some N.RO_DOMAIN
  else if !d.syncedNow then some N.RO_NO_TIME
  else if o.base < d.timeNs + 10000 then some N.RO_LATE
  else if o.entries.any (fun e => e.2 == 0) ∨ 16777215 < o.cycle then some N.RO_BAD_ENTRY
  else if (d.fld F.PRT_SCHED_VL7_RATE l < vl7 ∧ d.breached l)
    ∨ ((d.fld F.PRT_SCHED_VL7_RATE l < vl7 ∨ changed)
        ∧ !d.commitsFit l (d.commits l) vl7 (d.fld F.PRT_SCHED_COLL_RATE l) (some o)) then some N.RATE_REFUSED
  else none

/-- A write of PRT_RO_CTL (R130). -/
def Dev.wrRoCtl (d : Dev) (l : Nat) (w : Word) : Dev :=
  let was := d.flag F.PRT_RO_CTL_SWAP l
  let d := (d.plainWrite .PRT_RO_CTL l w).setFld F.PRT_RO_CTL_SWAP l (bit was)
  if fldOf F.PRT_RO_CTL_EN w = 0 then (d.roStopNow l).roState l
  else if fldOf F.PRT_RO_CTL_SWAP w = 0 ∨ was then d.roState l
  else
    let o : RunOrder := ⟨d.shadowList l (fldOf F.PRT_RO_CTL_LAST w), d.fld F.PRT_RO_BASE_BASE l⟩
    match d.swapRefusal l o with
    | some n => (if n = N.RATE_REFUSED then d.rateRefused l (d.fld F.PRT_RO_CTL_PROD l)
                 else d.notice n Src.core (d.fld F.PRT_RO_CTL_PROD l) (laneData l)).roState l
    | none => ((d.modPort l (fun p => { p with pendingOrder := some o })).setFld F.PRT_RO_CTL_SWAP l 1).roState l

/-- RO_SWAP: a write of PRT_RO_CTL with SWAP (R130). -/
def execRoSwap (m : Master) (port : Nat) (data : Word) (s : State) : Res :=
  ifUnit (decide (port < 1024)) <| onDev s fun d => d.regRow m .PRT_RO_CTL port data (fun d => d.wrRoCtl port data)

/-- RO_STOP: a write of PRT_RO_CTL with EN 0 (R130). -/
def execRoStop (m : Master) (port : Nat) (data : Word) (s : State) : Res :=
  ifUnit (decide (port < 1024)) <| onDev s fun d => d.regRow m .PRT_RO_CTL port data (fun d => d.wrRoCtl port data)

/-- A suspended running order goes on: time is synchronised, and a later cycle than the one it was synchronised in has begun. -/
def Dev.mayResume (d : Dev) (l : Nat) : Bool :=
  let p := d.port l
  p.suspended && d.syncedNow && (match p.order with
    | none => true
    | some o => (match p.resumeFrom with | some k => decide (k < d.cycleNo o) | none => false))

/-- RO_RESUME (R130): a suspended running order goes on at the next cycle boundary after time is synchronised. -/
def execRoResume (port : Nat) (s : State) : Res :=
  ifUnit (decide (port < s.d.nLanes)) <| onDev s fun d =>
    d.when (d.mayResume port) fun d =>
      (d.moveGates port (fun d => d.modPort port (fun p => { p with suspended := false, resumeFrom := none }))).roState port

/-- GATE_EDGE (R129): the entry now running is selected, and a packet whose gate closes under it is counted. -/
def execGateEdge (port : Nat) (s : State) : Res :=
  ifUnit (decide (port < s.d.nLanes)) <| onDev s fun d => d.moveGates port id

/-! ## Falling capacity (R134, R135) -/

/-- Cuts commitments (key, rate) in proportion to what is left: floor(rate × left ÷ total) each. -/
def cutShare (l : List (Nat × Nat)) (leftN den : Nat) : List (Nat × Nat) :=
  let total := l.foldl (fun a x => a + x.2) 0
  if total * den ≤ leftN then l else l.map (fun x => (x.1, x.2 * leftN / (total * den)))

/-- The tiers of the minimum rates, given out in order from what is left. -/
def Dev.grantTiers (d : Dev) (l : Nat) (den : Nat) : Nat → List Nat → List (Nat × Nat)
  | _, [] => []
  | leftN, t :: ts =>
    let mine := (d.commits l).filter (fun x => d.fld F.PRT_QOWN_TIER (qi l x.1) == t)
    let g := cutShare mine leftN den
    g ++ d.grantTiers l den (leftN - (mine.foldl (fun a x => a + x.2) 0) * den) ts

/-- GRANTED of every commitment on a port (R134, R135, R263); a suspended running order is granted nothing (R34). -/
def Dev.recomputePort (d : Dev) (l : Nat) : Dev :=
  let p := d.port l
  let (an, ad) := d.admitCap l
  let vl7 := d.fld F.PRT_SCHED_VL7_RATE l
  let g7 := if p.suspended ∨ (d.ltype l ≤ 1 ∧ d.fld F.PRT_PEER_LEVEL l < 2) then 0 else min vl7 (an / ad)
  let left := an - g7 * ad
  let gc := cutShare p.coll left ad
  let left := left - (p.coll.foldl (fun a x => a + x.2) 0) * ad
  let gm := d.grantTiers l ad left [0, 1, 2, 3]
  let d := d.modPort l (fun p => { p with grVl7 := g7, collGr := gc })
  let d := d.guaranteeChange (d.fld F.PRT_RO_CTL_PROD l) 2 0 0 l p.grVl7 g7 vl7
  let d := d.each gc (fun d x => d.guaranteeChange x.1 3 0 0 l (p.collGr.get 0 x.1) x.2 (p.coll.get 0 x.1))
  d.each gm (fun d x =>
    let i := qi l x.1
    let c := d.fld F.PRT_QRATE_MIN_RATE i
    let was := d.fld F.PRT_QOWN_GRANTED i
    let d := (d.setFld F.PRT_QOWN_GRANTED i x.2).setFld F.PRT_QOWN_BREACHED i (bit (decide (x.2 < c)))
    d.guaranteeChange (d.fld F.PRT_QOWN_PROD i) 4 (d.fld F.PRT_QOWN_TIER i) 0 l was x.2 c)

/-- The pending list takes over: what was granted of VL7_RATE stands, up to the new rate (R130, R134, R135); on a lane
below level 2 nothing is granted (R263). -/
def Dev.startOrder (d : Dev) (l : Nat) (o : RunOrder) : Dev :=
  let old := d.fld F.PRT_SCHED_VL7_RATE l
  let was := (d.port l).grVl7
  let new := d.vl7Of l o
  let broken := d.breached l
  let g := if d.ltype l ≤ 1 ∧ d.fld F.PRT_PEER_LEVEL l < 2 then 0 else if was < old then min was new else new
  let d := d.modPort l (fun p => { p with order := some o, pendingOrder := none, grVl7 := g })
  let d := (d.setFld F.PRT_RO_CTL_SWAP l 0).setFld F.PRT_RO_CTL_ACTIVE_LAST l (o.entries.length - 1)
  let d := (d.setFld F.PRT_SCHED_VL7_RATE l new).recommit l
  let d := d.guaranteeMove (d.fld F.PRT_RO_CTL_PROD l) 2 0 0 l was old g new
  if broken then d.recomputePort l else d

/-- RO_ACTIVATE (R130): the pending list starts at BASE, where network time has not been lost. -/
def execRoActivate (port : Nat) (s : State) : Res :=
  ifUnit (decide (port < s.d.nLanes)) <| onDev s fun d =>
    match d.nextOrder port with
    | none => d
    | some o =>
      d.when (d.flag F.PRT_RO_CTL_SWAP port && decide (o.base ≤ d.timeNs)) fun d =>
        (d.moveGates port (fun d => d.startOrder port o)).roState port

end Sys2Proof.Machine
end

