-- ==== Sys2Proof/Machine/Sched.lean ====
section
/-! DEFINITION. Service of an egress port (R105, R106, R114, R119 to R122), timed launch (R275), and flits on the wire
(R37 to R39, R253 to R257). -/

namespace Sys2Proof.Machine

/-! ## Launch entries (R275) -/

/-- T ns bits [47:0]. -/
def Dev.now48 (d : Dev) : Nat := d.timeNs % 2 ^ 48

/-- An entry's TIME is due. -/
def Dev.launchDue (d : Dev) (t : Nat) : Bool := decide (delta d.now48 t 48 < 2 ^ 47)

/-- A write of PRT_LAUNCHk: an entry written with a time already past will count as late (R275). -/
def Dev.wrLaunch (d : Dev) (l k : Nat) (w : Word) : Dev :=
  let d := d.plainWrite .PRT_LAUNCH (l * 64 + k) w
  let late := fldOf F.PRT_LAUNCH_VALID w == 1 && d.launchDue (fldOf F.PRT_LAUNCH_TIME w)
  d.modPort l (fun p => { p with late := (p.late.filter (· ≠ k)) ++ (if late then [k] else []) })

/-- VL7 queue of TC t is held for launch. -/
def Dev.tcHeld (d : Dev) (l t : Nat) : Bool :=
  d.flag F.PRT_LAUNCH_CTL_EN l && (d.fld F.PRT_LAUNCH_CTL_TCMASK l).testBit t

/-- LAUNCH_FIRE (R275): a due entry adds COUNT to its TC's release count and clears VALID. -/
def execLaunchFire (port entry : Nat) (s : State) : Res :=
  ifUnit (decide (port < s.d.nLanes ∧ entry < 64)) <| onDev s fun d =>
    let i := port * 64 + entry
    d.when (d.flag F.PRT_LAUNCH_VALID i && d.syncedNow && d.launchDue (d.fld F.PRT_LAUNCH_TIME i)) fun d =>
      let t := d.fld F.PRT_LAUNCH_TC i
      let d := if (d.port port).late.contains entry then d.countPort port C.LAUNCH_LATE else d
      let d := d.modPort port (fun p => { p with release := p.release.put t (p.release.get 0 t + d.fld F.PRT_LAUNCH_COUNT i),
                                                 late := p.late.filter (· ≠ entry) })
      d.setFld F.PRT_LAUNCH_VALID i 0

/-- LAUNCH_WINDOW_EXPIRY (R275): what is left of a release count is lost, and counted. -/
def execLaunchWindowExpiry (port tc : Nat) (s : State) : Res :=
  ifUnit (decide (port < s.d.nLanes ∧ tc < 8)) <| onDev s fun d =>
    let n := (d.port port).release.get 0 tc
    (d.count (16 + port) C.LAUNCH_MISS n).modPort port (fun p => { p with release := p.release.put tc 0 })

/-! ## Queues -/

/-- The first packet of an egress queue, waiting for a context or not; open packets have left it. -/
def Dev.queueFront (d : Dev) (l q : Nat) : Option Pkt :=
  (d.net.pkts.filter (fun p => (p.place == .queue l q || p.place == .rsqWait l q) && !d.isOpen l p.id)).foldl
    (fun o p => match o with | none => some p | some x => if p.stamp < x.stamp then some p else some x) none

/-- The lane opens new packets: native lanes as R251 and R263 say, border lanes while UP. -/
def Dev.canOpen (d : Dev) (l : Nat) : Bool :=
  if d.ltype l = 2 then d.borderUp l && (List.range (d.borderWidth l)).all (fun i => (d.lane (l + i)).exiting.isNone)
  else d.lstate l == 3 && !d.flag F.PRT_LINK_STAT_FENCED l && (d.lane l).exiting.isNone && (d.lane l).peerServing

/-- A priority of a border port is paused by its partner: some PCP that maps to the TC is (R94, R95). DESIGN CHOICE (log 252):
R94 maps no priority to egress queues; the model takes the egress port's own PCP_TC, and one paused PCP stops its whole TC. -/
def Dev.tcPaused (d : Dev) (l tc : Nat) : Bool :=
  d.flag F.PRT_BORDER_PFC_EN l && (List.range 8).any (fun p =>
    decide (d.tmu.total < (d.lane l).paused.get 0 p) && d.fld F.PRT_BORDER_PCP_TC l / 8 ^ p % 8 == tc)

/-- A packet may start on the lane: credit for the whole of it, and the level it needs (R105, R263); on a border lane, its
TC not paused (R94). -/
def Dev.mayStart (d : Dev) (l : Nat) (p : Pkt) : Bool :=
  if d.ltype l = 2 then !d.tcPaused l p.tc
  else decide (p.credit ≤ d.creditOf l p.vl p.detour) && decide (p.level ≤ d.fld F.PRT_PEER_LEVEL l)

/-- The packet a queue would send now, if it is ready (R120, R275). -/
def Dev.ready (d : Dev) (l q : Nat) : Option Pkt :=
  match d.queueFront l q with
  | none => none
  | some p =>
    let q7 := q / 8 == 7
    if p.place = .queue l q ∧ d.mayStart l p ∧ d.gateFits l (q / 8) p.flits
      ∧ (d.bRate l (.maxOf q) = 0 ∨ d.bOk l (.maxOf q))
      ∧ (!q7 || !d.tcHeld l (q % 8) || p.free || decide (0 < (d.port l).release.get 0 (q % 8))) then some p else none

/-- The packet at the head of a VL's sideline, with credit and an open gate (R114, R120). -/
def Dev.sideReady (d : Dev) (l v : Nat) : Option Pkt :=
  match d.queueFront l (64 + v) with
  | none => none
  | some p => if p.place = .queue l (64 + v) ∧ d.mayStart l p ∧ d.gateFits l v p.flits then some p else none

/-- The packet sent for a selected queue: its VL's sideline goes first (R120). -/
def Dev.substitute (d : Dev) (l v : Nat) (p : Pkt) : Pkt := (d.sideReady l v).getD p

/-- A selected packet: the queue charged for it, if any, and whether the excess pass chose it. -/
structure Pick where
  p : Pkt
  q : Option Nat
  excess : Option Nat
  deriving DecidableEq, Repr

/-! ## The commitment pass (R122) -/

/-- Candidates: time since the bucket rose, place for ties, queue and packet. -/
def Dev.commitCands (d : Dev) (l : Nat) : List (Nat × Nat × Nat × Pkt) :=
  let qs := ([1, 2, 5, 6].flatMap (fun v => (List.range 8).map (8 * v + ·))).filterMap (fun q =>
    if d.fld F.PRT_QRATE_MIN_RATE (qi l q) = 0 ∨ !d.bOk l (.minOf q) then none
    else (d.ready l q).map (fun p => (d.since (d.bNow l (.minOf q)).rose, q, q, p)))
  let cq := [39, 38, 37, 36, 35, 34, 33, 32, 31, 30, 29, 28, 27, 26, 25, 24]
  let cs := if d.bRate l .coll = 0 ∨ !d.bOk l .coll then []
    else match cq.findSome? (fun q => (d.ready l q).map (fun p => (q, p))) with
      | some x => [(d.since (d.bNow l .coll).rose, 24, x.1, x.2)]
      | none => []
  qs ++ cs

/-- The commitment pass: earliest risen bucket, ties to the lower q. -/
def Dev.commitmentPass (d : Dev) (l : Nat) : Option Pick :=
  ((d.commitCands l).foldl (fun o x =>
    match o with
    | none => some x
    | some y => if y.1 < x.1 ∨ (y.1 = x.1 ∧ x.2.1 < y.2.1) then some x else some y) none).map
    (fun x => ⟨d.substitute l (x.2.2.1 / 8) x.2.2.2, some x.2.2.1, none⟩)

/-! ## The excess pass (R121) -/

/-- The queue of a group that the rotation gives the turn, among those ready. -/
def Dev.queuePick (d : Dev) (l v : Nat) : Nat → Port → Option (Nat × Pkt) × Port
  | 0, x => (none, x)
  | n + 1, x =>
    let pk (q : Nat) : Option Pkt := (d.ready l q).map (d.substitute l v)
    match x.qTurn.find v with
    | some q =>
      match pk q with
      | some p =>
        if p.flits ≤ x.dq.get 0 q then (some (q, p), x)
        else d.queuePick l v n { x with qTurn := x.qTurn.erase v, qPtr := x.qPtr.put v ((q + 1) % 8) }
      | none => d.queuePick l v n { x with qTurn := x.qTurn.erase v, qPtr := x.qPtr.put v ((q + 1) % 8), dq := x.dq.put q 0 }
    | none =>
      let t := x.qPtr.get 0 v
      let q := 8 * v + t
      match pk q with
      | some _ => d.queuePick l v n { x with qTurn := x.qTurn.put v q,
                                             dq := x.dq.put q (x.dq.get 0 q + 70 * d.fld F.PRT_QRATE_WEIGHT (qi l q)) }
      | none => d.queuePick l v n { x with qPtr := x.qPtr.put v ((t + 1) % 8), dq := x.dq.put q 0 }

/-- The next packet of a group: a ready queue's, or its sideline's alone. -/
def Dev.groupNext (d : Dev) (l v : Nat) (x : Port) : Option Pick × Port :=
  match d.queuePick l v 20 x with
  | (some (q, p), x) => (some ⟨p, some q, some v⟩, x)
  | (none, x) => ((d.sideReady l v).map (fun p => ⟨p, none, some v⟩), x)

/-- Group weight (R121). -/
def Dev.vlWeight (d : Dev) (l v : Nat) : Nat := bitsOf (d.rd .PRT_VLG l) (8 * v - 1) (8 * v - 8)

/-- The excess pass: weighted deficit round robin over groups 1 to 6 (R121). -/
def Dev.excessPass (d : Dev) (l : Nat) : Nat → Port → Option Pick × Port
  | 0, x => (none, x)
  | n + 1, x =>
    let next (v : Nat) : Nat := v % 6 + 1
    match x.gTurn with
    | some v =>
      match d.groupNext l v x with
      | (some k, x) =>
        if k.p.flits ≤ x.dg.get 0 v then (some k, x) else d.excessPass l n { x with gTurn := none, gPtr := next v }
      | (none, x) => d.excessPass l n { x with gTurn := none, gPtr := next v, dg := x.dg.put v 0 }
    | none =>
      let v := x.gPtr
      match d.groupNext l v x with
      | (some _, x) => d.excessPass l n { x with gTurn := some v, dg := x.dg.put v (x.dg.get 0 v + 70 * d.vlWeight l v) }
      | (none, x) => d.excessPass l n { x with gPtr := next v, dg := x.dg.put v 0 }

/-- next_packet of R120, link-local packets apart. -/
def Dev.nextPacket (d : Dev) (l : Nat) : Option Pick × Dev :=
  match [7, 6, 5, 4, 3, 2, 1, 0].findSome? (fun q => (d.ready l q).map (fun p => (q, p))) with
  | some (q, p) => (some ⟨p, some q, none⟩, d)
  | none =>
    match d.commitmentPass l with
    | some k => (some k, d)
    | none =>
      let (k, x) := d.excessPass l 20 (d.port l)
      (k, d.setPort l x)

/-- The VL7 packet whose head may leave now: a higher TC first (R120, R276). -/
def Dev.timedReady (d : Dev) (l : Nat) : Option Pick :=
  [63, 62, 61, 60, 59, 58, 57, 56].findSome? (fun q => (d.ready l q).map (fun p => ⟨p, some q, none⟩))

/-- Charges of a packet whose head leaves: buckets and deficits (R121, R122). -/
def Dev.chargePick (d : Dev) (l : Nat) (k : Pick) : Dev :=
  let n := k.p.flits
  let d := match k.q with
    | none => d
    | some q =>
      let d := (d.bCharge l (.maxOf q) n).bCharge l (.minOf q) n
      if q / 8 = 3 ∨ q / 8 = 4 then d.bCharge l .coll n else d
  match k.excess with
  | none => d
  | some v => d.modPort l (fun x => { x with dg := x.dg.put v (x.dg.get 0 v - n),
                                             dq := match k.q with | some q => x.dq.put q (x.dq.get 0 q - n) | none => x.dq })

/-! ## Flits on the wire -/

/-- Sends a numbered flit: sealed, kept for replay and counted by the facts of its packet (R39, R255, R343). -/
def Dev.emitNumbered (d : Dev) (l ty vl rest : Nat) (stomp : Bool) (c : EvCtx) : Dev :=
  let x := d.lane l
  let v := flitBody ty vl x.txNext rest
  let f := if stomp then stompFlit v else sealFlit v
  let d := d.setLane l { x with txNext := (x.txNext + 1) % 2048, replay := x.replay ++ [(x.txNext, f)], sinceIdle := x.sinceIdle + 1,
                                rttFrom := if x.rttArm then some d.tmu.total else x.rttFrom,
                                rttSeq := if x.rttArm then x.txNext else x.rttSeq, rttArm := false }
  (((d.seamSend l vl f).emitOut (.flit l f)).countPort l C.TX_FLIT).countEv (16 + l) 3 1 c

/-- MARGIN_VALID: this end has measured a margin on the lane (R232, R253). -/
def Dev.marginValid (d : Dev) (l : Nat) : Bool := (d.lane l).nearValid

/-- The idle flit of a lane now (R253, R254). -/
def Dev.idleFlit (d : Dev) (l : Nat) : Flit :=
  let x := d.lane l
  let serving := d.lstate l == 3 && !d.flag F.PRT_LINK_STAT_FENCED l
  let n := (List.range 8).foldl (fun a v => a * 2 ^ 24 + (d.lv (lvKey l v)).nGrant) 0
  let dc := (List.range 6).foldl (fun a v => a * 2 ^ 24 + (if d.ltype l = 1 then (d.lv (lvKey l (v + 1))).dGrant else 0)) 0
  let ctl := bit serving * 2 ^ 15 + bit x.replayReq * 2 ^ 14 + (x.rxNext + 2047) % 2048
  let mar := bit (d.marginValid l) * 2 ^ 15 + (if d.marginValid l then d.fld F.WNG_LANE_STAT_NEAR_MARGIN (wngLane l) else 0)
  sealFlit (flitBody 0 0 0 (ctl * 2 ^ 464 + n * 2 ^ 272 + dc * 2 ^ 128 + mar * 2 ^ 112))

/-- Sends an idle flit, after granting what credit the shares allow (R102, R253). -/
def Dev.emitIdle (d : Dev) (l : Nat) : Dev :=
  let d := d.each (List.range 8) (fun d v => d.grant (lvKey l v))
  (d.modLane l (fun x => { x with sinceIdle := 0 })).emitOut (.flit l (d.idleFlit l))

/-- The neighbour's CA as far as roll call has learned it. -/
def Dev.peerFull (d : Dev) (l : Nat) : BitVec 32 := (d.lane l).lastCa

/-- A ROLL_CALL or HEARTBEAT of this device (R49, R56). -/
def Dev.linkLocal (d : Dev) (l : Nat) (hb : Bool) : Pkt :=
  let x := d.lane l
  let draining := d.fld F.WNG_LANE_STAT_OSTATE (wngLane l) == 3
  { id := 0, hdr := mkHdr (d.peerFull l) (d.ownFn 0) 0 0 (if hb then 0x71 else 0x70) 0 0, rw := 0, vl := 0, inl := 1024,
    pay := if hb then mkPay [(4, 4, d.ownCa), (8, 2, l), (11, 1, d.fld F.PRT_PEER_LEVEL l), (12, 4, x.hbCount),
        (16, 1, bit (d.flag F.PRT_LINK_STAT_FENCED l) + 2 * bit draining)]
      else mkPay [(4, 4, d.ownCa), (8, 2, l), (10, 1, 1), (11, 1, d.fld F.GLB_LINK_CTL_LEVEL_CAP 0),
        (12, 4, d.fld F.GLB_LINK_CTL_PLAN_GEN 0), (16, 1, bit x.peerSeen + 2), (20, 4, x.lastCa.toNat)] }

/-- Sends a link-local packet: numbered, no cells, no credit (R49). -/
def Dev.sendLinkLocal (d : Dev) (l : Nat) : Dev :=
  let x := d.lane l
  let hb := !x.rollDue
  let d := d.emitNumbered l 1 0 (d.linkLocal l hb).headBytes false (d.linkLocal l hb).ctx
  ((d.countPort l C.TX_PKT).countEv (16 + l) 2 1 (d.linkLocal l hb).ctx).modLane l (fun x =>
    if hb then { x with hbDue := false, hbCount := (x.hbCount + 1) % 2 ^ 32 } else { x with rollDue := false })

/-- A packet's last flit has left. -/
def Dev.finishSend (d : Dev) (l : Nat) (p : Pkt) : Dev :=
  (d.modLane l (fun x => if p.vl = 7 then { x with txHigh := none } else { x with txLow := none })).endPkt p.id

/-- What a head's departure takes with it, besides its charges: credit, release counts, the end of a swatch move, and
the egress time, the servo's own included (R100, R220, R270, R273, R275). -/
def Dev.headLeaves (d : Dev) (l : Nat) (k : Pick) : Dev :=
  let p := k.p
  let det := d.onDetour l p.vl p.detour
  let d := d.modLv (lvKey l p.vl) (fun x =>
    if det then { x with dChg := (x.dChg + p.credit) % 2 ^ 24 } else { x with nChg := (x.nChg + p.credit) % 2 ^ 24 })
  let d := if p.vl = 7 ∧ d.tcHeld l p.tc ∧ !p.free then
      d.modPort l (fun x => { x with release := x.release.put p.tc (x.release.get 0 p.tc - 1) }) else d
  let d := if d.ltype l = 0 ∧ p.opc = 0x21 ∧ bitOf p.rw 16 then d.xferDone p else d
  let d := d.modPkt p.id (fun p => { p with frcOut := d.tmu.frc, sent := 1 })
  let d := if p.opc = 0x50 ∧ p.inl = 1024 then { d with tmu := { d.tmu with reqOut := some (ptpTime d.timeUnits) } } else d
  ((d.chargePick l k).countPort l C.TX_PKT).countEv (16 + l) 2 1 p.ctx

/-- The packet becomes the open packet of its half of the lane. -/
def Dev.setOpen (d : Dev) (l : Nat) (p : Pkt) : Dev :=
  d.modLane l (fun x => if p.vl = 7 then { x with txHigh := some p.id } else { x with txLow := some p.id })

/-- The PTP message of a packet is corrected as far as it is known by now (R274). -/
def Dev.ptpKnownRewrite (d : Dev) (id : Nat) : Dev :=
  match d.pkt id with
  | none => d
  | some p => if p.ptpKnown then d.ptpRewrite p else d

/-- A packet's head leaves on a native lane: stomped where it is the whole of a packet known to be bad (R39, R112, R120). -/
def Dev.sendHead (d : Dev) (l : Nat) (p : Pkt) : Dev :=
  let d := (d.emitNumbered l 1 p.vl p.headBytes (p.bad && p.len == 0) p.ctx).setOpen l p
  if p.len = 0 then d.finishSend l p else d.trimBuf p.buf

/-- Opens a packet on a native lane and sends its head (R120). -/
def Dev.openPkt (d : Dev) (l : Nat) (k : Pick) : Dev :=
  let d := (d.headLeaves l k).ptpKnownRewrite k.p.id
  d.whenSome (d.pkt k.p.id) (fun p d => d.sendHead l p)

/-- The next flit of an open packet has arrived (R106). -/
def Pkt.nextHere (p : Pkt) : Bool := p.bad || (decide (p.sent ≤ p.body.length) && p.ptpKnown)

/-- Sends the next flit of an open packet; a packet known to be bad ends with a stomped zero tail (R39). -/
def Dev.sendNext (d : Dev) (l : Nat) (p : Pkt) : Dev :=
  if p.bad then (d.emitNumbered l 3 p.vl 0 true p.ctx).finishSend l p
  else match (if p.opc = 0x01 then d.ptpDrop p else none) with
    | some c => ((d.countTmu c).emitNumbered l 3 p.vl 0 true p.ctx).finishSend l p
    | none =>
      let d := if p.opc = 0x01 then d.ptpRewrite p else d
      match d.pkt p.id with
      | none => d
      | some p =>
        match p.body[p.sent - 1]? with
        | none => d
        | some b =>
          let last := p.sent == p.len
          let d := d.emitNumbered l (if last then 3 else 2) p.vl b.toNat false p.ctx
          if last then d.finishSend l p else (d.modPkt p.id (fun p => { p with sent := p.sent + 1 })).trimBuf p.buf

/-- Queued PTP messages that R274 discards go, as far as they can be told by now. -/
def Dev.ptpPurge (d : Dev) (l : Nat) : Dev :=
  d.each (d.net.pkts.filter (fun p => (match p.place with | .queue x _ => x == l | _ => false) && !d.isOpen l p.id
      && (p.opc == 0x50 || (p.opc == 0x01 && p.ptpKnown)))) (fun d p =>
    match d.ptpDrop p with
    | some c => (d.countTmu c).endPkt p.id
    | none => d)

/-- One flit boundary of a native lane (R120): an idle flit at least once in 256 (R253), and nothing else while the seam
link of its Wing repairs itself (R31). -/
def Dev.boundary (d : Dev) (l : Nat) : Dev :=
  let x := d.lane l
  if 255 ≤ x.sinceIdle ∨ d.seamState (wingSite (l / 64)) = 3 then d.emitIdle l
  else match x.resend with
  | f :: fs => (d.setLane l { x with resend := fs, sinceIdle := x.sinceIdle + 1 }).emitOut (.flit l f)
  | [] =>
    if 2047 ≤ x.replay.length then d.emitIdle l
    else
      let high := x.txHigh.bind (fun i => d.pkt i)
      let low := x.txLow.bind (fun i => d.pkt i)
      let sendLow (d : Dev) : Dev :=
        match low with
        | some p => if p.nextHere then d.sendNext l p else d.emitIdle l
        | none =>
          if x.rollDue ∨ x.hbDue then d.sendLinkLocal l
          else if d.canOpen l then
            match d.nextPacket l with
            | (some k, d) => d.openPkt l k
            | (none, d) => d.emitIdle l
          else d.emitIdle l
      match high with
      | some p => if p.nextHere then d.sendNext l p else sendLow d
      | none =>
        match (if d.canOpen l then d.timedReady l else none) with
        | some k => d.openPkt l k
        | none => sendLow d

/-- The frame of an ETH_ENCAP, without FCS (R51). -/
def Pkt.frame (p : Pkt) : List Byte := p.bytesFrom ethBase (p.at 4 4 % 8192)

/-- The last of a frame leaves a border port: the frame is recorded with its FCS regenerated (R51). One that turned out cut
short leaves what has come of it with its FCS inverted, so that no receiver takes it (DESIGN CHOICE, log 215). -/
def Dev.frameEnds (d : Dev) (l : Nat) (p : Pkt) : Dev :=
  let fcs := fcsOf p.frame
  (d.emitOut (.frame l (p.frame ++ if p.bad then fcs.map (fun b => ~~~ b) else fcs))).finishSend l p

/-- A border port sends the next part of its open frame, once it has come. A PTP message that R274 discards, told only now,
is counted and ends as a frame cut short does. -/
def Dev.frameNext (d : Dev) (l : Nat) (p : Pkt) : Dev :=
  if p.bad then d.frameEnds l p
  else if p.nextHere then
    match d.ptpDrop p with
    | some c => (d.countTmu c).frameEnds l { p with bad := true }
    | none =>
    if p.sent = p.len then (d.ptpKnownRewrite p.id).whenSome ((d.ptpKnownRewrite p.id).pkt p.id) (fun p d => d.frameEnds l p)
    else (d.modPkt p.id (fun p => { p with sent := p.sent + 1 })).trimBuf p.buf
  else d

/-- A border port opens a frame: it sends before the tail has come (R105). -/
def Dev.frameOpen (d : Dev) (l : Nat) (k : Pick) : Dev :=
  let d := (d.headLeaves l k).setOpen l k.p
  if k.p.len = 0 then (d.ptpKnownRewrite k.p.id).whenSome ((d.ptpKnownRewrite k.p.id).pkt k.p.id) (fun p d => d.frameEnds l p)
  else d.trimBuf k.p.buf

/-- What a border port sends at one flit boundary: the next part of its open frame, or the head of the one its scheduler
picks, a released VL7 frame first (R51, R94, R105, R120, R275, R276). -/
def Dev.borderSend (d : Dev) (l : Nat) : Dev :=
  match ((d.lane l).txHigh.orElse (fun _ => (d.lane l).txLow)).bind (fun i => d.pkt i) with
  | some p => d.frameNext l p
  | none =>
    if !d.canOpen l then d
    else match d.timedReady l with
      | some k => d.frameOpen l k
      | none =>
        match d.nextPacket l with
        | (some k, d) => d.frameOpen l k
        | (none, d) => d

/-! ## PFC of border ingress ports (R98) -/

/-- PCP of an encapsulated frame that arrived on a border port (R94). -/
def Dev.pcpOf (d : Dev) (l : Nat) (p : Pkt) : Nat :=
  if ofBytes (p.bytesFrom (ethBase + 12) 2) = 0x8100 then ofBytes (p.bytesFrom (ethBase + 14) 1) / 32
  else d.fld F.PRT_BORDER_DEF_PCP l

/-- Cells of a priority that a border ingress port holds; the copies of a flooded frame share theirs (R98, R99). A frame that
arrived there and waits at an egress border port still counts (DESIGN CHOICE, log entry 249). -/
def Dev.priCells (d : Dev) (l pri : Nat) : Nat :=
  d.net.pkts.foldl (fun a p => if p.inl = l ∧ d.pcpOf l p = pri
    ∧ !d.net.pkts.any (fun q => q.buf == p.buf && decide (q.id < p.id)) then a + d.cellsNeeded p.buf else a) 0

/-- XOFF at 2,048 cells and XON below 1,024, for every priority of a border port with PFC_EN 1. -/
def Dev.pfcPort (d : Dev) (l : Nat) : Dev :=
  if d.flag F.PRT_BORDER_PFC_EN l then
    d.each (List.range 8) (fun d pri =>
      let n := d.priCells l pri
      let off := bitOf (d.lane l).xoff pri
      if !off ∧ 2048 ≤ n then (d.modLane l (fun x => { x with xoff := setBits x.xoff pri pri 1 })).emitOut (.pfc l pri true)
      else if off ∧ n < 1024 then (d.modLane l (fun x => { x with xoff := setBits x.xoff pri pri 0 })).emitOut (.pfc l pri false)
      else d)
  else d

/-- The border ports whose XOFF or XON may be due: those with packets held or priorities off. -/
def Dev.pfcAll (d : Dev) : Dev :=
  let ls := ((d.net.pkts.map (·.inl)) ++ d.net.lanes.filterMap (fun x => if x.2.xoff = 0 then none else some x.1)).dedup
  d.each (ls.filter (fun l => d.isBorderPort l)) (fun d l => d.pfcPort l)

/-- TRANSMIT_FLIT (R120): what a lane sends at one flit boundary; a border lane sends nothing while the seam link of its Wing
repairs itself (R31). -/
def execTransmitFlit (lane : Nat) (s : State) : Res :=
  ifUnit (decide (lane < s.d.nLanes)) <| onDev s fun d =>
    if d.ltype lane = 2 then
      d.when (d.tmu.refOk && d.borderUp lane && !(d.lane lane).muted && d.seamState (wingSite (lane / 64)) != 3) (fun d => ((d.ptpPurge lane).borderSend lane).settle.pfcAll)
    else d.when (d.linkRuns lane && !(d.lane lane).muted) (fun d => ((d.ptpPurge lane).boundary lane).settle.pfcAll)

/-! ## Holds that end by timer -/

/-- HOLD_LIMIT_EXPIRY (R106): an open packet whose next flit has not come ends with a stomped tail. `timed` names the
open VL7 packet, else the open VL0–VL6 packet. -/
def execHoldLimitExpiry (lane : Nat) (timed : Bool) (s : State) : Res :=
  ifUnit (decide (lane < s.d.nLanes)) <| onDev s fun d =>
    match (if timed then (d.lane lane).txHigh else (d.lane lane).txLow).bind (fun i => d.pkt i) with
    | none => d
    | some p =>
      d.when (!p.nextHere) fun d =>
        let data := laneData lane + p.vl * 2 ^ 45 + (if p.internal then 2 ^ 44 else p.inl * 2 ^ 32)
        let d := (d.countWrd C.HOLD_STOMP).noticeLim N.HOLD_EXPIRED Src.core 0 data lane
        ((d.forgetRx p.id).stompPkt p.id).settle

/-- LAUNCH_HOLD_MAX_EXPIRY (R275): the head of a held queue is released without an entry. -/
def execLaunchHoldMaxExpiry (port tc : Nat) (s : State) : Res :=
  ifUnit (decide (port < s.d.nLanes ∧ tc < 8)) <| onDev s fun d =>
    match d.queueFront port (56 + tc) with
    | none => d
    | some p =>
      d.when (d.tcHeld port tc && !p.free) fun d =>
        (d.modPkt p.id (fun p => { p with free := true })).countPort port C.LAUNCH_STALE

end Sys2Proof.Machine
end

