-- ==== Sys2Proof/Machine/Trap.lean ====
section
/-! DEFINITION. The trapdoor network of a Wing (R245, R246). -/

namespace Sys2Proof.Machine

def Dev.wing (d : Dev) (w : Nat) : Wing := d.wings.get {} w
def Dev.setWing (d : Dev) (w : Nat) (x : Wing) : Dev := { d with wings := d.wings.put w x }
def Dev.modWing (d : Dev) (w : Nat) (f : Wing → Wing) : Dev := d.setWing w (f (d.wing w))

/-- WNG_TRAP_MAP0 and 1 of a Wing as one word, output 0 in its most significant byte. -/
def Dev.trapMap (d : Dev) (w : Nat) : BitVec 128 := d.rd .WNG_TRAP_MAP (2 * w) ++ d.rd .WNG_TRAP_MAP (2 * w + 1)

/-- Output j's byte of a map. -/
def trapByte (m : BitVec 128) (j : Nat) : Nat := bitsOf m (127 - 8 * j) (120 - 8 * j)
/-- Source of output j, where its entry is VALID. -/
def trapSrc (m : BitVec 128) (j : Nat) : Option Nat := if trapByte m j / 128 = 1 then some (trapByte m j % 16) else none
/-- The circuits of a map: (output, input). -/
def trapCircuits (m : BitVec 128) : List (Nat × Nat) := (List.range 16).filterMap (fun j => (trapSrc m j).map (fun i => (j, i)))

/-- Lane of a Wing's network input or output. -/
def trapLane (w i : Nat) : Nat := 64 * w + 48 + i
/-- A lane's laser group within its Wing. -/
def laneGroup (l : Nat) : Nat := l % 64 / 8

/-- The check of a commit: 0 passes, 1 NOT_TRAPDOOR, 2 FANOUT (R246). -/
def Dev.trapCheck (d : Dev) (w : Nat) : Nat :=
  let cs := trapCircuits (d.trapMap w)
  if cs.any (fun c => d.fld F.PRT_LINK_CTL_TYPE (trapLane w c.1) != 3 || d.fld F.PRT_LINK_CTL_TYPE (trapLane w c.2) != 3) then 1
  else if cs.any (fun c => cs.any (fun e => c.2 == e.2 && c.1 != e.1)) then 2 else 0

/-- Circuits that a commit makes or ends. -/
def Dev.trapChanged (d : Dev) (w : Nat) : List (Nat × Nat) :=
  let old := trapCircuits (d.wing w).trap
  let new := trapCircuits (d.trapMap w)
  new.filter (fun c => !old.contains c) ++ old.filter (fun c => !new.contains c)

/-- A commit changes a circuit of a lane of a group whose laser is being swapped (R239; DEDUCED, log 227). -/
def Dev.trapHeld (d : Dev) (w : Nat) : Bool :=
  (d.wing w).swaps.any (fun x => (d.trapChanged w).any (fun c =>
    laneGroup (trapLane w c.1) == x.group || laneGroup (trapLane w c.2) == x.group))

/-- A commit starts: checked, then PENDING or SWITCHING (R246). -/
def Dev.trapCommit (d : Dev) (w : Nat) : Dev :=
  match d.trapCheck w with
  | 0 => (d.setFld F.WNG_TRAP_CTL_COMMIT w 1).setFld F.WNG_TRAP_CTL_STATE w (if d.trapHeld w then 1 else 2)
  | r => (((d.setFld F.WNG_TRAP_CTL_COMMIT w 0).setFld F.WNG_TRAP_CTL_RESULT w r).setFld F.WNG_TRAP_CTL_STATE w 0).notice
      N.TRAP_REFUSED (Src.die (wingSite w)) 0 0

/-- A pending commit goes on once nothing holds it (R239). -/
def Dev.trapRelease (d : Dev) (w : Nat) : Dev :=
  if d.fld F.WNG_TRAP_CTL_STATE w = 1 ∧ !d.trapHeld w then d.setFld F.WNG_TRAP_CTL_STATE w 2 else d

/-- The heaters of the elements that the circuit to an output passes, one in each stage (R241, R245). -/
def Wing.elements (x : Wing) (j : Nat) : List Nat := (List.range 7).map (fun s => 64 + 8 * s + Config.trapElement (x.path.get 0 j) s % 8)

/-- A commit ends: the map is in use, and a circuit that is new has not been reported dark (R248). A new circuit can force
unchanged ones to move, which of them is a free value; without one, every circuit keeps its path (R246). -/
def Dev.trapDone (d : Dev) (w : Nat) : Dev :=
  let old := (d.wing w).trap
  let new := d.trapMap w
  let kept := (List.range 16).foldl (fun a j => if (trapSrc new j).isSome ∧ trapSrc new j = trapSrc old j then a + 2 ^ j else a) 0
  let (x, d) := d.freeNat
  let moved := if (trapCircuits new).all (fun c => (trapCircuits old).contains c) then 0 else Nat.land x kept
  let path (y : Wing) : NMap Nat := (trapCircuits new).map (fun c =>
    (c.1, if kept.testBit c.1 ∧ !moved.testBit c.1 then y.path.get 0 c.1 else 16 * x + c.1))
  let d := d.modWing w (fun y => { y with trap := new, path := path y
                                          dark := y.dark.filter (fun i => (trapCircuits new).any (fun c => c.2 == i && (trapCircuits old).contains c)) })
  let d := ((d.setFld F.WNG_TRAP_CTL_COMMIT w 0).setFld F.WNG_TRAP_CTL_STATE w 0).setFld F.WNG_TRAP_CTL_RESULT w 0
  ((d.setFld F.WNG_TRAP_CTL_MOVED w moved).notice N.TRAP_DONE (Src.die (wingSite w)) 0 moved).countWing w C.TRAP_COMMITS 1

/-- A map without the entries that name an input or output. -/
def trapWithout (m : BitVec 128) (i : Nat) : BitVec 128 :=
  (List.range 16).foldl (fun a j =>
    if trapByte m j / 128 = 1 ∧ (j = i ∨ trapByte m j % 16 = i) then setBits a (127 - 8 * j) (120 - 8 * j) 0 else a) m

/-- A lane leaves trapdoor type: every map entry that names it is cleared, and the map committed at once; while its Wing
resets, in the Stage's copy (R246). -/
def Dev.trapClear (d : Dev) (l : Nat) : Dev :=
  let w := l / 64
  let i := l % 64 - 48
  if l % 64 < 48 then d
  else if !d.siteUp (wingSite w) then d.modWing w (fun y => { y with trap := trapWithout y.trap i })
  else
    let m' := trapWithout (d.trapMap w) i
    let d := (d.wr .WNG_TRAP_MAP (2 * w) (m'.extractLsb' 64 64)).wr .WNG_TRAP_MAP (2 * w + 1) (m'.extractLsb' 0 64)
    d.trapCommit w

/-- A write of WNG_TRAP_MAPk: discarded while a commit is not IDLE (R246). -/
def Dev.wrTrapMap (d : Dev) (i : Nat) (w : Word) : Dev :=
  if d.fld F.WNG_TRAP_CTL_STATE (i / 2) = 0 then d.plainWrite .WNG_TRAP_MAP i (w &&& 0x8F8F8F8F8F8F8F8F) else d

/-- A write of WNG_TRAP_CTL: COMMIT starts a commit unless one runs (R246). -/
def Dev.wrTrapCtl (d : Dev) (w : Nat) (x : Word) : Dev :=
  let busy := d.fld F.WNG_TRAP_CTL_STATE w != 0
  let d := d.setFld F.WNG_TRAP_CTL_DARK w (fldOf F.WNG_TRAP_CTL_DARK x)
  if fldOf F.WNG_TRAP_CTL_COMMIT x = 1 ∧ !busy then d.trapCommit w else d

/-- TRAP_COMMIT (R246). -/
def execTrapCommit (m : Master) (wing : Nat) (data : Word) (s : State) : Res :=
  ifUnit (decide (wing < 16)) <| onDev s fun d => d.regRow m .WNG_TRAP_CTL wing data (fun d => d.wrTrapCtl wing data)

/-- TRAP_SWITCH_DONE (R246): the switching of a commit ends. -/
def execTrapSwitchDone (wing : Nat) (s : State) : Res :=
  ifUnit (decide (wing < s.d.nWings)) <| onDev s fun d =>
    d.when (d.fld F.WNG_TRAP_CTL_STATE wing == 2) (fun d => d.trapDone wing)

end Sys2Proof.Machine
end

