-- ==== Sys2Proof/Machine/Lanes.lean ====
section
/-! DEFINITION. Lane type and state, training, roll call, the seating check and heartbeats (R250 to R265). -/

namespace Sys2Proof.Machine

/-! ## Training -/

/-- The laser that feeds a lane's group is on: RUNNING or SWAPPING, or an understudy switched in (R234, R237, R251). -/
def Dev.laserOn (d : Dev) (l : Nat) : Bool :=
  (List.range 10).any (fun g => (d.fld F.WNG_LASER_STATE (l / 64 * 11 + g) == 2 || d.fld F.WNG_LASER_STATE (l / 64 * 11 + g) == 4)
    && d.fld F.WNG_LASER_GROUP (l / 64 * 11 + g) == laneGroup l)
  || (d.wing (l / 64)).swaps.any (fun x => x.group == laneGroup l && x.row == 3)

/-- A lane may enter TRAINING: its Wing runs its data lanes, its laser is on, its ring and crossing switch are in range,
and the governor has not parked it (R233, R244, R251, R315). -/
def Dev.mayTrain (d : Dev) (l : Nat) : Bool :=
  let w := d.wing (l / 64)
  d.siteUp (wingSite (l / 64)) && d.sec.wingFw && d.laserOn l && !w.clamped.contains (l % 64) && !w.clamped.contains (120 + laneGroup l)
  && !d.pwr.parked.contains l

/-- Sets OSTATE of a lane. -/
def Dev.setOstate (d : Dev) (l o : Nat) : Dev := d.setFld F.WNG_LANE_STAT_OSTATE (wngLane l) o

/-- A lane enters TRAINING: its link starts over, its FEC mode is latched and its optics are lit; `fresh` starts the 100 ms
of R260, whose EXPECT is looked at when they end (R231, R251, R260). -/
def Dev.enterTraining (d : Dev) (l : Nat) (fresh : Bool) : Dev :=
  let d := (d.closeCredit l).modLane l (fun x => { x.afterDown with
    absentRun := fresh || x.absentRun, fecS := d.flag F.WNG_LANE_CTL_FEC (wngLane l) })
  (d.setState l 1).setOstate l 1

/-- A lane with EN 1 that may train enters TRAINING from DOWN or FAILED; its Wing must run and its laser be on (R251). -/
def Dev.startLane (d : Dev) (l : Nat) : Dev :=
  let t := d.fld F.PRT_LINK_CTL_TYPE l
  if t = 3 then (d.setState l 7).setOstate l 4
  else if !d.flag F.PRT_LINK_CTL_EN l then ((d.setState l 0).setOstate l 0).setFld F.WNG_LANE_CTL_RETRAIN (wngLane l) 0
  else if t = 2 then (d.setState l 0).setOstate l 1
  else if d.mayTrain l then d.enterTraining l true
  else d.setState l 0

/-- Lanes of a Wing's group that wait in DOWN for their laser start (R251). -/
def Dev.startGroup (d : Dev) (w g : Nat) : Dev :=
  d.each ((List.range 8).map (fun i => 64 * w + 8 * g + i)) (fun d l =>
    if d.lstate l = 0 ∧ d.flag F.PRT_LINK_CTL_EN l ∧ d.fld F.PRT_LINK_CTL_TYPE l ≤ 1 then d.startLane l else d)

/-- A lane leaves its state by a command; an exit from UP records CAUSE COMMAND (R250). -/
def Dev.exitCmd (d : Dev) (l dest : Nat) : Dev := if d.lstate l = 3 then d.exitUp l 6 dest else d.setState l dest

/-- ROLL_CALL begins on a trained lane: RSEQ from 0, credit advertised (R252, R254). -/
def Dev.enterRollCall (d : Dev) (l : Nat) : Dev :=
  let d := d.openCredit l (d.ltype l == 1)
  (d.modLane l (fun x => { x with rttArm := true })).setState l 2

/-! ## The seating check (R258) -/

/-- DATA of MISCAST and NEIGHBOUR_EXTRA. -/
def castData (l ca lane : Nat) : Nat := laneData l + ca * 2 ^ 24 + lane * 2 ^ 14

/-- The plan check on the stored PRT_PEER: the state it gives, and whether the version is at fault (R258). -/
def Dev.planCheck (d : Dev) (l : Nat) : Nat × Bool :=
  let yef := d.flag F.PRT_PEER_YEFEDRA l
  let ex := d.fld F.PRT_SEAT_EXPECT l
  if d.fld F.PRT_PEER_VERSION l ≠ 1 then (4, true)
  else if ex = 0 then (5, false)
  else if (d.ltype l = 0 ∧ yef) ∨ (d.ltype l = 1 ∧ !yef) then (4, false)
  else if (ex = 1 ∧ !yef) ∨ (ex = 2 ∧ yef) then (4, false)
  else if d.fld F.PRT_SEAT_CA l ≠ d.fld F.PRT_PEER_CA l
    ∨ (!d.flag F.PRT_SEAT_LANE_ANY l ∧ d.fld F.PRT_SEAT_PEER_LANE l ≠ d.fld F.PRT_PEER_LANE l) then (4, false)
  else (3, false)

/-- The fabric-facing lanes to a neighbour, a Yefedra named by CA[31:8]; roll call has filled PRT_PEER (R278). -/
def Dev.neighbourLanes (d : Dev) (ca : Nat) : List Nat :=
  (List.range d.nLanes).filter (fun l => d.ltype l == 1 && d.fld F.PRT_PEER_VERSION l != 0 && d.flag F.PRT_PEER_YEFEDRA l && d.peerCa l == ca)

/-- A lift that waits takes effect on the lanes that are UP, unless HOLD is 1 on any lane to the neighbour; LIFT reads 1
until no lane waits (R282). -/
def Dev.liftStep (d : Dev) (ca : Nat) : Dev :=
  let ls := d.neighbourLanes ca
  let d := if ls.any (fun l => d.flag F.PRT_FENCE_HOLD l) then d
    else d.each (ls.filter (fun l => (d.lane l).liftDue && d.lstate l == 3)) (fun d l =>
      (d.setFld F.PRT_LINK_STAT_FENCED l 0).modLane l (fun x => { x with liftDue := false }))
  if ls.any (fun l => (d.lane l).liftDue) then d else d.each ls (fun d l => d.setFld F.PRT_FENCE_LIFT l 0)

/-- A lane enters UP, MISCAST or QUARANTINED with the notice of R258; a lift that was due takes effect in UP (R282). -/
def Dev.enterChecked (d : Dev) (l st : Nat) : Dev :=
  let data := castData l (d.fld F.PRT_PEER_CA l) (d.fld F.PRT_PEER_LANE l)
  let d := (d.setState l st).modLane l (fun x => { x with absentRun := false, fell := x.fell && st != 3 })
  if st = 4 then d.notice N.MISCAST Src.core 0 data
  else if st = 5 then d.notice N.NEIGHBOUR_EXTRA Src.core 0 data
  else if (d.lane l).liftDue then d.liftStep (d.peerCa l)
  else d

/-- Another lane to the same neighbour is fenced, and no lift is due on it (R279, R282). -/
def Dev.fencedPeer (d : Dev) (l : Nat) : Bool :=
  (List.range d.nLanes).any (fun x => x != l && (d.neighbourLanes (d.peerCa l)).contains x
    && d.flag F.PRT_LINK_STAT_FENCED x && !(d.lane x).liftDue)

/-- Roll call completes: PRT_PEER and the level are fixed, and the plan is checked (R257, R258, R262).
A lane to a fenced neighbour is fenced (R279). -/
def Dev.completeRollCall (d : Dev) (l : Nat) (m : LinkMsg) : Dev :=
  let at_ (off len : Nat) : Nat := bitsOf m.pay (351 - 8 * off) (352 - 8 * (off + len))
  let cap := d.fld F.GLB_LINK_CTL_LEVEL_CAP 0
  let d := (d.setFld F.PRT_PEER_CA l (at_ 4 4 / 256)).setFld F.PRT_PEER_LANE l (at_ 8 2)
  let d := (d.setFld F.PRT_PEER_VERSION l (at_ 10 1)).setFld F.PRT_PEER_LEVEL_PEER l (at_ 11 1)
  let d := (d.setFld F.PRT_PEER_LEVEL l (min cap (at_ 11 1))).setFld F.PRT_PEER_YEFEDRA l (at_ 16 1 / 2 % 2)
  let d := (d.setFld F.PRT_LINK_CTL_RECALL l 0).setFld F.WNG_LANE_CTL_RETRAIN (wngLane l) 0
  let d := if d.ltype l = 1 ∧ d.flag F.PRT_PEER_YEFEDRA l ∧ d.fencedPeer l then (d.setFld F.PRT_LINK_STAT_FENCED l 1).modLane l (fun x => { x with liftDue := false }) else d
  let (st, ver) := d.planCheck l
  let d := if ver then d.setFld F.PRT_LINK_STAT_CAUSE l 8 else d
  d.enterChecked l st

/-- The first link-local message of a kind that waits on a lane, taken. -/
def Dev.takeMsg (d : Dev) (l : Nat) (hb : Bool) : Option (LinkMsg × Dev) :=
  ((d.lane l).linkRx.find? (fun m => m.hb == hb)).map (fun m =>
    (m, d.modLane l (fun x => { x with linkRx := eraseOne x.linkRx m })))

/-- ROLL_CALL (R257): a received ROLL_CALL is checked for PLAN_GEN, answered by a lane past roll call, and completes roll
call when it shows that the peer has heard this device. -/
def execRollCall (lane : Nat) (s : State) : Res :=
  ifUnit (decide (lane < s.d.nLanes)) <| onDev s fun d =>
    match d.takeMsg lane false with
    | none => d
    | some (m, d) =>
      d.when (d.linkRuns lane) fun d =>
        let at_ (off len : Nat) : Nat := bitsOf m.pay (351 - 8 * off) (352 - 8 * (off + len))
        let d := d.modLane lane (fun x => { x with peerSeen := true, lastCa := BitVec.ofNat 32 (at_ 4 4) })
        let gen := d.fld F.GLB_LINK_CTL_PLAN_GEN 0
        let d := if at_ 12 4 ≠ gen ∧ !(d.lane lane).skewRaised then
            (d.notice N.PLAN_SKEW Src.core 0 (at_ 12 4 * 2 ^ 32 + gen)).modLane lane (fun x => { x with skewRaised := true })
          else d
        if d.lstate lane = 2 then
          if at_ 16 1 % 2 = 1 ∧ at_ 20 4 = d.ownCa then d.completeRollCall lane m else d
        else d.modLane lane (fun x => { x with rollDue := true })

/-- ROLL_CALL_SEND (R257): in ROLL_CALL, one falls due every 1 µs. -/
def execRollCallSend (lane : Nat) (s : State) : Res :=
  ifUnit (decide (lane < s.d.nLanes)) <| onDev s fun d =>
    d.when (d.lstate lane == 2) (fun d => d.modLane lane (fun x => { x with rollDue := true }))

/-- ROLL_CALL_TIMEOUT (R251): after 100 µs without completion the lane trains again. -/
def execRollCallTimeout (lane : Nat) (s : State) : Res :=
  ifUnit (decide (lane < s.d.nLanes)) <| onDev s fun d =>
    d.when (d.lstate lane == 2) fun d =>
      ((((d.cutReceive lane).cutSend lane).enterTraining lane false).setFld F.PRT_LINK_CTL_RECALL lane 0).settle

/-- TRAINING_DONE (R251, R252): the PHY is trained, and roll call begins. -/
def execTrainingDone (lane : Nat) (s : State) : Res :=
  ifUnit (decide (lane < s.d.nLanes)) <| onDev s fun d =>
    d.when (d.lstate lane == 1 && d.tmu.refOk) (fun d => (d.enterRollCall lane).setFld F.WNG_LANE_CTL_RETRAIN (wngLane lane) 0)

/-- TRAIN_TIMEOUT (R231, R251): training restarts after 10 ms, with CAUSE TRAIN_TIMEOUT and the FEC mode latched anew. -/
def execTrainTimeout (lane : Nat) (s : State) : Res :=
  ifUnit (decide (lane < s.d.nLanes)) <| onDev s fun d =>
    d.when (d.lstate lane == 1) fun d =>
      (d.setFld F.PRT_LINK_STAT_CAUSE lane 9).modLane lane (fun x => { x with fecS := d.flag F.WNG_LANE_CTL_FEC (wngLane lane) })

/-- ABSENT_TIMEOUT (R260): CAUSE ABSENT, and NEIGHBOUR_MISSING once. -/
def execAbsentTimeout (lane : Nat) (s : State) : Res :=
  ifUnit (decide (lane < s.d.nLanes)) <| onDev s fun d =>
    d.when ((d.lane lane).absentRun && d.fld F.PRT_SEAT_EXPECT lane != 0) fun d =>
      let d := (d.setFld F.PRT_LINK_STAT_CAUSE lane 7).modLane lane (fun x => { x with absentRun := false })
      d.notice N.NEIGHBOUR_MISSING Src.core 0 (castData lane (d.fld F.PRT_SEAT_CA lane) (d.fld F.PRT_SEAT_PEER_LANE lane))

/-- FAILED_RETRY (R251): 1 ms after FAILED the lane trains, once its Wing is RUNNING; with EN 0 it goes DOWN. -/
def execFailedRetry (lane : Nat) (s : State) : Res :=
  ifUnit (decide (lane < s.d.nLanes)) <| onDev s fun d =>
    d.when (d.lstate lane == 6) fun d =>
      if !d.flag F.PRT_LINK_CTL_EN lane ∨ 2 ≤ d.fld F.PRT_LINK_CTL_TYPE lane then d.startLane lane
      else d.when (d.mayTrain lane) (fun d => d.enterTraining lane true)

/-! ## Leaving service by command (R250, R261, R349) -/

/-- The first lane of the border port that holds a lane. -/
def Dev.borderPortOf (d : Dev) (l : Nat) : Option Nat :=
  (List.range 8).findSome? (fun i => if i ≤ l ∧ d.isBorderPort (l - i) ∧ i < d.borderWidth (l - i) then some (l - i) else none)

/-- The port a lane's packets are sent on: its own, or the first lane of its border port. -/
def Dev.txPort (d : Dev) (l : Nat) : Nat := if d.ltype l = 2 then (d.borderPortOf l).getD l else l

/-- The lane has no packet open on its egress. -/
def Dev.txIdle (d : Dev) (l : Nat) : Bool :=
  let x := d.lane (d.txPort l)
  x.txLow.isNone && x.txHigh.isNone

/-- A border port is down: its open frame ends at once, its queued packets go, its PFC state starts over, and its learned
MAC entries are to be flushed (R94, R96, R98, R349). -/
def Dev.portLost (d : Dev) (p : Nat) : Dev :=
  let d := (d.cutSend p).dropQueued p
  let d := d.modLane p (fun x => { x with paused := [], xoff := 0, txLow := none, txHigh := none })
  { d with tab := { d.tab with flush := d.tab.flush.erase p ++ [p] } }

/-- A border lane goes DOWN, and its port with it (R250, R349). -/
def Dev.borderDown (d : Dev) (l cause : Nat) : Dev :=
  let p := d.borderPortOf l
  ((d.exitUp l cause 0).closeCredit l).whenSome p (fun p d => d.portLost p)

/-- A commanded lane whose open packets have finished changes state (R250, R261, R349). -/
def Dev.finishExit (d : Dev) (l : Nat) (e : Exit) : Dev :=
  match e with
  | .recall =>
    let d := d.noteLost (fun d => d.exitCmd l 2)
    d.modLane l (fun x => { x with exiting := none, peerSeen := false, skewRaised := false, rttArm := true, lastCa := 0 })
  | .retype =>
    let d := if d.ltype l = 2 then (d.borderDown l 6).leaveService l else d.noteLost (fun d => (d.exitCmd l 0).leaveService l)
    ((d.modLane l (fun x => { x with exiting := none, wasType := none })).setFld F.PRT_LINK_CTL_RECALL l 0).startLane l
  | .seatFail st =>
    let d := d.noteLost (fun d => (d.exitCmd l st).dropQueued l)
    (d.modLane l (fun x => { x with exiting := none })).enterChecked l st

/-- RETRAIN of a lane: it leaves at once, open packets end, queued packets stay. One that leaves for a change of TYPE or EN
completes that change, and its RETRAIN reads 1 while it trains (R232, R250, R251). -/
def Dev.retrainLane (d : Dev) (l : Nat) : Dev :=
  match (d.lane l).exiting with
  | some .retype =>
    let d := ((d.cutReceive l).cutSend l).finishExit l .retype
    if d.lstate l = 1 then d.setFld F.WNG_LANE_CTL_RETRAIN (wngLane l) 1 else d
  | _ =>
    let d := d.noteLost (fun d => d.exitCmd l 1)
    ((d.cutReceive l).cutSend l).enterTraining l true

/-- LANE_SERVICE_EXIT (R250): the open packets of a commanded lane have finished. -/
def execLaneServiceExit (lane : Nat) (s : State) : Res :=
  ifUnit (decide (lane < s.d.nLanes)) <| onDev s fun d =>
    match (d.lane lane).exiting with
    | none => d
    | some e => d.when (d.txIdle lane) (fun d => (d.finishExit lane e).settle)

/-- RECALL acts on a lane in UP, MISCAST or QUARANTINED (R250): its plan check replaces one that has failed and waits for open
packets. -/
def Dev.recallLane (d : Dev) (l : Nat) : Dev :=
  if 3 ≤ d.lstate l ∧ d.lstate l ≤ 5 ∧ d.fld F.PRT_LINK_CTL_TYPE l ≤ 1 then
    (d.setFld F.PRT_LINK_CTL_RECALL l 1).modLane l (fun x =>
      { x with exiting := some (match x.exiting with | some .retype => .retype | _ => .recall) })
  else d

/-- A write of PRT_LINK_CTL (R250). -/
def Dev.wrLinkCtl (d : Dev) (l : Nat) (w : Word) : Dev :=
  let t0 := d.fld F.PRT_LINK_CTL_TYPE l
  let e0 := d.flag F.PRT_LINK_CTL_EN l
  let t1 := fldOf F.PRT_LINK_CTL_TYPE w
  let e1 := fldOf F.PRT_LINK_CTL_EN w == 1
  let d := (d.setFld F.PRT_LINK_CTL_EN l (bit e1)).setFld F.PRT_LINK_CTL_TYPE l t1
  let d := if t0 ≠ t1 ∨ (e0 ∧ !e1) then
      if d.lstate l = 3 then d.modLane l (fun x => { x with exiting := some .retype, wasType := some (x.wasType.getD t0) })
      else (d.leaveService l).startLane l
    else if !e0 ∧ e1 ∧ (d.lane l).exiting.isNone then d.startLane l else d
  let d := if t0 = 3 ∧ t1 ≠ 3 then d.trapClear l else d
  if fldOf F.PRT_LINK_CTL_RECALL w = 1 then d.recallLane l else d

/-- LINK_CTL_WRITE (R250). -/
def execLinkCtlWrite (m : Master) (port : Nat) (data : Word) (s : State) : Res :=
  ifUnit (decide (port < 1024)) <| onDev s fun d => (d.regRow m .PRT_LINK_CTL port data (fun d => d.wrLinkCtl port data)).settle

/-- RECALL (R250): a write of PRT_LINK_CTL that sets RECALL and leaves the rest. -/
def execRecall (m : Master) (port : Nat) (s : State) : Res :=
  ifUnit (decide (port < 1024)) <| onDev s fun d =>
    let w := setBits (d.rd .PRT_LINK_CTL port) 60 60 1
    d.regRow m .PRT_LINK_CTL port w (fun d => d.wrLinkCtl port w)

/-- A write of PRT_SEAT: the check of R258 is repeated on the stored neighbour (R261); a border or trapdoor lane has no seating
check (R250). -/
def Dev.wrSeat (d : Dev) (l : Nat) (w : Word) : Dev :=
  let d := d.plainWrite .PRT_SEAT l w
  let st := (d.planCheck l).1
  let now := d.lstate l
  if now < 3 ∨ 5 < now ∨ 2 ≤ d.ltype l then d
  else if now = 3 then
    if st = 3 then d.modLane l (fun x => match x.exiting with | some (.seatFail _) => { x with exiting := none } | _ => x)
    else d.modLane l (fun x => { x with exiting := some (match x.exiting with | some .recall => .recall | some .retype => .retype | _ => .seatFail st) })
  else if st = now then d
  else d.enterChecked l st

/-- PRT_SEAT_WRITE (R261). -/
def execPrtSeatWrite (m : Master) (port : Nat) (data : Word) (s : State) : Res :=
  ifUnit (decide (port < 1024)) <| onDev s fun d => d.regRow m .PRT_SEAT port data (fun d => d.wrSeat port data)

/-! ## Retraining (R232) -/

/-- The house port on a Wing's service lane (R230, R249). -/
def Dev.housePortOf (d : Dev) (w : Nat) : Option Nat :=
  if w = 0 then some 0 else if w = (if d.fuse.part = 0x0512 then 4 else 8) then some 1 else none

/-- A house port's link loses or regains block lock (R335). SOURCE is the Wing that holds it. -/
def Dev.houseLockChange (d : Dev) (port : Nat) (locked : Bool) : Dev :=
  let w := if port = 0 then 0 else if d.fuse.part = 0x0512 then 4 else 8
  if d.houseUp.contains port = locked then d
  else
    let d := { d with houseUp := if locked then d.houseUp ++ [port] else d.houseUp.filter (· ≠ port) }
    let d := if locked then d.setFld F.WNG_LANE_CTL_RETRAIN (65 * w + 64) 0 else d
    d.notice (if locked then N.HOUSE_UP else N.HOUSE_DOWN) (Src.die (wingSite w)) 0 port

/-- The laser of a lane's group has failed, and no understudy feeds the group (R236). -/
def Dev.laserLost (d : Dev) (l : Nat) : Bool :=
  !d.laserOn l && (List.range 10).any (fun k =>
    d.fld F.WNG_LASER_GROUP (l / 64 * 11 + k) == laneGroup l && d.fld F.WNG_LASER_STATE (l / 64 * 11 + k) == 6)

/-- A border lane gains or loses block lock (R250): it is UP while its PCS holds it, on a Wing that runs, with the package
reference, its heaters in range and its laser not failed (R34, R236, R244). -/
def Dev.borderLock (d : Dev) (l : Nat) (locked : Bool) : Dev :=
  if !locked then (if d.ltype l = 2 ∧ d.lstate l = 3 then d.borderDown l 2 else d)
  else if d.fld F.PRT_LINK_CTL_TYPE l = 2 ∧ d.flag F.PRT_LINK_CTL_EN l ∧ d.siteUp (wingSite (l / 64)) ∧ d.lstate l ≠ 3 ∧ d.tmu.refOk
      ∧ !(d.wing (l / 64)).clamped.contains (l % 64) ∧ !(d.wing (l / 64)).clamped.contains (120 + laneGroup l) ∧ !d.laserLost l then
    ((d.setState l 3).setOstate l 1).openCredit l false
  else d

/-- A write of WNG_LANEj_CTL: FEC for the next training; RETRAIN where the lane's state lets it act and it does not act already
(R231, R232, R336). -/
def Dev.wrLaneCtl (d : Dev) (w j : Nat) (x : Word) : Dev :=
  let i := 65 * w + j
  let l := 64 * w + j
  let on := fldOf F.WNG_LANE_CTL_RETRAIN x == 1
  if j = 64 then
    match d.housePortOf w with
    | some p => if on ∧ !d.flag F.WNG_LANE_CTL_RETRAIN i then (d.setFld F.WNG_LANE_CTL_RETRAIN i 1).houseLockChange p false else d
    | none => d
  else
    let d := d.setFld F.WNG_LANE_CTL_FEC i (fldOf F.WNG_LANE_CTL_FEC x)
    if !on ∨ d.lstate l = 0 ∨ 6 ≤ d.lstate l ∨ d.flag F.WNG_LANE_CTL_RETRAIN i then d
    else if d.ltype l = 2 then (d.setFld F.WNG_LANE_CTL_RETRAIN i 1).borderDown l 6
    else (d.setFld F.WNG_LANE_CTL_RETRAIN i 1).retrainLane l

/-- RETRAIN (R232): a write of WNG_LANEj_CTL. -/
def execRetrain (m : Master) (wing j : Nat) (data : Word) (s : State) : Res :=
  ifUnit (decide (wing < 16 ∧ j < 65)) <| onDev s fun d =>
    (d.regRow m .WNG_LANE_CTL (65 * wing + j) data (fun d => d.wrLaneCtl wing j data)).settle

/-- BORDER_BLOCK_LOCK_CHANGE (R250). -/
def execBorderBlockLockChange (lane : Nat) (locked : Bool) (s : State) : Res :=
  ifUnit (decide (lane < s.d.nLanes)) <| onDev s fun d => (d.borderLock lane locked).settle

/-- HOUSE_PORT_LOCK_CHANGE (R335). -/
def execHousePortLockChange (port : Nat) (locked : Bool) (s : State) : Res :=
  ifUnit (decide (port < 2)) <| onDev s fun d => d.houseLockChange port locked

/-! ## Heartbeats and failure (R264, R265) -/

/-- A lane past roll call. -/
def Dev.pastRoll (d : Dev) (l : Nat) : Bool := decide (3 ≤ d.lstate l ∧ d.lstate l ≤ 5 ∧ d.ltype l ≤ 1)

/-- HEARTBEAT_SEND (R264): one falls due every 10 µs. -/
def execHeartbeatSend (lane : Nat) (s : State) : Res :=
  ifUnit (decide (lane < s.d.nLanes)) <| onDev s fun d =>
    d.when (d.pastRoll lane) (fun d => d.modLane lane (fun x => { x with hbDue := true }))

/-- A heartbeat counts: its sender's CA is the neighbour's (R264). -/
def Dev.hbCounts (d : Dev) (l : Nat) (m : LinkMsg) : Bool := d.pastRoll l && bitsOf m.pay 319 288 / 256 == d.fld F.PRT_PEER_CA l

/-- A heartbeat has counted on a lane within some FRC units, or one waits to be taken, which came no later than the lapse:
it counts, and there is no lapse (R264, R265). -/
def Dev.hbWithin (d : Dev) (l units : Nat) : Bool :=
  (d.lane l).linkRx.any (fun m => m.hb && d.hbCounts l m)
  || (match (d.lane l).hbAt with | some t => decide (d.tmu.total < t + units) | none => false)

/-- HEARTBEAT (R264): one that counts restarts the lapse; DRAINING is remembered (R304). -/
def execHeartbeat (lane : Nat) (s : State) : Res :=
  ifUnit (decide (lane < s.d.nLanes)) <| onDev s fun d =>
    match d.takeMsg lane true with
    | none => d
    | some (m, d) =>
      d.when (d.hbCounts lane m) fun d =>
        let draining := bitsOf m.pay 223 216 / 2 % 2 == 1
        d.modLane lane (fun x => { x with hbAt := some d.tmu.total, drainAt := if draining then some d.tmu.total else x.drainAt })

/-- HB_LAPSE (R265): a fabric-facing lane without heartbeat for 40 µs goes FAILED. -/
def execHbLapse (lane : Nat) (s : State) : Res :=
  ifUnit (decide (lane < s.d.nLanes)) <| onDev s fun d =>
    d.when (d.ltype lane == 1 && !d.hbWithin lane (40000 * 65536)) (fun d => (d.laneFail lane 4).settle)

/-- Loss of received signal: CAUSE COMMAND where DRAINING was heard within 50 µs (R265, R304). -/
def Dev.los (d : Dev) (l : Nat) : Dev :=
  if d.ltype l = 2 then d.borderLock l false
  else
    let drained := match (d.lane l).drainAt with | some t => decide (d.since t ≤ 50000 * 65536) | none => false
    d.laneFail l (if drained then 6 else 1)

/-- Loss of lock (R250, R265). -/
def Dev.lockLost (d : Dev) (l : Nat) : Dev := if d.ltype l = 2 then d.borderLock l false else d.laneFail l 2

end Sys2Proof.Machine
end

