-- ==== Sys2Proof/Machine/Bolt.lean ====
section
/-! DEFINITION. Bolt memory: its address ranges, carve-outs and requests (R35, R213, R222 to R225). -/

namespace Sys2Proof.Machine

/-! ## Addresses (R35, R223) -/

/-- Bytes of one stack's local range. -/
def stackSize : Nat := 0x1200000000
/-- Bytes of the exposable part of a stack. -/
def stackOpen : Nat := 0x1000000000
/-- Stack that holds a local address. -/
def stackOf (a : Nat) : Nat := a / stackSize

/-- A range lies inside one exposable range (R35, R222). -/
def exposable (a n : Nat) : Bool := decide (stackOf a < 4 ∧ 0 < n ∧ a % stackSize + n ≤ stackOpen)

/-- A stack serves: RUNNING, with its carve-out half rewritten (R34, R223). -/
def Dev.stackUp (d : Dev) (m : Nat) : Bool := d.siteUp (stackSite m) && !d.rebuilding.contains m

/-- Carve-out address of an offset in a stack. -/
def carveAt (m off : Nat) : Nat := m * stackSize + stackOpen + off

/-- Carve-out regions with house access: pair, offset, size, READ, WRITE (R223). -/
def houseRegions : List (Nat × Nat × Nat × Bool × Bool) :=
  [(0, 0x50000000, 0x4000000, true, true), (0, 0x54000000, 0x1000000, true, true),
   (1, 0x0, 0x10000000, true, true), (1, 0x10000000, 0x40000000, true, false)]

/-- Every carve-out region: pair, offset, size (R223). -/
def carveRegions : List (Nat × Nat × Nat) :=
  [(0, 0x0, 0x40000000), (0, 0x40000000, 0x10000000), (0, 0x50000000, 0x4000000), (0, 0x54000000, 0x1000000),
   (0, 0x55000000, 0x3000000), (0, 0x58000000, 0x1000000), (1, 0x0, 0x10000000), (1, 0x10000000, 0x40000000)]

/-- A range of a pair's carve-out lies in a region. -/
def inRegion (a n : Nat) (r : Nat × Nat × Nat) : Bool :=
  let off := a % stackSize - stackOpen
  r.1 == stackOf a / 2 && decide (r.2.1 ≤ off ∧ off + n ≤ r.2.1 + r.2.2)

/-- The house region that holds a local range and permits the access: pair and offset (R223). With debug FULL open
every region permits it (R319). -/
def houseRegion (a n : Nat) (write full : Bool) : Option (Nat × Nat) :=
  let off := a % stackSize - stackOpen
  if stackOf a < 4 ∧ stackOpen ≤ a % stackSize then
    if (full && carveRegions.any (fun r => inRegion a n r))
        || houseRegions.any (fun r => inRegion a n (r.1, r.2.1, r.2.2.1) && (if write then r.2.2.2.2 else r.2.2.2.1)) then
      some (stackOf a / 2, off)
    else none
  else none

/-- Some 64-byte unit of a range reads with an uncorrectable error. -/
def Dev.eccAt (d : Dev) (a n : Nat) : Bool := d.ecc.any (fun u => decide (a / 64 ≤ u ∧ u ≤ (a + (n - 1)) / 64))

/-- A write ends the error of each unit that it covers whole. -/
def Dev.eccWritten (d : Dev) (a n : Nat) : Dev :=
  let keep (u : Nat) : Bool := !decide (a ≤ 64 * u ∧ 64 * u + 64 ≤ a + n)
  { d with ecc := d.ecc.filter keep, eccSoft := d.eccSoft.filter keep }

/-- Units of a range that read with a corrected error. -/
def Dev.softAt (d : Dev) (a n : Nat) : Nat := (d.eccSoft.filter (fun u => decide (a / 64 ≤ u ∧ u ≤ (a + (n - 1)) / 64))).length

/-- The errors that a stack's reading of a range corrects are counted (R339). -/
def Dev.countSoft (d : Dev) (k a n : Nat) : Dev :=
  d.when (decide (0 < d.softAt a n)) (fun d => d.countStack k C.ECC_CORR (d.softAt a n))

/-- A stack serves an access: the transfer in 64-byte units, or one atomic operation (R339, R342). -/
def Dev.countServe (d : Dev) (k c n : Nat) (x : EvCtx) : Dev :=
  (d.countStack k c (if c = C.ATOMIC then 1 else ceilDiv n 64)).countEv (1060 + k) 24 (ceilDiv n 64) x

/-- The stack that serves a read of a pair's carve-out: the even one, or the odd one where the even one is in RESET or the
read meets an uncorrectable error there (R223); none where neither gives the bytes. -/
def Dev.carveStack (d : Dev) (pair off n : Nat) : Option Nat :=
  [2 * pair, 2 * pair + 1].find? (fun k => d.stackUp k && !d.eccAt (carveAt k off) n)

/-- Reads `n` bytes of a carve-out structure. -/
def Dev.carveRead (d : Dev) (m : Mem) (pair off n : Nat) : Option (List Byte) :=
  (d.carveStack pair off n).map (fun k => memRead m (carveAt k off) n)

/-- Writes a carve-out structure to every stack of its pair that serves. -/
def Dev.carveWrite (d : Dev) (m : Mem) (pair off : Nat) (bs : List Byte) : Mem :=
  [2 * pair, 2 * pair + 1].foldl (fun m k => if d.stackUp k then memWrite m (carveAt k off) bs else m) m

/-- The stacks that serve, as a write of `n` bytes of a carve-out structure leaves them. -/
def Dev.carveWritten (d : Dev) (pair off n : Nat) : Dev :=
  d.each [2 * pair, 2 * pair + 1] (fun d k => if d.stackUp k then d.eccWritten (carveAt k off) n else d)

/-- A write of a carve-out structure: device and Bolt memory. -/
def Dev.carveStore (d : Dev) (m : Mem) (pair off : Nat) (bs : List Byte) : Dev × Mem :=
  (d.carveWritten pair off bs.length, d.carveWrite m pair off bs)

/-- What the device's own accesses are counted by (R343). -/
def Dev.ownCtx (d : Dev) : EvCtx := { src := d.ownFn 1, inl := 1024 }

/-- A read of a carve-out structure by the device itself counts on the stack that serves it (R339). -/
def Dev.carveReadCount (d : Dev) (pair off n : Nat) : Dev :=
  d.whenSome (d.carveStack pair off n) (fun k d => (d.countSoft k (carveAt k off) n).countServe k C.READ_64B n d.ownCtx)

/-- A write of a carve-out structure by the device itself, which counts on the stacks that take it (R339). -/
def Dev.carveSave (d : Dev) (m : Mem) (pair off : Nat) (bs : List Byte) : Dev × Mem :=
  let y := d.carveStore m pair off bs
  (y.1.each ([2 * pair, 2 * pair + 1].filter d.stackUp)
    (fun d k => d.countServe k C.WRITE_64B bs.length d.ownCtx), y.2)

/-! ## Responses and retirement -/

/-- A response of Bolt memory with data: READ.DATA or ATOMIC.DATA (R210, R214). -/
def dataReply (p : Pkt) (opc status : Nat) (bs : List Byte) : Pkt :=
  let n := bs.length
  let len := ceilDiv (n - 12) 60
  let pad := 12 + 60 * len - n
  let head := bs.take 12
  { id := 0, hdr := mkHdr p.src p.dst p.prod p.gen opc len p.tc, rw := BitVec.ofNat 32 (status * 2 ^ 20 + pad), vl := 2,
    pay := mkPay [(4, 2, p.tag), (8, 8, p.addr), (32, 12, bytesAt head 0 12)], body := splitBody len (bs.drop 12),
    inl := 1025 }

/-- The COMPLETION of a request that Bolt memory executed: it meets the check of its egress as any other (R57, R214). -/
def okReply (p : Pkt) : Pkt := { answerReq p 0x21 St.OK 1 with own := false }

/-- A response takes its cells from Bolt memory's reserve and share as it is made (R101, R115). -/
def Dev.sendCharged (d : Dev) (r : Pkt) : Dev :=
  match d.chargeSource (lvKey r.inl r.vl) (d.quotaMark r) with
  | some x => x.2.send { d.quotaMark r with buf := x.1 }
  | none => d.send r

/-- Bolt memory answers a request: its ledger entry retires, and what waited on it goes on (R218). -/
def Dev.boltAnswer (d : Dev) (p : Pkt) (resp : Pkt) (status : Nat) : Dev :=
  let d := match d.ledgerFind p.src p.dst p.tag with
    | some l => (d.ledgerDrop l).raiseErr p.src p.dst status (writingOpc p.opc)
    | none => d
  let d := if status = St.OK then d else d.countEv 3 10 1 p.ctx
  let d := if status = St.ECC_UNCORR then d.countStack (stackOf p.addr % 4) C.ECC_UNCORR 1 else d
  (((d.endPkt p.id).sendCharged resp).retryFlow p.src p.dst).rsqRetry

/-- A refused request: a COMPLETION (R214). -/
def Dev.boltRefuse (d : Dev) (p : Pkt) (status : Nat) : Dev := d.boltAnswer p (answerReq p 0x21 status 1) status

/-- Two requests touch a common 64-byte line. -/
def sameLine (a n b k : Nat) : Bool := decide (a / 64 ≤ (b + (k - 1)) / 64 ∧ b / 64 ≤ (a + (n - 1)) / 64)

/-- The largest response a request may have, as a packet to be charged. -/
def Pkt.respSize (p : Pkt) : Pkt :=
  dataReply p 0x20 St.OK (List.replicate (if p.opc = 0x10 then p.rdBytes else if p.opc = 0x13 then p.abytes else 0) 0)

/-- The request of an opcode that Bolt memory may execute now: whole, no earlier request of its context to a common line
still waits, and Bolt memory holds VL2 space for the response (R115, R216, R222). With the package reference lost the HBM4
PHYs stand still, and the request waits (R34). -/
def Dev.boltReady (d : Dev) (pid opc : Nat) : Option Pkt :=
  match d.pkt pid with
  | none => none
  | some p =>
    if d.tmu.refOk ∧ p.place = .atFn 1 ∧ p.vl = 1 ∧ p.opc = opc ∧ p.whole
      ∧ !d.net.pkts.any (fun q => q.place == .atFn 1 && q.ckey == p.ckey && decide (q.stamp < p.stamp)
          && sameLine q.addr q.extent p.addr p.extent)
      ∧ (d.chargeSource (lvKey 1025 2) p.respSize).isSome then some p else none

/-- Who may touch a range, and where it is: the local address, or a pair's carve-out offset; else a status (R222). -/
inductive BoltRange where
  | refused (st : Nat)
  | open_ (a : Nat)
  | carve (pair off : Nat)
  deriving DecidableEq, Repr

/-- The access check of R222 for a request over `n` bytes. -/
def Dev.boltCheck (d : Dev) (p : Pkt) (n : Nat) : BoltRange :=
  if p.house then
    let w := p.opc == 0x11 || p.opc == 0x12
    if !(w || p.opc == 0x10) ∨ !d.housePriv p.src then .refused St.DENIED
    else match houseRegion p.addr n w (d.fld F.SEC_STATE_DEBUG 0 == 2) with
      | some (pr, o) => .carve pr o
      | none => .refused St.DENIED
  else if p.xlated ∧ exposable p.addr n then .open_ p.addr
  else .refused St.DENIED

/-- The stacks that serve a request, and where: of a carve-out, one for a read and every stack that serves for a write
(R223). -/
def Dev.boltStacks (d : Dev) (r : BoltRange) (write : Bool) (n : Nat) : List (Nat × Nat) :=
  match r with
  | .refused _ => []
  | .open_ a => [(stackOf a % 4, a)]
  | .carve pr o =>
    (if write then [2 * pr, 2 * pr + 1].filter d.stackUp else (d.carveStack pr o n).toList).map (fun k => (k, carveAt k o))

/-- A request counts on the stacks that serve it, in 64-byte units for a `_64B` counter (R339). -/
def Dev.boltCount (d : Dev) (p : Pkt) (r : BoltRange) (c n : Nat) : Dev :=
  d.each (d.boltStacks r (c != C.READ_64B) n) (fun d x => d.countServe x.1 c n p.ctx)

/-- The errors corrected as the bytes of a checked range are read. -/
def Dev.boltSoft (d : Dev) (r : BoltRange) (n : Nat) : Dev :=
  d.each (d.boltStacks r false n) (fun d x => d.countSoft x.1 x.2 n)

/-- The bytes at a checked range, where a stack serves them without an uncorrectable error. -/
def Dev.boltBytes (d : Dev) (m : Mem) (r : BoltRange) (n : Nat) : Option (List Byte) :=
  match r with
  | .refused _ => none
  | .open_ a => if d.stackUp (stackOf a) && !d.eccAt a n then some (memRead m a n) else none
  | .carve pr o => d.carveRead m pr o n

/-- Some stack of a checked range serves (R34, R223). -/
def Dev.boltServes (d : Dev) (r : BoltRange) : Bool :=
  match r with
  | .refused _ => false
  | .open_ a => d.stackUp (stackOf a)
  | .carve pr _ => d.stackUp (2 * pr) || d.stackUp (2 * pr + 1)

/-- Status of a read that gives no bytes: POISON where no stack serves, else ECC_UNCORR (R60, R214). -/
def Dev.boltFailed (d : Dev) (r : BoltRange) : Nat := if d.boltServes r then St.ECC_UNCORR else St.POISON

/-- Device and Bolt memory with bytes stored at a checked range. -/
def Dev.boltStore (d : Dev) (m : Mem) (r : BoltRange) (bs : List Byte) : Dev × Mem :=
  match r with
  | .refused _ => (d, m)
  | .open_ a => (d.eccWritten a bs.length, memWrite m a bs)
  | .carve pr o => d.carveStore m pr o bs

/-! ## Requests -/

/-- A READ: the bytes, or a READ.DATA with the status of its failure (R214, R34). -/
def Dev.boltRead (d : Dev) (m : Mem) (p : Pkt) : Dev :=
  match d.boltCheck p p.rdBytes with
  | .refused st => d.boltRefuse p st
  | r =>
    match d.boltBytes m r p.rdBytes with
    | none => d.boltAnswer p (dataReply p 0x20 (d.boltFailed r) []) (d.boltFailed r)
    | some bs => ((d.boltSoft r p.rdBytes).boltCount p r C.READ_64B p.rdBytes).boltAnswer p (dataReply p 0x20 St.OK bs) St.OK

/-- BOLT_READ (R214, R222). -/
def boltReadMade (pid : Nat) (s : State) : Res :=
  onDevM s fun m d => d.whenSome (d.boltReady pid 0x10) (fun p d => if p.convert then d else d.boltRead m p)

/-- BOLT_READ: what it makes is then routed. -/
def execBoltRead (pid : Nat) (s : State) : Res := sendOut (boltReadMade pid s)

/-- The conditions of a READ with CONVERT (R224); its length gives whole elements of OFMT, an MX format in whole tiles. -/
def convertOk (p : Pkt) : Bool :=
  let f := AWord.fmt p.aword; let o := AWord.ofmt p.aword
  (decide (1 ≤ f ∧ f ≤ 5) || isInt f) && p.addr % 16 == 0 && decide (AWord.rnd p.aword ≤ 1) && decide (0 < elemCount o p.rdBytes)

/-- The value has no stated form in an integer format: it is no integer, not finite, or not a number. -/
def Val.unstatedInt : Val → Bool
  | .fin _ m e => decide (e < 0) && m % 2 ^ (-e).toNat != 0
  | _ => true

/-- The values of `n` accumulator records (R163, R224). -/
def recordVals (a : AWord) (bs : List Byte) : Nat → List Val
  | 0 => []
  | n + 1 => (laneOfRec (AWord.fmt a) (bs.take (recBytes (AWord.fmt a)))).val (lsbExp (AWord.fmt a) 0)
      :: recordVals a (bs.drop (recBytes (AWord.fmt a))) n

/-- Records read out as elements of OFMT (R163, R166, R168, R224). What a value that is no integer becomes in an integer
format is not stated: a free value. -/
def convertBytes (fresh : Nat) (a : AWord) (bs : List Byte) (n : Nat) : List Byte :=
  let o := AWord.ofmt a
  let vs := recordVals a bs n
  if isInt o then
    vs.zipIdx.flatMap (fun x => bytesOf (elemBytes o)
      (if x.1.unstatedInt then Config.freeNat (fresh + x.2) else (encodeVal o (AWord.rnd a) 0 x.1).1))
  else (encodeTile o (AWord.rnd a) (fun _ => 0) vs).1

/-- BOLT_READ_CONVERT (R224): accumulator records are read out, rounded, and left as they are. -/
def boltReadConvertMade (pid : Nat) (s : State) : Res :=
  onDevM s fun m d => d.whenSome (d.boltReady pid 0x10) fun p d =>
    if !p.convert then d
    else if !convertOk p then d.boltRefuse p St.UNSUPPORTED
    else match d.boltCheck p p.extent with
      | .refused st => d.boltRefuse p st
      | r =>
        match d.boltBytes m r p.extent with
        | none => d.boltAnswer p (dataReply p 0x20 (d.boltFailed r) []) (d.boltFailed r)
        | some bs =>
          let n := elemCount (AWord.ofmt p.aword) p.rdBytes
          let out := convertBytes d.fresh p.aword bs n
          ((({ d with fresh := d.fresh + n } : Dev).boltSoft r p.extent).boltCount p r C.READ_64B p.extent).boltAnswer p (dataReply p 0x20 St.OK out) St.OK

/-- BOLT_READ_CONVERT: what it makes is then routed. -/
def execBoltReadConvert (pid : Nat) (s : State) : Res := sendOut (boltReadConvertMade pid s)

/-- A WRITE or WRITE.FLAG: stored, then completed (R222). -/
def boltWriteBoth (p : Pkt) (x : Dev × Mem) : Dev × Mem :=
  let d := x.1
  match d.boltCheck p p.memLen with
  | .refused st => (d.boltRefuse p st, x.2)
  | r =>
    if d.boltServes r then
      let y := d.boltStore x.2 r (p.bytesFrom 32 p.memLen)
      ((y.1.boltCount p r C.WRITE_64B p.memLen).boltAnswer p (okReply p) St.OK, y.2)
    else (d.boltRefuse p St.POISON, x.2)

/-- A change of device and Bolt memory made where a request is ready. -/
def boltWith (o : Option Pkt) (f : Pkt → Dev × Mem → Dev × Mem) (x : Dev × Mem) : Dev × Mem :=
  match o with
  | some p => f p x
  | none => x

/-- BOLT_WRITE (R222). -/
def boltWriteMade (pid : Nat) (s : State) : Res := onBoth s (boltWith (s.d.boltReady pid 0x11) boltWriteBoth)

/-- BOLT_WRITE: what it makes is then routed. -/
def execBoltWrite (pid : Nat) (s : State) : Res := sendOut (boltWriteMade pid s)

/-- WRITE_FLAG (R218, R222): a WRITE.FLAG that its terminal released. -/
def writeFlagMade (pid : Nat) (s : State) : Res := onBoth s (boltWith (s.d.boltReady pid 0x12) boltWriteBoth)

/-- WRITE_FLAG: what it makes is then routed. -/
def execWriteFlag (pid : Nat) (s : State) : Res := sendOut (writeFlagMade pid s)

/-- The new value of an atomic operation on `n` bytes (R213). -/
def atomicNew (aop n old a b : Nat) : Nat :=
  let w := 8 * n
  let smax (x y : Nat) : Nat := if signedOf w x < signedOf w y then y else x
  let smin (x y : Nat) : Nat := if signedOf w y < signedOf w x then y else x
  match aop with
  | 0 => (old + a) % 2 ^ w
  | 1 => (encodeVal 1 0 0 (treeAdd 1 (decodeElem 1 old) (decodeElem 1 a))).1
  | 2 => if old = a then b else old
  | 3 => a
  | 4 => smin old a
  | 5 => smax old a
  | 6 => min old a
  | 7 => max old a
  | 8 => old &&& a
  | 9 => old ||| a
  | 10 => old ^^^ a
  | _ => old

/-- An ATOMIC: returns the old value and stores the new one (R213). -/
def boltAtomicBoth (p : Pkt) (x : Dev × Mem) : Dev × Mem :=
  let d := x.1
  let n := p.abytes
  if !aopOk p.aop n ∨ p.addr % max 1 n ≠ 0 then (d.boltRefuse p St.UNSUPPORTED, x.2)
  else match d.boltCheck p n with
    | .refused st => (d.boltRefuse p st, x.2)
    | r =>
      match d.boltBytes x.2 r n with
      | none => (d.boltAnswer p (dataReply p 0x22 (d.boltFailed r) []) (d.boltFailed r), x.2)
      | some bs =>
        let y := (d.boltSoft r n).boltStore x.2 r (bytesOf n (atomicNew p.aop n (ofBytes bs) (ofBytes (p.bytesFrom 32 n)) (ofBytes (p.bytesFrom (32 + n) n))))
        ((y.1.boltCount p r C.ATOMIC n).boltAnswer p (dataReply p 0x22 St.OK bs) St.OK, y.2)

/-- ATOMIC (R213). -/
def atomicMade (pid : Nat) (s : State) : Res := onBoth s (boltWith (s.d.boltReady pid 0x13) boltAtomicBoth)

/-- ATOMIC: what it makes is then routed. -/
def execAtomic (pid : Nat) (s : State) : Res := sendOut (atomicMade pid s)

/-- Elements added into accumulator records; none where a lane would pass 2^40 − 1 additions (R161, R224). -/
def addRecords (f : Nat) : List Byte → List Nat → Option (List Byte)
  | _, [] => some []
  | bs, e :: es =>
    let l := laneOfRec f (bs.take (recBytes f))
    if 2 ^ 40 - 1 ≤ l.cnt then none
    else (addRecords f (bs.drop (recBytes f)) es).map (fun r => recOfLane f (l.add (lsbExp f 0) (decodeElem f e)) ++ r)

/-- Elements combined in place with MAX, MIN, AND, OR or XOR (R170, R172, R224); an MX format by whole tiles, the chosen
values encoded under R168. R167 draws its random bits from a tile's identity, which a request has not: free values. -/
def combineElems (fresh : Nat) (a : AWord) (old new : List Byte) : List Byte :=
  let f := AWord.fmt a
  let op := AWord.op a
  let w := elemBytes f
  if isMx f then
    (encodeTile f (AWord.rnd a) (fun i => Config.freeNat (fresh + i) % 2 ^ 32) (List.zipWith (valMax (op == 2))
      (tileVals f old (elemCount f old.length)) (tileVals f new (elemCount f new.length)))).1
  else (List.range (new.length / w)).flatMap (fun i =>
    let x := bytesAt old (i * w) w
    let y := bytesAt new (i * w) w
    bytesOf w (match op with
      | 2 => (encodeVal f 0 0 (valMax true (decodeElem f x) (decodeElem f y))).1
      | 3 => (encodeVal f 0 0 (valMax false (decodeElem f x) (decodeElem f y))).1
      | 5 => x &&& y
      | 6 => x ||| y
      | _ => x ^^^ y))

/-- A REDUCE.WRITE (R224). -/
def boltReduceBoth (p : Pkt) (x : Dev × Mem) : Dev × Mem :=
  let d := x.1
  let f := AWord.fmt p.aword
  let w := max 1 (elemBytes f)
  let exact := reduceExact p.aword
  if !(exact || reduceInPlace p.aword) ∨ p.addr % (if exact then 16 else w) ≠ 0 ∨ elemCount f p.memLen = 0 then
    (d.boltRefuse p St.UNSUPPORTED, x.2)
  else match d.boltCheck p p.extent with
    | .refused st => (d.boltRefuse p st, x.2)
    | r =>
      match d.boltBytes x.2 r p.extent with
      | none => (d.boltRefuse p (d.boltFailed r), x.2)
      | some old =>
        let data := p.bytesFrom 32 p.memLen
        let new := if exact then addRecords f old ((List.range (p.memLen / w)).map (fun i => bytesAt data (i * w) w))
          else some (combineElems d.fresh p.aword old data)
        match new with
        | none => (d.boltRefuse p St.UNSUPPORTED, x.2)
        | some bs =>
          let y := (({ d with fresh := d.fresh + elemCount f p.memLen } : Dev).boltSoft r p.extent).boltStore x.2 r bs
          ((y.1.boltCount p r C.WRITE_64B p.memLen).boltAnswer p (okReply p) St.OK, y.2)

/-- REDUCE_WRITE (R224). -/
def reduceWriteMade (pid : Nat) (s : State) : Res := onBoth s (boltWith (s.d.boltReady pid 0x14) boltReduceBoth)

/-- REDUCE_WRITE: what it makes is then routed. -/
def execReduceWrite (pid : Nat) (s : State) : Res := sendOut (reduceWriteMade pid s)

/-! ## Stacks -/

/-- STACK_MIRROR_REBUILT (R34, R223): the returning stack's half of the carve-out is that of its mirror, and it serves. -/
def execStackMirrorRebuilt (stack : Nat) (s : State) : Res :=
  ifUnit (decide (stack < 4)) <| onBoth s fun x =>
    if x.1.rebuilding.contains stack then
      let other := stack / 2 * 2 + (1 - stack % 2)
      let lo (k : Nat) : Nat := k * stackSize + stackOpen
      let keep := x.2.filter (fun c => !decide (lo stack ≤ c.1 ∧ c.1 < (stack + 1) * stackSize))
      let copy := x.2.filter (fun c => decide (lo other ≤ c.1 ∧ c.1 < (other + 1) * stackSize))
      ({ x.1 with rebuilding := x.1.rebuilding.filter (· ≠ stack) },
       copy.foldl (fun m c => memPut m (c.1 - lo other + lo stack) c.2) keep)
    else x

end Sys2Proof.Machine
end

