-- ==== Sys2Proof/Machine/Looms.lean ====
section
/-! DEFINITION. The Looms' parts and how they are reached: engines, resident images and their channels (R194, R195),
groups and their members (R136 to R141), and bindings (R200). -/

namespace Sys2Proof.Machine

def Dev.setLoom (d : Dev) (k : Nat) (x : Loom) : Dev := { d with looms := d.looms.put k x }
def Dev.modLoom (d : Dev) (k : Nat) (f : Loom → Loom) : Dev := d.setLoom k (f (d.loom k))

/-- The state of an engine that has never run: engines 64 to 67 are SPARE (R175, R204). -/
def engine0 (e : Nat) : Engine := if e < 64 then {} else { st := 7 }
def Loom.engine (x : Loom) (e : Nat) : Engine := x.engines.get (engine0 e) e
def Dev.engine (d : Dev) (k e : Nat) : Engine := (d.loom k).engine e
def Dev.setEngine (d : Dev) (k e : Nat) (x : Engine) : Dev := d.modLoom k (fun l => { l with engines := l.engines.put e x })
def Dev.modEngine (d : Dev) (k e : Nat) (f : Engine → Engine) : Dev := d.setEngine k e (f (d.engine k e))

/-! ## Images (R194, R195) -/

def Image.engines (i : Image) : Nat := i.nat 11 1
def Image.codeWords (i : Image) : Nat := i.nat 12 4
def Image.dataBytes (i : Image) : Nat := i.nat 16 4
def Image.entry (i : Image) : Nat := i.nat 20 2
def Image.tileUnits (i : Image) : Nat := i.nat 24 4
def Image.redRate (i : Image) : Nat := i.nat 32 4
def Image.boltBytes (i : Image) : Nat := i.nat 36 4
def Image.boltFa (i : Image) : Nat := i.nat 40 8

/-- Channel table entry c, where VALID (R195). -/
def Image.chan (i : Image) (c : Nat) : Option Chan :=
  let o := 128 + 32 * c
  let b0 := i.nat o 1
  if c < 16 ∧ b0 / 128 = 1 then
    some { dir := b0 / 32 % 4, vl := b0 / 4 % 8, ens := b0 / 2 % 2 == 1, group := i.nat (o + 1) 2 % 16384,
           wm1 := i.nat (o + 3) 1, accBase := i.nat (o + 4) 4, slot := i.nat (o + 8) 4, tileMax := i.nat (o + 12) 2,
           linkRate := i.nat (o + 14) 2, member := i.nat (o + 16) 3 % 2 ^ 18 }
  else none

/-- The channels of an image, with their numbers. -/
def Image.chans (i : Image) : List (Nat × Chan) := (List.range 16).filterMap (fun c => (i.chan c).map (fun x => (c, x)))

/-- An image binds a group on some channel. -/
def Image.binds (i : Image) (ens : Bool) (group : Nat) : Bool := i.chans.any (fun c => c.2.ens == ens && c.2.group == group)

/-- The channel of a direction in the binding of a group (R195). -/
def Image.dirOf (i : Image) (ens : Bool) (group dir : Nat) : Option Chan :=
  (i.chans.find? (fun c => c.2.ens == ens && c.2.group == group && c.2.dir == dir)).map (·.2)

/-- The inbound channel of a binding, which gives W, ACC_BASE and SLOT: DOWN-IN, else UP-IN. -/
def Image.inbound (i : Image) (ens : Bool) (group : Nat) : Option Chan :=
  (i.dirOf ens group 0).orElse (fun _ => i.dirOf ens group 3)

/-- Some resident image of any Loom binds a group (R138, R140). -/
def Dev.groupBound (d : Dev) (ens : Bool) (group : Nat) : Bool :=
  d.looms.any (fun x => x.2.images.any (fun i => i.2.binds ens group))

/-! ## Groups (R136 to R139) -/

/-- COUNT of a cast entry plus 1, and its LIST_BASE. -/
def castCount (e : BitVec 512) : Nat := dataOf e 0 43 30 + 1
def castBase (e : BitVec 512) : Nat := dataOf e 0 29 8
def castProd (e : BitVec 512) : Nat := dataOf e 0 63 52
def castGen (e : BitVec 512) : Nat := dataOf e 0 51 44

/-- Member word i of a cast, read from the cast member region (R136, R223); none where the carve-out cannot be read. -/
def Dev.castMember (d : Dev) (m : Mem) (e : BitVec 512) (i : Nat) : Option Nat :=
  (d.carveRead m 0 (0x54000000 + 4 * (castBase e + i)) 4).map ofBytes

/-- A member word of a cast that is looked up is a read of the region (R136, R339). -/
def Dev.readMember (d : Dev) (ens : Bool) (g i : Nat) : Dev :=
  match ens, d.ent 4 g with
  | false, some e => d.carveReadCount 0 (0x54000000 + 4 * (castBase e + i)) 4
  | _, _ => d

/-- The box of an ensemble word: (HI, LO, shift in the CA) of each coordinate (R14, R139). -/
def ensDims (w : Word) : List (Nat × Nat × Nat) :=
  [(bitsOf w 59 58, bitsOf w 57 56, 30), (bitsOf w 55 49, bitsOf w 48 42, 23), (bitsOf w 41 37, bitsOf w 36 32, 18),
   (bitsOf w 31 28, bitsOf w 27 24, 14), (bitsOf w 23 21, bitsOf w 20 18, 11), (bitsOf w 17 15, bitsOf w 14 12, 8)]

/-- Widths of the six coordinates. -/
def ensWidths : List Nat := [2, 7, 5, 4, 3, 3]

/-- Number of CAs in a box. -/
def boxSize (dims : List (Nat × Nat × Nat)) : Nat := dims.foldl (fun a x => a * (x.1 + 1 - x.2.1)) 1

/-- Overlap of two boxes. -/
def boxMeet (a b : List (Nat × Nat × Nat)) : List (Nat × Nat × Nat) :=
  (a.zip b).map (fun x => (min x.1.1 x.2.1, max x.1.2.1 x.2.2.1, x.1.2.2))

/-- A CA's coordinate lies in a box. -/
def inBox (dims : List (Nat × Nat × Nat)) (ca : Nat) : Bool :=
  (dims.zip ensWidths).all (fun x => let v := ca / 2 ^ x.1.2.2 % 2 ^ x.2; decide (x.1.2.1 ≤ v ∧ v ≤ x.1.1))

/-- Members of an ensemble: those of its box outside the excluded box (R139). -/
def ensCount (a b : Word) : Nat :=
  boxSize (ensDims a) - (if bitOf b 63 then boxSize (boxMeet (ensDims a) (ensDims b)) else 0)

/-- Number of CAs of a box whose coordinates come before a CA's, in increasing order of CA[31:8]. -/
def boxBefore : List ((Nat × Nat × Nat) × Nat) → Nat → Nat
  | [], _ => 0
  | (x, w) :: l, ca =>
    let v := ca / 2 ^ x.2.2 % 2 ^ w
    let rest := (l.map (·.1)).foldl (fun a y => a * (y.1 + 1 - y.2.1)) 1
    (min v (x.1 + 1) - x.2.1) * rest + (if x.2.1 ≤ v ∧ v ≤ x.1 then boxBefore l ca else 0)

/-- Number of members of an ensemble before a CA. -/
def ensBefore (a b : Word) (ca : Nat) : Nat :=
  boxBefore ((ensDims a).zip ensWidths) ca
    - (if bitOf b 63 then boxBefore ((boxMeet (ensDims a) (ensDims b)).zip ensWidths) ca else 0)

/-- The index of a CA in an ensemble, where it is a member (R15, R139). -/
def ensIndex (a b : Word) (ca : Nat) : Option Nat :=
  if inBox (ensDims a) ca && !(bitOf b 63 && inBox (ensDims b) ca) && ca % 256 == bitsOf a 11 4 then some (ensBefore a b ca) else none

/-- The coordinate with the largest value v in [lo, hi] such that at most `i` CAs come before it. -/
def ensPick (cnt : Nat → Nat) (i lo : Nat) : Nat → Nat
  | 0 => lo
  | n + 1 => if cnt (lo + n + 1) ≤ i then lo + n + 1 else ensPick cnt i lo n

/-- CA of member i of an ensemble: coordinate by coordinate, the largest prefix with at most i members before it. -/
def ensCa (a b : Word) (i : Nat) : Nat :=
  ((ensDims a).foldl (fun pre x => ensPick (fun v => ensBefore a b (pre + v * 2 ^ x.2.2)) i x.2.1 (x.1 - x.2.1) * 2 ^ x.2.2 + pre) 0)
    + bitsOf a 11 4

/-- A group is VALID on this device. -/
def Dev.groupValid (d : Dev) (ens : Bool) (g : Nat) : Bool :=
  if ens then decide (g < 64) && d.flag F.TBL_ENS_A_VALID g else (d.ent 4 g).isSome && !d.badParity 4 g

/-- A lookup of a group meets its cast entry: one with a parity error raises TBL_PARITY (R89). -/
def Dev.meetCast (d : Dev) (ens : Bool) (g : Nat) : Dev := if ens then d else (d.look 4 g).2

/-- LOOM_MASK bit k of a group. -/
def Dev.groupLoom (d : Dev) (ens : Bool) (g k : Nat) : Bool :=
  if ens then (d.fld F.TBL_ENS_A_LOOM_MASK g).testBit k
  else match d.ent 4 g with | some e => (dataOf e 1 62 59).testBit k | none => false

/-- Member count of a group, which the ops open on it keep to; no lookup of its own. -/
def Dev.groupCount (d : Dev) (ens : Bool) (g : Nat) : Nat :=
  if ens then (if d.flag F.TBL_ENS_A_VALID g then ensCount (d.rd .TBL_ENS_A g) (d.rd .TBL_ENS_B g) else 0)
  else match d.ent 4 g with | some e => castCount e | none => 0

/-- The CA of member i of a group; none of a cast whose entry has a parity error (R89). -/
def Dev.groupCa (d : Dev) (m : Mem) (ens : Bool) (g i : Nat) : Option Nat :=
  if i < d.groupCount ens g then
    if ens then some (ensCa (d.rd .TBL_ENS_A g) (d.rd .TBL_ENS_B g) i)
    else match (d.look 4 g).1 with | some e => d.castMember m e i | none => none
  else none

/-! ## Bindings (R141, R200) -/

def Bind.is (b : Bind) (prod : Nat) (ens : Bool) (group : Nat) : Bool := b.prod == prod && b.ens == ens && b.group == group
def Dev.bind (d : Dev) (k prod : Nat) (ens : Bool) (group : Nat) : Option Bind := (d.loom k).binds.find? (fun b => b.is prod ens group)
def Dev.modBind (d : Dev) (k prod : Nat) (ens : Bool) (group : Nat) (f : Bind → Bind) : Dev :=
  d.modLoom k (fun x => { x with binds := x.binds.map (fun b => if b.is prod ens group then f b else b) })

/-- The image of a production's active set that binds a group, with its slot (R141, R198). -/
def Dev.bindImage (d : Dev) (k prod : Nat) (ens : Bool) (group : Nat) : Option (Nat × Image) :=
  match (d.loom k).active.find prod with
  | none => none
  | some set => (d.loom k).images.find? (fun i => i.2.prod == prod && i.2.set == set && i.2.started && i.2.binds ens group)

end Sys2Proof.Machine
end

