-- ==== Sys2Proof/Machine/Tables.lean ====
section
/-! DEFINITION. The table command interface, the scrubber, provisional exceptions and the forerunner-compatible image
(R77 to R92, R68, R137, R138, R207). -/

namespace Sys2Proof.Machine

/-- RESULT codes of TBL_STAT (R79). -/
def TR.DONE : Nat := 0
def TR.REPLACED : Nat := 1
def TR.NOT_FOUND : Nat := 2
def TR.TABLE_FULL : Nat := 3
def TR.BAD_INDEX : Nat := 4
def TR.BAD_ENTRY : Nat := 5
def TR.BAD_ORDER : Nat := 6
def TR.LOCKED : Nat := 7
def TR.UNSUPPORTED_OP : Nat := 8

/-- One of a list, by a free value: where the spec leaves the choice to the device. -/
def Dev.pickFree (d : Dev) (l : List Nat) : Option (Nat × Dev) :=
  match l with
  | [] => none
  | [x] => some (x, d)
  | l => (l[d.freeNat.1 % l.length]?).map (fun x => (x, d.freeNat.2))

/-- Compatibility mode (R91). -/
def Dev.compat (d : Dev) : Bool := d.flag F.TBL_DMA_LOCK_COMPAT 0
/-- TBL_DMA_LOCK.STATE is OPEN. -/
def Dev.dmaOpen (d : Dev) : Bool := d.fld F.TBL_DMA_LOCK_STATE 0 == 1

/-- Entries of a table (R79, R91). -/
def Dev.tblSize (d : Dev) (t : Nat) : Nat :=
  match t with
  | 0 => if d.compat then 1024 + 65024 else 131072
  | 1 => if d.compat then 524288 else 1048576
  | 2 => 8192
  | 3 => 65536
  | 4 => 16384
  | _ => 8192

/-- The staged entry, DATA0 first. -/
def Dev.staged (d : Dev) : BitVec 512 :=
  BitVec.ofNat 512 ((List.range 8).foldl (fun a n => a * 2 ^ 64 + (d.rd .TBL_DATA n).toNat) 0)

/-- READ loads TBL_DATA (R80). -/
def Dev.loadData (d : Dev) (e : BitVec 512) : Dev :=
  d.each (List.range 8) (fun d n => d.wr .TBL_DATA n (BitVec.ofNat 64 (dataOf e n 63 0)))

/-- Only the given fields of an entry: DATA word, high and low bit. -/
def keepFields (e : BitVec 512) (fs : List (Nat × Nat × Nat)) : BitVec 512 :=
  fs.foldl (fun a f => setData a f.1 f.2.1 f.2.2 (dataOf e f.1 f.2.1 f.2.2)) 0

/-! ## TCAM (R84 to R87) -/

/-- 0 provisional, 1 coordinate, 2 IP (R84). -/
def Dev.tcamPart (d : Dev) (slot : Nat) : Nat := if slot < 1024 then 0 else if slot < d.coordEnd then 1 else 2

/-- The slots of a partition. -/
def Dev.partRange (d : Dev) (part : Nat) : Nat × Nat := if part = 1 then (1024, d.coordEnd) else (d.coordEnd, d.tblSize 0)

/-- A mask of `w` bits that is a prefix from its top bit. -/
def isPrefix (w m : Nat) : Bool := (List.range (w + 1)).any (fun k => m == 2 ^ w - 2 ^ k)

/-- KIND of a TCAM entry (R85). -/
def tcamKind (e : BitVec 512) : Nat := tcamKey e / 2 ^ 158

/-- The format rules of R85, but for the partition. -/
def tcamOk (e : BitVec 512) : Bool :=
  let k := tcamKey e; let m := tcamMask e; let kd := tcamKind e
  let pm := m / 2 ^ 146 % 4096
  let act := tcamAction e
  m / 2 ^ 158 == 3 && (pm == 0 || pm == 4095)
  && (if kd = 3 then isPrefix 128 (m / 2 ^ 18 % 2 ^ 128) else isPrefix 32 (m / 2 ^ 114 % 2 ^ 32))
  && Nat.land k (2 ^ 160 - 1 - m) == 0
  && (if kd = 3 then k % 2 ^ 18 == 0 else k % 2 ^ 114 == 0)
  && (if kd = 1 then act != 3 && dataOf e 6 61 61 == 0
      else (act == 0 || act == 2) && dataOf e 6 61 60 != 3 && (dataOf e 6 61 60 != 2 || dataOf e 6 7 0 == 0))

/-- An entry's KIND suits a partition (R85). -/
def kindSuits (kd part : Nat) : Bool := (part == 1 && kd == 1) || (part == 2 && (kd == 2 || kd == 3))

/-- A TCAM entry as stored: reserved bits zero (R85). -/
def tcamClean (e : BitVec 512) : BitVec 512 :=
  keepFields e [(0, 63, 0), (1, 63, 0), (2, 63, 32), (3, 63, 0), (4, 63, 0), (5, 63, 32),
    (6, 63, 62), (6, 11, 0)] |> fun a =>
  if tcamKind e = 1 then a else setData a 6 61 0 (dataOf e 6 61 60 * 2 ^ 60 + dataOf e 6 41 0)

/-- Ranks never rise with the slot (R86). -/
def inOrder : List (Nat × BitVec 512) → Bool
  | x :: y :: l => decide (tcamRank y.2 ≤ tcamRank x.2) && inOrder (y :: l)
  | _ => true

/-- The entries of a partition in slot order. -/
def Dev.partEntries (d : Dev) (part : Nat) : List (Nat × BitVec 512) :=
  let r := d.partRange part
  (d.entries 0).filter (fun x => decide (r.1 ≤ x.1 ∧ x.1 < r.2))

/-- A partition's order holds (R86). -/
def Dev.partOrdered (d : Dev) (part : Nat) : Bool := inOrder (d.partEntries part)

/-- Moves an entry to a free slot. -/
def Dev.moveEnt (d : Dev) (table a b : Nat) : Dev :=
  match d.ent table a with
  | none => d
  | some e => (d.setEnt table b e).dropEnt table a

/-- Opens slot `p` by the moves of R86 toward the free slot `free` above it: fuel, then the group's end so far. Groups
are taken from the free space down: the group's first entry goes just past the group's end. -/
def Dev.openUp (d : Dev) (p : Nat) : Nat → Nat → Dev
  | 0, _ => d
  | n + 1, free =>
    if free ≤ p then d
    else
      let rk (s : Nat) : Nat := match d.ent 0 s with | some e => tcamRank e | none => 0
      let start := ((List.range (free - p)).map (p + ·)).find? (fun s => rk s == rk (free - 1))
      match start with
      | none => d
      | some g => (d.moveEnt 0 g free).openUp p n g

/-- Opens slot `p` toward a free slot below it, groups taken from the free space up. -/
def Dev.openDown (d : Dev) (p : Nat) : Nat → Nat → Dev
  | 0, _ => d
  | n + 1, free =>
    if p ≤ free then d
    else
      let rk (s : Nat) : Nat := match d.ent 0 s with | some e => tcamRank e | none => 0
      let last := ((List.range (p - free)).map (p - ·)).find? (fun s => rk s == rk (free + 1))
      match last with
      | none => d
      | some g => (d.moveEnt 0 g free).openDown p n g

/-- Same key and mask. -/
def sameMatch (a b : BitVec 512) : Bool := tcamKey a == tcamKey b && tcamMask a == tcamMask b

/-- Takes a provisional exception out (R78). -/
def Dev.dropProv (d : Dev) (slot : Nat) : Dev :=
  let d := d.dropEnt 0 slot
  { d with tab := { d.tab with prov := d.tab.prov.erase slot } }

/-- Same KIND, PROD field and DST_CA prefix (R78, R87). -/
def samePrefix (a b : BitVec 512) : Bool :=
  tcamKey a / 2 ^ 114 == tcamKey b / 2 ^ 114 && tcamMask a / 2 ^ 114 == tcamMask b / 2 ^ 114

/-- Removes provisional entries whose prefix and PROD field a command's entry has; true if there were any (R78, R87). -/
def Dev.unprovision (d : Dev) (e : BitVec 512) : Bool × Dev :=
  let gone := (d.entries 0).filter (fun x => decide (x.1 < 1024) && samePrefix x.2 e)
  (!gone.isEmpty, d.each gone (fun d x => d.dropProv x.1))

/-- INSERT into the TCAM (R81, R86, R87): result, index and device. The command's INDEX is not read: in R87's example an
INSERT with INDEX 0, a provisional slot, ends DONE (DEDUCED, log 218). -/
def Dev.tcamInsert (d : Dev) (e : BitVec 512) : Nat × Option Nat × Dev :=
  let kd := tcamKind e
  if kd = 0 ∨ !tcamOk e then (TR.BAD_ENTRY, none, d)
  else
    let part := if kd = 1 then 1 else 2
    let es := d.partEntries part
    match es.find? (fun x => sameMatch x.2 e) with
    | some x => (TR.REPLACED, some x.1, ((d.setEnt 0 x.1 (tcamClean e)).unprovision e).2)
    | none =>
      let (lo, hi) := d.partRange part
      let p := (es.foldl (fun a x => if tcamRank e ≤ tcamRank x.2 then x.1 + 1 else a) lo)
      let used (s : Nat) : Bool := es.any (fun x => x.1 == s)
      let fin (s : Nat) (d : Dev) : Nat × Option Nat × Dev :=
        let (rep, d) := (d.setEnt 0 s (tcamClean e)).unprovision e
        (if rep then TR.REPLACED else TR.DONE, some s, d)
      match ((List.range (hi - p)).map (p + ·)).find? (fun s => !used s) with
      | some f => fin p (d.openUp p (f - p + 1) f)
      | none =>
        match ((List.range (p - lo)).map (p - 1 - ·)).find? (fun s => !used s) with
        | some f => fin (p - 1) (d.openDown (p - 1) (p - f) f)
        | none => (TR.TABLE_FULL, none, d)

/-- A command on the TCAM (R81, R84): result, index and device. READ of a slot that is not VALID loads zeros (DESIGN CHOICE,
log 219), in every table. DESIGN CHOICE (log 253): a MOVE whose INDEX2 is its INDEX, with no valid entry there, ends NOT_FOUND;
R81 gives both NOT_FOUND and DONE. -/
def Dev.tcamCmd (d : Dev) (op : Nat) (byKey : Bool) (idx idx2 : Nat) : Nat × Option Nat × Dev :=
  let e := d.staged
  match op with
  | 1 => (TR.DONE, some idx, d.loadData (match d.ent 0 idx with | some x => setData x 7 63 63 1 | none => 0))
  | 2 =>
    if idx < 1024 then (TR.BAD_INDEX, none, d)
    else if !tcamOk e ∨ !kindSuits (tcamKind e) (d.tcamPart idx) then (TR.BAD_ENTRY, none, d)
    else
      let d' := d.setEnt 0 idx (tcamClean e)
      if d'.partOrdered (d.tcamPart idx) then (TR.DONE, some idx, d') else (TR.BAD_ORDER, none, d)
  | 3 => d.tcamInsert e
  | 4 =>
    if byKey then
      match (d.entries 0).find? (fun x => decide (1024 ≤ x.1) && sameMatch x.2 e) with
      | some x => (TR.DONE, some x.1, d.dropEnt 0 x.1)
      | none => (TR.NOT_FOUND, none, d)
    else (TR.DONE, some idx, d.dropProv idx)
  | 5 =>
    if idx < 1024 ∨ idx2 < 1024 then (TR.BAD_INDEX, none, d)
    else match d.ent 0 idx with
      | none => (TR.NOT_FOUND, none, d)
      | some x =>
        if idx2 = idx then (TR.DONE, some idx, d)
        else if (d.ent 0 idx2).isSome then (TR.BAD_INDEX, none, d)
        else if !kindSuits (tcamKind x) (d.tcamPart idx2) then (TR.BAD_ENTRY, none, d)
        else
          let d' := d.moveEnt 0 idx idx2
          if d'.partOrdered 1 ∧ d'.partOrdered 2 then (TR.DONE, some idx2, d') else (TR.BAD_ORDER, none, d)
  | _ =>
    match (d.entries 0).find? (fun x => decide (idx ≤ x.1) && Nat.land (tcamKey x.2 ^^^ tcamKey e) (tcamMask e) == 0
        && Nat.land (dataOf x.2 6 63 0 ^^^ dataOf e 6 63 0) (dataOf e 7 63 0) == 0) with
    | some x => (TR.DONE, some x.1, d)
    | none => (TR.NOT_FOUND, none, d)

/-! ## Exact-match table (R88) -/

/-- The 72-bit key {DOMAIN, VID, MAC}. -/
def exKey (dom vid mac : Nat) : Nat := dom % 4096 * 2 ^ 60 + vid % 4096 * 2 ^ 48 + mac % 2 ^ 48
/-- The key of an entry. -/
def exKeyOf (e : BitVec 512) : Nat := dataOf e 0 63 40 * 2 ^ 48 + dataOf e 1 63 16
def exStatic (e : BitVec 512) : Bool := dataOf e 2 63 63 == 1
def exKind (e : BitVec 512) : Nat := dataOf e 2 61 60
def exLane (e : BitVec 512) : Nat := dataOf e 2 41 32
def exTarget (e : BitVec 512) : Nat := dataOf e 2 31 0
def exAge (e : BitVec 512) : Nat := dataOf e 3 7 0

/-- Polynomial of a bank's hash. -/
def exPoly (b : Nat) : Nat := [0x04C11DB7, 0x1EDC6F41, 0x741B8CD7, 0x814141AB].getD b 0
/-- A key's bucket in a bank. -/
def exBucket (key b : Nat) : Nat := crc32 (exPoly b) (bytesOf 9 key) / 2 ^ 17
/-- Candidate indices of a key, lowest first. -/
def Dev.exWays (d : Dev) (key : Nat) : List Nat :=
  (List.range (if d.compat then 2 else 4)).flatMap (fun b => (List.range 8).map (fun w => b * 262144 + exBucket key b * 8 + w))

/-- The index at which a key stands. -/
def Dev.exFind (d : Dev) (key : Nat) : Option Nat :=
  (d.exWays key).find? (fun i => match d.ent 1 i with | some e => exKeyOf e == key | none => false)

/-- A lookup of a key: an entry with a parity error counts as absent (R88, R89). -/
def Dev.exLook (d : Dev) (key : Nat) : Option (Nat × BitVec 512) × Dev :=
  match d.exFind key with
  | none => (none, d)
  | some i => match d.look 1 i with
    | (none, d) => (none, d)
    | (some e, d) => (some (i, e), d)

/-- A free way for a key; which one the spec leaves open. -/
def Dev.exFree (d : Dev) (key : Nat) : Option (Nat × Dev) :=
  d.pickFree ((d.exWays key).filter (fun i => (d.ent 1 i).isNone))

/-- A learned entry leaves: PRT_LEARN.LEARNED of its port falls (R96). -/
def Dev.unlearn (d : Dev) (i : Nat) : Dev :=
  match d.ent 1 i with
  | some e => if exStatic e then d else d.setFld F.PRT_LEARN_LEARNED (exLane e) (d.fld F.PRT_LEARN_LEARNED (exLane e) - 1)
  | none => d

/-- The exact-match entry as a command writes it: STATIC 1, AGE 0, reserved bits zero. -/
def exClean (e : BitVec 512) : BitVec 512 :=
  setData (keepFields e [(0, 63, 40), (1, 63, 16), (2, 61, 60), (2, 41, 0)]) 2 63 63 1

/-- The format rules of R88. -/
def exOk (e : BitVec 512) : Bool := exKind e != 3 && (exKind e != 2 || exTarget e % 256 == 0)

/-- A command on the exact-match table (R81). -/
def Dev.exactCmd (d : Dev) (op : Nat) (byKey : Bool) (idx : Nat) : Nat × Option Nat × Dev :=
  let e := d.staged
  let key := exKeyOf e
  match op with
  | 1 => (TR.DONE, some idx, d.loadData (match d.ent 1 idx with | some x => setData x 2 62 62 1 | none => 0))
  | 2 =>
    if !exOk e ∨ idx / 8 % 32768 ≠ exBucket key (idx / 262144) then (TR.BAD_ENTRY, none, d)
    else (TR.DONE, some idx, (d.unlearn idx).setEnt 1 idx (exClean e))
  | 3 =>
    if !exOk e then (TR.BAD_ENTRY, none, d)
    else match d.exFind key with
      | some i => (TR.REPLACED, some i, (d.unlearn i).setEnt 1 i (exClean e))
      | none =>
        match d.exFree key with
        | some (i, d) => (TR.DONE, some i, d.setEnt 1 i (exClean e))
        | none => (TR.TABLE_FULL, none, d)
  | 4 =>
    if byKey then
      match d.exFind key with
      | some i => (TR.DONE, some i, (d.unlearn i).dropEnt 1 i)
      | none => (TR.NOT_FOUND, none, d)
    else (TR.DONE, some idx, (d.unlearn idx).dropEnt 1 idx)
  | 6 =>
    match d.exFind key with
    | some i => (TR.DONE, some i, d)
    | none => (TR.NOT_FOUND, none, d)
  | _ => (TR.UNSUPPORTED_OP, none, d)

/-! ## SPRAY, SWATCH, CAST and POLICER -/

/-- Every bond of a row lies within one Wing (R68). -/
def sprayOk (e : BitVec 512) : Bool :=
  (List.range 32).all (fun j => match slotOf e j with | some x => x.1 / 64 == (x.1 + (x.2 - 1)) / 64 | none => true)

/-- A row of the SPRAY table with its reserved bits zero (R68). -/
def sprayClean (e : BitVec 512) : BitVec 512 :=
  (List.range 32).foldl (fun a j => setBits a (506 - 16 * j) (506 - 16 * j) 0) e

/-- Stores a row; a row without members is held by listing nothing. -/
def Dev.putRow (d : Dev) (row : Nat) (e : BitVec 512) : Dev := if e = 0 then d.dropEnt 2 row else d.setEnt 2 row e

/-- A SPRAY row is written: an even row is staged, an odd row commits the set (R68); the set's pointer goes back to
slot 0 (R71), and cut-outs of TBL_DOWN entries that name it are judged afresh (R77). -/
def Dev.sprayWrite (d : Dev) (row : Nat) (e : BitVec 512) : Dev :=
  let s := row / 2
  if row % 2 = 0 then { d with tab := { d.tab with staged := d.tab.staged.put s e } }
  else
    let d := d.whenSome (d.tab.staged.find s) (fun x d => d.putRow (2 * s) x)
    let d := d.putRow row e
    { d with tab := { d.tab with staged := d.tab.staged.erase s },
             net := { d.net with sprayPtr := d.net.sprayPtr.erase s,
                                 downLost := d.net.downLost.filter (fun n => d.fld F.TBL_DOWN_SET n ≠ s) } }

/-- CA[31:8] of every member of a cast, as its list stands. -/
def Dev.castCas (d : Dev) (m : Mem) (c : Nat) : List Nat :=
  match d.ent 4 c with
  | none => []
  | some e => (List.range (castCount e)).filterMap (fun i => (d.castMember m e i).map (· / 256))

/-- The list of a cast is read whole. -/
def Dev.readCast (d : Dev) (c : Nat) : Dev :=
  d.whenSome (d.ent 4 c) (fun e d => d.carveReadCount 0 (0x54000000 + 4 * castBase e) (4 * castCount e))

/-- An enabled cast of a swatch entry is VALID and of its production (R207). -/
def Dev.swCastOk (d : Dev) (en : Bool) (c prod : Nat) : Bool :=
  !en || (match d.ent 4 c with | some e => castProd e == prod | none => false)

/-- The checks of a swatch WRITE (R207). -/
def Dev.swatchOk (d : Dev) (idx : Nat) (e : BitVec 512) : Bool :=
  let pages := swLimit e + 1 - swBase e
  decide (swBase e ≤ swLimit e)
  && !(d.entries 3).any (fun x => x.1 != idx && swProd x.2 == swProd e && decide (swBase x.2 ≤ swLimit e ∧ swBase e ≤ swLimit x.2))
  && d.fld F.GLB_PROD_STATE (swProd e) == 1 && d.fld F.GLB_PROD_GEN (swProd e) == dataOf e 1 11 4
  && d.swCastOk (dataOf e 4 62 62 == 1) (dataOf e 4 61 48) (swProd e)
  && d.swCastOk (dataOf e 4 47 47 == 1) (dataOf e 4 46 33) (swProd e)
  && (swTarget e != (d.ownFn 1).toNat || exposable (swLocal e * 4096) (pages * 4096))

/-- A WRITE, READ or DELETE of a swatch entry ends any move of it (R221). -/
def Dev.swatchCmd (d : Dev) (m : Mem) (op idx : Nat) : Nat × Option Nat × Dev :=
  let e := d.staged
  let clear (d : Dev) : Dev :=
    { d with tab := { d.tab with moves := d.tab.moves.erase idx, members := d.tab.members.erase idx } }
  match op with
  | 1 => (TR.DONE, some idx, d.loadData (match d.ent 3 idx with | some x => setData x 4 30 30 1 | none => 0))
  | 2 =>
    if d.swatchOk idx e then
      let ws := if dataOf e 4 47 47 = 1 then d.castCas m (dataOf e 4 46 33) else []
      let rs := if dataOf e 4 62 62 = 1 then d.castCas m (dataOf e 4 61 48) else []
      let d := (d.when (dataOf e 4 47 47 == 1) (fun d => d.readCast (dataOf e 4 46 33))).when (dataOf e 4 62 62 == 1)
        (fun d => d.readCast (dataOf e 4 61 48))
      let d := (clear d).setEnt 3 idx (keepFields e [(0, 63, 0), (1, 63, 4), (2, 63, 12), (3, 63, 0), (4, 63, 33)])
      (TR.DONE, some idx, { d with tab := { d.tab with members := d.tab.members.put idx (ws, rs) } })
    else (TR.BAD_ENTRY, none, d)
  | _ => (TR.DONE, some idx, (clear d).dropEnt 3 idx)

/-- A VALID swatch entry names a cast (R207). -/
def Dev.swatchUses (d : Dev) (c : Nat) : Bool :=
  (d.entries 3).any (fun x => (dataOf x.2 4 62 62 == 1 && dataOf x.2 4 61 48 == c) || (dataOf x.2 4 47 47 == 1 && dataOf x.2 4 46 33 == c))

/-- A command on the CAST table (R137, R138). -/
def Dev.castCmd (d : Dev) (op idx : Nat) : Nat × Option Nat × Dev :=
  let e := d.staged
  if op = 1 then (TR.DONE, some idx, d.loadData (match d.ent 4 idx with | some x => setData x 1 63 63 1 | none => 0))
  else if d.groupBound false idx ∨ d.swatchUses idx then
    (TR.BAD_ENTRY, none, d.notice N.CAST_BUSY Src.tables 0 0)
  else if op = 2 then
    if d.fld F.GLB_PROD_STATE (castProd e) ≠ 1 ∨ d.fld F.GLB_PROD_GEN (castProd e) ≠ castGen e
      ∨ 4194303 < castBase e + (castCount e - 1) ∨ dataOf e 1 62 59 = 0 then (TR.BAD_ENTRY, none, d)
    else (TR.DONE, some idx, d.setEnt 4 idx (keepFields e [(0, 63, 8), (1, 62, 59)]))
  else (TR.DONE, some idx, d.dropEnt 4 idx)

/-- A command on the POLICER table (R127). A written entry's buckets start full. -/
def Dev.policerCmd (d : Dev) (op idx : Nat) : Nat × Option Nat × Dev :=
  let e := d.staged
  let setPol (d : Dev) (o : Option (Nat × Nat × Nat)) : Dev :=
    { d with net := { d.net with pol := match o with | some x => d.net.pol.put idx x | none => d.net.pol.erase idx } }
  match op with
  | 1 =>
    (TR.DONE, some idx, d.loadData (match d.ent 5 idx with
      | some x => let l := d.polLevels idx x
                  setData (setData (setData x 1 34 34 1) 2 63 40 (l.1 / polScale)) 2 39 16 (l.2 / polScale)
      | none => 0))
  | 2 =>
    if polPir e < polCir e ∨ polCbs e < 4480 ∨ polPbs e < 4480 ∨ polY e = 3 ∨ polR e = 3 then (TR.BAD_ENTRY, none, d)
    else (TR.DONE, some idx, setPol (d.setEnt 5 idx (keepFields e [(0, 63, 0), (1, 63, 35)]))
      (some (polCbs e * polScale, polPbs e * polScale, d.tmu.total)))
  | _ => (TR.DONE, some idx, setPol (d.dropEnt 5 idx) none)

/-! ## Commands (R80 to R82) -/

/-- The word of a table command. -/
def tblWord (op table byKey idx idx2 : Nat) : Word :=
  BitVec.ofNat 64 (op * 2 ^ 60 + table % 16 * 2 ^ 56 + byKey * 2 ^ 55 + idx % 2 ^ 20 * 2 ^ 32 + idx2 % 2 ^ 20 * 2 ^ 12)

/-- A command ends: RESULT, INDEX, DONE_COUNT, and BUSY falls. -/
def Dev.tblEnd (d : Dev) (res : Nat) (idx : Option Nat) : Dev :=
  let d := d.setFld F.TBL_STAT_RESULT 0 res
  let d := match idx with | some i => d.setFld F.TBL_STAT_INDEX 0 i | none => d
  let d := d.setFld F.TBL_STAT_DONE_COUNT 0 (d.fld F.TBL_STAT_DONE_COUNT 0 + 1)
  let d := d.setFld F.TBL_STAT_BUSY 0 0
  { d with tab := { d.tab with cmd := none } }

/-- A write to TBL_CMD or TBL_DATAn that BUSY discards (R80). -/
def Dev.tblOverrun (d : Dev) : Dev := (d.setFld F.TBL_STAT_OVERRUN 0 1).countTbl C.TBL_OVERRUN

/-- A write to TBL_CMD (R80). -/
def Dev.wrTblCmd (d : Dev) (w : Word) : Dev :=
  if d.flag F.TBL_STAT_BUSY 0 then d.tblOverrun
  else
    let op := fldOf F.TBL_CMD_OP w
    if op = 0 then d
    else if 6 < op ∨ 5 < fldOf F.TBL_CMD_TABLE w then d.tblEnd TR.UNSUPPORTED_OP none
    else { d.setFld F.TBL_STAT_BUSY 0 1 with tab := { d.tab with cmd := some w } }

/-- A write to TBL_DATAn (R80). -/
def Dev.wrTblData (d : Dev) (n : Nat) (w : Word) : Dev :=
  if d.flag F.TBL_STAT_BUSY 0 then d.tblOverrun else d.wr .TBL_DATA n w

/-- What a command does, in the handshake in which BUSY falls (R80, R81, R92). Where several results apply, LOCKED stands
before UNSUPPORTED_OP and UNSUPPORTED_OP before BAD_INDEX (DESIGN CHOICE, log 220). -/
def Dev.tblRun (d : Dev) (m : Mem) (w : Word) : Nat × Option Nat × Dev :=
  let op := fldOf F.TBL_CMD_OP w; let t := fldOf F.TBL_CMD_TABLE w
  let byKey := fldOf F.TBL_CMD_BY_KEY w == 1
  let idx := fldOf F.TBL_CMD_INDEX w; let idx2 := fldOf F.TBL_CMD_INDEX2 w
  if t ≤ 1 ∧ d.dmaOpen then (TR.LOCKED, none, d)
  else if op = 4 ∧ byKey ∧ 2 ≤ t then (TR.UNSUPPORTED_OP, none, d)
  else if (2 ≤ t ∧ (op = 3 ∨ op = 5 ∨ op = 6)) ∨ (t = 1 ∧ op = 5) then (TR.UNSUPPORTED_OP, none, d)
  else if d.tblSize t ≤ idx ∨ (op = 5 ∧ d.tblSize t ≤ idx2) then (TR.BAD_INDEX, none, d)
  else match t with
    | 0 => d.tcamCmd op byKey idx idx2
    | 1 => d.exactCmd op byKey idx
    | 2 =>
      if op = 1 then (TR.DONE, some idx, d.loadData ((d.ent 2 idx).getD 0))
      else if op = 2 ∧ !sprayOk d.staged then (TR.BAD_ENTRY, none, d)
      else (TR.DONE, some idx, d.sprayWrite idx (if op = 2 then sprayClean d.staged else 0))
    | 3 => d.swatchCmd m op idx
    | 4 => d.castCmd op idx
    | _ => d.policerCmd op idx

/-- A command row: the write of TBL_CMD that starts it (R80). -/
def tblRow (m : Master) (w : Word) (s : State) : Res := onDev s fun d => d.regRow m .TBL_CMD 0 w (fun d => d.wrTblCmd w)

/-- TBL_READ (R81). -/
def execTblRead (m : Master) (table index : Nat) (s : State) : Res := tblRow m (tblWord 1 table 0 index 0) s
/-- TBL_WRITE (R81). -/
def execTblWrite (m : Master) (table index : Nat) (s : State) : Res := tblRow m (tblWord 2 table 0 index 0) s
/-- TBL_INSERT (R81). -/
def execTblInsert (m : Master) (table : Nat) (s : State) : Res := tblRow m (tblWord 3 table 0 0 0) s
/-- TBL_DELETE (R81). -/
def execTblDelete (m : Master) (table : Nat) (byKey : Bool) (index : Nat) (s : State) : Res :=
  tblRow m (tblWord 4 table (bit byKey) index 0) s
/-- TBL_MOVE (R81). -/
def execTblMove (m : Master) (table index index2 : Nat) (s : State) : Res := tblRow m (tblWord 5 table 0 index index2) s
/-- TBL_SEARCH (R81). -/
def execTblSearch (m : Master) (table index : Nat) (s : State) : Res := tblRow m (tblWord 6 table 0 index 0) s

/-- A write to TBL_TCAM_PART (R84). -/
def Dev.wrTcamPart (d : Dev) (w : Word) : Dev :=
  let d' := d.plainWrite .TBL_TCAM_PART 0 w
  if (d.entries 0).all (fun x => decide (x.1 < 1024) || kindSuits (tcamKind x.2) (d'.tcamPart x.1)) then d'
  else d.notice N.TBL_PART_REFUSED Src.tables 0 0

/-- TBL_TCAM_PART_WRITE (R84). -/
def execTblTcamPartWrite (m : Master) (data : Word) (s : State) : Res :=
  onDev s fun d => d.regRow m .TBL_TCAM_PART 0 data (fun d => d.wrTcamPart data)

/-! ## The forerunner-compatible image (R91, R92) -/

/-- The partitions and the exact-match table hold no valid entries (R91). -/
def Dev.tablesEmpty (d : Dev) : Bool := (d.entries 0).all (fun x => decide (x.1 < 1024)) && (d.entries 1).isEmpty

/-- A write to TBL_DMA_LOCK (R91, R92). One write that carries LOCK 1 with a change of COMPAT is discarded whole, with
TBL_MODE_REFUSED: COMPAT is 0 before or after it (DESIGN CHOICE, log 221). -/
def Dev.wrDmaLock (d : Dev) (w : Word) : Dev :=
  let st := d.fld F.TBL_DMA_LOCK_STATE 0
  let lock := fldOf F.TBL_DMA_LOCK_LOCK w == 1
  let comp := fldOf F.TBL_DMA_LOCK_COMPAT w == 1
  if comp ≠ d.compat ∧ !(st = 0 ∧ d.tablesEmpty) then d.notice N.TBL_MODE_REFUSED Src.tables 0 0
  else if st = 2 then d
  else if lock ∧ !(comp ∧ d.compat) then d.notice N.TBL_MODE_REFUSED Src.tables 0 0
  else
    let d := (d.setFld F.TBL_DMA_LOCK_COMPAT 0 (bit comp)).setFld F.TBL_DMA_LOCK_LOCK 0 (bit lock)
    if lock then d.setFld F.TBL_DMA_LOCK_STATE 0 1
    else if st = 1 then d.setFld F.TBL_DMA_LOCK_STATE 0 2
    else d

/-- TBL_COMPAT_WRITE (R91). -/
def execTblCompatWrite (m : Master) (data : Word) (s : State) : Res :=
  onDev s fun d => d.regRow m .TBL_DMA_LOCK 0 data (fun d => d.wrDmaLock data)
/-- TBL_DMA_OPEN (R92). -/
def execTblDmaOpen (m : Master) (data : Word) (s : State) : Res :=
  onDev s fun d => d.regRow m .TBL_DMA_LOCK 0 data (fun d => d.wrDmaLock data)
/-- TBL_DMA_COMMIT (R92). -/
def execTblDmaCommit (m : Master) (data : Word) (s : State) : Res :=
  onDev s fun d => d.regRow m .TBL_DMA_LOCK 0 data (fun d => d.wrDmaLock data)

/-- Offset of the table shadow region in pair A, and of the exact-match part in it (R91, R223). -/
def shadowBase : Nat := 0x50000000
def shadowExact : Nat := 0x01000000

/-- Entry numbers of a shadow array that hold a byte other than 0, rising. -/
def shadowUsed (m : Mem) (base width count : Nat) : List Nat :=
  ((m.filterMap (fun c => if base ≤ c.1 ∧ c.1 < base + width * count then some ((c.1 - base) / width) else none))).dedup

/-- The shadow entries that are VALID: index and words (R91). -/
def shadowOf (m : Mem) (base width count : Nat) (valid : BitVec 512 → Bool) : List (Nat × BitVec 512) :=
  (shadowUsed m base width count).filterMap (fun j =>
    let e := BitVec.ofNat 512 (ofBytes (memRead m (base + width * j) width) * 256 ^ (64 - width))
    if valid e then some (j, e) else none)

/-- The first bad TCAM entry of the shadow (R92): formats and partitions, then the order with the entry before it. -/
def Dev.shadowTcamBad (d : Dev) : List (Nat × BitVec 512) → Option Nat
  | [] => none
  | [x] => if tcamOk x.2 && kindSuits (tcamKind x.2) (d.tcamPart (1024 + x.1)) then none else some x.1
  | x :: y :: l =>
    if !(tcamOk x.2 && kindSuits (tcamKind x.2) (d.tcamPart (1024 + x.1))) then some x.1
    else if d.tcamPart (1024 + x.1) = d.tcamPart (1024 + y.1) ∧ tcamRank x.2 < tcamRank y.2 then some y.1
    else d.shadowTcamBad (y :: l)

/-- LEARNED of every port counts its learned entries. -/
def Dev.recountLearned (d : Dev) : Dev :=
  d.each (List.range d.nLanes) (fun d l =>
    let n := (d.entries 1).countP (fun x => !exStatic x.2 && exLane x.2 == l)
    if d.fld F.PRT_LEARN_LEARNED l = n then d else d.setFld F.PRT_LEARN_LEARNED l n)

/-- A commit fails: STATE FAILED, and the first bad entry is named (R92). -/
def Dev.commitFail (d : Dev) (table idx : Nat) : Dev :=
  let d := (d.setFld F.TBL_DMA_LOCK_STATE 0 3).setFld F.TBL_DMA_LOCK_FAIL_TABLE 0 table
  (d.setFld F.TBL_DMA_LOCK_FAIL_INDEX 0 idx).notice N.TBL_COMMIT_FAIL Src.tables 0 0

/-- TBL_DMA_COMMIT_DONE (R92): the shadow is checked; the banks swap, or the commit fails. -/
def execTblDmaCommitDone (s : State) : Res :=
  onDevM s fun m d =>
    if d.fld F.TBL_DMA_LOCK_STATE 0 ≠ 2 then d
    else match [0, 1].find? d.stackUp with
      | none => d.commitFail 0 0
      | some k =>
        let base := carveAt k shadowBase
        let ts := shadowOf m base 64 65024 (fun e => dataOf e 7 63 63 == 1)
        let es := shadowOf m (base + shadowExact) 32 524288 (fun e => dataOf e 2 62 62 == 1)
        match d.shadowTcamBad ts with
        | some j => d.commitFail 0 j
        | none =>
          match es.find? (fun x => !exOk x.2 || x.1 / 8 % 32768 != exBucket (exKeyOf x.2) (x.1 / 262144)) with
          | some x => d.commitFail 1 x.1
          | none =>
            let d := d.each ((d.entries 0).filter (fun x => decide (1024 ≤ x.1))) (fun d x => d.dropEnt 0 x.1)
            let d := d.each (d.entries 1) (fun d x => d.dropEnt 1 x.1)
            let d := d.each ts (fun d x => d.setEnt 0 (1024 + x.1) (tcamClean x.2))
            let d := d.each es (fun d x => d.setEnt 1 x.1 (setData (exClean x.2) 2 63 63 (dataOf x.2 2 63 63)))
            (d.recountLearned.setFld F.TBL_DMA_LOCK_STATE 0 0).notice N.TBL_COMMIT Src.tables 0 0

/-! ## Scrubbing (R89, R90) -/

/-- An entry has no parity error any more. -/
def Dev.mended (d : Dev) (key : Nat) : Dev := { d with tab := { d.tab with parity := d.tab.parity.filter (· ≠ key) } }

/-- The live entry of a storage key is invalidated; a learned entry leaves its port's count with it (R90, R96). -/
def Dev.invalidate (d : Dev) (key : Nat) : Dev :=
  let t := key / 2 ^ 20
  let n := key % 2 ^ 20
  if t = downTable then (d.setFld F.TBL_DOWN_VALID n 0).mended key
  else if t = upTable then (d.setFld F.TBL_UP_VALID n 0).mended key
  else if t = 1 then (d.unlearn n).dropEnt 1 n
  else d.dropEnt t n

/-- The scrubber repairs a bad entry from the committed copy; where the copy reads ECC_UNCORR, the entry is invalidated
and the notice repeated with UNREPAIRED set (R90). While no stack of pair A serves, it waits. -/
def Dev.scrub (d : Dev) (key : Nat) : Dev :=
  if !d.stackUp 0 && !d.stackUp 1 then d
  else if (d.carveStack 0 (copyOff key) 64).isNone then
    (d.invalidate key).notice N.TBL_PARITY Src.tables 0 (key / 2 ^ 20 * 2 ^ 60 + 2 ^ 59 + key % 2 ^ 20)
  else d.mended key

/-! ## Provisional exceptions (R77, R78) -/

/-- The coordinate exception that covers TBL_DOWN index n (R77). -/
def Dev.provEntry (d : Dev) (n set : Nat) : BitVec 512 :=
  let o := d.ownCa
  let (len, ca) := match d.fld F.TBL_ROUTE_CTL_TIER 0 with
    | 1 => (24, o / 2 ^ 18 * 2 ^ 18 + n % 1024 * 2 ^ 8)
    | 2 => (14, o / 2 ^ 23 * 2 ^ 23 + n % 32 * 2 ^ 18)
    | _ => (9, o / 2 ^ 30 * 2 ^ 30 + n % 128 * 2 ^ 23)
  BitVec.ofNat 512 ((1 * 2 ^ 158 + ca * 2 ^ 114) * 2 ^ 352 + (3 * 2 ^ 158 + (2 ^ 32 - 2 ^ (32 - len)) * 2 ^ 114) * 2 ^ 160 % 2 ^ 352
    + (1 * 2 ^ 62 + 2 ^ 61 + set) * 2 ^ 64)

/-- Some set of the SPRAY table has a VALID member. -/
def Dev.setNonEmpty (d : Dev) (s : Nat) : Bool := !(d.members s).1.isEmpty

/-- The TBL_DOWN indices of the device's tier (R64, R77). -/
def Dev.downSize (d : Dev) : Nat :=
  match d.fld F.TBL_ROUTE_CTL_TIER 0 with
  | 0 => 0
  | 1 => 1024
  | 2 => 32
  | _ => 128

/-- A TBL_DOWN set that has lost its last eligible member gets an exception (R77, R87). -/
def Dev.provInstall (d : Dev) (n : Nat) : Dev :=
  let pod := caPod d.ownCa
  if d.net.downLost.contains n ∧ d.flag F.TBL_DOWN_VALID n ∧ n < d.downSize then
    let d := { d with net := { d.net with downLost := d.net.downLost.filter (· ≠ n) } }
    if d.flag F.TBL_UP_VALID pod ∧ d.setNonEmpty (d.fld F.TBL_UP_SET pod) then
      match d.pickFree ((List.range 1024).filter (fun i => (d.ent 0 i).isNone)) with
      | none => d.countTbl C.PROV_FULL
      | some (slot, g) =>
        let g := g.setEnt 0 slot (d.provEntry n (d.fld F.TBL_UP_SET pod))
        { g with tab := { g.tab with prov := g.tab.prov.put slot (n, d.fld F.TBL_DOWN_SET n) } }
    else d
  else d

/-- A provisional exception ends once a member of the original set is eligible again (R78). -/
def Dev.provRemove (d : Dev) (slot : Nat) : Dev :=
  match d.tab.prov.find slot with
  | none => d
  | some (_, set) => if (d.members set).1.any (fun m => d.memberAlive m.2) then d.dropProv slot else d

/-! ## Collective pool (R103) -/

/-- A write to WRD_COLL_POOL (R103): refused where it changes POOL while images are admitted, or leaves the shared pool
below 262,144 cells. -/
def Dev.wrCollPool (d : Dev) (w : Word) : Dev :=
  let n := fldOf F.WRD_COLL_POOL_POOL w
  let o := d.fld F.WRD_COLL_POOL_POOL 0
  if (n ≠ o ∧ d.fld F.WRD_COLL_POOL_ADMITTED 0 ≠ 0) ∨ d.sharedTotal + o < n + 262144 then
    d.notice N.WRD_POOL_REFUSED Src.core 0 0
  else d.plainWrite .WRD_COLL_POOL 0 w

/-- WRD_COLL_POOL_WRITE (R103). -/
def execWrdCollPoolWrite (m : Master) (data : Word) (s : State) : Res :=
  onDev s fun d => d.regRow m .WRD_COLL_POOL 0 data (fun d => d.wrCollPool data)

end Sys2Proof.Machine
end

