-- ==== Sys2Proof/Machine/Border.lean ====
section
/-! DEFINITION. Border Ethernet (R93 to R98): frames in, MAC learning, flooding, encapsulation, and ETH_ENCAP out. -/

namespace Sys2Proof.Machine

/-! ## Frames -/

/-- What a programmable counter judges a frame of a border port by: the ETH_ENCAP that carries it (R51, R343). -/
def Dev.frameCtx (d : Dev) (l : Nat) (f : List Byte) : EvCtx :=
  let pcp := if bytesAt f 12 2 = 0x8100 then bytesAt f 14 2 / 8192 else d.fld F.PRT_BORDER_DEF_PCP l
  { src := d.ownFn 0, prod := d.fld F.PRT_BORDER_PROD l, inl := l, vl := 5, tc := d.fld F.PRT_BORDER_PCP_TC l / 8 ^ pcp % 8, opc := 0x01 }

/-- A frame that arrived on a border port is discarded, counted in a port counter and as an event (R339, R342). -/
def Dev.dropFrame (d : Dev) (l c : Nat) (f : List Byte) : Dev := (d.countPort l c).countEv (16 + l) 5 1 (d.frameCtx l f)

/-- A frame is received on a border port (R339, R342). -/
def Dev.frameIn (d : Dev) (l : Nat) (f : List Byte) : Dev := (d.countPort l C.RX_PKT).countEv (16 + l) 0 1 (d.frameCtx l f)

/-- A frame, FCS included, is good: 64 to 4,180 bytes with a good FCS (R94). -/
def frameGood (f : List Byte) : Bool :=
  decide (64 ≤ f.length ∧ f.length ≤ 4180) && f.drop (f.length - 4) == fcsOf (f.take (f.length - 4))

def frameDa (f : List Byte) : Nat := bytesAt f 0 6
def frameSa (f : List Byte) : Nat := bytesAt f 6 6
/-- One tag with TPID 0x8100 (R94). -/
def frameTagged (f : List Byte) : Bool := bytesAt f 12 2 == 0x8100
/-- EtherType and the offset of what follows it, after at most one tag. -/
def frameType (f : List Byte) : Nat × Nat := if frameTagged f then (bytesAt f 16 2, 18) else (bytesAt f 12 2, 14)
/-- A group MAC address. -/
def isGroup (mac : Nat) : Bool := mac / 2 ^ 40 % 2 == 1

/-! ## Border egress (R97, R98) -/

/-- Cells that a border egress port holds. -/
def Dev.borderCells (d : Dev) (l : Nat) : Nat :=
  d.net.pkts.foldl (fun a p => match p.place with | .queue x _ => if x = l then a + p.cellsHeld else a | _ => a) 0

/-- An ETH_ENCAP joins a border egress port's queue, its cells drawn from the shared pool; at a full port it is dropped
and its credit returns (R98). -/
def Dev.toBorder (d : Dev) (id l : Nat) : Dev :=
  match d.pkt id with
  | none => d
  | some p =>
    if 4096 < d.borderCells l + p.cells then ((d.countPort l C.BORDER_EGR_DROP).countEv (16 + l) 5 1 p.ctx).endPkt id
    else
      let (b, d) := (d.freeBuf p.buf).chargeCommon p.cells p.prod
      (d.modPkt id (fun p => { (p.setRw 31 31 0) with buf := b })).enqueue id l

/-- ETH_ENCAP (R97): one that reached FN 0x00. -/
def execEthEncap (pid : Nat) (s : State) : Res :=
  onDev s fun d =>
    match d.pkt pid with
    | none => d
    | some p =>
      if p.place = .atFn 0 ∧ p.opc = 0x01 then
        if bitOf p.rw 10 ∧ d.isBorderPort (bitsOf p.rw 9 0) then d.toBorder pid (bitsOf p.rw 9 0)
        else ((d.discardAs p C.BORDER_NO_PORT).notice N.BORDER_NO_PORT Src.core 0 0).endPkt pid
      else d

/-! ## MAC learning (R96) -/

/-- LEARNED of a port changes. -/
def Dev.addLearned (d : Dev) (l n : Nat) : Dev := d.setFld F.PRT_LEARN_LEARNED l (d.fld F.PRT_LEARN_LEARNED l + n)
/-- A port has room under its LEARN_LIMIT. -/
def Dev.learnRoom (d : Dev) (l : Nat) : Bool := decide (d.fld F.PRT_LEARN_LEARNED l < d.fld F.PRT_LEARN_LEARN_LIMIT l)

/-- A learned entry for a port. -/
def learnedEntry (key l : Nat) : BitVec 512 :=
  setData (setData (setData 0 0 63 40 (key / 2 ^ 48)) 1 63 16 (key % 2 ^ 48)) 2 41 32 l

/-- Learning writes an entry; in compatibility mode also to the shadow, at the same index (R92). -/
def learnPut (x : Dev × Mem) (i : Nat) (e : BitVec 512) : Dev × Mem :=
  let d := x.1.setEnt 1 i e
  if d.compat then
    d.carveSave x.2 0 (shadowBase + shadowExact + 32 * i) (bytesOf 32 ((setData e 2 62 62 1).toNat / 2 ^ 256))
  else (d, x.2)

/-- Over the limit or out of ways: whether the frame goes on, and the count (R96). -/
def Dev.learnOver (d : Dev) (l c : Nat) : Bool × Dev := (!d.flag F.PRT_LEARN_OVER_DROP l, d.countTbl c)

/-- What learning does with a frame's source (R96). -/
inductive Learning where
  /-- Nothing is learned; the frame goes on. -/
  | pass
  /-- The port's own entry: AGE cleared. -/
  | hit (i : Nat)
  /-- A static entry for another port. -/
  | static
  /-- A learned entry for another port moves to this one. -/
  | move (i : Nat)
  /-- Over the limit, or no way free: the counter. -/
  | over (c : Nat)
  | new
  deriving DecidableEq, Repr

/-- The case of R96 a frame's source falls under; the lookup takes a bad entry as absent (R89). -/
def Dev.learning (d : Dev) (l vid sa : Nat) : Learning × Dev :=
  let key := exKey (d.fld F.PRT_BORDER_PROD l) vid sa
  if !d.flag F.PRT_LEARN_LEARN_EN l ∨ d.dmaOpen ∨ isGroup sa then (.pass, d)
  else match d.exLook key with
    | (some (i, e), d) =>
      (if exKind e = 0 ∧ exLane e = l then .hit i else if exStatic e then .static
       else if d.learnRoom l then .move i else .over C.LEARN_OVER, d)
    | (none, d) =>
      (if !d.learnRoom l then .over C.LEARN_OVER else if (d.exFree key).isNone then .over C.LEARN_FULL else .new, d)

/-- Learning of a frame's source on a port; false where the frame is dropped (R96). -/
def learn (l vid sa : Nat) (x : Dev × Mem) : Bool × Dev × Mem :=
  let key := exKey (x.1.fld F.PRT_BORDER_PROD l) vid sa
  match x.1.learning l vid sa with
  | (.pass, d) => (true, d, x.2)
  | (.hit i, d) =>
    (true, d.whenSome (d.ent 1 i) (fun e d => if exAge e = 0 then d else d.setEnt 1 i (setData e 3 7 0 0)), x.2)
  | (.static, d) => (true, d.countTbl C.MAC_MOVE_STATIC, x.2)
  | (.move i, d) => (true, learnPut (((d.unlearn i).addLearned l 1).countTbl C.MAC_MOVE, x.2) i (learnedEntry key l))
  | (.over c, d) => let r := d.learnOver l c; (r.1, r.2, x.2)
  | (.new, d) =>
    match d.exFree key with
    | none => (true, d, x.2)
    | some (i, d) => (true, learnPut (d.addLearned l 1, x.2) i (learnedEntry key l))

/-- A hardware write is held back while a command runs (R82). -/
def Dev.holdBack (d : Dev) (w : HwWrite) : Dev := { d with tab := { d.tab with waiting := d.tab.waiting ++ [w] } }

/-- Learning as a frame arrives: while a command runs, what would write the table is held back (R82, R96). -/
def learnAtFrame (l vid sa : Nat) (x : Dev × Mem) : Bool × Dev × Mem :=
  match x.1.tab.cmd, (x.1.learning l vid sa).1 with
  | some _, .hit _ => (true, x.1.holdBack (.learn l vid sa), x.2)
  | some _, .move _ => (true, x.1.holdBack (.learn l vid sa), x.2)
  | some _, .new => (true, x.1.holdBack (.learn l vid sa), x.2)
  | _, _ => learn l vid sa x

/-- One AGE_TIME has passed: learned entries of AGE 1 leave, the others age; `keep` names those a command wrote (R82, R96). -/
def Dev.ageTick (d : Dev) (keep : List Nat) : Dev :=
  if d.fld F.TBL_LEARN_CTL_AGE_TIME 0 = 0 then d
  else d.each ((d.entries 1).filter (fun x => !exStatic x.2 && !keep.contains (tblKey 1 x.1))) (fun d x =>
    if 1 ≤ exAge x.2 then (d.unlearn x.1).dropEnt 1 x.1 else d.setEnt 1 x.1 (setData x.2 3 7 0 1))

/-- A border port that went down loses its learned entries (R96). -/
def Dev.flushPort (d : Dev) (port : Nat) (keep : List Nat) : Dev :=
  let d := d.each ((d.entries 1).filter (fun x => !exStatic x.2 && exLane x.2 == port && !keep.contains (tblKey 1 x.1)))
    (fun d x => (d.unlearn x.1).dropEnt 1 x.1)
  { d with tab := { d.tab with flush := d.tab.flush.filter (· ≠ port) } }

/-! ## Border ingress (R95) -/

/-- What a frame's lookup gives. -/
inductive BorderTo where
  | miss
  | discard
  | port (lane : Nat)
  | fabric (ca : Nat) (remote : Option Nat)
  deriving DecidableEq, Repr

/-- A KIND or TKIND with its lane and target. -/
def borderKind (kind lane ca : Nat) : BorderTo :=
  match kind with
  | 0 => .port lane
  | 1 => .fabric ca none
  | _ => .fabric ca (some lane)

/-- The IP lookup of R95 over the IP partition. -/
def Dev.tcamIp (d : Dev) (dom : Nat) (f : List Byte) : BorderTo × Dev :=
  let (t, o) := frameType f
  let key := if t = 0x0800 then 2 * 2 ^ 158 + dom * 2 ^ 146 + bytesAt f (o + 16) 4 * 2 ^ 114
    else 3 * 2 ^ 158 + dom * 2 ^ 146 + bytesAt f (o + 24) 16 * 2 ^ 18
  match d.tcamFind key d.coordEnd (d.tblSize 0) with
  | (none, d) => (.miss, d)
  | (some e, d) => (if tcamAction e = 2 then .discard else borderKind (dataOf e 6 61 60) (dataOf e 6 41 32) (dataOf e 6 31 0), d)

/-- The exact-match lookup of R95. -/
def Dev.exactLook (d : Dev) (key : Nat) : BorderTo × Dev :=
  match d.exLook key with
  | (none, d) => (.miss, d)
  | (some (_, e), d) => (borderKind (exKind e) (exLane e) (exTarget e), d)

/-- The ETH_ENCAP of a frame that arrived on a border port, without its FCS (R51, R97). -/
def Dev.encapOf (d : Dev) (l tc : Nat) (mark : Bool) (f : List Byte) (dst : BitVec 32) (opx : Nat) : Pkt :=
  let n := f.length - 4
  let bs := f.take n
  let prod := d.fld F.PRT_BORDER_PROD l
  let len := lenFor (n + 4)
  let all := bytesOf 4 (l * 2 ^ 22 + n) ++ bs
  d.quotaMark
    { id := 0, hdr := setBits (mkHdr dst (d.ownFn 0) prod (d.fld F.GLB_PROD_GEN prod) 0x01 len tc) 28 27 (if mark then 2 else 0),
      rw := BitVec.ofNat 32 (17 * 2 ^ 24 + opx), vl := 5, vlIn := 5, pay := BitVec.ofNat 320 (bytesAt all 0 40),
      body := splitBody len (all.drop 40), inl := l }

/-- The border port has room at ingress for a packet: its lane's reserve, or its share of shared cells; without PFC a
frame that finds neither is dropped (R98). -/
def Dev.borderBuf (d : Dev) (l : Nat) (p : Pkt) : Option (Nat × Dev) :=
  match d.chargeSource (lvKey l 5) p with
  | some x => some x
  | none => if d.flag F.PRT_BORDER_PFC_EN l then some (d.chargeCommon p.cells p.prod) else none

/-- A frame is admitted to the Wardrobe as an ETH_ENCAP with `refs` copies, or dropped for want of ingress quota. -/
def Dev.borderAdmit (d : Dev) (l : Nat) (p : Pkt) (f : Nat → Dev → Dev) : Dev :=
  match d.borderBuf l p with
  | none => (d.countPort l C.BORDER_ING_DROP).countDrop p
  | some (b, d) => f b d

/-- A frame goes to the egress of a border port of this device. -/
def Dev.borderLocal (d : Dev) (l tc : Nat) (mark : Bool) (f : List Byte) (out : Nat) : Dev :=
  let p := d.encapOf l tc mark f (d.ownFn 0) (1024 + out)
  d.borderAdmit l p (fun b d => let (i, d) := d.addPkt { p with buf := b }; d.toBorder i out)

/-- A flood goes to every other border port of the same production; it is admitted at its ingress as any frame, and its
cells are stored once (R95, R98, R99). -/
def Dev.flood (d : Dev) (l tc : Nat) (mark : Bool) (f : List Byte) : Dev :=
  let prod := d.fld F.PRT_BORDER_PROD l
  let outs := ((List.range d.nLanes).filter (fun x => x != l && d.isBorderPort x && d.fld F.PRT_BORDER_PROD x == prod))
  let p := d.encapOf l tc mark f (d.ownFn 0) 1024
  let full := outs.filter (fun x => decide (4096 < d.borderCells x + p.cells))
  let ok := outs.filter (fun x => !decide (4096 < d.borderCells x + p.cells))
  if outs.isEmpty then d
  else d.borderAdmit l p fun b d =>
    let d := (d.each full (fun d x => (d.countPort x C.BORDER_EGR_DROP).countEv (16 + x) 5 1 p.ctx)).freeBuf b
    if ok.isEmpty then d
    else
      let (b, d) := d.chargeCommon p.cells prod
      let d := { d with net := { d.net with bufs := match d.net.bufs.find b with
        | some x => d.net.bufs.put b { x with refs := ok.length }
        | none => d.net.bufs } }
      d.each ok (fun d x => let (i, d) := d.addPkt { p with buf := b }; d.enqueue i x)

/-- A frame leaves for a fabric target (R97). -/
def Dev.encapsulate (d : Dev) (l tc : Nat) (mark : Bool) (f : List Byte) (ca : Nat) (remote : Option Nat) : Dev :=
  let p := d.encapOf l tc mark f (BitVec.ofNat 32 ca) (match remote with | some r => 1024 + r | none => 0)
  d.borderAdmit l p (fun b d => let (i, d) := d.addPkt { p with buf := b }; d.forward i)

/-- A good frame after learning: looked up, and sent where the lookup says (R95). -/
def Dev.borderLookup (d : Dev) (l vid tc : Nat) (mark : Bool) (f : List Byte) : Dev :=
  let prod := d.fld F.PRT_BORDER_PROD l
  let t := (frameType f).1
  let r := if frameDa f = d.fld F.PRT_BORDER_MAC_STEER_MAC l ∧ (t = 0x0800 ∨ t = 0x86DD) then d.tcamIp prod f
    else d.exactLook (exKey prod vid (frameDa f))
  let d := r.2
  match r.1 with
  | .miss =>
    if isGroup (frameDa f) ∨ d.flag F.PRT_BORDER_UNK_FLOOD l then d.flood l tc mark f else d.dropFrame l C.BORDER_UNK_DROP f
  | .discard => d.dropFrame l C.BORDER_ROUTE_DISCARD f
  | .port out =>
    if d.isBorderPort out then d.borderLocal l tc mark f out
    else (d.dropFrame l C.BORDER_NO_PORT f).notice N.BORDER_NO_PORT Src.core 0 0
  | .fabric ca remote => d.encapsulate l tc mark f ca remote

/-- Time of `n` pause quanta of 512 bit times at a border port's rate, in units of 2^-16 ns (IEEE 802.1Qbb, R94). -/
def Dev.quanta (d : Dev) (l n : Nat) : Nat := n * 16777216 / (100 * d.borderWidth l)

/-- A PFC frame: each priority it names is paused for its time from now, or resumed where that is 0 (R94). -/
def Dev.pfcFrame (d : Dev) (l : Nat) (f : List Byte) : Dev :=
  let ens := bytesAt f 17 1
  d.modLane l (fun x => { x with paused := (List.range 8).foldl (fun a p =>
    if ens / 2 ^ p % 2 = 1 then a.put p (d.tmu.total + d.quanta l (bytesAt f (18 + 2 * p) 2)) else a) x.paused })

/-- A MAC control frame: PAUSE is discarded and counted, PFC obeyed where PFC_EN is 1 (R94). -/
def Dev.macControl (d : Dev) (l : Nat) (f : List Byte) : Dev :=
  if bytesAt f 14 2 = 0x0101 ∧ d.flag F.PRT_BORDER_PFC_EN l then d.pfcFrame l f
  else if bytesAt f 14 2 = 0x0001 then d.dropFrame l C.PAUSE_DROP f
  else d.dropFrame l C.DISCARD_OTHER f

/-- A good frame at the border ingress (R95, R124): live generation, colour and policer, learning, lookup. -/
def borderIngress (l : Nat) (f : List Byte) (x : Dev × Mem) : Dev × Mem :=
  let d := x.1
  let vid := if frameTagged f then bytesAt f 14 2 % 4096 else d.fld F.PRT_BORDER_PVID l
  let pcp := if frameTagged f then bytesAt f 14 2 / 8192 else d.fld F.PRT_BORDER_DEF_PCP l
  let tc0 := d.fld F.PRT_BORDER_PCP_TC l / 8 ^ pcp % 8
  if d.fld F.GLB_PROD_STATE (d.fld F.PRT_BORDER_PROD l) ≠ 1 then (d.dropFrame l C.BORDER_NO_PROD f, x.2)
  else
    let (act, d) := d.police l 5 tc0 f.length
    if act = 2 then (d.dropFrame l C.POLICE_DROP f, x.2)
    else
      let (ok, d, m) := learnAtFrame l vid (frameSa f) (d, x.2)
      if ok then (d.borderLookup l vid (d.tcMap l tc0) (act = 1) f, m)
      else (d.countEv (16 + l) 5 1 (d.frameCtx l f), m)

/-- A frame on a border port, FCS included (R94). -/
def borderFrame (l : Nat) (f : List Byte) (x : Dev × Mem) : Dev × Mem :=
  let d := x.1
  if !d.borderUp l ∨ !d.tmu.refOk then x
  else if !frameGood f then (d.dropFrame l C.BORDER_BAD_FRAME f, x.2)
  else
    let d := d.frameIn l f
    if bytesAt f 12 2 = 0x8808 then (d.macControl l f, x.2)
    else
      let y := borderIngress l f (d, x.2)
      (y.1.settle.pfcAll, y.2)

/-- BORDER_FRAME_ARRIVAL (R95). -/
def execBorderFrameArrival (port : Nat) (frame : List Byte) (s : State) : Res :=
  ifUnit (decide (port < s.d.nLanes)) <| onBoth s (borderFrame port frame)

/-- BORDER_PFC_ARRIVAL (R94): a PFC frame meets the checks of every frame. -/
def execBorderPfcArrival (port : Nat) (frame : List Byte) (s : State) : Res :=
  ifUnit (decide (port < s.d.nLanes)) <| onDev s fun d =>
    if !d.borderUp port ∨ !d.tmu.refOk then d
    else if !frameGood frame then d.dropFrame port C.BORDER_BAD_FRAME frame
    else if bytesAt frame 12 2 = 0x8808 then (d.frameIn port frame).macControl port frame
    else d

/-! ## Configuration (R93) -/

/-- A write to PRT_BORDER fits: whole lanes of border type, in place, that no other border port takes (R93). -/
def Dev.borderFits (d : Dev) (l w : Nat) : Bool :=
  l % w == 0 && decide (l / 64 = (l + w - 1) / 64)
  && (List.range w).all (fun i => d.ltype (l + i) == 2 && (i == 0 || !d.isBorderPort (l + i)))
  && (match d.borderPortOf l with | some p => p == l | none => true)

/-- A write to PRT_BORDER (R93). -/
def Dev.wrBorder (d : Dev) (l : Nat) (w : Word) : Dev :=
  if fldOf F.PRT_BORDER_EN w = 1 ∧ !d.borderFits l (2 ^ fldOf F.PRT_BORDER_WIDTH w) then
    d.notice N.BORDER_CONFIG Src.core 0 (laneData l)
  else (if d.isBorderPort l ∧ fldOf F.PRT_BORDER_EN w = 0 then d.portLost l else d).plainWrite .PRT_BORDER l w

/-- PRT_BORDER_WRITE (R93). -/
def execPrtBorderWrite (m : Master) (port : Nat) (data : Word) (s : State) : Res :=
  ifUnit (decide (port < 1024)) <| onDev s fun d => d.regRow m .PRT_BORDER port data (fun d => d.wrBorder port data)

end Sys2Proof.Machine
end

