-- ==== Sys2Proof/Machine/Dead.lean ====
section
/-! DEFINITION. Dead targets and their timeline (R226, R227). Targets are compared on CA[31:8]. -/

namespace Sys2Proof.Machine

def Dev.setDeads (d : Dev) (l : List Dead) : Dev := { d with net := { d.net with deads := l } }

/-- Indices at which CA[31:8] stands in a group (R139). -/
def Dev.memberIndices (d : Dev) (m : Mem) (ens : Bool) (g ca : Nat) : List Nat :=
  if ens then
    let a := d.rd .TBL_ENS_A g; let b := d.rd .TBL_ENS_B g
    match ensIndex a b (ca * 256 + bitsOf a 11 4) with
    | some i => if d.flag F.TBL_ENS_A_VALID g then [i] else []
    | none => []
  else match d.ent 4 g with
    | none => []
    | some e => (List.range (castCount e)).filter (fun i => match d.castMember m e i with | some c => c / 256 == ca | none => false)

/-- Productions with something on this device that involves a target (R226). -/
def Dev.involved (d : Dev) (m : Mem) (ca : Nat) : List Nat :=
  let hit (x : BitVec 32) : Bool := bitsOf x 31 8 == ca
  let led := d.net.ledger.filterMap (fun l => if hit l.src || hit l.dst then some l.prod else none)
  let sw := (d.entries 3).filterMap (fun x => if swTarget x.2 / 256 = ca ∨ swOwner x.2 / 256 = ca then some (swProd x.2) else none)
  let bi := d.looms.flatMap (fun x => x.2.binds.filterMap (fun b =>
    if (d.memberIndices m b.ens b.group ca).isEmpty then none else some b.prod))
  let hd := d.net.pkts.filterMap (fun p => if p.isHeld && (hit p.src || hit p.dst) then some p.prod else none)
  (led ++ sw ++ bi ++ hd).dedup

/-- An end point is declared dead: it is marked for every production involved (R226). -/
def Dev.declareDead (d : Dev) (m : Mem) (ca : Nat) : Dev :=
  let new := (d.involved m ca).filter (fun q => !d.net.deads.any (fun x => x.ca == ca && x.prod == q))
  d.setDeads (d.net.deads ++ new.map (fun q => ⟨ca, q, 0, 0⟩))

/-- The end points whose lane has failed are declared dead (R226). -/
def Dev.declareDue (d : Dev) (m : Mem) : Dev :=
  let cas := d.net.endsDown
  ({ d with net := { d.net with endsDown := [] } }).each cas (fun d ca => d.declareDead m ca)

/-- A HEARTBEAT of the end point has counted within DEAD_LAPSE, on any lane to it (R226, R264). -/
def Dev.endHeard (d : Dev) (ca : Nat) : Bool :=
  (List.range d.nLanes).any (fun l => d.ltype l == 0 && d.peerCa l == ca
    && d.hbWithin l (max 5 (d.fld F.MEM_CTL_DEAD_LAPSE 0) * 10000 * 65536))

/-- DEAD_LAPSE_EXPIRY (R226): no HEARTBEAT for DEAD_LAPSE on an endpoint-facing lane. -/
def execDeadLapseExpiry (lane : Nat) (s : State) : Res :=
  ifUnit (decide (lane < s.d.nLanes)) <| onDevM s fun m d =>
    let d := d.declareDue m
    if d.ltype lane = 0 ∧ d.peerCa lane ≠ 0 ∧ !d.endHeard (d.peerCa lane) then d.declareDead m (d.peerCa lane) else d

/-- LOS_DETECT (R226, R265, R304): received signal lost. -/
def execLosDetect (lane : Nat) (s : State) : Res :=
  ifUnit (decide (lane < s.d.nLanes)) <| onDevM s fun m d => (d.los lane).settle.declareDue m

/-- LOCK_LOSS (R226, R265): clock recovery or FEC alignment lost. -/
def execLockLoss (lane : Nat) (s : State) : Res :=
  ifUnit (decide (lane < s.d.nLanes)) <| onDevM s fun m d => (d.lockLost lane).settle.declareDue m

/-- HEAD_FLIT_ARRIVAL (R62, R226): a credit overrun fails the lane. -/
def execHeadFlitArrival (lane : Nat) (flit : Flit) (s : State) : Res :=
  ifUnit (decide (lane < s.d.nLanes)) <| onDevM s fun m d =>
    d.when (d.linkRuns lane && fcwType flit == 1) (fun d => (d.headArrival lane flit).settle.declareDue m)

/-- Productions for which a target stands at a step of the timeline. -/
def Dev.deadAt (d : Dev) (ca phase : Nat) : List Nat :=
  d.net.deads.filterMap (fun x => if x.ca = ca ∧ x.phase = phase then some x.prod else none)

/-- The timeline goes one step on for a target. -/
def Dev.deadStep (d : Dev) (ca phase : Nat) : Dev :=
  d.setDeads (d.net.deads.map (fun x => if x.ca = ca ∧ x.phase = phase then { x with phase := phase + 1 } else x))

/-- DEAD_TARGET_REFUSE (R226): requests for the target complete with POISON from now on, held ones too, and the swatch
entries that target it go DEAD. -/
def deadTargetRefuseMade (ca : BitVec 32) (s : State) : Res :=
  onDev s fun d =>
    let c := bitsOf ca 31 8
    let ps := d.deadAt c 0
    let d := d.deadStep c 0
    let d := d.each ((d.entries 3).filter (fun x => ps.contains (swProd x.2) && swTarget x.2 / 256 == c)) (fun d x =>
      d.setEnt 3 x.1 (setData x.2 4 32 31 2))
    let d := d.each (d.net.ctxs.filter (fun x => x.vl == 1 && bitsOf x.dst 31 8 == c)) (fun d x => d.runCtx x.ckey)
    d.rsqRetry

/-- DEAD_TARGET_REFUSE: what it makes is then routed. -/
def execDeadTargetRefuse (ca : BitVec 32) (s : State) : Res := sendOut (deadTargetRefuseMade ca s)

/-- A request in the ledger completes with a status to its source. -/
def Dev.completeLed (d : Dev) (l : Led) (st : Nat) : Dev :=
  let a : Pkt := { id := 0, hdr := mkHdr l.src l.dst l.prod l.gen 0x21 0 l.tc, rw := BitVec.ofNat 32 (st * 2 ^ 20 + 12), vl := 2,
                   pay := mkPay [(4, 2, l.tag), (8, 8, l.addr)], inl := 1024, own := true }
  ((((d.ledgerDrop l).raiseErr l.src l.dst st l.writing).send a).countEv 3 10 1 l.ctx)

/-- DEAD_TARGET_LEDGER (R226): the target's ledger entries complete with POISON. -/
def deadTargetLedgerMade (ca : BitVec 32) (s : State) : Res :=
  onDev s fun d =>
    let c := bitsOf ca 31 8
    let ps := d.deadAt c 1
    let ls := d.net.ledger.filter (fun l => bitsOf l.dst 31 8 == c && ps.contains l.prod)
    let d := d.deadStep c 1
    let d := d.each ls (fun d l => (d.countPoison l.dst l.prod).completeLed l St.POISON)
    d.each ls (fun d l => d.retryFlow l.src l.dst)

/-- DEAD_TARGET_LEDGER: what it makes is then routed. -/
def execDeadTargetLedger (ca : BitVec 32) (s : State) : Res := sendOut (deadTargetLedgerMade ca s)

/-- TEARDOWN (R226): one notice per affected production. -/
def execTeardown (ca : BitVec 32) (s : State) : Res :=
  onDev s fun d =>
    let c := bitsOf ca 31 8
    let xs := d.net.deads.filter (fun x => x.ca == c && x.phase == 2)
    (d.deadStep c 2).each xs (fun d x => d.notice N.TEARDOWN Src.memory x.prod (ca.toNat * 2 ^ 32 + x.poisoned))

end Sys2Proof.Machine
end

