-- ==== Sys2Proof/Machine/Coll.lean ====
section
/-! DEFINITION. Collectives at a Loom's entry (R141 to R153, R200, R201): checks, tiles, all-to-all, barriers, poison. -/

namespace Sys2Proof.Machine

/-! ## Op descriptors (R185) -/

def dAword (e : BitVec 512) : AWord := BitVec.ofNat 32 (dataOf e 0 63 32)
def dKind (e : BitVec 512) : Nat := dataOf e 0 31 28
def dExpect (e : BitVec 512) : Nat := dataOf e 0 27 26
def dRecip (e : BitVec 512) : Nat := dataOf e 0 25 24
def dPad (e : BitVec 512) : Bool := dataOf e 0 23 23 == 1
def dRoot (e : BitVec 512) : Nat := dataOf e 1 63 46
def dK (e : BitVec 512) : Nat := dataOf e 1 45 28
def dLen (e : BitVec 512) : Nat := dataOf e 1 27 18 + 1
def dTpm (e : BitVec 512) : Nat := dataOf e 1 17 0
def dCap (e : BitVec 512) : Nat := dataOf e 2 63 48
def dRowBytes (e : BitVec 512) : Nat := 64 * (dataOf e 2 47 40 + 1)
def dRec0 (e : BitVec 512) : Nat := dataOf e 2 39 22
def dRec1 (e : BitVec 512) : Nat := dataOf e 2 21 4
def dTiles (e : BitVec 512) : Nat := dataOf e 3 63 32
def dCoef (e : BitVec 512) : Nat := dataOf e 3 31 0

/-- Member i is expected for tile t. -/
def expects (e : BitVec 512) (t i : Nat) : Bool :=
  match dExpect e with
  | 0 => true
  | 1 => i == dRoot e
  | 2 => i == t / max 1 (dTpm e)
  | _ => decide (i < dK e)

/-- Expected members of a tile, in member order. -/
def expectedOf (e : BitVec 512) (count t : Nat) : List Nat := (List.range count).filter (fun i => expects e t i)

/-- Recipients of a tile's result, with the coefficient row of each. -/
def recipients (e : BitVec 512) (count t : Nat) : List (Nat × Nat) :=
  match dRecip e with
  | 0 => (List.range count).map (fun i => (i, 0))
  | 1 => [(dRoot e, 0)]
  | 2 => [(t / max 1 (dTpm e), 0)]
  | _ => [(dRec0 e, 0), (dRec1 e, 1)]

/-! ## Tiles -/

/-- Chunks of a tile of `len` 64-byte units (R144). -/
def chunkCount (len : Nat) : Nat := ceilDiv len 64
/-- Bytes of chunk c. -/
def chunkBytes (len c : Nat) : Nat := min 4096 (64 * len - 4096 * c)

def Area.has (a : Area) (i c : Nat) : Bool := a.ins.any (fun x => x.1 == i && x.2.1 == c)
/-- Member i has delivered every chunk. -/
def Area.memberDone (a : Area) (i : Nat) : Bool := (List.range (chunkCount a.len)).all (fun c => a.has i c)
/-- Every expected member has delivered every chunk (R146). -/
def Area.complete (a : Area) (e : BitVec 512) (count : Nat) : Bool := (expectedOf e count a.tile).all (fun i => a.memberDone i)
def Area.chunk (a : Area) (i c : Nat) : Option (List Byte) := (a.ins.find? (fun x => x.1 == i && x.2.1 == c)).map (·.2.2)
/-- The whole tile of a member. -/
def Area.tileOf (a : Area) (i : Nat) : List Byte := (List.range (chunkCount a.len)).flatMap (fun c => (a.chunk i c).getD [])

/-- Two reductions one after the other. -/
def Reduced.append : Reduced → Reduced → Reduced
  | .vals a, .vals b => .vals (a ++ b)
  | .bytes a, .bytes b => .bytes (a ++ b)
  | .vals [], r => r
  | .bytes [], r => r
  | r, _ => r

/-- The reduction of an area over members in order, chunk by chunk, or tile by tile for MX blocks (R160 to R173). -/
def Area.reduce (a : Area) (members : List Nat) (coef : List Nat) : Reduced :=
  let w := a.word
  if isMx (AWord.fmt w) then
    let done := members.filter (fun i => a.memberDone i)
    let late := (a.ins.map (·.1)).dedup.filter (fun i => done.contains i)
    reduceBytes w (64 * a.len) (done.map a.tileOf) (late.map a.tileOf) coef
  else
    (List.range (chunkCount a.len)).foldl (fun r c =>
      r.append (reduceBytes w (chunkBytes a.len c) (members.filterMap (fun i => a.chunk i c))
        (a.ins.filterMap (fun x => if x.2.1 = c then some x.2.2 else none)) coef)) (.bytes [])

/-- Readout of a reduction into a format, with the tile's identity for stochastic rounding (R163 to R168). -/
def readout (r : Reduced) (fmt rnd ens group opseq tile : Nat) : List Byte × Nat :=
  match r with
  | .bytes b => (b, 0)
  | .vals l => encodeTile fmt rnd (stochR ens group opseq tile) l

/-- Bytes of a tile of N elements in a format. -/
def fmtBytes (f n : Nat) : Nat := n * elemBits f / 8 + (if isMx f then n / 32 else 0)

/-! ## Tile SRAM -/

/-- Key of a byte of an image's allocation: allocations start at their production's base, and those of one set stand apart
(R175, R199). -/
def tileKey (i : Image) (a : Nat) : Nat := (i.prod * 256 + i.bank) * 2 ^ 28 + a
/-- A list of ranges without the part from `a` to `a + n`. -/
def cutRanges (l : List (Nat × Nat)) (a n : Nat) : List (Nat × Nat) :=
  l.flatMap (fun r => [(r.1, min (r.1 + r.2) a - r.1), (max r.1 (a + n), r.1 + r.2 - max r.1 (a + n))].filter (fun x => x.2 ≠ 0))

/-- Reads tile SRAM. Bytes of an accumulation have a layout the spec does not give: free values. -/
def Dev.tileRead (d : Dev) (k : Nat) (i : Image) (a n : Nat) : List Byte × Dev :=
  let x := d.loom k
  let at_ := tileKey i a
  if x.junk.any (fun r => decide (r.1 < at_ + n ∧ at_ < r.1 + r.2)) then
    let (v, d) := d.freeNat
    ((List.range n).map (fun j =>
      if x.junk.any (fun r => decide (r.1 ≤ at_ + j ∧ at_ + j < r.1 + r.2)) then BitVec.ofNat 8 (v / 256 ^ j)
      else x.tile.get 0 (at_ + j)), d)
  else ((List.range n).map (fun j => x.tile.get 0 (at_ + j)), d)

/-- Writes tile SRAM. -/
def Dev.tileWrite (d : Dev) (k : Nat) (i : Image) (a : Nat) (bs : List Byte) : Dev :=
  d.modLoom k (fun x => { x with
    tile := (bs.zipIdx.foldl (fun m b => m.putD 0 (tileKey i (a + b.2)) b.1) x.tile)
    junk := cutRanges x.junk (tileKey i a) bs.length })

/-- A range of tile SRAM becomes the storage of an accumulation. -/
def Dev.tileJunk (d : Dev) (k : Nat) (i : Image) (a n : Nat) : Dev :=
  d.modLoom k (fun x => { x with junk := cutRanges x.junk (tileKey i a) n ++ [(tileKey i a, n)] })

/-- Elements of a tile of `len` 64-byte units: records for ARGMAX (R171, R184). -/
def accCount (a : AWord) (len : Nat) : Nat := if AWord.op a = 4 then 8 * len else (tileElems (AWord.fmt a) (64 * len)).getD 0

/-- Storage bytes of a tile of N elements with n expected members (R184). -/
def storageBytes (a : AWord) (n members : Nat) : Nat :=
  let f := AWord.fmt a
  match AWord.op a with
  | 1 =>
    if isInt f then 20 * n
    else match AWord.mode a with
      | 0 => if isWide f then 40 * n else 20 * n
      | 1 => ceilDiv members 2 * (if f = 0 then 8 else 4) * n
      | _ => if f = 0 then 8 * n else 4 * n
  | 4 => 8 * n
  | 8 => 2 * n
  | _ => if isMx f then 2 * n else n * (elemBits f / 8)

/-- Bytes of a result tile in a format (R159, R185). -/
def resultBytes (a : AWord) (len f : Nat) : Nat := if AWord.op a = 1 then fmtBytes f (accCount a len) else 64 * len

/-- A slot's or area's 64-byte header (R184). -/
def areaHeader (a : Area) (done : Nat) : List Byte :=
  bytesOf 8 (bit a.poison * 2 ^ 60 + a.opseq % 65536 * 2 ^ 44 + a.tile % 2 ^ 32 * 2 ^ 12 + (a.len - 1) % 1024 * 4)
    ++ bytesOf 8 (a.word.toNat * 2 ^ 32 + done % 2 ^ 18 * 2 ^ 14) ++ List.replicate 48 0

/-- Address of tile t's slot in a channel's ring (R184). -/
def slotAddr (c : Chan) (t : Nat) : Nat := c.accBase + t % (c.wm1 + 1) * c.slot

/-- The header of an open tile is written to its slot. -/
def Dev.writeHeader (d : Dev) (k : Nat) (i : Image) (c : Chan) (a : Area) : Dev :=
  d.tileWrite k i (slotAddr c a.tile) (areaHeader a ((a.ins.map (·.1)).dedup.countP (fun i => a.memberDone i)))

/-! ## Packets of collectives (R143) -/

def Pkt.cEns (p : Pkt) : Bool := p.at 4 2 / 2 ^ 15 == 1
def Pkt.cGroup (p : Pkt) : Nat := p.at 4 2 % 2 ^ 14
def Pkt.cSeq (p : Pkt) : Nat := p.at 6 2
def Pkt.cMember (p : Pkt) : Nat := p.at 8 4 / 2 ^ 14
def Pkt.cLow (p : Pkt) : Nat := p.at 8 4 % 2 ^ 14
def Pkt.cWord (p : Pkt) : Nat := p.at 12 4
/-- Data bytes: 28 + 60 × LEN − PAD. -/
def Pkt.cLen (p : Pkt) : Nat := 28 + 60 * p.len - bitsOf p.rw 5 0
def Pkt.cData (p : Pkt) : List Byte := p.bytesFrom 16 p.cLen

/-- A collective packet that Loom k makes. -/
def Dev.collPkt (d : Dev) (k dst prod gen opc vl status : Nat) (ens : Bool) (group opseq member low w12 : Nat) (data : List Byte) : Pkt :=
  let n := data.length
  let len := ceilDiv (n - 28) 60
  { id := 0, hdr := mkHdr (BitVec.ofNat 32 dst) (d.ownFn (0x10 + k)) prod gen opc len (Config.loomTc % 8),
    rw := BitVec.ofNat 32 (status * 2 ^ 20 + (28 + 60 * len - n)), vl := vl,
    pay := mkPay [(4, 2, bit ens * 2 ^ 15 + group), (6, 2, opseq), (8, 4, member % 2 ^ 18 * 2 ^ 14 + low % 2 ^ 14), (12, 4, w12),
      (16, 28, bytesAt data 0 28)],
    body := splitBody len (data.drop 28), inl := 1026 + k }

/-- Cells of a collective packet with `n` data bytes (R99, R143). -/
def collCells (n : Nat) : Nat := ceilDiv (1 + ceilDiv (n - 28) 60) 4

/-- Sends copies of one packet to members; its cells are charged once, to the collective pool, within the reservation made
at admission (R102, R115, R146). -/
def Dev.sendShared (d : Dev) (m : Mem) (ens : Bool) (g : Nat) (to_ : List Nat) (mk : Nat → Nat → Pkt) : Dev :=
  let d := d.meetCast ens g
  let d := d.each to_ (fun d i => d.readMember ens g i)
  let ps := to_.filterMap (fun i => (d.groupCa m ens g i).map (fun ca => mk ca i))
  match ps with
  | [] => d
  | p :: _ =>
    let (b, d) := d.addBuf ⟨lvKey p.inl p.vl, .collDue, p.cells, some p.prod, false, ps.length⟩
    { d with net := { d.net with outbox := d.net.outbox ++ ps.map (fun p => { p with buf := b }) } }

/-! ## Entry checks (R145) -/

/-- DATA of COLL_REFUSED and COLL_SHAPE (R348). -/
def collData (p : Pkt) (reason : Nat) : Nat :=
  bit p.cEns * 2 ^ 63 + p.cGroup * 2 ^ 48 + reason * 2 ^ 40 + p.cMember * 2 ^ 22 + p.cSeq

/-- Key of a binding for notices raised at most once per millisecond. -/
def bindKey (k prod : Nat) (ens : Bool) (g : Nat) : Nat := ((k * 4096 + prod) * 2 + bit ens) * 16384 + g

/-- The packet of a command at Loom entry: at FN 0x10 + k, whole, with the opcode. -/
def Dev.atLoom (d : Dev) (pid opc : Nat) : Option (Nat × Pkt) :=
  match d.pkt pid with
  | none => none
  | some p =>
    match p.place with
    | .atFn fn => if 0x10 ≤ fn ∧ fn ≤ 0x13 ∧ p.opc = opc ∧ p.whole then some (fn - 0x10, p) else none
    | _ => none

/-- The binding and channel of a direction that accept a packet (R141, R202). -/
def Dev.accepts (d : Dev) (k : Nat) (p : Pkt) (dir : Nat) : Option (Image × Bind × Chan) :=
  match d.bindImage k p.prod p.cEns p.cGroup, d.bind k p.prod p.cEns p.cGroup with
  | some (_, i), some b =>
    match i.dirOf p.cEns p.cGroup dir with
    | some c =>
      let x := d.loom k
      let closing := x.closed.contains p.prod && (match x.ldr with
        | some j => fldOf F.CUE_LDR_CMD_OP j.cmd == 4 || !(x.images.any (fun y => y.2.prod == p.prod
            && y.2.set == fldOf F.CUE_LDR_CMD_SET j.cmd && y.2.binds p.cEns p.cGroup))
        | none => false)
      let mine := p.cEns || (match d.ent 4 p.cGroup with | some e => castProd e == p.prod | none => false)
      if d.groupValid p.cEns p.cGroup && d.groupLoom p.cEns p.cGroup k && !closing && mine then some (i, b, c) else none
    | none => none
  | _, _ => none

/-- A refused packet: SEND.STATUS for a contribution, on the Prompter's reserve (R101); discard for ARRIVE. -/
def Dev.refuseColl (d : Dev) (p : Pkt) (status reason : Nat) : Dev :=
  let d := if p.opc = 0x32 then d else d.send (answerContrib p status reason 0 0)
  d.endPkt p.id

/-- REASON 1, 2 or 5: DENIED, with COLL_REFUSED. -/
def Dev.refuseDenied (d : Dev) (k : Nat) (p : Pkt) (reason : Nat) : Dev :=
  ((d.countLoom k C.COLL_REFUSED 1).noticeLim N.COLL_REFUSED (Src.die (loomSite k)) p.prod (collData p reason)
    (bindKey k p.prod p.cEns p.cGroup)).refuseColl p St.DENIED reason

/-- REASON 4: UNSUPPORTED, with COLL_SHAPE. -/
def Dev.refuseShape (d : Dev) (k : Nat) (p : Pkt) : Dev :=
  (d.noticeLim N.COLL_SHAPE (Src.die (loomSite k)) p.prod (collData p 4) (bindKey k p.prod p.cEns p.cGroup)).refuseColl p St.UNSUPPORTED 4

/-- REASON 3: outside the window of op CUR. -/
def Dev.refuseWindow (d : Dev) (k : Nat) (p : Pkt) (cur : Nat) : Dev :=
  (d.countLoom k (if newer cur p.cSeq 16 then C.COLL_LATE else C.COLL_EARLY) 1).refuseColl p St.DENIED 3

/-- The sender is the member it names. -/
def Dev.memberIs (d : Dev) (m : Mem) (p : Pkt) : Bool :=
  match d.groupCa m p.cEns p.cGroup p.cMember with
  | some ca => ca == p.src.toNat
  | none => false

/-- The first three checks of R145; what passes goes to `f` with the image, binding, DOWN-IN channel and descriptor. -/
def Dev.collEntry (d : Dev) (m : Mem) (k : Nat) (p : Pkt) (f : Image → Bind → Chan → BitVec 512 → Dev) : Dev :=
  let d := d.meetCast p.cEns p.cGroup
  match d.accepts k p 0 with
  | none => d.refuseDenied k p 1
  | some (i, b, c) =>
    let cur := b.cur == p.cSeq
    let exp := match b.desc with
      | some e => !cur || expects e (if p.opc = 0x30 then p.cWord else 0) p.cMember
      | none => true
    if !d.memberIs m p || !exp then d.refuseDenied k p 2
    else match b.desc with
      | none => d.refuseWindow k p b.cur
      | some e => if cur then f i b c e else d.refuseWindow k p b.cur

/-! ## CONTRIB (R144 to R147) -/

/-- The shape of a CONTRIB fits R144, the op, and the tile (R145). -/
def contribShape (b : Bind) (e : BitVec 512) (p : Pkt) : Bool :=
  let len := p.cLow % 1024 + 1
  let c := p.cLow / 1024
  dKind e == 0 && decide (len ≤ dLen e) && (tileElems (AWord.fmt (dAword e)) (64 * len)).isSome
  && (match b.tiles.find? (fun a => a.tile == p.cWord) with | some a => a.len == len | none => true)
  && decide (4096 * c < 64 * len) && p.cLen == chunkBytes len c

/-- Members that an op expects for a tile (R184, R185). -/
def opMembers (e : BitVec 512) (count : Nat) : Nat := match dExpect e with | 0 => count | 3 => dK e | _ => 1

/-- MX blocks of a whole tile outside the window are counted as it is added (R162). -/
def Dev.countMxTile (d : Dev) (k : Nat) (a : Area) (bs : List Byte) : Dev :=
  let w := a.word
  if isMx (AWord.fmt w) ∧ AWord.op w = 1 ∧ AWord.mode w = 0 then
    let (u, o) := mxOut (AWord.fmt w) (AWord.xlo w) bs ((tileElems (AWord.fmt w) (64 * a.len)).getD 0)
    (d.countLoom k C.MX_UNDER u).countLoom k C.MX_OVER o
  else d

/-- The same for a member's tile, once the whole of it is there. -/
def Dev.countMx (d : Dev) (k : Nat) (a : Area) (i : Nat) : Dev :=
  if a.memberDone i then d.countMxTile k a (a.tileOf i) else d

/-- An accepted chunk is reduced into its tile's slot. -/
def Dev.takeChunk (d : Dev) (k : Nat) (p : Pkt) (i : Image) (b : Bind) (c : Chan) (e : BitVec 512) : Dev :=
  let t := p.cWord
  let ch := p.cLow / 1024
  let a0 : Area := (b.tiles.find? (fun a => a.tile == t)).getD
    { word := dAword e, opseq := b.cur, tile := t, len := p.cLow % 1024 + 1, poison := !b.dead.isEmpty, openAt := d.tmu.total,
      size := storageBytes (dAword e) (accCount (dAword e) (p.cLow % 1024 + 1)) (opMembers e (d.groupCount b.ens b.group)) }
  let a := { a0 with ins := a0.ins ++ [(p.cMember, ch, p.cData)] }
  let tiles := (b.tiles.filter (fun x => x.tile ≠ t)) ++ [a]
  let d := d.modBind k p.prod p.cEns p.cGroup (fun b => { b with tiles := tiles })
  let plain := AWord.op a.word = 0 ∧ !isMx (AWord.fmt a.word)
  let d := if a0.ins.isEmpty ∧ !plain then
    d.tileJunk k i (slotAddr c t + 64) a.size else d
  let d := d.writeHeader k i c a
  let d := if AWord.op a.word = 0 ∧ !isMx (AWord.fmt a.word) then
    d.tileWrite k i (slotAddr c t + 64 + 4096 * ch) p.cData else d
  let d := (d.countLoom k C.CONTRIB_64B (ceilDiv p.cLen 64)).countEv (1056 + k) 16 (ceilDiv p.cLen 64) p.ctx
  (d.countMx k a p.cMember).endPkt p.id

/-- CONTRIB (R145). -/
def contribMade (pid : Nat) (s : State) : Res :=
  onDevM s fun m d => d.whenSome (d.atLoom pid 0x30) fun (k, p) d =>
    (d.collEntry m k p fun i b c e =>
      let t := p.cWord
      let isOpen := b.tiles.find? (fun a => a.tile == t)
      let w := c.wm1 + 1
      if !contribShape b e p then d.refuseShape k p
      else if b.closed.contains t || (match isOpen with | some a => a.has p.cMember (p.cLow / 1024) | none => false) then
        (d.countLoom k C.COLL_DUP 1).endPkt p.id
      else if isOpen.isNone ∧ (w ≤ b.tiles.length ∨ b.tiles.any (fun a => decide (t + w ≤ a.tile ∨ a.tile + w ≤ t))) then
        d.refuseDenied k p 5
      else d.takeChunk k p i b c e)

/-- CONTRIB: what it makes is then routed. -/
def execContrib (pid : Nat) (s : State) : Res := sendOut (contribMade pid s)

/-! ## All-to-all (R149, R150) -/

def Pkt.aPeer (p : Pkt) : Nat := p.cWord / 2 ^ 14
def Pkt.aSeg (p : Pkt) : Nat := p.cWord / 2 ^ 12 % 4

/-- Segments of a row. -/
def rowSegs (e : BitVec 512) : Nat := ceilDiv (dRowBytes e) 4096

/-- The rows of an A2A.ROWS fit R149. -/
def rowsShape (e : BitVec 512) (count : Nat) (p : Pkt) : Bool :=
  let rb := dRowBytes e
  dKind e == 2 && decide (p.aPeer < count) && 64 * (p.cWord / 16 % 256 + 1) == rb
  && (if rb ≤ 4096 then p.aSeg == 0 && decide (0 < p.cLen) && p.cLen % rb == 0 && decide (p.cLow + p.cLen / rb ≤ 2 ^ 14)
      else decide (p.aSeg < rowSegs e) && p.cLen == min 4096 (rb - 4096 * p.aSeg))

/-- Rows that an A2A.ROWS carries. -/
def rowsOf (e : BitVec 512) (p : Pkt) : List Nat :=
  if dRowBytes e ≤ 4096 then (List.range (p.cLen / dRowBytes e)).map (p.cLow + ·) else [p.cLow]

def Bind.row (b : Bind) (src dst row : Nat) : Option A2aRow := b.rows.find? (fun r => r.src == src && r.dst == dst && r.row == row)
/-- A row or segment already received from the member. -/
def Bind.rowDup (b : Bind) (e : BitVec 512) (p : Pkt) : Bool :=
  (rowsOf e p).any (fun r => match b.row p.cMember p.aPeer r with | some x => x.segs.contains p.aSeg | none => false)

/-- The rows of a packet are entered. -/
def Bind.addRows (b : Bind) (src dst seg : Nat) (rs : List Nat) : Bind :=
  rs.foldl (fun b r =>
    match b.row src dst r with
    | some _ => { b with rows := b.rows.map (fun x => if x.src = src ∧ x.dst = dst ∧ x.row = r then { x with segs := x.segs ++ [seg] } else x) }
    | none => { b with rows := b.rows ++ [⟨src, dst, r, [seg]⟩] }) b

/-- A2A.DELIVER packets draw on the collective pool. -/
def Dev.sendDeliver (d : Dev) (m : Mem) (k gen : Nat) (b : Bind) (e : BitVec 512) (src dst row seg : Nat) (padded : Bool) (data : List Byte) : Dev :=
  d.sendShared m b.ens b.group [dst] (fun ca i =>
    d.collPkt k ca b.prod gen 0x41 4 St.OK b.ens b.group b.cur i row
      (src * 2 ^ 14 + seg * 2 ^ 12 + (dRowBytes e / 64 - 1) * 16 + bit padded) data)

/-- A2A_ROWS (R150). -/
def a2aRowsMade (pid : Nat) (s : State) : Res :=
  onDevM s fun m d => d.whenSome (d.atLoom pid 0x31) fun (k, p) d =>
    (d.collEntry m k p fun i b _ e =>
      if !rowsShape e (d.groupCount b.ens b.group) p then d.refuseShape k p
      else if b.rowDup e p then (d.countLoom k C.COLL_DUP 1).endPkt p.id
      else
        let rs := rowsOf e p
        let d := d.modBind k b.prod b.ens b.group (fun b => b.addRows p.cMember p.aPeer p.aSeg rs)
        let d := (d.countLoom k C.CONTRIB_64B (ceilDiv p.cLen 64)).countEv (1056 + k) 16 (ceilDiv p.cLen 64) p.ctx
        let good := rs.filter (fun r => decide (r < dCap e))
        let data := if dRowBytes e ≤ 4096 then p.cData.take (good.length * dRowBytes e) else p.cData
        let d := if good.isEmpty then d else d.sendDeliver m k i.gen b e p.cMember p.aPeer p.cLow p.aSeg false data
        d.endPkt p.id)

/-- A2A_ROWS: what it makes is then routed. -/
def execA2aRows (pid : Nat) (s : State) : Res := sendOut (a2aRowsMade pid s)

/-- Rows of a source that have wholly arrived. -/
def Bind.rowsFrom (b : Bind) (e : BitVec 512) (src : Nat) : List A2aRow :=
  b.rows.filter (fun r => r.src == src && r.segs.length == rowSegs e)

/-- Every expected source is done: it has sent ARRIVE, and its rows are all in (R150). -/
def Bind.a2aDone (b : Bind) (e : BitVec 512) (count : Nat) : Bool :=
  (expectedOf e count 0).all (fun i => match b.arrived.find? (fun x => x.1 == i) with
    | some x => (b.rowsFrom e i).length == x.2
    | none => false)

/-- The end of an all-to-all: padding, SEND.STATUS for dropped rows, RELEASE to each destination (R150). -/
def Dev.a2aFinish (d : Dev) (m : Mem) (k gen : Nat) (b : Bind) (e : BitVec 512) : Dev :=
  let count := d.groupCount b.ens b.group
  let srcs := expectedOf e count 0
  let dsts := (recipients e count 0).map (·.1)
  let got (i j : Nat) : List Nat := ((b.rowsFrom e i).filter (fun r => r.dst == j && decide (r.row < dCap e))).map (·.row)
  let d := if dPad e then
      d.each dsts (fun d j => d.each srcs (fun d i =>
        d.each ((List.range (dCap e)).filter (fun r => !(got i j).contains r)) (fun d r =>
          d.each (List.range (rowSegs e)) (fun d s =>
            d.sendDeliver m k gen b e i j r s true (List.replicate (min 4096 (dRowBytes e - 4096 * s)) 0)))))
    else d
  let d := d.each srcs (fun d i =>
    let n := (b.rowsFrom e i).countP (fun r => decide (dCap e ≤ r.row))
    if n = 0 then d
    else d.sendShared m b.ens b.group [i] (fun ca i =>
      d.collPkt k ca b.prod gen 0x43 4 St.CAPACITY_DROP b.ens b.group b.cur i 0 0 (bytesOf 4 n)))
  d.each dsts (fun d j =>
    let rows := if dPad e then srcs.length * dCap e else (srcs.map (fun i => (got i j).length)).sum
    d.sendShared m b.ens b.group [j] (fun ca i => d.collPkt k ca b.prod gen 0x42 4 St.OK b.ens b.group b.cur i (2 * 2 ^ 12) rows []))

/-- ARRIVE (R148, R149). -/
def execArrive (pid : Nat) (s : State) : Res :=
  onDevM s fun m d => d.whenSome (d.atLoom pid 0x32) fun (k, p) d =>
    (d.collEntry m k p fun _ b _ _ =>
      if b.arrived.any (fun x => x.1 == p.cMember) then (d.countLoom k C.COLL_DUP 1).endPkt p.id
      else (d.modBind k b.prod b.ens b.group (fun b => { b with arrived := b.arrived ++ [(p.cMember, p.cWord)] })).endPkt p.id).settle

/-! ## From the stage above (R147, R148, R201) -/

/-- A packet from above that nothing takes. -/
def Dev.dropUp (d : Dev) (p : Pkt) : Dev := (d.discardOther p).endPkt p.id

/-- RESULT (R201): a chunk of the upper stage's result goes into the UP-IN slot. -/
def execResult (pid : Nat) (s : State) : Res :=
  onDev s fun d => d.whenSome (d.atLoom pid 0x40) fun (k, p) d =>
    let d := d.meetCast p.cEns p.cGroup
    match d.accepts k p 3 with
    | none => d.dropUp p
    | some (i, b, c) =>
      let t := p.cWord
      if b.cur ≠ p.cSeq then d.dropUp p
      else
        let a0 : Area := (b.up.find? (fun a => a.tile == t)).getD
          { word := (b.desc.map dAword).getD 0, opseq := b.cur, tile := t, len := p.cLow % 1024 + 1, openAt := d.tmu.total,
            size := 64 * (p.cLow % 1024 + 1) }
        let bad := p.status = St.POISON
        let a := if bad then { a0 with poison := true }
          else if a0.has 0 (p.cLow / 1024) then a0 else { a0 with ins := a0.ins ++ [(0, p.cLow / 1024, p.cData)] }
        let d := d.modBind k b.prod b.ens b.group (fun b =>
          { b with up := (b.up.filter (fun x => x.tile ≠ t)) ++ [a],
                   sent := if a.poison || a.memberDone 0 then b.sent.filter (fun x => x.1 ≠ t) else b.sent })
        let d := d.writeHeader k i c a
        let d := if bad then d else d.tileWrite k i (slotAddr c t + 64 + 4096 * (p.cLow / 1024)) p.cData
        d.endPkt p.id

/-- RELEASE (R147, R148): KIND 0 completes a SYNC AWAIT; KIND 1 says that the upper stage has completed a tile. -/
def execRelease (pid : Nat) (s : State) : Res :=
  onDev s fun d => d.whenSome (d.atLoom pid 0x42) fun (k, p) d =>
    let d := d.meetCast p.cEns p.cGroup
    match (d.accepts k p 3).orElse (fun _ => d.accepts k p 2) with
    | none => d.dropUp p
    | some (_, b, _) =>
      if b.cur ≠ p.cSeq then d.dropUp p
      else
        let kind := p.cLow / 2 ^ 12
        (d.modBind k b.prod b.ens b.group (fun b =>
          if kind = 0 then { b with upRelease := true }
          else if kind = 1 then { b with sent := b.sent.filter (fun x => x.1 ≠ p.cWord) }
          else b)).endPkt p.id

/-- A chunk goes up to the upper stage, under the stage's member index (R142). -/
def Dev.sendUp (d : Dev) (k gen member : Nat) (b : Bind) (t c len : Nat) (data : List Byte) : Dev :=
  d.send (d.collPkt k (Config.upperHost b.prod b.ens b.group) b.prod gen 0x30 3 St.OK b.ens b.group b.cur member
    (c * 1024 + (len - 1)) t data)

/-- SEND_STATUS (R147): the refused chunk of a stage's own contribution is sent again. -/
def sendStatusMade (pid : Nat) (s : State) : Res :=
  onDev s fun d => d.whenSome (d.atLoom pid 0x43) fun (k, p) d =>
    let d := d.meetCast p.cEns p.cGroup
    match d.accepts k p 2 with
    | none => d.dropUp p
    | some (i, b, c) =>
      let d := match b.sent.find? (fun x => x.1 == p.cWord && x.2.1 == p.cLow / 1024) with
        | some x => if b.cur = p.cSeq ∧ p.status = St.DENIED then d.sendUp k i.gen c.member b x.1 x.2.1 x.2.2.1 x.2.2.2 else d
        | none => d
      d.endPkt p.id

/-- SEND_STATUS: what it makes is then routed. -/
def execSendStatus (pid : Nat) (s : State) : Res := sendOut (sendStatusMade pid s)

/-! ## Late and lost members (R152) -/

/-- The lowest expected member that has not delivered the whole of a tile. -/
def lowestMissing (e : BitVec 512) (count : Nat) (a : Area) : Nat :=
  ((expectedOf e count a.tile).find? (fun i => !a.memberDone i)).getD 0

/-- COLL_STALL_EXPIRY (R152): each tile open longer than STALL raises COLL_STALL once. -/
def execCollStallExpiry (loom : Nat) (s : State) : Res :=
  ifUnit (decide (loom < 4)) <| onDev s fun d =>
    let lim := d.fld F.LOM_COLL_CTL_STALL loom
    if lim = 0 then d
    else d.each (d.loom loom).binds (fun d b =>
      match b.desc with
      | none => d
      | some e =>
        let count := d.groupCount b.ens b.group
        let late (a : Area) : Bool := !a.stalled && !a.poison && !a.complete e count && decide (lim * 1000 * 65536 < d.since a.openAt)
        let d1 := d.each (b.tiles.filter late) (fun d a =>
          d.notice N.COLL_STALL (Src.die (loomSite loom)) b.prod
            (bit b.ens * 2 ^ 63 + b.group * 2 ^ 48 + lowestMissing e count a * 2 ^ 30 + a.tile % 2 ^ 30))
        d1.modBind loom b.prod b.ens b.group (fun b => { b with tiles := b.tiles.map (fun a => if late a then { a with stalled := true } else a) }))

/-- The headers of the tiles of a binding that are POISON say so (R184). -/
def Dev.poisonHeaders (d : Dev) (k prod : Nat) (ens : Bool) (g : Nat) : Dev :=
  match d.bindImage k prod ens g, d.bind k prod ens g with
  | some (_, i), some b =>
    d.whenSome (i.dirOf ens g 0) (fun c d => d.each (b.tiles.filter (·.poison)) (fun d a => d.writeHeader k i c a))
  | _, _ => d

/-- A member of a binding is taken as dead: open tiles that expect it and are not complete are poisoned, and every later
one will be (R152, R153). -/
def Dev.poisonMember (d : Dev) (k : Nat) (b : Bind) (i : Nat) : Dev :=
  if b.dead.contains i then d
  else
    let count := d.groupCount b.ens b.group
    let d := d.modBind k b.prod b.ens b.group (fun b => { b with
      dead := b.dead ++ [i],
      tiles := b.tiles.map (fun a => match b.desc with
        | some e => if expects e a.tile i && !a.complete e count then { a with poison := true } else a
        | none => a) })
    let d := d.poisonHeaders k b.prod b.ens b.group
    d.notice N.COLL_POISON (Src.die (loomSite k)) b.prod (bit b.ens * 2 ^ 63 + b.group * 2 ^ 48 + i * 2 ^ 30)

/-- MEMBER_DEAD_POISON (R152): a member that was declared dead for the production, or is a fenced neighbour. -/
def execMemberDeadPoison (ca : BitVec 32) (s : State) : Res :=
  onDevM s fun m d =>
    let c := bitsOf ca 31 8
    let fenced := (List.range d.nLanes).any (fun l => d.flag F.PRT_LINK_STAT_FENCED l && d.peerCa l == c)
    d.each (List.range 4) (fun d k => d.each (d.loom k).binds (fun d b =>
      if fenced || d.net.deads.any (fun x => x.ca == c && x.prod == b.prod) then
        d.each (d.memberIndices m b.ens b.group c) (fun d i => d.poisonMember k b i)
      else d))

end Sys2Proof.Machine
end

