-- ==== Sys2Proof/Machine/CueCore.lean ====
section
/-! DEFINITION. A Cue engine as a program sees it (R175 to R178), and the abandonment of an op (R152, R200). -/

namespace Sys2Proof.Machine

/-! ## Registers (R175) -/

/-- S[r]; S0 reads 0. -/
def Engine.s (y : Engine) (r : Nat) : Word := if r = 0 then 0 else y.sreg.get 0 r
/-- Writes S[r]; a write to S0 is discarded. -/
def Engine.setS (y : Engine) (r : Nat) (v : Word) : Engine := if r = 0 then y else { y with sreg := y.sreg.putD 0 r v }
def Engine.v (y : Engine) (r : Nat) : BitVec 512 := y.vreg.get 0 r
def Engine.setV (y : Engine) (r : Nat) (v : BitVec 512) : Engine := { y with vreg := y.vreg.putD 0 r v }
/-- P[r]; P0 reads all ones. -/
def Engine.p (y : Engine) (r : Nat) : Word := if r = 0 then BitVec.allOnes 64 else y.preds.get 0 r
/-- Writes P[r]; a write to P0 is discarded. -/
def Engine.setP (y : Engine) (r : Nat) (v : Word) : Engine := if r = 0 then y else { y with preds := y.preds.putD 0 r v }
def Engine.flag (y : Engine) (n : Nat) : Bool := y.flags.getLsbD (n % 256)
def Engine.setFlag (y : Engine) (n : Nat) (b : Bool) : Engine := { y with flags := setBits y.flags (n % 256) (n % 256) (bit b) }
/-- 8 bytes of data memory, most significant first. -/
def Engine.ld (y : Engine) (a : Nat) : Word := BitVec.ofNat 64 (ofBytes ((List.range 8).map (fun i => y.dmem.get 0 (a + i))))
def Engine.st8 (y : Engine) (a : Nat) (v : Word) : Engine :=
  { y with dmem := ((bytesOf 8 v.toNat).zipIdx.foldl (fun m b => m.putD 0 (a + b.2) b.1) y.dmem) }

/-- The engine issues: RUNNING or WAITING. -/
def Engine.live (y : Engine) : Bool := y.st == 1 || y.st == 2

/-- An instruction has been issued and the next one is at `pc`, which has 16 bits (R175). -/
def Engine.go (y : Engine) (pc : Nat) : Engine := { y with pc := pc % 65536, issued := y.issued + 1, st := 1 }
/-- An instruction has been issued and the next one follows it. -/
def Engine.next (y : Engine) : Engine := y.go (y.pc + 1)

/-- Engines of an image on a Loom. -/
def Loom.engsOf (x : Loom) (slot : Nat) : List Nat :=
  (x.engines.filter (fun e => e.2.image == slot && e.2.st != 0 && e.2.st != 6 && e.2.st != 7)).map (·.1)

/-- The instruction word at an index of an image's code (R194). -/
def Image.word (i : Image) (pc : Nat) : Nat := i.nat (640 + 4 * pc) 4

/-- A program's write to tile SRAM: accumulations and open slots it touches no longer read out as stated. -/
def Dev.progWrite (d : Dev) (k : Nat) (i : Image) (a : Nat) (bs : List Byte) : Dev :=
  let d := d.tileWrite k i a bs
  let lo := tileKey i a
  let hi := lo + bs.length
  let hit (start : Nat) (x : Area) : Area :=
    if start < hi ∧ lo < start + 64 + x.size then { x with over_ := true } else x
  d.modLoom k (fun l => { l with
    areas := l.areas.map (fun e => (e.1, hit e.1 e.2))
    binds := l.binds.map (fun b =>
      if b.prod = i.prod then
        match i.inbound b.ens b.group with
        | some c => { b with tiles := b.tiles.map (fun x => hit (tileKey i (slotAddr c x.tile)) x),
                             up := b.up.map (fun x => hit (tileKey i (slotAddr c x.tile)) x) }
        | none => b
      else b) })

/-! ## Abandonment (R152) -/

/-- CUR advances: the op's state is purged, and the next op opens where a descriptor was given (R186). -/
def Bind.advance (b : Bind) (next : Option (BitVec 512 × List Byte)) : Bind :=
  { prod := b.prod, ens := b.ens, group := b.group, dead := b.dead, cur := (b.cur + 1) % 65536,
    desc := next.map (·.1), coef := (next.map (·.2)).getD [] }

/-- RELEASE of KIND 1 to each contributor of a tile that is no recipient of its result (R146). -/
def Dev.releaseTile (d : Dev) (m : Mem) (k : Nat) (i : Image) (b : Bind) (e : BitVec 512) (a : Area) : Dev :=
  let rec_ := (recipients e (d.groupCount b.ens b.group) a.tile).map (·.1)
  d.sendShared m b.ens b.group ((a.ins.map (·.1)).dedup.filter (fun x => !rec_.contains x))
    (fun ca n => d.collPkt k ca b.prod i.gen 0x42 4 St.OK b.ens b.group b.cur n (2 ^ 12) a.tile [])

/-- A tile completes with POISON: RESULT with LEN 0 to its recipients, RELEASE of KIND 1 to the other contributors. -/
def Dev.poisonTile (d : Dev) (m : Mem) (k : Nat) (i : Image) (b : Bind) (e : BitVec 512) (a : Area) : Dev :=
  let d := d.sendShared m b.ens b.group ((recipients e (d.groupCount b.ens b.group) a.tile).map (·.1))
    (fun ca n => d.collPkt k ca b.prod i.gen 0x40 4 St.POISON b.ens b.group b.cur n (a.len - 1) a.tile [])
  d.releaseTile m k i b e a

/-- RESULT with status OK to the recipients of a tile, chunk by chunk, from the bytes of each coefficient row (R146, R186). -/
def Dev.sendResult (d : Dev) (m : Mem) (k : Nat) (i : Image) (b : Bind) (e : BitVec 512) (t : Nat) (rows : List (Nat × List Byte)) : Dev :=
  let recs := recipients e (d.groupCount b.ens b.group) t
  d.each rows (fun d r =>
    let to_ := (recs.filter (fun x => x.2 == r.1)).map (·.1)
    let n := r.2.length
    d.each (List.range (ceilDiv n 4096)) (fun d c =>
      let bs := (r.2.drop (4096 * c)).take 4096
      let d := (d.countLoom k C.RESULT_64B (ceilDiv bs.length 64 * to_.length)).countEv (1056 + k) 17
        (ceilDiv bs.length 64 * to_.length) { prod := b.prod, vl := 4, opc := 0x40, inl := 1026 + k }
      d.sendShared m b.ens b.group to_
        (fun ca j => d.collPkt k ca b.prod i.gen 0x40 4 St.OK b.ens b.group b.cur j (c * 1024 + (ceilDiv n 64 - 1)) t bs)))

/-- Read-out of an area over members, in a format, for coefficient row n (R163 to R168, R173). -/
def Area.row (a : Area) (b : Bind) (members : List Nat) (fmt n : Nat) : List Byte × Nat :=
  readout (a.reduce members (((b.coef.drop (256 * n)).take 256).map (·.toNat))) fmt (AWord.rnd a.word) (bit b.ens) b.group a.opseq a.tile

/-- How a tile ends that abandonment finds open. -/
inductive TileEnd where
  | poison
  /-- With OK: this stage's own read-out. -/
  | own
  /-- With OK: the upper stage's result. -/
  | above (u : Area)
  deriving DecidableEq, Repr

/-- A tile that has every chunk completes with OK, where its binding is the top stage or the result has come from above;
any other completes with POISON (R152, R153). A binding is a lower stage where another binding of the image sends up
(DEDUCED, log 232). -/
def Dev.tileEnd (d : Dev) (k : Nat) (i : Image) (b : Bind) (e : BitVec 512) (a : Area) : TileEnd :=
  let other (ens : Bool) (g : Nat) : Bool := !(ens == b.ens && g == b.group)
  if a.poison || a.over_ || !a.complete e (d.groupCount b.ens b.group) then .poison
  else if i.chans.any (fun c => c.2.dir == 2 && other c.2.ens c.2.group) then
    (match ((d.loom k).binds.filter (fun x => x.prod == i.prod && other x.ens x.group && (i.dirOf x.ens x.group 3).isSome)).findSome?
        (fun x => x.up.find? (fun u => u.tile == a.tile && !u.poison && u.memberDone 0)) with
     | some u => .above u
     | none => .poison)
  else .own

/-- A tile that abandonment finds open completes (R152, R153). -/
def Dev.abandonTile (d : Dev) (m : Mem) (k : Nat) (i : Image) (b : Bind) (e : BitVec 512) (a : Area) : Dev :=
  let rows := ((recipients e (d.groupCount b.ens b.group) a.tile).map (·.2)).dedup
  match d.tileEnd k i b e a with
  | .poison => d.poisonTile m k i b e a
  | .above u => (d.sendResult m k i b e a.tile (rows.map (fun r => (r, u.tileOf 0)))).releaseTile m k i b e a
  | .own =>
    let out := rows.map (fun r => (r, a.row b (expectedOf e (d.groupCount b.ens b.group) a.tile) (AWord.ofmt a.word) r))
    let d := d.countLoom k C.ARITH_SAT ((out.map (·.2.2)).sum)
    (d.sendResult m k i b e a.tile (out.map (fun x => (x.1, x.2.1)))).releaseTile m k i b e a

/-- The tiles that pending TAKE and TAKE.RED of a binding's open op wait for, on channels of a direction. -/
def Dev.takesPending (d : Dev) (k : Nat) (i : Image) (b : Bind) (dir : Nat) : List Nat :=
  (d.loom k).engines.flatMap (fun y =>
    if (d.loom k).images.find y.2.image = some i then
      y.2.queue.filterMap (fun o =>
        match cueDecode 0 0 o.word with
        | .cueTakeRed _ _ ch _ _ | .cueTake _ _ ch _ _ =>
          (match i.chan ch with
           | some c => if c.ens == b.ens && c.group == b.group && c.dir == dir && o.seq == b.cur then some (o.b.toNat % 2 ^ 32) else none
           | none => none)
        | _ => none)
    else [])

/-- The slots of the tiles that are lost to an abandonment are left POISON (R184, R186). -/
def Dev.poisonSlots (d : Dev) (k : Nat) (i : Image) (b : Bind) (e : BitVec 512) (dir : Nat) : Dev :=
  d.whenSome (i.dirOf b.ens b.group dir) fun c d =>
    let open_ := if dir = 0 then b.tiles else b.up
    let ts := (((open_.filter (fun a => dir == 3 || d.tileEnd k i b e a == .poison)).map (·.tile)) ++ d.takesPending k i b dir).dedup
    d.each ts (fun d t =>
      let a : Area := (open_.find? (fun a => a.tile == t)).getD { word := dAword e, opseq := b.cur, tile := t, len := dLen e }
      d.writeHeader k i c { a with poison := true })

/-- A binding's open op is abandoned. -/
def Dev.abandonBind (d : Dev) (m : Mem) (k : Nat) (i : Image) (b : Bind) : Dev :=
  match b.desc with
  | none => d
  | some e =>
    let d := (d.poisonSlots k i b e 0).poisonSlots k i b e 3
    let d := if (i.dirOf b.ens b.group 1).isSome then d.each b.tiles (fun d a => d.abandonTile m k i b e a) else d
    d.modBind k b.prod b.ens b.group (fun b => b.advance none)

/-- Every tile open on an image's bindings completes with POISON as its Loom resets, and closes; CUR stays (R34, R205). -/
def Dev.poisonImage (d : Dev) (m : Mem) (k : Nat) (i : Image) : Dev :=
  d.each ((d.loom k).binds.filter (fun b => b.prod == i.prod && (i.dirOf b.ens b.group 1).isSome)) (fun d b =>
    match b.desc with
    | none => d
    | some e => (d.each b.tiles (fun d a => d.poisonTile m k i b e a)).modBind k b.prod b.ens b.group (fun b => { b with tiles := [] }))

/-- Every op open on an image's bindings is abandoned. -/
def Dev.abandonImage (d : Dev) (m : Mem) (k : Nat) (i : Image) : Dev :=
  d.each ((d.loom k).binds.filter (fun b => b.prod == i.prod && i.binds b.ens b.group)) (fun d b => d.abandonBind m k i b)

end Sys2Proof.Machine
end

