-- ==== Sys2Proof/Machine/CueOps.lean ====
section
/-! DEFINITION. The operations of a stream queue (R186 to R189): which of them run, when one may finish, and its effect. -/

namespace Sys2Proof.Machine

/-- The tile index in a register. -/
def tileNo (w : Word) : Nat := w.toNat % 2 ^ 32

/-- The descriptor of op CUR of a binding: as opened, or as the first OPEN still in a stream queue gives it. -/
def Dev.curDesc (d : Dev) (k slot : Nat) (i : Image) (c : Chan) : Option (BitVec 512) :=
  match d.bind k i.prod c.ens c.group with
  | none => none
  | some b =>
    b.desc.orElse fun _ =>
      ((d.loom k).engines.filter (fun e => e.2.image == slot)).findSome? (fun e =>
        e.2.queue.findSome? (fun o =>
          match cueDecode 0 0 o.word with
          | .cueOpen _ _ ch _ =>
            (match i.chan ch with
             | some x => if x.ens == c.ens && x.group == c.group && o.seq == b.cur then o.desc.map (·.1) else none
             | none => none)
          | _ => none))

/-- Sizes of an op's tile: input bytes, area bytes with the header for `count` members of the group, and result bytes in a
format. -/
def tileIn (e : Option (BitVec 512)) : Nat := match e with | some e => 64 * dLen e | none => 0
def tileArea (e : Option (BitVec 512)) (count : Nat) : Nat :=
  match e with | some e => 64 + storageBytes (dAword e) (accCount (dAword e) (dLen e)) (opMembers e count) | none => 0
/-- Bytes that ROUND.TILE writes in OFMT (v 0) or PFMT (v 1): two rows for GF_LIN. -/
def tileOut (e : Option (BitVec 512)) (v : Nat) : Nat :=
  match e with
  | some e => resultBytes (dAword e) (dLen e) (if v = 0 then AWord.ofmt (dAword e) else AWord.pfmt (dAword e))
      * (if AWord.op (dAword e) = 8 then 2 else 1)
  | none => 0

/-! ## Which operations run (R187) -/

/-- Tile SRAM ranges of an operation: start, length, and whether it writes the range. -/
def Dev.opRanges (d : Dev) (k slot : Nat) (i : Image) (o : StreamOp) : List (Nat × Nat × Bool) :=
  let de (ch : Nat) : Option (BitVec 512) := (i.chan ch).bind (d.curDesc k slot i)
  let area (ch : Nat) : Nat := tileArea (de ch) (((i.chan ch).map (fun c => d.groupCount c.ens c.group)).getD 0)
  match cueDecode 0 0 o.word with
  | .cueReduceTile _ _ ch _ _ _ _ => [(o.b.toNat, tileIn (de ch), false), (o.a.toNat, area ch, true)]
  | .cueRoundTile _ _ ch _ _ _ v => [(o.b.toNat, area ch, false), (o.a.toNat, tileOut (de ch) v, true)]
  | .cueGive _ _ ch _ _ _ => [(o.a.toNat, if (i.chan ch).any (fun c => c.dir == 2) then tileIn (de ch) else tileOut (de ch) 0, false)]
  | .cueBoltFetch _ _ _ _ _ => [(o.a.toNat, o.b1.toNat, true)]
  | .cueBoltStash _ _ _ _ _ => [(o.a.toNat, o.b1.toNat, false)]
  | _ => []

/-- A later operation touches a range that an earlier one writes. -/
def Dev.opWaits (d : Dev) (k slot : Nat) (i : Image) (first later : StreamOp) : Bool :=
  (d.opRanges k slot i first).any (fun r => r.2.2 && (d.opRanges k slot i later).any (fun t =>
    decide (r.1 < t.1 + t.2.1 ∧ t.1 < r.1 + r.2.1)))

/-- The operation at a place of the queue runs: it is among the first four, and it and those before it have started. -/
def Dev.opRuns (d : Dev) (k slot : Nat) (i : Image) (q : List StreamOp) (n : Nat) : Bool :=
  decide (n < 4) && (List.range (n + 1)).all (fun j => (List.range j).all (fun h =>
    match q[h]?, q[j]? with
    | some a, some b => !d.opWaits k slot i a b
    | _, _ => true))

/-! ## Effects -/

/-- The binding and channel of an operation, where its op is still CUR. -/
def Dev.opBind (d : Dev) (k : Nat) (i : Image) (ch : Nat) (o : StreamOp) : Option (Chan × Bind) :=
  match i.chan ch with
  | none => none
  | some c => match d.bind k i.prod c.ens c.group with
    | some b => if b.cur = o.seq then some (c, b) else none
    | none => none

/-- Tile t is complete, or POISON, or has closed (R146, R152, R201). -/
def Dev.tileReady (d : Dev) (c : Chan) (b : Bind) (t : Nat) : Bool :=
  if c.dir = 3 then (match b.up.find? (fun a => a.tile == t) with | some a => a.poison || a.memberDone 0 | none => false)
  else b.closed.contains t ||
    (match b.tiles.find? (fun a => a.tile == t), b.desc with
     | some a, some e => a.poison || a.complete e (d.groupCount b.ens b.group)
     | _, _ => false)

/-- Cells of the collective pool that GIVE of tile t takes: its results, or the one of a POISON tile, and a RELEASE (R99, R146). -/
def giveCells (b : Bind) (e : BitVec 512) (t : Nat) : Nat :=
  let a := (b.tiles.find? (fun a => a.tile == t))
  let n := resultBytes (dAword e) ((a.map (·.len)).getD (dLen e)) (AWord.ofmt (dAword e))
  if (a.map (·.poison)).getD false then 2
  else (if dRecip e = 3 then 2 else 1) * ((List.range (ceilDiv n 4096)).map (fun c => collCells (min 4096 (n - 4096 * c)))).sum + 1

/-- A packet that a stream operation made is where the operation waits for it: one of GIVE has its cells in the Wardrobe,
one of EXCHANGE has left the device or reached a function of it (R186). -/
def Dev.opGone (d : Dev) (k e : Nat) (o : StreamOp) (id : Nat) : Bool :=
  match d.pkt id with
  | none => true
  | some p =>
    (match cueDecode k e o.word with
     | .cueExchange _ _ _ _ _ => (match p.place with | .atFn _ => true | _ => false)
     | _ => p.place != .ingress)

/-- The packets a stream operation has just made and waits for, of those named from `n` on: chunks and releases of GIVE,
SEND.STATUS and RELEASE of EXCHANGE (R186). -/
def Dev.opMade (d : Dev) (k e : Nat) (o : StreamOp) (n : Nat) : List Nat :=
  let opcs : List Nat := match cueDecode k e o.word with
    | .cueGive _ _ _ _ _ _ => [0x30, 0x40, 0x42]
    | .cueExchange _ _ _ _ _ => [0x42, 0x43]
    | _ => []
  ((d.net.pkts.filter (fun p => decide (n ≤ p.id) && p.inl == 1026 + k && opcs.contains p.opc)).map (·.id)).filter
    (fun id => !d.opGone k e o id)

/-- An operation that runs may have its effect. One whose op is no longer CUR finishes (R186). -/
def Dev.opBegins (d : Dev) (k e : Nat) (i : Image) (o : StreamOp) : Bool :=
  let at_ (ch : Nat) (f : Chan → Bind → Bool) : Bool := match d.opBind k i ch o with | some x => f x.1 x.2 | none => true
  match cueDecode k e o.word with
  | .cueTakeRed _ _ ch _ _ => at_ ch (fun c b => d.tileReady c b (tileNo o.b))
  | .cueTake _ _ ch _ _ => at_ ch (fun c b => d.tileReady c b (tileNo o.b))
  | .cueExchange _ _ ch _ _ => at_ ch (fun _ b => match b.desc with
      | some x => b.a2aDone x (d.groupCount b.ens b.group) | none => false)
  | .cueSyncCollect _ _ ch _ => at_ ch (fun _ b => match b.desc with
      | some x => (expectedOf x (d.groupCount b.ens b.group) 0).all (fun n => b.arrived.any (fun r => r.1 == n)) | none => false)
  | .cueSyncAwait _ _ ch _ => at_ ch (fun _ b => b.upRelease)
  | .cueGive _ _ ch _ _ _ => at_ ch (fun c b => c.dir == 2 || (match b.desc with
      | some x => d.collRoom k b.prod (giveCells b x (tileNo o.b)) | none => true))
  | .cueRetire _ _ ch _ _ => at_ ch (fun _ b => (List.range i.engines).all (fun n => b.retired.contains n))
  | _ => true

/-- An operation that runs may go on: it may have its effect, or the packets it waits for are where they must be. -/
def Dev.opReady (d : Dev) (k e : Nat) (i : Image) (o : StreamOp) : Bool :=
  match o.made with
  | some ids => ids.all (d.opGone k e o)
  | none => d.opBegins k e i o

/-- The tile that REDUCE.TILE adds becomes one more input of the area. -/
def Area.addTile (a : Area) (bs : List Byte) : Area :=
  let n := (a.ins.map (·.1)).dedup.length
  { a with ins := a.ins ++ (List.range (chunkCount a.len)).map (fun c => (n, c, (bs.drop (4096 * c)).take (chunkBytes a.len c))) }

/-- REDUCE.TILE. -/
def Dev.reduceTile (d : Dev) (k : Nat) (i : Image) (b : Bind) (e : BitVec 512) (v : Nat) (o : StreamOp) : Dev :=
  let key := tileKey i o.a.toNat
  let fresh : Area := {
    word := dAword e, opseq := b.cur, tile := 0, len := dLen e, openAt := d.tmu.total
    size := storageBytes (dAword e) (accCount (dAword e) (dLen e)) (opMembers e (d.groupCount b.ens b.group)) }
  let old := if v = 1 then fresh else ((d.loom k).areas.find key).getD { fresh with over_ := true }
  let r := d.tileRead k i o.b.toNat (64 * old.len)
  let a := old.addTile r.1
  let d := r.2.progWrite k i o.a.toNat (areaHeader a (a.ins.map (·.1)).dedup.length)
  let d := d.tileJunk k i (o.a.toNat + 64) a.size
  (d.countMxTile k a r.1).modLoom k (fun x => { x with areas := x.areas.put key a })

/-- The area or open slot at a tile address, with its inputs in member order. -/
def Dev.areaAt (d : Dev) (k : Nat) (i : Image) (addr : Nat) : Option (Area × List Nat) :=
  match ((d.loom k).binds.filter (fun b => b.prod == i.prod && i.binds b.ens b.group)).findSome? (fun b =>
      match i.dirOf b.ens b.group 0, b.desc with
      | some c, some e => (b.tiles.find? (fun a => slotAddr c a.tile == addr)).map
          (fun a => (a, expectedOf e (d.groupCount b.ens b.group) a.tile))
      | _, _ => none) with
  | some x => some x
  | none => ((d.loom k).areas.find (tileKey i addr)).map (fun a => (a, (a.ins.map (·.1)).dedup))

/-- Bytes of a free value. -/
def Dev.freeBytes (d : Dev) (n : Nat) : List Byte × Dev :=
  let r := d.freeNat
  (bytesOf n r.1, r.2)

/-- ROUND.TILE: OFMT for variant 0, PFMT for variant 1; what holds no accumulation reads out as a free value. -/
def Dev.roundTile (d : Dev) (k : Nat) (i : Image) (b : Bind) (e : BitVec 512) (v : Nat) (o : StreamOp) : Dev :=
  match d.areaAt k i o.b.toNat with
  | some (a, ms) =>
    if a.over_ then let r := d.freeBytes (tileOut (some e) v); r.2.progWrite k i o.a.toNat r.1
    else
      let f := if v = 0 then AWord.ofmt a.word else AWord.pfmt a.word
      let x0 := a.row b ms f 0
      let bs := if AWord.op a.word = 8 then x0.1 ++ (a.row b ms f 1).1 else x0.1
      (d.countLoom k C.ARITH_SAT x0.2).progWrite k i o.a.toNat bs
  | none => let r := d.freeBytes (tileOut (some e) v); r.2.progWrite k i o.a.toNat r.1

/-- An address lies in the UP-IN slot of a tile that the upper stage reported POISON (R142, R201). -/
def Dev.upPoison (d : Dev) (k : Nat) (i : Image) (addr : Nat) : Bool :=
  (d.loom k).binds.any (fun b => b.prod == i.prod && (match i.dirOf b.ens b.group 3 with
    | some c => b.up.any (fun u => u.poison && decide (slotAddr c u.tile ≤ addr ∧ addr < slotAddr c u.tile + c.slot))
    | none => false))

/-- GIVE on a DOWN-OUT channel: RESULT to the recipients, RELEASE of KIND 1 to the others, and the tile closes. The RESULT
is POISON where the inbound slot of the tile is, or where what is given is the upper stage's POISON (R142, R186). -/
def Dev.giveDown (d : Dev) (m : Mem) (k : Nat) (i : Image) (b : Bind) (e : BitVec 512) (o : StreamOp) : Dev :=
  let t := tileNo o.b
  let a := (b.tiles.find? (fun a => a.tile == t)).getD { word := dAword e, opseq := b.cur, tile := t, len := dLen e }
  let n := resultBytes (dAword e) a.len (AWord.ofmt (dAword e))
  let recs := recipients e (d.groupCount b.ens b.group) t
  let d :=
    if a.poison || d.upPoison k i o.a.toNat then d.poisonTile m k i b e a
    else
      (d.each ((recs.map (·.2)).dedup) (fun d r =>
        let x := d.tileRead k i (o.a.toNat + r * n) n
        x.2.sendResult m k i b e t [(r, x.1)])).releaseTile m k i b e a
  d.modBind k b.prod b.ens b.group (fun b => { b with tiles := b.tiles.filter (fun a => a.tile ≠ t), closed := b.closed ++ [t] })

/-- GIVE on an UP-OUT channel: CONTRIB of tile t under the stage's member index, kept until its result comes (R147). Of a
tile whose inbound slot is POISON nothing goes up: the stages above stall (R152). -/
def Dev.giveUp (d : Dev) (k : Nat) (i : Image) (c : Chan) (b : Bind) (e : BitVec 512) (o : StreamOp) : Dev :=
  let t := tileNo o.b
  if (d.loom k).binds.any (fun x => x.prod == i.prod && (i.dirOf x.ens x.group 0).isSome
      && x.tiles.any (fun a => a.tile == t && a.poison)) then d
  else d.each (List.range (chunkCount (dLen e))) (fun d n =>
    let x := d.tileRead k i (o.a.toNat + 4096 * n) (chunkBytes (dLen e) n)
    (x.2.sendUp k i.gen c.member b t n (dLen e) x.1).modBind k b.prod b.ens b.group
      (fun b => { b with sent := b.sent ++ [(t, n, dLen e, x.1)] }))

/-- The local address of an offset of an image's Bolt region (R199). -/
def Image.boltLocal (i : Image) (off : Nat) : Option Nat :=
  (i.bolt.find? (fun r => decide (r.1 ≤ off ∧ off < r.1 + r.2.1))).map (fun r => r.2.2 + (off - r.1))

/-- A BOLT transfer line by line: FETCH or STASH, and the status it ends with. -/
def Dev.boltMove (d : Dev) (m : Mem) (k : Nat) (i : Image) (stash : Bool) (o : StreamOp) : Dev × Mem × Nat :=
  let lines := List.range (o.b1.toNat / 64)
  let ok := lines.all (fun n => match i.boltLocal (o.b.toNat + 64 * n) with | some a => d.stackUp (stackOf a) | none => false)
  let bad := lines.filterMap (fun n => (i.boltLocal (o.b.toNat + 64 * n)).bind (fun a => if d.eccAt a 64 then some (stackOf a % 4) else none))
  if !ok then (d, m, St.POISON)
  else if !stash && !bad.isEmpty then (d.each bad (fun d st => d.countStack st C.ECC_UNCORR 1), m, St.ECC_UNCORR)
  else
    lines.foldl (fun x n =>
      match i.boltLocal (o.b.toNat + 64 * n) with
      | none => x
      | some a =>
        let st := stackOf a % 4
        if stash then
          let r := x.1.tileRead k i (o.a.toNat + 64 * n) 64
          ((r.2.eccWritten a 64).countServe st C.WRITE_64B 64 { prod := i.prod, inl := 1026 + k }, memWrite x.2.1 a r.1, x.2.2)
        else
          (((x.1.countSoft st a 64).countServe st C.READ_64B 64 { prod := i.prod, inl := 1026 + k }).progWrite k i
            (o.a.toNat + 64 * n) (memRead x.2.1 a 64), x.2.1, x.2.2)) (d, m, St.OK)

/-- A RELEASE of KIND 0 to all members of a binding's group. -/
def Dev.syncRelease (d : Dev) (m : Mem) (k : Nat) (i : Image) (b : Bind) : Dev :=
  d.sendShared m b.ens b.group (List.range (d.groupCount b.ens b.group))
    (fun ca n => d.collPkt k ca b.prod i.gen 0x42 4 St.OK b.ens b.group b.cur n 0 0 [])

/-- The effect of a stream operation as it finishes: device, Bolt memory, and the status of a BOLT transfer. -/
def Dev.opEffect (d : Dev) (m : Mem) (k e : Nat) (i : Image) (o : StreamOp) : Dev × Mem × Nat :=
  let at_ (ch : Nat) (f : Chan → Bind → Dev → Dev) : Dev × Mem × Nat :=
    (match d.opBind k i ch o with | some x => f x.1 x.2 d | none => d, m, St.OK)
  let withDesc (b : Bind) (d : Dev) (f : BitVec 512 → Dev) : Dev := match b.desc with | some x => f x | none => d
  match cueDecode k e o.word with
  | .cueOpen _ _ ch _ => at_ ch (fun _ b d => match b.desc, o.desc with
      | none, some x => d.modBind k b.prod b.ens b.group (fun b => { b with desc := some x.1, coef := x.2 })
      | _, _ => d)
  | .cueReduceTile _ _ ch _ _ _ v => at_ ch (fun _ b d => withDesc b d (fun x => d.reduceTile k i b x v o))
  | .cueRoundTile _ _ ch _ _ _ v => at_ ch (fun _ b d => withDesc b d (fun x => d.roundTile k i b x v o))
  | .cueGive _ _ ch _ _ _ => at_ ch (fun c b d => withDesc b d (fun x =>
      if c.dir = 1 then d.giveDown m k i b x o else d.giveUp k i c b x o))
  | .cueExchange _ _ ch _ _ => at_ ch (fun _ b d => withDesc b d (fun x =>
      if b.exchDone then d else (d.a2aFinish m k i.gen b x).modBind k b.prod b.ens b.group (fun b => { b with exchDone := true })))
  | .cueSyncArrive _ _ ch _ => at_ ch (fun c b d =>
      d.send (d.collPkt k (Config.upperHost b.prod b.ens b.group) b.prod i.gen 0x32 3 St.OK b.ens b.group b.cur c.member 0 0 []))
  | .cueSyncRelease _ _ ch _ => at_ ch (fun _ b d => d.syncRelease m k i b)
  | .cueRetire _ _ ch _ _ => at_ ch (fun _ b d => d.modBind k b.prod b.ens b.group (fun b => b.advance b.next))
  | .cueAbandon _ _ ch _ => at_ ch (fun _ b d => d.abandonBind m k i b)
  | .cueBoltFetch _ _ _ _ _ => d.boltMove m k i false o
  | .cueBoltStash _ _ _ _ _ => d.boltMove m k i true o
  | _ => (d, m, St.OK)

/-- The flag a stream instruction names, 0 for none. -/
def opFlag (w : Nat) : Nat := fieldAt w 14 8

/-- An engine after the operation at place `idx` of its queue has finished: its flag is set, but where another pending
operation names that flag, the one that finishes last sets it (R189). -/
def Engine.finishOp (y : Engine) (idx : Nat) (o : StreamOp) : Engine :=
  let f := opFlag o.word
  let rest := y.queue.eraseIdx idx
  { (if f = 0 ∨ rest.any (fun x => opFlag x.word == f) then y else y.setFlag f true) with queue := rest }

/-- RETIREs in the queues count for their binding as soon as they run: position and descriptor (R186). -/
def Dev.noteRetire (d : Dev) (k : Nat) (i : Image) (y : Engine) (o : StreamOp) : Dev :=
  match cueDecode 0 0 o.word with
  | .cueRetire _ _ ch _ _ =>
    (match d.opBind k i ch o with
     | some (_, b) => d.modBind k b.prod b.ens b.group (fun b => { b with
         retired := if b.retired.contains y.pos then b.retired else b.retired ++ [y.pos],
         next := b.next.orElse (fun _ => o.desc) })
     | none => d)
  | _ => d

/-- RETIREs in the queues of an image's engines are noted. -/
def Dev.noteRetires (d : Dev) (k slot : Nat) (i : Image) : Dev :=
  d.each ((d.loom k).engines.filter (fun e => e.2.image == slot)) (fun d e => d.each e.2.queue (fun d o => d.noteRetire k i e.2 o))

/-- The operation at place `idx` has its effect, what it made goes on its way, and it finishes; or it stays in the queue for
packets that it waits for. Its result is the status of a BOLT transfer. -/
def Dev.runOp (d : Dev) (m : Mem) (k e : Nat) (i : Image) (idx : Nat) (o : StreamOp) : Dev × Mem × Nat :=
  match o.made with
  | some _ => (d.modEngine k e (fun y => y.finishOp idx o), m, St.OK)
  | none =>
    let x := d.opEffect m k e i o
    let r := x.1.settle
    match r.opMade k e o d.net.nextId with
    | [] => (r.modEngine k e (fun y => y.finishOp idx o), x.2.1, x.2.2)
    | ids => (r.modEngine k e (fun y => { y with queue := y.queue.set idx { o with made := some ids } }), x.2.1, x.2.2)

/-- An operation issued before a trap may finish ahead of the abandonment: it runs and is ready. A BOLT transfer that writes
Bolt memory, or that would end in an error, finishes in its own time. -/
def Dev.opEarly (d : Dev) (m : Mem) (k e : Nat) (i : Image) (y : Engine) (idx : Nat) : Option StreamOp :=
  (y.queue[idx]?).filter (fun o => d.opRuns k y.image i y.queue idx && d.opReady k e i o &&
    (match cueDecode k e o.word with
     | .cueBoltStash _ _ _ _ _ => false
     | .cueBoltFetch _ _ _ _ _ => (d.boltMove m k i false o).2.2 == St.OK
     | _ => true))

/-- The stream operations that an engine issued before a trap finish (R191), one at a time, the first that may. -/
def Dev.earlierOps (m : Mem) (k e : Nat) (i : Image) : Nat → Dev → Dev
  | 0, d => d
  | n + 1, d =>
    match (List.range 4).findSome? (fun j => (d.opEarly m k e i (d.engine k e) j).map (fun o => (j, o))) with
    | some x => Dev.earlierOps m k e i n (d.runOp m k e i x.1 x.2).1
    | none => d

end Sys2Proof.Machine
end

