-- ==== Sys2Proof/Machine/CueTrap.lean ====
section
/-! DEFINITION. Traps of a Cue engine (R190, R191), and the issue of one instruction (R192). -/

namespace Sys2Proof.Machine

/-! ## Traps (R190, R191) -/

def Cause.ILLEGAL : Nat := 1
def Cause.BAD_WORD : Nat := 2
def Cause.ACC_CLASS : Nat := 3
def Cause.ACC_COUNT : Nat := 4
def Cause.TILE_BOUNDS : Nat := 5
def Cause.DATA_BOUNDS : Nat := 6
def Cause.CHANNEL : Nat := 7
def Cause.BOLT_BOUNDS : Nat := 8
def Cause.BOLT_ERR : Nat := 9
def Cause.BREAK : Nat := 10
def Cause.DESC : Nat := 11
def Cause.RETIRE_OPEN : Nat := 12
def Cause.FETCH_BOUNDS : Nat := 13
def Cause.INJECTED : Nat := 14
def Cause.ENGINE_FAULT : Nat := 15

/-- Engines of an image other than one enter STOPPED. -/
def Dev.stopOthers (d : Dev) (k e slot : Nat) : Dev :=
  d.each ((d.loom k).engsOf slot) (fun d n => if n ≠ e ∧ (d.engine k n).live then d.modEngine k n (fun y => { y with st := 5 }) else d)

/-- A trap of an engine (R191): where the cause is precise, the stream operations it issued before finish; those that cannot
yet, a TAKE of a tile that is not complete or a SYNC that waits, end with the abandonment (DEDUCED, log 254). -/
def Dev.trapEngine (d : Dev) (m : Mem) (k e cause detail : Nat) : Dev :=
  let y := d.engine k e
  let pc := y.pc % 65536
  let d := if y.queue.isEmpty ∨ cause = Cause.BOLT_ERR ∨ cause = Cause.ENGINE_FAULT then d
    else d.whenSome ((d.loom k).images.find y.image) (fun i d => Dev.earlierOps m k e i 32 (d.noteRetires k y.image i))
  let d := d.modEngine k e (fun y => { y with st := 3 })
  let d := d.wr .CUE_ENG_TRAP (k * 68 + e) (BitVec.ofNat 64 (cause * 2 ^ 56 + pc * 2 ^ 32 + detail % 2 ^ 32))
  let d := d.stopOthers k e y.image
  let d := d.whenSome ((d.loom k).images.find y.image) (fun i d => d.abandonImage m k i)
  (d.notice N.CUE_TRAP (Src.die (loomSite k)) y.prod (k * 2 ^ 62 + e * 2 ^ 55 + cause * 2 ^ 47 + pc)).settle

/-! ## Issue -/

/-- What an instruction does to its engine: go on, or trap with a cause and DETAIL and change nothing. -/
inductive Eff where
  | ok (y : Engine)
  | trap (cause detail : Nat)
  deriving DecidableEq, Repr

/-- The image an engine runs. -/
def Dev.engImage (d : Dev) (k e : Nat) : Option Image := (d.loom k).images.find (d.engine k e).image

/-- An engine that debug has halted takes one of its steps (R319). -/
def Dev.takeStep (d : Dev) (k e : Nat) : Dev :=
  match (d.loom k).halted.find e with
  | some n => d.modLoom k (fun x => { x with halted := x.halted.put e (n - 1) })
  | none => d

/-- Debug does not hold an engine: it is not halted, or has a step left (R319). -/
def Dev.mayStep (d : Dev) (k e : Nat) : Bool := (d.loom k).halted.find e != some 0

/-- Engine `e` of Loom `k` issues a Cue instruction: its Loom runs, the engine is RUNNING or WAITING and not halted, and the
word at its PC decodes to that instruction. A PC outside the code traps before the fetch (R180). Otherwise nothing happens. -/
def Dev.issue (d : Dev) (m : Mem) (i : Instr) (k e : Nat) (f : Image → Engine → Dev → Dev) : Dev :=
  match d.engImage k e with
  | none => d
  | some im =>
    let y := d.engine k e
    if !(d.siteUp (loomSite k) && y.live && d.mayStep k e) then d
    else if im.codeWords ≤ y.pc then (d.takeStep k e).trapEngine m k e Cause.FETCH_BOUNDS y.pc
    else if cueDecode k e (im.word y.pc) = i then f im y (d.takeStep k e) else d

/-- An effect on the engine alone, or a trap. -/
def Dev.apply (d : Dev) (m : Mem) (k e : Nat) (x : Eff) : Dev :=
  match x with
  | .ok y => d.setEngine k e y
  | .trap c t => d.trapEngine m k e c t

/-- A Cue command whose effect is on its engine alone. -/
def cueRow (i : Instr) (k e : Nat) (f : Engine → Eff) (s : State) : Res :=
  ifUnit (decide (k < 4 ∧ e < 68)) <| onDevM s fun m d => d.issue m i k e (fun _ y d => d.apply m k e (f y))

/-- A Cue command that may act beyond its engine. -/
def cueRowM (i : Instr) (k e : Nat) (f : Mem → Image → Engine → Dev → Dev) (s : State) : Res :=
  ifUnit (decide (k < 4 ∧ e < 68)) <| onDevM s fun m d => d.issue m i k e (f m)

/-- A sign-extended immediate of `n` bits as a 64-bit word. -/
def sext (n v : Nat) : Word := BitVec.ofInt 64 (signedOf n v)

end Sys2Proof.Machine
end

