-- ==== Sys2Proof/Machine/CueScalar.lean ====
section
/-! DEFINITION. The scalar Cue instructions (R181). -/

namespace Sys2Proof.Machine

/-- NOP. -/
def execCueNop (loom engine : Nat) (s : State) : Res := cueRow (.cueNop loom engine) loom engine (fun y => .ok y.next) s

/-- END: the engine stops in ENDED once its stream operations have finished; until then it stays at END. -/
def execCueEnd (loom engine : Nat) (s : State) : Res :=
  cueRow (.cueEnd loom engine) loom engine
    (fun y => .ok (if y.queue.isEmpty then { y.next with st := 4 } else y)) s

/-- BREAK. -/
def execCueBreak (loom engine a : Nat) (s : State) : Res :=
  cueRow (.cueBreak loom engine a) loom engine (fun y => .trap Cause.BREAK (y.s a).toNat) s

/-- SWAIT: issue stalls until the stream queue is empty. -/
def execCueSwait (loom engine : Nat) (s : State) : Res :=
  cueRow (.cueSwait loom engine) loom engine (fun y => .ok (if y.queue.isEmpty then y.next else y)) s

/-- RDTIME. -/
def execCueRdtime (loom engine d : Nat) (s : State) : Res :=
  cueRowM (.cueRdtime loom engine d) loom engine
    (fun _ _ y x => x.setEngine loom engine (y.setS d (BitVec.ofNat 64 x.timeNs)).next) s

/-- S[d] = S[a] op S[b]. -/
def Engine.alu (y : Engine) (d a b : Nat) (f : Word → Word → Word) : Eff := .ok (y.setS d (f (y.s a) (y.s b))).next
/-- S[d] = S[a] op imm. -/
def Engine.alui (y : Engine) (d a : Nat) (f : Word → Word) : Eff := .ok (y.setS d (f (y.s a))).next

def w1 (b : Bool) : Word := if b then 1 else 0

def execCueAdd (loom engine d a b : Nat) (s : State) : Res :=
  cueRow (.cueAdd loom engine d a b) loom engine (fun y => y.alu d a b (· + ·)) s
def execCueSub (loom engine d a b : Nat) (s : State) : Res :=
  cueRow (.cueSub loom engine d a b) loom engine (fun y => y.alu d a b (· - ·)) s
def execCueAnd (loom engine d a b : Nat) (s : State) : Res :=
  cueRow (.cueAnd loom engine d a b) loom engine (fun y => y.alu d a b (· &&& ·)) s
def execCueOr (loom engine d a b : Nat) (s : State) : Res :=
  cueRow (.cueOr loom engine d a b) loom engine (fun y => y.alu d a b (· ||| ·)) s
def execCueXor (loom engine d a b : Nat) (s : State) : Res :=
  cueRow (.cueXor loom engine d a b) loom engine (fun y => y.alu d a b (· ^^^ ·)) s
def execCueSll (loom engine d a b : Nat) (s : State) : Res :=
  cueRow (.cueSll loom engine d a b) loom engine (fun y => y.alu d a b (fun u v => u <<< (v.toNat % 64))) s
def execCueSrl (loom engine d a b : Nat) (s : State) : Res :=
  cueRow (.cueSrl loom engine d a b) loom engine (fun y => y.alu d a b (fun u v => u >>> (v.toNat % 64))) s
def execCueSra (loom engine d a b : Nat) (s : State) : Res :=
  cueRow (.cueSra loom engine d a b) loom engine (fun y => y.alu d a b (fun u v => u.sshiftRight (v.toNat % 64))) s
def execCueSlt (loom engine d a b : Nat) (s : State) : Res :=
  cueRow (.cueSlt loom engine d a b) loom engine (fun y => y.alu d a b (fun u v => w1 (u.slt v))) s
def execCueSltu (loom engine d a b : Nat) (s : State) : Res :=
  cueRow (.cueSltu loom engine d a b) loom engine (fun y => y.alu d a b (fun u v => w1 (u.ult v))) s
def execCueMul (loom engine d a b : Nat) (s : State) : Res :=
  cueRow (.cueMul loom engine d a b) loom engine (fun y => y.alu d a b (· * ·)) s
def execCueMulhu (loom engine d a b : Nat) (s : State) : Res :=
  cueRow (.cueMulhu loom engine d a b) loom engine
    (fun y => y.alu d a b (fun u v => BitVec.ofNat 64 (u.toNat * v.toNat / 2 ^ 64))) s
def execCueMin (loom engine d a b : Nat) (s : State) : Res :=
  cueRow (.cueMin loom engine d a b) loom engine (fun y => y.alu d a b (fun u v => if u.slt v then u else v)) s
def execCueMax (loom engine d a b : Nat) (s : State) : Res :=
  cueRow (.cueMax loom engine d a b) loom engine (fun y => y.alu d a b (fun u v => if u.slt v then v else u)) s
def execCueMinu (loom engine d a b : Nat) (s : State) : Res :=
  cueRow (.cueMinu loom engine d a b) loom engine (fun y => y.alu d a b (fun u v => if u.ult v then u else v)) s
def execCueMaxu (loom engine d a b : Nat) (s : State) : Res :=
  cueRow (.cueMaxu loom engine d a b) loom engine (fun y => y.alu d a b (fun u v => if u.ult v then v else u)) s

def execCueAddi (loom engine d a imm : Nat) (s : State) : Res :=
  cueRow (.cueAddi loom engine d a imm) loom engine (fun y => y.alui d a (· + sext 14 imm)) s
def execCueAndi (loom engine d a imm : Nat) (s : State) : Res :=
  cueRow (.cueAndi loom engine d a imm) loom engine (fun y => y.alui d a (· &&& BitVec.ofNat 64 (imm % 2 ^ 14))) s
def execCueOri (loom engine d a imm : Nat) (s : State) : Res :=
  cueRow (.cueOri loom engine d a imm) loom engine (fun y => y.alui d a (· ||| BitVec.ofNat 64 (imm % 2 ^ 14))) s
def execCueXori (loom engine d a imm : Nat) (s : State) : Res :=
  cueRow (.cueXori loom engine d a imm) loom engine (fun y => y.alui d a (· ^^^ BitVec.ofNat 64 (imm % 2 ^ 14))) s
/-- SHI: 0 SLL, 1 SRL, 2 SRA. -/
def execCueShi (loom engine d a op amt : Nat) (s : State) : Res :=
  cueRow (.cueShi loom engine d a op amt) loom engine (fun y => y.alui d a (fun u =>
    match op with
    | 0 => u <<< (amt % 64)
    | 1 => u >>> (amt % 64)
    | _ => u.sshiftRight (amt % 64))) s
def execCueCat (loom engine d a imm : Nat) (s : State) : Res :=
  cueRow (.cueCat loom engine d a imm) loom engine (fun y => y.alui d a (fun u => (u <<< 14) ||| BitVec.ofNat 64 (imm % 2 ^ 14))) s

/-- A data memory address: 8-aligned, inside 64 KiB. -/
def dataOk (a : Word) : Bool := decide (a.toNat + 8 ≤ 65536 ∧ a.toNat % 8 = 0)

def execCueLd (loom engine d a imm : Nat) (s : State) : Res :=
  cueRow (.cueLd loom engine d a imm) loom engine (fun y =>
    let ad := y.s a + sext 14 imm
    if dataOk ad then .ok (y.setS d (y.ld ad.toNat)).next else .trap Cause.DATA_BOUNDS ad.toNat) s
def execCueSt (loom engine d a imm : Nat) (s : State) : Res :=
  cueRow (.cueSt loom engine d a imm) loom engine (fun y =>
    let ad := y.s a + sext 14 imm
    if dataOk ad then .ok (y.st8 ad.toNat (y.s d)).next else .trap Cause.DATA_BOUNDS ad.toNat) s

/-- The flag that an instruction of the FLAG group names. -/
def Engine.flagNo (y : Engine) (a imm : Nat) : Nat := ((y.s a).toNat + imm % 256) % 256

def execCueFset (loom engine a imm : Nat) (s : State) : Res :=
  cueRow (.cueFset loom engine a imm) loom engine (fun y => .ok (y.setFlag (y.flagNo a imm) true).next) s
def execCueFclr (loom engine a imm : Nat) (s : State) : Res :=
  cueRow (.cueFclr loom engine a imm) loom engine (fun y => .ok (y.setFlag (y.flagNo a imm) false).next) s
def execCueFtest (loom engine d a imm : Nat) (s : State) : Res :=
  cueRow (.cueFtest loom engine d a imm) loom engine (fun y => .ok (y.setS d (w1 (y.flag (y.flagNo a imm)))).next) s
/-- WAITF: the engine is WAITING until the flag or F255 is 1. -/
def execCueWaitf (loom engine a imm : Nat) (s : State) : Res :=
  cueRow (.cueWaitf loom engine a imm) loom engine
    (fun y => .ok (if y.flag (y.flagNo a imm) || y.flag 255 then y.next else { y with st := 2 })) s

/-- The address `off` instructions from an engine's PC. -/
def Engine.target (y : Engine) (n off : Nat) : Nat := wrapTo 64 ((y.pc : Int) + signedOf n off)
/-- A branch. -/
def Engine.br (y : Engine) (a b off : Nat) (c : Word → Word → Bool) : Eff :=
  .ok (if c (y.s a) (y.s b) then y.go (y.target 14 off) else y.next)

def execCueBeq (loom engine a b off : Nat) (s : State) : Res :=
  cueRow (.cueBeq loom engine a b off) loom engine (fun y => y.br a b off (fun u v => u == v)) s
def execCueBne (loom engine a b off : Nat) (s : State) : Res :=
  cueRow (.cueBne loom engine a b off) loom engine (fun y => y.br a b off (fun u v => u != v)) s
def execCueBlt (loom engine a b off : Nat) (s : State) : Res :=
  cueRow (.cueBlt loom engine a b off) loom engine (fun y => y.br a b off (fun u v => u.slt v)) s
def execCueBge (loom engine a b off : Nat) (s : State) : Res :=
  cueRow (.cueBge loom engine a b off) loom engine (fun y => y.br a b off (fun u v => !u.slt v)) s
def execCueBltu (loom engine a b off : Nat) (s : State) : Res :=
  cueRow (.cueBltu loom engine a b off) loom engine (fun y => y.br a b off (fun u v => u.ult v)) s
def execCueBgeu (loom engine a b off : Nat) (s : State) : Res :=
  cueRow (.cueBgeu loom engine a b off) loom engine (fun y => y.br a b off (fun u v => !u.ult v)) s

def execCueJal (loom engine d off : Nat) (s : State) : Res :=
  cueRow (.cueJal loom engine d off) loom engine
    (fun y => .ok ((y.setS d (BitVec.ofNat 64 (y.pc + 1))).go (y.target 20 off))) s
def execCueJalr (loom engine d a imm : Nat) (s : State) : Res :=
  cueRow (.cueJalr loom engine d a imm) loom engine
    (fun y => .ok ((y.setS d (BitVec.ofNat 64 (y.pc + 1))).go (y.s a + sext 14 imm).toNat)) s

/-- A word that is no instruction traps with ILLEGAL (R180). -/
def execCueIllegal (loom engine word : Nat) (s : State) : Res :=
  cueRow (.cueIllegal loom engine word) loom engine (fun _ => .trap Cause.ILLEGAL word) s

end Sys2Proof.Machine
end

