-- ==== Sys2Proof/Machine/CueVector.lean ====
section
/-! DEFINITION. The vector and accumulator Cue instructions (R177, R178, R182, R183). -/

namespace Sys2Proof.Machine

/-! ## Elements and predicates (R177) -/

/-- Element width in bits of a width code. -/
def vWidth (w : Nat) : Nat := 8 * 2 ^ (w % 4)
/-- Number of elements of a width. -/
def vCount (w : Nat) : Nat := 512 / vWidth w
/-- Element i of width `b` bits: bits [511 − b·i : 512 − b·(i + 1)]. -/
def vElem (v : BitVec 512) (b i : Nat) : Nat := v.toNat / 2 ^ (512 - b * (i + 1)) % 2 ^ b
/-- A vector of elements of `b` bits, element 0 first. -/
def vOf (b : Nat) (l : List Nat) : BitVec 512 := BitVec.ofNat 512 (l.foldl (fun a x => a * 2 ^ b + x % 2 ^ b) 0)

/-- A VOP instruction: an element whose predicate bit is 0 keeps its old value. -/
def Engine.vop (y : Engine) (vd va vb p w : Nat) (f : Nat → Nat → Nat → Nat) : Eff :=
  let b := vWidth w
  .ok (y.setV vd (vOf b ((List.range (vCount w)).map (fun i =>
    if (y.p p).getLsbD i then f b (vElem (y.v va) b i) (vElem (y.v vb) b i) else vElem (y.v vd) b i)))).next

/-- Signed comparison of two elements of `b` bits. -/
def eltLt (b u v : Nat) : Bool := decide (signedOf b u < signedOf b v)

def execCueVadd (loom engine vd va vb p w : Nat) (s : State) : Res :=
  cueRow (.cueVadd loom engine vd va vb p w) loom engine (fun y => y.vop vd va vb p w (fun _ u v => u + v)) s
def execCueVsub (loom engine vd va vb p w : Nat) (s : State) : Res :=
  cueRow (.cueVsub loom engine vd va vb p w) loom engine (fun y => y.vop vd va vb p w (fun b u v => u + 2 ^ b - v)) s
def execCueVand (loom engine vd va vb p w : Nat) (s : State) : Res :=
  cueRow (.cueVand loom engine vd va vb p w) loom engine (fun y => y.vop vd va vb p w (fun _ u v => u &&& v)) s
def execCueVor (loom engine vd va vb p w : Nat) (s : State) : Res :=
  cueRow (.cueVor loom engine vd va vb p w) loom engine (fun y => y.vop vd va vb p w (fun _ u v => u ||| v)) s
def execCueVxor (loom engine vd va vb p w : Nat) (s : State) : Res :=
  cueRow (.cueVxor loom engine vd va vb p w) loom engine (fun y => y.vop vd va vb p w (fun _ u v => u ^^^ v)) s
def execCueVmin (loom engine vd va vb p w : Nat) (s : State) : Res :=
  cueRow (.cueVmin loom engine vd va vb p w) loom engine (fun y => y.vop vd va vb p w (fun b u v => if eltLt b u v then u else v)) s
def execCueVmax (loom engine vd va vb p w : Nat) (s : State) : Res :=
  cueRow (.cueVmax loom engine vd va vb p w) loom engine (fun y => y.vop vd va vb p w (fun b u v => if eltLt b u v then v else u)) s
def execCueVminu (loom engine vd va vb p w : Nat) (s : State) : Res :=
  cueRow (.cueVminu loom engine vd va vb p w) loom engine (fun y => y.vop vd va vb p w (fun _ u v => min u v)) s
def execCueVmaxu (loom engine vd va vb p w : Nat) (s : State) : Res :=
  cueRow (.cueVmaxu loom engine vd va vb p w) loom engine (fun y => y.vop vd va vb p w (fun _ u v => max u v)) s

/-- VSEL: p chooses between va and vb, and no other predicate applies. -/
def execCueVsel (loom engine vd va vb p w : Nat) (s : State) : Res :=
  cueRow (.cueVsel loom engine vd va vb p w) loom engine (fun y =>
    let b := vWidth w
    .ok (y.setV vd (vOf b ((List.range (vCount w)).map (fun i =>
      if (y.p p).getLsbD i then vElem (y.v va) b i else vElem (y.v vb) b i)))).next) s

/-- A comparison into a predicate: inactive elements keep their old bit, bits above the element count are 0. -/
def Engine.vcmp (y : Engine) (pd va vb p w : Nat) (c : Nat → Nat → Nat → Bool) : Eff :=
  let b := vWidth w
  .ok (y.setP pd (BitVec.ofNat 64 ((List.range (vCount w)).foldl (fun a i =>
    a + bit (if (y.p p).getLsbD i then c b (vElem (y.v va) b i) (vElem (y.v vb) b i) else (y.p pd).getLsbD i) * 2 ^ i) 0))).next

def execCueVceq (loom engine vd va vb p w : Nat) (s : State) : Res :=
  cueRow (.cueVceq loom engine vd va vb p w) loom engine (fun y => y.vcmp vd va vb p w (fun _ u v => u == v)) s
def execCueVclt (loom engine vd va vb p w : Nat) (s : State) : Res :=
  cueRow (.cueVclt loom engine vd va vb p w) loom engine (fun y => y.vcmp vd va vb p w eltLt) s
def execCueVcltu (loom engine vd va vb p w : Nat) (s : State) : Res :=
  cueRow (.cueVcltu loom engine vd va vb p w) loom engine (fun y => y.vcmp vd va vb p w (fun _ u v => decide (u < v))) s

def execCueVmov (loom engine vd va p w : Nat) (s : State) : Res :=
  cueRow (.cueVmov loom engine vd va p w) loom engine (fun y => y.vop vd va va p w (fun _ u _ => u)) s
def execCuePand (loom engine pd pa pb : Nat) (s : State) : Res :=
  cueRow (.cuePand loom engine pd pa pb) loom engine (fun y => .ok (y.setP pd (y.p pa &&& y.p pb)).next) s
def execCuePor (loom engine pd pa pb : Nat) (s : State) : Res :=
  cueRow (.cuePor loom engine pd pa pb) loom engine (fun y => .ok (y.setP pd (y.p pa ||| y.p pb)).next) s
def execCuePnot (loom engine pd pa : Nat) (s : State) : Res :=
  cueRow (.cuePnot loom engine pd pa) loom engine (fun y => .ok (y.setP pd (~~~ y.p pa)).next) s

/-! ## Tile SRAM lines, splat and extract (R182) -/

/-- Bytes of an image's tile SRAM allocation. -/
def Image.tileBytes (i : Image) : Nat := i.tileUnits * 65536

/-- A line address: inside the allocation and a multiple of 64. -/
def Image.lineOk (i : Image) (a : Word) : Bool := decide (a.toNat % 64 = 0 ∧ a.toNat + 64 ≤ i.tileBytes)

/-- S[a] + 64 × imm. -/
def Engine.line (y : Engine) (a imm : Nat) : Word := y.s a + sext 14 imm * 64

def execCueVld (loom engine vd a imm : Nat) (s : State) : Res :=
  cueRowM (.cueVld loom engine vd a imm) loom engine (fun m i y d =>
    let ad := y.line a imm
    if i.lineOk ad then
      let r := d.tileRead loom i ad.toNat 64
      r.2.setEngine loom engine (y.setV vd (BitVec.ofNat 512 (ofBytes r.1))).next
    else d.trapEngine m loom engine Cause.TILE_BOUNDS ad.toNat) s

def execCueVst (loom engine vd a imm : Nat) (s : State) : Res :=
  cueRowM (.cueVst loom engine vd a imm) loom engine (fun m i y d =>
    let ad := y.line a imm
    if i.lineOk ad then (d.progWrite loom i ad.toNat (bytesOf 64 (y.v vd).toNat)).setEngine loom engine y.next
    else d.trapEngine m loom engine Cause.TILE_BOUNDS ad.toNat) s

def execCueVsplat (loom engine vd a w : Nat) (s : State) : Res :=
  cueRow (.cueVsplat loom engine vd a w) loom engine
    (fun y => .ok (y.setV vd (vOf (vWidth w) (List.replicate (vCount w) (y.s a).toNat))).next) s

/-- VEXT: an index at or above the element count traps with ILLEGAL. -/
def execCueVext (loom engine d va idx w : Nat) (s : State) : Res :=
  cueRowM (.cueVext loom engine d va idx w) loom engine (fun m i y x =>
    x.apply m loom engine
      (if idx < vCount w then .ok (y.setS d (BitVec.ofNat 64 (vElem (y.v va) (vWidth w) idx))).next
       else .trap Cause.ILLEGAL (i.word y.pc))) s

/-! ## Long accumulators (R178, R183) -/

/-- Lanes of a register: 32 wide or 64 narrow, by FMT; FP64 in FAST takes wide lanes (R160, R178). -/
def accLanes (f : Nat) : Nat := if isWide f ∨ f = 0 then 32 else 64

/-- An arithmetic word that VACC accepts. -/
def vaccWord (a : AWord) : Bool :=
  awValid a && [1, 2, 3, 5, 6, 7].contains (AWord.op a) && (AWord.mode a == 0 || AWord.mode a == 2) && !isMx (AWord.fmt a)
  && !(AWord.fmt a == 0 && AWord.mode a == 0)

/-- Sums are kept exactly, in an exact lane (R160); else a lane holds its current value. -/
def exactAcc (a : AWord) : Bool := AWord.op a == 1 && (isInt (AWord.fmt a) || AWord.mode a == 0)

/-- One input into a lane that holds its current value. -/
def combineVal (a : AWord) (old : Option Val) (v : Val) (bits : Nat) : Val :=
  let raw : Val → Nat := fun x => match x with | .fin _ n _ => n | _ => 0
  match AWord.op a with
  | 1 => (match old with | none => toTree (AWord.fmt a) v | some o => treeAdd (AWord.fmt a) o (toTree (AWord.fmt a) v))
  | 2 => (match old with | none => v | some o => valMax true o v)
  | 3 => (match old with | none => v | some o => valMax false o v)
  | 5 => .fin false (match old with | none => bits | some o => raw o &&& bits) 0
  | 6 => .fin false (match old with | none => bits | some o => raw o ||| bits) 0
  | _ => .fin false (match old with | none => bits | some o => raw o ^^^ bits) 0

/-- One element into lane `n` of a register. -/
def LongAcc.add (x : LongAcc) (n bits : Nat) : LongAcc :=
  let v := decodeElem (AWord.fmt x.word) bits
  let l := x.lanes.get {} n
  if exactAcc x.word then { x with lanes := x.lanes.put n (l.add (lsbExp (AWord.fmt x.word) 0) v) }
  else { x with vals := x.vals.put n (combineVal x.word (x.vals.find n) v bits), lanes := x.lanes.put n { l with cnt := l.cnt + 1 } }

def execCueAclr (loom engine acc : Nat) (s : State) : Res :=
  cueRow (.cueAclr loom engine acc) loom engine
    (fun y => .ok { y with acc := y.acc.filter (fun x => x.1 ≠ acc) }.next) s

/-- VACC with the arithmetic word of S[a]. -/
def Engine.vacc (y : Engine) (iw acc : Nat) (w : AWord) (vb part p : Nat) : Eff :=
  let f := AWord.fmt w
  let b := elemBits f
  let n := 512 / b
  if !vaccWord w then .trap Cause.BAD_WORD w.toNat
  else
    let x := (y.acc.find acc).getD { word := w }
    if accLanes (AWord.fmt x.word) < (part + 1) * n then .trap Cause.ILLEGAL iw
    else if AWord.fmt x.word ≠ f ∨ AWord.op x.word ≠ AWord.op w ∨ AWord.mode x.word ≠ AWord.mode w then
      .trap Cause.ACC_CLASS (f * 2 ^ 8 + acc % 16)
    else
      let act := (List.range n).filter (fun i => (y.p p).getLsbD i)
      if act.any (fun i => decide (2 ^ 40 - 1 ≤ (x.lanes.get {} (part * n + i)).cnt)) then .trap Cause.ACC_COUNT acc
      else .ok { y with acc := y.acc.put acc (act.foldl (fun x i => x.add (part * n + i) (vElem (y.v vb) b i)) x) }.next

def execCueVacc (loom engine acc a vb part p : Nat) (s : State) : Res :=
  cueRowM (.cueVacc loom engine acc a vb part p) loom engine (fun m i y d =>
    d.apply m loom engine (y.vacc (i.word y.pc) acc ((y.s a).truncate 32) vb part p)) s

/-- The value of a lane at readout (R163). -/
def LongAcc.out (x : LongAcc) (n : Nat) : Val :=
  if exactAcc x.word then (x.lanes.get {} n).val (lsbExp (AWord.fmt x.word) 0)
  else x.vals.get (.fin false 0 0) n

/-- The tile identity that stochastic rounding takes: ENS, GROUP and OPSEQ of the op open on a channel; a free value
where the channel is not bound. -/
def Dev.chanSeed (d : Dev) (k : Nat) (i : Image) (c : Nat) : (Nat × Nat × Nat) × Dev :=
  match i.chan c with
  | some x => ((bit x.ens, x.group, match d.bind k i.prod x.ens x.group with | some b => b.cur | none => 0), d)
  | none => let (v, d) := d.freeNat; ((v / 2 ^ 30 % 2, v / 2 ^ 16 % 2 ^ 14, v % 2 ^ 16), d)

def execCueAout (loom engine vd acc b part : Nat) (s : State) : Res :=
  cueRowM (.cueAout loom engine vd acc b part) loom engine (fun m i y d =>
    match y.acc.find acc with
    | none => d.trapEngine m loom engine Cause.BAD_WORD 0
    | some x =>
      let o := AWord.ofmt x.word
      let n := 512 / elemBits o
      let arg := (y.s b).toNat
      if isMx o then d.trapEngine m loom engine Cause.BAD_WORD x.word.toNat
      else if accLanes (AWord.fmt x.word) < (part + 1) * n then d.trapEngine m loom engine Cause.ILLEGAL (i.word y.pc)
      else
        let sd := d.chanSeed loom i (arg / 2 ^ 60)
        let rs (j : Nat) : Nat := stochR sd.1.1 sd.1.2.1 sd.1.2.2 (arg / 2 ^ 20 % 2 ^ 32) (arg % 2 ^ 20 + j)
        let es := (List.range n).map (fun j =>
          if [5, 6, 7].contains (AWord.op x.word) then
            ((match x.out (part * n + j) with | .fin _ r _ => r | _ => 0), 0)
          else encodeVal o (AWord.rnd x.word) (rs j) (x.out (part * n + j)))
        (sd.2.countLoom loom C.ARITH_SAT (es.foldl (fun a e => a + e.2) 0)).setEngine loom engine
          (y.setV vd (vOf (elemBits o) (es.map (·.1)))).next) s

end Sys2Proof.Machine
end

