-- ==== Sys2Proof/Machine/CueStream.lean ====
section
/-! DEFINITION. The stream Cue instructions (R184 to R189): their issue, and STREAM_OP_DONE, which finishes one; the samples
of an engine (R193). -/

namespace Sys2Proof.Machine

/-! ## Descriptors (R185) -/

/-- Bytes of data memory. -/
def Engine.bytesAt_ (y : Engine) (a n : Nat) : List Byte := (List.range n).map (fun i => y.dmem.get 0 (a + i))

/-- The coefficient block of a descriptor: 512 bytes of data memory, 64-byte-aligned (R173, R185); of a block that is not
so, free values. -/
def Engine.coefs (y : Engine) (a : Nat) : List Byte :=
  if a % 64 = 0 ∧ a + 512 ≤ 65536 then y.bytesAt_ a 512 else (List.range 512).map (fun n => Config.coefByte (a + n))

/-- A descriptor is acceptable for a binding with `count` members: the conditions of R185, with the SLOT check of R201 for a
binding without contributions. -/
def descOk (i : Image) (ens : Bool) (group count : Nat) (e : BitVec 512) : Bool :=
  let w := dAword e
  let n := accCount w (dLen e)
  e.toNat % 2 ^ 256 == 0 && dataOf e 0 22 0 == 0 && dataOf e 2 3 0 == 0 && !bitOf w 8
  && decide (dKind e ≤ 2) && awValid w
  && ((dExpect e != 2 && dRecip e != 2) || dTpm e != 0)
  && decide (dRoot e < count ∧ dK e < count ∧ dRec0 e < count ∧ dRec1 e < count)
  && decide (resultBytes w (dLen e) (AWord.ofmt w) ≤ 65536)
  && (match i.dirOf ens group 0, i.dirOf ens group 3 with
    | some c, _ => decide (ceilDiv (64 + storageBytes w n (opMembers e count)) 64 * 64 ≤ c.slot)
    | none, some c => decide (64 + resultBytes w (dLen e) (AWord.ofmt w) ≤ c.slot)
    | none, none => true)

/-- The descriptor that OPEN or RETIRE reads at an address; none where it breaks R185. -/
def Dev.readDesc (d : Dev) (i : Image) (c : Chan) (y : Engine) (a : Nat) : Option (BitVec 512 × List Byte) :=
  if a % 64 = 0 ∧ a + 64 ≤ 65536 then
    let e := BitVec.ofNat 512 (ofBytes (y.bytesAt_ a 64))
    if descOk i c.ens c.group (d.groupCount c.ens c.group) e then
      some (e, if AWord.op (dAword e) = 8 then y.coefs (dCoef e) else [])
    else none
  else none

/-! ## Issue (R186) -/

/-- The instruction joins the stream queue: its flag clears, unless it names none; a full queue stalls the issue. -/
def Dev.streamPut (d : Dev) (k e : Nat) (y : Engine) (flag : Nat) (o : StreamOp) : Dev :=
  let y1 := if flag = 0 then y else y.setFlag flag false
  d.setEngine k e { y1.next with queue := y.queue ++ [o] }

/-- CUR of a channel's binding. -/
def Dev.curOf (d : Dev) (k : Nat) (i : Image) (c : Chan) : Nat :=
  match d.bind k i.prod c.ens c.group with | some b => b.cur | none => 0

/-- The issue of a stream instruction while the queue has room: `chk` gives a trap or the operation to queue. -/
def Dev.streamIssue (d : Dev) (m : Mem) (k e : Nat) (y : Engine) (flag : Nat) (chk : (Nat × Nat) ⊕ StreamOp) : Dev :=
  if 16 ≤ y.queue.length then d
  else match chk with
    | .inl (c, t) => d.trapEngine m k e c t
    | .inr o => d.streamPut k e y flag o

/-- The operation of an instruction word, with its operands as read at issue. -/
def Dev.streamOp (d : Dev) (k : Nat) (i : Image) (y : Engine) (c : Chan) (sa sb : Nat) : StreamOp :=
  { word := i.word y.pc, a := y.s sa, b := y.s sb, b1 := y.s (sb + 1), seq := d.curOf k i c }

/-- A channel bound in one of the directions, or the CHANNEL trap. -/
def withChan (i : Image) (ch : Nat) (dirs : List Nat) (f : Chan → (Nat × Nat) ⊕ StreamOp) : (Nat × Nat) ⊕ StreamOp :=
  match i.chan ch with
  | some c => if dirs.contains c.dir then f c else .inl (Cause.CHANNEL, ch)
  | none => .inl (Cause.CHANNEL, ch)

/-- The engine hosts a tile (R141, R186). -/
def hosts (i : Image) (y : Engine) (t : Nat) : Bool := t % max 1 i.engines == y.pos

/-- CHANNEL for a tile the engine does not host. -/
def ifHosts (i : Image) (y : Engine) (ch t : Nat) (x : (Nat × Nat) ⊕ StreamOp) : (Nat × Nat) ⊕ StreamOp :=
  if hosts i y t then x else .inl (Cause.CHANNEL, t * 16 + ch)

/-- TILE_BOUNDS for a range outside the allocation. -/
def ifRange (i : Image) (a : Word) (n : Nat) (x : (Nat × Nat) ⊕ StreamOp) : (Nat × Nat) ⊕ StreamOp :=
  if a.toNat + max 1 n ≤ i.tileBytes then x else .inl (Cause.TILE_BOUNDS, a.toNat)

def execCueOpen (loom engine ch sa : Nat) (s : State) : Res :=
  cueRowM (.cueOpen loom engine ch sa) loom engine (fun m i y d =>
    d.streamIssue m loom engine y 0 (withChan i ch [0, 1, 2, 3] (fun c =>
      match d.readDesc i c y (y.s sa).toNat with
      | none => .inl (Cause.DESC, (y.s sa).toNat)
      | some x =>
        if (match d.curDesc loom y.image i c with | some e => e == x.1 | none => true) then
          .inr { d.streamOp loom i y c sa 0 with desc := some x }
        else .inl (Cause.DESC, (y.s sa).toNat)))) s

def execCueTakeRed (loom engine ch flag sb : Nat) (s : State) : Res :=
  cueRowM (.cueTakeRed loom engine ch flag sb) loom engine (fun m i y d =>
    d.streamIssue m loom engine y flag (withChan i ch [0, 3] (fun c =>
      ifHosts i y ch (tileNo (y.s sb)) (.inr (d.streamOp loom i y c 0 sb))))) s

def execCueTake (loom engine ch flag sb : Nat) (s : State) : Res :=
  cueRowM (.cueTake loom engine ch flag sb) loom engine (fun m i y d =>
    d.streamIssue m loom engine y flag (withChan i ch [0, 3] (fun c =>
      ifHosts i y ch (tileNo (y.s sb)) (.inr (d.streamOp loom i y c 0 sb))))) s

def execCueReduceTile (loom engine ch flag sa sb v : Nat) (s : State) : Res :=
  cueRowM (.cueReduceTile loom engine ch flag sa sb v) loom engine (fun m i y d =>
    d.streamIssue m loom engine y flag (withChan i ch [0, 1, 2, 3] (fun c =>
      let e := d.curDesc loom y.image i c
      ifRange i (y.s sa) (tileArea e (d.groupCount c.ens c.group)) (ifRange i (y.s sb) (tileIn e) (.inr (d.streamOp loom i y c sa sb)))))) s

def execCueRoundTile (loom engine ch flag sa sb v : Nat) (s : State) : Res :=
  cueRowM (.cueRoundTile loom engine ch flag sa sb v) loom engine (fun m i y d =>
    d.streamIssue m loom engine y flag (withChan i ch [0, 1, 2, 3] (fun c =>
      let e := d.curDesc loom y.image i c
      ifRange i (y.s sa) (tileOut e v) (ifRange i (y.s sb) (tileArea e (d.groupCount c.ens c.group)) (.inr (d.streamOp loom i y c sa sb)))))) s

def execCueGive (loom engine ch flag sa sb : Nat) (s : State) : Res :=
  cueRowM (.cueGive loom engine ch flag sa sb) loom engine (fun m i y d =>
    d.streamIssue m loom engine y flag (withChan i ch [1, 2] (fun c =>
      let e := d.curDesc loom y.image i c
      ifHosts i y ch (tileNo (y.s sb)) (ifRange i (y.s sa) (if c.dir = 1 then tileOut e 0 else tileIn e)
        (.inr (d.streamOp loom i y c sa sb)))))) s

def execCueExchange (loom engine ch flag out : Nat) (s : State) : Res :=
  cueRowM (.cueExchange loom engine ch flag out) loom engine (fun m i y d =>
    d.streamIssue m loom engine y flag (withChan i ch [0] (fun c => withChan i out [1] (fun _ =>
      .inr (d.streamOp loom i y c 0 0))))) s

def execCueSyncCollect (loom engine ch flag : Nat) (s : State) : Res :=
  cueRowM (.cueSyncCollect loom engine ch flag) loom engine (fun m i y d =>
    d.streamIssue m loom engine y flag (withChan i ch [0] (fun c => .inr (d.streamOp loom i y c 0 0)))) s
def execCueSyncArrive (loom engine ch flag : Nat) (s : State) : Res :=
  cueRowM (.cueSyncArrive loom engine ch flag) loom engine (fun m i y d =>
    d.streamIssue m loom engine y flag (withChan i ch [2] (fun c => .inr (d.streamOp loom i y c 0 0)))) s
def execCueSyncRelease (loom engine ch flag : Nat) (s : State) : Res :=
  cueRowM (.cueSyncRelease loom engine ch flag) loom engine (fun m i y d =>
    d.streamIssue m loom engine y flag (withChan i ch [1] (fun c => .inr (d.streamOp loom i y c 0 0)))) s
def execCueSyncAwait (loom engine ch flag : Nat) (s : State) : Res :=
  cueRowM (.cueSyncAwait loom engine ch flag) loom engine (fun m i y d =>
    d.streamIssue m loom engine y flag (withChan i ch [3] (fun c => .inr (d.streamOp loom i y c 0 0)))) s

/-- The lowest open tile of a binding that an engine hosts. -/
def openHosted (i : Image) (y : Engine) (b : Bind) : Option Nat :=
  ((b.tiles.map (·.tile)).filter (hosts i y)).min?

def execCueRetire (loom engine ch flag sa : Nat) (s : State) : Res :=
  cueRowM (.cueRetire loom engine ch flag sa) loom engine (fun m i y d =>
    d.streamIssue m loom engine y flag (withChan i ch [0, 1, 2, 3] (fun c =>
      match (d.bind loom i.prod c.ens c.group).bind (openHosted i y) with
      | some t => .inl (Cause.RETIRE_OPEN, t)
      | none =>
        if sa = 0 then .inr (d.streamOp loom i y c sa 0)
        else match d.readDesc i c y (y.s sa).toNat with
          | none => .inl (Cause.DESC, (y.s sa).toNat)
          | some x => .inr { d.streamOp loom i y c sa 0 with desc := some x }))) s

def execCueAbandon (loom engine ch flag : Nat) (s : State) : Res :=
  cueRowM (.cueAbandon loom engine ch flag) loom engine (fun m i y d =>
    d.streamIssue m loom engine y flag (withChan i ch [0, 1, 2, 3] (fun c => .inr (d.streamOp loom i y c 0 0)))) s

/-- A BOLT transfer's range: inside the Bolt region, a multiple of 64 bytes up to 1 MiB. -/
def Image.boltOk (i : Image) (off n : Nat) : Bool := decide (n % 64 = 0 ∧ n ≤ 2 ^ 20 ∧ off + n ≤ i.boltBytes)

/-- The checks of a BOLT instruction. -/
def boltChk (i : Image) (y : Engine) (sa sb : Nat) : (Nat × Nat) ⊕ StreamOp :=
  let o : StreamOp := { word := i.word y.pc, a := y.s sa, b := y.s sb, b1 := y.s (sb + 1) }
  ifRange i o.a o.b1.toNat (if i.boltOk o.b.toNat o.b1.toNat then .inr o else .inl (Cause.BOLT_BOUNDS, o.b.toNat))

def execCueBoltFetch (loom engine flag sa sb : Nat) (s : State) : Res :=
  cueRowM (.cueBoltFetch loom engine flag sa sb) loom engine (fun m i y d =>
    d.streamIssue m loom engine y flag (boltChk i y sa sb)) s
def execCueBoltStash (loom engine flag sa sb : Nat) (s : State) : Res :=
  cueRowM (.cueBoltStash loom engine flag sa sb) loom engine (fun m i y d =>
    d.streamIssue m loom engine y flag (boltChk i y sa sb)) s

/-- STREAM_OP_DONE (R186 to R189): the operation at place `idx` of an engine's queue finishes, where it runs and may. -/
def execStreamOpDone (loom engine idx : Nat) (s : State) : Res :=
  ifUnit (decide (loom < 4 ∧ engine < 68)) <| onBoth s fun (d, m) =>
    let y := d.engine loom engine
    match d.engImage loom engine, y.queue[idx]? with
    | some i, some o =>
      let d := d.noteRetires loom y.image i
      if d.siteUp (loomSite loom) && d.opRuns loom y.image i y.queue idx && d.opReady loom engine i o then
        let x := d.runOp m loom engine i idx o
        if x.2.2 ≠ St.OK ∧ (x.1.engine loom engine).live then (x.1.trapEngine x.2.1 loom engine Cause.BOLT_ERR x.2.2, x.2.1)
        else (x.1, x.2.1)
      else (d, m)
    | _, _ => (d, m)

/-! ## Sampling (R193, R347) -/

/-- Bytes of the sample ring, and its offset in the counter buffer. -/
def sampleRing : Nat := 0x10000000
def sampleBase : Nat := 0x10000000 + 0x30000000

/-- The sampling periods of an engine that have run out by now: where the last of them did, in instructions or in ns of
network time (R193). -/
def Engine.runOut (y : Engine) (byTime : Bool) (per now : Nat) : Engine :=
  let e := if byTime then (now + 2 ^ 64 - y.sampleT) % 2 ^ 64 else y.issued - y.sampleAt
  let n := e / per * per
  if e < per then y
  else if byTime then { y with sampleT := (y.sampleT + n) % 2 ^ 64, dueAt := some y.issued }
  else { y with sampleAt := y.sampleAt + n, dueAt := some (y.sampleAt + n) }

/-- PERIOD of a Loom; values below 1,000 act as 1,000. -/
def Dev.samplePer (d : Dev) (k : Nat) : Nat := max 1000 (d.fld F.CUE_SAMPLE_CTL_PERIOD k)

/-- The engine waits for a flag, or its next instruction stalls on the stream queue (R181, R186, R193). -/
def Engine.stalled (y : Engine) (i : Image) : Bool :=
  let w := i.word y.pc
  y.st == 2 || (match cueDecode 0 0 w with
    | .cueEnd _ _ | .cueSwait _ _ => !y.queue.isEmpty
    | _ => decide (0x30 ≤ w / 2 ^ 26 ∧ w / 2 ^ 26 ≤ 0x3A ∧ 16 ≤ y.queue.length))

/-- A sample record (R193). -/
def Dev.sampleRec (d : Dev) (k e : Nat) (y : Engine) (skid : Nat) : List Byte :=
  bytesOf 8 d.timeNs
    ++ bytesOf 8 (y.prod * 2 ^ 52 + y.image * 2 ^ 44 + e * 2 ^ 37 + k * 2 ^ 35 + y.pc % 65536)
    ++ bytesOf 8 (skid * 2 ^ 62 + y.st * 2 ^ 58 + y.queue.length * 2 ^ 53) ++ bytesOf 8 y.issued

/-- The samples of a Loom take in an engine: it runs and passes the filter (R193). -/
def Dev.sampled (d : Dev) (k : Nat) (y : Engine) : Bool :=
  d.flag F.CUE_SAMPLE_CTL_EN k && y.live && d.siteUp (loomSite k)
    && (!d.flag F.CUE_SAMPLE_CTL_PROD_EN k || d.fld F.CUE_SAMPLE_CTL_PROD k == y.prod)

/-- CUE_SAMPLE (R193, R347): an engine whose period has run out writes a sample to the ring, or counts it lost: within 3
instructions of the one during which it ran out, or at once while it stalls. -/
def execCueSample (loom engine : Nat) (s : State) : Res :=
  ifUnit (decide (loom < 4 ∧ engine < 68)) <| onBoth s fun (d, m) =>
    let y := (d.engine loom engine).runOut (d.flag F.CUE_SAMPLE_CTL_MODE loom) (d.samplePer loom) d.timeNs
    match d.engImage loom engine, y.dueAt with
    | some i, some n =>
      let stall := y.stalled i
      if d.sampled loom y && (stall || decide (y.issued ≤ n + 3)) then
        let d := d.setEngine loom engine { y with dueAt := none }
        let wp := d.fld F.CNT_SMP_WP_PTR 0
        let nx := (wp + 32) % sampleRing
        if nx = d.fld F.CNT_SMP_RP_PTR 0 then (d.countLoom loom C.SAMPLE_LOST 1, m)
        else (d.setFld F.CNT_SMP_WP_PTR 0 nx).carveSave m 1 (sampleBase + wp)
          (d.sampleRec loom engine y (if stall then 0 else y.issued - n))
      else (d, m)
    | _, _ => (d, m)

end Sys2Proof.Machine
end

