-- ==== Sys2Proof/Machine/Repairs.lean ====
section
/-! DEFINITION. Measurement registers and their extension (R313, R314), and the repair overlay (R295, R296). -/

namespace Sys2Proof.Machine

/-- SEC_MEASn, 384 bits. -/
def Dev.meas (d : Dev) (n : Nat) : BitVec 384 :=
  BitVec.ofNat 384 ((List.range 6).foldl (fun a w => a * 2 ^ 64 + (d.rd .SEC_MEAS (6 * n + w)).toNat) 0)

/-- M ← SHA-384(M ∥ D) (R314). -/
def Dev.extend (d : Dev) (n : Nat) (dig : BitVec 384) : Dev :=
  let x := sha384 (bytesOf 48 (d.meas n).toNat ++ bytesOf 48 dig.toNat)
  d.each (List.range 6) (fun d w => d.wr .SEC_MEAS (6 * n + w) (BitVec.ofNat 64 (bitsOf x (383 - 64 * w) (320 - 64 * w))))

/-- An event that SEC_MEAS6 records (R314): its type, level or bank, owner slot and MINUTES. -/
def Dev.extendEvent (d : Dev) (ty lvl slot minutes : Nat) : Dev :=
  d.extend 6 (sha384 ([BitVec.ofNat 8 ty, BitVec.ofNat 8 lvl, BitVec.ofNat 8 slot] ++ bytesOf 2 minutes ++ List.replicate 3 0
    ++ bytesOf 4 (d.timeNs % 2 ^ 32) ++ List.replicate 4 0))

/-- The overlay entry of a repair extends SEC_MEAS4 (R296). -/
def Dev.extendRepair (d : Dev) (r : Repair) : Dev := d.extend 4 (Config.overlayDigest r.kind r.site r.unit r.spare r.time)

/-- A repair is made: written to the overlay and measured, or raised as unrecorded, and raised as REPAIR (R295, R296).
SOURCE is the site repaired. Before the firmware is verified the start measures the overlay with the fused map (R313). -/
def Dev.repaired (d : Dev) (kind site unit spare : Nat) : Dev :=
  let r : Repair := ⟨kind, site, unit, spare, d.timeNs % 2 ^ 32⟩
  let data := (Config.repairData kind site unit).toNat
  let d := if d.overlay.length < 1024 then
      let d := { d with overlay := d.overlay ++ [r] }
      if d.fld F.SEC_STATE_SECURITY 0 = 0 then d else d.extendRepair r
    else d.notice N.REPAIR_UNRECORDED (Src.die site) 0 data
  d.notice N.REPAIR (Src.die site) 0 data

/-- A trigger that finds no spare left (R295). -/
def Dev.exhausted (d : Dev) (kind site unit : Nat) : Dev :=
  d.notice N.REPAIR_EXHAUSTED (Src.die site) 0 (Config.repairData kind site unit).toNat

end Sys2Proof.Machine
end

