-- ==== Sys2Proof/Machine/Loader.lean ====
section
/-! DEFINITION. The Cue loader (R194 to R205): admission, active sets, understudy engines and restoration. -/

namespace Sys2Proof.Machine

/-! ## Reservations (R199) -/

/-- Reservations summed over productions. -/
def reservedAll (l : List Image) (f : Image → Nat) : Nat :=
  ((l.map (·.prod)).dedup).foldl (fun a p => a + reserved l p f) 0

/-- Engines in service: neither FAULTED nor SPARE (R204). -/
def Loom.inService (x : Loom) : Nat := (List.range 68).countP (fun e => (x.engine e).st != 6 && (x.engine e).st != 7)

/-- A rate an image reserves on a lane (R199). -/
def Image.rateOn (i : Image) (lane : Nat) : Nat := i.rates.foldl (fun a r => if r.1 = lane then a + r.2 else a) 0

/-- A production's reservation on a lane: over the Looms, the largest total of any of its sets. -/
def laneReserved (looms : NMap Loom) (prod lane : Nat) : Nat :=
  looms.foldl (fun a x => a + reserved x.2.imgs prod (fun i => i.rateOn lane)) 0

/-- W of a group's binding: its inbound channel's (R195). -/
def Image.window (i : Image) (c : Chan) : Nat := match i.inbound c.ens c.group with | some x => x.wm1 + 1 | none => 1

/-- The least CELLS of an image: 16 for the other packets of each outbound channel, as the CELLS row of R205's program counts
them (R199). -/
def Image.minCells (i : Image) : Nat :=
  i.chans.foldl (fun a c => if c.2.dir = 1 ∨ c.2.dir = 2 then a + i.window c.2 * 18 * ceilDiv (64 * c.2.tileMax) 4096 + 16 else a) 0

/-- COLL_RATE of a lane follows the reservations (R133, R199): what is whole stays whole, what is cut is computed again. -/
def Dev.reserveLane (d : Dev) (prod lane : Nat) : Dev :=
  let p := d.port lane
  let was := p.coll.get 0 prod
  let new := laneReserved d.looms prod lane
  if was = new then d
  else
    let g := p.collGr.get 0 prod
    let broken := d.breached lane
    let d := d.bRerate lane [.coll] (fun d =>
      let d := d.modPort lane (fun p => { p with
        coll := p.coll.putD 0 prod new
        collGr := p.collGr.putD 0 prod (if g = was then new else min g new) })
      d.setFld F.PRT_SCHED_COLL_RATE lane ((d.port lane).coll.foldl (fun a x => a + x.2) 0))
    let d := (d.recommit lane).guaranteeMove prod 3 0 0 lane g was ((d.port lane).collGr.get 0 prod) new
    if broken then d.recomputePort lane else d

/-- What a Loom can reduce now, in GB/s as a fraction (R134, R199): nothing while it does not run; LOOM_RATE sixteenths
of it under the governor, slowed by the factor of its own replica paths at the steps that slow it (R304 to R306), and no more than its seam
link carries: 12.8 TB/s × bundles ÷ 128 while DEGRADED (R32). -/
def Dev.loomCap (d : Dev) (k : Nat) : Nat × Nat :=
  if !d.siteUp (loomSite k) then (0, 1)
  else
    let base := 200 * (d.loom k).inService * d.fld F.PWR_GOV_LOOM_RATE 0
    let f := (d.pwr.loomFactor.find k).getD (d.fld F.PWR_GOV_FACTOR 0)
    let gov := if 6 ≤ d.fld F.PWR_GOV_STEP 0 ∧ f ≠ 0 then (base * 1024, 16 * f) else (base, 16)
    if d.seamState (loomSite k) = 4 then minFrac gov (100 * d.fld F.GLB_SEAM_STAT_BUNDLES_UP (loomSite k), 1) else gov

/-- GRANTED of every image reservation on a Loom (R134, R135). -/
def Dev.recomputeLoom (d : Dev) (k : Nat) : Dev :=
  let x := d.loom k
  let l := x.imgs
  let ps := ((l.map (·.prod)).dedup).map (fun p => (p, reserved l p Image.redRate))
  let can := ps.map (fun q => (q.1, reserved (l.filter (fun i => !i.lack)) q.1 Image.redRate))
  let (n, dn) := d.loomCap k
  let cut := cutShare ps n dn
  let gs := can.map (fun q => (q.1, min q.2 ((cut.find? (fun y => y.1 == q.1)).elim 0 (·.2))))
  let d := d.modLoom k (fun x => { x with grants := gs.foldl (fun a q =>
    if q.2 < (ps.find? (fun y => y.1 == q.1)).elim 0 (·.2) then a.put q.1 q.2 else a) [] })
  d.each gs (fun d q =>
    let full := (ps.find? (fun y => y.1 == q.1)).elim 0 (·.2)
    let was := (x.grants.find q.1).getD full
    if was < full ∧ full ≤ q.2 then d.guarantee N.GUARANTEE_RESTORED q.1 3 0 1 k (80 * q.2) (80 * full)
    else if full ≤ was ∧ q.2 < full then d.guarantee N.GUARANTEE_BREACH q.1 3 0 1 k (80 * q.2) (80 * full)
    else d)

/-- Reservations of a production after its images changed: cells and lanes. -/
def Dev.reserveAll (d : Dev) (k prod : Nat) (lanes : List Nat) : Dev :=
  let d := d.setFld F.WRD_COLL_POOL_ADMITTED 0 (d.looms.foldl (fun a x => a + reservedAll x.2.imgs Image.cells) 0)
  let d := d.each lanes.dedup (fun d l => d.reserveLane prod l)
  let full := reserved (d.loom k).imgs prod Image.redRate
  match (d.loom k).grants.find prod with
  | none => d
  | some g =>
    let d := d.modLoom k (fun x => { x with grants := if g < full then x.grants.put prod g else x.grants.erase prod })
    if full ≤ g ∧ 0 < full then d.guarantee N.GUARANTEE_RESTORED prod 3 0 1 k (80 * full) (80 * full) else d

/-! ## The checks of LOAD (R198) -/

/-- VL of a channel direction (R184). -/
def dirVl (dir : Nat) : Nat := if dir = 0 ∨ dir = 2 then 3 else 4

/-- FORMAT: magic, version, reserved fields and lengths (R194). -/
def Image.formatOk (i : Image) : Bool :=
  let zero (off n : Nat) : Bool := i.nat off n == 0
  i.nat 0 4 == 0x43554531 && i.nat 4 2 == 1 && decide (i.nat 6 1 ≤ 1) && zero 7 1 && decide (i.nat 8 2 < 4096)
  && decide (1 ≤ i.engines ∧ i.engines ≤ 64 ∧ 1 ≤ i.codeWords ∧ i.codeWords ≤ 65536)
  && decide (i.dataBytes ≤ 65536 ∧ i.dataBytes % 8 = 0 ∧ i.nat 22 1 ≤ 16)
  && zero 23 1 && decide (i.tileUnits ≤ 1536 ∧ i.boltBytes % 65536 = 0) && zero 48 40 && zero 88 40
  && i.nat 22 1 == i.chans.length
  && (List.range 16).all (fun c =>
    let o := 128 + 32 * c
    i.nat o 1 % 2 == 0 && decide (i.nat (o + 1) 2 < 2 ^ 14) && decide (i.nat (o + 16) 3 < 2 ^ 18) && zero (o + 19) 13)

/-- Length of an image, by its header. -/
def Image.length (i : Image) : Nat := 640 + 4 * i.codeWords + i.dataBytes + 96

/-- SIGNATURE: ECDSA P-384 over what comes before it, by the production's owner key or the Charex key (R196, R315). -/
def Dev.signed (d : Dev) (i : Image) : Bool :=
  let n := i.bytes.length - 96
  let key := if i.nat 6 1 = 0 then d.keys.find (i.nat 8 2) else if d.sec.library then some Config.charexKey else none
  match key with
  | some key => ecdsaVerify key (sha384 (i.bytes.take n)) (i.nat n 48) (i.nat (n + 48) 48)
  | none => false

/-- CHANNELS: every VALID entry keeps R195. -/
def Image.channelsOk (i : Image) : Bool :=
  i.chans.all (fun (n, c) =>
    let inb := c.dir == 0 || c.dir == 3
    c.vl == dirVl c.dir && (!c.ens || decide (c.group < 64))
    && (if inb then decide (c.accBase % 64 = 0 ∧ c.slot % 64 = 0 ∧ 128 ≤ c.slot) else decide (1 ≤ c.tileMax ∧ c.tileMax ≤ 1024))
    && !(i.chans.any (fun (k, e) => k != n && e.ens == c.ens && e.group == c.group && e.dir == c.dir))
    && (c.dir != 1 || (i.dirOf c.ens c.group 0).isSome) && (c.dir != 3 || (i.dirOf c.ens c.group 2).isSome))

/-- GROUP: the groups of an image suit it and this Loom. -/
def Dev.groupsOk (d : Dev) (m : Mem) (k : Nat) (i : Image) : Bool :=
  i.chans.all (fun (_, c) =>
    d.groupValid c.ens c.group && d.groupLoom c.ens c.group k
    && (c.ens || (match d.ent 4 c.group with | some e => castProd e == i.prod && castGen e == i.gen | none => false))
    && (c.dir != 2 || d.groupCa m c.ens c.group c.member == some (d.ownFn (0x10 + k)).toNat))

/-- BINDING: no other image of the set binds a group of this one, and those of other sets do with the same W. -/
def bindingOk (l : List Image) (i : Image) : Bool :=
  i.chans.all (fun (_, c) => l.all (fun j => j.prod != i.prod ||
    (if j.set = i.set then !j.binds c.ens c.group
     else match i.inbound c.ens c.group, j.inbound c.ens c.group with
      | some a, some b => a.wm1 == b.wm1
      | _, _ => true)))

/-- The slot rings of an image: start and length. -/
def Image.rings (i : Image) : List (Nat × Nat) :=
  i.chans.filterMap (fun (_, c) => if c.dir = 0 ∨ c.dir = 3 then some (c.accBase, (c.wm1 + 1) * c.slot) else none)

/-- LAYOUT: every ring lies in the allocation, and no two overlap. -/
def Image.layoutOk (i : Image) : Bool :=
  i.rings.all (fun r => decide (r.1 + r.2 ≤ i.tileUnits * 65536))
  && (i.rings.zipIdx.all (fun (r, a) => i.rings.zipIdx.all (fun (q, b) => a == b || decide (r.1 + r.2 ≤ q.1 ∨ q.1 + q.2 ≤ r.1))))

/-- The lanes of the routes from this device to a CA (R62, R199). -/
def Dev.routeLanes (d : Dev) (prod ca : Nat) : List Nat :=
  if ca / 256 = d.ownCa / 256 then []
  else match (d.routeSet { id := 0, hdr := mkHdr (BitVec.ofNat 32 ca) 0 prod 0 0 0 0, rw := 0, vl := 4, pay := 0, inl := 1024 }).1 with
    | .inl (s, _) => (d.members s).1.flatMap (·.2)
    | .inr _ => []

/-- LINK_RATE of the outbound channels, split evenly over the lanes of the routes to the binding's recipients. -/
def Dev.imageRates (d : Dev) (m : Mem) (i : Image) : List (Nat × Nat) :=
  i.chans.flatMap (fun (_, c) =>
    let to_ := if c.dir = 1 then (List.range (d.groupCount c.ens c.group)).filterMap (fun n => d.groupCa m c.ens c.group n)
      else if c.dir = 2 then [Config.upperHost i.prod c.ens c.group] else []
    let ls := (to_.flatMap (fun ca => d.routeLanes i.prod ca)).dedup
    ls.map (fun l => (l, ceilDiv c.linkRate ls.length)))

/-- An image's Bolt region through the swatch entries of its production that target this device's Bolt memory: offset,
length and local address of each part; none where some of it lies outside them (R198, R199). -/
def Dev.boltParts (d : Dev) (prod fa : Nat) : Nat → Nat → Nat → Option (List (Nat × Nat × Nat))
  | 0, off, n => if off = n then some [] else none
  | fuel + 1, off, n =>
    if off = n then some []
    else
      let a := fa + off
      match (d.entries 3).find? (fun x => swProd x.2 == prod && swTarget x.2 == (d.ownFn 1).toNat
          && decide (swBase x.2 ≤ a / 4096 ∧ a / 4096 ≤ swLimit x.2)) with
      | none => none
      | some x =>
        let len := min (n - off) ((swLimit x.2 + 1) * 4096 - a)
        (d.boltParts prod fa fuel (off + len) n).map (fun l => (off, len, swLocal x.2 * 4096 + (a - swBase x.2 * 4096)) :: l)

/-- The staged image at CUE_LDR_SRC: inside Loom k's part of the staging region, 64-byte-aligned (R223). -/
def Dev.staging (d : Dev) (m : Mem) (k n : Nat) : Option (Option (List Byte)) :=
  let a := d.fld F.CUE_LDR_SRC_ADDR k
  match houseRegion a (max 1 n) false false with
  | some (1, off) =>
    if 0x4000000 * k ≤ off ∧ off + n ≤ 0x4000000 * (k + 1) ∧ a % 64 = 0 then some (d.carveRead m 1 off n) else none
  | _ => none

/-- The lowest free resident slot. -/
def Loom.freeSlot (x : Loom) : Option Nat := firstBelow 256 (fun n => (x.images.find n).isNone)

/-- The tile SRAM part in which an image's allocation starts: one that no other image of its set has (R175, R199). -/
def tileBank (l : List Image) (i : Image) : Nat :=
  let mates := l.filter (fun j => j.prod == i.prod && j.set == i.set)
  (firstBelow 256 (fun n => mates.all (fun j => j.bank != n))).getD 0

/-- The checks from 3 on, in the order of R198: the REASON of the first that fails. -/
def Dev.admission (d : Dev) (m : Mem) (k prod : Nat) (i : Image) : Nat :=
  let x := d.loom k
  let l := x.imgs
  let l' := l ++ [i]
  let checks : List (Nat × (Unit → Bool)) :=
    [(3, fun _ => d.signed i),
     (4, fun _ => i.nat 8 2 == prod && d.fld F.GLB_PROD_STATE prod == 1 && d.fld F.GLB_PROD_GEN prod == i.gen),
     (5, fun _ => x.freeSlot.isSome),
     (6, fun _ => decide (l'.foldl (fun a j => a + 4 * j.codeWords + j.dataBytes) 0 ≤ 33554432)),
     (7, fun _ => i.channelsOk),
     (8, fun _ => d.groupsOk m k i),
     (9, fun _ => bindingOk l i),
     (10, fun _ => i.layoutOk),
     (11, fun _ => decide (reservedAll l' Image.engines ≤ x.inService)),
     (12, fun _ => decide (reservedAll l' Image.tileUnits ≤ 1536)),
     (13, fun _ => decide (i.minCells ≤ i.cells) && decide (d.fld F.WRD_COLL_POOL_ADMITTED 0 + reservedAll l' Image.cells
        - reservedAll l Image.cells ≤ d.fld F.WRD_COLL_POOL_POOL 0)),
     (14, fun _ => ((i.rates.map (·.1)).dedup).all (fun lane =>
        let was := laneReserved d.looms prod lane
        let new := laneReserved ((d.looms.erase k).put k { x with images := x.images.put 256 i }) prod lane
        decide (new ≤ was) || (!d.breached lane && d.commitsFit lane (d.commits lane) (d.fld F.PRT_SCHED_VL7_RATE lane)
          (d.fld F.PRT_SCHED_COLL_RATE lane + new - was) (d.port lane).order))),
     (15, fun _ => decide (reservedAll l' Image.redRate ≤ 200 * x.inService)),
     (16, fun _ => i.boltBytes == 0 || (d.boltParts prod i.boltFa 32769 0 i.boltBytes).isSome)]
  (checks.findSome? (fun c => if c.2 () then none else some c.1)).getD 0

/-- Bindings of an image that do not exist yet come into being with CUR 0 (R200). -/
def Dev.makeBinds (d : Dev) (k : Nat) (i : Image) : Dev :=
  d.each i.chans (fun d (_, c) =>
    if (d.bind k i.prod c.ens c.group).isSome then d
    else d.modLoom k (fun x => { x with binds := x.binds ++ [{ prod := i.prod, ens := c.ens, group := c.group }] }))

/-- Bindings that no resident image binds any more end (R200). -/
def Dev.dropBinds (d : Dev) (k : Nat) : Dev :=
  d.modLoom k (fun x => { x with binds := x.binds.filter (fun b => x.imgs.any (fun i => i.prod == b.prod && i.binds b.ens b.group)) })

/-- Where the copy of a resident image begins, as an offset of the staging region: inside its Loom's part (R197, R223). -/
def stagingOff (k : Nat) (i : Image) : Nat := 0x4000000 * k + i.copyAt

/-- `n` bytes from `a` lie in a Loom's part of the staging region, apart from some copies there. -/
def clearCopy (l : List Image) (a n : Nat) : Bool :=
  decide (a + n ≤ 0x4000000) && l.all (fun i => decide (a + n ≤ i.copyAt ∨ i.copyAt + i.bytes.length ≤ a))

/-- Where the copy of an image of `n` bytes goes, apart from the copies of the others: a place of the loader's own choice (log
234), or the lowest that is clear. -/
def copyPlace (l : List Image) (slot n : Nat) : Option Nat :=
  (Config.stagingAt slot % (0x4000000 - n + 1) :: 0 :: l.map (fun i => i.copyAt + i.bytes.length)).find? (fun a => clearCopy l a n)

/-- LOAD: REASON and slot, and the device with the image resident (R197 to R200). -/
def Dev.load (d : Dev) (m : Mem) (k prod set : Nat) : Nat × Nat × Dev :=
  let read (d : Dev) (n : Nat) : Dev := d.carveReadCount 1 (d.fld F.CUE_LDR_SRC_ADDR k % stackSize - stackOpen) n
  match d.staging m k 640 with
  | none => (1, 0, d)
  | some none => (2, 0, d)
  | some (some hd) =>
    let h : Image := { set := set, prod := prod, gen := 0, bytes := hd, sha := 0 }
    let d := read d 640
    if !h.formatOk then (1, 0, d)
    else match d.staging m k h.length with
      | none => (1, 0, d)
      | some none => (2, 0, d)
      | some (some bs) =>
        let i0 : Image := { set := set, prod := prod, gen := h.nat 10 1, bytes := bs, sha := sha384 bs }
        let i1 : Image := { i0 with rates := d.imageRates m i0, bank := tileBank (d.loom k).imgs i0 }
        let i : Image := { i1 with bolt := (d.boltParts prod i1.boltFa 32769 0 i1.boltBytes).getD [] }
        let d := (read d (h.length - 640)).each i.chans (fun d c => d.meetCast c.2.ens c.2.group)
        match d.admission m k prod i, (d.loom k).freeSlot with
        | 0, some slot =>
          let d := (d.modLoom k (fun x => { x with images := x.images.put slot i })).makeBinds k i
          (0, slot, d.reserveAll k prod (i.rates.map (·.1)))
        | r, _ => (r, 0, d)

/-- A resident image is removed, and its reservations fall to the new maxima (R199, R200). -/
def Dev.unload (d : Dev) (k slot : Nat) : Dev :=
  match (d.loom k).images.find slot with
  | none => d
  | some i =>
    ((d.modLoom k (fun x => { x with images := x.images.erase slot })).dropBinds k).reserveAll k i.prod (i.rates.map (·.1))

/-! ## The command registers (R197) -/

/-- The launcher CA of a LIVE production (R330). -/
def Dev.launcherM (d : Dev) (m : Master) (prod : Nat) : Bool :=
  match m with
  | .inband ca => d.fld F.GLB_PROD_STATE prod == 1 && bitsOf (BitVec.ofNat 32 (d.fld F.GLB_PROD_LAUNCHER prod)) 31 8 == bitsOf ca 31 8
  | _ => true

/-- Verified Loom microcode is loaded: before that the engines and reduction units of every Loom are halted (R315). -/
def Dev.loomLoaded (d : Dev) : Bool := d.sec.loomFw && decide (6 ≤ d.fld F.GLB_START_PHASE 0)

/-- A write of a loader register that cannot take effect: the status it ends with, or the discard of R197. -/
def Dev.ldrAccess (d : Dev) (m : Master) (k : Nat) (ok : Bool) (f : Dev → Dev) : Nat × Dev :=
  if !d.prompter then (St.UNSUPPORTED, d)
  else if !d.siteUp (loomSite k) ∨ !d.loomLoaded then (St.UNSUPPORTED, d)
  else if !(d.houseM m || ok) then (St.DENIED, d)
  else if d.flag F.CUE_LDR_STAT_BUSY k then (St.OK, (d.setFld F.CUE_LDR_STAT_OVERRUN k 1).countLoom k C.CUE_LDR_OVERRUN 1)
  else (St.OK, f d)

/-- Images of a production's active set whose engines run or have run, or stand STOPPED for want of an engine. -/
def Loom.outgoing (x : Loom) (prod : Nat) : List (Nat × Image) :=
  match x.active.find prod with
  | none => []
  | some set => x.images.filter (fun i => i.2.prod == prod && i.2.set == set && (i.2.started || i.2.lack))

/-- The first step of ACTIVATE and STOP (R202): bindings stop accepting; engines are asked to stop, or stopped. -/
def Dev.ldrStop (d : Dev) (m : Mem) (k prod : Nat) (force : Bool) : Dev :=
  let d := d.modLoom k (fun x => { x with closed := x.closed ++ [prod] })
  d.each ((d.loom k).outgoing prod) (fun d s =>
    let d := d.each ((d.loom k).engsOf s.1) (fun d e =>
      if (d.engine k e).live then d.modEngine k e (fun y =>
        if force then { y with st := 5 } else { y with flags := setBits y.flags 255 255 1, stopAt := some d.tmu.total }) else d)
    if force then d.abandonImage m k s.2 else d)

/-- A write of CUE_LDR_CMD (R197, R202). -/
def Dev.wrLdrCmd (d : Dev) (mem : Mem) (m : Master) (k : Nat) (w : Word) : Nat × Dev :=
  let prod := fldOf F.CUE_LDR_CMD_PROD w
  let op := fldOf F.CUE_LDR_CMD_OP w
  d.ldrAccess m k (d.launcherM m prod) fun d =>
    if op = 0 then d
    else
      let d := d.setFld F.CUE_LDR_STAT_BUSY k 1
      let d := d.modLoom k (fun x => { x with ldr := some { cmd := w, result := if 4 < op then some (St.UNSUPPORTED, 0, 0) else none } })
      if op = 3 ∨ op = 4 then d.ldrStop mem k prod (fldOf F.CUE_LDR_CMD_FORCE w == 1) else d

/-- A loader command: the write of CUE_LDR_CMD with the row's OP, and its completion. -/
def ldrRow (m : Master) (loom : Nat) (data : Word) (op : Nat) (s : State) : Res :=
  ifUnit (decide (loom < 4)) <| onDevM s fun mem d =>
    let x := d.wrLdrCmd mem m loom (setBits data 63 60 op)
    (x.2.emitOut (.reg x.1 0)).settle

/-- LOAD (R197, R198). -/
def execLdrLoad (m : Master) (loom : Nat) (data : Word) (s : State) : Res := ldrRow m loom data 1 s
/-- UNLOAD (R197, R199). -/
def execLdrUnload (m : Master) (loom : Nat) (data : Word) (s : State) : Res := ldrRow m loom data 2 s
/-- ACTIVATE (R202). -/
def execLdrActivate (m : Master) (loom : Nat) (data : Word) (s : State) : Res := ldrRow m loom data 3 s
/-- STOP (R202). -/
def execLdrStop (m : Master) (loom : Nat) (data : Word) (s : State) : Res := ldrRow m loom data 4 s

/-- A write of CUE_LDR_SRC: by house privilege, or the launcher of some LIVE production (R197, R330). -/
def Dev.wrLdrSrc (d : Dev) (m : Master) (k : Nat) (w : Word) : Nat × Dev :=
  d.ldrAccess m k ((List.range 4096).any (fun p => d.launcherM m p)) (fun d => d.plainWrite .CUE_LDR_SRC k w)

/-! ## Starting images (R176, R202, R203) -/

/-- An engine starts an image (R176). -/
def Image.start (i : Image) (slot pos : Nat) : Engine :=
  let data := (i.bytes.drop (640 + 4 * i.codeWords)).take i.dataBytes
  let y : Engine := { st := 1, image := slot, prod := i.prod, pos := pos, pc := i.entry,
                      dmem := data.zipIdx.foldl (fun m b => m.putD 0 b.2 b.1) [] }
  ((y.setS 1 (BitVec.ofNat 64 pos)).setS 2 (BitVec.ofNat 64 i.engines)).setS 3 (BitVec.ofNat 64 (i.gen * 4096 + i.prod))

/-- An engine of a Loom starts an image at a position. -/
def Dev.startEngine (d : Dev) (k slot : Nat) (i : Image) (e pos : Nat) : Dev :=
  (d.setEngine k e { i.start slot pos with sampleT := d.timeNs }).wr .CUE_ENG_TRAP (k * 68 + e) 0

/-- An image stands STOPPED for want of engines (R203, R204). -/
def Dev.noUnderstudy (d : Dev) (k slot : Nat) : Dev :=
  match (d.loom k).images.find slot with
  | none => d
  | some i =>
    let d := d.modLoom k (fun x => { x with images := x.images.put slot { i with started := false, lack := true } })
    let d := d.notice N.CUE_NO_UNDERSTUDY (Src.die (loomSite k)) i.prod 0
    let full := reserved (d.loom k).imgs i.prod Image.redRate
    let was := (d.loom k).grants.get full i.prod
    let now := min was (reserved ((d.loom k).imgs.filter (fun j => !j.lack)) i.prod Image.redRate)
    let d := d.modLoom k (fun x => { x with grants := x.grants.put i.prod now })
    d.guarantee N.GUARANTEE_BREACH i.prod 3 0 1 k 0 (80 * i.redRate)

/-- Idle engines in service, lowest first. -/
def Loom.freeEngines (x : Loom) : List Nat := (List.range 68).filter (fun e => (x.engine e).st == 0)

/-- The incoming images start in slot order for as long as each can be given all its engines; those after stay STOPPED
(R203). -/
def Dev.startImages (d : Dev) (k : Nat) : List (Nat × Image) → Dev
  | [] => d
  | s :: l =>
    let es := ((d.loom k).freeEngines).take s.2.engines
    if es.length < s.2.engines then d.each (s :: l) (fun d s => d.noUnderstudy k s.1)
    else
      let d := d.modLoom k (fun x => { x with images := x.images.put s.1 { s.2 with started := true, lack := false } })
      let d := d.each es.zipIdx (fun d e => d.startEngine k s.1 s.2 e.1 e.2)
      (if s.2.lack then d.recomputeLoom k else d).startImages k l

/-- The engines of an image go IDLE, but for one whose fault is to be handled (R203). -/
def Dev.idleEngines (d : Dev) (k slot : Nat) : Dev :=
  d.each (((d.loom k).engsOf slot).filter (fun e => (d.loom k).subst.find slot != some (e, none))) (fun d e => d.setEngine k e {})

/-- ACTIVATE_INCOMING (R202, R200): every outgoing engine has ended; the sets change. -/
def execActivateIncoming (loom : Nat) (s : State) : Res :=
  ifUnit (decide (loom < 4)) <| onDevM s fun m d =>
    d.whenSome (d.loom loom).ldr fun j d =>
      let prod := fldOf F.CUE_LDR_CMD_PROD j.cmd
      let op := fldOf F.CUE_LDR_CMD_OP j.cmd
      let out := (d.loom loom).outgoing prod
      let busy := out.any (fun i => ((d.loom loom).engsOf i.1).any (fun e => (d.engine loom e).live))
      d.when (d.loomLoaded && (op == 3 || op == 4) && !j.incoming && j.result.isNone && !busy) fun d =>
        let d := d.each out (fun d i => ((d.abandonImage m loom i.2).idleEngines loom i.1).modLoom loom (fun x =>
          { x with images := x.images.put i.1 { i.2 with started := false } }))
        let set := fldOf F.CUE_LDR_CMD_SET j.cmd
        let d := d.modLoom loom (fun x => { x with
          active := if op = 3 then x.active.put prod set else x.active.erase prod
          closed := x.closed.filter (· ≠ prod)
          ldr := some { j with incoming := true } })
        let inn := if op = 3 then (d.loom loom).images.filter (fun i => i.2.prod == prod && i.2.set == set && !i.2.stale) else []
        (d.startImages loom inn).settle

/-- The outcome of a loader command: STATUS, REASON, IMAGE. -/
def Dev.ldrResult (d : Dev) (m : Mem) (k : Nat) (j : LdrJob) : (Nat × Nat × Nat) × Dev :=
  let prod := fldOf F.CUE_LDR_CMD_PROD j.cmd
  let slot := fldOf F.CUE_LDR_CMD_IMAGE j.cmd
  match j.result with
  | some r => (r, d)
  | none =>
    if fldOf F.CUE_LDR_CMD_OP j.cmd = 1 then
      match d.load m k prod (fldOf F.CUE_LDR_CMD_SET j.cmd) with
      | (0, slot, d) => ((St.OK, 0, slot), d)
      | (r, _, d) => ((St.ADMISSION_REFUSED, r, 0), d)
    else if fldOf F.CUE_LDR_CMD_OP j.cmd = 2 then
      match (d.loom k).images.find slot with
      | none => ((St.DENIED, 0, slot), d)
      | some i =>
        if i.prod ≠ prod ∨ (d.loom k).active.find prod = some i.set then ((St.DENIED, 0, slot), d)
        else ((St.OK, 0, slot), d.unload k slot)
    else ((St.OK, 0, 0), d)

/-- The sets have changed, and every incoming engine has issued its first instruction, or issues no more (R202). -/
def Dev.switched (d : Dev) (k : Nat) (j : LdrJob) : Bool :=
  let x := d.loom k
  j.incoming && (fldOf F.CUE_LDR_CMD_OP j.cmd == 4
    || (x.outgoing (fldOf F.CUE_LDR_CMD_PROD j.cmd)).all (fun i => (x.engsOf i.1).all (fun e => !(x.engine e).live || decide (0 < (x.engine e).issued))))

/-- The copy of a resident image is written at a place of its Loom's part. -/
def Dev.putCopy (d : Dev) (m : Mem) (k slot a : Nat) (i : Image) : Dev × Mem :=
  (d.modLoom k (fun x => { x with images := x.images.put slot { i with copyAt := a } })).carveSave m 1
    (stagingOff k { i with copyAt := a }) i.bytes

/-- A copy of a loaded image stays in the staging region under its slot's number, apart from those of the Loom's other images
(R197). Where no clear place is long enough, the Loom's copies are written anew one after another, which the 32 MiB of R198
leave room for. -/
def Dev.keepCopy (d : Dev) (m : Mem) (k slot : Nat) : Dev × Mem :=
  match (d.loom k).images.find slot with
  | none => (d, m)
  | some i =>
    match copyPlace (((d.loom k).images.filter (fun x => x.1 != slot)).map (·.2)) slot i.bytes.length with
    | some a => d.putCopy m k slot a i
    | none =>
      let r := (d.loom k).images.foldl (fun (x : (Dev × Mem) × Nat) j =>
        (x.1.1.putCopy x.1.2 k j.1 x.2 j.2, x.2 + j.2.bytes.length)) ((d, m), 0)
      r.1

/-- A loader command ends: CUE_LDR_STAT and CUE_LDR_DONE (R197). -/
def Dev.ldrEnd (d : Dev) (k : Nat) (j : LdrJob) (st reason slot : Nat) : Dev :=
  let d := d.modLoom k (fun x => { x with ldr := none })
  let d := (d.setFld F.CUE_LDR_STAT_BUSY k 0).setFld F.CUE_LDR_STAT_STATUS k st
  let d := (d.setFld F.CUE_LDR_STAT_IMAGE k slot).setFld F.CUE_LDR_STAT_REASON k reason
  let d := d.setFld F.CUE_LDR_STAT_DONE_COUNT k (d.fld F.CUE_LDR_STAT_DONE_COUNT k + 1)
  d.notice N.CUE_LDR_DONE (Src.die (loomSite k)) (fldOf F.CUE_LDR_CMD_PROD j.cmd) (d.rd .CUE_LDR_STAT k).toNat

/-- LOADER_CMD_DONE (R197, R202). -/
def execLoaderCmdDone (loom : Nat) (s : State) : Res :=
  ifUnit (decide (loom < 4)) <| onBoth s fun (d, m) =>
    match (d.loom loom).ldr with
    | none => (d, m)
    | some j =>
      let op := fldOf F.CUE_LDR_CMD_OP j.cmd
      if (op = 3 ∨ op = 4) ∧ !d.switched loom j ∧ j.result.isNone then (d, m)
      else
        let r := d.ldrResult m loom j
        let x := if op = 1 ∧ r.1.1 = St.OK then r.2.keepCopy m loom r.1.2.2 else (r.2, m)
        (x.1.ldrEnd loom j r.1.1 r.1.2.1 r.1.2.2, x.2)

/-! ## F255 and understudies (R189, R204) -/

/-- F255_TIMEOUT (R189): 5 ms after the Prompter set F255, the engine is stopped and its open ops are abandoned. -/
def execF255Timeout (loom engine : Nat) (s : State) : Res :=
  ifUnit (decide (loom < 4 ∧ engine < 68)) <| onDevM s fun m d =>
    let y := d.engine loom engine
    d.when (y.stopAt.isSome && y.live) fun d =>
      let d := d.setEngine loom engine { y with st := 5, stopAt := none }
      (d.whenSome ((d.loom loom).images.find y.image) (fun i d => d.abandonImage m loom i)).settle

/-- The exchange of R204: the faulty engine goes FAULTED, and the lowest-numbered SPARE engine takes its position. -/
def Dev.exchange (d : Dev) (k slot e : Nat) : Dev :=
  let y := d.engine k e
  let d := d.setEngine k e { y with st := 6 }
  match (List.range 68).find? (fun n => (d.engine k n).st == 7) with
  | some n =>
    let d := d.setEngine k n { st := 5, image := y.image, prod := y.prod, pos := y.pos }
    (d.modLoom k (fun x => { x with subst := x.subst.put slot (e, some n) })).repaired 3 (loomSite k) e n
  | none => ((d.modLoom k (fun x => { x with subst := x.subst.erase slot })).exhausted 3 (loomSite k) e).noUnderstudy k slot

/-- ACTIVATE or STOP runs on a Loom. -/
def Loom.switching (x : Loom) : Bool :=
  match x.ldr with
  | some j => fldOf F.CUE_LDR_CMD_OP j.cmd == 3 || fldOf F.CUE_LDR_CMD_OP j.cmd == 4
  | none => false

/-- ENGINE_FAULT (R190, R204): internal parity in a running engine; during ACTIVATE the exchange waits (R203). -/
def execEngineFault (loom engine : Nat) (s : State) : Res :=
  ifUnit (decide (loom < 4 ∧ engine < 68)) <| onDevM s fun m d =>
    let y := d.engine loom engine
    d.when (y.live && d.siteUp (loomSite loom)) fun d =>
      let d := d.trapEngine m loom engine Cause.ENGINE_FAULT 0
      if (d.loom loom).switching then d.modLoom loom (fun x => { x with subst := x.subst.put y.image (engine, none) })
      else d.exchange loom y.image engine

/-- ENGINE_RESTART (R204): every engine of the image restarts at the entry point, if its set is still active; where the sets
have changed meanwhile, the engine that took the place is in service and IDLE (R203). -/
def execEngineRestart (loom slot : Nat) (s : State) : Res :=
  ifUnit (decide (loom < 4 ∧ slot < 256)) <| onDev s fun d =>
    d.when (!(d.loom loom).switching) fun d =>
      let d := match (d.loom loom).subst.find slot with
        | some (e, none) => d.exchange loom slot e
        | _ => d
      match (d.loom loom).subst.find slot with
      | some (e, some n) =>
        let d := d.modLoom loom (fun x => { x with subst := x.subst.erase slot })
        let y := d.engine loom n
        let taken := ((d.loom loom).engsOf slot).any (fun e => e != n && (d.engine loom e).pos == y.pos)
        let mine := y.image == slot && y.st == 5
        let d := match (d.loom loom).images.find slot with
          | some i =>
            if (d.loom loom).active.find i.prod = some i.set ∧ i.started ∧ mine ∧ !taken then
              d.each ((d.loom loom).engsOf slot) (fun d e => d.startEngine loom slot i e (d.engine loom e).pos)
            else d.when mine (fun d => d.setEngine loom n {})
          | none => d.when mine (fun d => d.setEngine loom n {})
        d.notice N.CUE_SUBSTITUTED (Src.die (loomSite loom)) y.prod (e * 256 + n)
      | _ => d

/-- An image after its Loom's reset: restored where its staging copy still has the SHA-384 recorded at LOAD, else discarded;
it waits while no stack holds the copy (R205, R223). -/
def Dev.restoreImage (d : Dev) (m : Mem) (k slot : Nat) (i : Image) : Dev :=
  if !d.stackUp 2 && !d.stackUp 3 then d
  else
    let d := d.carveReadCount 1 (stagingOff k i) i.bytes.length
    if ((d.carveRead m 1 (stagingOff k i) i.bytes.length).map sha384) = some i.sha then
      d.modLoom k (fun x => { x with images := x.images.put slot { i with stale := false } })
    else (d.unload k slot).notice N.IMAGE_LOST (Src.die (loomSite k)) i.prod 0

/-- IMAGE_RESTORE (R205). -/
def execImageRestore (loom : Nat) (s : State) : Res :=
  ifUnit (decide (loom < 4)) <| onDevM s fun m d =>
    d.when (d.siteUp (loomSite loom)) fun d =>
      d.each ((d.loom loom).images.filter (fun i => i.2.stale)) (fun d i => d.restoreImage m loom i.1 i.2)

/-- GRANTED_RECOMPUTE (R134). -/
def execGrantedRecompute (r : Resource) (s : State) : Res :=
  match r with
  | .port l => ifUnit (decide (l < s.d.nLanes)) <| onDev s fun d => d.recomputePort l
  | .loom k => ifUnit (decide (k < 4)) <| onDev s fun d => d.recomputeLoom k

/-! ## Ensembles (R139, R140) -/

/-- The checks of R139 on what a write would leave. -/
def ensOk (a b : Word) : Bool :=
  !bitOf a 63 || ((ensDims a).all (fun x => decide (x.2.1 ≤ x.1)) && fldOf F.TBL_ENS_A_LOOM_MASK a != 0
    && decide (1 ≤ ensCount a b ∧ ensCount a b ≤ 262144))

/-- A write of TBL_ENSn_A or, `second`, TBL_ENSn_B (R139, R140). -/
def Dev.wrEns (d : Dev) (n : Nat) (second : Bool) (w : Word) : Dev :=
  let r : RF := if second then .TBL_ENS_B else .TBL_ENS_A
  let a := if second then d.rd .TBL_ENS_A n else d.written .TBL_ENS_A n w
  let b := if second then d.written .TBL_ENS_B n w else d.rd .TBL_ENS_B n
  if d.groupBound true n then d.notice N.ENS_BUSY Src.tables 0 0
  else if !ensOk a b then d.notice N.ENS_REFUSED Src.tables 0 0
  else d.plainWrite r n w

/-- TBL_ENS_WRITE (R139, R140). -/
def execTblEnsWrite (m : Master) (n : Nat) (second : Bool) (data : Word) (s : State) : Res :=
  ifUnit (decide (n < 64)) <| onDev s fun d =>
    d.regRow m (if second then .TBL_ENS_B else .TBL_ENS_A) n data (fun d => d.wrEns n second data)

end Sys2Proof.Machine
end

