-- ==== Sys2Proof/Machine/Faults.lean ====
section
/-! DEFINITION. Fencing and fabric managers (R278 to R286), strike (R287 to R291) and launch (R292 to R294). -/

namespace Sys2Proof.Machine

/-- A management packet of this device: payload bytes from offset 4, the least LEN that carries them. -/
def Dev.mgmtPkt (d : Dev) (dst : BitVec 32) (prod gen opc tc status : Nat) (bs : List Byte) : Pkt :=
  let len := lenFor bs.length
  { id := 0, hdr := mkHdr dst (d.ownFn 0) prod gen opc len tc, rw := BitVec.ofNat 32 (status * 2 ^ 20), vl := 0,
    pay := BitVec.ofNat 320 (bytesAt bs 0 40), body := splitBody len (bs.drop 40), inl := 1024, own := true }

/-- The whole packet of an opcode at FN 0x00. -/
def Dev.atMgmt (d : Dev) (pid opc : Nat) : Option Pkt :=
  match d.pkt pid with
  | some p => if p.place = .atFn 0 ∧ p.vl = 0 ∧ p.opc = opc ∧ p.whole then some p else none
  | none => none

/-! ## Fences (R278 to R282) -/

/-- A flit of a ROLL_CALL or HEARTBEAT. -/
def linkLocalFlit (f : Flit) : Bool := fcwType f == 1 && fcwVl f == 0 && ((pktOfHead 0 f).opc == 0x70 || (pktOfHead 0 f).opc == 0x71)

/-- A lane is fenced: only ROLL_CALL, HEARTBEAT and idle flits pass on it from now on, and no other flit is sent again. A
packet open on it sends no more; one partly received is discarded up to its tail and counted (R279). -/
def Dev.fenceLane (d : Dev) (l : Nat) : Dev :=
  let x := d.lane l
  let d := d.each ([x.rxLow, x.rxHigh].filterMap id) (fun d i =>
    (d.whenSome (d.pkt i) (fun p d => d.discardAs p C.FENCE_DISCARD)).stompAs i (fun d _ => d))
  let d := (d.cutSend l).modLane l (fun y => { y with
    txLow := none, txHigh := none, rxLow := none, rxHigh := none
    replay := y.replay.filter (fun f => linkLocalFlit f.2), resend := y.resend.filter linkLocalFlit
    dropLow := y.dropLow || x.rxLow.isSome, dropHigh := y.dropHigh || x.rxHigh.isSome })
  d.setFld F.PRT_LINK_STAT_FENCED l 1

/-- A neighbour is declared failed: its lanes are fenced, and FAULT leaves for the managers and the subscribers (R279 to
R281). -/
def Dev.declareFailed (d : Dev) (l ca cause : Nat) : Dev :=
  let d := d.noteLost (fun d => d.each (d.neighbourLanes ca) (fun d x =>
    ((d.fenceLane x).setFld F.PRT_FENCE_LIFT x 0).modLane x (fun y => { y with liftDue := false, fell := false })))
  let bs := bytesOf 4 d.ownCa ++ bytesOf 4 (ca * 256) ++ bytesOf 2 l ++ bytesOf 1 cause ++ bytesOf 1 0 ++ bytesOf 4 (d.timeNs % 2 ^ 32)
  let d := d.each (List.range 5) (fun d n =>
    if d.flag F.GLB_FM_VALID n then
      d.send (d.mgmtPkt (BitVec.ofNat 32 (d.fld F.GLB_FM_CA n / 256 * 256)) 0 0 0x72 (Config.faultTc % 8) 0 bs)
    else d)
  d.notice N.FAULT Src.core 0 (ca * 2 ^ 40 + l * 2 ^ 22 + cause * 2 ^ 18)

/-- NEIGHBOUR_FAILED (R278): the last lane that was UP to a neighbour has left UP under R265. -/
def neighbourFailedMade (lane : Nat) (s : State) : Res :=
  ifUnit (decide (lane < s.d.nLanes)) <| onDev s fun d =>
    let ca := d.peerCa lane
    d.when ((d.lane lane).fell && d.lstate lane != 3) fun d =>
      let d := d.modLane lane (fun x => { x with fell := false })
      if (d.neighbourLanes ca).contains lane ∧ !(d.neighbourLanes ca).any (fun l => d.lstate l == 3)
          ∧ (d.neighbourLanes ca).any (fun l => !d.flag F.PRT_LINK_STAT_FENCED l) then
        d.declareFailed lane ca (d.fld F.PRT_LINK_STAT_CAUSE lane)
      else d

/-- NEIGHBOUR_FAILED: what it makes is then routed. -/
def execNeighbourFailed (lane : Nat) (s : State) : Res := sendOut (neighbourFailedMade lane s)

/-- A lift begins: every fenced lane to the neighbour waits for it, and LIFT reads 1 until none does (R282). -/
def Dev.beginLift (d : Dev) (l : Nat) (ls : List Nat) : Dev :=
  (d.each (ls.filter (fun x => d.flag F.PRT_LINK_STAT_FENCED x)) (fun d x => d.modLane x (fun y => { y with liftDue := true }))).setFld
    F.PRT_FENCE_LIFT l 1

/-- A write of PRT_FENCE: HOLD 1 declares the neighbour failed unless it is fenced; LIFT lifts (R282). -/
def Dev.wrFence (d : Dev) (l : Nat) (w : Word) : Dev :=
  let ca := d.peerCa l
  let ls := d.neighbourLanes ca
  let hold := fldOf F.PRT_FENCE_HOLD w == 1
  let d := d.setFld F.PRT_FENCE_HOLD l (bit hold)
  if ls.contains l then
    let d := if hold ∧ ls.any (fun x => !d.flag F.PRT_LINK_STAT_FENCED x) then d.declareFailed l ca 6 else d
    let d := if fldOf F.PRT_FENCE_LIFT w = 1 ∧ !(ls.any (fun x => d.flag F.PRT_FENCE_HOLD x)) then d.beginLift l ls else d
    d.liftStep ca
  else d

/-- FENCE_LIFT (R282): a write of PRT_FENCE with LIFT, HOLD as it stands. -/
def execFenceLift (m : Master) (port : Nat) (s : State) : Res :=
  ifUnit (decide (port < 1024)) <| onDev s fun d =>
    let w := setBits (d.rd .PRT_FENCE port) 63 63 1
    (d.regRow m .PRT_FENCE port w (fun d => d.wrFence port w)).settle

/-- FENCE_HOLD (R282): a write of PRT_FENCE with HOLD 1. -/
def fenceHoldMade (m : Master) (port : Nat) (s : State) : Res :=
  ifUnit (decide (port < 1024)) <| onDev s fun d =>
    let w := setBits (d.rd .PRT_FENCE port) 62 62 1
    d.regRow m .PRT_FENCE port w (fun d => d.wrFence port w)

/-- FENCE_HOLD: what it makes is then routed. -/
def execFenceHold (m : Master) (port : Nat) (s : State) : Res := sendOut (fenceHoldMade m port s)

/-! ## Fabric managers and expulsion (R283 to R286) -/

/-- The key of manager n: x then y. -/
def Dev.fmKey (d : Dev) (n : Nat) : BitVec 768 :=
  BitVec.ofNat 768 ((List.range 12).foldl (fun a w => a * 2 ^ 64 + (d.rd .GLB_FM_KEY (12 * n + w)).toNat) 0)

/-- A write of GLB_FMn: VALID stays 0 where the key is no point of the curve (R283). -/
def Dev.wrFm (d : Dev) (n : Nat) (w : Word) : Dev :=
  if fldOf F.GLB_FM_VALID w = 1 ∧ !d.locked .GLB_FM ∧ !p384OnCurve (d.fmKey n) then
    (d.plainWrite .GLB_FM n (setBits w 63 63 0)).notice N.FM_KEY_BAD Src.security 0 0
  else d.plainWrite .GLB_FM n w

/-- FM_REGISTER (R283). -/
def execFmRegister (m : Master) (n : Nat) (data : Word) (s : State) : Res :=
  ifUnit (decide (n < 5)) <| onDev s fun d => d.regRow m .GLB_FM n data (fun d => d.wrFm n data)

/-- A write of GLB_FM_LOCK: the first LOCK measures the registrations (R283, R313). -/
def Dev.wrFmLock (d : Dev) (w : Word) : Dev :=
  if fldOf F.GLB_FM_LOCK_LOCK w = 1 ∧ !d.flag F.GLB_FM_LOCK_LOCK 0 then
    (d.setFld F.GLB_FM_LOCK_LOCK 0 1).extend 7
      (Config.fmDigest ((List.range 5).map (fun n => d.rd .GLB_FM n) ++ (List.range 60).map (fun i => d.rd .GLB_FM_KEY i)))
  else d

/-- FM_LOCK (R283). -/
def execFmLock (m : Master) (s : State) : Res :=
  onDev s fun d =>
    let w : Word := BitVec.ofNat 64 (2 ^ 63)
    d.regRow m .GLB_FM_LOCK 0 w (fun d => d.wrFmLock w)

/-- The quorum is reached (R286). -/
def Dev.expelled (d : Dev) (target : Nat) : Dev :=
  let d := d.each ((List.range d.nLanes).filter (fun l => d.fld F.PRT_SEAT_CA l == target / 256)) (fun d l =>
    (((d.wrSeat l (setBits (d.rd .PRT_SEAT l) F.PRT_SEAT_EXPECT.hi F.PRT_SEAT_EXPECT.lo 0)).setFld F.PRT_LINK_STAT_FENCED l 0).setFld F.PRT_FENCE_LIFT l 0).modLane l
      (fun x => { x with liftDue := false }))
  d.notice N.EXPELLED Src.prompter 0 (target * 2 ^ 32)

/-- A vote counts (R285). -/
def Dev.voteOk (d : Dev) (p : Pkt) : Bool :=
  let n := p.at 16 1 % 8
  decide (n < 5) && d.flag F.GLB_FM_VALID n
  && ecdsaVerify (d.fmKey n) (sha384 (p.bytesFrom 4 13)) (ofBytes (p.bytesFrom 20 48)) (ofBytes (p.bytesFrom 68 48))
  && p.at 12 4 == d.fld F.GLB_LINK_CTL_PLAN_GEN 0 && decide (d.fld F.GLB_EXPEL_LAST_SEQ 0 < p.at 8 4)

/-- EXPEL (R285): a vote is counted toward the quorum for its (TARGET, SEQ), or refused. -/
def execExpel (pid : Nat) (s : State) : Res :=
  onDev s fun d => d.whenSome (d.atMgmt pid 0x77) fun p d =>
    let d := d.endPkt pid
    if !d.voteOk p then (d.countGlb C.EXPEL_BAD).notice N.EXPEL_REFUSED Src.prompter 0 0
    else
      let target := p.at 4 4
      let seq := p.at 8 4
      let bitN := 2 ^ (p.at 16 1 % 8)
      let d := d.notice N.EXPEL_VOTE Src.prompter 0 0
      let same := match d.gather with
        | some g => g.target == target && g.seq == seq && decide (d.since g.at_ < 10 ^ 10 * 65536)
        | none => false
      let votes := if same then Nat.lor (d.fld F.GLB_EXPEL_VOTES 0) bitN else bitN
      let d := (if same then d else { d with gather := some ⟨target, seq, d.tmu.total⟩ }).setFld F.GLB_EXPEL_VOTES 0 votes
      if 3 ≤ (List.range 5).countP (fun n => votes.testBit n && d.flag F.GLB_FM_VALID n) then
        let d := (({ d with gather := none }).setFld F.GLB_EXPEL_VOTES 0 0).setFld F.GLB_EXPEL_LAST_SEQ 0 seq
        (d.expelled target).settle
      else d

/-- EXPEL_GATHER_EXPIRY (R285): 10 s after the first counted vote. -/
def execExpelGatherExpiry (s : State) : Res :=
  onDev s fun d => d.when d.gather.isSome (fun d => ({ d with gather := none }).setFld F.GLB_EXPEL_VOTES 0 0)

/-! ## Strike (R287 to R291) -/

def Dev.prodState (d : Dev) (q : Nat) : Nat := d.fld F.GLB_PROD_STATE q
def Dev.prodGen (d : Dev) (q : Nat) : Nat := d.fld F.GLB_PROD_GEN q

/-- STRIKE.DONE (R288). -/
def Dev.strikeDone (d : Dev) (dst : BitVec 32) (tc prod gen status sealed cells us : Nat) : Dev :=
  d.send (d.mgmtPkt dst prod gen 0x74 tc status (bytesOf 1 sealed ++ bytesOf 3 0 ++ bytesOf 4 cells ++ bytesOf 4 us))

/-- One packet of a struck production goes; one that is being sent ends with a stomped tail (R107, R288). -/
def Dev.purgePkt (d : Dev) (p : Pkt) : Dev :=
  let atIngress (d : Dev) : Dev :=
    if p.vl = 1 ∧ !p.internal ∧ d.ltype p.inl = 0 then d.refuse p St.STRUCK (fun d => d)
    else (d.discardAs p C.STRIKE_DISCARD).endPkt p.id
  match p.place with
  | .ingress => atIngress d
  | .respIn _ => atIngress d
  | .xferIn _ => atIngress d
  | .queue l _ => if d.isOpen l p.id then d.modPkt p.id (fun p => { p with bad := true, whole := true }) else d.endPkt p.id
  | _ => d.endPkt p.id

/-- The packets of a production, on VL1 to VL7. -/
def Dev.prodPkts (d : Dev) (q : Nat) : List Pkt := d.net.pkts.filter (fun p => p.prod == q && p.vl != 0)

/-- Packets, windows, ledger and flows of a struck production (R288). -/
def Dev.purgePackets (d : Dev) (q : Nat) : Dev :=
  let ps := d.prodPkts q
  let keys := (ps.filter (fun p => p.isHeld)).map Pkt.ckey
  let d := d.each ps Dev.purgePkt
  let leds := d.net.ledger.filter (fun l => l.prod == q)
  let d := d.each leds Dev.ledgerDrop
  let flows := (leds.map (fun l => (l.src, l.dst)) ++ (ps.filter (fun p => p.vl == 1)).map (fun p => (p.src, p.dst))).dedup
  let d := d.each flows (fun d f =>
    if d.net.ledger.any (fun l => l.src == f.1 && l.dst == f.2)
      ∨ d.net.pkts.any (fun p => p.isHeld && p.vl == 1 && p.src == f.1 && p.dst == f.2) then d
    else d.setFlow { d.flow f.1 f.2 with errW := 0, errA := 0 })
  let d := d.each keys.dedup (fun d k =>
    if (d.heldOf k).isEmpty then d.dropCtx k
    else (d.modCtx k (fun c => { c with hold := none })).runCtx k)
  (d.each flows (fun d f => d.retryFlow f.1 f.2)).rsqRetry

/-- Swatch entries, moves, dead marks and casts of a struck production (R288). -/
def Dev.purgeTables (d : Dev) (q : Nat) : Dev :=
  let d := d.each ((d.entries 3).filter (fun x => swProd x.2 == q)) (fun d x =>
    let d := d.dropEnt 3 x.1
    { d with tab := { d.tab with moves := d.tab.moves.erase x.1, members := d.tab.members.erase x.1 } })
  let d := d.setDeads (d.net.deads.filter (fun x => x.prod ≠ q))
  let d := d.each ((d.entries 4).filter (fun x => castProd x.2 == q)) (fun d x => d.dropEnt 4 x.1)
  d.each ((d.entries 1).filter (fun x => exKeyOf x.2 / 2 ^ 60 == q && !exStatic x.2)) (fun d x => (d.unlearn x.1).dropEnt 1 x.1)

/-- What a Loom keeps once a production is struck: its bindings, tile state and images go, its engines go IDLE. -/
def Loom.purge (x : Loom) (q : Nat) : Loom :=
  let slots := (x.images.filter (fun i => i.2.prod == q)).map (·.1)
  { x with
    engines := x.engines.map (fun e => if e.2.st ≠ 6 ∧ e.2.st ≠ 7 ∧ slots.contains e.2.image ∧ e.2.st ≠ 0 then (e.1, {}) else e)
    images := x.images.filter (fun i => i.2.prod ≠ q)
    active := x.active.erase q
    closed := x.closed.filter (· ≠ q)
    binds := x.binds.filter (fun b => b.prod ≠ q)
    tile := x.tile.filter (fun t => t.1 / 2 ^ 36 ≠ q)
    areas := x.areas.filter (fun t => t.1 / 2 ^ 36 ≠ q)
    junk := x.junk.filter (fun t => t.1 / 2 ^ 36 ≠ q)
    subst := x.subst.filter (fun t => !slots.contains t.1)
    ldr := x.ldr.map (fun j => if fldOf F.CUE_LDR_CMD_PROD j.cmd = q then
      { j with result := some (St.STRUCK, 0, if fldOf F.CUE_LDR_CMD_OP j.cmd = 2 then fldOf F.CUE_LDR_CMD_IMAGE j.cmd else 0) } else j) }

/-- Images, bindings and reservations of a struck production (R288, R199). -/
def Dev.purgeLooms (d : Dev) (q : Nat) : Dev :=
  let lanes := d.looms.flatMap (fun x => (x.2.imgs.filter (fun i => i.prod == q)).flatMap (fun i => i.rates.map (·.1)))
  let d := { d with looms := d.looms.map (fun (x : Nat × Loom) => (x.1, x.2.purge q)) }
  d.each (List.range 4) (fun d k => d.reserveAll k q lanes)

/-- Ports with a register of a family off its reset word. -/
def Dev.regIndices (d : Dev) (r : RF) : List Nat :=
  d.regs.filterMap (fun x => if keyNum x.1 = r.num then some (keyIdx x.1) else none)

/-- Rates and running orders of a struck production (R288). -/
def Dev.purgeRates (d : Dev) (q : Nat) : Dev :=
  let d := d.each (d.regIndices .PRT_QRATE) (fun d i =>
    if d.fld F.PRT_QRATE_MIN_RATE i ≠ 0 ∧ d.fld F.PRT_QOWN_PROD i = q then
      d.wrQrate (i / 64) (i % 64) (setBits (d.rd .PRT_QRATE i) F.PRT_QRATE_MIN_RATE.hi F.PRT_QRATE_MIN_RATE.lo 0)
    else d)
  d.each (d.regIndices .PRT_RO_CTL) (fun d l =>
    if d.fld F.PRT_RO_CTL_PROD l = q ∧ d.flag F.PRT_RO_CTL_EN l then ((d.setFld F.PRT_RO_CTL_EN l 0).roStopNow l).roState l else d)

/-- The purge of R288. -/
def Dev.purge (d : Dev) (q : Nat) : Dev :=
  let d := (((d.purgePackets q).purgeTables q).purgeLooms q).purgeRates q
  let d := { d with net := { d.net with bufs := d.net.bufs.map (fun (b : Nat × Buf) => if b.2.prod = some q then (b.1, { b.2 with prod := none }) else b) } }
  { (d.setFld F.WRD_PROD_USED q 0).setFld F.GLB_PROD_LAUNCHER q 0 with keys := d.keys.erase q }

/-- Cells that some buffers hold: the copies of a flooded frame share one (R99). -/
def Dev.cellsOf (d : Dev) (l : List Nat) : Nat := l.foldl (fun a b => a + (d.net.bufs.find b).elim 0 (fun x => x.cells)) 0

/-- STRIKING begins (R288). -/
def Dev.beginStrike (d : Dev) (q gen : Nat) (src : BitVec 32) (tc : Nat) : Dev :=
  let cells := d.cellsOf ((d.prodPkts q).map (fun p => p.buf)).dedup
  let d := (d.setFld F.GLB_PROD_STATE q 2).setFld F.GLB_PROD_GEN q gen
  let d : Dev := { d with strikes := d.strikes.filter (fun (j : StrikeJob) => j.prod ≠ q) ++ [⟨q, gen, d.tmu.total, cells, [(src, tc)]⟩] }
  d.purge q

/-- STRIKE (R287, R288). -/
def strikeMade (pid : Nat) (s : State) : Res :=
  onDev s fun d => d.whenSome (d.atMgmt pid 0x73) fun p d =>
    d.when (p.at 4 1 % 2 == 0) fun d =>
      let d := d.endPkt pid
      let q := p.prod
      let l := d.prodGen q
      let done (d : Dev) (st : Nat) : Dev := d.strikeDone p.src p.tc q p.gen st 0 0 0
      let d := match d.prodState q with
        | 0 => d.beginStrike q p.gen p.src p.tc
        | 1 => if p.gen = l then d.beginStrike q p.gen p.src p.tc else done d St.GEN_STALE
        | 2 =>
          if p.gen = l then
            { d with strikes := d.strikes.map (fun (j : StrikeJob) => if j.prod = q then { j with senders := j.senders ++ [(p.src, p.tc)] } else j) }
          else done d St.GEN_STALE
        | _ =>
          if p.gen = l then done d St.OK
          else if newer p.gen l 8 then d.beginStrike q p.gen p.src p.tc else done d St.GEN_STALE
      d

/-- STRIKE: what it makes is then routed. -/
def execStrike (pid : Nat) (s : State) : Res := sendOut (strikeMade pid s)

/-- SEAL (R287). -/
def sealMade (pid : Nat) (s : State) : Res :=
  onDev s fun d => d.whenSome (d.atMgmt pid 0x73) fun p d =>
    d.when (p.at 4 1 % 2 == 1) fun d =>
      let d := d.endPkt pid
      let q := p.prod
      let ok := decide (3 ≤ d.prodState q) && p.gen == d.prodGen q
      let d := if ok then d.setFld F.GLB_PROD_STATE q 4 else d
      d.strikeDone p.src p.tc q p.gen (if ok then St.OK else St.GEN_STALE) 1 0 0

/-- SEAL: what it makes is then routed. -/
def execSeal (pid : Nat) (s : State) : Res := sendOut (sealMade pid s)

/-- STRIKE_PURGE_DONE (R288): no packet of the production is left; STRUCK, and every sender is answered. -/
def strikePurgeDoneMade (prod : Nat) (s : State) : Res :=
  onDev s fun d => d.whenSome (d.strikes.find? (fun j => j.prod == prod)) fun j d =>
    d.when (d.prodPkts prod).isEmpty fun d =>
      let d := { d.setFld F.GLB_PROD_STATE prod 3 with strikes := d.strikes.filter (fun (j : StrikeJob) => j.prod ≠ prod) }
      d.each j.senders (fun d x => d.strikeDone x.1 x.2 prod j.gen St.OK 0 j.cells (d.since j.at_ / 65536000))

/-- STRIKE_PURGE_DONE: what it makes is then routed. -/
def execStrikePurgeDone (prod : Nat) (s : State) : Res := sendOut (strikePurgeDoneMade prod s)

/-! ## Launch (R292 to R294) -/

/-- Entries of a LAUNCH or LAUNCH.REPLY from an offset: CA and SUBTREE. -/
def Pkt.tree (p : Pkt) (off n : Nat) : List (Nat × Nat) :=
  (List.range n).map (fun i => let e := ofBytes (p.bytesFrom (off + 8 * i) 8); (e / 2 ^ 32, e % 512))

/-- The list is well formed: entry 0 is this device and heads the whole list, and no SUBTREE overruns it. -/
def Dev.treeOk (d : Dev) (t : List (Nat × Nat)) : Bool :=
  (match t with
   | e :: _ => e.1 / 256 == d.ownCa / 256 && e.2 == t.length
   | [] => false)
  && t.zipIdx.all (fun x => decide (x.2 + x.1.2 ≤ t.length)) && decide (t.length ≤ 509)

/-- The children's sub-lists of a list in preorder. -/
def subTrees : Nat → List (Nat × Nat) → List (List (Nat × Nat))
  | 0, _ => []
  | _, [] => []
  | n + 1, e :: l => (e :: l).take (max 1 e.2) :: subTrees n ((e :: l).drop (max 1 e.2))

def treeBytes (t : List (Nat × Nat)) : List Byte := t.flatMap (fun e => bytesOf 8 (e.1 * 2 ^ 32 + e.2))

/-- LAUNCH.REPLY (R294). -/
def Dev.launchReply (d : Dev) (dst : BitVec 32) (tc prod gen tag status : Nat) (missing : List (Nat × Nat)) : Dev :=
  d.send (d.mgmtPkt dst prod gen 0x76 tc status
    (bytesOf 2 missing.length ++ bytesOf 2 tag ++ bytesOf 4 d.ownCa ++ bytesOf 4 0 ++ treeBytes missing))

/-- The status with which a LAUNCH is refused, if it is (R287, R292, R61). -/
def Dev.launchRefused (d : Dev) (p : Pkt) (t : List (Nat × Nat)) : Option Nat :=
  let st := match d.prodState p.prod with
    | 0 => none
    | 1 => if p.gen = d.prodGen p.prod then none else some St.GEN_STALE
    | 4 => if newer p.gen (d.prodGen p.prod) 8 then none else some St.GEN_STALE
    | _ => some St.STRUCK
  st.orElse (fun _ => if d.treeOk t then none else some St.UNSUPPORTED)

/-- LAUNCH (R287, R293). -/
def launchMade (pid : Nat) (s : State) : Res :=
  onDev s fun d => d.whenSome (d.atMgmt pid 0x75) fun p d =>
    let d := d.endPkt pid
    let n := p.at 8 2 % 512
    let t := p.tree 112 n
    let tag := p.at 10 2
    let budget := p.at 12 2
    let d := match d.launchRefused p t with
      | some st => d.launchReply p.src p.tc p.prod p.gen tag st (p.tree 112 1)
      | none =>
        let d := ((d.setFld F.GLB_PROD_STATE p.prod 1).setFld F.GLB_PROD_GEN p.prod p.gen).setFld F.GLB_PROD_LAUNCHER p.prod (p.at 4 4)
        let d := { d with keys := d.keys.put p.prod (BitVec.ofNat 768 (ofBytes (p.bytesFrom 16 96))) }
        let kids := subTrees t.length (t.drop 1)
        let heads := kids.filterMap List.head?
        if kids.isEmpty then d.launchReply p.src p.tc p.prod p.gen tag St.OK []
        else if budget < 75 then d.launchReply p.src p.tc p.prod p.gen tag St.TIMEOUT heads
        else
          let d := d.each kids (fun d k =>
            d.whenSome k.head? fun e d =>
              d.send (d.mgmtPkt (BitVec.ofNat 32 (e.1 / 256 * 256)) p.prod p.gen 0x75 p.tc 0
                (p.bytesFrom 4 4 ++ bytesOf 2 k.length ++ bytesOf 2 tag ++ bytesOf 2 (budget - 50) ++ bytesOf 2 0 ++ p.bytesFrom 16 96
                  ++ treeBytes k)))
          { d with launches := d.launches ++ [LaunchJob.mk p.prod p.gen p.src p.tc tag budget d.tmu.total heads []] }
    d

/-- LAUNCH: what it makes is then routed. -/
def execLaunch (pid : Nat) (s : State) : Res := sendOut (launchMade pid s)

/-- LAUNCH_REPLY (R294): the reply of a child that is awaited under its TAG, before the deadline; any other is counted. -/
def execLaunchReply (pid : Nat) (s : State) : Res :=
  onDev s fun d => d.whenSome (d.atMgmt pid 0x76) fun p d =>
    let d := d.endPkt pid
    let mine (j : LaunchJob) : Bool := j.tag == p.at 6 2 && decide (d.since j.at_ < (j.budget - 25) * 65536000) && j.kids.any (fun k => k.1 / 256 == p.at 8 4 / 256)
    match d.launches.find? mine with
    | none => d.countGlb C.LAUNCH_LATE_REPLY
    | some j =>
      let j' := { j with kids := j.kids.filter (fun k => k.1 / 256 ≠ p.at 8 4 / 256), missing := j.missing ++ p.tree 16 (p.at 4 2 % 512) }
      { d with launches := d.launches.map (fun (x : LaunchJob) => if x = j then j' else x) }

/-- LAUNCH_REPLY_DEADLINE (R293, R294): all replies are in, or BUDGET − 25 µs has passed. -/
def launchReplyDeadlineMade (prod : Nat) (s : State) : Res :=
  onDev s fun d =>
    let due (j : LaunchJob) : Bool := j.prod == prod && (j.kids.isEmpty || decide ((j.budget - 25) * 65536000 ≤ d.since j.at_))
    d.whenSome (d.launches.find? due) fun j d =>
      let missing := (j.kids ++ j.missing).take 509
      let d : Dev := { d with launches := d.launches.filter (· ≠ j) }
      d.launchReply j.parent j.tc j.prod j.gen j.tag (if missing.isEmpty then St.OK else St.POISON) missing

/-- LAUNCH_REPLY_DEADLINE: what it makes is then routed. -/
def execLaunchReplyDeadline (prod : Nat) (s : State) : Res := sendOut (launchReplyDeadlineMade prod s)

/-! ## Self-repair (R295) -/

/-- SRAM_ROW_REPAIR (R295): a row of an array of the Stage or a Loom is replaced by one of the array's two spares. -/
def execSramRowRepair (site array row : Nat) (s : State) : Res :=
  ifUnit (decide ((site = 0 ∨ (17 ≤ site ∧ site ≤ 20)) ∧ row < 1024)) <| onDev s fun d =>
    let used := d.rowSpares.get 0 (site * 2 ^ 20 + array)
    if used < 2 then
      ({ d with rowSpares := d.rowSpares.put (site * 2 ^ 20 + array) (used + 1) }).repaired 0 site (array * 1024 + row) used
    else d.exhausted 0 site (array * 1024 + row)

/-- A packet read from the Wardrobe with an uncorrectable error leaves stomped (R295). -/
def Dev.readBad (d : Dev) (id : Nat) : Dev :=
  match d.pkt id with
  | none => d
  | some p =>
    let d := d.forgetRx id
    if p.place.egress.any (fun l => d.isOpen l id) then d.stompPkt id
    else d.modPkt id (fun x => { x with bad := true, whole := true })

/-- WRD_MACRO_WITHDRAW (R295): a Wardrobe macro takes no new cells and drains; the packets that it has
given with an uncorrectable error are bad. How many of its cells are idle is a free value: the spec does not say which cells a packet takes. -/
def execWrdMacroWithdraw (errors : MacroErrors) (s : State) : Res :=
  ifUnit (decide (errors.number < 256)) <| onDev s fun d =>
    d.when (d.net.draining.find errors.number).isNone fun d =>
      let (x, d) := d.freeNat
      let d := if d.wrdSpare ≤ d.net.draining.length then d.exhausted 1 0 errors.number else d
      let d := { d with net := { d.net with draining := d.net.draining.put errors.number (x % 8193) } }
      if errors.bad.isEmpty then d else (d.each errors.bad Dev.readBad).settle

/-- WRD_MACRO_DRAINED (R295): the spare takes the macro's cell range; without one the macro is withdrawn for good. -/
def execWrdMacroDrained (macroNo : Nat) (s : State) : Res :=
  ifUnit (decide (macroNo < 256)) <| onDev s fun d =>
    d.when (d.net.draining.find macroNo).isSome fun d =>
      let d := { d with net := { d.net with draining := d.net.draining.erase macroNo } }
      if d.wrdSpare = 0 then { d with net := { d.net with lostCells := d.net.lostCells + 8192 } }
      else ({ d with wrdSpare := d.wrdSpare - 1 }).repaired 1 0 macroNo (8 - d.wrdSpare)

end Sys2Proof.Machine
end

