-- ==== Sys2Proof/Machine/Wings.lean ====
section
/-! DEFINITION. Wings (R228 to R249): margin reports and the ageing loop, laser swaps, parked lanes, monitors, heaters, the
crosstalk matrix and dark trapdoor circuits. -/

namespace Sys2Proof.Machine

/-! ## Groups and lasers -/

/-- Index of a Wing's laser among WNG_LASER. -/
def lasIdx (w k : Nat) : Nat := 11 * w + k
def Dev.laserState (d : Dev) (w k : Nat) : Nat := d.fld F.WNG_LASER_STATE (lasIdx w k)

/-- A laser leaves RUNNING: its hours are kept (R234). -/
def Dev.bankHours (d : Dev) (i : Nat) : Dev :=
  match d.laserFrom.find i with
  | none => d
  | some t => { d with laserRan := d.laserRan.put i (d.laserRan.get 0 i + (d.tmu.total - t)), laserFrom := d.laserFrom.erase i }

/-- FRC units a laser has spent in RUNNING (R234). -/
def Dev.laserUnits (d : Dev) (i : Nat) : Nat :=
  d.laserRan.get 0 i + (match d.laserFrom.find i with | some t => d.tmu.total - t | none => 0)

/-- Sets a laser's STATE; its hours count while it is RUNNING, and one that is OFF, in STANDBY or RETIRED has no bias
(R234). -/
def Dev.setLaser (d : Dev) (w k st : Nat) : Dev :=
  let i := lasIdx w k
  let d := if st ≠ 2 then d.bankHours i
    else if (d.laserFrom.find i).isNone then { d with laserFrom := d.laserFrom.put i d.tmu.total } else d
  let d := if st = 0 ∨ st = 3 ∨ st = 5 then d.setFld F.WNG_LASER_BIAS i 0 else d
  d.setFld F.WNG_LASER_STATE i st

/-- Lanes of a group of a Wing (R234). -/
def groupLanes (w g : Nat) : List Nat := (List.range 8).map (fun i => 64 * w + 8 * g + i)
def Dev.ostate (d : Dev) (l : Nat) : Nat := d.fld F.WNG_LANE_STAT_OSTATE (wngLane l)

/-- The laser that feeds a group: the one whose GROUP names it (R234). -/
def Dev.groupLaser (d : Dev) (w g : Nat) : Option Nat :=
  (List.range 10).find? (fun k => d.fld F.WNG_LASER_GROUP (lasIdx w k) == g)

/-- An understudy in STANDBY for a group: laser 8 or 9, or the group's own laser after a rehearsal (R234, R297). -/
def Dev.freeUnder (d : Dev) (w g : Nat) : Option Nat := [8, 9, g].find? (fun k => d.laserState w k == 3)

/-- EOL_WARN and its notice once BIAS reaches 80 % (R234, R236). -/
def Dev.eolWarn (d : Dev) (w k : Nat) : Dev :=
  if 800 ≤ d.fld F.WNG_LASER_BIAS (lasIdx w k) ∧ !d.flag F.WNG_LASER_EOL_WARN (lasIdx w k) then
    (d.setFld F.WNG_LASER_EOL_WARN (lasIdx w k) 1).notice N.BIAS_EOL_WARN (Src.die (wingSite w)) 0 0
  else d

/-- BIAS of a laser at which its loop has settled: a free value, to be judged by R236 as the block idles (DESIGN CHOICE, log
entry 250). -/
def Dev.settleBias (d : Dev) (w k : Nat) : Dev :=
  let (x, d) := d.freeNat
  (d.setFld F.WNG_LASER_BIAS (lasIdx w k) (x % 1001)).modWing w (fun y =>
    { y with bias := y.bias.erase k, settled := y.settled.filter (· ≠ k) ++ [k] })

/-- A laser goes RUNNING. The received OMA of a group first commissioned is recorded (R235); the service laser is held by its
own loop and warns by itself (R234). -/
def Dev.laserRuns (d : Dev) (w k : Nat) : Dev :=
  let d := (d.setLaser w k 2).settleBias w k
  let g := 8 * w + d.fld F.WNG_LASER_GROUP (lasIdx w k)
  if k = 10 then d.eolWarn w k
  else if d.fld F.WNG_LASER_GROUP (lasIdx w k) < 8 ∧ (d.oma.find g).isNone then
    let (x, d) := d.freeNat
    { d with oma := d.oma.put g x }
  else d

/-- A member has an eligible lane, whatever the packet (R69). -/
def Dev.memberEligible (d : Dev) (ls : List Nat) : Bool :=
  match d.refLane ls with
  | none => false
  | some r => ls.any (fun l => d.inService l && d.peerCa l == d.peerCa r)

/-- Every spray set that names one of some lanes keeps an eligible member outside the lanes that go out (R237, R304). -/
def Dev.setsKeep (d : Dev) (named out : List Nat) : Bool :=
  (((d.entries 2).map (fun x => x.1 / 2)).dedup).all (fun s =>
    let ms := (d.members s).1.map (fun m => m.2)
    !(ms.any (fun m => m.any (fun l => named.contains l)))
      || ms.any (fun m => !(m.any (fun l => out.contains l)) && d.memberEligible m))

/-- Some spray set names the lane. -/
def Dev.inSomeSet (d : Dev) (l : Nat) : Bool :=
  (((d.entries 2).map (fun x => x.1 / 2)).dedup).any (fun s => (d.members s).1.any (fun m => m.2.contains l))

/-- A group is drainable (R237). -/
def Dev.drainable (d : Dev) (w g : Nat) : Bool :=
  let lit := (groupLanes w g).filter (fun l => d.ostate l == 1)
  lit.all (fun l => d.inSomeSet l) && d.setsKeep lit (groupLanes w g)

/-- A lane goes down for want of light: FAILED from service, DOWN from training, no block lock at the border. -/
def Dev.darkLane (d : Dev) (l cause : Nat) : Dev :=
  let d :=
    if d.ltype l = 2 then d.borderLock l false
    else if d.ltype l = 3 then d
    else if d.lstate l = 1 ∨ d.lstate l = 2 then (d.leaveService l).setState l 0
    else d.laneFail l cause
  if d.ostate l = 1 ∨ d.ostate l = 3 then d.setOstate l 0 else d

/-- The lanes of a group go down. -/
def Dev.groupDown (d : Dev) (w g : Nat) : Dev := d.each (groupLanes w g) (fun d l => d.darkLane l 1)

/-! ## Swaps (R237 to R240) -/

/-- The swap of a group that runs. -/
def Dev.swapOf (d : Dev) (w g : Nat) : Option Swap := (d.wing w).swaps.find? (fun x => x.group == g)

/-- Replaces, or ends, the swap of a group. -/
def Dev.setSwap (d : Dev) (w g : Nat) (o : Option Swap) : Dev :=
  d.modWing w (fun x => { x with swaps := x.swaps.filter (fun (y : Swap) => y.group ≠ g) ++ o.toList })

/-- A commanded swap ends: BUSY and RESULT (R240). -/
def Dev.swapResult (d : Dev) (w : Nat) (x : Swap) (r : Nat) : Dev :=
  if x.byCmd then (d.setFld F.WNG_LASER_CMD_BUSY w 0).setFld F.WNG_LASER_CMD_RESULT w r else d

/-- Lanes of a group that have trained: in roll call or past it (R251). -/
def Dev.trained (d : Dev) (w g : Nat) : List Nat :=
  (groupLanes w g).filter (fun l => decide (d.ltype l ≤ 1) && decide (2 ≤ d.lstate l ∧ d.lstate l ≤ 5))

/-- The first row of a swap with understudy u (R237, R238); `ls` names the lanes that had trained. `down`: the lanes are
down, and nothing is drained. -/
def Dev.beginSwap (d : Dev) (w g old u : Nat) (byCmd fadeOnly down : Bool) (ls : List Nat) : Dev :=
  let drain := !fadeOnly && !down && d.drainable w g
  let x : Swap := ⟨g, u, old, !drain && !down, if down then 1 else 0, byCmd, false, ls⟩
  let d := d.setLaser w u 1
  let d := if d.laserState w old = 2 then d.setLaser w old 4 else d
  let d := d.setSwap w g (some x)
  let d := d.notice N.LASER_SWAP_START (Src.die (wingSite w)) 0 (g * 2 ^ 60 + u * 2 ^ 56)
  if drain then
    d.noteLost (fun d => d.each ((groupLanes w g).filter (fun l => d.ostate l == 1)) (fun d l => d.setOstate l 3))
  else if down then d
  else d.each (groupLanes w g) (fun d l => if d.ostate l = 3 ∧ !d.pwr.parked.contains l then d.setOstate l 1 else d)

/-- A trigger of R236 or R297 finds no understudy (R239), which exhausts the spares of its kind (R295). -/
def Dev.noUnder (d : Dev) (w k : Nat) : Dev :=
  (d.notice N.LASER_NO_UNDERSTUDY (Src.die (wingSite w)) 0 0).exhausted 4 (wingSite w) k

/-- An understudy is brought in for a group on its own; `ls` names its lanes that had trained (R236, R239). -/
def Dev.autoSwap (d : Dev) (w g old : Nat) (down : Bool) (ls : List Nat) : Dev :=
  if !d.flag F.WNG_CTL_AUTO_SWAP w then d
  else match d.freeUnder w g with
    | none => d.noUnder w old
    | some u => d.beginSwap w g old u false false down ls

/-- A laser that has come to a new bias is judged by it (R234, R236). -/
def Dev.judgeBias (d : Dev) (w k : Nat) : Dev :=
  if d.laserState w k ≠ 2 then d
  else
    let g := d.fld F.WNG_LASER_GROUP (lasIdx w k)
    let d := (d.eolWarn w k).modWing w (fun y => { y with bias := y.bias.put k (2 * d.fld F.WNG_LASER_BIAS (lasIdx w k)) })
    if k < 10 ∧ g < 8 ∧ 900 ≤ d.fld F.WNG_LASER_BIAS (lasIdx w k) then d.autoSwap w g k false (d.trained w g) else d

/-- Every laser that waits for it is judged. -/
def Dev.judgeLasers (d : Dev) : Dev :=
  d.each (d.wings.filter (fun (x : Nat × Wing) => !x.2.settled.isEmpty)) (fun d x =>
    (d.modWing x.1 (fun y => { y with settled := [] })).each x.2.settled (fun d k => d.judgeBias x.1 k))

/-- The understudy has failed: the other one starts again, or the lanes go down (R239). -/
def Dev.swapFailed (d : Dev) (w : Nat) (x : Swap) : Dev :=
  let d := (d.setSwap w x.group none).setLaser w x.under 6
  match d.freeUnder w x.group with
  | some u => d.beginSwap w x.group x.old u x.byCmd (x.fade && !x.fallback) (d.laserState w x.old != 4) x.lanes
  | none =>
    let d := if d.laserState w x.old = 4 then d.setLaser w x.old 2 else d
    let d := { d with fades := d.fades.filter (fun (f : Nat × Nat) => f ≠ (w, x.group)) }
    let d := (d.groupDown w x.group).noUnder w x.old
    ((d.swapResult w x 1).trapRelease w).startGroup w x.group

/-- A swap is over: the understudy feeds the group and the old laser retires, or stands by after a rehearsal (R237, R238,
R297). -/
def Dev.swapDone (d : Dev) (w : Nat) (x : Swap) : Dev :=
  let reh := d.fades.contains (w, x.group)
  let d := d.setSwap w x.group none
  let d := ((d.setLaser w x.old (if reh then 3 else 5)).setFld F.WNG_LASER_GROUP (lasIdx w x.old) 15).setFld
    F.WNG_LASER_EOL_WARN (lasIdx w x.old) 0
  let d := (d.laserRuns w x.under).setFld F.WNG_LASER_GROUP (lasIdx w x.under) x.group
  let d := d.modWing w (fun y => { y with low := y.low.erase x.group })
  let d := { d with fades := d.fades.filter (fun (f : Nat × Nat) => f ≠ (w, x.group)) }
  let d := if reh then d else d.repaired 4 (wingSite w) x.old x.under
  let d := d.notice N.LASER_SWAPPED (Src.die (wingSite w)) 0 (x.group * 2 ^ 60 + x.under * 2 ^ 56 + bit x.fade * 2 ^ 55)
  let d := (d.countWing w C.LASER_SWAPS 1).swapResult w x (if x.fallback then 4 else 0)
  (d.trapRelease w).startGroup w x.group

/-- A write of WNG_LASER_CMD (R240). -/
def Dev.wrLaserCmd (d : Dev) (w : Nat) (x : Word) : Dev :=
  let op := fldOf F.WNG_LASER_CMD_OP x
  let g := fldOf F.WNG_LASER_CMD_GROUP x
  if op = 0 then d
  else match (if g < 8 ∧ !d.flag F.WNG_LASER_CMD_BUSY w then (d.groupLaser w g).filter (fun k => d.laserState w k == 2) else none) with
    | none => d.setFld F.WNG_LASER_CMD_RESULT w 2
    | some old =>
      match d.freeUnder w g with
      | none => d.setFld F.WNG_LASER_CMD_RESULT w 1
      | some u => (d.setFld F.WNG_LASER_CMD_BUSY w 1).beginSwap w g old u true (op == 2) false (d.trained w g)

/-- LASER_SWAP (R240): a write of WNG_LASER_CMD with OP SWAP. -/
def execLaserSwap (m : Master) (wing : Nat) (data : Word) (s : State) : Res :=
  ifUnit (decide (wing < 16)) <| onDev s fun d =>
    let w := setBits data 63 60 1
    d.regRow m .WNG_LASER_CMD wing w (fun d => d.wrLaserCmd wing w)

/-- SWAP_FADE (R240): a write of WNG_LASER_CMD with OP SWAP_FADE. -/
def execSwapFade (m : Master) (wing : Nat) (data : Word) (s : State) : Res :=
  ifUnit (decide (wing < 16)) <| onDev s fun d =>
    let w := setBits data 63 60 2
    d.regRow m .WNG_LASER_CMD wing w (fun d => d.wrLaserCmd wing w)

/-- No packet is queued or open on a lane's egress. -/
def Dev.egressEmpty (d : Dev) (l : Nat) : Bool :=
  !(d.net.pkts.any (fun p => p.place.egress == some l)) && d.txIdle l

/-- LASER_DRAIN_CHECK (R237): at 1.0 ms the queues are empty, or the swap goes on as a crossfade. -/
def execLaserDrainCheck (wing group : Nat) (s : State) : Res :=
  ifUnit (decide (wing < s.d.nWings ∧ group < 8)) <| onDev s fun d => d.whenSome (d.swapOf wing group) fun x d =>
    d.when (x.row == 0 && !x.fade) fun d =>
      if (groupLanes wing group).all (fun l => d.egressEmpty l) then d.setSwap wing group (some { x with row := 1 })
      else
        let d := d.setSwap wing group (some { x with row := 1, fade := true, fallback := true })
        let d := d.each (groupLanes wing group) (fun d l =>
          if d.ostate l = 3 ∧ !d.pwr.parked.contains l then d.setOstate l 1 else d)
        if x.byCmd then d.setFld F.WNG_LASER_CMD_RESULT wing 4 else d

/-- A lane is parked: it leaves UP by command, and its ring is detuned (R233, R304). -/
def Dev.parkLane (d : Dev) (l : Nat) : Dev :=
  let d := d.noteLost (fun d => ((if d.lstate l = 3 then d.exitUp l 6 0 else d.setState l 0).leaveService l))
  (d.setOstate l 2).setFld F.PWR_GOV_PARKED 0 (d.fld F.PWR_GOV_PARKED 0 + 1)

/-- The crossing switch has moved and the old laser is off: the drained lanes retrain (R237). -/
def Dev.switchOver (d : Dev) (w : Nat) (x : Swap) : Dev :=
  let d := if d.laserState w x.old = 4 then d.setLaser w x.old 0 else d
  let d := d.setSwap w x.group (some { x with row := 3 })
  let d := d.each (groupLanes w x.group) (fun d l =>
    if d.ostate l = 3 ∧ d.pwr.parked.contains l then d.parkLane l
    else if d.ostate l = 3 ∧ d.ltype l ≤ 1 ∧ 1 ≤ d.lstate l ∧ d.lstate l ≤ 5 then (d.retrainLane l).setOstate l 3
    else d)
  d.startGroup w x.group

/-- LASER_WAVELENGTH_READY (R237 to R239): the understudy is at wavelength, or has missed it. -/
def execLaserWavelengthReady (wing group : Nat) (ok : Bool) (s : State) : Res :=
  ifUnit (decide (wing < s.d.nWings ∧ group < 8)) <| onDev s fun d => d.whenSome (d.swapOf wing group) fun x d =>
    d.when (decide (x.row < 3) && (x.fade || x.row == 1)) fun d =>
      if !ok then (d.swapFailed wing x).settle
      else if x.fade then d.setSwap wing group (some { x with row := 3 })
      else (d.switchOver wing x).settle

/-- The lanes that a swap retrains have all failed to train (R239). -/
def Dev.retrainFailed (d : Dev) (x : Swap) : Bool :=
  let ls := x.lanes.filter (fun l => decide (d.ltype l ≤ 1) && d.flag F.PRT_LINK_CTL_EN l && d.ostate l != 2)
  !ls.isEmpty && ls.all (fun l => decide (d.lstate l ≤ 1) || d.lstate l == 6)

/-- LASER_SWAP_COMPLETE (R237): the retrained lanes are reinstated and the old laser retires. -/
def execLaserSwapComplete (wing group : Nat) (s : State) : Res :=
  ifUnit (decide (wing < s.d.nWings ∧ group < 8)) <| onDev s fun d => d.whenSome (d.swapOf wing group) fun x d =>
    d.when (x.row == 3 && !x.fade) fun d =>
      if d.retrainFailed x then (d.swapFailed wing x).settle
      else
        let d := d.each (groupLanes wing group) (fun d l => if d.ostate l = 3 then d.setOstate l 1 else d)
        d.swapDone wing x

/-- LASER_CROSSFADE_DONE (R238): the ramp has ended and the working laser is off. -/
def execLaserCrossfadeDone (wing group : Nat) (s : State) : Res :=
  ifUnit (decide (wing < s.d.nWings ∧ group < 8)) <| onDev s fun d => d.whenSome (d.swapOf wing group) fun x d =>
    d.when (x.row == 3 && x.fade) (fun d => d.swapDone wing x)

/-- LASER_TAP_FAIL (R234, R236, R239): a laser's output tap stays below half of its set power. -/
def execLaserTapFail (wing laser : Nat) (s : State) : Res :=
  ifUnit (decide (wing < s.d.nWings ∧ laser < 11)) <| onDev s fun d =>
    let st := d.laserState wing laser
    let g := d.fld F.WNG_LASER_GROUP (lasIdx wing laser)
    d.when (st == 2 || st == 4) fun d =>
      let d := (d.setLaser wing laser 6).notice N.LASER_FAILED (Src.die (wingSite wing)) 0 0
      if laser = 10 then (d.setFld F.WNG_LANE_STAT_OSTATE (65 * wing + 64) 0).whenSome (d.housePortOf wing) (fun p d => d.houseLockChange p false)
      else if st = 2 then ((d.groupDown wing g).autoSwap wing g laser true (d.trained wing g)).settle
      else
        let ls := d.trained wing g
        let d := d.groupDown wing g
        (d.whenSome (d.swapOf wing g) (fun x d =>
          d.setSwap wing g (some { x with fade := false, row := max 1 x.row, lanes := (x.lanes ++ ls).dedup }))).settle

/-! ## Margin reports (R232, R235, R236, R253) -/

/-- The median of a list of numbers; of an even count, the mean of the middle two, rounded down (DESIGN CHOICE). -/
def median (l : List Nat) : Nat :=
  let s := l.mergeSort (fun a b => decide (a ≤ b))
  (s.getD ((s.length - 1) / 2) 0 + s.getD (s.length / 2) 0) / 2

/-- One action of the ageing loop: toward the bias that gives the commissioned power, by at most 0.05 % of the maximum, how
far within that being a free value; never down past it (R235). -/
def ageStep (base need x : Nat) : Nat :=
  if base < need then min 2000 (base + x % 2) else if need < base then base - x % 2 else base

/-- The ageing loop acts once, unless it holds, and the bias triggers are judged (R235, R236). -/
def Dev.ageing (d : Dev) (w g k : Nat) (hold : Bool) : Dev :=
  let was := (d.wing w).bias.find k
  let base := was.getD (2 * d.fld F.WNG_LASER_BIAS (lasIdx w k))
  let (x, d) := d.freeNat
  let b := if hold then base else ageStep base (Config.biasFor (lasIdx w k) (d.oma.get 0 (8 * w + g)) x) x
  let d := (d.setFld F.WNG_LASER_BIAS (lasIdx w k) (b / 2)).modWing w (fun y => { y with bias := y.bias.put k b })
  let d := d.eolWarn w k
  if 1800 ≤ b ∧ (was = none ∨ base < 1800) then d.autoSwap w g k false (d.trained w g) else d

/-- LANE_MARGIN_LOW at the onset of a low lane margin under a good MARGIN (R236). -/
def Dev.laneLow (d : Dev) (l v margin : Nat) : Dev :=
  let w := l / 64
  if v < 10 ∧ 10 ≤ margin then
    if (d.wing w).lowLanes.contains l then d
    else (d.modWing w (fun y => { y with lowLanes := y.lowLanes ++ [l] })).notice N.LANE_MARGIN_LOW (Src.die (wingSite w)) 0
      (laneData l + v * 2 ^ 38)
  else d.modWing w (fun y => { y with lowLanes := y.lowLanes.filter (· ≠ l) })

/-- The MARGIN condition of R236: the third report in a row below 1.0 dB. -/
def Dev.marginLow (d : Dev) (w g k margin : Nat) : Dev :=
  let n := if margin < 10 then min 4 ((d.wing w).low.get 0 g + 1) else 0
  let d := d.modWing w (fun y => { y with low := y.low.putD 0 g n })
  if n = 3 ∧ d.laserState w k = 2 then d.autoSwap w g k false (d.trained w g) else d

/-- A FAR_MARGIN report for a lane: MARGIN of its group's laser, the ageing loop, and the conditions of R236. -/
def Dev.marginReport (d : Dev) (l v : Nat) : Dev :=
  let w := l / 64
  let g := laneGroup l
  let d := (d.setFld F.WNG_LANE_STAT_FAR_MARGIN (wngLane l) v).modLane l (fun x => { x with farValid := true })
  d.whenSome (d.groupLaser w g) fun k d =>
    let lit := (groupLanes w g).filter (fun l => d.ostate l == 1 && (d.lane l).farValid)
    let m := if d.fades.contains (w, g) then 5
      else median (lit.map (fun l => d.fld F.WNG_LANE_STAT_FAR_MARGIN (wngLane l)))
    let d := if lit.isEmpty then d else d.setFld F.WNG_LASER_MARGIN (lasIdx w k) m
    d.when (d.laserState w k == 2) fun d =>
      let d := d.ageing w g k (decide (lit.length < 2))
      if lit.length < 2 ∨ d.laserState w k ≠ 2 then d else (d.laneLow l v m).marginLow w g k m

/-- IDLE_FLIT_ARRIVAL (R253 to R255): a good idle flit gives SERVING, credit totals, the margin report, ACK and the
replay request. -/
def execIdleFlitArrival (lane : Nat) (flit : Flit) (s : State) : Res :=
  ifUnit (decide (lane < s.d.nLanes)) <| onDevM s fun m d =>
    d.when (d.linkRuns lane && fcwType flit == 0 && crcGood flit) fun d =>
      let d := d.noteLost (fun d => d.modLane lane (fun x => { x with peerServing := idleServing flit }))
      let d := d.each (List.range 8) (fun d v =>
        d.modLv (lvKey lane v) (fun x =>
          let x := { x with nTot := idleN flit v }
          if 1 ≤ v ∧ v ≤ 6 then { x with dTot := idleD flit v } else x))
      let d := if idleMarginValid flit then d.marginReport lane (idleMargin flit) else d
      (d.takeAck lane flit).settle.declareDue m

/-! ## Parked lanes and idle lasers (R233) -/

/-- LANE_PARK (R233, R304): a lane the governor has chosen is parked once its egress is empty and DRAINING has been sent. -/
def execLanePark (lane : Nat) (s : State) : Res :=
  ifUnit (decide (lane < s.d.nLanes)) <| onDev s fun d =>
    d.when (d.pwr.parked.contains lane && d.ostate lane == 3 && d.egressEmpty lane && !(d.lane lane).hbDue)
      (fun d => (d.parkLane lane).settle)

/-- LASER_IDLE_OFF (R233): none of the laser's lanes has been LIT for 10 ms. -/
def execLaserIdleOff (wing laser : Nat) (s : State) : Res :=
  ifUnit (decide (wing < s.d.nWings ∧ laser < 10)) <| onDev s fun d =>
    let ls := groupLanes wing (d.fld F.WNG_LASER_GROUP (lasIdx wing laser))
    d.when (d.laserState wing laser == 2 && ls.any (fun l => d.ostate l == 2) && ls.all (fun l => d.ostate l != 1 && d.ostate l != 3))
      (fun d => d.setLaser wing laser 0)

/-- LASER_WARMED (R233): a working laser that was turned off goes RUNNING, and lanes of its group may train. -/
def execLaserWarmed (wing laser : Nat) (s : State) : Res :=
  ifUnit (decide (wing < s.d.nWings ∧ laser < 10)) <| onDev s fun d =>
    let g := d.fld F.WNG_LASER_GROUP (lasIdx wing laser)
    d.when (d.laserState wing laser == 1 && decide (g < 8)) (fun d => (d.laserRuns wing laser).startGroup wing g)

/-! ## Monitors and heaters (R241 to R244) -/

/-- RX_POWER_REFRESH (R232, R234, R241): the received power, and the receiver's margin of a data lane; on lane 64 the bias
that the service laser's own loop has come to. A dark lane 64 reads zero. -/
def execRxPowerRefresh (wing j power near : Nat) (s : State) : Res :=
  ifUnit (decide (wing < s.d.nWings ∧ j < 65)) <| onDev s fun d =>
    let i := 65 * wing + j
    d.when (d.siteUp (wingSite wing) && (j != 64 || (d.housePortOf wing).isSome)) fun d =>
      let d := d.setFld F.WNG_LANE_STAT_RX_POWER i power
      if j = 64 then (if d.laserState wing 10 = 2 then (d.settleBias wing 10).eolWarn wing 10 else d)
      else (d.setFld F.WNG_LANE_STAT_NEAR_MARGIN i (min near 1023)).modLane (64 * wing + j) (fun x => { x with nearValid := true })

/-- Coefficient M[h][k] of the crosstalk matrix in use, in units of 2⁻¹⁵ (R243). -/
def Wing.coef (x : Wing) (h k : Nat) : Int :=
  let dd := k + 8 - h
  signedOf 16 (bitsOf (x.xt.get 0 (5 * h + dd / 4)) (16 * (3 - dd % 4) + 15) (16 * (3 - dd % 4)))

/-- What a heater receives, in units of 2⁻¹⁵ of drive power: what the loops demand less the crosstalk of its neighbours,
clamped to its range; coefficients outside 0 to 127 and the diagonal are ignored (R243). -/
def Wing.heaterGets (x : Wing) (p : Nat → Int) (h : Nat) : Int :=
  let ks := (List.range 17).filterMap (fun i => if 8 ≤ h + i ∧ h + i < 136 ∧ i ≠ 8 then some (h + i - 8) else none)
  max 0 (min (2 ^ 15 * Config.heaterMax h) (ks.foldl (fun a k => a - x.coef h k * p k) (2 ^ 15 * p h)))

/-- Drive power demanded of a heater: its loop's, with the correction of the last telemetry ahead of it where FF_EN is 1
(R242). -/
def Dev.heaterDemand (d : Dev) (w h : Nat) : Int :=
  Config.loopDrive (d.wing w).loops w h
    + (match (d.wing w).ff with | some n => if d.flag F.WNG_CTL_FF_EN w then Config.feedForward n w h else 0 | none => 0)

/-- Drive power of a heater, in units of 2⁻¹⁵, by XT_EN with or without the crosstalk matrix (R243). -/
def Dev.heaterDrive (d : Dev) (w h : Nat) : Int :=
  let x := if d.flag F.WNG_CTL_XT_EN w then d.wing w else { d.wing w with xt := [] }
  x.heaterGets (d.heaterDemand w) h

/-- HEATER_TELEMETRY (R242): telemetry gives a new correction, and the largest ring lock error is kept. -/
def execHeaterTelemetry (wing heater err : Nat) (s : State) : Res :=
  ifUnit (decide (wing < s.d.nWings ∧ heater < 64)) <| onDev s fun d =>
    d.when (d.siteUp (wingSite wing)) fun d =>
      let (x, d) := d.freeNat
      let d := d.modWing wing (fun y => { y with ffLost := false, ff := some (2 * x), loops := 2 * x + 1 })
      let e := min err 65535
      if d.fld F.WNG_HEAT_STAT_WORST_PM wing < e then
        (d.setFld F.WNG_HEAT_STAT_WORST_PM wing e).setFld F.WNG_HEAT_STAT_WORST_HEATER wing heater
      else d

/-- HEAT_FF_LOST (R242): 100 µs without telemetry; the correction returns to zero. -/
def execHeatFfLost (wing : Nat) (s : State) : Res :=
  ifUnit (decide (wing < s.d.nWings)) <| onDev s fun d =>
    d.when (d.siteUp (wingSite wing) && !(d.wing wing).ffLost) fun d =>
      (d.modWing wing (fun y => { y with ffLost := true, ff := none })).notice N.HEAT_FF_LOST (Src.die (wingSite wing)) 0 0

/-- HEATER_RANGE (R244): a heater has been clamped for 10 µs. -/
def execHeaterRange (wing heater : Nat) (atMax : Bool) (s : State) : Res :=
  ifUnit (decide (wing < s.d.nWings ∧ heater < 128)) <| onDev s fun d =>
    d.when (d.siteUp (wingSite wing)) fun d =>
      let d := d.noticeLim N.HEATER_RANGE (Src.die (wingSite wing)) 0 (heater * 2 ^ 57 + bit atMax * 2 ^ 56) (128 * wing + heater)
      let d := d.modWing wing (fun y => { y with clamped := y.clamped.filter (· ≠ heater) ++ [heater] })
      if heater < 64 then (d.darkLane (64 * wing + heater) 2).settle
      else if heater < 120 then d
      else (d.groupDown wing (heater - 120)).settle

/-- A lane that was dark for a heater trains again; a border lane's light is back, and its PCS locks by itself (R244). -/
def Dev.relight (d : Dev) (l : Nat) : Dev :=
  if d.fld F.PRT_LINK_CTL_TYPE l = 2 then
    (if d.flag F.PRT_LINK_CTL_EN l ∧ d.laserOn l ∧ d.siteUp (wingSite (l / 64)) ∧ !(d.wing (l / 64)).clamped.contains (l % 64)
        ∧ !(d.wing (l / 64)).clamped.contains (120 + laneGroup l) then d.setOstate l 1 else d)
  else if d.lstate l = 0 ∨ d.lstate l = 6 then (if d.fld F.PRT_LINK_CTL_TYPE l ≤ 1 ∧ d.flag F.PRT_LINK_CTL_EN l ∧ d.mayTrain l then d.enterTraining l true else d)
  else d

/-- HEATER_IN_RANGE (R244): the lock point is back within range. -/
def execHeaterInRange (wing heater : Nat) (s : State) : Res :=
  ifUnit (decide (wing < s.d.nWings ∧ heater < 128)) <| onDev s fun d =>
    d.when ((d.wing wing).clamped.contains heater) fun d =>
      let d := d.modWing wing (fun y => { y with clamped := y.clamped.filter (· ≠ heater) })
      if heater < 64 then d.relight (64 * wing + heater)
      else if heater < 120 then d
      else d.each (groupLanes wing (heater - 120)) (fun d l => d.relight l)

/-- A write of WNG_CTL: XT_EN is 0 for good on KPL-Y512-H (R243, R249). -/
def Dev.wrWngCtl (d : Dev) (w : Nat) (x : Word) : Dev :=
  d.plainWrite .WNG_CTL w (if d.fuse.part = 0x0512 then setBits x F.WNG_CTL_XT_EN.hi F.WNG_CTL_XT_EN.lo 0 else x)

/-- XT_COMMIT (R243): a write of WNG_CTL with XT_COMMIT 1. -/
def execXtCommit (m : Master) (wing : Nat) (data : Word) (s : State) : Res :=
  ifUnit (decide (wing < 16)) <| onDev s fun d =>
    let w := setBits data F.WNG_CTL_XT_COMMIT.hi F.WNG_CTL_XT_COMMIT.lo 1
    d.regRow m .WNG_CTL wing w (fun d => d.wrWngCtl wing w)

/-- A write of WNG_XTALKh_w goes to the shadow, unless a commit waits (R243, R249). -/
def Dev.wrXtalk (d : Dev) (i : Nat) (x : Word) : Dev :=
  if d.fuse.part = 0x0512 ∨ d.flag F.WNG_CTL_XT_COMMIT (i / 640) then d
  else d.plainWrite .WNG_XTALK i (if i % 5 = 4 then setBits x 47 0 0 else x)

/-- XTALK_APPLY (R243): the whole shadow is in use. -/
def execXtalkApply (wing : Nat) (s : State) : Res :=
  ifUnit (decide (wing < s.d.nWings)) <| onDev s fun d =>
    d.when (d.flag F.WNG_CTL_XT_COMMIT wing) fun d =>
      let sh := (d.regIndices .WNG_XTALK).filter (fun i => i / 640 == wing)
      (d.setFld F.WNG_CTL_XT_COMMIT wing 0).modWing wing (fun y => { y with xt := sh.map (fun i => (i % 640, d.rd .WNG_XTALK i)) })

/-! ## Dark circuits (R248) -/

/-- The monitor of a network input reads below the dark threshold. -/
def Dev.inputDark (d : Dev) (w i : Nat) : Bool :=
  let p := d.fld F.WNG_LANE_STAT_RX_POWER (65 * w + 48 + i)
  p == 0x800 || decide (signedOf 12 p < -(10 * (d.fld F.WNG_TRAP_CTL_DARK w : Int)))

/-- DATA of TRAP_DARK and TRAP_LIT. -/
def trapData (i j : Nat) : Nat := i * 2 ^ 60 + j * 2 ^ 56

/-- The monitor of a network input reads above the dark threshold again (R248). -/
def Dev.inputLit (d : Dev) (w i : Nat) : Bool :=
  let p := d.fld F.WNG_LANE_STAT_RX_POWER (65 * w + 48 + i)
  p != 0x800 && decide (-(10 * (d.fld F.WNG_TRAP_CTL_DARK w : Int)) < signedOf 12 p)

/-- A circuit of the map in use carries no light: its input is dark, an element on its path is out of range (R244), or the
Wing does not run (R34, R246). -/
def Dev.circuitDark (d : Dev) (w : Nat) (c : Nat × Nat) : Bool :=
  d.inputDark w c.2 || (((d.wing w).elements c.1).any (fun h => (d.wing w).clamped.contains h)) || !d.siteUp (wingSite w)
    || d.power == .shutdown

/-- TRAP_DARK (R244, R248): a circuit has been dark for 1 ms. -/
def execTrapDark (wing input : Nat) (s : State) : Res :=
  ifUnit (decide (wing < s.d.nWings ∧ input < 16)) <| onDev s fun d =>
    d.whenSome ((trapCircuits (d.wing wing).trap).find? (fun c => c.2 == input)) fun c d =>
      d.when (!(d.wing wing).dark.contains input && d.circuitDark wing c) fun d =>
        (d.modWing wing (fun y => { y with dark := y.dark ++ [input] })).notice N.TRAP_DARK (Src.die (wingSite wing)) 0 (trapData input c.1)

/-- TRAP_LIT (R248): a dark circuit carries light again. -/
def execTrapLit (wing input : Nat) (s : State) : Res :=
  ifUnit (decide (wing < s.d.nWings ∧ input < 16)) <| onDev s fun d =>
    d.whenSome ((trapCircuits (d.wing wing).trap).find? (fun c => c.2 == input)) fun c d =>
      d.when ((d.wing wing).dark.contains input && !d.circuitDark wing c && d.inputLit wing input) fun d =>
        (d.modWing wing (fun y => { y with dark := y.dark.filter (· ≠ input) })).notice N.TRAP_LIT (Src.die (wingSite wing)) 0 (trapData input c.1)

end Sys2Proof.Machine
end

