-- ==== Sys2Proof/Machine/Power.lean ====
section
/-! DEFINITION. Power: measurement, caps, the governor and the energy log (R299 to R307). -/

namespace Sys2Proof.Machine

def Dev.modPwr (d : Dev) (f : Pwr → Pwr) : Dev := { d with pwr := f d.pwr }

/-! ## The energy log (R307) -/

/-- The running minute closes: its entry, PWR_MINUTE, and SEQ (R307). -/
def Dev.closeMinute (d : Dev) : Dev :=
  let x := d.pwr
  let seq := x.seq % 2 ^ 24
  let n := seq % 64
  let al := d.syncedNow
  let a := seq * 2 ^ 40 + 2 ^ 39 + bit al * 2 ^ 38 + bit x.incomplete * 2 ^ 37 + bit x.over_ * 2 ^ 36 + bit x.inst * 2 ^ 35
    + bit x.unmet * 2 ^ 34 + x.energy % 2 ^ 28
  let b := x.peak % 2 ^ 16 * 2 ^ 48 + (if al then d.timeNs else d.frcNs) % 2 ^ 48
  let d := (d.wr .PWR_LOG_A n (BitVec.ofNat 64 a)).wr .PWR_LOG_B n (BitVec.ofNat 64 b)
  let d := d.notice N.PWR_MINUTE Src.power 0 (seq * 2 ^ 40 + x.energy % 2 ^ 28)
  d.modPwr (fun x => { x with energy := 0, peak := 0, over_ := false, inst := false, incomplete := false,
                              unmet := d.flag F.PWR_STAT_UNMET 0, seq := seq + 1 })

/-- MINUTE_CLOSE (R307). -/
def execMinuteClose (s : State) : Res := onDev s Dev.closeMinute

/-! ## Caps (R300) -/

/-- A write would leave both caps enabled with the instantaneous one below the other (R300). -/
def capsClash (min_ inst : Word) : Bool :=
  fldOf F.PWR_CAP_MIN_EN min_ == 1 && fldOf F.PWR_CAP_INST_EN inst == 1
  && decide (fldOf F.PWR_CAP_INST_CAP inst < fldOf F.PWR_CAP_MIN_CAP min_)

/-- A write of PWR_CAP_MIN (R300, R301). -/
def Dev.wrCapMin (d : Dev) (w : Word) : Dev :=
  if capsClash w (d.rd .PWR_CAP_INST 0) then d.notice N.PWR_CAP_REFUSED Src.power 0 0
  else
    let old := d.fld F.PWR_CAP_MIN_CAP 0
    let d := d.plainWrite .PWR_CAP_MIN 0 w
    if fldOf F.PWR_CAP_MIN_CAP w < old then d.modPwr (fun x => { x with oldCaps := x.oldCaps ++ [(old, d.tmu.total)] }) else d

/-- A write of PWR_CAP_INST (R300). -/
def Dev.wrCapInst (d : Dev) (w : Word) : Dev :=
  if capsClash (d.rd .PWR_CAP_MIN 0) w then d.notice N.PWR_CAP_REFUSED Src.power 0 0 else d.plainWrite .PWR_CAP_INST 0 w

/-- PWR_CAP_MIN_WRITE (R300). -/
def execPwrCapMinWrite (m : Master) (data : Word) (s : State) : Res :=
  onDev s fun d => d.regRow m .PWR_CAP_MIN 0 data (fun d => d.wrCapMin data)

/-- PWR_CAP_INST_WRITE (R300). -/
def execPwrCapInstWrite (m : Master) (data : Word) (s : State) : Res :=
  onDev s fun d => d.regRow m .PWR_CAP_INST 0 data (fun d => d.wrCapInst data)

/-! ## The governor (R301 to R304) -/

/-- Energy of the newest `n` ms, in mJ. -/
def Pwr.last (x : Pwr) (n : Nat) : Nat := (x.hist.take n).foldl (· + ·) 0

/-- The target of R301: none for no limit. Power above what the spend allows is 0. -/
def Dev.govTarget (d : Dev) (thermal : Option Nat) : Option Nat :=
  let low (o : Option Nat) (v : Nat) : Option Nat := some (match o with | some t => min t v | none => v)
  let t := thermal
  let t := if d.flag F.PWR_CAP_INST_EN 0 then low t (d.fld F.PWR_CAP_INST_CAP 0) else t
  if d.flag F.PWR_CAP_MIN_EN 0 then low t ((d.fld F.PWR_CAP_MIN_CAP 0 * 60000 - d.pwr.last 59000) / 1000) else t

/-- POWER is above TARGET. -/
def Dev.overTarget (d : Dev) : Bool :=
  match d.pwr.target with | some t => decide (t < d.fld F.PWR_STAT_POWER 0) | none => false

/-- TARGET as PWR_STAT shows it; with no limit in force its value is not stated, and free. -/
def Dev.showTarget (d : Dev) (t : Option Nat) : Dev :=
  match t with
  | some v => d.setFld F.PWR_STAT_TARGET 0 v
  | none => let (x, d) := d.freeNat; d.setFld F.PWR_STAT_TARGET 0 x

/-- The cap that a 60 s window ending now is held to: an old one for 60 s after it was lowered (R301). -/
def Dev.windowCap (d : Dev) : Nat :=
  (d.pwr.oldCaps.filter (fun c => decide (d.since c.2 < 60000000000 * 65536))).foldl (fun a c => max a c.1) (d.fld F.PWR_CAP_MIN_CAP 0)

/-- GOVERNOR_UPDATE (R299, R301 to R304): 1 ms of measured energy, in mJ. -/
def execGovernorUpdate (energy : Nat) (s : State) : Res :=
  onDev s fun d =>
    let d := d.modPwr (fun x => { x with
      hist := (energy :: x.hist).take 60000, energy := x.energy + energy, peak := max x.peak energy
      oldCaps := x.oldCaps.filter (fun c => decide (d.since c.2 < 60000000000 * 65536)) })
    let d := (d.setFld F.PWR_STAT_POWER 0 energy).setFld F.PWR_STAT_WINDOW 0 (d.pwr.last 60000 / 60000)
    let d := d.modPwr (fun x => { x with thermal := x.thermal.map (fun _ => energy * 95 / 100) })
    let t := d.govTarget d.pwr.thermal
    let d := (d.showTarget t).modPwr (fun x => { x with target := t })
    let instOn := d.flag F.PWR_CAP_INST_EN 0 && decide (d.fld F.PWR_CAP_INST_CAP 0 < energy)
    let d := d.setFld F.PWR_STAT_INST_OVER 0 (bit instOn)
    let d := if d.overTarget then d else d.setFld F.PWR_STAT_UNMET 0 0
    let unmet := d.flag F.PWR_STAT_UNMET 0
    let wide := d.flag F.PWR_CAP_MIN_EN 0 && decide (101 * (d.windowCap * 60000) < 100 * d.pwr.last 60000)
    d.modPwr (fun x =>
      let n := if instOn then x.overMs + 1 else 0
      { x with overMs := n, inst := x.inst || (decide (10 < n) && !unmet), over_ := x.over_ || wide
               calm := if (match t with | some v => decide (100 * energy ≤ 97 * v) | none => true) then x.calm + 1 else 0 })

/-- A lane in service, or one that drains for a swap of its laser and would be (R239, R304, R309). -/
def Dev.mayPark (d : Dev) (l : Nat) : Bool :=
  d.inService l || (d.ostate l == 3 && (d.swapOf (l / 64) (laneGroup l)).isSome && d.stands l && (d.lane l).peerServing
    && (d.lane l).exiting.isNone)

/-- Lanes the governor may park, highest index first (R304). -/
def Dev.parkable (d : Dev) : List Nat :=
  ((List.range d.nLanes).reverse).filter (fun l =>
    d.ltype l == 1 && d.mayPark l && !d.pwr.parked.contains l
    && (List.range d.nLanes).any (fun k => k != l && d.inService k && d.peerCa k == d.peerCa l) && d.setsKeep [l] [l])

/-- A lane is chosen: ineligible from now on, and DRAINING goes out on it (R304). -/
def Dev.choosePark (d : Dev) (l : Nat) : Dev :=
  let d := d.noteLost (fun d => d.setOstate l 3)
  let d := (d.modLane l (fun x => { x with hbDue := true })).modPwr (fun x => { x with parked := x.parked ++ [l] })
  d.countPwr C.GOV_PARK

/-- A lane is unparked: it trains again, once its laser is on (R233, R304). -/
def Dev.unpark (d : Dev) (l : Nat) : Dev :=
  let d := d.modPwr (fun x => { x with parked := x.parked.filter (· ≠ l) })
  if d.ostate l = 2 then
    let w := l / 64
    let d := (d.setOstate l 0).setFld F.PWR_GOV_PARKED 0 (d.fld F.PWR_GOV_PARKED 0 - 1)
    let d := d.whenSome ((d.groupLaser w (laneGroup l)).filter (fun k => d.laserState w k == 0 && (d.swapOf w (laneGroup l)).isNone)) (fun k d => d.setLaser w k 1)
    if d.lstate l = 0 ∧ d.fld F.PRT_LINK_CTL_TYPE l ≤ 1 then d.startLane l else d
  else if d.ostate l = 3 ∧ (d.swapOf (l / 64) (laneGroup l)).all (fun x => x.fade) then d.setOstate l 1
  else d

/-- The next action that gives up power (R304), or the governor is exhausted (R303). -/
def Dev.govDown (d : Dev) : Dev :=
  if 4 < d.fld F.PWR_GOV_LOOM_RATE 0 then d.setFld F.PWR_GOV_LOOM_RATE 0 (d.fld F.PWR_GOV_LOOM_RATE 0 - 1)
  else if d.fld F.PWR_GOV_STEP 0 < d.fld F.PWR_GOV_STEP_MIN 0 then
    (d.setFld F.PWR_GOV_STEP 0 (d.fld F.PWR_GOV_STEP 0 + 1)).countPwr C.GOV_STEP_DOWN
  else match d.parkable with
    | l :: _ => d.choosePark l
    | [] => d

/-- The governor has no action left (R303). -/
def Dev.govSpent (d : Dev) : Bool :=
  decide (d.fld F.PWR_GOV_LOOM_RATE 0 ≤ 4 ∧ d.fld F.PWR_GOV_STEP_MIN 0 ≤ d.fld F.PWR_GOV_STEP 0) && d.parkable.isEmpty

/-- Undoes one action, in reverse order (R304). -/
def Dev.govUp (d : Dev) : Dev :=
  match d.pwr.parked.getLast? with
  | some l => d.unpark l
  | none =>
    if (if d.flag F.PWR_GOV_BOOST 0 then 0 else 2) < d.fld F.PWR_GOV_STEP 0 then d.setFld F.PWR_GOV_STEP 0 (d.fld F.PWR_GOV_STEP 0 - 1)
    else if d.fld F.PWR_GOV_LOOM_RATE 0 < 16 then d.setFld F.PWR_GOV_LOOM_RATE 0 (d.fld F.PWR_GOV_LOOM_RATE 0 + 1)
    else d

/-- GOVERNOR_ACTION (R304): an action while POWER is above TARGET; one undone after 10 ms of calm. -/
def execGovernorAction (s : State) : Res :=
  onDev s fun d =>
    if d.overTarget then d.govDown.settle
    else if 10 ≤ d.pwr.calm then (d.govUp.modPwr (fun x => { x with calm := 0 })).settle
    else d

/-- PWR_CAP_UNMET (R303): the governor has been exhausted for 1 ms. -/
def execPwrCapUnmet (s : State) : Res :=
  onDev s fun d => d.when (d.govSpent && d.overTarget && !d.flag F.PWR_STAT_UNMET 0) fun d =>
    ((d.setFld F.PWR_STAT_UNMET 0 1).modPwr (fun x => { x with unmet := true })).notice N.PWR_CAP_UNMET Src.power 0 0

/-- A write of PWR_GOV: the step keeps within what STEP_MIN and BOOST allow (R304). -/
def Dev.wrGov (d : Dev) (w : Word) : Dev :=
  let d := d.plainWrite .PWR_GOV 0 w
  let lo := if d.flag F.PWR_GOV_BOOST 0 then 0 else 2
  d.setFld F.PWR_GOV_STEP 0 (max lo (min (d.fld F.PWR_GOV_STEP 0) (d.fld F.PWR_GOV_STEP_MIN 0)))

/-- Offset of a governor step's Stage supply from that of step 2, in mV (R305). -/
def stepOffset (step : Nat) : Int := match step with | 0 => 60 | 1 => 30 | n => -20 * ((n : Int) - 2)

/-- The Stage supply in mV: fused for step 2, with the offset of the step in force and the ageing guard-band (R305). -/
def Dev.stageSupply (d : Dev) : Int := (d.fuse.stepTwo : Int) + stepOffset (d.fld F.PWR_GOV_STEP 0) + d.fuse.guard

/-- REPLICA_MEASURE (R305, R306): the largest Stage reading and its temperature-corrected value, and the reading of each Loom,
in 1/1,024. -/
def execReplicaMeasure (factor : Replicas) (corrected : Nat) (s : State) : Res :=
  onDev s fun d =>
    let d := (d.setFld F.PWR_GOV_FACTOR 0 (min factor.stage 4095)).modPwr (fun x => { x with loomFactor := (factor.looms.take 4).zipIdx.map (fun y => (y.2, y.1)) })
    if 102400 * 102 < corrected * 10000 then { d with fuse := { d.fuse with guard := min 30 (d.fuse.guard + 5) } } else d

end Sys2Proof.Machine
end

