-- ==== Sys2Proof/Machine/Time.lean ====
section
/-! DEFINITION. The time unit (R266 to R271): its registers, steps, synchronisation, PLL loss, and TIME.PTP at FN 0x00. -/

namespace Sys2Proof.Machine

/-- Makes a change that may move SYNCED: a rise raises TIME_SYNC, and either way the running minute closes first, in the
time that stood (R271, R307). -/
def Dev.syncEdge (d : Dev) (f : Dev → Dev) : Dev :=
  if (f d).syncedNow = d.syncedNow then f d
  else
    let x := f d.closeMinute
    if x.syncedNow then (x.notice N.TIME_SYNC Src.time 0 0).markResume else x

/-- Hardware clears SYNC, and TIME_UNSYNC tells where it was 1 (R271); the servo's count of Sync intervals in a row starts
anew (R270). -/
def Dev.clearSync (d : Dev) : Dev :=
  let d : Dev := { d with tmu := { d.tmu with good := 0 } }
  if d.flag F.TMU_CTL_SYNC 0 then (d.setFld F.TMU_CTL_SYNC 0 0).notice N.TIME_UNSYNC Src.time 0 0 else d

/-- A write of TMU_RATE: T does not jump (R267). -/
def Dev.wrTmuRate (d : Dev) (w : Word) : Dev :=
  let t := d.timeFull
  { d.plainWrite .TMU_RATE 0 w with tmu := { d.tmu with base := t, baseFrc := d.tmu.frc } }

/-- T stepped by a signed number of 2^-16 ns (R267, R269). -/
def Dev.stepTime (d : Dev) (x : Int) : Dev :=
  { d with tmu := { d.tmu with base := wrapTo 112 ((d.timeFull : Int) + x * 2 ^ 32), baseFrc := d.tmu.frc } }

/-- Armed launch entries whose TIME is not due. -/
def Dev.waitingLaunches (d : Dev) : List Nat :=
  (d.regs.filterMap (fun x => if keyNum x.1 = RF.num .PRT_LAUNCH then some (keyIdx x.1) else none)).filter (fun i =>
    d.flag F.PRT_LAUNCH_VALID i && !d.launchDue (d.fld F.PRT_LAUNCH_TIME i))

/-- A write of TMU_OFFSET: the minute closes, then the step, VALID, STEPS, running orders at once, and launch entries it passed (R267, R269,
R275, R307). -/
def Dev.wrTmuOffset (d : Dev) (w : Word) : Dev :=
  let ahead := d.waitingLaunches
  let was := d.syncedNow
  let d := d.closeMinute.stepTime (w.toInt * 65536 + d.fld F.TMU_OFFSET_FINE_STEP_FRAC 0)
  let d := (d.setFld F.TMU_STAT_VALID 0 1).bumpSat F.TMU_STAT_STEPS 0 1
  let d := if !was ∧ d.syncedNow then d.notice N.TIME_SYNC Src.time 0 0 else d
  let d := d.each (ahead.filter (fun i => d.launchDue (d.fld F.PRT_LAUNCH_TIME i))) (fun d i =>
    d.modPort (i / 64) (fun p => { p with late := p.late.filter (· ≠ i % 64) ++ [i % 64] }))
  d.markResume.each d.roPorts (fun d l => d.moveGates l id)

/-- Some port's running order is RUNNING or PENDING (R271). -/
def Dev.roBusy (d : Dev) : Bool :=
  d.roPorts.any (fun l => d.fld F.PRT_RO_CTL_STATE l == 1 || d.fld F.PRT_RO_CTL_STATE l == 2)

/-- A write of TMU_CTL (R271). -/
def Dev.wrTmuCtl (d : Dev) (w : Word) : Dev :=
  if fldOf F.TMU_CTL_DOMAIN w = d.fld F.TMU_CTL_DOMAIN 0 then d.syncEdge (fun d => d.plainWrite .TMU_CTL 0 w)
  else if d.roBusy then d.notice N.TIME_DOMAIN_REFUSED Src.time 0 0
  else d.syncEdge (fun d => d.clearSync.plainWrite .TMU_CTL 0 (setBits w F.TMU_CTL_SYNC.hi F.TMU_CTL_SYNC.lo 0))

/-- TMU_RATE_WRITE (R267). -/
def execTmuRateWrite (m : Master) (data : Word) (s : State) : Res :=
  onDev s fun d => d.regRow m .TMU_RATE 0 data (fun d => d.wrTmuRate data)

/-- TMU_OFFSET_STEP (R269). -/
def execTmuOffsetStep (m : Master) (data : Word) (s : State) : Res :=
  onDev s fun d => d.regRow m .TMU_OFFSET 0 data (fun d => d.wrTmuOffset data)

/-- TMU_CTL_WRITE (R271). -/
def execTmuCtlWrite (m : Master) (data : Word) (s : State) : Res :=
  onDev s fun d => d.regRow m .TMU_CTL 0 data (fun d => d.wrTmuCtl data)

/-- Fraction of T in 2^-16 ns (R267, R268). -/
def Dev.timeFrac (d : Dev) : Nat := d.timeFull / 2 ^ 32 % 65536

/-- A read of TMU_NOW latches the fraction (R268). -/
def Dev.latchNow (d : Dev) : Dev := { d with tmu := { d.tmu with latch := d.timeFrac } }

/-- TMU_NOW_READ (R268). -/
def execTmuNowRead (m : Master) (s : State) : Res :=
  onDev s fun d =>
    match d.regRefused m .TMU_NOW 0 none with
    | some st => d.emitOut (.reg st 0)
    | none => d.latchNow.emitOut (.reg St.OK (BitVec.ofNat 64 d.timeNs))

/-- SERVO_HOLD_EXPIRY (R271). -/
def execServoHoldExpiry (s : State) : Res :=
  onDev s fun d => d.when (d.fld F.TMU_CTL_HOLD 0 != 0) (fun d => d.syncEdge Dev.clearSync)

/-- TMU_PLL_UNLOCK (R34, R130, R271): time is lost, and running orders are suspended. -/
def execTmuPllUnlock (s : State) : Res :=
  onDev s fun d => d.when (d.flag F.TMU_STAT_LOCKED 0) fun d =>
    let d := (d.syncEdge (fun d => (d.clearSync.setFld F.TMU_STAT_VALID 0 0).setFld F.TMU_STAT_LOCKED 0 0)).notice N.TIME_LOSS Src.time 0 0
    d.each d.roPorts (fun d l => (d.modPort l (fun p => { p with suspended := true })).roState l)

/-- TMU_PLL_RELOCK (R34): the time-unit PLL locks again. -/
def execTmuPllRelock (s : State) : Res :=
  onDev s fun d => d.when (d.tmu.refOk && decide (2 ≤ d.fld F.GLB_START_PHASE 0)) (fun d => d.syncEdge (fun d => d.setFld F.TMU_STAT_LOCKED 0 1))

/-! ## The servo (R270) -/

/-- A write of TMU_CTL.SYNC by the Prompter. -/
def Dev.servoSync (d : Dev) (on : Nat) : Dev :=
  if d.fld F.TMU_CTL_SYNC 0 = on then d else d.syncEdge (fun d => d.setFld F.TMU_CTL_SYNC 0 on)

/-- The servo steps time by `x` units of 2^-16 ns: a write of TMU_OFFSET_FINE and one of TMU_OFFSET (R267). -/
def Dev.servoStep (d : Dev) (x : Int) : Dev :=
  (d.setFld F.TMU_OFFSET_FINE_STEP_FRAC 0 (x.emod 65536).toNat).wrTmuOffset (BitVec.ofInt 64 (x.fdiv 65536))

/-- The servo slews TMU_RATE: to a legal rate that the spec does not state. -/
def Dev.servoSlew (d : Dev) : Dev :=
  let r := d.freeNat
  r.2.wrTmuRate (BitVec.ofNat 64 (wrapTo 40 ((r.1 % (2 ^ 38 + 1) : Nat) - 2 ^ 37 : Int)))

/-- SYNC after a Sync interval with an estimate, in 2^-16 ns: 1 after 16 in a row within ±5 ns, 0 outside ±50 ns. -/
def Dev.servoJudge (d : Dev) (est : Int) : Dev :=
  let n := if est.natAbs ≤ 5 * 65536 then d.tmu.good + 1 else 0
  let d : Dev := { d with tmu := { d.tmu with good := n } }
  if 16 ≤ n then d.servoSync 1 else if 50 * 65536 < est.natAbs then d.servoSync 0 else d

/-- A Delay_Req of the servo to the device that sent a Sync: the common header, and T as its originTimestamp. When one is
sent is the model's choice. -/
def Dev.delayReq (d : Dev) (p : Pkt) : Pkt :=
  let t := ptpTime d.timeUnits
  { id := 0, hdr := mkHdr p.src (d.ownFn 0) p.prod p.gen 0x50 1 p.tc, rw := BitVec.ofNat 32 (p.opx % 65536), vl := 7, inl := 1024, own := true,
    pay := mkPay [(4, 1, 1), (5, 1, 2), (6, 2, 44), (8, 1, p.opx % 256), (24, 10, Config.clockIdentity), (34, 2, d.tmu.reqSeq),
      (36, 1, 1), (37, 1, 0x7F), (38, 6, t.1)],
    body := splitBody 1 (bytesOf 4 t.2.1) }

/-- sourcePortIdentity and sequenceId of a TIME.PTP message. -/
def Pkt.ptpKey (p : Pkt) : Nat := ofBytes (p.bytesFrom 24 12)
/-- originTimestamp, preciseOriginTimestamp or receiveTimestamp of a TIME.PTP message. -/
def Pkt.ptpStamp (p : Pkt) : Nat := ofBytes (p.bytesFrom 38 10)
/-- correctionField of a TIME.PTP message. -/
def Pkt.ptpCorr (p : Pkt) : Nat := ofBytes (p.bytesFrom 12 8)
/-- twoStepFlag. -/
def Pkt.twoStep (p : Pkt) : Bool := ofBytes (p.bytesFrom 10 1) / 2 % 2 == 1

/-- The servo estimates its offset from a Sync whose originTimestamp it has (a free value of what it knows), steps or slews,
and judges SYNC (R270). -/
def Dev.servoAdjust (d : Dev) (origin : Nat) (corrs : List Nat) : Dev :=
  let r := d.freeNat
  let est := Config.servoEstimate r.1 (d.tmu.syncIn.getD (0, 0, 0)) origin corrs d.tmu.reqOut d.tmu.delayResp
  (if 1000 * 65536 < est.natAbs then r.2.servoStep (-est) else r.2.servoSlew).servoJudge est

/-- The servo takes a Sync: its ingress time, the offset, where a two-step Sync waits for its Follow_Up, and a Delay_Req
(R270). -/
def Dev.servoUse (d : Dev) (p q : Pkt) : Dev :=
  let tin := ptpTime (d.timeUnits - d.residence p.frcIn d.tmu.frc)
  let d : Dev := { d with tmu := { d.tmu with syncIn := some tin, syncWait := if p.twoStep then some (p.ptpKey, q.ptpCorr) else none } }
  let d := (if p.twoStep then d else d.servoAdjust q.ptpStamp [q.ptpCorr]).send (d.delayReq p)
  { d with tmu := { d.tmu with reqSeq := (d.tmu.reqSeq + 1) % 65536 } }

/-- The servo takes the Follow_Up of the two-step Sync that waits for it (R270). -/
def Dev.servoFollow (d : Dev) (p : Pkt) : Dev :=
  match d.tmu.syncWait with
  | some (key, corr) =>
    if key = p.ptpKey then ({ d with tmu := { d.tmu with syncWait := none } } : Dev).servoAdjust p.ptpStamp [corr, p.ptpCorr] else d
  | none => d

/-- The servo takes the Delay_Resp to its last Delay_Req (R270). -/
def Dev.servoResp (d : Dev) (p : Pkt) : Dev :=
  if ofBytes (p.bytesFrom 48 10) = Config.clockIdentity % 2 ^ 80 ∧ p.ptpKey % 65536 = (d.tmu.reqSeq + 65535) % 65536 then
    { d with tmu := { d.tmu with delayResp := some (p.ptpStamp, p.ptpCorr) } }
  else d

/-- What the servo does with a message of its PTP domain, `q` as corrected: Sync, Follow_Up and Delay_Resp (R270). -/
def Dev.servoTake (d : Dev) (p q : Pkt) : Dev :=
  match p.ptpType with
  | some 0 => d.servoUse p q
  | some 8 => d.servoFollow p
  | some 9 => d.servoResp p
  | _ => d

/-- TIME_PTP (R53, R270, R274): a message that ends here is discarded, or corrected as delivered and used by the servo where
it runs and the message is of its PTP domain. -/
def timePtpMade (pid : Nat) (s : State) : Res :=
  onDev s fun d => d.whenSome (d.pkt pid) fun p d =>
    d.when (p.place == .atFn 0 && p.opc == 0x50 && p.whole) fun d =>
      let d := match d.ptpDrop p with
        | some c => d.countTmu c
        | none =>
          if p.opx / 256 % 256 ≠ d.fld F.TMU_CTL_DOMAIN 0 then d.countTmu C.TIME_FOREIGN
          else
            let ev := (p.ptpType.map ptpEvent).getD false
            let q := if ev then d.correct { p with frcOut := d.tmu.frc } else p
            let d := if ev then d.countTmu C.PTP_CORRECTED else d
            if d.flag F.TMU_CTL_SERVO 0 ∧ !d.prompterHalt ∧ p.opx % 256 = Config.ptpDomain % 256 then d.servoTake p q else d
      d.endPkt pid

/-- TIME_PTP: what it makes is then routed. -/
def execTimePtp (pid : Nat) (s : State) : Res := sendOut (timePtpMade pid s)

end Sys2Proof.Machine
end

