-- ==== Sys2Proof/Machine/Security.lean ====
section
/-! DEFINITION. Measurement extension by the host, SVN, and debug access (R313 to R325). -/

namespace Sys2Proof.Machine

/-- SVN_MIN: the larger of the fused floor and the counter (R316). -/
def Dev.svnMin (d : Dev) : Nat := max d.fuse.svnFloor d.fuse.svnCount % 256

/-- The staged digest, SEC_EXT_DIGEST0 most significant. -/
def Dev.extDigest (d : Dev) : BitVec 384 :=
  BitVec.ofNat 384 ((List.range 6).foldl (fun a w => a * 2 ^ 64 + (d.rd .SEC_EXT_DIGEST w).toNat) 0)

/-- SVN_COMMIT raises the counter to the running firmware's SVN, or changes nothing (R316). -/
def Dev.svnCommit (d : Dev) : Dev :=
  let v := d.fld F.SEC_STATE_SVN 0
  if d.fuse.svnCount < v then ({ d with fuse := { d.fuse with svnCount := v } }).extendEvent 2 0 0 0 else d

/-- A write of SEC_EXT_CTL that is not denied: EXTEND or SVN_COMMIT (R314). -/
def Dev.wrExtCtl (d : Dev) (w : Word) : Dev :=
  if fldOf F.SEC_EXT_CTL_OP w = 1 then d.extend (fldOf F.SEC_EXT_CTL_INDEX w) d.extDigest
  else if fldOf F.SEC_EXT_CTL_OP w = 2 then d.svnCommit
  else d

/-! ## The DRBG and the key store (R310 to R312) -/

/-- HMAC_DRBG_Update of NIST SP 800-90A. -/
def Drbg.update (g : Drbg) (data : List Byte) : Drbg :=
  let step (g : Drbg) (t : Byte) : Drbg :=
    let k := hmac384 (bytesOf 48 g.key.toNat) (bytesOf 48 g.v.toNat ++ t :: data)
    { g with key := k, v := hmac384 (bytesOf 48 k.toNat) (bytesOf 48 g.v.toNat) }
  if data.isEmpty then step g 0 else step (step g 0) 1

/-- Seeds the generator. -/
def Drbg.seed (data : List Byte) : Drbg :=
  { (({ v := BitVec.ofNat 384 (ofBytes (List.replicate 48 1)) } : Drbg).update data) with count := 1 }

/-- Draws up to 48 bytes. -/
def Drbg.draw (g : Drbg) (n : Nat) : List Byte × Drbg :=
  let v := hmac384 (bytesOf 48 g.key.toNat) (bytesOf 48 g.v.toNat)
  ((bytesOf 48 v.toNat).take n, { ({ g with v := v }).update [] with count := g.count + 1 })

/-- Draws bytes from the DRBG. -/
def Dev.random (d : Dev) (n : Nat) : List Byte × Dev :=
  let x := d.sec.drbg.draw n
  (x.1, { d with sec := { d.sec with drbg := x.2 } })

/-- A secret scalar from the key derivation of R312. How its 384 bits become a scalar is not stated (DESIGN CHOICE, log 155). -/
def Dev.deriveKey (d : Dev) (slot : Nat) (context : List Byte) : BitVec 384 :=
  BitVec.ofNat 384 ((kdf384 (bytesOf 32 d.fuse.secret.toNat) (Config.kdfLabel slot) context).toNat % (p384N - 1) + 1)

/-- The boot ROM starts the security module: the DRBG is seeded from the entropy source, and the identity key is derived
(R310, R312). -/
def Dev.bootSec (d : Dev) : Dev :=
  let x := d.freeNat
  { x.2 with sec := { x.2.sec with drbg := Drbg.seed (bytesOf 48 x.1), identityKey := some (d.deriveKey 0 []) } }

/-- The key that is derived at each boot from the final value of SEC_MEAS1 (R312). -/
def Dev.bootAlias (d : Dev) : Dev :=
  { d with sec := { d.sec with bootKey := some (d.deriveKey 1 (bytesOf 48 (d.meas 1).toNat)) } }

/-- EXTEND (R314): a write of SEC_EXT_CTL with OP EXTEND. -/
def execSecExtend (m : Master) (data : Word) (s : State) : Res :=
  onDev s fun d => let w := setBits data 63 62 1; d.regRow m .SEC_EXT_CTL 0 w (fun d => d.wrExtCtl w)

/-- SVN_COMMIT (R316): a write of SEC_EXT_CTL with OP SVN_COMMIT. -/
def execSvnCommit (m : Master) (data : Word) (s : State) : Res :=
  onDev s fun d => let w := setBits data 63 62 2; d.regRow m .SEC_EXT_CTL 0 w (fun d => d.wrExtCtl w)

/-! ## Debug (R319 to R323) -/

def Dev.modSec (d : Dev) (f : Sec → Sec) : Dev := { d with sec := f d.sec }
def Dev.dbgResult (d : Dev) (r : Nat) : Dev := d.setFld F.SEC_DBG_CTL_RESULT 0 r

/-- An open level closes: recorded, raised, RESULT CLOSED (R322). -/
def Dev.closeDebug (d : Dev) : Dev :=
  let l := d.fld F.SEC_STATE_DEBUG 0
  if l = 0 then d
  else ((((d.setFld F.SEC_STATE_DEBUG 0 0).extendEvent 4 l d.sec.openBy d.sec.minutes).notice N.DEBUG_CLOSED Src.security 0 0).dbgResult 7).modSec
    (fun x => { x with minutes := 0 })

/-- OP NONCE (R321): a fresh nonce from the DRBG. -/
def Dev.drawNonce (d : Dev) : Dev :=
  let (v, d) := d.random 32
  let n := BitVec.ofNat 256 (ofBytes v)
  (d.each (List.range 4) (fun d w => d.wr .SEC_DBG_NONCE w (BitVec.ofNat 64 (bitsOf n (255 - 64 * w) (192 - 64 * w))))).modSec
    (fun x => { x with nonce := some n })

/-- Debug levels, and the revoke, that the security state allows (R324). -/
def Dev.levelAllowed (d : Dev) (level : Nat) : Bool :=
  d.power == .running
  && match d.fld F.SEC_STATE_SECURITY 0 with
    | 1 => true
    | 2 => level != 2
    | _ => false

/-- Words of SEC_DBG_RESP as one number. -/
def Dev.dbgResp (d : Dev) (w0 n : Nat) : Nat := (List.range n).foldl (fun a w => a * 2 ^ 64 + (d.rd .SEC_DBG_RESP (w0 + w)).toNat) 0

/-- The 43-byte message that the owner signs (R321). -/
def Dev.dbgMessage (d : Dev) (nonce : BitVec 256) (level slot minutes : Nat) : List Byte :=
  bytesOf 32 nonce.toNat ++ bytesOf 7 ((d.rd .GLB_ID 0).toNat / 256) ++ bytesOf 1 level ++ bytesOf 1 slot ++ bytesOf 2 minutes

/-- The outcome of the checks of SUBMIT, in order: a RESULT, or none where it passes (R320, R321). -/
def Dev.submitCheck (d : Dev) (level slot minutes : Nat) : Option Nat :=
  if !d.levelAllowed level ∨ (level = 3 ∧ d.fuse.ownerValid = 2 ^ slot) then some 6
  else if d.sec.lockedOut then some 5
  else match d.sec.nonce with
    | none => some 3
    | some n =>
      let key := d.dbgResp 0 12
      if !d.fuse.ownerValid.testBit slot ∨ d.fuse.owners[slot]? ≠ some (sha384 (bytesOf 96 key)) then some 4
      else if ecdsaVerify (BitVec.ofNat 768 key) (sha384 (d.dbgMessage n level slot minutes)) (d.dbgResp 12 6) (d.dbgResp 18 6)
      then none else some 2

/-- A SUBMIT that fails on the nonce, the key or the signature (R323). -/
def Dev.dbgFail (d : Dev) : Dev :=
  let n := d.fld F.SEC_DBG_CTL_FAILS 0 + 1
  let d := d.setFld F.SEC_DBG_CTL_FAILS 0 n
  if 3 ≤ n then
    { d with sec := { d.sec with lockedOut := true }, fuse := { d.fuse with lockouts := d.fuse.lockouts + 1 } }
  else d

/-- A passed revoke: the slot's fuse, its record, and the close of what it opened. Its RESULT is not stated: a free value
(R320, R324). -/
def Dev.revoke (d : Dev) (slot minutes : Nat) : Dev :=
  let d := ({ d with fuse := { d.fuse with ownerValid := d.fuse.ownerValid - 2 ^ slot } }).extendEvent 5 3 slot minutes
  let d := if d.sec.openBy = slot then d.closeDebug else d
  let (x, d) := d.freeNat
  d.dbgResult x

/-- A passed opening: recorded first, then DEBUG is set (R321). -/
def Dev.openDebug (d : Dev) (level slot minutes : Nat) : Dev :=
  let d := (d.extendEvent 3 level slot minutes).setFld F.SEC_STATE_DEBUG 0 level
  let d := (d.modSec (fun x => { x with openBy := slot, minutes := minutes, openAt := d.tmu.frc })).dbgResult 1
  d.notice N.DEBUG_OPENED Src.security 0 (Config.debugData level slot).toNat

/-- A SUBMIT of one house port stands in the same handshake as one of the other that was taken: no time has passed since
(R325; DEDUCED, log 198). -/
def Dev.submitMet (d : Dev) (port : Nat) : Bool := d.sec.submitted.any (fun x => x.1 != port && x.2 == d.tmu.total)

/-- OP SUBMIT (R321, R323): whatever comes of it, the nonce is used. The second of two in one handshake finds none, and does
not count (R325). -/
def Dev.dbgSubmit (d : Dev) (port level slot minutes : Nat) : Dev :=
  let r := d.submitCheck level slot minutes
  let met := d.submitMet port
  let d := d.modSec (fun x => { x with nonce := none, submitted := if met then x.submitted else some (port, d.tmu.total) })
  match r with
  | some r => (if r = 2 ∨ (r = 3 ∧ !met) ∨ r = 4 then d.dbgFail else d).dbgResult r
  | none =>
    let d := d.setFld F.SEC_DBG_CTL_FAILS 0 0
    if level = 3 then d.revoke slot minutes else d.openDebug level slot minutes

/-- A write of SEC_DBG_CTL (R321, R322). -/
def Dev.wrDbgCtl (d : Dev) (m : Master) (w : Word) : Dev :=
  match fldOf F.SEC_DBG_CTL_OP w with
  | 1 => d.drawNonce
  | 2 => d.dbgSubmit (match m with | .house p => p | _ => 0) (fldOf F.SEC_DBG_CTL_LEVEL w) (fldOf F.SEC_DBG_CTL_SLOT w) (fldOf F.SEC_DBG_CTL_MINUTES w)
  | 3 => d.closeDebug
  | _ => d

/-- DBG_NONCE (R321): a write of SEC_DBG_CTL with OP NONCE. -/
def execDbgNonce (m : Master) (data : Word) (s : State) : Res :=
  onDev s fun d => let w := setBits data 63 62 1; d.regRow m .SEC_DBG_CTL 0 w (fun d => d.wrDbgCtl m w)

/-- DBG_SUBMIT (R321): a write of SEC_DBG_CTL with OP SUBMIT. -/
def execDbgSubmit (m : Master) (data : Word) (s : State) : Res :=
  onDev s fun d => let w := setBits data 63 62 2; d.regRow m .SEC_DBG_CTL 0 w (fun d => d.wrDbgCtl m w)

/-- DBG_CLOSE (R322): a write of SEC_DBG_CTL with OP CLOSE. -/
def execDbgClose (m : Master) (data : Word) (s : State) : Res :=
  onDev s fun d => let w := setBits data 63 62 3; d.regRow m .SEC_DBG_CTL 0 w (fun d => d.wrDbgCtl m w)

/-- DBG_NONCE_EXPIRY (R321): 60 s after it was drawn, the nonce is no longer valid. -/
def execDbgNonceExpiry (s : State) : Res := onDev s fun d => d.modSec (fun x => { x with nonce := none })

/-- FRC units of a minute. -/
def minuteUnits : Nat := 60000000000 * 65536

/-- DBG_MINUTES_EXPIRY (R322): the opening's MINUTES have run out, counted on FRC. -/
def execDbgMinutesExpiry (s : State) : Res :=
  onDev s fun d => d.when (decide (d.sec.minutes * minuteUnits ≤ d.sinceFrc d.sec.openAt)) Dev.closeDebug

/-- Whole minutes left of the opening, counted on FRC. -/
def Dev.dbgRemain (d : Dev) : Nat :=
  if d.fld F.SEC_STATE_DEBUG 0 = 0 then 0
  else (d.sec.minutes * minuteUnits - d.sinceFrc d.sec.openAt) / minuteUnits

end Sys2Proof.Machine
end

