-- ==== Sys2Proof/Machine/Snap.lean ====
section
/-! DEFINITION. Counter freeze, thaw and snapshots (R341, R344 to R346). -/

namespace Sys2Proof.Machine

/-- Bytes of the snapshot ring, and its offset in pair B's carve-out (R223, R346). -/
def snapRing : Nat := 0x30000000
def snapBase : Nat := 0x10000000

/-- Fixed counter indices of an instance (R339). -/
def fixedCounters (inst : Nat) : Nat :=
  match inst with
  | 0 => 10 | 1 => 8 | 2 => 8 | 3 => 4 | 4 => 4 | 5 => 2
  | n => if n < 1040 then 39 else if n < 1056 then 7 else if n < 1060 then 13 else 7

/-- A CNT_VAL word as it is read: HIGH on the upper half of a chained pair; absent instances, and fixed indices beyond
the list, read zero (R339 to R341). -/
def Dev.cntWord (d : Dev) (inst idx : Nat) : Word :=
  if !d.instOk inst ∨ (fixedCounters inst ≤ idx ∧ idx < 48) then 0
  else setBits (d.rd .CNT_VAL (cntIdx inst idx)) 62 62 (bit (idx % 2 == 1 && bitOf (d.rd .CNT_CHAIN inst) (idx / 2)))

/-- A cut is fixed 1 µs ahead; it takes the place of one that has not been reached (R344). -/
def Dev.fixCut (d : Dev) : Dev :=
  let c := (d.tmu.frc + 1000 * 65536) % 2 ^ 64
  { d.setFld F.CNT_FREEZE_CUT 0 (c / 65536) with cutDue := true, cutFrc := c }

/-- A cut that is reached is taken: STATE, and T at C or 0 (R344, R346). -/
def Dev.cutNow (d : Dev) : Dev :=
  d.when d.cutPast fun d =>
    { d.setFld F.CNT_FREEZE_STATE 0 d.cutState with
      cutDue := false
      cutT := if d.flag F.TMU_STAT_VALID 0 then ({ d with tmu := { d.tmu with frc := d.cutFrc } } : Dev).timeNs else 0 }

/-- The counters thaw: pending counts are added (R344). -/
def Dev.thaw (d : Dev) : Dev :=
  let l := d.cntPend
  let d := (({ d with cntPend := [], cutDue := false }).setFld F.CNT_FREEZE_STATE 0 0).setFld F.CNT_FREEZE_FREEZE 0 0
  d.each l (fun d x => d.addCount (x.1 / 64) (x.1 % 64) x.2)

/-- A write of CNT_FREEZE (R344, R345). -/
def Dev.wrFreeze (d : Dev) (w : Word) : Dev :=
  let d := d.cutNow
  let on := fldOf F.CNT_FREEZE_FREEZE w == 1
  let was := d.flag F.CNT_FREEZE_FREEZE 0
  let snap := fldOf F.CNT_FREEZE_SNAP w == 1
  let had := d.flag F.CNT_FREEZE_SNAP 0
  match d.fld F.CNT_FREEZE_STATE 0 with
  | 0 =>
    let d := (d.setFld F.CNT_FREEZE_FREEZE 0 (bit on)).setFld F.CNT_FREEZE_SNAP 0 (bit (snap || had))
    if (on && !was) || (snap && !had) then d.fixCut
    else if !on ∧ !(snap || had) then { d with cutDue := false }
    else d
  | 1 =>
    let d := d.setFld F.CNT_FREEZE_FREEZE 0 (bit on)
    if snap then { (d.setFld F.CNT_FREEZE_SNAP 0 1).setFld F.CNT_FREEZE_STATE 0 2 with snapPeriodic := false }
    else if on then d else d.thaw
  | _ => d.setFld F.CNT_FREEZE_FREEZE 0 (bit on)

/-- CNT_FREEZE (R344): a write of CNT_FREEZE with FREEZE 1. -/
def execCntFreeze (m : Master) (data : Word) (s : State) : Res :=
  onDev s fun d => let w := setBits data 63 63 1; d.regRow m .CNT_FREEZE 0 w (fun d => d.wrFreeze w)

/-- CNT_THAW (R344): a write of CNT_FREEZE with FREEZE 0. -/
def execCntThaw (m : Master) (data : Word) (s : State) : Res :=
  onDev s fun d => let w := setBits data 63 63 0; d.regRow m .CNT_FREEZE 0 w (fun d => d.wrFreeze w)

/-- CNT_SNAP (R345): a write of CNT_FREEZE with SNAP 1. -/
def execCntSnap (m : Master) (data : Word) (s : State) : Res :=
  onDev s fun d => let w := setBits data 62 62 1; d.regRow m .CNT_FREEZE 0 w (fun d => d.wrFreeze w)

/-- CNT_CUT (R344): the cut is reached. -/
def execCntCut (s : State) : Res :=
  onDev s fun d => d.cutNow

/-- FREEZE_AUTO_THAW (R344): 1 s after the cut. -/
def execFreezeAutoThaw (s : State) : Res :=
  onDev s fun d =>
    let d := d.cutNow
    if d.fld F.CNT_FREEZE_STATE 0 = 1 then d.thaw
    else if d.fld F.CNT_FREEZE_STATE 0 = 2 then d.setFld F.CNT_FREEZE_FREEZE 0 0
    else d

/-- CNT_PERIODIC_SNAP (R345): a snapshot is asked for, or skipped. -/
def execCntPeriodicSnap (s : State) : Res :=
  onDev s fun d => d.when (d.flag F.CNT_DMA_CTL_EN 0) fun d =>
    let d := d.cutNow
    if d.fld F.CNT_FREEZE_STATE 0 ≠ 0 then d.countGlb C.SNAP_SKIP
    else if d.flag F.CNT_FREEZE_SNAP 0 then d
    else ({ d.setFld F.CNT_FREEZE_SNAP 0 1 with snapPeriodic := true }).fixCut

/-- A write of CNT_VAL: VALUE stands, WRAP clears (R339, R344). -/
def Dev.wrCntVal (d : Dev) (i : Nat) (w : Word) : Dev :=
  (d.plainWrite .CNT_VAL i w).setFld F.CNT_VAL_WRAP i 0

/-- CNT_VAL_WRITE (R344). -/
def execCntValWrite (m : Master) (inst index : Nat) (data : Word) (s : State) : Res :=
  ifUnit (decide (inst < 1064 ∧ index < 64)) <| onDev s fun d =>
    d.regRow m .CNT_VAL (cntIdx inst index) data (fun d => d.wrCntVal (cntIdx inst index) data)

/-- Instances that exist on the part, in order (R340). -/
def Dev.instances (d : Dev) : List Nat := (List.range 1064).filter (fun n => d.instOk n)

/-- The die of an instance runs. -/
def Dev.instRuns (d : Dev) (n : Nat) : Bool := (instSite n).all (fun s => d.siteUp s)

/-- One entry of a snapshot record (R346). -/
def Dev.snapEntry (d : Dev) (n : Nat) : List Byte :=
  let run := d.instRuns n
  bytesOf 2 n ++ bytesOf 1 (bit run) ++ List.replicate 61 0
    ++ (List.range 64).flatMap (fun i => bytesOf 8 (if run then (d.cntWord n i).toNat else 0))

/-- The snapshot record (R346). -/
def Dev.snapRecord (d : Dev) : List Byte :=
  let is := d.instances
  bytesOf 4 0x434E5431 ++ bytesOf 4 d.snapSeq ++ bytesOf 8 d.cutFrc ++ bytesOf 8 d.cutT
    ++ bytesOf 2 is.length ++ bytesOf 1 (bit d.snapPeriodic) ++ List.replicate 37 0 ++ is.flatMap (fun n => d.snapEntry n)

/-- Where a record of `n` bytes goes in a ring, and how far WP advances by it; none where it does not fit (R346). -/
def ringPlace (ring wp rp n : Nat) : Option (Nat × Nat) :=
  let free := if wp = rp then ring else (rp + ring - wp) % ring
  let (at_, adv) := if wp + n ≤ ring then (wp, n) else (0, ring - wp + n)
  if adv < free then some (at_, adv) else none

/-- Writes the record, or counts it lost (R346). -/
def snapWrite (x : Dev × Mem) : Dev × Mem :=
  let d := x.1
  let rec_ := d.snapRecord
  let wp := d.fld F.CNT_SNAP_WP_PTR 0
  match ringPlace snapRing wp (d.fld F.CNT_SNAP_RP_PTR 0) rec_.length with
  | none => (d.countGlb C.SNAP_LOST, x.2)
  | some (at_, adv) =>
    let y := if at_ = wp then (d, x.2) else d.carveSave x.2 1 (snapBase + wp) (bytesOf 4 0x50414431 ++ List.replicate 60 0)
    let d : Dev := { y.1.setFld F.CNT_SNAP_WP_PTR 0 ((wp + adv) % snapRing) with snapSeq := d.snapSeq + 1 }
    d.carveSave y.2 1 (snapBase + at_) rec_

/-- SNAPSHOT_WRITE (R345, R346). -/
def execSnapshotWrite (s : State) : Res :=
  onBoth s fun x =>
    let x := (x.1.cutNow, x.2)
    if x.1.fld F.CNT_FREEZE_STATE 0 = 2 then
      let y := snapWrite x
      let d := { y.1.setFld F.CNT_FREEZE_SNAP 0 0 with snapPeriodic := false }
      (if d.flag F.CNT_FREEZE_FREEZE 0 then d.setFld F.CNT_FREEZE_STATE 0 1 else d.thaw, y.2)
    else x

end Sys2Proof.Machine
end

