-- ==== Sys2Proof/Machine/Resets.lean ====
section
/-! DEFINITION. Power, start-up, resets of the device and of its dies, seam links, the package reference, and thermal
action (R18 to R34, R308, R315, R337). -/

namespace Sys2Proof.Machine

/-! ## What a reset keeps -/

/-- The register family of a storage number. -/
def RF.ofNum (n : Nat) : Option RF := RF.all.find? (fun r => r.num == n)

/-- The site whose reset resets a register (R34, R340); none for the Stage's. -/
def RF.siteOf (r : RF) (i : Nat) : Option Nat :=
  if r.isWng then some (wingSite (r.unit i))
  else if r.isLom then some (loomSite (r.unit i))
  else (r.inst i).bind instSite

/-- The registers of a die hold their reset words, its pending counts are gone with its counters (R340), and so is what
debug wrote into it. -/
def Dev.dropSiteRegs (d : Dev) (s : Nat) : Dev :=
  { d with
    cntPend := d.cntPend.filter (fun x => instSite (x.1 / 64) ≠ some s)
    debugWords := d.debugWords.filter (fun x => x.1 / 2 ^ 27 ≠ s)
    regs := d.regs.filter (fun x => ((RF.ofNum (keyNum x.1)).bind (fun r => r.siteOf (keyIdx x.1))) ≠ some s) }

/-- Registers in retention SRAM (R20, R307, R333). -/
def RF.retained (r : RF) : Bool :=
  match r with
  | .GLB_NLOG_A => true | .GLB_NLOG_B => true | .GLB_NLOG_C => true | .GLB_NLOG_STAT => true
  | .PWR_LOG_A => true | .PWR_LOG_B => true
  | _ => false

/-- The device after a reset of all of it (R21, R34, R337): retention SRAM, fuses and the levels of its contacts stay. -/
def Dev.afterReset (d : Dev) (p : PowerState) : Dev :=
  { regs := d.regs.filter (fun x => (RF.ofNum (keyNum x.1)).any RF.retained)
    net := { lostCells := d.net.lostCells }
    tmu := { refOk := d.tmu.refOk }
    power := p, porHigh := d.porHigh, pwrOk := d.pwrOk, tripped := d.tripped
    seamOut := d.seamOut
    overlay := d.overlay, rowSpares := spareRows d.repairs, wrdSpare := spareMacros d.repairs
    laserRan := (d.each (d.laserFrom.map (·.1)) Dev.bankHours).laserRan, oma := d.oma
    pwr := { seq := d.pwr.seq }
    out := d.out, fresh := d.fresh, fuse := d.fuse }

/-! ## Power (R20 to R22) -/

/-- NPOR_ASSERT (R21): everything resets but retention SRAM and the fuse counters. -/
def execNporAssert (s : State) : Res :=
  onDev s fun d =>
    let d := { d with porHigh := false, tripped := false }
    d.when (d.power != .off) (fun d => d.afterReset .standby)

/-- POWER_START (R21, R337): nPOR and PWR_OK are both high, and the regulators start. -/
def execPowerStart (s : State) : Res :=
  onDev s fun d => d.when (d.power == .standby && !d.tripped) fun d =>
    { d.afterReset .starting with porHigh := true, pwrOk := true }

/-- A commanded laser swap is abandoned (R239). -/
def Dev.abandonSwaps (d : Dev) (w : Nat) : Dev :=
  let cmd := (d.wing w).swaps.any (fun x => x.byCmd)
  let d := d.modWing w (fun x => { x with swaps := [] })
  if cmd then (d.setFld F.WNG_LASER_CMD_BUSY w 0).setFld F.WNG_LASER_CMD_RESULT w 3 else d

/-- Shutdown begins (R22, R308, R322): lasers off, the minute closed, debug closed. -/
def Dev.shutdown (d : Dev) (incomplete : Bool) : Dev :=
  let d := d.each (List.range d.nWings) (fun d w =>
    (d.abandonSwaps w).each (List.range 11) (fun d k => if d.laserState w k = 5 then d else d.setLaser w k 0))
  let d := (d.modPwr (fun x => { x with incomplete := x.incomplete || incomplete })).closeMinute.closeDebug
  { d.modSec (fun x => { x with nonce := none }) with power := .shutdown }

/-- The device is powered: starting or running. -/
def Dev.powered (d : Dev) : Bool := d.power == .starting || d.power == .running

/-- PWR_OK_FALL (R22). -/
def execPwrOkFall (s : State) : Res :=
  onDev s fun d =>
    let d := { d with pwrOk := false, tripped := false }
    d.when d.powered (fun d => d.shutdown false)

/-- VIN_BROWN_OUT (R22): the same shutdown; the interrupted minute is INCOMPLETE. -/
def execVinBrownOut (s : State) : Res :=
  onDev s fun d => d.when (d.pwrOk && d.powered) (fun d => d.shutdown true)

/-- SHUTDOWN_DONE (R22): the regulators are off; where PWR_OK is back, the device starts. -/
def execShutdownDone (pwrOkBack : Bool) (s : State) : Res :=
  onDev s fun d => d.when (d.power == .shutdown) fun d =>
    let d := { d with pwrOk := pwrOkBack }
    d.afterReset (if pwrOkBack ∧ d.porHigh ∧ !d.tripped then .starting else .standby)

/-- VSTBY_LOSS (R20, R296, R307, R333): retention SRAM is lost. -/
def execVstbyLoss (s : State) : Res :=
  onDev s fun d =>
    { power := .off, porHigh := d.porHigh, pwrOk := d.pwrOk, tmu := { refOk := d.tmu.refOk }, out := d.out, seamOut := d.seamOut,
      rowSpares := spareRows d.fuse.repairs, wrdSpare := spareMacros d.fuse.repairs, fresh := d.fresh, fuse := d.fuse }

/-- VSTBY_RETURN (R21): Standby, with empty retention contents. -/
def execVstbyReturn (s : State) : Res :=
  onDev s fun d => d.when (d.power == .off) (fun d => { d with power := .standby })

/-! ## Sites and seam links (R18, R19, R27 to R32) -/

def Dev.dieHeld (d : Dev) (s : Nat) : Bool := bitOf (d.rd .GLB_RESET_CTL 0) (32 + s)
def Dev.setDieRst (d : Dev) (s v : Nat) : Dev := d.wr .GLB_RESET_CTL 0 (setBits (d.rd .GLB_RESET_CTL 0) s s v)

/-- A site goes FAULTED (R19), and leaves RESET where it was in it (R33). -/
def Dev.faultSite (d : Dev) (s : Nat) : Dev := ((d.setSite s 3).setDieRst s 0).notice N.DIE_FAULT (Src.die s) 0 0

/-- The die at a site of a part (R1, R18). -/
def Dev.sitePresent (d : Dev) (s : Nat) : Bool := decide (s = 0 ∨ 17 ≤ s ∨ s ≤ d.nWings)

/-- Check strap that a site's range calls for (R18). -/
def siteRole (s : Nat) : Nat := if s = 0 then 3 else if s ≤ 16 then 1 else if s ≤ 20 then 2 else 3

/-- The strap pattern agrees with the part (R18). -/
def Dev.strapsAgree (d : Dev) : Bool :=
  d.fuse.straps.length == 25 && d.fuse.straps.zipIdx.all (fun x => decide (x.1.2 ≠ 0) == d.sitePresent x.2)

/-! ## Lasers at start (R233, R296, R337) -/

/-- The laser that feeds a group once the repairs are applied. -/
def Dev.fedBy (d : Dev) (w g : Nat) : Nat :=
  d.repairs.foldl (fun k r => if r.kind = 4 ∧ r.site = wingSite w ∧ r.unit = k then r.spare else k) g

/-- Working lasers and understudies of a Wing warm; those that a repair has replaced stay RETIRED. -/
def Dev.warmLasers (d : Dev) (w : Nat) : Dev :=
  d.each (List.range 10) (fun d k =>
    let d := d.setFld F.WNG_LASER_GROUP (lasIdx w k) ((firstBelow 8 (fun g => d.fedBy w g == k)).getD 15)
    if d.repairs.any (fun r => r.kind == 4 && r.site == wingSite w && r.unit == k) then d.setLaser w k 5 else d.setLaser w k 1)

/-- Warm lasers with a group are RUNNING, the others stand by, and waiting lanes start. -/
def Dev.readyLasers (d : Dev) (w : Nat) : Dev :=
  let d := d.each (List.range 10) (fun d k =>
    if d.laserState w k ≠ 1 then d
    else if d.fld F.WNG_LASER_GROUP (lasIdx w k) < 8 then d.laserRuns w k else d.setLaser w k 3)
  d.each (List.range 8) (fun d g => d.startGroup w g)

/-- The Prompter loads the firmware's crosstalk matrix, commits it and sets XT_EN: KPL-Y1024-F (R243). -/
def Dev.loadXtalk (d : Dev) (w : Nat) : Dev :=
  if d.fuse.part = 0x0512 then d
  else
    let d := d.each (List.range 640) (fun d i =>
      let x := Config.xtalk w i
      d.wr .WNG_XTALK (640 * w + i) (if i % 5 = 4 then setBits x 47 0 0 else x))
    let sh := (d.regIndices .WNG_XTALK).filter (fun i => i / 640 == w)
    (d.setFld F.WNG_CTL_XT_EN w 1).modWing w (fun y => { y with xt := sh.map (fun i => (i % 640, d.rd .WNG_XTALK i)) })

/-- The service lane of a Wing runs from the Wing's ROM: laser 10 on a house-port Wing (R230, R315). -/
def Dev.serviceLane (d : Dev) (w : Nat) : Dev :=
  if (d.housePortOf w).isSome then (d.laserRuns w 10).setFld F.WNG_LANE_STAT_OSTATE (65 * w + 64) 1 else d

/-! ## Resets of a die (R33, R34) -/

/-- A lane of a Wing that resets (R34). -/
def Dev.laneOfReset (d : Dev) (l cause : Nat) : Dev :=
  if d.ltype l = 2 then d.borderLock l false
  else if d.ltype l = 3 then d
  else if 3 ≤ d.lstate l ∧ d.lstate l ≤ 5 then d.laneStop l cause
  else ((d.leaveService l).setFld F.PRT_LINK_STAT_CAUSE l cause).setState l 6

/-- A Wing resets: its lanes fail with the cause, and its registers, lasers and heaters start over; the Stage keeps the
trapdoor map (R34, R239, R246). -/
def Dev.wingReset (d : Dev) (w cause : Nat) : Dev :=
  let cmd := (d.wing w).swaps.any (fun x => x.byCmd)
  let d := d.noteLost (fun d => d.each ((List.range 64).map (fun j => 64 * w + j)) (fun d l => d.laneOfReset l cause))
  let d := d.whenSome (d.housePortOf w) (fun p d => d.houseLockChange p false)
  let gone := (d.pwr.parked.filter (fun l => l / 64 == w && d.ostate l == 2)).length
  let d := d.setFld F.PWR_GOV_PARKED 0 (d.fld F.PWR_GOV_PARKED 0 - gone)
  let d := d.modPwr (fun x => { x with parked := x.parked.filter (fun l => l / 64 ≠ w) })
  let x := d.wing w
  let d := d.each ((List.range 11).map (lasIdx w)) Dev.bankHours
  let d := ((d.dropSiteRegs (wingSite w)).setWing w { trap := x.trap, path := x.path, loops := x.loops })
  let d := { d with fades := d.fades.filter (fun (f : Nat × Nat) => f.1 ≠ w) }
  if cmd then d.setFld F.WNG_LASER_CMD_RESULT w 3 else d

/-- Engines after a Loom reset: those out of service stay so, spares in use stay in use. -/
def Loom.resetEngines (x : Loom) : NMap Engine :=
  x.engines.filterMap (fun (e : Nat × Engine) =>
    if e.2.st = 6 then some (e.1, { st := 6 }) else if 64 ≤ e.1 ∧ e.2.st ≠ 7 then some (e.1, {}) else none)

/-- A Loom resets: tiles in flight complete with POISON, and its images wait for their staging copies (R34, R205). -/
def Dev.loomReset (d : Dev) (m : Mem) (k : Nat) : Dev :=
  let d := d.each ((d.loom k).imgs) (fun d i => d.poisonImage m k i)
  let d := d.modLoom k (fun x =>
    { engines := x.resetEngines, active := x.active
      images := x.images.map (fun (i : Nat × Image) => (i.1, { i.2 with started := false, stale := true }))
      binds := x.binds.map (fun (b : Bind) => { prod := b.prod, ens := b.ens, group := b.group, cur := b.cur, dead := b.dead }) })
  d.dropSiteRegs (loomSite k)

/-- A swatch entry maps some of a stack's range (R35, R206). -/
def Dev.swatchInStack (d : Dev) (e : BitVec 512) (m : Nat) : Bool :=
  swTarget e / 256 == d.ownCa / 256 && swTarget e % 256 == 1
  && decide (swLocal e * 4096 < (m + 1) * stackSize ∧ m * stackSize < (swLocal e + (swLimit e - swBase e) + 1) * 4096)

/-- A stack resets: one BOLT_STACK_LOST for each production with a swatch entry in its range, or one for none (R34). -/
def Dev.stackReset (d : Dev) (m : Nat) : Dev :=
  let ps := (((d.entries 3).filter (fun x => d.swatchInStack x.2 m)).map (fun x => swProd x.2)).dedup
  let d := d.each (if ps.isEmpty then [0] else ps) (fun d p => d.notice N.BOLT_STACK_LOST Src.memory p (m * 2 ^ 62))
  ({ d with rebuilding := d.rebuilding.filter (· ≠ m) }).dropSiteRegs (stackSite m)

/-- A reset of a site begins (R33, R34). A seam repair ends with it. -/
def Dev.dieReset (d : Dev) (m : Mem) (s cause : Nat) : Dev :=
  let d :=
    if s ≤ 16 then d.wingReset (s - 1) cause
    else if s ≤ 20 then d.loomReset m (s - 17)
    else d.stackReset (s - 21)
  let d := { d.setSite s 2 with widthDone := d.widthDone.filter (· ≠ s) }
  if 20 < s then d
  else ((d.setSeam s (d.seam s).afterReset).setFld F.GLB_SEAM_STAT_STATE s 0).setFld F.GLB_SEAM_STAT_BUNDLES_UP s 0

/-- Wings whose service lane is a house port (R230, R249). -/
def Dev.houseWings (d : Dev) : List Nat := if d.fuse.part = 0x0512 then [0, 4] else [0, 8]

/-- A write of GLB_RESET_CTL that is not denied (R33). -/
def Dev.wrResetCtl (d : Dev) (m : Mem) (w : Word) : Dev :=
  if fldOf F.GLB_RESET_CTL_DEVICE_RST w = 1 then d.afterReset .starting
  else
    let go := (List.range 25).filter (fun s => s != 0 && bitOf w s && d.site s == 1)
    let left := d.houseWings.filter (fun h => d.siteUp (wingSite h) && !go.contains (wingSite h))
    if go.any (fun s => d.houseWings.any (fun h => wingSite h == s)) ∧ left.isEmpty then
      d.notice N.RESET_REFUSED Src.prompter 0 w.toNat
    else
      let d := d.setFld F.GLB_RESET_CTL_DIE_HOLD 0 (fldOf F.GLB_RESET_CTL_DIE_HOLD w)
      (d.each go (fun d s => (d.dieReset m s 6).setDieRst s 1)).settle

/-- DEVICE_RST (R33). -/
def execDeviceRst (m : Master) (s : State) : Res :=
  onDevM s fun mem d => let w : Word := BitVec.ofNat 64 (2 ^ 63); d.regRow m .GLB_RESET_CTL 0 w (fun d => d.wrResetCtl mem w)

/-- DIE_RST (R33): a write of GLB_RESET_CTL without DEVICE_RST. -/
def execDieRst (m : Master) (data : Word) (s : State) : Res :=
  onDevM s fun mem d => let w := setBits data 63 63 0; d.regRow m .GLB_RESET_CTL 0 w (fun d => d.wrResetCtl mem w)

/-- DIE_HOLD (R33): a write of GLB_RESET_CTL with no reset bit. -/
def execDieHold (m : Master) (data : Word) (s : State) : Res :=
  onDevM s fun mem d =>
    let w := setBits (setBits data 63 63 0) 24 1 0
    d.regRow m .GLB_RESET_CTL 0 w (fun d => d.wrResetCtl mem w)

/-- DIE_RESET_WIDTH_END (R33): the minimum width of 10 µs is over. -/
def execDieResetWidthEnd (site : Nat) (s : State) : Res :=
  ifUnit (decide (1 ≤ site ∧ site < 25)) <| onDev s fun d =>
    d.when (d.site site == 2) (fun d => { d with widthDone := d.widthDone.filter (· ≠ site) ++ [site] })

/-- A die out of reset may train its link, or run: its width is over, and nothing holds it. -/
def Dev.mayLeave (d : Dev) (s : Nat) : Bool := d.site s == 2 && d.widthDone.contains s && !d.dieHeld s

/-- A Wing runs again: the map, the matrix, its lasers and its service lane (R34, R243, R246). -/
def Dev.wingRuns (d : Dev) (w : Nat) : Dev :=
  let t := (d.wing w).trap
  let d := (d.wr .WNG_TRAP_MAP (2 * w) (t.extractLsb' 64 64)).wr .WNG_TRAP_MAP (2 * w + 1) (t.extractLsb' 0 64)
  let d := (d.notice N.TRAP_RESTORED (Src.die (wingSite w)) 0 0).loadXtalk w
  let d := d.each ((List.range 64).map (fun j => 64 * w + j)) (fun d l =>
    if d.ltype l = 3 then d.setOstate l 4 else if d.ltype l = 2 ∧ d.flag F.PRT_LINK_CTL_EN l then d.setOstate l 1 else d)
  let d := d.serviceLane w
  if d.sec.wingFw then (d.warmLasers w).readyLasers w else d

/-- Bolt memory without the bytes of a stack. -/
def dropStack (m : Mem) (k : Nat) : Mem := m.filter (fun c => !decide (k * stackSize ≤ c.1 ∧ c.1 < (k + 1) * stackSize))

/-- The site is no Loom whose microcode was refused: such a Loom stays in RESET, its link not opened again (R315). -/
def Dev.loomKept (d : Dev) (s : Nat) : Bool := !(decide (17 ≤ s ∧ s ≤ 20 ∧ 6 ≤ d.fld F.GLB_START_PHASE 0) && !d.sec.loomFw)

/-- DIE_RUNNING (R34): a reset site runs again. -/
def dieRunning (s : Nat) (x : Dev × Mem) : Dev × Mem :=
  let d := x.1
  if !d.mayLeave s ∨ d.fld F.GLB_START_PHASE 0 < 3 ∨ (s ≤ 20 ∧ !d.seamUp s) ∨ !d.loomKept s then x
  else
    let d := (d.setSite s 1).setDieRst s 0
    if s ≤ 16 then (d.wingRuns (s - 1), x.2)
    else if s ≤ 20 then (d.openSource (s - 15), x.2)
    else ({ d with rebuilding := d.rebuilding ++ [s - 21] }, dropStack x.2 (s - 21))

/-- DIE_RUNNING (R34). -/
def execDieRunning (site : Nat) (s : State) : Res :=
  ifUnit (decide (1 ≤ site ∧ site < 25)) <| onBoth s (dieRunning site)

/-! ## PLLs and the reference (R23, R34) -/

/-- WING_PLL_UNLOCK (R34): CAUSE LOCK. -/
def execWingPllUnlock (wing : Nat) (s : State) : Res :=
  ifUnit (decide (wing < s.d.nWings)) <| onDevM s fun m d =>
    d.when (d.siteUp (wingSite wing)) (fun d => (d.dieReset m (wingSite wing) 2).settle)

/-- LOOM_PLL_UNLOCK (R34). -/
def execLoomPllUnlock (loom : Nat) (s : State) : Res :=
  ifUnit (decide (loom < 4)) <| onDevM s fun m d =>
    d.when (d.siteUp (loomSite loom)) (fun d => (d.dieReset m (loomSite loom) 2).settle)

/-- STACK_PLL_UNLOCK (R34). -/
def execStackPllUnlock (stack : Nat) (s : State) : Res :=
  ifUnit (decide (stack < 4)) <| onDevM s fun m d =>
    d.when (d.siteUp (stackSite stack)) (fun d => (d.dieReset m (stackSite stack) 2).settle)

/-- REF_LOSS (R34): the package reference is lost. SOURCE of REF_LOSS, REF_HOLDOVER and RESET_REFUSED is the Prompter
(DESIGN CHOICE, log entry 209: the spec names no unit). -/
def execRefLoss (s : State) : Res :=
  onDev s fun d => d.when (d.tmu.refOk && d.powered) fun d =>
    ({ d with tmu := { d.tmu with refOk := false } }).notice N.REF_LOSS Src.prompter 0 0

/-- REF_RETURN (R34): the package reference is back. -/
def execRefReturn (s : State) : Res := onDev s fun d => { d with tmu := { d.tmu with refOk := true } }

/-- REF_LOSS_TIMEOUT (R34): after 1 ms without reference the device resets. -/
def execRefLossTimeout (s : State) : Res :=
  onDev s fun d => d.when (!d.tmu.refOk && d.powered) (fun d => d.afterReset .starting)

/-- A write of GLB_REF_CTL: steering starts over, or ends (R23). -/
def Dev.wrRefCtl (d : Dev) (w : Word) : Dev :=
  let was := (d.flag F.GLB_REF_CTL_DISCIPLINE_EN 0, d.fld F.GLB_REF_CTL_LANE 0)
  let d := d.plainWrite .GLB_REF_CTL 0 w
  if !d.flag F.GLB_REF_CTL_DISCIPLINE_EN 0 then d.setFld F.GLB_REF_CTL_STATE 0 0
  else if was = (true, d.fld F.GLB_REF_CTL_LANE 0) then d
  else d.setFld F.GLB_REF_CTL_STATE 0 1

/-- REF_LOCKED (R23): the reference follows the discipline lane, which must be fabric-facing and up. -/
def execRefLocked (s : State) : Res :=
  onDev s fun d =>
    let l := d.fld F.GLB_REF_CTL_LANE 0
    d.when (d.flag F.GLB_REF_CTL_DISCIPLINE_EN 0 && d.ltype l == 1 && d.lstate l == 3) (fun d => d.setFld F.GLB_REF_CTL_STATE 0 2)

/-! ## Seam links (R28 to R32) -/

/-- A bundle in which the check found `n` failed lanes: its free understudy replaces the one, or it leaves the stripe
(R31, R295). -/
def Dev.repairBundle (d : Dev) (s b n : Nat) : Dev :=
  if (d.seam s).out.contains b then d
  else if n ≠ 1 ∨ (d.understudies s).contains b then (d.setSeam s { d.seam s with out := (d.seam s).out ++ [b] }).exhausted 2 s b
  else
    let d := if d.overlay.length < 1024 then d else d.setSeam s { d.seam s with used := (d.seam s).used ++ [b] }
    d.repaired 2 s b b

/-- Too few bundles: the die is reset once, and stays FAULTED the second time (R32). -/
def Dev.seamTooFew (d : Dev) (m : Mem) (s : Nat) : Dev :=
  if (d.seam s).retried then
    { (d.dieReset m s 2).faultSite s with seamDead := d.seamDead.filter (· ≠ s) ++ [s] }
  else (d.setSeam s { d.seam s with retried := true }).dieReset m s 2

/-- Data flows again after a repair: replay resumes from the last ACK, and the counts of R31 start over. -/
def Dev.seamResume (d : Dev) (s : Nat) : Dev :=
  let d := d.setSeam s { d.seam s with run := 0, runSeq := 4096, asked := 0, askSeq := 4096, bad := [], farBad := [], waiting := false }
  (d.seamResend s).seamPump s

/-- SEAM_REPAIR_DONE (R31, R32): `failed` names, once for each failed lane that the check found, its bundle. -/
def execSeamRepairDone (site : Nat) (failed : List Nat) (s : State) : Res :=
  ifUnit (decide (1 ≤ site ∧ site < 21)) <| onDevM s fun m d =>
    d.when (d.seamState site == 3 && d.tmu.refOk) fun d =>
      let bad := failed.filter (fun b => decide (b < seamTotal site))
      let was := (d.seam site).out.length
      let d := d.each bad.dedup (fun d b => d.repairBundle site b (bad.count b))
      let lost := (d.seam site).out.length - was
      let up := d.fld F.GLB_SEAM_STAT_BUNDLES_UP site - lost
      let d := if bad.isEmpty then d else (d.seamTrain site).notice N.SEAM_REPAIR (Src.die site) 0 0
      if up < seamFloor site then (d.seamTooFew m site).settle
      else (if lost = 0 ∧ up < seamTotal site then d.setFld F.GLB_SEAM_STAT_STATE site 4 else d.seamOpen site up).seamResume site

/-- SEAM_LINK_TRAINED (R19, R29, R32): the die has sent its SITE_ID. -/
def execSeamLinkTrained (site siteId bundles : Nat) (s : State) : Res :=
  ifUnit (decide (1 ≤ site ∧ site < 21)) <| onDevM s fun m d =>
    d.when (d.mayLeave site && d.prompter && d.tmu.refOk && d.loomKept site && d.seamState site == 0) fun d =>
      let d := d.seamTrain site
      if siteId ≠ site then (d.faultSite site).notice N.STRAP_MISMATCH (Src.die site) 0 0
      else if bundles < seamFloor site then (d.seamTooFew m site).settle
      else d.seamOpen site bundles

/-! ## Start-up (R315, R337) -/

def Dev.phase (d : Dev) : Nat := d.fld F.GLB_START_PHASE 0
def Dev.setPhase (d : Dev) (p : Nat) : Dev := d.setFld F.GLB_START_PHASE 0 p

/-- The straps of a site are read and judged (R18, R19). A memory-stack site that fails shows FAULTED as well, without a
STRAP_MISMATCH, which R18 gives Wings and Looms (DESIGN CHOICE, log entry 208). -/
def Dev.readStrap (d : Dev) (s : Nat) : Dev :=
  match d.fuse.straps[s]? with
  | none => d
  | some (id, chk) =>
    if chk = 0 then d.setSite s 0
    else if id = s ∧ chk = siteRole s ∧ d.strapsAgree then { d.setSite s 2 with widthDone := d.widthDone ++ [s] }
    else
      let d := d.faultSite s
      if s ≤ 20 then d.notice N.STRAP_MISMATCH (Src.die s) 0 0 else d

/-- START_RAILS_READY (R18, R337). A Stage that reads wrong straps of its own does not start. -/
def execStartRailsReady (s : State) : Res :=
  onDev s fun d => d.when (d.power == .starting && d.phase == 0 && d.tmu.refOk && d.fuse.straps.head? == some (0, 3)) fun d =>
    ((List.range 24).map (· + 1)).foldl Dev.readStrap (d.setPhase 1)

/-- START_STAGE_PLLS_LOCKED (R296, R310, R312, R315, R337): the boot ROM starts the security module and measures the fuses. -/
def execStartStagePllsLocked (s : State) : Res :=
  onDev s fun d => d.when (d.power == .starting && d.phase == 1) fun d =>
    let d := ((d.setPhase 2).setFld F.TMU_STAT_LOCKED 0 1).bootSec
    d.extend 0 (Config.fuseDigest d.fuse.part d.fuse.stepping d.fuse.serial d.svnMin d.fuse.ownerValid d.fuse.fwKey)

/-- START_PROMPTER_STARTED (R315, R316): bank A, then bank B; or RECOVERY. Of each bank: its signature holds, its SVN, the
digest of its image. -/
def execStartPrompterStarted (okA okB : Bool) (svnA svnB : Nat) (digA digB : BitVec 384) (s : State) : Res :=
  onDev s fun d => d.when (d.power == .starting && d.phase == 2 && !d.prompter && d.fld F.SEC_STATE_SECURITY 0 == 0) fun d =>
    let start (bank svn : Nat) (dig : BitVec 384) : Dev :=
      let d := ((d.extend 1 dig).extendEvent 1 bank 0 0).setFld F.SEC_STATE_BANK 0 bank
      ({ (d.setFld F.SEC_STATE_SVN 0 svn).bootAlias with prompter := true }).openSource 0
    if okA ∧ d.svnMin ≤ svnA % 256 then start 0 svnA digA
    else if okB ∧ d.svnMin ≤ svnB % 256 then start 1 svnB digB
    else
      let d := { d.setFld F.SEC_STATE_SECURITY 0 2 with power := .running }
      d.each d.houseWings (fun d w => if d.site (wingSite w) = 2 then (d.setSite (wingSite w) 1).serviceLane w else d)

/-- START_SEAMS_UP (R315, R337): populated Wings and Looms leave reset, unless their width runs or DIE_HOLD keeps them
(R33), and Wing ROMs start the service lanes. A link that no SEAM_LINK_TRAINED has opened comes up with all its bundles
(DESIGN CHOICE, log entry 207). -/
def execStartSeamsUp (s : State) : Res :=
  onDev s fun d => d.when (d.power == .starting && d.phase == 2 && d.prompter) fun d =>
    ((List.range 20).map (· + 1)).foldl (fun d s =>
      if !d.mayLeave s then d
      else
        let d := if d.seamUp s then d else d.seamOpen s (seamTotal s)
        let d := (d.setSite s 1).setDieRst s 0
        if s ≤ 16 then d.serviceLane (s - 1) else d.openSource (s - 15)) (d.setPhase 3)

/-- START_MEMORY_READY (R223, R337): the stacks are trained, unless their width runs or DIE_HOLD keeps them (R33), and their
carve-outs are zeroed and mirrored. -/
def execStartMemoryReady (s : State) : Res :=
  onBoth s fun x =>
    if x.1.power = .starting ∧ x.1.phase = 3 then
      ((List.range 4).foldl (fun d k => if d.mayLeave (stackSite k) then (d.setSite (stackSite k) 1).setDieRst (stackSite k) 0 else d)
        ((x.1.setPhase 4).openSource 1), [])
    else x

/-- START_HOUSE_PORTS_UP (R337): the house ports whose Wings run are up. -/
def execStartHousePortsUp (s : State) : Res :=
  onDev s fun d => d.when (d.power == .starting && d.phase == 4) fun d =>
    { d.setPhase 5 with houseUp := (d.houseWings.zipIdx.filter (fun x => d.siteUp (wingSite x.1))).map (fun x => x.2) }

/-- START_FIRMWARE_VERIFIED (R315): Wing firmware, Loom microcode and the Charex library, then the repair map. Of each image:
its signature holds, its SVN, which must not be below SVN_MIN (R316), and its digest. -/
def execStartFirmwareVerified (wingOk loomOk libOk : Bool) (wing loom lib : FwImage) (s : State) : Res :=
  onDev s fun d => d.when (d.power == .starting && d.phase == 5) fun d =>
    let new (x : FwImage) : Bool := decide (d.svnMin ≤ x.svn % 256)
    let d := if wingOk ∧ new wing then (d.extend 2 wing.digest).modSec (fun x => { x with wingFw := true }) else d.notice N.FW_REFUSED Src.security 0 0
    let d := if loomOk ∧ new loom then (d.extend 5 loom.digest).modSec (fun x => { x with loomFw := true }) else d.notice N.FW_REFUSED Src.security 0 0
    let d := if libOk ∧ new lib then (d.extend 3 lib.digest).modSec (fun x => { x with library := true }) else d
    let d := d.overlay.foldl (fun d r => d.extendRepair r) (d.extend 4 d.fuse.map)
    { d.setFld F.SEC_STATE_SECURITY 0 1 with power := .running }

/-- Engines of a Loom that starts: those that a repair has exchanged are out of service (R204, R296). -/
def Dev.bootEngines (d : Dev) (k : Nat) : NMap Engine :=
  d.repairs.foldl (fun es r =>
    if r.kind = 3 ∧ r.site = loomSite k then (es.put r.unit { st := 6 }).put r.spare {} else es) []

/-- START_LOOMS_LOADED (R243, R315, R337). -/
def execStartLoomsLoaded (s : State) : Res :=
  onDev s fun d => d.when (d.power == .running && d.phase == 5) fun d =>
    let d := (List.range 4).foldl (fun d k =>
      if d.sec.loomFw then d.modLoom k (fun x => { x with engines := d.bootEngines k })
      else if d.siteUp (loomSite k) then (d.setSite (loomSite k) 2).setFld F.GLB_SEAM_STAT_STATE (loomSite k) 0 else d) (d.setPhase 6)
    d.each ((List.range d.nWings).filter (fun w => d.siteUp (wingSite w))) (fun d w =>
      let d := d.loadXtalk w
      if d.sec.wingFw then d.warmLasers w else d)

/-- START_DONE (R337): `elapsed` ms after PWR_OK. -/
def execStartDone (elapsed : Nat) (s : State) : Res :=
  onDev s fun d => d.when (d.power == .running && d.phase == 6) fun d =>
    let d := d.each (List.range d.nWings) (fun d w => d.readyLasers w)
    ((d.setPhase 7).setFld F.GLB_START_ELAPSED 0 (min elapsed 65535)).notice N.START_DONE Src.prompter 0 0

/-! ## Thermal action (R308) -/

/-- SOURCE of a thermal notice: the die at the site. -/
def thermSrc (s : Nat) : Nat := if s = 0 then Src.power else Src.die s

/-- A reading of a die against a level: `on` once as it reaches the level, and again only after it has fallen below. -/
def Dev.crossing (d : Dev) (key : Nat) (now : Bool) (f : Dev → Dev) : Dev :=
  if now then (if d.pwr.warned.contains key then d else f (d.modPwr (fun x => { x with warned := x.warned ++ [key] })))
  else d.modPwr (fun x => { x with warned := x.warned.filter (· ≠ key) })

/-- The action on one die's temperature (R308). -/
def Dev.dieThermal (d : Dev) (m : Mem) (s t : Nat) : Dev :=
  if s ≤ 20 then d.crossing s (decide (100 ≤ t)) (fun d => d.notice N.THERM_WARN (thermSrc s) 0 0)
  else
    let d := d.crossing s (decide (95 ≤ t)) (fun d => d.notice N.THERM_LIMIT (thermSrc s) 0 0)
    if 100 ≤ t ∧ d.siteUp s then (d.notice N.THERM_TRIP (thermSrc s) 0 0).dieReset m s 6 else d

/-- THERMAL_SAMPLE (R308): the hottest reading of each die, by site, in °C. -/
def execThermalSample (temps : List Nat) (s : State) : Res :=
  onDevM s fun m d => d.when d.powered fun d =>
    let ts := (temps.take 25).zipIdx.filter (fun x => x.2 == 0 || d.site x.2 != 0)
    let hot (p : Nat → Bool) : Nat := (ts.filter (fun x => p x.2)).foldl (fun a x => max a x.1) 0
    let d := (d.setFld F.PWR_THERM_STAGE_TJ 0 (min 255 (hot (· == 0)))).setFld F.PWR_THERM_LOOM_TJ 0
      (min 255 (hot (fun s => decide (17 ≤ s ∧ s ≤ 20))))
    let d := (d.setFld F.PWR_THERM_WING_TJ 0 (min 255 (hot (fun s => decide (1 ≤ s ∧ s ≤ 16))))).setFld F.PWR_THERM_HBM_T 0
      (min 255 (hot (fun s => decide (21 ≤ s))))
    let d := d.each ts (fun d x => d.dieThermal m x.2 x.1)
    let top := hot (fun s => decide (s ≤ 20))
    let d := if top < 103 then d.modPwr (fun x => { x with thermal := none }) else d
    if 115 ≤ hot (fun _ => true) then
      { (d.notice N.THERM_TRIP (thermSrc ((ts.find? (fun x => decide (115 ≤ x.1))).elim 0 (fun x => x.2))) 0 0).shutdown true with tripped := true }
    else d.settle

/-- THERM_LIMIT (R308): a Stage, Wing or Loom junction has stood at 105 °C or above for 1 ms. -/
def execThermLimit (s : State) : Res :=
  onDev s fun d =>
    let top := max (d.fld F.PWR_THERM_STAGE_TJ 0) (max (d.fld F.PWR_THERM_LOOM_TJ 0) (d.fld F.PWR_THERM_WING_TJ 0))
    d.when (decide (105 ≤ top) && d.pwr.thermal.isNone) fun d =>
      (d.modPwr (fun x => { x with thermal := some (d.fld F.PWR_STAT_POWER 0 * 95 / 100) })).notice N.THERM_LIMIT Src.power 0 0

end Sys2Proof.Machine
end

