-- ==== Sys2Proof/Machine/Rehearse.lean ====
section
/-! DEFINITION. Fault rehearsal (R297, R298). -/

namespace Sys2Proof.Machine

/-! ## Fields of a GLB_RHSn word -/

def rhsKind (w : Word) : Nat := fldOf F.GLB_RHS_KIND w
def rhsProd (w : Word) : Nat := fldOf F.GLB_RHS_PROD w
def rhsTarget (w : Word) : Nat := fldOf F.GLB_RHS_TARGET w
def rhsLane (w : Word) : Nat := rhsTarget w % 1024
def rhsSite (w : Word) : Nat := rhsTarget w % 32
def rhsWing (w : Word) : Nat := rhsTarget w / 16 % 16
def rhsGroup (w : Word) : Nat := rhsTarget w % 8
def rhsTable (w : Word) : Nat := rhsTarget w / 2 ^ 20 % 16
def rhsIndex (w : Word) : Nat := rhsTarget w % 2 ^ 20
def rhsLoom (w : Word) : Nat := rhsTarget w % 4

/-- GLB_RHS_WRITE (R297): EN and the rest of the register, by a master that holds the privilege. -/
def execGlbRhsWrite (m : Master) (n : Nat) (data : Word) (s : State) : Res :=
  ifUnit (decide (n < 16)) <| onDev s fun d => d.regRow m .GLB_RHS n data (fun d => d.plainWrite .GLB_RHS n data)

/-- The lowest-numbered RUNNING engine of an image of PROD on the Loom (R297). -/
def Dev.rhsEngine (d : Dev) (w : Word) : Option Nat :=
  (List.range 68).find? (fun e => (d.engine (rhsLoom w) e).st == 1 && (d.engine (rhsLoom w) e).prod == rhsProd w)

/-- R33 refuses a reset of the site, which would leave no house-port Wing RUNNING. -/
def Dev.resetRefused (d : Dev) (s : Nat) : Bool :=
  d.houseWings.any (fun h => wingSite h == s) && !(d.houseWings.any (fun h => d.siteUp (wingSite h) && wingSite h != s))

/-- An injection that cannot take effect (R298). -/
def Dev.rhsCannot (d : Dev) (w : Word) : Bool :=
  match rhsKind w with
  | 0 => false
  | 1 => rhsSite w == 0 || d.site (rhsSite w) != 1 || d.resetRefused (rhsSite w)
  | 2 => (d.freeUnder (rhsWing w) (rhsGroup w)).isNone
      || ((d.groupLaser (rhsWing w) (rhsGroup w)).filter (fun k => d.laserState (rhsWing w) k == 2)).isNone
  | 3 => (d.ent (rhsTable w) (rhsIndex w)).isNone
  | _ => (d.rhsEngine w).isNone

/-- An injection of the register is announced, or still in effect (R298). -/
def Dev.rhsBusy (d : Dev) (n : Nat) : Bool :=
  match d.rhs.find n with
  | none => false
  | some x =>
    x.phase == 1
    || match rhsKind x.word with
      | 0 => (d.lane (rhsLane x.word)).muted
      | 1 => d.dieHeld (rhsSite x.word) || bitOf (d.rd .GLB_RESET_CTL 0) (rhsSite x.word)
      | 2 => d.fades.contains (rhsWing x.word, rhsGroup x.word)
      | 3 => d.tab.parity.contains (tblKey (rhsTable x.word) (rhsIndex x.word))
      | _ => (d.engine (rhsLoom x.word) x.unit).st == 3

/-- An injection uses a count: EN clears with a count of 1 (R297). -/
def Dev.rhsUse (d : Dev) (n : Nat) : Dev :=
  let c := d.fld F.GLB_RHS_COUNT n
  if c = 0 then d
  else
    let d := d.setFld F.GLB_RHS_COUNT n (c - 1)
    if c = 1 then d.setFld F.GLB_RHS_EN n 0 else d

/-- REHEARSAL_INJECT (R297, R298): a period is over; the injection is announced, or skipped. -/
def execRehearsalInject (n : Nat) (s : State) : Res :=
  ifUnit (decide (n < 16)) <| onDev s fun d => d.when (d.flag F.GLB_RHS_EN n) fun d =>
    let w := d.rd .GLB_RHS n
    if d.rhsBusy n ∨ d.rhsCannot w then (d.rhsUse n).countGlb C.RHS_SKIP
    else
      let d := { d.rhsUse n with rhs := d.rhs.put n { phase := 1, word := w } }
      d.notice N.REHEARSAL_INJECT Src.prompter (rhsProd w) (rhsKind w * 2 ^ 61 + n * 2 ^ 57 + rhsTarget w * 2 ^ 24)

/-- The fault itself, along the real fault's path (R297). -/
def Dev.rhsFault (d : Dev) (m : Mem) (n : Nat) (w : Word) : Dev :=
  match rhsKind w with
  | 0 => d.modLane (rhsLane w) (fun x => { x with muted := true })
  | 1 => ((d.dieReset m (rhsSite w) 6).setDieRst (rhsSite w) 1).settle
  | 2 =>
    let x := rhsWing w
    let g := rhsGroup w
    d.whenSome (d.groupLaser x g) fun k d => d.whenSome (d.freeUnder x g) fun u d =>
      let d := d.setFld F.WNG_LASER_MARGIN (lasIdx x k) 5
      if d.flag F.WNG_CTL_AUTO_SWAP x then ({ d with fades := d.fades ++ [(x, g)] }).beginSwap x g k u false false false (d.trained x g) else d
  | 3 =>
    let key := tblKey (rhsTable w) (rhsIndex w)
    { d with tab := { d.tab with parity := d.tab.parity.filter (fun (y : Nat) => y ≠ key) ++ [key] } }
  | _ =>
    d.whenSome (d.rhsEngine w) fun e d =>
      ({ d with rhs := d.rhs.put n { phase := 2, word := w, unit := e } }).trapEngine m (rhsLoom w) e Cause.INJECTED (rhsProd w * 16 + n)

/-- RHS_EFFECT (R297, R298): an announced injection takes effect, unless by now it cannot. -/
def execRhsEffect (n : Nat) (s : State) : Res :=
  ifUnit (decide (n < 16)) <| onDevM s fun m d => d.whenSome ((d.rhs.find n).filter (fun x => x.phase == 1)) fun x d =>
    if d.rhsCannot x.word then ({ d with rhs := d.rhs.erase n }).countGlb C.RHS_SKIP
    else ({ d with rhs := d.rhs.put n { x with phase := 2 } }).rhsFault m n x.word

/-- RHS_MUTE_END (R297): 100 µs after it was muted, the lane's transmitter is on again. -/
def execRhsMuteEnd (n : Nat) (s : State) : Res :=
  ifUnit (decide (n < 16)) <| onDev s fun d => d.whenSome ((d.rhs.find n).filter (fun x => x.phase == 2 && rhsKind x.word == 0)) fun x d =>
    ({ d with rhs := d.rhs.erase n }).modLane (rhsLane x.word) (fun y => { y with muted := false })

end Sys2Proof.Machine
end

