-- ==== Sys2Proof/Machine/Regs.lean ====
section
/-! DEFINITION. Register access by address (R8 to R10, R330 to R332, R338): every register's read and write, and the
broadcast window. -/

namespace Sys2Proof.Machine

/-! ## Reads -/

/-- CUE_ENG_STAT of an engine (R191). -/
def Engine.statWord (y : Engine) : Word :=
  BitVec.ofNat 64 (y.st % 16 * 2 ^ 60 + y.prod % 4096 * 2 ^ 48 + y.image % 256 * 2 ^ 40 + y.pos % 64 * 2 ^ 34
    + y.queue.length % 32 * 2 ^ 16 + y.pc % 65536)

/-- GLB_REPAIR (R296): overlay entries and spares left. -/
def Dev.repairWord (d : Dev) : Word :=
  let lasers := ((List.range d.nWings).flatMap (fun w => (List.range 10).filter (fun k => d.laserState w k == 3))).length
  let engines := ((List.range 4).flatMap (fun k => (List.range 68).filter (fun e => (d.engine k e).st == 7))).length
  BitVec.ofNat 64 (d.overlay.length * 2 ^ 53 + d.wrdSpare * 2 ^ 49 + lasers * 2 ^ 43 + engines * 2 ^ 38)

/-- SEC_STATE with the fields that fuses and counters hold (R316). -/
def Dev.secWord (d : Dev) : Word :=
  setBits (setBits (setBits (d.rd .SEC_STATE 0) 50 43 d.svnMin) 42 39 d.fuse.ownerValid) 37 32 (min 63 d.fuse.lockouts)

/-- A word whose HIGH field is never below what is in use now: the most in use since the last read (R109, R218). -/
def viewHigh (high use : Fld) (w : Word) : Word := setBits w high.hi high.lo (max (fldOf high w) (fldOf use w))

/-- A register's word as it reads: the word it holds, or what the state computes for it. -/
def Dev.view (d : Dev) (r : RF) (i : Nat) : Word :=
  match r with
  | .GLB_SEAM_STAT => setBits (d.rd r i) F.GLB_SEAM_STAT_UNDERSTUDIES_IN.hi F.GLB_SEAM_STAT_UNDERSTUDIES_IN.lo (min 255 (d.understudies i).length)
  | .GLB_SITE_MAP => setBits (d.rd .GLB_SITE_MAP 0) 1 0 1
  | .WRD_POOL => BitVec.ofNat 64 (min d.sharedTotal 2097151 * 2 ^ 32 + min d.sharedFree 2097151)
  | .TBL_ENS_C => BitVec.ofNat 64 (d.groupCount true i % 2 ^ 19 * 2 ^ 32)
  | .CUE_ENG_STAT => (d.engine (i / 68) (i % 68)).statWord
  | .GLB_REPAIR => d.repairWord
  | .WNG_LASER => setBits (d.rd r i) F.WNG_LASER_HOURS.hi F.WNG_LASER_HOURS.lo (min (2 ^ 24 - 1) (d.laserUnits i / (3600 * 10 ^ 9 * 65536)))
  | .TMU_FRC => BitVec.ofNat 64 d.tmu.frc
  | .TMU_NOW => BitVec.ofNat 64 d.timeNs
  | .TMU_NOW_FRAC => BitVec.ofNat 64 d.tmu.latch
  | .TMU_STAT => setBits (d.rd .TMU_STAT 0) F.TMU_STAT_SYNCED.hi F.TMU_STAT_SYNCED.lo (bit d.syncedNow)
  | .PWR_STAT => setBits (d.rd .PWR_STAT 0) F.PWR_STAT_INST_OVER.hi F.PWR_STAT_INST_OVER.lo
      (bit (d.flag F.PWR_CAP_INST_EN 0 && decide (d.fld F.PWR_CAP_INST_CAP 0 < d.fld F.PWR_STAT_POWER 0)))
  | .SEC_STATE => d.secWord
  | .SEC_DBG_CTL => setBits (d.rd .SEC_DBG_CTL 0) F.SEC_DBG_CTL_REMAIN.hi F.SEC_DBG_CTL_REMAIN.lo d.dbgRemain
  | .CNT_VAL => d.cntWord (i / 64) (i % 64)
  | .CNT_FREEZE => setBits (d.rd .CNT_FREEZE 0) F.CNT_FREEZE_STATE.hi F.CNT_FREEZE_STATE.lo d.cutState
  | .WRD_RSQ_STAT => viewHigh F.WRD_RSQ_STAT_HIGH F.WRD_RSQ_STAT_IN_USE (d.rd r i)
  | .MEM_LEDGER => viewHigh F.MEM_LEDGER_HIGH F.MEM_LEDGER_IN_USE (d.rd r i)
  | r => d.rd r i

/-- What a read does beside answering: RC fields clear, and TMU_NOW latches (R10, R268). -/
def Dev.readEffect (d : Dev) (r : RF) (i : Nat) : Dev :=
  match r with
  | .TMU_NOW => d.latchNow
  | r => d.rcClear r i

/-- The broadcast window (R331). -/
def inWindow (a : Nat) : Bool := decide (0x0E000000 ≤ a ∧ a < 0x0E010000)

/-- A read of an address: status, data, and the device after it. -/
def Dev.regRead (d : Dev) (m : Master) (a : Nat) : Nat × Word × Dev :=
  match regAt a with
  | none => (St.UNSUPPORTED, 0, d)
  | some (r, i) =>
    match d.regRefused m r i none with
    | some st => (st, 0, d)
    | none => if d.absentReg r i then (St.OK, 0, d) else (St.OK, d.view r i, d.readEffect r i)

/-! ## Writes -/

/-- TBL_DOWN: what the set of the row was before does not count any more (R77). -/
def Dev.wrTblDown (d : Dev) (n : Nat) (w : Word) : Dev :=
  let d := (d.plainWrite .TBL_DOWN n w).mended (tblKey downTable n)
  { d with net := { d.net with downLost := d.net.downLost.filter (fun (x : Nat) => x ≠ n) } }

/-- The list of a running order does not change while a swap is asked for (R130). -/
def Dev.wrRoList (d : Dev) (r : RF) (l i : Nat) (w : Word) : Dev :=
  if d.flag F.PRT_RO_CTL_SWAP l then d else d.plainWrite r i w

/-- What a write does at its register, once it is neither refused nor discarded. -/
def Dev.regOp (d : Dev) (mem : Mem) (r : RF) (i : Nat) (w : Word) : Dev :=
  match r with
  | .GLB_REF_CTL => d.wrRefCtl w
  | .GLB_RESET_CTL => d.wrResetCtl mem w
  | .TBL_DOWN => d.wrTblDown i w
  | .TBL_UP => (d.plainWrite .TBL_UP i w).mended (tblKey upTable i)
  | .TBL_CMD => d.wrTblCmd w
  | .TBL_DATA => d.wrTblData i w
  | .TBL_TCAM_PART => d.wrTcamPart w
  | .TBL_DMA_LOCK => d.wrDmaLock w
  | .PRT_BORDER => d.wrBorder i w
  | .WRD_COLL_POOL => d.wrCollPool w
  | .PRT_QRATE => d.wrQrate (i / 64) (i % 64) w
  | .PRT_QOWN => d.wrQown (i / 64) (i % 64) w
  | .PRT_RO_CTL => d.wrRoCtl i w
  | .PRT_RO_BASE => d.wrRoList .PRT_RO_BASE i i w
  | .PRT_RO_ENTRY => d.wrRoList .PRT_RO_ENTRY (i / 128) i w
  | .TBL_ENS_A => d.wrEns i false w
  | .TBL_ENS_B => d.wrEns i true w
  | .WNG_LANE_CTL => d.wrLaneCtl (i / 65) (i % 65) w
  | .WNG_LASER_CMD => d.wrLaserCmd i w
  | .WNG_CTL => d.wrWngCtl i w
  | .WNG_XTALK => d.wrXtalk i w
  | .WNG_TRAP_MAP => d.wrTrapMap i w
  | .WNG_TRAP_CTL => d.wrTrapCtl i w
  | .PRT_LINK_CTL => d.wrLinkCtl i w
  | .PRT_SEAT => d.wrSeat i w
  | .TMU_RATE => d.wrTmuRate w
  | .TMU_OFFSET => d.wrTmuOffset w
  | .TMU_CTL => d.wrTmuCtl w
  | .PRT_LAUNCH => d.wrLaunch (i / 64) (i % 64) w
  | .PRT_FENCE => d.wrFence i w
  | .GLB_FM => d.wrFm i w
  | .GLB_FM_LOCK => d.wrFmLock w
  | .PWR_CAP_MIN => d.wrCapMin w
  | .PWR_CAP_INST => d.wrCapInst w
  | .PWR_GOV => d.wrGov w
  | .SEC_EXT_CTL => d.wrExtCtl w
  | .CNT_VAL => d.wrCntVal i w
  | .CNT_FREEZE => d.wrFreeze w
  | .CNT_SNAP_RP => d.plainWrite .CNT_SNAP_RP 0 (setBits w 5 0 0)
  | .CNT_SMP_RP => d.plainWrite .CNT_SMP_RP 0 (setBits w 4 0 0)
  | r => d.plainWrite r i w

/-- Ports that the broadcast selection names (R332). -/
def Dev.bcastPorts (d : Dev) : List Nat :=
  let mode := d.fld F.PRT_BCAST_SEL_MODE 0
  let set := if mode = 2 then ((d.members (d.fld F.PRT_BCAST_SEL_SET 0)).1.flatMap (fun m => m.2)) else []
  (List.range d.nLanes).filter (fun l =>
    match mode with
    | 0 => true
    | 1 => l / 64 == d.fld F.PRT_BCAST_SEL_WING 0
    | 2 => set.contains l
    | _ => bitOf (d.rd .PRT_BCAST_MASK (l / 64)) (l % 64))

/-- A write in the broadcast window (R332): each selected port takes it as a single-port write, in increasing order. -/
def Dev.bcast (d : Dev) (mem : Mem) (m : Master) (o : Nat) (w : Word) : Nat × Dev :=
  match (if o < 0x10000 then regAt (0x01000000 + o) else none) with
  | none => (St.UNSUPPORTED, d)
  | some (r, i) =>
    match d.regRefused m r i (some w) with
    | some st => (st, d)
    | none =>
      (St.OK, (d.each d.bcastPorts (fun d l =>
        match regAt (0x01000000 + l * 0x10000 + o) with
        | some (r, i) => (d.regWith m r i w (fun d => d.regOp mem r i w)).2.settle
        | none => d)))

/-- A write of an address: status, and the device after it. -/
def Dev.regWrite (d : Dev) (mem : Mem) (m : Master) (a : Nat) (w : Word) : Nat × Dev :=
  if inWindow a then d.bcast mem m (a - 0x0E000000) w
  else match regAt a with
    | none => (St.UNSUPPORTED, d)
    | some (r, i) =>
      let x :=
        match r with
        | .CUE_LDR_CMD => d.wrLdrCmd mem m i w
        | .CUE_LDR_SRC => d.wrLdrSrc m i w
        | .SEC_DBG_CTL => d.regWith m r i w (fun d => d.wrDbgCtl m w)
        | r => d.regWith m r i w (fun d => d.regOp mem r i w)
      (x.1, x.2.settle)

/-- REG_WRITE (R8 to R10): a write of a register by its address. -/
def execRegWrite (m : Master) (addr : Nat) (data : Word) (s : State) : Res :=
  onDevM s fun mem d => let x := d.regWrite mem m addr data; x.2.emitOut (.reg x.1 0)

/-- READ_CLEAR (R10): a read of a register by its address. -/
def execReadClear (m : Master) (addr : Nat) (s : State) : Res :=
  onDev s fun d => let x := d.regRead m addr; x.2.2.emitOut (.reg x.1 x.2.1)

/-- BCAST_WRITE (R332). -/
def execBcastWrite (m : Master) (offset : Nat) (data : Word) (s : State) : Res :=
  onDevM s fun mem d => let x := d.bcast mem m offset data; x.2.emitOut (.reg x.1 0)

/-- HOUSE_LOCK (R330): a write of GLB_HOUSE_LOCK with LOCK 1. -/
def execHouseLock (m : Master) (s : State) : Res :=
  onDev s fun d =>
    let w : Word := BitVec.ofNat 64 (2 ^ 63)
    d.regRow m .GLB_HOUSE_LOCK 0 w (fun d => d.plainWrite .GLB_HOUSE_LOCK 0 w)

end Sys2Proof.Machine
end

