-- ==== Sys2Proof/Machine/Mgmt.lean ====
section
/-! DEFINITION. Management packets of FN 0x00 and FN 0xFF, and KLink frames (R45, R49, R54, R115, R318, R319, R326 to R329, R333). -/

namespace Sys2Proof.Machine

/-! ## NOTICE and REG.REQ packets -/

/-- NOTICE (R45, R49): the notice sink logs it as remote and leaves it for the relay. Addressed to another function, it
needs house privilege. -/
def execNotice (pid : Nat) (s : State) : Res :=
  onDev s fun d => d.whenSome (d.pkt pid) fun p d =>
    match p.place with
    | .atFn fn =>
      d.when (p.vl == 0 && p.opc == 0x62 && p.whole) fun d =>
        let d :=
          if fn = 0xFF ∨ d.housePriv p.src then d.logNotice (BitVec.ofNat 128 (p.at 4 16)) (some p.src)
          else d.discardAs p C.NOTICE_REFUSED
        (d.endPkt pid).settle
    | _ => d

/-- The REG.RSP that answers a REG.REQ (R54). -/
def regRsp (p : Pkt) (write : Bool) (status : Nat) (data : Word) : Pkt :=
  { id := 0, hdr := mkHdr p.src p.dst p.prod p.gen 0x61 0 p.tc, rw := BitVec.ofNat 32 (status * 2 ^ 20), vl := 0,
    pay := mkPay [(4, 2, p.at 4 2), (8, 4, p.at 8 4), (12, 8, if write then 0 else data.toNat)], inl := 1024, own := true }

/-- Lets a packet leave its lane before a reset begins: flit boundaries of that lane, 4,096 at most (DESIGN CHOICE). -/
def Dev.flushPkt (d : Dev) (l id : Nat) : Nat → Dev
  | 0 => d
  | n + 1 => if (d.pkt id).isNone then d else ((d.boundary l).settle).flushPkt l id n

/-- A completion has yet to leave, over a Wing that the write resets or a lane not chosen yet (R33). -/
def Dev.replyStays (d : Dev) (id : Nat) (w : Word) : Bool :=
  match d.pkt id with
  | none => false
  | some p => match p.place.egress with
    | some l => bitOf w (wingSite (l / 64))
    | none => p.place == .ingress

/-- Sends a response, and where its lane belongs to a Wing that the write resets, lets it leave first (R33): its name, and the
device. -/
def Dev.respondFirst (d : Dev) (p : Pkt) (w : Word) : Nat × Dev :=
  let (id, d) := d.addPkt p
  let d := d.forward id
  match (d.pkt id).bind (fun q => q.place.egress) with
  | some l => (id, if bitOf w (wingSite (l / 64)) ∧ d.linkRuns l ∧ !(d.lane l).muted then d.flushPkt l id 4096 else d)
  | none => (id, d)

/-- The Prompter holds VL0 space for a packet of its own (R115). -/
def Dev.prompterSpace (d : Dev) (p : Pkt) : Bool := (d.chargeSource (lvKey 1024 0) p).isSome

/-- REG_REQ (R54, R115, R330): one register access for its source, and REG.RSP. It waits for VL0 space. A reset that
would cut its answer off begins once the answer has left, at once or as the block idles (R33). -/
def regReqMade (pid : Nat) (s : State) : Res :=
  onDevM s fun mem d => d.whenSome (d.atMgmt pid 0x60) fun p d =>
    d.when (d.prompterSpace (regRsp p false 0 0)) fun d =>
      let write := p.at 4 2 / 2 ^ 15 == 1
      let a := p.at 8 4
      let m := Master.inband p.src
      if write then
        let w := BitVec.ofNat 64 (p.at 12 8)
        let x := d.regWrite mem m a w
        if regAt a = some (.GLB_RESET_CTL, 0) then
          let y := d.respondFirst (regRsp p true x.1 0) w
          let d := y.2.endPkt pid
          if x.1 = St.OK ∧ d.replyStays y.1 w then { d with resetDue := d.resetDue ++ [(y.1, p.src, w)] }
          else (d.regWrite mem m a w).2
        else (x.2.send (regRsp p true x.1 0)).endPkt pid
      else
        let x := d.regRead m a
        (x.2.2.send (regRsp p false x.1 x.2.1)).endPkt pid

/-- REG_REQ: what it makes is then routed. -/
def execRegReq (pid : Nat) (s : State) : Res := sendOut (regReqMade pid s)

/-! ## KLink frames (R326 to R328) -/

/-- MAC address of a house port (R326). -/
def Dev.houseMac (d : Dev) (port : Nat) : Nat := 0x02 * 2 ^ 40 + d.fuse.serial % 2 ^ 32 * 256 + port

/-- KLink frames that reach the device are served: once the Prompter has started, or by the recovery agent (R315, R338). -/
def Dev.serves (d : Dev) : Bool := d.prompter || (d.fld F.SEC_STATE_SECURITY 0 == 2 && d.power == .running)

/-- A frame arrives at a house port for its own address: no lane runs without the package reference (R34). -/
def Dev.klinkIn (d : Dev) (port : Nat) (f : KFrame) : Bool :=
  d.serves && d.tmu.refOk && d.houseUp.contains port && f.dst == d.houseMac port

def kVersion (f : KFrame) : Nat := bytesAt f.bytes 0 1 / 16
def kKind (f : KFrame) : Nat := bytesAt f.bytes 0 1 % 16
def kCount (f : KFrame) : Nat := bytesAt f.bytes 1 1
def kSeq (f : KFrame) : Nat := bytesAt f.bytes 4 4

/-- Shortest payload of an Ethernet frame: 46 bytes, 42 with a tag (PRESUMED). -/
def kLeast (f : KFrame) : Nat := if f.tag.isSome then 42 else 46

/-- A length of `n` bytes, or that length padded to the shortest frame. -/
def kLength (f : KFrame) (n : Nat) : Bool := f.bytes.length == n || (decide (n < (kLeast f)) && f.bytes.length == (kLeast f))

/-- A well-formed request (R327). -/
def kGood (f : KFrame) : Bool :=
  (kVersion f) == 1
  && match (kKind f) with
    | 0 => decide (1 ≤ (kCount f) ∧ (kCount f) ≤ 32) && kLength f (8 + 16 * (kCount f))
    | 1 => (kCount f) == 0 && decide (8 ≤ f.bytes.length)
    | 2 => decide (1 ≤ (kCount f) ∧ (kCount f) ≤ 32) && kLength f (8 + 16 * (kCount f))
    | _ => false

/-- The header of a frame the device sends (R327). -/
def klinkHeader (kind count seq : Nat) : List Byte := bytesOf 1 (16 + kind) ++ bytesOf 1 count ++ [0x80, 0] ++ bytesOf 4 seq

/-- One operation of a frame: WRITE and TAG, address, data (R54, R327). -/
structure KOp where
  wt : Nat
  addr : Nat
  data : Word
  deriving DecidableEq, Repr

def KOp.write (o : KOp) : Bool := o.wt / 2 ^ 15 == 1

/-- The operations of a frame. -/
def kOps (f : KFrame) : List KOp :=
  (List.range (kCount f)).map (fun i =>
    ⟨bytesAt f.bytes (8 + 16 * i) 2, bytesAt f.bytes (12 + 16 * i) 4, BitVec.ofNat 64 (bytesAt f.bytes (16 + 16 * i) 8)⟩)

/-- An operation in the response. -/
def KOp.reply (o : KOp) (status : Nat) (data : Word) : List Byte :=
  bytesOf 2 o.wt ++ bytesOf 1 status ++ [0] ++ bytesOf 4 o.addr ++ bytesOf 8 data.toNat

/-- Runs operations in order, each complete before the next starts; the device after them and their replies. -/
def runOps (f : Dev → KOp → Nat × Word × Dev) : List KOp → Dev → Dev × List Byte
  | [], d => (d, [])
  | o :: os, d =>
    let x := f d o
    let y := runOps f os x.2.2
    (y.1, o.reply x.1 x.2.1 ++ y.2)

/-- A register operation of a REG frame. -/
def Dev.klinkReg (mem : Mem) (port : Nat) (d : Dev) (o : KOp) : Nat × Word × Dev :=
  if o.write then
    let x := d.regWrite mem (.house port) o.addr o.data
    (x.1, 0, x.2)
  else d.regRead (.house port) o.addr

/-- A response leaves on the port where the request arrived, with the request's tag (R326). -/
def Dev.klinkOut (d : Dev) (port : Nat) (f : KFrame) (bs : List Byte) : Dev := d.emitOut (.klink port f.src f.tag bs)

/-- Keeps a response for its source, the 16 most recent of the port (R328). -/
def Dev.cacheKlink (d : Dev) (e : KCache) : Dev :=
  let mine := d.kcache.filter (fun (x : KCache) => x.port == e.port && x.mac != e.mac) ++ [e]
  { d with kcache := d.kcache.filter (fun (x : KCache) => x.port != e.port) ++ mine.drop (mine.length - 16) }

/-- KLINK_REG_FRAME (R328): answered from the cache, or run and cached. A frame whose operations reset the device leaves
no cache entry. -/
def execKlinkRegFrame (port : Nat) (f : KFrame) (s : State) : Res :=
  ifUnit (decide (port < 2)) <| onDevM s fun mem d => d.when (d.klinkIn port f && (kGood f) && (kKind f) == 0) fun d =>
    match d.kcache.find? (fun (x : KCache) => x.port == port && x.mac == f.src && x.seq == (kSeq f)) with
    | some e => (d.cacheKlink e).klinkOut port f e.resp
    | none =>
      let x := runOps (Dev.klinkReg mem port) (kOps f) d
      let bs := klinkHeader 0 (kCount f) (kSeq f) ++ x.2
      let d := x.1.klinkOut port f bs
      if d.serves then d.cacheKlink ⟨port, f.src, (kSeq f), bs⟩ else d

/-- A debug write of class 3: it halts the Prompter (site 0) or an engine of a Loom, lets it run, or lets the engine take a
step. Class 3 is not laid out (DESIGN CHOICE, log 158). -/
def Dev.debugHalt (d : Dev) (o : KOp) : Dev :=
  let site := o.addr / 2 ^ 27
  let x := Config.haltOp o.addr o.data
  if site = 0 then { d with prompterHalt := x.2 != 0 }
  else if 17 ≤ site ∧ site ≤ 20 then d.modLoom (site - 17) (fun l =>
    { l with halted := if x.2 = 0 then l.halted.erase (x.1 % 68) else l.halted.put (x.1 % 68) (x.2 - 1) })
  else d

/-- A debug operation (R319, R329). Debug space is not laid out: a word reads as the last debug write left it, and any other
as a free value (DESIGN CHOICE, log 157). -/
def Dev.klinkDebug (d : Dev) (o : KOp) : Nat × Word × Dev :=
  let lvl := d.fld F.SEC_STATE_DEBUG 0
  let cls := o.addr / 2 ^ 24 % 8
  if 25 ≤ o.addr / 2 ^ 27 ∨ 4 ≤ cls then (St.UNSUPPORTED, 0, d)
  else if Config.securitySpace o.addr ∨ (if o.write then lvl ≠ 2 else lvl = 0) then (St.DENIED, 0, d)
  else if o.write then (St.OK, 0, if cls = 3 then d.debugHalt o else { d with debugWords := d.debugWords.put o.addr o.data })
  else match d.debugWords.find o.addr with
    | some w => (St.OK, w, d)
    | none =>
      let x := d.freeNat
      (St.OK, BitVec.ofNat 64 x.1, x.2)

/-- KLINK_DEBUG_FRAME (R329). -/
def execKlinkDebugFrame (port : Nat) (f : KFrame) (s : State) : Res :=
  ifUnit (decide (port < 2)) <| onDev s fun d => d.when (d.klinkIn port f && (kGood f) && (kKind f) == 2) fun d =>
    let x := runOps Dev.klinkDebug (kOps f) d
    x.1.klinkOut port f (klinkHeader 2 (kCount f) (kSeq f) ++ x.2)

/-- KLINK_BAD (R327): a malformed frame, or a NOTICE frame, is discarded and counted. -/
def execKlinkBad (port : Nat) (f : KFrame) (s : State) : Res :=
  ifUnit (decide (port < 2)) <| onDev s fun d => d.when (d.klinkIn port f && !(kGood f)) (fun d => d.countGlb C.KLINK_BAD)

/-! ## The relay to the subscribers (R115, R333) -/

/-- Sends a notice to one subscriber, if it took the notice as it was raised, and is VALID still. -/
def Dev.relayTo (d : Dev) (r : Relay) (n : Nat) : Dev :=
  if !d.flag F.GLB_SUB_VALID n ∨ !r.subs.contains n then d
  else if d.fld F.GLB_SUB_MODE n = 0 then
    let p : Pkt :=
      { id := 0, hdr := mkHdr (BitVec.ofNat 32 (d.fld F.GLB_SUB_TARGET n)) (r.remote.getD (d.ownFn 0xFF)) (bitsOf r.bits 109 98) 0
          0x62 0 (d.fld F.GLB_SUB_TC n)
        rw := 0, vl := 0, pay := mkPay [(4, 16, r.bits.toNat)], inl := 1024, own := true }
    if d.prompterSpace p then (d.send p).settle else d.countGlb C.NOTICE_RELAY_SKIP
  else
    let bs := klinkHeader 3 0 r.seq ++ bytesOf 16 r.bits.toNat
    d.each ((List.range 2).filter (fun p => d.fld F.GLB_SUB_HPORT n == p || d.fld F.GLB_SUB_HPORT n == 2)) (fun d p =>
      if d.houseUp.contains p then d.emitOut (.klink p (d.fld F.GLB_SUB_TARGET n) none bs) else d)

/-- The oldest notice that waits is sent to every subscriber that took it (R333); none can leave while the package reference
is lost (R34), or while debug has halted the Prompter (R319). -/
def Dev.relayOne (d : Dev) : Dev :=
  match d.relay with
  | [] => d
  | r :: rs => if d.prompter ∧ !d.prompterHalt ∧ d.tmu.refOk then (({ d with relay := rs }).each (List.range 8) (fun d n => d.relayTo r n)) else d

end Sys2Proof.Machine
end

