-- ==== Sys2Proof/Machine/Spdm.lean ====
section
/-! DEFINITION. The SPDM responder (R312, R313, R317, R318, R324). R317 gives what it supports; the layout of its messages is that
of DMTF DSP0274, which the spec names and does not repeat (PRESUMED, log entries 154 and 155). -/

namespace Sys2Proof.Machine

/-! ## Messages -/

/-- Numbers of an SPDM message are least significant byte first. -/
def leBytes (n v : Nat) : List Byte := (bytesOf n v).reverse
/-- A number of a request, by its offset in the message. -/
def kLe (f : KFrame) (off n : Nat) : Nat := ofBytes (((f.bytes.drop (8 + off)).take n).reverse)

/-- SPDMVersion, request code, Param1 and Param2 of a request. -/
def kSpdmVer (f : KFrame) : Nat := bytesAt f.bytes 8 1
def kSpdm (f : KFrame) : Nat := bytesAt f.bytes 9 1
def kParam1 (f : KFrame) : Nat := bytesAt f.bytes 10 1
def kParam2 (f : KFrame) : Nat := bytesAt f.bytes 11 1

/-- Request codes of R317's list. -/
def Spdm.GET_DIGESTS : Nat := 0x81
def Spdm.GET_CERTIFICATE : Nat := 0x82
def Spdm.CHALLENGE : Nat := 0x83
def Spdm.GET_VERSION : Nat := 0x84
def Spdm.GET_MEASUREMENTS : Nat := 0xE0
def Spdm.GET_CAPABILITIES : Nat := 0xE1
def Spdm.NEGOTIATE_ALGORITHMS : Nat := 0xE3
def Spdm.supported : List Nat := [Spdm.GET_DIGESTS, Spdm.GET_CERTIFICATE, Spdm.CHALLENGE, Spdm.GET_VERSION,
  Spdm.GET_MEASUREMENTS, Spdm.GET_CAPABILITIES, Spdm.NEGOTIATE_ALGORITHMS]

/-- The four bytes that begin a response. -/
def spdmHead (ver code p1 p2 : Nat) : List Byte := bytesOf 1 ver ++ bytesOf 1 code ++ bytesOf 1 p1 ++ bytesOf 1 p2

/-- The version of an answer: that of the request where it is 1.2 or 1.3, and 1.2 else. -/
def spdmVer (f : KFrame) : Nat := if kSpdmVer f = 0x13 then 0x13 else 0x12

/-- ERROR with code UnsupportedRequest, and with code Busy. -/
def spdmUnsupported (f : KFrame) : List Byte := spdmHead (spdmVer f) 0x7F 7 (kSpdm f)
def spdmBusy (f : KFrame) : List Byte := spdmHead (spdmVer f) 0x7F 3 0

/-! ## Keys and certificates (R312, R324) -/

/-- The signing key of a certificate slot: 0 identity, 1 derived at boot; in RECOVERY there is slot 0 only. -/
def Dev.slotKey (d : Dev) (slot : Nat) : Option (BitVec 384) :=
  if slot = 0 then d.sec.identityKey else if slot = 1 then d.sec.bootKey else none

/-- The slots that are served. -/
def Dev.slots (d : Dev) : List Nat := [0, 1].filter (fun n => (d.slotKey n).isSome)

/-- The certificate chain of a slot that is served. -/
def Dev.chainOf (d : Dev) (slot : Nat) : Option (List Byte) :=
  (d.slotKey slot).map (fun k => Config.certChain slot (ecdsaPublic k.toNat))

/-- A signature by a slot's key over the digest of the conversation, its secret number from the DRBG. -/
def Dev.spdmSign (d : Dev) (key : BitVec 384) (f : KFrame) (body : List Byte) : List Byte × Dev :=
  let x := d.random 48
  let g := ecdsaSign key.toNat (ofBytes x.1 % (p384N - 1) + 1) (Config.spdmHash (f.bytes.drop 8) body)
  (bytesOf 48 g.1 ++ bytesOf 48 g.2, x.2)

/-! ## Measurements (R313) -/

/-- DMTF value type of SEC_MEASn. -/
def measType (n : Nat) : Nat :=
  match n with | 0 => 0 | 1 => 1 | 2 => 1 | 3 => 1 | 4 => 2 | 5 => 1 | 6 => 5 | 7 => 3 | _ => 4

/-- The measurement block of index n + 1: SEC_MEASn. -/
def Dev.measBlock (d : Dev) (n : Nat) : List Byte :=
  bytesOf 1 (n + 1) ++ [1] ++ leBytes 2 51 ++ bytesOf 1 (measType n) ++ leBytes 2 48 ++ bytesOf 48 (d.meas n).toNat

/-- The blocks of some registers, as one handshake reads them (R318). -/
def Dev.measBlocks (d : Dev) (ns : List Nat) : List Byte := ns.flatMap d.measBlock

/-! ## Responses (R317) -/

/-- VERSION: 1.2 and 1.3. -/
def spdmVersion : List Byte := spdmHead 0x10 0x04 0 0 ++ [0, 2] ++ leBytes 2 0x1200 ++ leBytes 2 0x1300

/-- CAPABILITIES: CERT_CAP, CHAL_CAP, MEAS_CAP with signature, MEAS_FRESH_CAP. -/
def spdmCapabilities (f : KFrame) : List Byte :=
  spdmHead (spdmVer f) 0x61 0 0 ++ [0] ++ bytesOf 1 (Config.spdmSizes 0) ++ [0, 0] ++ leBytes 4 0x36
    ++ leBytes 4 (Config.spdmSizes 1) ++ leBytes 4 (Config.spdmSizes 2)

/-- ALGORITHMS: of what the request offers, DMTF, SHA-384 and ECDSA P-384. -/
def spdmAlgorithms (f : KFrame) : List Byte :=
  spdmHead (spdmVer f) 0x63 0 0 ++ leBytes 2 36 ++ bytesOf 1 (Nat.land (kLe f 6 1) 1) ++ [0] ++ leBytes 4 4
    ++ leBytes 4 (Nat.land (kLe f 8 4) 0x80) ++ leBytes 4 (Nat.land (kLe f 12 4) 2) ++ List.replicate 16 0

/-- DIGESTS: the SHA-384 of each chain that is served. -/
def Dev.spdmDigests (d : Dev) (f : KFrame) : List Byte :=
  let mask := d.slots.foldl (fun a n => a + 2 ^ n) 0
  spdmHead (spdmVer f) 0x01 (if spdmVer f = 0x13 then mask else 0) mask
    ++ d.slots.flatMap (fun n => bytesOf 48 (sha384 ((d.chainOf n).getD [])).toNat)

/-- CERTIFICATE: the part of a slot's chain that the request asks for. -/
def Dev.spdmCertificate (d : Dev) (f : KFrame) : List Byte :=
  match d.chainOf (kParam1 f % 16) with
  | none => spdmUnsupported f
  | some c =>
    let part := (c.drop (kLe f 4 2)).take (kLe f 6 2)
    spdmHead (spdmVer f) 0x02 (kParam1 f % 16) 0 ++ leBytes 2 part.length ++ leBytes 2 (c.length - kLe f 4 2 - part.length) ++ part

/-- The requester's context, which 1.3 carries after the nonce. -/
def kContext (f : KFrame) (off : Nat) : List Byte := if spdmVer f = 0x13 then (f.bytes.drop (8 + off)).take 8 else []

/-- CHALLENGE_AUTH: the digest of the slot's chain, a nonce, the summary asked for, and the signature. -/
def Dev.spdmChallenge (d : Dev) (f : KFrame) : List Byte × Dev :=
  let slot := kParam1 f % 16
  let all := List.range 16
  let sum : Option (List Byte) := match kParam2 f with
    | 0 => some []
    | 1 => some (bytesOf 48 (sha384 (d.measBlocks (all.filter (fun n => decide (measType n ≤ 1))))).toNat)
    | 0xFF => some (bytesOf 48 (sha384 (d.measBlocks all)).toNat)
    | _ => none
  match d.slotKey slot, sum with
  | some key, some h =>
    let x := d.random 32
    let body := spdmHead (spdmVer f) 0x03 slot (d.slots.foldl (fun a n => a + 2 ^ n) 0)
      ++ bytesOf 48 (sha384 ((d.chainOf slot).getD [])).toNat ++ x.1 ++ h ++ [0, 0] ++ kContext f 36
    let g := x.2.spdmSign key f body
    (body ++ g.1, g.2)
  | _, _ => (spdmUnsupported f, d)

/-- MEASUREMENTS: index 1 to 16, or 0xFF for all, signed where the request asks for it. -/
def Dev.spdmMeasurements (d : Dev) (f : KFrame) : List Byte × Dev :=
  let signed := kParam1 f % 2 = 1
  let slot := if signed then kLe f 36 1 % 16 else 0
  let ns := if kParam2 f = 0xFF then List.range 16 else if 1 ≤ kParam2 f ∧ kParam2 f ≤ 16 then [kParam2 f - 1] else []
  match d.slotKey slot with
  | none => (spdmUnsupported f, d)
  | some key =>
    if ns.isEmpty then (spdmUnsupported f, d)
    else
      let rec_ := d.measBlocks ns
      let x := d.random 32
      let body := spdmHead (spdmVer f) 0x60 0 slot ++ bytesOf 1 ns.length ++ leBytes 3 rec_.length ++ rec_ ++ x.1 ++ [0, 0]
        ++ kContext f (if signed then 37 else 4)
      if signed then
        let g := x.2.spdmSign key f body
        (body ++ g.1, g.2)
      else (body, x.2)

/-! ## The commands (R317) -/

/-- SPDM is served in Running, whether SECURE or RECOVERY (R324). -/
def Dev.spdmOpen (d : Dev) : Bool :=
  d.power == .running && (d.fld F.SEC_STATE_SECURITY 0 == 1 || d.fld F.SEC_STATE_SECURITY 0 == 2)

/-- An SPDM message as a response on a house port. -/
def spdmOut (port : Nat) (f : KFrame) (body : List Byte) : Out := .klink port f.src f.tag (klinkHeader 1 0 (kSeq f) ++ body)

/-- The version that a request may name: 1.0 for GET_VERSION, 1.2 or 1.3 for any other. -/
def spdmVerOk (f : KFrame) : Bool :=
  if kSpdm f = Spdm.GET_VERSION then kSpdmVer f == 0x10 else kSpdmVer f == 0x12 || kSpdmVer f == 0x13

/-- An SPDM frame with a request that `ok` picks out: its response is in progress until it leaves as the block idles, and a
request that meets one in progress on its port is answered with ERROR Busy (R317). -/
def spdmRow (port : Nat) (f : KFrame) (ok : Nat → Bool) (ans : Dev → List Byte × Dev) (s : State) : Res :=
  ifUnit (decide (port < 2)) <| onDev s fun d =>
    d.when (d.klinkIn port f && d.spdmOpen && (kGood f) && (kKind f) == 1 && ok (kSpdm f)) fun d =>
      if (d.spdm.find port).isSome then d.emitOut (spdmOut port f (spdmBusy f))
      else
        let x := if spdmVerOk f then ans d else (spdmUnsupported f, d)
        { x.2 with spdm := x.2.spdm.put port (spdmOut port f x.1) }

/-- GET_VERSION (R317). -/
def execGetVersion (port : Nat) (f : KFrame) (s : State) : Res := spdmRow port f (· == Spdm.GET_VERSION) (fun d => (spdmVersion, d)) s
/-- GET_CAPABILITIES (R317). -/
def execGetCapabilities (port : Nat) (f : KFrame) (s : State) : Res :=
  spdmRow port f (· == Spdm.GET_CAPABILITIES) (fun d => (spdmCapabilities f, d)) s
/-- NEGOTIATE_ALGORITHMS (R317). -/
def execNegotiateAlgorithms (port : Nat) (f : KFrame) (s : State) : Res :=
  spdmRow port f (· == Spdm.NEGOTIATE_ALGORITHMS) (fun d => (spdmAlgorithms f, d)) s
/-- GET_DIGESTS (R317). -/
def execGetDigests (port : Nat) (f : KFrame) (s : State) : Res :=
  spdmRow port f (· == Spdm.GET_DIGESTS) (fun d => (d.spdmDigests f, d)) s
/-- GET_CERTIFICATE (R312, R317). -/
def execGetCertificate (port : Nat) (f : KFrame) (s : State) : Res :=
  spdmRow port f (· == Spdm.GET_CERTIFICATE) (fun d => (d.spdmCertificate f, d)) s
/-- CHALLENGE (R317, R324). -/
def execChallenge (port : Nat) (f : KFrame) (s : State) : Res := spdmRow port f (· == Spdm.CHALLENGE) (fun d => d.spdmChallenge f) s
/-- GET_MEASUREMENTS (R313, R317, R318). -/
def execGetMeasurements (port : Nat) (f : KFrame) (s : State) : Res :=
  spdmRow port f (· == Spdm.GET_MEASUREMENTS) (fun d => d.spdmMeasurements f) s
/-- UNSUPPORTED_REQUEST (R317): any other request is answered with ERROR UnsupportedRequest. -/
def execUnsupportedRequest (port : Nat) (f : KFrame) (s : State) : Res :=
  spdmRow port f (fun c => !(Spdm.supported.contains c)) (fun d => (spdmUnsupported f, d)) s

/-- Responses in progress leave on their ports, where the device still answers; a shutdown discards them (R324). -/
def Dev.spdmSend (d : Dev) : Dev :=
  if !d.spdmOpen then { d with spdm := [] }
  else if !d.tmu.refOk then d
  else ({ d with spdm := d.spdm.filter (fun x => !d.houseUp.contains x.1) } : Dev).each
    (d.spdm.filter (fun x => d.houseUp.contains x.1)) (fun d x => d.emitOut x.2)

end Sys2Proof.Machine
end

