-- ==== Sys2Proof/Machine/Clock.lean ====
section
/-! DEFINITION. What the block does by itself on an empty queue: one tick of the free-running counter (R266), lasers judged by a new bias (R236), one
notice relayed (R333), SPDM responses sent (R317), and a reset that waited for its completion to leave (R33). -/

namespace Sys2Proof.Machine

/-- The free-running counter counts: the Stage is out of reset, the package reference is present and the time unit's
PLL is locked (R34, R266, R337). -/
def Dev.frcRuns (d : Dev) : Bool :=
  (d.power != .off && d.power != .standby) && d.tmu.refOk && d.flag F.TMU_STAT_LOCKED 0

/-- Units of one 0.8 ns tick: 262,144 in every five (R266). -/
def tickUnits (n : Nat) : Nat := if (n + Config.tickPhase) % 5 = 0 then 52428 else 52429

/-- T is kept from a newer point of the counter before the advance since the last one reaches half its range: the
counter's own wrap does not show in T (R267). -/
def Dev.rebase (d : Dev) : Dev :=
  if 2 ^ 63 ≤ (d.tmu.frc + 2 ^ 64 - d.tmu.baseFrc % 2 ^ 64) % 2 ^ 64 then
    { d with tmu := { d.tmu with base := d.timeFull, baseFrc := d.tmu.frc } }
  else d

/-- The package reference clocks the device: elapsed time goes on (R21, R34, R277). -/
def Dev.clocked (d : Dev) : Bool := (d.power != .off && d.power != .standby) && d.tmu.refOk

/-- Engines sampled by network time note the instructions they have issued as their period runs out (R193). -/
def Dev.markSamples (d : Dev) : Dev :=
  { d with looms := d.looms.map (fun (x : Nat × Loom) =>
      if d.flag F.CUE_SAMPLE_CTL_EN x.1 && d.flag F.CUE_SAMPLE_CTL_MODE x.1 then
        (x.1, { x.2 with engines := x.2.engines.map (fun (e : Nat × Engine) =>
          (e.1, if e.2.live then e.2.runOut true (d.samplePer x.1) d.timeNs else e.2)) })
      else x) }

/-- One tick: elapsed time, and the counter while it counts (R266). -/
def Dev.tick (d : Dev) : Dev :=
  let n := tickUnits d.tmu.tick
  if d.frcRuns then
    ({ d with tmu := { d.tmu with frc := (d.tmu.frc + n) % 2 ^ 64, total := d.tmu.total + n, tick := (d.tmu.tick + 1) % 5 } }).rebase.markSamples
  else if d.clocked then { d with tmu := { d.tmu with total := d.tmu.total + n, tick := (d.tmu.tick + 1) % 5 } }
  else d

/-- A write of GLB_RESET_CTL whose completion has left takes effect (R33). -/
def Dev.resetNow (d : Dev) (mem : Mem) : Dev :=
  match d.resetDue with
  | [] => d
  | x :: xs =>
    if d.replyStays x.1 x.2.2 then d
    else (({ d with resetDue := xs } : Dev).regWrite mem (.inband x.2.1) (RF.GLB_RESET_CTL.addr 0) x.2.2).2

/-- Cells of the macros that drain become idle as they free: how many by now is a free value, never fewer than before (R295,
DESIGN CHOICE, log entry 251). -/
def Dev.drainMacros (d : Dev) : Dev :=
  d.each d.net.draining (fun d x =>
    let (y, d) := d.freeNat
    { d with net := { d.net with draining := d.net.draining.put x.1 (min 8192 (x.2 + y % (8193 - x.2))) } })

/-- Symbols that a lane's code corrects in a codeword (R231). -/
def Dev.fecCorrects (d : Dev) (l : Nat) : Nat := if (d.lane l).fecS then 7 else 15

/-- The codewords that the receivers have decoded are counted by Wing: symbols corrected, or a codeword that could not be.
The flits of one that could not be arrive as flits whose CRC-16 fails (R231, R232, R339). -/
def Dev.countCodewords (d : Dev) : Dev :=
  d.each (d.wings.filter (fun x => !x.2.codewords.isEmpty)) (fun d x => (d.each x.2.codewords (fun d y =>
    if y.2 ≤ d.fecCorrects y.1 then d.countWing x.1 C.FEC_SYM_CORR y.2 else d.countWing x.1 C.FEC_CW_UNCORR 1)).modWing x.1
      (fun w => { w with codewords := [] }))

/-- What the block does when no command waits (DESIGN CHOICE). -/
def Dev.idle (d : Dev) (mem : Mem) : Dev := (d.tick.drainMacros.countCodewords.judgeLasers.relayOne.spdmSend).resetNow mem

end Sys2Proof.Machine
end

