-- ==== Sys2Proof/Machine/Writers.lean ====
section
/-! DEFINITION. The writers of the tables in their order (R82): commands as they take effect, and the hardware writers,
which act between commands: learning and ageing, provisional exceptions, and the scrubber. -/

namespace Sys2Proof.Machine

/-- Storage keys of the entries that a command wrote: at its result's index, and at MOVE's source. -/
def wroteKeys (w : Word) (r : Nat × Option Nat × Dev) : List Nat :=
  let op := fldOf F.TBL_CMD_OP w
  let t := fldOf F.TBL_CMD_TABLE w
  if r.1 ≤ TR.REPLACED ∧ 2 ≤ op ∧ op ≤ 5 then
    (r.2.1.map (tblKey t)).toList ++ (if op = 5 then [tblKey t (fldOf F.TBL_CMD_INDEX w)] else [])
  else []

/-- The command was an INSERT, that took effect, of an entry with an exception's prefix and PROD field (R78, R82). -/
def Dev.planned (d : Dev) (w : Word) (res n : Nat) : Bool :=
  fldOf F.TBL_CMD_OP w == 3 && fldOf F.TBL_CMD_TABLE w == 0 && decide (res ≤ TR.REPLACED)
    && samePrefix d.staged (d.provEntry n 0)

/-- The key of a source address on a port stands at an entry that the command wrote. -/
def Dev.learnMet (d : Dev) (keys : List Nat) (l vid sa : Nat) : Bool :=
  match d.exFind (exKey (d.fld F.PRT_BORDER_PROD l) vid sa) with
  | some i => keys.contains (tblKey 1 i)
  | none => false

/-- A hardware write takes effect; `keep` names the entries it must leave alone. -/
def hwRun (keep : List Nat) (w : HwWrite) (x : Dev × Mem) : Dev × Mem :=
  match w with
  | .learn l vid sa => (learn l vid sa x).2
  | .age => (x.1.ageTick keep, x.2)
  | .flush p => (x.1.flushPort p keep, x.2)
  | .install n => (x.1.provInstall n, x.2)
  | .remove s => (x.1.provRemove s, x.2)
  | .scrub k => (if x.1.tab.parity.contains k then x.1.scrub k else x.1, x.2)

/-- A held write that would reach an entry the command wrote is dropped (R82). -/
def Dev.hwDropped (d : Dev) (before : Dev) (w : Word) (res : Nat) (keys : List Nat) (h : HwWrite) : Bool :=
  match h with
  | .learn l vid sa => before.learnMet keys l vid sa || d.learnMet keys l vid sa
  | .install n => d.planned w res n
  | .remove s => keys.contains (tblKey 0 s)
  | .scrub k => keys.contains k
  | _ => false

/-- A hardware write: between commands it acts, while one runs it is held back (R82). -/
def hwWrite (w : HwWrite) (x : Dev × Mem) : Dev × Mem := if x.1.tab.cmd.isSome then (x.1.holdBack w, x.2) else hwRun [] w x

/-- The running command takes effect and ends, and the writes held back act after it (R80 to R82). -/
def tblDone (w : Word) (x : Dev × Mem) : Dev × Mem :=
  let r := x.1.tblRun x.2 w
  let keys := wroteKeys w r
  let d := r.2.2.tblEnd r.1 r.2.1
  let hs := d.tab.waiting
  let y := (hs.filter (fun h => !d.hwDropped x.1 w r.1 keys h)).foldl (fun y h => hwRun keys h y)
    ({ d with tab := { d.tab with waiting := [] } }, x.2)
  (y.1.settle, y.2)

/-- TBL_CMD_DONE (R81, R82). -/
def execTblCmdDone (s : State) : Res :=
  onBoth s fun x => match x.1.tab.cmd with | none => x | some w => tblDone w x

/-- MAC_AGE_TICK (R96): one AGE_TIME has passed. -/
def execMacAgeTick (s : State) : Res := onBoth s (hwWrite .age)

/-- MAC_FLUSH (R96): a border port that is down, or has been since its entries were last flushed, loses them. -/
def execMacFlush (port : Nat) (s : State) : Res :=
  ifUnit (decide (port < s.d.nLanes)) <| onBoth s fun x =>
    if x.1.borderUp port ∧ !x.1.tab.flush.contains port then x else hwWrite (.flush port) x

/-- SCRUB_CYCLE (R90): every entry of every table is read, and the bad ones are repaired. -/
def execScrubCycle (s : State) : Res := onBoth s fun x => x.1.tab.parity.foldl (fun x k => hwWrite (.scrub k) x) x

/-- SCRUB_REPAIR (R90): an entry that a lookup found bad. -/
def execScrubRepair (table index : Nat) (s : State) : Res := onBoth s (hwWrite (.scrub (tblKey table index)))

/-- PROVISIONAL_INSTALL (R77, R78, R87). -/
def execProvisionalInstall (n : Nat) (s : State) : Res := onBoth s (hwWrite (.install n))

/-- PROVISIONAL_DELETE (R78). -/
def execProvisionalDelete (slot : Nat) (s : State) : Res := onBoth s (hwWrite (.remove slot))

end Sys2Proof.Machine
end

