-- ==== Sys2Proof/Machine/Dispatch.lean ====
section
/-! DEFINITION. One arm per command: the direct call of its meaning. -/

namespace Sys2Proof.Machine

/-- The effect of a command on everything but the queue. -/
def exec (i : Instr) (s : State) : Host.Outcome State Fault Refusal :=
  match i with
  | .cueNop loom engine => Sys2Proof.Machine.execCueNop loom engine s
  | .cueEnd loom engine => Sys2Proof.Machine.execCueEnd loom engine s
  | .cueBreak loom engine a => Sys2Proof.Machine.execCueBreak loom engine a s
  | .cueSwait loom engine => Sys2Proof.Machine.execCueSwait loom engine s
  | .cueRdtime loom engine d => Sys2Proof.Machine.execCueRdtime loom engine d s
  | .cueAdd loom engine d a b => Sys2Proof.Machine.execCueAdd loom engine d a b s
  | .cueSub loom engine d a b => Sys2Proof.Machine.execCueSub loom engine d a b s
  | .cueAnd loom engine d a b => Sys2Proof.Machine.execCueAnd loom engine d a b s
  | .cueOr loom engine d a b => Sys2Proof.Machine.execCueOr loom engine d a b s
  | .cueXor loom engine d a b => Sys2Proof.Machine.execCueXor loom engine d a b s
  | .cueSll loom engine d a b => Sys2Proof.Machine.execCueSll loom engine d a b s
  | .cueSrl loom engine d a b => Sys2Proof.Machine.execCueSrl loom engine d a b s
  | .cueSra loom engine d a b => Sys2Proof.Machine.execCueSra loom engine d a b s
  | .cueSlt loom engine d a b => Sys2Proof.Machine.execCueSlt loom engine d a b s
  | .cueSltu loom engine d a b => Sys2Proof.Machine.execCueSltu loom engine d a b s
  | .cueMul loom engine d a b => Sys2Proof.Machine.execCueMul loom engine d a b s
  | .cueMulhu loom engine d a b => Sys2Proof.Machine.execCueMulhu loom engine d a b s
  | .cueMin loom engine d a b => Sys2Proof.Machine.execCueMin loom engine d a b s
  | .cueMax loom engine d a b => Sys2Proof.Machine.execCueMax loom engine d a b s
  | .cueMinu loom engine d a b => Sys2Proof.Machine.execCueMinu loom engine d a b s
  | .cueMaxu loom engine d a b => Sys2Proof.Machine.execCueMaxu loom engine d a b s
  | .cueAddi loom engine d a imm => Sys2Proof.Machine.execCueAddi loom engine d a imm s
  | .cueAndi loom engine d a imm => Sys2Proof.Machine.execCueAndi loom engine d a imm s
  | .cueOri loom engine d a imm => Sys2Proof.Machine.execCueOri loom engine d a imm s
  | .cueXori loom engine d a imm => Sys2Proof.Machine.execCueXori loom engine d a imm s
  | .cueShi loom engine d a op amt => Sys2Proof.Machine.execCueShi loom engine d a op amt s
  | .cueCat loom engine d a imm => Sys2Proof.Machine.execCueCat loom engine d a imm s
  | .cueLd loom engine d a imm => Sys2Proof.Machine.execCueLd loom engine d a imm s
  | .cueSt loom engine d a imm => Sys2Proof.Machine.execCueSt loom engine d a imm s
  | .cueFset loom engine a imm => Sys2Proof.Machine.execCueFset loom engine a imm s
  | .cueFclr loom engine a imm => Sys2Proof.Machine.execCueFclr loom engine a imm s
  | .cueFtest loom engine d a imm => Sys2Proof.Machine.execCueFtest loom engine d a imm s
  | .cueWaitf loom engine a imm => Sys2Proof.Machine.execCueWaitf loom engine a imm s
  | .cueBeq loom engine a b off => Sys2Proof.Machine.execCueBeq loom engine a b off s
  | .cueBne loom engine a b off => Sys2Proof.Machine.execCueBne loom engine a b off s
  | .cueBlt loom engine a b off => Sys2Proof.Machine.execCueBlt loom engine a b off s
  | .cueBge loom engine a b off => Sys2Proof.Machine.execCueBge loom engine a b off s
  | .cueBltu loom engine a b off => Sys2Proof.Machine.execCueBltu loom engine a b off s
  | .cueBgeu loom engine a b off => Sys2Proof.Machine.execCueBgeu loom engine a b off s
  | .cueJal loom engine d off => Sys2Proof.Machine.execCueJal loom engine d off s
  | .cueJalr loom engine d a imm => Sys2Proof.Machine.execCueJalr loom engine d a imm s
  | .cueVadd loom engine vd va vb p w => Sys2Proof.Machine.execCueVadd loom engine vd va vb p w s
  | .cueVsub loom engine vd va vb p w => Sys2Proof.Machine.execCueVsub loom engine vd va vb p w s
  | .cueVand loom engine vd va vb p w => Sys2Proof.Machine.execCueVand loom engine vd va vb p w s
  | .cueVor loom engine vd va vb p w => Sys2Proof.Machine.execCueVor loom engine vd va vb p w s
  | .cueVxor loom engine vd va vb p w => Sys2Proof.Machine.execCueVxor loom engine vd va vb p w s
  | .cueVmin loom engine vd va vb p w => Sys2Proof.Machine.execCueVmin loom engine vd va vb p w s
  | .cueVmax loom engine vd va vb p w => Sys2Proof.Machine.execCueVmax loom engine vd va vb p w s
  | .cueVminu loom engine vd va vb p w => Sys2Proof.Machine.execCueVminu loom engine vd va vb p w s
  | .cueVmaxu loom engine vd va vb p w => Sys2Proof.Machine.execCueVmaxu loom engine vd va vb p w s
  | .cueVsel loom engine vd va vb p w => Sys2Proof.Machine.execCueVsel loom engine vd va vb p w s
  | .cueVceq loom engine vd va vb p w => Sys2Proof.Machine.execCueVceq loom engine vd va vb p w s
  | .cueVclt loom engine vd va vb p w => Sys2Proof.Machine.execCueVclt loom engine vd va vb p w s
  | .cueVcltu loom engine vd va vb p w => Sys2Proof.Machine.execCueVcltu loom engine vd va vb p w s
  | .cueVmov loom engine vd va p w => Sys2Proof.Machine.execCueVmov loom engine vd va p w s
  | .cuePand loom engine pd pa pb => Sys2Proof.Machine.execCuePand loom engine pd pa pb s
  | .cuePor loom engine pd pa pb => Sys2Proof.Machine.execCuePor loom engine pd pa pb s
  | .cuePnot loom engine pd pa => Sys2Proof.Machine.execCuePnot loom engine pd pa s
  | .cueVld loom engine vd a imm => Sys2Proof.Machine.execCueVld loom engine vd a imm s
  | .cueVst loom engine vd a imm => Sys2Proof.Machine.execCueVst loom engine vd a imm s
  | .cueVsplat loom engine vd a w => Sys2Proof.Machine.execCueVsplat loom engine vd a w s
  | .cueVext loom engine d va idx w => Sys2Proof.Machine.execCueVext loom engine d va idx w s
  | .cueAclr loom engine acc => Sys2Proof.Machine.execCueAclr loom engine acc s
  | .cueVacc loom engine acc a vb part p => Sys2Proof.Machine.execCueVacc loom engine acc a vb part p s
  | .cueAout loom engine vd acc b part => Sys2Proof.Machine.execCueAout loom engine vd acc b part s
  | .cueOpen loom engine ch sa => Sys2Proof.Machine.execCueOpen loom engine ch sa s
  | .cueTakeRed loom engine ch flag sb => Sys2Proof.Machine.execCueTakeRed loom engine ch flag sb s
  | .cueTake loom engine ch flag sb => Sys2Proof.Machine.execCueTake loom engine ch flag sb s
  | .cueReduceTile loom engine ch flag sa sb v => Sys2Proof.Machine.execCueReduceTile loom engine ch flag sa sb v s
  | .cueRoundTile loom engine ch flag sa sb v => Sys2Proof.Machine.execCueRoundTile loom engine ch flag sa sb v s
  | .cueGive loom engine ch flag sa sb => Sys2Proof.Machine.execCueGive loom engine ch flag sa sb s
  | .cueExchange loom engine ch flag out => Sys2Proof.Machine.execCueExchange loom engine ch flag out s
  | .cueSyncCollect loom engine ch flag => Sys2Proof.Machine.execCueSyncCollect loom engine ch flag s
  | .cueSyncArrive loom engine ch flag => Sys2Proof.Machine.execCueSyncArrive loom engine ch flag s
  | .cueSyncRelease loom engine ch flag => Sys2Proof.Machine.execCueSyncRelease loom engine ch flag s
  | .cueSyncAwait loom engine ch flag => Sys2Proof.Machine.execCueSyncAwait loom engine ch flag s
  | .cueRetire loom engine ch flag sa => Sys2Proof.Machine.execCueRetire loom engine ch flag sa s
  | .cueAbandon loom engine ch flag => Sys2Proof.Machine.execCueAbandon loom engine ch flag s
  | .cueBoltFetch loom engine flag sa sb => Sys2Proof.Machine.execCueBoltFetch loom engine flag sa sb s
  | .cueBoltStash loom engine flag sa sb => Sys2Proof.Machine.execCueBoltStash loom engine flag sa sb s
  | .cueSample loom engine => Sys2Proof.Machine.execCueSample loom engine s
  | .cueIllegal loom engine word => Sys2Proof.Machine.execCueIllegal loom engine word s
  | .nporAssert => Sys2Proof.Machine.execNporAssert s
  | .powerStart => Sys2Proof.Machine.execPowerStart s
  | .pwrOkFall => Sys2Proof.Machine.execPwrOkFall s
  | .vinBrownOut => Sys2Proof.Machine.execVinBrownOut s
  | .shutdownDone pwrOkBack => Sys2Proof.Machine.execShutdownDone pwrOkBack s
  | .vstbyLoss => Sys2Proof.Machine.execVstbyLoss s
  | .startRailsReady => Sys2Proof.Machine.execStartRailsReady s
  | .startStagePllsLocked => Sys2Proof.Machine.execStartStagePllsLocked s
  | .startPrompterStarted okA okB svnA svnB digA digB => Sys2Proof.Machine.execStartPrompterStarted okA okB svnA svnB digA digB s
  | .startSeamsUp => Sys2Proof.Machine.execStartSeamsUp s
  | .startMemoryReady => Sys2Proof.Machine.execStartMemoryReady s
  | .startHousePortsUp => Sys2Proof.Machine.execStartHousePortsUp s
  | .startFirmwareVerified wingOk loomOk libOk wing loom lib => Sys2Proof.Machine.execStartFirmwareVerified wingOk loomOk libOk wing loom lib s
  | .startLoomsLoaded => Sys2Proof.Machine.execStartLoomsLoaded s
  | .startDone elapsed => Sys2Proof.Machine.execStartDone elapsed s
  | .seamLinkTrained site siteId bundles => Sys2Proof.Machine.execSeamLinkTrained site siteId bundles s
  | .seamFlitArrival site flit => Sys2Proof.Machine.execSeamFlitArrival site flit s
  | .seamRepairTrigger site => Sys2Proof.Machine.execSeamRepairTrigger site s
  | .seamRepairDone site failed => Sys2Proof.Machine.execSeamRepairDone site failed s
  | .refLocked => Sys2Proof.Machine.execRefLocked s
  | .deviceRst m => Sys2Proof.Machine.execDeviceRst m s
  | .dieRst m data => Sys2Proof.Machine.execDieRst m data s
  | .dieHold m data => Sys2Proof.Machine.execDieHold m data s
  | .dieResetWidthEnd site => Sys2Proof.Machine.execDieResetWidthEnd site s
  | .dieRunning site => Sys2Proof.Machine.execDieRunning site s
  | .wingPllUnlock wing => Sys2Proof.Machine.execWingPllUnlock wing s
  | .loomPllUnlock loom => Sys2Proof.Machine.execLoomPllUnlock loom s
  | .stackPllUnlock stack => Sys2Proof.Machine.execStackPllUnlock stack s
  | .stackMirrorRebuilt stack => Sys2Proof.Machine.execStackMirrorRebuilt stack s
  | .tmuPllUnlock => Sys2Proof.Machine.execTmuPllUnlock s
  | .tmuPllRelock => Sys2Proof.Machine.execTmuPllRelock s
  | .refLoss => Sys2Proof.Machine.execRefLoss s
  | .refReturn => Sys2Proof.Machine.execRefReturn s
  | .refLossTimeout => Sys2Proof.Machine.execRefLossTimeout s
  | .headFlitArrival lane flit => Sys2Proof.Machine.execHeadFlitArrival lane flit s
  | .bodyFlitArrival lane flit => Sys2Proof.Machine.execBodyFlitArrival lane flit s
  | .idleFlitArrival lane flit => Sys2Proof.Machine.execIdleFlitArrival lane flit s
  | .transmitFlit lane => Sys2Proof.Machine.execTransmitFlit lane s
  | .memberSelectionRetry pid => Sys2Proof.Machine.execMemberSelectionRetry pid s
  | .holdLimitExpiry lane timed => Sys2Proof.Machine.execHoldLimitExpiry lane timed s
  | .originIdleExpiry src dst vl => Sys2Proof.Machine.execOriginIdleExpiry src dst vl s
  | .rsqLearnExpiry src dst vl pv => Sys2Proof.Machine.execRsqLearnExpiry src dst vl pv s
  | .rsqGapExpiry src dst vl pv => Sys2Proof.Machine.execRsqGapExpiry src dst vl pv s
  | .rsqIdleExpiry src dst vl pv => Sys2Proof.Machine.execRsqIdleExpiry src dst vl pv s
  | .bucketWheelExpiry port b => Sys2Proof.Machine.execBucketWheelExpiry port b s
  | .overflowSlotEmpty slot => Sys2Proof.Machine.execOverflowSlotEmpty slot s
  | .gateEdge port => Sys2Proof.Machine.execGateEdge port s
  | .roSwap m port data => Sys2Proof.Machine.execRoSwap m port data s
  | .roActivate port => Sys2Proof.Machine.execRoActivate port s
  | .roStop m port data => Sys2Proof.Machine.execRoStop m port data s
  | .roResume port => Sys2Proof.Machine.execRoResume port s
  | .qrateWrite m port q data => Sys2Proof.Machine.execQrateWrite m port q data s
  | .qownWrite m port q data => Sys2Proof.Machine.execQownWrite m port q data s
  | .grantedRecompute r => Sys2Proof.Machine.execGrantedRecompute r s
  | .launchFire port entry => Sys2Proof.Machine.execLaunchFire port entry s
  | .launchWindowExpiry port tc => Sys2Proof.Machine.execLaunchWindowExpiry port tc s
  | .launchHoldMaxExpiry port tc => Sys2Proof.Machine.execLaunchHoldMaxExpiry port tc s
  | .tblRead m table index => Sys2Proof.Machine.execTblRead m table index s
  | .tblWrite m table index => Sys2Proof.Machine.execTblWrite m table index s
  | .tblInsert m table => Sys2Proof.Machine.execTblInsert m table s
  | .tblDelete m table byKey index => Sys2Proof.Machine.execTblDelete m table byKey index s
  | .tblMove m table index index2 => Sys2Proof.Machine.execTblMove m table index index2 s
  | .tblSearch m table index => Sys2Proof.Machine.execTblSearch m table index s
  | .tblCmdDone => Sys2Proof.Machine.execTblCmdDone s
  | .tblTcamPartWrite m data => Sys2Proof.Machine.execTblTcamPartWrite m data s
  | .tblCompatWrite m data => Sys2Proof.Machine.execTblCompatWrite m data s
  | .tblDmaOpen m data => Sys2Proof.Machine.execTblDmaOpen m data s
  | .tblDmaCommit m data => Sys2Proof.Machine.execTblDmaCommit m data s
  | .tblDmaCommitDone => Sys2Proof.Machine.execTblDmaCommitDone s
  | .scrubCycle => Sys2Proof.Machine.execScrubCycle s
  | .scrubRepair table index => Sys2Proof.Machine.execScrubRepair table index s
  | .provisionalInstall n => Sys2Proof.Machine.execProvisionalInstall n s
  | .provisionalDelete slot => Sys2Proof.Machine.execProvisionalDelete slot s
  | .borderFrameArrival port frame => Sys2Proof.Machine.execBorderFrameArrival port frame s
  | .borderPfcArrival port frame => Sys2Proof.Machine.execBorderPfcArrival port frame s
  | .prtBorderWrite m port data => Sys2Proof.Machine.execPrtBorderWrite m port data s
  | .borderBlockLockChange lane locked => Sys2Proof.Machine.execBorderBlockLockChange lane locked s
  | .macAgeTick => Sys2Proof.Machine.execMacAgeTick s
  | .macFlush port => Sys2Proof.Machine.execMacFlush port s
  | .ethEncap pid => Sys2Proof.Machine.execEthEncap pid s
  | .wrdCollPoolWrite m data => Sys2Proof.Machine.execWrdCollPoolWrite m data s
  | .linkCtlWrite m port data => Sys2Proof.Machine.execLinkCtlWrite m port data s
  | .recall m port => Sys2Proof.Machine.execRecall m port s
  | .laneServiceExit lane => Sys2Proof.Machine.execLaneServiceExit lane s
  | .retrain m wing j data => Sys2Proof.Machine.execRetrain m wing j data s
  | .trainingDone lane => Sys2Proof.Machine.execTrainingDone lane s
  | .trainTimeout lane => Sys2Proof.Machine.execTrainTimeout lane s
  | .rollCallSend lane => Sys2Proof.Machine.execRollCallSend lane s
  | .rollCall lane => Sys2Proof.Machine.execRollCall lane s
  | .rollCallTimeout lane => Sys2Proof.Machine.execRollCallTimeout lane s
  | .absentTimeout lane => Sys2Proof.Machine.execAbsentTimeout lane s
  | .failedRetry lane => Sys2Proof.Machine.execFailedRetry lane s
  | .prtSeatWrite m port data => Sys2Proof.Machine.execPrtSeatWrite m port data s
  | .heartbeatSend lane => Sys2Proof.Machine.execHeartbeatSend lane s
  | .heartbeat lane => Sys2Proof.Machine.execHeartbeat lane s
  | .hbLapse lane => Sys2Proof.Machine.execHbLapse lane s
  | .losDetect lane => Sys2Proof.Machine.execLosDetect lane s
  | .lockLoss lane => Sys2Proof.Machine.execLockLoss lane s
  | .neighbourFailed lane => Sys2Proof.Machine.execNeighbourFailed lane s
  | .fenceLift m port => Sys2Proof.Machine.execFenceLift m port s
  | .fenceHold m port => Sys2Proof.Machine.execFenceHold m port s
  | .fmRegister m n data => Sys2Proof.Machine.execFmRegister m n data s
  | .fmLock m => Sys2Proof.Machine.execFmLock m s
  | .expel pid => Sys2Proof.Machine.execExpel pid s
  | .expelGatherExpiry => Sys2Proof.Machine.execExpelGatherExpiry s
  | .strike pid => Sys2Proof.Machine.execStrike pid s
  | .seal pid => Sys2Proof.Machine.execSeal pid s
  | .strikePurgeDone prod => Sys2Proof.Machine.execStrikePurgeDone prod s
  | .launch pid => Sys2Proof.Machine.execLaunch pid s
  | .launchReply pid => Sys2Proof.Machine.execLaunchReply pid s
  | .launchReplyDeadline prod => Sys2Proof.Machine.execLaunchReplyDeadline prod s
  | .notice pid => Sys2Proof.Machine.execNotice pid s
  | .regReq pid => Sys2Proof.Machine.execRegReq pid s
  | .regWrite m addr data => Sys2Proof.Machine.execRegWrite m addr data s
  | .readClear m addr => Sys2Proof.Machine.execReadClear m addr s
  | .bcastWrite m offset data => Sys2Proof.Machine.execBcastWrite m offset data s
  | .klinkRegFrame port f => Sys2Proof.Machine.execKlinkRegFrame port f s
  | .klinkDebugFrame port f => Sys2Proof.Machine.execKlinkDebugFrame port f s
  | .houseLock m => Sys2Proof.Machine.execHouseLock m s
  | .housePortLockChange port locked => Sys2Proof.Machine.execHousePortLockChange port locked s
  | .tblEnsWrite m n second data => Sys2Proof.Machine.execTblEnsWrite m n second data s
  | .contrib pid => Sys2Proof.Machine.execContrib pid s
  | .a2aRows pid => Sys2Proof.Machine.execA2aRows pid s
  | .arrive pid => Sys2Proof.Machine.execArrive pid s
  | .result pid => Sys2Proof.Machine.execResult pid s
  | .release pid => Sys2Proof.Machine.execRelease pid s
  | .collStallExpiry loom => Sys2Proof.Machine.execCollStallExpiry loom s
  | .memberDeadPoison ca => Sys2Proof.Machine.execMemberDeadPoison ca s
  | .streamOpDone loom engine idx => Sys2Proof.Machine.execStreamOpDone loom engine idx s
  | .engineFault loom engine => Sys2Proof.Machine.execEngineFault loom engine s
  | .engineRestart loom slot => Sys2Proof.Machine.execEngineRestart loom slot s
  | .f255Timeout loom engine => Sys2Proof.Machine.execF255Timeout loom engine s
  | .ldrLoad m loom data => Sys2Proof.Machine.execLdrLoad m loom data s
  | .ldrUnload m loom data => Sys2Proof.Machine.execLdrUnload m loom data s
  | .ldrActivate m loom data => Sys2Proof.Machine.execLdrActivate m loom data s
  | .ldrStop m loom data => Sys2Proof.Machine.execLdrStop m loom data s
  | .activateIncoming loom => Sys2Proof.Machine.execActivateIncoming loom s
  | .loaderCmdDone loom => Sys2Proof.Machine.execLoaderCmdDone loom s
  | .imageRestore loom => Sys2Proof.Machine.execImageRestore loom s
  | .boltRead pid => Sys2Proof.Machine.execBoltRead pid s
  | .boltReadConvert pid => Sys2Proof.Machine.execBoltReadConvert pid s
  | .boltWrite pid => Sys2Proof.Machine.execBoltWrite pid s
  | .writeFlag pid => Sys2Proof.Machine.execWriteFlag pid s
  | .atomic pid => Sys2Proof.Machine.execAtomic pid s
  | .reduceWrite pid => Sys2Proof.Machine.execReduceWrite pid s
  | .fence pid => Sys2Proof.Machine.execFence pid s
  | .swatchXfer pid => Sys2Proof.Machine.execSwatchXfer pid s
  | .responseAtIngress pid => Sys2Proof.Machine.execResponseAtIngress pid s
  | .flagHoldExpiry src dst pv => Sys2Proof.Machine.execFlagHoldExpiry src dst pv s
  | .moveLimitExpiry index => Sys2Proof.Machine.execMoveLimitExpiry index s
  | .deadLapseExpiry lane => Sys2Proof.Machine.execDeadLapseExpiry lane s
  | .deadTargetRefuse ca => Sys2Proof.Machine.execDeadTargetRefuse ca s
  | .deadTargetLedger ca => Sys2Proof.Machine.execDeadTargetLedger ca s
  | .teardown ca => Sys2Proof.Machine.execTeardown ca s
  | .lanePark lane => Sys2Proof.Machine.execLanePark lane s
  | .laserIdleOff wing laser => Sys2Proof.Machine.execLaserIdleOff wing laser s
  | .laserTapFail wing laser => Sys2Proof.Machine.execLaserTapFail wing laser s
  | .laserSwap m wing data => Sys2Proof.Machine.execLaserSwap m wing data s
  | .swapFade m wing data => Sys2Proof.Machine.execSwapFade m wing data s
  | .laserDrainCheck wing group => Sys2Proof.Machine.execLaserDrainCheck wing group s
  | .laserWavelengthReady wing group ok => Sys2Proof.Machine.execLaserWavelengthReady wing group ok s
  | .laserSwapComplete wing group => Sys2Proof.Machine.execLaserSwapComplete wing group s
  | .laserCrossfadeDone wing group => Sys2Proof.Machine.execLaserCrossfadeDone wing group s
  | .xtCommit m wing data => Sys2Proof.Machine.execXtCommit m wing data s
  | .xtalkApply wing => Sys2Proof.Machine.execXtalkApply wing s
  | .rxPowerRefresh wing j power near => Sys2Proof.Machine.execRxPowerRefresh wing j power near s
  | .heaterTelemetry wing heater err => Sys2Proof.Machine.execHeaterTelemetry wing heater err s
  | .heatFfLost wing => Sys2Proof.Machine.execHeatFfLost wing s
  | .heaterRange wing heater atMax => Sys2Proof.Machine.execHeaterRange wing heater atMax s
  | .trapCommit m wing data => Sys2Proof.Machine.execTrapCommit m wing data s
  | .trapSwitchDone wing => Sys2Proof.Machine.execTrapSwitchDone wing s
  | .trapDark wing input => Sys2Proof.Machine.execTrapDark wing input s
  | .trapLit wing input => Sys2Proof.Machine.execTrapLit wing input s
  | .tmuRateWrite m data => Sys2Proof.Machine.execTmuRateWrite m data s
  | .tmuOffsetStep m data => Sys2Proof.Machine.execTmuOffsetStep m data s
  | .tmuCtlWrite m data => Sys2Proof.Machine.execTmuCtlWrite m data s
  | .tmuNowRead m => Sys2Proof.Machine.execTmuNowRead m s
  | .servoHoldExpiry => Sys2Proof.Machine.execServoHoldExpiry s
  | .timePtp pid => Sys2Proof.Machine.execTimePtp pid s
  | .sramRowRepair site array row => Sys2Proof.Machine.execSramRowRepair site array row s
  | .wrdMacroWithdraw errors => Sys2Proof.Machine.execWrdMacroWithdraw errors s
  | .wrdMacroDrained macroNo => Sys2Proof.Machine.execWrdMacroDrained macroNo s
  | .glbRhsWrite m n data => Sys2Proof.Machine.execGlbRhsWrite m n data s
  | .rehearsalInject n => Sys2Proof.Machine.execRehearsalInject n s
  | .rhsEffect n => Sys2Proof.Machine.execRhsEffect n s
  | .rhsMuteEnd n => Sys2Proof.Machine.execRhsMuteEnd n s
  | .governorUpdate energy => Sys2Proof.Machine.execGovernorUpdate energy s
  | .governorAction => Sys2Proof.Machine.execGovernorAction s
  | .pwrCapUnmet => Sys2Proof.Machine.execPwrCapUnmet s
  | .pwrCapMinWrite m data => Sys2Proof.Machine.execPwrCapMinWrite m data s
  | .pwrCapInstWrite m data => Sys2Proof.Machine.execPwrCapInstWrite m data s
  | .replicaMeasure factor corrected => Sys2Proof.Machine.execReplicaMeasure factor corrected s
  | .minuteClose => Sys2Proof.Machine.execMinuteClose s
  | .thermalSample temps => Sys2Proof.Machine.execThermalSample temps s
  | .thermLimit => Sys2Proof.Machine.execThermLimit s
  | .secExtend m data => Sys2Proof.Machine.execSecExtend m data s
  | .svnCommit m data => Sys2Proof.Machine.execSvnCommit m data s
  | .dbgNonce m data => Sys2Proof.Machine.execDbgNonce m data s
  | .dbgSubmit m data => Sys2Proof.Machine.execDbgSubmit m data s
  | .dbgClose m data => Sys2Proof.Machine.execDbgClose m data s
  | .dbgNonceExpiry => Sys2Proof.Machine.execDbgNonceExpiry s
  | .dbgMinutesExpiry => Sys2Proof.Machine.execDbgMinutesExpiry s
  | .getVersion port f => Sys2Proof.Machine.execGetVersion port f s
  | .getCapabilities port f => Sys2Proof.Machine.execGetCapabilities port f s
  | .negotiateAlgorithms port f => Sys2Proof.Machine.execNegotiateAlgorithms port f s
  | .getDigests port f => Sys2Proof.Machine.execGetDigests port f s
  | .getCertificate port f => Sys2Proof.Machine.execGetCertificate port f s
  | .challenge port f => Sys2Proof.Machine.execChallenge port f s
  | .getMeasurements port f => Sys2Proof.Machine.execGetMeasurements port f s
  | .cntFreeze m data => Sys2Proof.Machine.execCntFreeze m data s
  | .cntThaw m data => Sys2Proof.Machine.execCntThaw m data s
  | .cntSnap m data => Sys2Proof.Machine.execCntSnap m data s
  | .cntCut => Sys2Proof.Machine.execCntCut s
  | .snapshotWrite => Sys2Proof.Machine.execSnapshotWrite s
  | .freezeAutoThaw => Sys2Proof.Machine.execFreezeAutoThaw s
  | .cntPeriodicSnap => Sys2Proof.Machine.execCntPeriodicSnap s
  | .cntValWrite m inst index data => Sys2Proof.Machine.execCntValWrite m inst index data s
  | .vstbyReturn => Sys2Proof.Machine.execVstbyReturn s
  | .laserWarmed wing laser => Sys2Proof.Machine.execLaserWarmed wing laser s
  | .heaterInRange wing heater => Sys2Proof.Machine.execHeaterInRange wing heater s
  | .klinkBad port f => Sys2Proof.Machine.execKlinkBad port f s
  | .unsupportedRequest port f => Sys2Proof.Machine.execUnsupportedRequest port f s
  | .sendStatus pid => Sys2Proof.Machine.execSendStatus pid s

end Sys2Proof.Machine
end

