-- ==== Sys2Proof/Safety.lean ====
section
/-! DEFINITION. What counts as a safe run, and the words in which the statements say what a command leaves alone. -/

namespace Sys2Proof.Machine

/-- Bolt memory is in its canonical form. -/
def State.memOk (s : State) : Prop := Memory.wf s.mem = true

/-- A command answers a next state of which `Q` holds. -/
def Completes (i : Instr) (s : State) (Q : State → Prop) : Prop := ∃ t, exec i s = .next t ∧ Q t

/-! ## The packet path -/

/-- A lane but for what it receives now. -/
def Lane.still (x : Lane) : Lane := { x with rxLow := none, rxHigh := none, dropLow := false, dropHigh := false, lowCtx := {}, highCtx := {} }

/-- What the packet path never touches, lanes apart. -/
def Dev.hard (d : Dev) : Dev :=
  { d with
    net := { d.net with lanes := [], pkts := [], outbox := [], bufs := [], nextId := 0, nextStamp := 0, lvs := [], ctxs := [],
                        flows := [], ledger := [], origins := [], deads := [], sprayPtr := [] }
    regs := [], relay := [], limits := [], cntPend := [], fresh := 0 }

/-- The register families that the packet path writes: counters, the notice log, and amounts in use. -/
def RF.busy (r : RF) : Bool :=
  match r with
  | .WRD_PROD => true | .WRD_RSQ_STAT => true | .MEM_LEDGER => true | .CNT_VAL => true
  | .GLB_NLOG_A => true | .GLB_NLOG_B => true | .GLB_NLOG_C => true | .GLB_NLOG_STAT => true
  | _ => false

/-- `d'` differs from `d` only in what the packet path may change. -/
structure Dev.Soft (d d' : Dev) : Prop where
  hard : d'.hard = d.hard
  lane : ∀ l, (d'.lane l).still = (d.lane l).still
  regs : ∀ r i, r.busy = false → d'.rd r i = d.rd r i


/-- Queue and Bolt memory stay, and the device changes only where the packet path may change it. -/
structure Quiet (s t : State) : Prop where
  pending : t.pending = s.pending
  mem : t.mem = s.mem
  soft : s.d.Soft t.d

/-- The outcome of a command as the model has it before what the device has made of its own is routed. -/
def made (i : Instr) (s : State) : Res :=
  match i, s with
  | .neighbourFailed lane, s => neighbourFailedMade lane s
  | .fenceHold m port, s => fenceHoldMade m port s
  | .strike pid, s => strikeMade pid s
  | .seal pid, s => sealMade pid s
  | .strikePurgeDone prod, s => strikePurgeDoneMade prod s
  | .launch pid, s => launchMade pid s
  | .launchReplyDeadline prod, s => launchReplyDeadlineMade prod s
  | .regReq pid, s => regReqMade pid s
  | .contrib pid, s => contribMade pid s
  | .a2aRows pid, s => a2aRowsMade pid s
  | .sendStatus pid, s => sendStatusMade pid s
  | .swatchXfer pid, s => swatchXferMade pid s
  | .moveLimitExpiry index, s => moveLimitExpiryMade index s
  | .fence pid, s => fenceMade pid s
  | .flagHoldExpiry src dst pv, s => flagHoldExpiryMade src dst pv s
  | .deadTargetRefuse ca, s => deadTargetRefuseMade ca s
  | .deadTargetLedger ca, s => deadTargetLedgerMade ca s
  | .timePtp pid, s => timePtpMade pid s
  | .boltRead pid, s => boltReadMade pid s
  | .boltReadConvert pid, s => boltReadConvertMade pid s
  | .boltWrite pid, s => boltWriteMade pid s
  | .writeFlag pid, s => writeFlagMade pid s
  | .atomic pid, s => atomicMade pid s
  | .reduceWrite pid, s => reduceWriteMade pid s
  | i, s => exec i s

/-- The step queues a packet of the device's own (it stands in the outbox of the state that `made` names) and then routes what
it has queued. -/
def Sends (i : Instr) (s : State) (p : Pkt) : Prop :=
  ∃ t, made i s = .next t ∧ exec i s = .next { t with d := t.d.settle } ∧ p ∈ t.d.net.outbox

/-! ## Registers -/

/-- Everything but register words, the notice relay, the outputs and the model's own counter. -/
def Dev.still (d : Dev) : Dev := { d with regs := [], relay := [], limits := [], cntPend := [], out := [], fresh := 0 }

/-- Queue, Bolt memory and everything but registers stay, and of the registers only those that `may` names change. -/
structure OnlyRegs (s t : State) (may : RF → Nat → Prop) : Prop where
  pending : t.pending = s.pending
  mem : t.mem = s.mem
  still : t.d.still = s.d.still
  regs : ∀ r i, ¬ may r i → t.d.rd r i = s.d.rd r i

/-- The families in which counters and the notice log stand. -/
def RF.logging (r : RF) : Bool :=
  match r with
  | .CNT_VAL => true
  | .GLB_NLOG_A => true | .GLB_NLOG_B => true | .GLB_NLOG_C => true | .GLB_NLOG_STAT => true
  | _ => false

/-- The step has raised a notice of the device's own with this type, source, production and data: it stands among those
added to the relay, stamped with the readout of T (R55, R333). -/
def Raises (s t : State) (ty src prod data : Nat) : Prop :=
  ∃ l, t.d.relay = s.d.relay ++ l ∧ ∃ x ∈ l, x.remote = none ∧ x.bits = noticeBits ty (N.severity ty) src prod data t.d.timeNs

end Sys2Proof.Machine
end

