-- ==== Sys2Proof/WellFormed.lean ====
section
/-! DEFINITION. Well-formed commands: every unit named is one the part has, and every field of a Cue instruction fits
its place in the word (R179). -/

namespace Sys2Proof

/-- A command that a device with so many optical lanes and Wings can meet. -/
def Instr.wf (lanes wings : Nat) (i : Instr) : Bool :=
  match i with
  | .cueNop loom engine => decide (loom < 4 ∧ engine < 68)
  | .cueEnd loom engine => decide (loom < 4 ∧ engine < 68)
  | .cueBreak loom engine a => decide (loom < 4 ∧ engine < 68 ∧ a < 64)
  | .cueSwait loom engine => decide (loom < 4 ∧ engine < 68)
  | .cueRdtime loom engine d => decide (loom < 4 ∧ engine < 68 ∧ d < 64)
  | .cueAdd loom engine d a b => decide (loom < 4 ∧ engine < 68 ∧ d < 64 ∧ a < 64 ∧ b < 64)
  | .cueSub loom engine d a b => decide (loom < 4 ∧ engine < 68 ∧ d < 64 ∧ a < 64 ∧ b < 64)
  | .cueAnd loom engine d a b => decide (loom < 4 ∧ engine < 68 ∧ d < 64 ∧ a < 64 ∧ b < 64)
  | .cueOr loom engine d a b => decide (loom < 4 ∧ engine < 68 ∧ d < 64 ∧ a < 64 ∧ b < 64)
  | .cueXor loom engine d a b => decide (loom < 4 ∧ engine < 68 ∧ d < 64 ∧ a < 64 ∧ b < 64)
  | .cueSll loom engine d a b => decide (loom < 4 ∧ engine < 68 ∧ d < 64 ∧ a < 64 ∧ b < 64)
  | .cueSrl loom engine d a b => decide (loom < 4 ∧ engine < 68 ∧ d < 64 ∧ a < 64 ∧ b < 64)
  | .cueSra loom engine d a b => decide (loom < 4 ∧ engine < 68 ∧ d < 64 ∧ a < 64 ∧ b < 64)
  | .cueSlt loom engine d a b => decide (loom < 4 ∧ engine < 68 ∧ d < 64 ∧ a < 64 ∧ b < 64)
  | .cueSltu loom engine d a b => decide (loom < 4 ∧ engine < 68 ∧ d < 64 ∧ a < 64 ∧ b < 64)
  | .cueMul loom engine d a b => decide (loom < 4 ∧ engine < 68 ∧ d < 64 ∧ a < 64 ∧ b < 64)
  | .cueMulhu loom engine d a b => decide (loom < 4 ∧ engine < 68 ∧ d < 64 ∧ a < 64 ∧ b < 64)
  | .cueMin loom engine d a b => decide (loom < 4 ∧ engine < 68 ∧ d < 64 ∧ a < 64 ∧ b < 64)
  | .cueMax loom engine d a b => decide (loom < 4 ∧ engine < 68 ∧ d < 64 ∧ a < 64 ∧ b < 64)
  | .cueMinu loom engine d a b => decide (loom < 4 ∧ engine < 68 ∧ d < 64 ∧ a < 64 ∧ b < 64)
  | .cueMaxu loom engine d a b => decide (loom < 4 ∧ engine < 68 ∧ d < 64 ∧ a < 64 ∧ b < 64)
  | .cueAddi loom engine d a imm => decide (loom < 4 ∧ engine < 68 ∧ d < 64 ∧ a < 64 ∧ imm < 16384)
  | .cueAndi loom engine d a imm => decide (loom < 4 ∧ engine < 68 ∧ d < 64 ∧ a < 64 ∧ imm < 16384)
  | .cueOri loom engine d a imm => decide (loom < 4 ∧ engine < 68 ∧ d < 64 ∧ a < 64 ∧ imm < 16384)
  | .cueXori loom engine d a imm => decide (loom < 4 ∧ engine < 68 ∧ d < 64 ∧ a < 64 ∧ imm < 16384)
  | .cueShi loom engine d a op amt => decide (loom < 4 ∧ engine < 68 ∧ d < 64 ∧ a < 64 ∧ op < 3 ∧ amt < 64)
  | .cueCat loom engine d a imm => decide (loom < 4 ∧ engine < 68 ∧ d < 64 ∧ a < 64 ∧ imm < 16384)
  | .cueLd loom engine d a imm => decide (loom < 4 ∧ engine < 68 ∧ d < 64 ∧ a < 64 ∧ imm < 16384)
  | .cueSt loom engine d a imm => decide (loom < 4 ∧ engine < 68 ∧ d < 64 ∧ a < 64 ∧ imm < 16384)
  | .cueFset loom engine a imm => decide (loom < 4 ∧ engine < 68 ∧ a < 64 ∧ imm < 256)
  | .cueFclr loom engine a imm => decide (loom < 4 ∧ engine < 68 ∧ a < 64 ∧ imm < 256)
  | .cueFtest loom engine d a imm => decide (loom < 4 ∧ engine < 68 ∧ d < 64 ∧ a < 64 ∧ imm < 256)
  | .cueWaitf loom engine a imm => decide (loom < 4 ∧ engine < 68 ∧ a < 64 ∧ imm < 256)
  | .cueBeq loom engine a b off => decide (loom < 4 ∧ engine < 68 ∧ a < 64 ∧ b < 64 ∧ off < 16384)
  | .cueBne loom engine a b off => decide (loom < 4 ∧ engine < 68 ∧ a < 64 ∧ b < 64 ∧ off < 16384)
  | .cueBlt loom engine a b off => decide (loom < 4 ∧ engine < 68 ∧ a < 64 ∧ b < 64 ∧ off < 16384)
  | .cueBge loom engine a b off => decide (loom < 4 ∧ engine < 68 ∧ a < 64 ∧ b < 64 ∧ off < 16384)
  | .cueBltu loom engine a b off => decide (loom < 4 ∧ engine < 68 ∧ a < 64 ∧ b < 64 ∧ off < 16384)
  | .cueBgeu loom engine a b off => decide (loom < 4 ∧ engine < 68 ∧ a < 64 ∧ b < 64 ∧ off < 16384)
  | .cueJal loom engine d off => decide (loom < 4 ∧ engine < 68 ∧ d < 64 ∧ off < 1048576)
  | .cueJalr loom engine d a imm => decide (loom < 4 ∧ engine < 68 ∧ d < 64 ∧ a < 64 ∧ imm < 16384)
  | .cueVadd loom engine vd va vb p w => decide (loom < 4 ∧ engine < 68 ∧ vd < 32 ∧ va < 32 ∧ vb < 32 ∧ p < 8 ∧ w < 4)
  | .cueVsub loom engine vd va vb p w => decide (loom < 4 ∧ engine < 68 ∧ vd < 32 ∧ va < 32 ∧ vb < 32 ∧ p < 8 ∧ w < 4)
  | .cueVand loom engine vd va vb p w => decide (loom < 4 ∧ engine < 68 ∧ vd < 32 ∧ va < 32 ∧ vb < 32 ∧ p < 8 ∧ w < 4)
  | .cueVor loom engine vd va vb p w => decide (loom < 4 ∧ engine < 68 ∧ vd < 32 ∧ va < 32 ∧ vb < 32 ∧ p < 8 ∧ w < 4)
  | .cueVxor loom engine vd va vb p w => decide (loom < 4 ∧ engine < 68 ∧ vd < 32 ∧ va < 32 ∧ vb < 32 ∧ p < 8 ∧ w < 4)
  | .cueVmin loom engine vd va vb p w => decide (loom < 4 ∧ engine < 68 ∧ vd < 32 ∧ va < 32 ∧ vb < 32 ∧ p < 8 ∧ w < 4)
  | .cueVmax loom engine vd va vb p w => decide (loom < 4 ∧ engine < 68 ∧ vd < 32 ∧ va < 32 ∧ vb < 32 ∧ p < 8 ∧ w < 4)
  | .cueVminu loom engine vd va vb p w => decide (loom < 4 ∧ engine < 68 ∧ vd < 32 ∧ va < 32 ∧ vb < 32 ∧ p < 8 ∧ w < 4)
  | .cueVmaxu loom engine vd va vb p w => decide (loom < 4 ∧ engine < 68 ∧ vd < 32 ∧ va < 32 ∧ vb < 32 ∧ p < 8 ∧ w < 4)
  | .cueVsel loom engine vd va vb p w => decide (loom < 4 ∧ engine < 68 ∧ vd < 32 ∧ va < 32 ∧ vb < 32 ∧ p < 8 ∧ w < 4)
  | .cueVceq loom engine vd va vb p w => decide (loom < 4 ∧ engine < 68 ∧ vd < 8 ∧ va < 32 ∧ vb < 32 ∧ p < 8 ∧ w < 4)
  | .cueVclt loom engine vd va vb p w => decide (loom < 4 ∧ engine < 68 ∧ vd < 8 ∧ va < 32 ∧ vb < 32 ∧ p < 8 ∧ w < 4)
  | .cueVcltu loom engine vd va vb p w => decide (loom < 4 ∧ engine < 68 ∧ vd < 8 ∧ va < 32 ∧ vb < 32 ∧ p < 8 ∧ w < 4)
  | .cueVmov loom engine vd va p w => decide (loom < 4 ∧ engine < 68 ∧ vd < 32 ∧ va < 32 ∧ p < 8 ∧ w < 4)
  | .cuePand loom engine pd pa pb => decide (loom < 4 ∧ engine < 68 ∧ pd < 8 ∧ pa < 8 ∧ pb < 8)
  | .cuePor loom engine pd pa pb => decide (loom < 4 ∧ engine < 68 ∧ pd < 8 ∧ pa < 8 ∧ pb < 8)
  | .cuePnot loom engine pd pa => decide (loom < 4 ∧ engine < 68 ∧ pd < 8 ∧ pa < 8)
  | .cueVld loom engine vd a imm => decide (loom < 4 ∧ engine < 68 ∧ vd < 32 ∧ a < 64 ∧ imm < 16384)
  | .cueVst loom engine vd a imm => decide (loom < 4 ∧ engine < 68 ∧ vd < 32 ∧ a < 64 ∧ imm < 16384)
  | .cueVsplat loom engine vd a w => decide (loom < 4 ∧ engine < 68 ∧ vd < 32 ∧ a < 64 ∧ w < 4)
  | .cueVext loom engine d va idx w => decide (loom < 4 ∧ engine < 68 ∧ d < 64 ∧ va < 32 ∧ idx < 64 ∧ w < 4)
  | .cueAclr loom engine acc => decide (loom < 4 ∧ engine < 68 ∧ acc < 16)
  | .cueVacc loom engine acc a vb part p => decide (loom < 4 ∧ engine < 68 ∧ acc < 16 ∧ a < 64 ∧ vb < 32 ∧ part < 4 ∧ p < 8)
  | .cueAout loom engine vd acc b part => decide (loom < 4 ∧ engine < 68 ∧ vd < 32 ∧ acc < 16 ∧ b < 64 ∧ part < 4)
  | .cueOpen loom engine ch sa => decide (loom < 4 ∧ engine < 68 ∧ ch < 16 ∧ sa < 64)
  | .cueTakeRed loom engine ch flag sb => decide (loom < 4 ∧ engine < 68 ∧ ch < 16 ∧ flag < 256 ∧ sb < 64)
  | .cueTake loom engine ch flag sb => decide (loom < 4 ∧ engine < 68 ∧ ch < 16 ∧ flag < 256 ∧ sb < 64)
  | .cueReduceTile loom engine ch flag sa sb v => decide (loom < 4 ∧ engine < 68 ∧ ch < 16 ∧ flag < 256 ∧ sa < 64 ∧ sb < 64 ∧ v < 2)
  | .cueRoundTile loom engine ch flag sa sb v => decide (loom < 4 ∧ engine < 68 ∧ ch < 16 ∧ flag < 256 ∧ sa < 64 ∧ sb < 64 ∧ v < 2)
  | .cueGive loom engine ch flag sa sb => decide (loom < 4 ∧ engine < 68 ∧ ch < 16 ∧ flag < 256 ∧ sa < 64 ∧ sb < 64)
  | .cueExchange loom engine ch flag out => decide (loom < 4 ∧ engine < 68 ∧ ch < 16 ∧ flag < 256 ∧ out < 16)
  | .cueSyncCollect loom engine ch flag => decide (loom < 4 ∧ engine < 68 ∧ ch < 16 ∧ flag < 256)
  | .cueSyncArrive loom engine ch flag => decide (loom < 4 ∧ engine < 68 ∧ ch < 16 ∧ flag < 256)
  | .cueSyncRelease loom engine ch flag => decide (loom < 4 ∧ engine < 68 ∧ ch < 16 ∧ flag < 256)
  | .cueSyncAwait loom engine ch flag => decide (loom < 4 ∧ engine < 68 ∧ ch < 16 ∧ flag < 256)
  | .cueRetire loom engine ch flag sa => decide (loom < 4 ∧ engine < 68 ∧ ch < 16 ∧ flag < 256 ∧ sa < 64)
  | .cueAbandon loom engine ch flag => decide (loom < 4 ∧ engine < 68 ∧ ch < 16 ∧ flag < 256)
  | .cueBoltFetch loom engine flag sa sb => decide (loom < 4 ∧ engine < 68 ∧ flag < 256 ∧ sa < 64 ∧ sb < 64)
  | .cueBoltStash loom engine flag sa sb => decide (loom < 4 ∧ engine < 68 ∧ flag < 256 ∧ sa < 64 ∧ sb < 64)
  | .cueSample loom engine => decide (loom < 4 ∧ engine < 68)
  | .cueIllegal loom engine word => decide (loom < 4 ∧ engine < 68 ∧ word < 4294967296)
  | .nporAssert => true
  | .powerStart => true
  | .pwrOkFall => true
  | .vinBrownOut => true
  | .shutdownDone _ => true
  | .vstbyLoss => true
  | .startRailsReady => true
  | .startStagePllsLocked => true
  | .startPrompterStarted _ _ _ _ _ _ => true
  | .startSeamsUp => true
  | .startMemoryReady => true
  | .startHousePortsUp => true
  | .startFirmwareVerified _ _ _ _ _ _ => true
  | .startLoomsLoaded => true
  | .startDone _ => true
  | .seamLinkTrained site _ _ => decide (1 ≤ site ∧ site < 21)
  | .seamFlitArrival site _ => decide (1 ≤ site ∧ site < 21)
  | .seamRepairTrigger site => decide (1 ≤ site ∧ site < 21)
  | .seamRepairDone site _ => decide (1 ≤ site ∧ site < 21)
  | .refLocked => true
  | .deviceRst _ => true
  | .dieRst _ _ => true
  | .dieHold _ _ => true
  | .dieResetWidthEnd site => decide (1 ≤ site ∧ site < 25)
  | .dieRunning site => decide (1 ≤ site ∧ site < 25)
  | .wingPllUnlock wing => decide (wing < wings)
  | .loomPllUnlock loom => decide (loom < 4)
  | .stackPllUnlock stack => decide (stack < 4)
  | .stackMirrorRebuilt stack => decide (stack < 4)
  | .tmuPllUnlock => true
  | .tmuPllRelock => true
  | .refLoss => true
  | .refReturn => true
  | .refLossTimeout => true
  | .headFlitArrival lane _ => decide (lane < lanes)
  | .bodyFlitArrival lane _ => decide (lane < lanes)
  | .idleFlitArrival lane _ => decide (lane < lanes)
  | .transmitFlit lane => decide (lane < lanes)
  | .memberSelectionRetry _ => true
  | .holdLimitExpiry lane _ => decide (lane < lanes)
  | .originIdleExpiry _ _ _ => true
  | .rsqLearnExpiry _ _ _ _ => true
  | .rsqGapExpiry _ _ _ _ => true
  | .rsqIdleExpiry _ _ _ _ => true
  | .bucketWheelExpiry port _ => decide (port < lanes)
  | .overflowSlotEmpty _ => true
  | .gateEdge port => decide (port < lanes)
  | .roSwap _ port _ => decide (port < 1024)
  | .roActivate port => decide (port < lanes)
  | .roStop _ port _ => decide (port < 1024)
  | .roResume port => decide (port < lanes)
  | .qrateWrite _ port q _ => decide (port < 1024 ∧ q < 64)
  | .qownWrite _ port q _ => decide (port < 1024 ∧ q < 64)
  | .grantedRecompute (.port lane) => decide (lane < lanes)
  | .grantedRecompute (.loom k) => decide (k < 4)
  | .launchFire port entry => decide (port < lanes ∧ entry < 64)
  | .launchWindowExpiry port tc => decide (port < lanes ∧ tc < 8)
  | .launchHoldMaxExpiry port tc => decide (port < lanes ∧ tc < 8)
  | .tblRead _ _ _ => true
  | .tblWrite _ _ _ => true
  | .tblInsert _ _ => true
  | .tblDelete _ _ _ _ => true
  | .tblMove _ _ _ _ => true
  | .tblSearch _ _ _ => true
  | .tblCmdDone => true
  | .tblTcamPartWrite _ _ => true
  | .tblCompatWrite _ _ => true
  | .tblDmaOpen _ _ => true
  | .tblDmaCommit _ _ => true
  | .tblDmaCommitDone => true
  | .scrubCycle => true
  | .scrubRepair _ _ => true
  | .provisionalInstall _ => true
  | .provisionalDelete _ => true
  | .borderFrameArrival port _ => decide (port < lanes)
  | .borderPfcArrival port _ => decide (port < lanes)
  | .prtBorderWrite _ port _ => decide (port < 1024)
  | .borderBlockLockChange lane _ => decide (lane < lanes)
  | .macAgeTick => true
  | .macFlush port => decide (port < lanes)
  | .ethEncap _ => true
  | .wrdCollPoolWrite _ _ => true
  | .linkCtlWrite _ port _ => decide (port < 1024)
  | .recall _ port => decide (port < 1024)
  | .laneServiceExit lane => decide (lane < lanes)
  | .retrain _ wing j _ => decide (wing < 16 ∧ j < 65)
  | .trainingDone lane => decide (lane < lanes)
  | .trainTimeout lane => decide (lane < lanes)
  | .rollCallSend lane => decide (lane < lanes)
  | .rollCall lane => decide (lane < lanes)
  | .rollCallTimeout lane => decide (lane < lanes)
  | .absentTimeout lane => decide (lane < lanes)
  | .failedRetry lane => decide (lane < lanes)
  | .prtSeatWrite _ port _ => decide (port < 1024)
  | .heartbeatSend lane => decide (lane < lanes)
  | .heartbeat lane => decide (lane < lanes)
  | .hbLapse lane => decide (lane < lanes)
  | .losDetect lane => decide (lane < lanes)
  | .lockLoss lane => decide (lane < lanes)
  | .neighbourFailed lane => decide (lane < lanes)
  | .fenceLift _ port => decide (port < 1024)
  | .fenceHold _ port => decide (port < 1024)
  | .fmRegister _ n _ => decide (n < 5)
  | .fmLock _ => true
  | .expel _ => true
  | .expelGatherExpiry => true
  | .strike _ => true
  | .seal _ => true
  | .strikePurgeDone _ => true
  | .launch _ => true
  | .launchReply _ => true
  | .launchReplyDeadline _ => true
  | .notice _ => true
  | .regReq _ => true
  | .regWrite _ _ _ => true
  | .readClear _ _ => true
  | .bcastWrite _ _ _ => true
  | .klinkRegFrame port _ => decide (port < 2)
  | .klinkDebugFrame port _ => decide (port < 2)
  | .houseLock _ => true
  | .housePortLockChange port _ => decide (port < 2)
  | .tblEnsWrite _ n _ _ => decide (n < 64)
  | .contrib _ => true
  | .a2aRows _ => true
  | .arrive _ => true
  | .result _ => true
  | .release _ => true
  | .collStallExpiry loom => decide (loom < 4)
  | .memberDeadPoison _ => true
  | .streamOpDone loom engine _ => decide (loom < 4 ∧ engine < 68)
  | .engineFault loom engine => decide (loom < 4 ∧ engine < 68)
  | .engineRestart loom slot => decide (loom < 4 ∧ slot < 256)
  | .f255Timeout loom engine => decide (loom < 4 ∧ engine < 68)
  | .ldrLoad _ loom _ => decide (loom < 4)
  | .ldrUnload _ loom _ => decide (loom < 4)
  | .ldrActivate _ loom _ => decide (loom < 4)
  | .ldrStop _ loom _ => decide (loom < 4)
  | .activateIncoming loom => decide (loom < 4)
  | .loaderCmdDone loom => decide (loom < 4)
  | .imageRestore loom => decide (loom < 4)
  | .boltRead _ => true
  | .boltReadConvert _ => true
  | .boltWrite _ => true
  | .writeFlag _ => true
  | .atomic _ => true
  | .reduceWrite _ => true
  | .fence _ => true
  | .swatchXfer _ => true
  | .responseAtIngress _ => true
  | .flagHoldExpiry _ _ _ => true
  | .moveLimitExpiry _ => true
  | .deadLapseExpiry lane => decide (lane < lanes)
  | .deadTargetRefuse _ => true
  | .deadTargetLedger _ => true
  | .teardown _ => true
  | .lanePark lane => decide (lane < lanes)
  | .laserIdleOff wing laser => decide (wing < wings ∧ laser < 10)
  | .laserTapFail wing laser => decide (wing < wings ∧ laser < 11)
  | .laserSwap _ wing _ => decide (wing < 16)
  | .swapFade _ wing _ => decide (wing < 16)
  | .laserDrainCheck wing group => decide (wing < wings ∧ group < 8)
  | .laserWavelengthReady wing group _ => decide (wing < wings ∧ group < 8)
  | .laserSwapComplete wing group => decide (wing < wings ∧ group < 8)
  | .laserCrossfadeDone wing group => decide (wing < wings ∧ group < 8)
  | .xtCommit _ wing _ => decide (wing < 16)
  | .xtalkApply wing => decide (wing < wings)
  | .rxPowerRefresh wing j _ _ => decide (wing < wings ∧ j < 65)
  | .heaterTelemetry wing heater _ => decide (wing < wings ∧ heater < 64)
  | .heatFfLost wing => decide (wing < wings)
  | .heaterRange wing heater _ => decide (wing < wings ∧ heater < 128)
  | .trapCommit _ wing _ => decide (wing < 16)
  | .trapSwitchDone wing => decide (wing < wings)
  | .trapDark wing input => decide (wing < wings ∧ input < 16)
  | .trapLit wing input => decide (wing < wings ∧ input < 16)
  | .tmuRateWrite _ _ => true
  | .tmuOffsetStep _ _ => true
  | .tmuCtlWrite _ _ => true
  | .tmuNowRead _ => true
  | .servoHoldExpiry => true
  | .timePtp _ => true
  | .sramRowRepair site _ row => decide ((site = 0 ∨ (17 ≤ site ∧ site ≤ 20)) ∧ row < 1024)
  | .wrdMacroWithdraw errors => decide (errors.number < 256)
  | .wrdMacroDrained macroNo => decide (macroNo < 256)
  | .glbRhsWrite _ n _ => decide (n < 16)
  | .rehearsalInject n => decide (n < 16)
  | .rhsEffect n => decide (n < 16)
  | .rhsMuteEnd n => decide (n < 16)
  | .governorUpdate _ => true
  | .governorAction => true
  | .pwrCapUnmet => true
  | .pwrCapMinWrite _ _ => true
  | .pwrCapInstWrite _ _ => true
  | .replicaMeasure factor _ => decide (factor.looms.length ≤ 4)
  | .minuteClose => true
  | .thermalSample _ => true
  | .thermLimit => true
  | .secExtend _ _ => true
  | .svnCommit _ _ => true
  | .dbgNonce _ _ => true
  | .dbgSubmit _ _ => true
  | .dbgClose _ _ => true
  | .dbgNonceExpiry => true
  | .dbgMinutesExpiry => true
  | .getVersion port _ => decide (port < 2)
  | .getCapabilities port _ => decide (port < 2)
  | .negotiateAlgorithms port _ => decide (port < 2)
  | .getDigests port _ => decide (port < 2)
  | .getCertificate port _ => decide (port < 2)
  | .challenge port _ => decide (port < 2)
  | .getMeasurements port _ => decide (port < 2)
  | .cntFreeze _ _ => true
  | .cntThaw _ _ => true
  | .cntSnap _ _ => true
  | .cntCut => true
  | .snapshotWrite => true
  | .freezeAutoThaw => true
  | .cntPeriodicSnap => true
  | .cntValWrite _ inst index _ => decide (inst < 1064 ∧ index < 64)
  | .vstbyReturn => true
  | .laserWarmed wing laser => decide (wing < wings ∧ laser < 10)
  | .heaterInRange wing heater => decide (wing < wings ∧ heater < 128)
  | .klinkBad port _ => decide (port < 2)
  | .unsupportedRequest port _ => decide (port < 2)
  | .sendStatus _ => true

end Sys2Proof
end

