-- ==== Sys2Proof/Certificates/Slice0/Obligations.lean ====
section
/-! DEFINITION. The statements for the provers, with the words they are made of. -/

namespace Sys2Proof.Claims

open Sys2Proof.Machine

/-! ## The machine as a whole -/

/-- A command about units that the part has. -/
def Known (s : State) (i : Instr) : Prop := Instr.wf s.d.nLanes s.d.nWings i = true

end Sys2Proof.Claims

/-- A step takes the command at the front of the queue and runs it with the rest of the queue.
The model's choices: log entry 8. -/
def Obligations.StepRunsFront : Prop :=
  ∀ (s : Sys2Proof.Machine.State) (c : Sys2Proof.Instr) (rest : List Sys2Proof.Instr), s.pending = c :: rest →
    Sys2Proof.Machine.step s = Sys2Proof.Machine.exec c { s with pending := rest }

/-- On an empty queue a step answers a next state with the queue empty and Bolt memory unchanged (the model's choice: assumption 1). -/
def Obligations.IdleStep : Prop :=
  ∀ s : Sys2Proof.Machine.State, s.pending = [] →
    ∃ t, Sys2Proof.Machine.step s = .next t ∧ t.pending = [] ∧ t.mem = s.mem

/-- Every command about units that the part has completes.
The model's choices: log entries 6, 7. -/
def Obligations.KnownCommandCompletes : Prop :=
  ∀ (s : Sys2Proof.Machine.State) (c : Sys2Proof.Instr), Sys2Proof.Claims.Known s c →
    ∃ t, Sys2Proof.Machine.exec c s = .next t

/-- A command leaves the queue of waiting commands alone.
The model's choices: log entry 8. -/
def Obligations.QueueUntouched : Prop :=
  ∀ (s t : Sys2Proof.Machine.State) (c : Sys2Proof.Instr), Sys2Proof.Machine.exec c s = .next t → t.pending = s.pending

/-- Bolt memory keeps its canonical form over every step.
The model's choices: log entry 14. -/
def Obligations.MemoryStaysCanonical : Prop :=
  ∀ s t : Sys2Proof.Machine.State, s.memOk → Sys2Proof.Machine.step s = .next t → t.memOk

/-- Bolt memory has its canonical form at reset.
The model's choices: log entries 9, 14. -/
def Obligations.ResetMemoryCanonical : Prop := Sys2Proof.Machine.State.reset.memOk

namespace Sys2Proof.Claims

open Sys2Proof.Machine

/-! ## Cue instructions -/

/-- A Cue instruction: a command that the encoding tables of R179 to R186 spell. -/
def isCue (i : Instr) : Bool := (cueEncode i).isSome && (match i with | .cueIllegal _ _ _ => false | _ => true)

/-- Engine `e` of Loom `k` stands before an instruction: its Loom's die is RUNNING, it is RUNNING or WAITING and debug has
not halted it, PC is inside its image's code, and the word there decodes to the instruction. -/
structure CueAt (k e : Nat) (i : Instr) (im : Image) (s : State) : Prop where
  loom : k < 4
  engine : e < 68
  running : s.d.site (17 + k) = 1
  live : (s.d.engine k e).st = 1 ∨ (s.d.engine k e).st = 2
  free : (s.d.loom k).halted.find e = none
  image : (s.d.loom k).images.find (s.d.engine k e).image = some im
  inside : (s.d.engine k e).pc < im.codeWords
  word : cueDecode k e (im.word (s.d.engine k e).pc) = i

/-- Nothing but one engine changes (the model's own counter of free values apart). -/
structure EngineOnly (k e : Nat) (s t : State) : Prop where
  pending : t.pending = s.pending
  mem : t.mem = s.mem
  rest : { t.d with looms := [], fresh := 0 } = { s.d with looms := [], fresh := 0 }
  looms : ∀ j, j ≠ k → t.d.loom j = s.d.loom j
  loom : { t.d.loom k with engines := [] } = { s.d.loom k with engines := [] }
  engines : ∀ f, f ≠ e → t.d.engine k f = s.d.engine k f

/-- An instruction has been issued and the next one is at `pc`; everything but the files named stays. -/
structure Issued (y y' : Engine) (pc : Nat) : Prop where
  pc : y'.pc = pc
  issued : y'.issued = y.issued + 1
  st : y'.st = 1

/-- The instruction completes, only its engine changes, and the engine goes on at `pc` as `Q` says. -/
def Runs (k e : Nat) (i : Instr) (s : State) (pc : Nat) (Q : Engine → Engine → Prop) : Prop :=
  Completes i s (fun t => EngineOnly k e s t ∧ Issued (s.d.engine k e) (t.d.engine k e) pc ∧ Q (s.d.engine k e) (t.d.engine k e))

/-- S[d] becomes `v`; a write to S0 is discarded; nothing else changes. -/
def writesS (d : Nat) (v : Engine → Word) (y y' : Engine) : Prop :=
  { y' with sreg := [], pc := 0, issued := 0, st := 0 } = { y with sreg := [], pc := 0, issued := 0, st := 0 }
  ∧ ∀ r, y'.s r = if r = d ∧ d ≠ 0 then v y else y.s r

/-- V[d] becomes `v`; nothing else changes. -/
def writesV (d : Nat) (v : BitVec 512 → Prop) (y y' : Engine) : Prop :=
  { y' with vreg := [], pc := 0, issued := 0, st := 0 } = { y with vreg := [], pc := 0, issued := 0, st := 0 }
  ∧ (∀ r, r ≠ d → y'.v r = y.v r) ∧ v (y'.v d)

/-- P[d] becomes `v`; a write to P0 is discarded; nothing else changes. -/
def writesP (d : Nat) (v : Engine → Nat → Bool) (y y' : Engine) : Prop :=
  { y' with preds := [], pc := 0, issued := 0, st := 0 } = { y with preds := [], pc := 0, issued := 0, st := 0 }
  ∧ (∀ r, (r ≠ d ∨ d = 0) → y'.p r = y.p r) ∧ (d ≠ 0 → ∀ i, i < 64 → (y'.p d).getLsbD i = v y i)

/-- One instruction of three registers: S[d] = f(S[a], S[b]). -/
def threeReg (mk : Nat → Nat → Nat → Nat → Nat → Instr) (f : Word → Word → Word) : Prop :=
  ∀ (s : State) (k e d a b : Nat) (im : Image), CueAt k e (mk k e d a b) im s →
    Runs k e (mk k e d a b) s (((s.d.engine k e).pc + 1) % 2 ^ 16) (writesS d (fun y => f (y.s a) (y.s b)))

/-- One instruction of two registers and an immediate of 14 bits: S[d] = f(S[a], imm). -/
def twoRegImm (mk : Nat → Nat → Nat → Nat → Nat → Instr) (f : Word → Nat → Word) : Prop :=
  ∀ (s : State) (k e d a imm : Nat) (im : Image), CueAt k e (mk k e d a imm) im s →
    Runs k e (mk k e d a imm) s (((s.d.engine k e).pc + 1) % 2 ^ 16) (writesS d (fun y => f (y.s a) imm))

/-- A signed immediate of `n` bits. -/
def signedImm (n v : Nat) : Int := if v < 2 ^ (n - 1) then (v : Int) else (v : Int) - 2 ^ n

/-- A branch: taken to its own address plus the signed offset where S[a] and S[b] compare as named, else past it; no
register changes. -/
def branch (mk : Nat → Nat → Nat → Nat → Nat → Instr) (c : Word → Word → Prop) : Prop :=
  ∀ (s : State) (k e a b off : Nat) (im : Image), CueAt k e (mk k e a b off) im s →
    (c ((s.d.engine k e).s a) ((s.d.engine k e).s b) →
      Runs k e (mk k e a b off) s ((((s.d.engine k e).pc : Int) + signedImm 14 off) % 2 ^ 16).toNat (writesS 0 (fun _ => 0)))
    ∧ (¬ c ((s.d.engine k e).s a) ((s.d.engine k e).s b) →
      Runs k e (mk k e a b off) s (((s.d.engine k e).pc + 1) % 2 ^ 16) (writesS 0 (fun _ => 0)))

/-- An engine changes as `Q` says without issuing: it stays at the instruction. -/
def Stays (k e : Nat) (i : Instr) (s : State) (st : Nat) : Prop :=
  Completes i s (fun t => EngineOnly k e s t ∧ t.d.engine k e = { s.d.engine k e with st := st })

/-- The data memory address of LD and ST. -/
def dataAddr (y : Engine) (a imm : Nat) : Word := y.s a + BitVec.ofInt 64 (signedImm 14 imm)
/-- Inside 64 KiB and 8-aligned. -/
def dataFits (a : Word) : Prop := a.toNat + 8 ≤ 65536 ∧ a.toNat % 8 = 0
/-- Byte `j` of a 64-bit word, the most significant first. -/
def wordByte (w : Word) (j : Nat) : Byte := w.extractLsb' (56 - 8 * j) 8

/-- Flag `n` becomes `b`; nothing else changes. -/
def writesFlag (n : Nat) (b : Bool) (y y' : Engine) : Prop :=
  { y' with flags := 0, pc := 0, issued := 0, st := 0 } = { y with flags := 0, pc := 0, issued := 0, st := 0 }
  ∧ ∀ m, m < 256 → y'.flags.getLsbD m = if m = n then b else y.flags.getLsbD m

/-- The flag that an instruction of the FLAG group names. -/
def flagOf (y : Engine) (a imm : Nat) : Nat := ((y.s a).toNat + imm) % 256

/-! ### Vectors -/

/-- Bits of an element of a width code. -/
def wBits (w : Nat) : Nat := 8 * 2 ^ w
/-- Element `i` of `b` bits: bits [511 − b·i : 512 − b·(i + 1)]. -/
def elem (b : Nat) (v : BitVec 512) (i : Nat) : Nat := (v.extractLsb' (512 - b * (i + 1)) b).toNat
/-- The signed value of an element. -/
def sgn (b n : Nat) : Int := if n < 2 ^ (b - 1) then (n : Int) else (n : Int) - 2 ^ b

/-- A VOP instruction: element by element under predicate p, an inactive element keeping vd's old value. -/
def vop (mk : Nat → Nat → Nat → Nat → Nat → Nat → Nat → Instr) (f : Nat → Nat → Nat → Nat) : Prop :=
  ∀ (s : State) (k e vd va vb p w : Nat) (im : Image), CueAt k e (mk k e vd va vb p w) im s →
    Runs k e (mk k e vd va vb p w) s (((s.d.engine k e).pc + 1) % 2 ^ 16) (fun y y' => writesV vd (fun v =>
      ∀ i, i < 512 / wBits w → elem (wBits w) v i =
        if (y.p p).getLsbD i then f (wBits w) (elem (wBits w) (y.v va) i) (elem (wBits w) (y.v vb) i)
        else elem (wBits w) (y.v vd) i) y y')

/-- A comparison into predicate pd: inactive elements keep their old bit, bits above the element count are 0. -/
def vcmp (mk : Nat → Nat → Nat → Nat → Nat → Nat → Nat → Instr) (c : Nat → Nat → Nat → Prop) [∀ b u v, Decidable (c b u v)] : Prop :=
  ∀ (s : State) (k e pd va vb p w : Nat) (im : Image), CueAt k e (mk k e pd va vb p w) im s →
    Runs k e (mk k e pd va vb p w) s (((s.d.engine k e).pc + 1) % 2 ^ 16) (writesP pd (fun y i =>
      if i < 512 / wBits w then
        if (y.p p).getLsbD i then decide (c (wBits w) (elem (wBits w) (y.v va) i) (elem (wBits w) (y.v vb) i))
        else (y.p pd).getLsbD i
      else false))

/-- The tile address of VLD and VST. -/
def lineAddr (y : Engine) (a imm : Nat) : Word := y.s a + BitVec.ofInt 64 (64 * signedImm 14 imm)
/-- A line inside an image's tile SRAM allocation. -/
def lineFits (im : Image) (a : Word) : Prop := a.toNat % 64 = 0 ∧ a.toNat + 64 ≤ im.tileUnits * 65536
/-- Byte `j` of a line, the most significant first. -/
def lineByte (v : BitVec 512) (j : Nat) : Byte := v.extractLsb' (504 - 8 * j) 8
/-- Where a byte of an image's allocation stands in its Loom's tile SRAM. -/
def tilePlace (im : Image) (a : Nat) : Nat := (im.prod * 256 + im.bank) * 2 ^ 28 + a
/-- A byte of tile SRAM that holds no accumulation. -/
def plainByte (x : Loom) (a : Nat) : Prop := ∀ r ∈ x.junk, ¬ (r.1 ≤ a ∧ a < r.1 + r.2)

end Sys2Proof.Claims

/-- The word of a Cue instruction is 32 bits and decodes to that instruction, whatever its operands. -/
def Obligations.CueDecodesWhatItEncodes : Prop :=
  ∀ (nl nw : Nat) (i : Sys2Proof.Instr) (w : Nat), Sys2Proof.Instr.wf nl nw i = true → Sys2Proof.Claims.isCue i = true →
    Sys2Proof.cueEncode i = some w → w < 2 ^ 32 ∧ ∃ k e, Sys2Proof.cueDecode k e w = i

/-- The eight words of R193's example decode to the instructions it lists. -/
def Obligations.CueExampleWords : Prop :=
  ∀ k e : Nat,
    Sys2Proof.cueDecode k e 0x08A04000 = .cueAddi k e 10 1 0
    ∧ Sys2Proof.cueDecode k e 0xC4820028 = .cueTakeRed k e 2 8 10
    ∧ Sys2Proof.cueDecode k e 0x28003008 = .cueWaitf k e 0 8
    ∧ Sys2Proof.cueDecode k e 0xD0825550 = .cueRoundTile k e 2 9 21 20 0
    ∧ Sys2Proof.cueDecode k e 0x28003009 = .cueWaitf k e 0 9
    ∧ Sys2Proof.cueDecode k e 0xD4C29528 = .cueGive k e 3 10 21 10
    ∧ Sys2Proof.cueDecode k e 0x04A28200 = .cueAdd k e 10 10 2
    ∧ Sys2Proof.cueDecode k e 0x48A2FFFA = .cueBlt k e 10 11 0x3FFA

section
open Sys2Proof Sys2Proof.Claims Sys2Proof.Machine

/-- ADD to MAXU: S[d] = S[a] op S[b] modulo 2^64, and nothing else changes. -/
def Obligations.CueThreeRegister : Prop :=
  threeReg .cueAdd (fun u v => BitVec.ofNat 64 (u.toNat + v.toNat))
  ∧ threeReg .cueSub (fun u v => BitVec.ofInt 64 ((u.toNat : Int) - v.toNat))
  ∧ threeReg .cueAnd (fun u v => u &&& v)
  ∧ threeReg .cueOr (fun u v => u ||| v)
  ∧ threeReg .cueXor (fun u v => u ^^^ v)
  ∧ threeReg .cueSll (fun u v => BitVec.ofNat 64 (u.toNat * 2 ^ (v.toNat % 64)))
  ∧ threeReg .cueSrl (fun u v => BitVec.ofNat 64 (u.toNat / 2 ^ (v.toNat % 64)))
  ∧ threeReg .cueSra (fun u v => BitVec.ofInt 64 (u.toInt / 2 ^ (v.toNat % 64)))
  ∧ threeReg .cueSlt (fun u v => if u.toInt < v.toInt then 1 else 0)
  ∧ threeReg .cueSltu (fun u v => if u.toNat < v.toNat then 1 else 0)
  ∧ threeReg .cueMul (fun u v => BitVec.ofNat 64 (u.toNat * v.toNat))
  ∧ threeReg .cueMulhu (fun u v => BitVec.ofNat 64 (u.toNat * v.toNat / 2 ^ 64))
  ∧ threeReg .cueMin (fun u v => if u.toInt ≤ v.toInt then u else v)
  ∧ threeReg .cueMax (fun u v => if u.toInt ≤ v.toInt then v else u)
  ∧ threeReg .cueMinu (fun u v => if u.toNat ≤ v.toNat then u else v)
  ∧ threeReg .cueMaxu (fun u v => if u.toNat ≤ v.toNat then v else u)

/-- ADDI, ANDI, ORI, XORI, SHI and CAT: S[d] from S[a] and the immediate, and nothing else changes. -/
def Obligations.CueImmediates : Prop :=
  twoRegImm .cueAddi (fun u i => BitVec.ofInt 64 (u.toNat + signedImm 14 i))
  ∧ twoRegImm .cueAndi (fun u i => u &&& BitVec.ofNat 64 i)
  ∧ twoRegImm .cueOri (fun u i => u ||| BitVec.ofNat 64 i)
  ∧ twoRegImm .cueXori (fun u i => u ^^^ BitVec.ofNat 64 i)
  ∧ (∀ op, op < 3 → twoRegImm (fun k e d a n => .cueShi k e d a op n) (fun u n =>
      if op = 0 then BitVec.ofNat 64 (u.toNat * 2 ^ n) else if op = 1 then BitVec.ofNat 64 (u.toNat / 2 ^ n)
      else BitVec.ofInt 64 (u.toInt / 2 ^ n)))
  ∧ twoRegImm .cueCat (fun u i => BitVec.ofNat 64 (u.toNat * 2 ^ 14 + i))

/-- BEQ to BGEU, JAL and JALR: where PC goes, and what else changes.
The model's choices: log entry 88. -/
def Obligations.CueControlFlow : Prop :=
  branch .cueBeq (fun u v => u = v)
  ∧ branch .cueBne (fun u v => u ≠ v)
  ∧ branch .cueBlt (fun u v => u.toInt < v.toInt)
  ∧ branch .cueBge (fun u v => v.toInt ≤ u.toInt)
  ∧ branch .cueBltu (fun u v => u.toNat < v.toNat)
  ∧ branch .cueBgeu (fun u v => v.toNat ≤ u.toNat)
  ∧ (∀ (s : State) (k e d off : Nat) (im : Image), CueAt k e (.cueJal k e d off) im s →
      Runs k e (.cueJal k e d off) s ((((s.d.engine k e).pc : Int) + signedImm 20 off) % 2 ^ 16).toNat
        (writesS d (fun y => BitVec.ofNat 64 (y.pc + 1))))
  ∧ (∀ (s : State) (k e d a imm : Nat) (im : Image), CueAt k e (.cueJalr k e d a imm) im s →
      Runs k e (.cueJalr k e d a imm) s (((((s.d.engine k e).s a).toNat : Int) + signedImm 14 imm) % 2 ^ 16).toNat
        (writesS d (fun y => BitVec.ofNat 64 (y.pc + 1))))

/-- LD and ST: 8 bytes of data memory, most significant first, at S[a] + imm. -/
def Obligations.CueLoadStore : Prop :=
  ∀ (s : State) (k e d a imm : Nat) (im : Image),
    (CueAt k e (.cueLd k e d a imm) im s → dataFits (dataAddr (s.d.engine k e) a imm) →
      Completes (.cueLd k e d a imm) s (fun t => EngineOnly k e s t
        ∧ Issued (s.d.engine k e) (t.d.engine k e) (((s.d.engine k e).pc + 1) % 2 ^ 16)
        ∧ ∃ v, writesS d (fun _ => v) (s.d.engine k e) (t.d.engine k e)
          ∧ ∀ j, j < 8 → wordByte v j = (s.d.engine k e).dmem.get 0 ((dataAddr (s.d.engine k e) a imm).toNat + j)))
    ∧ (CueAt k e (.cueSt k e d a imm) im s → dataFits (dataAddr (s.d.engine k e) a imm) →
      Runs k e (.cueSt k e d a imm) s (((s.d.engine k e).pc + 1) % 2 ^ 16) (fun y y' =>
        { y' with dmem := [], pc := 0, issued := 0, st := 0 } = { y with dmem := [], pc := 0, issued := 0, st := 0 }
        ∧ ∀ c, y'.dmem.get 0 c =
            if (dataAddr y a imm).toNat ≤ c ∧ c < (dataAddr y a imm).toNat + 8 then wordByte (y.s d) (c - (dataAddr y a imm).toNat)
            else y.dmem.get 0 c))

/-- FSET, FCLR, FTEST and WAITF: flag (S[a] + imm[7:0]) mod 256 is set, cleared, read, or waited for until it or F255 is 1.
The model's choices: log entry 89. -/
def Obligations.CueFlags : Prop :=
  ∀ (s : State) (k e d a imm : Nat) (im : Image),
    (CueAt k e (.cueFset k e a imm) im s →
      Runs k e (.cueFset k e a imm) s (((s.d.engine k e).pc + 1) % 2 ^ 16) (fun y y' => writesFlag (flagOf y a imm) true y y'))
    ∧ (CueAt k e (.cueFclr k e a imm) im s →
      Runs k e (.cueFclr k e a imm) s (((s.d.engine k e).pc + 1) % 2 ^ 16) (fun y y' => writesFlag (flagOf y a imm) false y y'))
    ∧ (CueAt k e (.cueFtest k e d a imm) im s →
      Runs k e (.cueFtest k e d a imm) s (((s.d.engine k e).pc + 1) % 2 ^ 16)
        (writesS d (fun y => if y.flags.getLsbD (flagOf y a imm) then 1 else 0)))
    ∧ (CueAt k e (.cueWaitf k e a imm) im s →
      ((s.d.engine k e).flags.getLsbD (flagOf (s.d.engine k e) a imm) = true ∨ (s.d.engine k e).flags.getLsbD 255 = true →
        Runs k e (.cueWaitf k e a imm) s (((s.d.engine k e).pc + 1) % 2 ^ 16) (writesS 0 (fun _ => 0)))
      ∧ ((s.d.engine k e).flags.getLsbD (flagOf (s.d.engine k e) a imm) = false → (s.d.engine k e).flags.getLsbD 255 = false →
        Stays k e (.cueWaitf k e a imm) s 2))

/-- NOP, SWAIT, END and RDTIME. SWAIT and END wait for the stream queue to empty.
The model's choices: log entry 89. -/
def Obligations.CueSystem : Prop :=
  ∀ (s : State) (k e d : Nat) (im : Image),
    (CueAt k e (.cueNop k e) im s → Runs k e (.cueNop k e) s (((s.d.engine k e).pc + 1) % 2 ^ 16) (writesS 0 (fun _ => 0)))
    ∧ (CueAt k e (.cueSwait k e) im s →
      ((s.d.engine k e).queue = [] → Runs k e (.cueSwait k e) s (((s.d.engine k e).pc + 1) % 2 ^ 16) (writesS 0 (fun _ => 0)))
      ∧ ((s.d.engine k e).queue ≠ [] → Stays k e (.cueSwait k e) s (s.d.engine k e).st))
    ∧ (CueAt k e (.cueEnd k e) im s →
      ((s.d.engine k e).queue = [] → Completes (.cueEnd k e) s (fun t => EngineOnly k e s t
        ∧ { t.d.engine k e with pc := 0, issued := 0 } = { s.d.engine k e with pc := 0, issued := 0, st := 4 }))
      ∧ ((s.d.engine k e).queue ≠ [] → Stays k e (.cueEnd k e) s (s.d.engine k e).st))
    ∧ (CueAt k e (.cueRdtime k e d) im s →
      Runs k e (.cueRdtime k e d) s (((s.d.engine k e).pc + 1) % 2 ^ 16) (writesS d (fun _ => BitVec.ofNat 64 s.d.timeNs)))

/-- VADD to VMAXU, VSEL and VMOV: element by element, modulo 2^w, under predicate p. -/
def Obligations.CueVectorElements : Prop :=
  vop .cueVadd (fun b u v => (u + v) % 2 ^ b)
  ∧ vop .cueVsub (fun b u v => (((u : Int) - v) % 2 ^ b).toNat)
  ∧ vop .cueVand (fun _ u v => u &&& v)
  ∧ vop .cueVor (fun _ u v => u ||| v)
  ∧ vop .cueVxor (fun _ u v => u ^^^ v)
  ∧ vop .cueVmin (fun b u v => if sgn b u ≤ sgn b v then u else v)
  ∧ vop .cueVmax (fun b u v => if sgn b u ≤ sgn b v then v else u)
  ∧ vop .cueVminu (fun _ u v => if u ≤ v then u else v)
  ∧ vop .cueVmaxu (fun _ u v => if u ≤ v then v else u)
  ∧ vop (fun k e vd va _ p w => .cueVmov k e vd va p w) (fun _ u _ => u)
  ∧ (∀ (s : State) (k e vd va vb p w : Nat) (im : Image), CueAt k e (.cueVsel k e vd va vb p w) im s →
      Runs k e (.cueVsel k e vd va vb p w) s (((s.d.engine k e).pc + 1) % 2 ^ 16) (fun y y' => writesV vd (fun v =>
        ∀ i, i < 512 / wBits w → elem (wBits w) v i =
          if (y.p p).getLsbD i then elem (wBits w) (y.v va) i else elem (wBits w) (y.v vb) i) y y'))

/-- VCEQ, VCLT and VCLTU write a predicate; PAND, POR and PNOT combine predicates; a write to P0 is discarded. -/
def Obligations.CuePredicates : Prop :=
  vcmp .cueVceq (fun _ u v => u = v)
  ∧ vcmp .cueVclt (fun b u v => sgn b u < sgn b v)
  ∧ vcmp .cueVcltu (fun _ u v => u < v)
  ∧ (∀ (s : State) (k e pd pa pb : Nat) (im : Image),
      (CueAt k e (.cuePand k e pd pa pb) im s → Runs k e (.cuePand k e pd pa pb) s (((s.d.engine k e).pc + 1) % 2 ^ 16)
        (writesP pd (fun y i => (y.p pa).getLsbD i && (y.p pb).getLsbD i)))
      ∧ (CueAt k e (.cuePor k e pd pa pb) im s → Runs k e (.cuePor k e pd pa pb) s (((s.d.engine k e).pc + 1) % 2 ^ 16)
        (writesP pd (fun y i => (y.p pa).getLsbD i || (y.p pb).getLsbD i)))
      ∧ (CueAt k e (.cuePnot k e pd pa) im s → Runs k e (.cuePnot k e pd pa) s (((s.d.engine k e).pc + 1) % 2 ^ 16)
        (writesP pd (fun y i => !(y.p pa).getLsbD i))))

/-- VLD, VST, VSPLAT and VEXT. A byte of an accumulation reads as a free value, which no clause names.
The model's choices: log entry 86. -/
def Obligations.CueVectorMoves : Prop :=
  ∀ (s : State) (k e vd a imm w va idx d : Nat) (im : Image),
    (CueAt k e (.cueVld k e vd a imm) im s → lineFits im (lineAddr (s.d.engine k e) a imm) →
      Runs k e (.cueVld k e vd a imm) s (((s.d.engine k e).pc + 1) % 2 ^ 16) (fun y y' => writesV vd (fun v =>
        ∀ j, j < 64 → plainByte (s.d.loom k) (tilePlace im ((lineAddr y a imm).toNat + j)) →
          lineByte v j = (s.d.loom k).tile.get 0 (tilePlace im ((lineAddr y a imm).toNat + j))) y y'))
    ∧ (CueAt k e (.cueVst k e vd a imm) im s → lineFits im (lineAddr (s.d.engine k e) a imm) →
      Completes (.cueVst k e vd a imm) s (fun t => t.pending = s.pending ∧ t.mem = s.mem
        ∧ { t.d with looms := [] } = { s.d with looms := [] } ∧ (∀ j, j ≠ k → t.d.loom j = s.d.loom j)
        ∧ { t.d.loom k with engines := [], tile := [], junk := [], areas := [], binds := [] }
          = { s.d.loom k with engines := [], tile := [], junk := [], areas := [], binds := [] }
        ∧ (∀ f, f ≠ e → t.d.engine k f = s.d.engine k f)
        ∧ Issued (s.d.engine k e) (t.d.engine k e) (((s.d.engine k e).pc + 1) % 2 ^ 16)
        ∧ writesS 0 (fun _ => 0) (s.d.engine k e) (t.d.engine k e)
        ∧ ∀ c, (t.d.loom k).tile.get 0 c =
            if tilePlace im (lineAddr (s.d.engine k e) a imm).toNat ≤ c
              ∧ c < tilePlace im (lineAddr (s.d.engine k e) a imm).toNat + 64
            then lineByte ((s.d.engine k e).v vd) (c - tilePlace im (lineAddr (s.d.engine k e) a imm).toNat)
            else (s.d.loom k).tile.get 0 c))
    ∧ (CueAt k e (.cueVsplat k e vd a w) im s →
      Runs k e (.cueVsplat k e vd a w) s (((s.d.engine k e).pc + 1) % 2 ^ 16) (fun y y' => writesV vd (fun v =>
        ∀ i, i < 512 / wBits w → elem (wBits w) v i = (y.s a).toNat % 2 ^ wBits w) y y'))
    ∧ (CueAt k e (.cueVext k e d va idx w) im s → idx < 512 / wBits w →
      Runs k e (.cueVext k e d va idx w) s (((s.d.engine k e).pc + 1) % 2 ^ 16)
        (writesS d (fun y => BitVec.ofNat 64 (elem (wBits w) (y.v va) idx))))

end


namespace Sys2Proof.Claims

open Sys2Proof.Machine

/-! ### Accumulators -/

/-- One register A[acc] changes; nothing else does. -/
def writesA (acc : Nat) (y y' : Engine) : Prop :=
  { y' with acc := [], pc := 0, issued := 0, st := 0 } = { y with acc := [], pc := 0, issued := 0, st := 0 }
  ∧ ∀ r, r ≠ acc → y'.acc.find r = y.acc.find r

/-- The arithmetic word that VACC reads, and the register it adds into: a clear one takes the word's class. -/
def vaccWordOf (y : Engine) (a : Nat) : AWord := (y.s a).truncate 32
def vaccReg (y : Engine) (acc a : Nat) : LongAcc := (y.acc.find acc).getD { word := vaccWordOf y a }
/-- Elements that a VACC or AOUT takes at a time. -/
def perPart (f : Nat) : Nat := 512 / elemBits f
/-- Lane `n` belongs to a part, and its element is active. -/
def activeLane (y : Engine) (f part p n : Nat) : Prop :=
  part * perPart f ≤ n ∧ n < part * perPart f + perPart f ∧ (y.p p).getLsbD (n - part * perPart f) = true
/-- VACC is accepted: word, part, class, and counts (R178, R183). -/
structure VaccFits (y : Engine) (acc a part p : Nat) : Prop where
  word : vaccWord (vaccWordOf y a) = true
  fits : (part + 1) * perPart (AWord.fmt (vaccWordOf y a)) ≤ accLanes (AWord.fmt (vaccWordOf y a))
  fmt : AWord.fmt (vaccReg y acc a).word = AWord.fmt (vaccWordOf y a)
  op : AWord.op (vaccReg y acc a).word = AWord.op (vaccWordOf y a)
  mode : AWord.mode (vaccReg y acc a).word = AWord.mode (vaccWordOf y a)
  count : ∀ n, activeLane y (AWord.fmt (vaccWordOf y a)) part p n → ((vaccReg y acc a).lanes.get {} n).cnt + 1 < 2 ^ 40

/-! ### Stream instructions -/

/-- A stream instruction joins the queue with the word and operands as `o` says; its flag, if it names one, clears. -/
def queues (k e : Nat) (i : Instr) (s : State) (flag : Nat) (o : StreamOp → Prop) : Prop :=
  Runs k e i s (((s.d.engine k e).pc + 1) % 2 ^ 16) (fun y y' =>
    { y' with queue := [], flags := 0, pc := 0, issued := 0, st := 0 } = { y with queue := [], flags := 0, pc := 0, issued := 0, st := 0 }
    ∧ (∀ m, m < 256 → y'.flags.getLsbD m = if m = flag ∧ flag ≠ 0 then false else y.flags.getLsbD m)
    ∧ ∃ x, y'.queue = y.queue ++ [x] ∧ o x)

/-- The queued operation holds its word and its operands as read at issue. -/
def opHolds (im : Image) (y : Engine) (sa sb : Nat) (x : StreamOp) : Prop :=
  x.word = im.word y.pc ∧ x.a = y.s sa ∧ x.b = y.s sb

/-- The stream queue has room. -/
def roomy (s : State) (k e : Nat) : Prop := (s.d.engine k e).queue.length < 16

/-- A channel is bound in one of some directions. -/
def bound (im : Image) (ch : Nat) (dirs : List Nat) : Prop := ∃ c, im.chan ch = some c ∧ c.dir ∈ dirs

/-- The engine hosts the tile whose index a register holds: t mod E is its position. -/
def hostsTile (im : Image) (y : Engine) (sb : Nat) : Prop := (y.s sb).toNat % 2 ^ 32 % max 1 im.engines = y.pos

/-- A tile range of a size lies inside the allocation. -/
def tileRange (im : Image) (a : Word) (n : Nat) : Prop := a.toNat + max 1 n ≤ im.tileUnits * 65536

/-- A stream instruction, with the engine it runs on. -/
inductive StreamInstr (k e : Nat) : Instr → Prop where
  | open_ (ch sa : Nat) : StreamInstr k e (.cueOpen k e ch sa)
  | takeRed (ch fl sb : Nat) : StreamInstr k e (.cueTakeRed k e ch fl sb)
  | take (ch fl sb : Nat) : StreamInstr k e (.cueTake k e ch fl sb)
  | reduce (ch fl sa sb v : Nat) : StreamInstr k e (.cueReduceTile k e ch fl sa sb v)
  | round (ch fl sa sb v : Nat) : StreamInstr k e (.cueRoundTile k e ch fl sa sb v)
  | give (ch fl sa sb : Nat) : StreamInstr k e (.cueGive k e ch fl sa sb)
  | exchange (ch fl o : Nat) : StreamInstr k e (.cueExchange k e ch fl o)
  | collect (ch fl : Nat) : StreamInstr k e (.cueSyncCollect k e ch fl)
  | arrive (ch fl : Nat) : StreamInstr k e (.cueSyncArrive k e ch fl)
  | release (ch fl : Nat) : StreamInstr k e (.cueSyncRelease k e ch fl)
  | await (ch fl : Nat) : StreamInstr k e (.cueSyncAwait k e ch fl)
  | retire (ch fl sa : Nat) : StreamInstr k e (.cueRetire k e ch fl sa)
  | abandon (ch fl : Nat) : StreamInstr k e (.cueAbandon k e ch fl)
  | fetch (fl sa sb : Nat) : StreamInstr k e (.cueBoltFetch k e fl sa sb)
  | stash (fl sa sb : Nat) : StreamInstr k e (.cueBoltStash k e fl sa sb)

/-- A trap: the engine is TRAPPED with PC on the instruction, CUE_ENG_TRAP holds cause, PC and DETAIL, CUE_TRAP is raised,
live engines of the same image are STOPPED, and Bolt memory and the queue of commands stay. Of the engine's other state only
the stream operations issued before may change something: their queue and their flags, and nothing where none is queued. -/
def traps (k e : Nat) (i : Instr) (s : State) (cause detail : Nat) : Prop :=
  Completes i s (fun t => t.pending = s.pending ∧ t.mem = s.mem
    ∧ { t.d.engine k e with queue := [], flags := 0 } = { s.d.engine k e with st := 3, queue := [], flags := 0 }
    ∧ ((s.d.engine k e).queue = [] → t.d.engine k e = { s.d.engine k e with st := 3 })
    ∧ t.d.fld F.CUE_ENG_TRAP_CAUSE (k * 68 + e) = cause
    ∧ t.d.fld F.CUE_ENG_TRAP_PC (k * 68 + e) = (s.d.engine k e).pc % 65536
    ∧ t.d.fld F.CUE_ENG_TRAP_DETAIL (k * 68 + e) = detail % 2 ^ 32
    ∧ (∀ f, f ≠ e → (s.d.engine k f).image = (s.d.engine k e).image →
        (s.d.engine k f).st = 1 ∨ (s.d.engine k f).st = 2 → t.d.engine k f = { s.d.engine k f with st := 5 })
    ∧ (∀ j, j ≠ k → t.d.loom j = s.d.loom j)
    ∧ (s.d.fld F.SEC_STATE_SECURITY 0 ≠ 2 →
        Raises s t 0x47 (8 * (17 + k)) (s.d.engine k e).prod
          (k * 2 ^ 62 + e * 2 ^ 55 + cause * 2 ^ 47 + (s.d.engine k e).pc % 65536)))

/-- PERIOD of a Loom's samples, at least 1,000 (R193). -/
def samplePeriod (s : State) (k : Nat) : Nat := max 1000 (s.d.fld F.CUE_SAMPLE_CTL_PERIOD k)

/-- The instruction count of an engine when the last of its periods ran out: in MODE 0 periods of instructions, in MODE 1
of ns of network time; or when an earlier one did whose sample has not been taken (R193). -/
def ranOut (s : State) (k : Nat) (y : Engine) : Option Nat :=
  if s.d.fld F.CUE_SAMPLE_CTL_MODE k = 1 then
    if samplePeriod s k ≤ (s.d.timeNs + 2 ^ 64 - y.sampleT) % 2 ^ 64 then some y.issued else y.dueAt
  else
    if samplePeriod s k ≤ y.issued - y.sampleAt then some (y.issued - (y.issued - y.sampleAt) % samplePeriod s k) else y.dueAt

/-- A sample of an engine is due: sampling is on, the production filter lets it pass, the engine issues, its Loom runs, and
a period has run out at most 3 instructions ago, or the engine stalls (R193). -/
structure SampleDue (s : State) (k e n : Nat) (im : Image) : Prop where
  on : s.d.fld F.CUE_SAMPLE_CTL_EN k = 1
  filter : s.d.fld F.CUE_SAMPLE_CTL_PROD_EN k = 1 → s.d.fld F.CUE_SAMPLE_CTL_PROD k = (s.d.engine k e).prod
  live : (s.d.engine k e).st = 1 ∨ (s.d.engine k e).st = 2
  image : (s.d.loom k).images.find (s.d.engine k e).image = some im
  running : s.d.site (17 + k) = 1
  due : ranOut s k (s.d.engine k e) = some n
  soon : (s.d.engine k e).stalled im = true ∨ (s.d.engine k e).issued ≤ n + 3

/-- The 32 bytes of a sample: the time, who runs where, how it stands, and the instructions issued (R193). -/
def sampleBytes (s : State) (k e n : Nat) (im : Image) : List Byte :=
  bytesOf 8 s.d.timeNs
  ++ bytesOf 8 ((s.d.engine k e).prod * 2 ^ 52 + (s.d.engine k e).image * 2 ^ 44 + e * 2 ^ 37 + k * 2 ^ 35 + (s.d.engine k e).pc % 65536)
  ++ bytesOf 8 ((if (s.d.engine k e).stalled im then 0 else (s.d.engine k e).issued - n) * 2 ^ 62
      + (s.d.engine k e).st * 2 ^ 58 + (s.d.engine k e).queue.length * 2 ^ 53)
  ++ bytesOf 8 (s.d.engine k e).issued

/-- No sample of the engine is left to take, and of the engines only its own clock of samples has changed. -/
def SampleTaken (k e : Nat) (s t : State) : Prop :=
  { t.d.engine k e with sampleAt := 0, sampleT := 0 } = { s.d.engine k e with sampleAt := 0, sampleT := 0, dueAt := none }
  ∧ (∀ f, f ≠ e → t.d.engine k f = s.d.engine k f) ∧ (∀ j, j ≠ k → t.d.loom j = s.d.loom j)

/-- Place in a stack's carve-out of a byte of the sample ring. -/
def samplePlace (stack off : Nat) : Nat := stack * 0x1200000000 + 0x1000000000 + 0x40000000 + off

end Sys2Proof.Claims

section
open Sys2Proof Sys2Proof.Claims Sys2Proof.Machine

/-- ACLR, VACC and AOUT: a register cleared, its active lanes added to, and its lanes read out.
The model's choices: log entry 93. -/
def Obligations.CueAccumulators : Prop :=
  ∀ (s : State) (k e acc a b vb vd part p : Nat) (im : Image),
    (CueAt k e (.cueAclr k e acc) im s → Runs k e (.cueAclr k e acc) s (((s.d.engine k e).pc + 1) % 2 ^ 16) (fun y y' =>
      writesA acc y y' ∧ y'.acc.find acc = none))
    ∧ (CueAt k e (.cueVacc k e acc a vb part p) im s → VaccFits (s.d.engine k e) acc a part p →
      Runs k e (.cueVacc k e acc a vb part p) s (((s.d.engine k e).pc + 1) % 2 ^ 16) (fun y y' =>
        writesA acc y y' ∧ ∃ x, y'.acc.find acc = some x ∧ x.word = (vaccReg y acc a).word
          ∧ ∀ n, (activeLane y (AWord.fmt (vaccWordOf y a)) part p n →
              (x.lanes.get {} n).cnt = ((vaccReg y acc a).lanes.get {} n).cnt + 1
              ∧ (AWord.op (vaccWordOf y a) = 1 → isInt (AWord.fmt (vaccWordOf y a)) = true →
                (x.lanes.get {} n).sum = ((vaccReg y acc a).lanes.get {} n).sum
                  + (if isSigned (AWord.fmt (vaccWordOf y a))
                     then sgn (elemBits (AWord.fmt (vaccWordOf y a)))
                       (elem (elemBits (AWord.fmt (vaccWordOf y a))) (y.v vb) (n - part * perPart (AWord.fmt (vaccWordOf y a))))
                     else elem (elemBits (AWord.fmt (vaccWordOf y a))) (y.v vb)
                       (n - part * perPart (AWord.fmt (vaccWordOf y a))))))
            ∧ (¬ activeLane y (AWord.fmt (vaccWordOf y a)) part p n → x.lanes.get {} n = (vaccReg y acc a).lanes.get {} n
                ∧ x.vals.find n = (vaccReg y acc a).vals.find n)))
    ∧ (∀ x c, CueAt k e (.cueAout k e vd acc b part) im s → (s.d.engine k e).acc.find acc = some x →
        isMx (AWord.ofmt x.word) = false → 0 < elemBits (AWord.ofmt x.word) →
        (part + 1) * perPart (AWord.ofmt x.word) ≤ accLanes (AWord.fmt x.word) →
        AWord.op x.word < 5 → im.chan (((s.d.engine k e).s b).toNat / 2 ^ 60) = some c →
        Completes (.cueAout k e vd acc b part) s (fun t => t.mem = s.mem ∧ t.pending = s.pending
          ∧ Issued (s.d.engine k e) (t.d.engine k e) (((s.d.engine k e).pc + 1) % 2 ^ 16)
          ∧ writesV vd (fun v => ∀ j, j < perPart (AWord.ofmt x.word) →
              elem (elemBits (AWord.ofmt x.word)) v j
                = (encodeVal (AWord.ofmt x.word) (AWord.rnd x.word)
                    (stochR (bit c.ens) c.group
                      (match s.d.bind k im.prod c.ens c.group with | some o => o.cur | none => 0)
                      (((s.d.engine k e).s b).toNat / 2 ^ 20 % 2 ^ 32) (((s.d.engine k e).s b).toNat % 2 ^ 20 + j))
                    (x.out (part * perPart (AWord.ofmt x.word) + j))).1 % 2 ^ elemBits (AWord.ofmt x.word))
              (s.d.engine k e) (t.d.engine k e)))

/-- Every stream instruction that passes its checks joins the stream queue, clears its flag and lets the engine go on; a
full stream queue stalls the issue of one, and nothing changes.
The model's choices: log entries 89, 90, 91. -/
def Obligations.CueStreamIssue : Prop :=
  (∀ (s : State) (k e : Nat) (i : Instr) (im : Image), StreamInstr k e i → CueAt k e i im s →
    16 ≤ (s.d.engine k e).queue.length → exec i s = .next s)
  ∧ ∀ (s : State) (k e ch fl sa sb v o : Nat) (im : Image), roomy s k e →
    (∀ c x, CueAt k e (.cueOpen k e ch sa) im s → im.chan ch = some c →
      s.d.readDesc im c (s.d.engine k e) ((s.d.engine k e).s sa).toNat = some x →
      (∀ y, s.d.curDesc k (s.d.engine k e).image im c = some y → y = x.1) →
      queues k e (.cueOpen k e ch sa) s 0 (fun q => opHolds im (s.d.engine k e) sa 0 q ∧ q.desc = some x))
    ∧ (CueAt k e (.cueTakeRed k e ch fl sb) im s → bound im ch [0, 3] → hostsTile im (s.d.engine k e) sb →
      queues k e (.cueTakeRed k e ch fl sb) s fl (opHolds im (s.d.engine k e) 0 sb))
    ∧ (CueAt k e (.cueTake k e ch fl sb) im s → bound im ch [0, 3] → hostsTile im (s.d.engine k e) sb →
      queues k e (.cueTake k e ch fl sb) s fl (opHolds im (s.d.engine k e) 0 sb))
    ∧ (∀ c, CueAt k e (.cueReduceTile k e ch fl sa sb v) im s → im.chan ch = some c →
      tileRange im ((s.d.engine k e).s sa) (tileArea (s.d.curDesc k (s.d.engine k e).image im c) (s.d.groupCount c.ens c.group)) →
      tileRange im ((s.d.engine k e).s sb) (tileIn (s.d.curDesc k (s.d.engine k e).image im c)) →
      queues k e (.cueReduceTile k e ch fl sa sb v) s fl (opHolds im (s.d.engine k e) sa sb))
    ∧ (∀ c, CueAt k e (.cueRoundTile k e ch fl sa sb v) im s → im.chan ch = some c →
      tileRange im ((s.d.engine k e).s sa) (tileOut (s.d.curDesc k (s.d.engine k e).image im c) v) →
      tileRange im ((s.d.engine k e).s sb) (tileArea (s.d.curDesc k (s.d.engine k e).image im c) (s.d.groupCount c.ens c.group)) →
      queues k e (.cueRoundTile k e ch fl sa sb v) s fl (opHolds im (s.d.engine k e) sa sb))
    ∧ (∀ c, CueAt k e (.cueGive k e ch fl sa sb) im s → im.chan ch = some c → c.dir = 1 ∨ c.dir = 2 →
      hostsTile im (s.d.engine k e) sb →
      tileRange im ((s.d.engine k e).s sa)
        (if c.dir = 1 then tileOut (s.d.curDesc k (s.d.engine k e).image im c) 0
         else tileIn (s.d.curDesc k (s.d.engine k e).image im c)) →
      queues k e (.cueGive k e ch fl sa sb) s fl (opHolds im (s.d.engine k e) sa sb))
    ∧ (CueAt k e (.cueExchange k e ch fl o) im s → bound im ch [0] → bound im o [1] →
      queues k e (.cueExchange k e ch fl o) s fl (opHolds im (s.d.engine k e) 0 0))
    ∧ (CueAt k e (.cueSyncCollect k e ch fl) im s → bound im ch [0] →
      queues k e (.cueSyncCollect k e ch fl) s fl (opHolds im (s.d.engine k e) 0 0))
    ∧ (CueAt k e (.cueSyncArrive k e ch fl) im s → bound im ch [2] →
      queues k e (.cueSyncArrive k e ch fl) s fl (opHolds im (s.d.engine k e) 0 0))
    ∧ (CueAt k e (.cueSyncRelease k e ch fl) im s → bound im ch [1] →
      queues k e (.cueSyncRelease k e ch fl) s fl (opHolds im (s.d.engine k e) 0 0))
    ∧ (CueAt k e (.cueSyncAwait k e ch fl) im s → bound im ch [3] →
      queues k e (.cueSyncAwait k e ch fl) s fl (opHolds im (s.d.engine k e) 0 0))
    ∧ (∀ c, CueAt k e (.cueRetire k e ch fl sa) im s → im.chan ch = some c →
      (s.d.bind k im.prod c.ens c.group).bind (openHosted im (s.d.engine k e)) = none →
      (sa = 0 → queues k e (.cueRetire k e ch fl sa) s fl (fun q => opHolds im (s.d.engine k e) 0 0 q ∧ q.desc = none))
      ∧ (∀ x, sa ≠ 0 → s.d.readDesc im c (s.d.engine k e) ((s.d.engine k e).s sa).toNat = some x →
        queues k e (.cueRetire k e ch fl sa) s fl (fun q => opHolds im (s.d.engine k e) sa 0 q ∧ q.desc = some x)))
    ∧ (CueAt k e (.cueAbandon k e ch fl) im s → bound im ch [0, 1, 2, 3] →
      queues k e (.cueAbandon k e ch fl) s fl (opHolds im (s.d.engine k e) 0 0))
    ∧ (CueAt k e (.cueBoltFetch k e fl sa sb) im s →
      tileRange im ((s.d.engine k e).s sa) ((s.d.engine k e).s (sb + 1)).toNat →
      im.boltOk ((s.d.engine k e).s sb).toNat ((s.d.engine k e).s (sb + 1)).toNat = true →
      queues k e (.cueBoltFetch k e fl sa sb) s fl (fun q => opHolds im (s.d.engine k e) sa sb q ∧ q.b1 = (s.d.engine k e).s (sb + 1)))
    ∧ (CueAt k e (.cueBoltStash k e fl sa sb) im s →
      tileRange im ((s.d.engine k e).s sa) ((s.d.engine k e).s (sb + 1)).toNat →
      im.boltOk ((s.d.engine k e).s sb).toNat ((s.d.engine k e).s (sb + 1)).toNat = true →
      queues k e (.cueBoltStash k e fl sa sb) s fl (fun q => opHolds im (s.d.engine k e) sa sb q ∧ q.b1 = (s.d.engine k e).s (sb + 1)))

/-- Traps: BREAK, a word that is no instruction, and those of LD, ST, VLD, VST and VEXT, each with its cause and DETAIL. -/
def Obligations.CueTraps : Prop :=
  ∀ (s : State) (k e d a imm vd va idx w : Nat) (im : Image),
    (CueAt k e (.cueBreak k e a) im s → traps k e (.cueBreak k e a) s 10 ((s.d.engine k e).s a).toNat)
    ∧ (CueAt k e (.cueIllegal k e w) im s → traps k e (.cueIllegal k e w) s 1 w)
    ∧ (CueAt k e (.cueLd k e d a imm) im s → ¬ dataFits (dataAddr (s.d.engine k e) a imm) →
      traps k e (.cueLd k e d a imm) s 6 (dataAddr (s.d.engine k e) a imm).toNat)
    ∧ (CueAt k e (.cueSt k e d a imm) im s → ¬ dataFits (dataAddr (s.d.engine k e) a imm) →
      traps k e (.cueSt k e d a imm) s 6 (dataAddr (s.d.engine k e) a imm).toNat)
    ∧ (CueAt k e (.cueVld k e vd a imm) im s → ¬ lineFits im (lineAddr (s.d.engine k e) a imm) →
      traps k e (.cueVld k e vd a imm) s 5 (lineAddr (s.d.engine k e) a imm).toNat)
    ∧ (CueAt k e (.cueVst k e vd a imm) im s → ¬ lineFits im (lineAddr (s.d.engine k e) a imm) →
      traps k e (.cueVst k e vd a imm) s 5 (lineAddr (s.d.engine k e) a imm).toNat)
    ∧ (CueAt k e (.cueVext k e d va idx w) im s → 512 / wBits w ≤ idx →
      traps k e (.cueVext k e d va idx w) s 1 (im.word (s.d.engine k e).pc))

/-- STREAM_OP_DONE for an OPEN at the head of the queue: the operation leaves the queue, and op CUR of its binding opens
with the descriptor that OPEN read. A sample of a running engine goes to the ring at WP, and WP moves on by 32; in a full
ring it is counted lost and WP stays.
The model's choices: log entries 91, 97. -/
def Obligations.CueEngineEvents : Prop :=
  ∀ (s : State) (k e : Nat) (im : Image), k < 4 → e < 68 →
    (∀ (x : StreamOp) (q : List StreamOp) (ch sa : Nat) (c : Chan) (b : Bind) (ds : BitVec 512 × List Byte),
      s.d.site (17 + k) = 1 → (s.d.loom k).images.find (s.d.engine k e).image = some im →
      (s.d.engine k e).queue = x :: q → cueDecode k e x.word = .cueOpen k e ch sa → fieldAt x.word 14 8 = 0 →
      im.chan ch = some c → s.d.bind k im.prod c.ens c.group = some b → b.cur = x.seq → b.desc = none → x.desc = some ds →
      Completes (.streamOpDone k e 0) s (fun t => t.pending = s.pending ∧ t.mem = s.mem
        ∧ t.d.engine k e = { s.d.engine k e with queue := q }
        ∧ ((t.d.bind k b.prod b.ens b.group).bind (·.desc)) = some ds.1))
    ∧ (∀ n, SampleDue s k e n im →
      ((s.d.fld F.CNT_SMP_WP_PTR 0 + 32) % 0x10000000 ≠ s.d.fld F.CNT_SMP_RP_PTR 0 →
        Completes (.cueSample k e) s (fun t => t.pending = s.pending
          ∧ t.d.fld F.CNT_SMP_WP_PTR 0 = (s.d.fld F.CNT_SMP_WP_PTR 0 + 32) % 0x10000000
          ∧ (∀ r i, r ≠ .CNT_SMP_WP → r ≠ .CNT_VAL → t.d.rd r i = s.d.rd r i)
          ∧ (∀ j, (j = 2 ∨ j = 3) → s.d.stackUp j = true → s.d.cutState = 0 →
              t.d.fld F.CNT_VAL_VALUE ((1060 + j) * 64 + 2) = (s.d.fld F.CNT_VAL_VALUE ((1060 + j) * 64 + 2) + 1) % 2 ^ 48)
          ∧ (∀ j, (j = 2 ∨ j = 3) → s.d.stackUp j = true →
              memRead t.mem (samplePlace j (s.d.fld F.CNT_SMP_WP_PTR 0)) 32 = sampleBytes s k e n im)
          ∧ (∀ a, (∀ j, (j = 2 ∨ j = 3) → s.d.stackUp j = true → ¬ (samplePlace j (s.d.fld F.CNT_SMP_WP_PTR 0) ≤ a
              ∧ a < samplePlace j (s.d.fld F.CNT_SMP_WP_PTR 0) + 32)) → memByte t.mem a = memByte s.mem a)
          ∧ SampleTaken k e s t))
      ∧ ((s.d.fld F.CNT_SMP_WP_PTR 0 + 32) % 0x10000000 = s.d.fld F.CNT_SMP_RP_PTR 0 →
        Completes (.cueSample k e) s (fun t => t.pending = s.pending ∧ t.mem = s.mem
          ∧ (∀ r i, r.logging = false → t.d.rd r i = s.d.rd r i) ∧ SampleTaken k e s t)))

end

namespace Sys2Proof.Claims

open Sys2Proof.Machine

/-! ## Words for the commands of the device -/

/-- Notices are raised: the device is not in RECOVERY (R315). -/
def Heard (s : State) : Prop := s.d.fld F.SEC_STATE_SECURITY 0 ≠ 2

/-- Queue and Bolt memory stay. -/
def Rest (s t : State) : Prop := t.pending = s.pending ∧ t.mem = s.mem

/-- Queue and Bolt memory stay; of the registers only counters, the notice log and those named may change; and of what
stands beside the registers only what `f` hides. -/
structure Only (f : Dev → Dev) (s t : State) (may : RF → Nat → Prop) : Prop where
  rest : Rest s t
  still : f t.d.still = f s.d.still
  regs : ∀ r i, r.logging = false → ¬ may r i → t.d.rd r i = s.d.rd r i

/-- A register access completes with a status; nothing leaves the device after that. -/
def Answers (t : State) (status : Nat) : Prop := t.d.out.getLast? = some (.reg status 0)

/-- A write of a register reaches it: nothing refuses it, the part has the register, and no field holds a reserved encoding. -/
structure Reaches (s : State) (m : Master) (r : RF) (i : Nat) (w : Word) : Prop where
  allowed : s.d.regRefused m r i (some w) = none
  present : s.d.absentReg r i = false
  encoded : s.d.reservedEnc r i w = none

/-! ## Power, start-up and resets -/

/-- The device has been reset as a whole: it keeps retention SRAM, its fuses and the levels of its contacts. -/
structure Restarted (s t : State) (p : PowerState) : Prop where
  rest : Rest s t
  power : t.d.power = p
  fuse : t.d.fuse = s.d.fuse
  kept : ∀ r i, r.retained = true → t.d.rd r i = s.d.rd r i
  gone : ∀ r i, r.retained = false → t.d.rd r i = s.d.resetWord r i
  overlay : t.d.overlay = s.d.overlay
  fabric : t.d.net = { lostCells := s.d.net.lostCells } ∧ t.d.tab = {} ∧ t.d.looms = [] ∧ t.d.wings = []
  prompter : t.d.prompter = false

/-- The device is powered. -/
def Powered (s : State) : Prop := s.d.power = .starting ∨ s.d.power = .running

/-- The minute that ran has its entry in the energy log, with VALID, its ENERGY and its INCOMPLETE, and SEQ has moved on. -/
structure MinuteLogged (s t : State) (incomplete : Bool) : Prop where
  seq : t.d.fld F.PWR_LOG_A_SEQ (s.d.pwr.seq % 64) = s.d.pwr.seq % 2 ^ 24
  valid : t.d.fld F.PWR_LOG_A_VALID (s.d.pwr.seq % 64) = 1
  incomplete : t.d.fld F.PWR_LOG_A_INCOMPLETE (s.d.pwr.seq % 64) = bit incomplete
  energy : t.d.fld F.PWR_LOG_A_ENERGY (s.d.pwr.seq % 64) = s.d.pwr.energy % 2 ^ 28
  next : t.d.pwr.seq = s.d.pwr.seq % 2 ^ 24 + 1 ∧ t.d.pwr.energy = 0

/-- The device shuts down: its lasers are off, debug is closed, and the minute has its entry. -/
structure ShutsDown (s t : State) (incomplete : Bool) : Prop where
  rest : Rest s t
  power : t.d.power = .shutdown
  lasers : ∀ w k, w < s.d.nWings → k < 11 → t.d.laserState w k = if s.d.laserState w k = 5 then 5 else 0
  debug : t.d.fld F.SEC_STATE_DEBUG 0 = 0
  minute : MinuteLogged s t (s.d.pwr.incomplete || incomplete)

/-- A step of the start-up table: power state and PHASE before it. -/
def AtPhase (s : State) (p : PowerState) (n : Nat) : Prop := s.d.power = p ∧ s.d.fld F.GLB_START_PHASE 0 = n

/-- SEC_MEASn has been extended with a digest. -/
def Extended (s t : State) (n : Nat) (dig : BitVec 384) : Prop :=
  t.d.meas n = sha384 (bytesOf 48 (s.d.meas n).toNat ++ bytesOf 48 dig.toNat)

/-- SITE_STATE after a site's straps are read: EMPTY where the check strap reads 0, RESET where they agree, else FAULTED. -/
def strapSite (s : State) (n id chk : Nat) : Nat :=
  if chk = 0 then 0 else if id = n ∧ chk = (if n ≤ 16 then 1 else if n ≤ 20 then 2 else 3) ∧ s.d.strapsAgree = true then 2 else 3

/-- A die waits out of reset for its seam link: its width is over, nothing holds it, and the Prompter runs. -/
structure Trains (s : State) (site : Nat) : Prop where
  seam : 1 ≤ site ∧ site ≤ 20
  reset : s.d.site site = 2
  width : site ∈ s.d.widthDone
  free : s.d.dieHeld site = false
  prompter : s.d.prompter = true
  clock : s.d.tmu.refOk = true
  code : 17 ≤ site → s.d.fld F.GLB_START_PHASE 0 < 6 ∨ s.d.sec.loomFw = true
  idle : s.d.fld F.GLB_SEAM_STAT_STATE site = 0

/-- A seam link carries traffic: UP or DEGRADED. -/
def SeamLive (s : State) (site : Nat) : Prop :=
  1 ≤ site ∧ site ≤ 20 ∧ (s.d.fld F.GLB_SEAM_STAT_STATE site = 2 ∨ s.d.fld F.GLB_SEAM_STAT_STATE site = 4)

/-- Bundles of a seam link, and the fewest it may run with. -/
def bundlesOf (site : Nat) : Nat := if site ≤ 16 then 36 else 128
def bundlesLeast (site : Nat) : Nat := if site ≤ 16 then 27 else 96

/-- A reset of the named sites would leave no house-port Wing running. -/
def LastHouseWing (s : State) (w : Word) : Prop :=
  (∃ h ∈ s.d.houseWings, bitOf w (h + 1) = true ∧ s.d.site (h + 1) = 1)
  ∧ ∀ h ∈ s.d.houseWings, s.d.site (h + 1) = 1 → bitOf w (h + 1) = true

/-- A lane of a Wing was UP and native, and has failed with a cause. -/
def WingLanesFail (s t : State) (wing cause : Nat) : Prop :=
  ∀ j, j < 64 → s.d.ltype (64 * wing + j) ≤ 1 → s.d.lstate (64 * wing + j) = 3 →
    t.d.lstate (64 * wing + j) = 6 ∧ t.d.fld F.PRT_LINK_STAT_CAUSE (64 * wing + j) = cause

end Sys2Proof.Claims

section
open Sys2Proof Sys2Proof.Claims Sys2Proof.Machine

/-- What reset leaves, as the tables of the spec's registers give it: a few registers of each kind.
The model's choices: log entries 9, 10. -/
def Obligations.ResetValues : Prop :=
  let d := State.reset.d
  State.reset.pending = [] ∧ d.fld F.GLB_ID_PART 0 = 0x1024
  ∧ (∀ r i, d.rd r i = d.resetWord r i)
  ∧ (∀ p, d.fld F.GLB_PROD_STATE p = 0 ∧ d.fld F.WRD_PROD_QUOTA_EN p = 0)
  ∧ (∀ l, d.fld F.PRT_LINK_CTL_EN l = 0 ∧ d.fld F.PRT_LINK_STAT_STATE l = 0)
  ∧ d.fld F.PWR_GOV_STEP 0 = 2 ∧ d.fld F.PWR_GOV_LOOM_RATE 0 = 16 ∧ d.fld F.PWR_GOV_STEP_MIN 0 = 5
  ∧ d.fld F.PWR_CAP_MIN_EN 0 = 0 ∧ d.fld F.PWR_CAP_INST_EN 0 = 1 ∧ d.fld F.PWR_CAP_INST_CAP 0 = 1700
  ∧ d.fld F.TMU_CTL_SERVO 0 = 1 ∧ d.fld F.TMU_CTL_HOLD 0 = 1000 ∧ d.fld F.TMU_STAT_VALID 0 = 0
  ∧ d.fld F.GLB_START_PHASE 0 = 0 ∧ d.fld F.SEC_STATE_SECURITY 0 = 0 ∧ d.fld F.SEC_STATE_DEBUG 0 = 0
  ∧ (∀ k e, k < 4 → e < 64 → (d.engine k e).st = 0)

/-- nPOR, the power-good contact, a brown-out, the end of a shutdown, and standby lost and back.
The model's choices: log entries 50, 166. -/
def Obligations.PowerCommands : Prop :=
  ∀ s : State,
    (s.d.power ≠ .off → Completes .nporAssert s (fun t => Restarted s t .standby ∧ t.d.porHigh = false))
    ∧ (s.d.power = .standby → s.d.tripped = false → Completes .powerStart s (fun t => Restarted s t .starting ∧ t.d.pwrOk = true))
    ∧ (Powered s → Completes .pwrOkFall s (fun t => ShutsDown s t false ∧ t.d.pwrOk = false))
    ∧ (Powered s → s.d.pwrOk = true → Completes .vinBrownOut s (fun t => ShutsDown s t true))
    ∧ (∀ b, s.d.power = .shutdown → Completes (.shutdownDone b) s (fun t =>
        Restarted s t (if b = true ∧ s.d.porHigh = true ∧ s.d.tripped = false then .starting else .standby)))
    ∧ Completes .vstbyLoss s (fun t => Rest s t ∧ t.d.power = .off ∧ t.d.fuse = s.d.fuse ∧ t.d.overlay = []
        ∧ ∀ r i, t.d.rd r i = s.d.resetWord r i)
    ∧ (s.d.power = .off → Completes .vstbyReturn s (fun t => t = { s with d := { s.d with power := .standby } }))

/-- The steps of the start-up table: PHASE, and what each step brings up.
The model's choices: log entries 14, 52, 152, 167, 168, 169, 174, 204, 207, 208. -/
def Obligations.StartUpSteps : Prop :=
  ∀ (s : State) (okA okB : Bool) (svnA svnB ms : Nat) (digA digB wing loom lib : BitVec 384),
    (AtPhase s .starting 0 → s.d.tmu.refOk = true → s.d.fuse.straps.head? = some (0, 3) →
      Completes .startRailsReady s (fun t => Rest s t ∧ AtPhase t .starting 1 ∧ t.d.fuse = s.d.fuse
        ∧ ∀ n x, 1 ≤ n → n < 25 → s.d.fuse.straps[n]? = some x → t.d.site n = strapSite s n x.1 x.2))
    ∧ (AtPhase s .starting 1 →
      Completes .startStagePllsLocked s (fun t => AtPhase t .starting 2 ∧ t.d.fld F.TMU_STAT_LOCKED 0 = 1
        ∧ Extended s t 0 (Config.fuseDigest s.d.fuse.part s.d.fuse.stepping s.d.fuse.serial s.d.svnMin s.d.fuse.ownerValid s.d.fuse.fwKey)
        ∧ (∃ secret, t.d.sec.identityKey = some secret)
        ∧ Only (fun d => { d with sec := {} }) s t (fun r i => r = .GLB_START ∨ r = .TMU_STAT ∨ r = .SEC_MEAS ∧ i < 6)))
    ∧ (AtPhase s .starting 2 → s.d.prompter = false → s.d.fld F.SEC_STATE_SECURITY 0 = 0 →
      Completes (.startPrompterStarted okA okB svnA svnB digA digB) s (fun t => Rest s t
        ∧ (okA = true ∧ s.d.svnMin ≤ svnA % 256 → t.d.prompter = true ∧ t.d.fld F.SEC_STATE_BANK 0 = 0
            ∧ t.d.fld F.SEC_STATE_SVN 0 = svnA % 256 ∧ Extended s t 1 digA ∧ t.d.sec.bootKey.isSome = true)
        ∧ (¬ (okA = true ∧ s.d.svnMin ≤ svnA % 256) → okB = true ∧ s.d.svnMin ≤ svnB % 256 →
            t.d.prompter = true ∧ t.d.fld F.SEC_STATE_BANK 0 = 1 ∧ t.d.fld F.SEC_STATE_SVN 0 = svnB % 256 ∧ Extended s t 1 digB
            ∧ t.d.sec.bootKey.isSome = true)
        ∧ (¬ (okA = true ∧ s.d.svnMin ≤ svnA % 256) → ¬ (okB = true ∧ s.d.svnMin ≤ svnB % 256) →
            t.d.prompter = false ∧ t.d.fld F.SEC_STATE_SECURITY 0 = 2)))
    ∧ (AtPhase s .starting 2 → s.d.prompter = true →
      Completes .startSeamsUp s (fun t => Rest s t ∧ AtPhase t .starting 3
        ∧ ∀ n, 1 ≤ n → n ≤ 20 → t.d.site n = if s.d.site n = 2 ∧ n ∈ s.d.widthDone ∧ s.d.dieHeld n = false then 1 else s.d.site n))
    ∧ (AtPhase s .starting 3 →
      Completes .startMemoryReady s (fun t => t.pending = s.pending ∧ t.mem = [] ∧ AtPhase t .starting 4
        ∧ ∀ m, m < 4 → t.d.site (21 + m) =
            if s.d.site (21 + m) = 2 ∧ 21 + m ∈ s.d.widthDone ∧ s.d.dieHeld (21 + m) = false then 1 else s.d.site (21 + m)))
    ∧ (AtPhase s .starting 4 →
      Completes .startHousePortsUp s (fun t => Rest s t ∧ AtPhase t .starting 5
        ∧ ∀ p, p ∈ t.d.houseUp ↔ ∃ w, s.d.houseWings[p]? = some w ∧ s.d.site (w + 1) = 1))
    ∧ (AtPhase s .starting 5 → ∀ (wingOk loomOk libOk : Bool) (wingSvn loomSvn libSvn : Nat),
      Completes (.startFirmwareVerified wingOk loomOk libOk ⟨wingSvn, wing⟩ ⟨loomSvn, loom⟩ ⟨libSvn, lib⟩) s (fun t =>
        Rest s t ∧ AtPhase t .running 5 ∧ t.d.fld F.SEC_STATE_SECURITY 0 = 1
        ∧ (wingOk = true → s.d.svnMin ≤ wingSvn % 256 → t.d.sec.wingFw = true ∧ Extended s t 2 wing)
        ∧ (loomOk = true → s.d.svnMin ≤ loomSvn % 256 → t.d.sec.loomFw = true ∧ Extended s t 5 loom)
        ∧ (libOk = true → s.d.svnMin ≤ libSvn % 256 → t.d.sec.library = true ∧ Extended s t 3 lib)
        ∧ (wingOk = false ∨ wingSvn % 256 < s.d.svnMin → t.d.sec.wingFw = s.d.sec.wingFw ∧ (Heard s → Raises s t 0x96 6 0 0))
        ∧ (loomOk = false ∨ loomSvn % 256 < s.d.svnMin → t.d.sec.loomFw = s.d.sec.loomFw ∧ (Heard s → Raises s t 0x96 6 0 0))
        ∧ (libOk = false ∨ libSvn % 256 < s.d.svnMin → t.d.sec.library = s.d.sec.library)))
    ∧ (AtPhase s .running 5 →
      Completes .startLoomsLoaded s (fun t => Rest s t ∧ AtPhase t .running 6
        ∧ (∀ k, k < 4 → t.d.site (17 + k) = if s.d.sec.loomFw = false ∧ s.d.site (17 + k) = 1 then 2 else s.d.site (17 + k))
        ∧ (∀ w k, w < s.d.nWings → s.d.site (w + 1) = 1 → s.d.sec.wingFw = true → k < 10 →
            t.d.laserState w k = if s.d.repairs.any (fun r => r.kind == 4 && r.site == w + 1 && r.unit == k) then 5 else 1)
        ∧ (∀ w, w < s.d.nWings → s.d.site (w + 1) = 1 → s.d.fuse.part ≠ 0x0512 → t.d.fld F.WNG_CTL_XT_EN w = 1)))
    ∧ (AtPhase s .running 6 →
      Completes (.startDone ms) s (fun t => Rest s t ∧ AtPhase t .running 7 ∧ t.d.fld F.GLB_START_ELAPSED 0 = min ms 65535
        ∧ (∀ w k, w < s.d.nWings → k < 10 → t.d.laserState w k =
            if s.d.laserState w k = 1 then (if s.d.fld F.WNG_LASER_GROUP (11 * w + k) < 8 then 2 else 3) else s.d.laserState w k)
        ∧ (Heard s → Raises s t 0xA0 0 0 0)))

/-- Seam links: training, a flit's arrival, a repair's start and its end.
The model's choices: log entries 152, 169, 194, 205, 206, 210, 211. -/
def Obligations.SeamLinks : Prop :=
  ∀ (s : State) (site : Nat),
    (∀ siteId bundles, Trains s site → Completes (.seamLinkTrained site siteId bundles) s (fun t => Rest s t
        ∧ (siteId ≠ site → t.d.site site = 3 ∧ (Heard s → Raises s t 0x03 (8 * site) 0 0 ∧ Raises s t 0x02 (8 * site) 0 0))
        ∧ (siteId = site → bundlesLeast site ≤ bundles →
            t.d.fld F.GLB_SEAM_STAT_STATE site = (if bundlesOf site ≤ bundles then 2 else 4)
            ∧ t.d.fld F.GLB_SEAM_STAT_BUNDLES_UP site = min bundles (bundlesOf site)
            ∧ (bundles < bundlesOf site → Heard s → Raises s t 0x07 (8 * site) 0 0))
        ∧ (siteId = site → bundles < bundlesLeast site →
            t.d.site site = if (s.d.seam site).retried = true then 3 else 2)))
    ∧ (∀ f : BitVec 1120, SeamLive s site → s.d.tmu.refOk = true →
        Completes (.seamFlitArrival site f) s (fun t => Rest s t
          ∧ (bitsOf f 31 0 = seamCrc f → seamFld f 63 60 = 1 → seamFld f 55 44 = (s.d.seam site).rxNext →
              (t.d.seam site).rxNext = ((s.d.seam site).rxNext + 1) % 4096
              ∧ (t.d.seam site).released (seamFld f 59 56) = ((s.d.seam site).released (seamFld f 59 56) + 1) % 4096
              ∧ t.d.seamIn = s.d.seamIn ++ [(site, seamFld f 59 56, f.extractLsb' 32 1024)]
              ∧ (t.d.seam site).granted (seamFld f 31 28) = seamFld f 27 16
              ∧ ((s.d.seam site).queue = [] → t.d.seamOut = s.d.seamOut ++ [(site, (t.d.seam site).flit 2 0 0 0)]))
          ∧ (bitsOf f 31 0 = seamCrc f → seamFld f 63 60 = 1 →
              1 ≤ delta (s.d.seam site).rxNext (seamFld f 55 44) 12 → delta (s.d.seam site).rxNext (seamFld f 55 44) 12 ≤ 2048 →
              (t.d.seam site).rxNext = (s.d.seam site).rxNext)
          ∧ (bitsOf f 31 0 ≠ seamCrc f →
              (t.d.seam site).rxNext = (s.d.seam site).rxNext
              ∧ t.d.seamOut = s.d.seamOut ++ [(site, (s.d.seam site).flit 3 0 0 0)])
          ∧ (bitsOf f 31 0 = seamCrc f → seamFld f 63 60 = 3 → seamAck (s.d.seam site).replay (seamFld f 43 32) = none →
              (s.d.seam site).queue = [] →
              t.d.seamOut = s.d.seamOut ++ (s.d.seam site).replay.map (fun x => (site, (s.d.seam site).flit 1 x.2.1 x.1 x.2.2)))))
    ∧ (∀ f : BitVec 1120, 1 ≤ site → site ≤ 20 → ¬ SeamLive s site → s.d.tmu.refOk = true →
        Completes (.seamFlitArrival site f) s (fun t => Rest s t
          ∧ (bitsOf f 31 0 = seamCrc f → seamFld f 63 60 = 4 → (t.d.seam site).granted (seamFld f 31 28) = seamFld f 27 16)
          ∧ (bitsOf f 31 0 ≠ seamCrc f ∨ seamFld f 63 60 ≠ 4 → t = s)))
    ∧ (SeamLive s site → ((s.d.seam site).run ≥ 8 ∨ (s.d.seam site).asked ≥ 8 ∨ (s.d.seam site).bad.length > 64
          ∨ (s.d.seam site).farBad.length > 64) →
        Completes (.seamRepairTrigger site) s (fun t =>
          t.d.fld F.GLB_SEAM_STAT_STATE site = 3 ∧ Only id s t (fun r i => r = .GLB_SEAM_STAT ∧ i = site)))
    ∧ (1 ≤ site → site ≤ 20 → s.d.tmu.refOk = true → s.d.fld F.GLB_SEAM_STAT_STATE site = 3 →
        s.d.fld F.GLB_SEAM_STAT_BUNDLES_UP site = bundlesOf site →
        Completes (.seamRepairDone site []) s (fun t => Rest s t ∧ t.d.fld F.GLB_SEAM_STAT_STATE site = 2)
        ∧ ∀ b, b < bundlesOf site → b ∉ (s.d.seam site).out → s.d.overlay.length < 1024 →
          (b ∉ s.d.understudies site → Completes (.seamRepairDone site [b]) s (fun t => Rest s t ∧ t.d.fld F.GLB_SEAM_STAT_STATE site = 2
            ∧ (∃ time, t.d.overlay = s.d.overlay ++ [⟨2, site, b, b, time⟩])
            ∧ (Heard s → Raises s t 0x06 (8 * site) 0 0)))
          ∧ (b ∈ s.d.understudies site → Completes (.seamRepairDone site [b]) s (fun t => Rest s t
            ∧ t.d.fld F.GLB_SEAM_STAT_STATE site = 4 ∧ t.d.fld F.GLB_SEAM_STAT_BUNDLES_UP site = bundlesOf site - 1
            ∧ t.d.overlay = s.d.overlay ∧ (Heard s → Raises s t 0x07 (8 * site) 0 0)))
          ∧ Completes (.seamRepairDone site [b, b]) s (fun t => Rest s t
            ∧ t.d.fld F.GLB_SEAM_STAT_BUNDLES_UP site = bundlesOf site - 1 ∧ t.d.overlay = s.d.overlay))

/-- The package reference: followed, lost, back, and away for 1 ms; the time unit's PLL unlocks and locks again.
The model's choices: log entries 173, 209. -/
def Obligations.ReferenceCommands : Prop :=
  ∀ s : State,
    (s.d.fld F.GLB_REF_CTL_DISCIPLINE_EN 0 = 1 → s.d.ltype (s.d.fld F.GLB_REF_CTL_LANE 0) = 1 →
      s.d.lstate (s.d.fld F.GLB_REF_CTL_LANE 0) = 3 →
      Completes .refLocked s (fun t => t.d.fld F.GLB_REF_CTL_STATE 0 = 2 ∧ Only id s t (fun r _ => r = .GLB_REF_CTL)))
    ∧ (s.d.tmu.refOk = true → Powered s → Completes .refLoss s (fun t => t.d.tmu = { s.d.tmu with refOk := false }
        ∧ Only (fun d => { d with tmu := {} }) s t (fun _ _ => False) ∧ (Heard s → Raises s t 0x05 0 0 0)))
    ∧ Completes .refReturn s (fun t => t = { s with d := { s.d with tmu := { s.d.tmu with refOk := true } } })
    ∧ (s.d.tmu.refOk = false → Powered s → Completes .refLossTimeout s (fun t => Restarted s t .starting))
    ∧ (s.d.fld F.TMU_STAT_LOCKED 0 = 1 → Completes .tmuPllUnlock s (fun t => Rest s t ∧ t.d.tmu = { s.d.tmu with good := 0 }
        ∧ t.d.fld F.TMU_STAT_LOCKED 0 = 0 ∧ t.d.fld F.TMU_STAT_VALID 0 = 0 ∧ t.d.fld F.TMU_CTL_SYNC 0 = 0
        ∧ (Heard s → Raises s t 0x0A 4 0 0)))
    ∧ (s.d.tmu.refOk = true → 2 ≤ s.d.fld F.GLB_START_PHASE 0 →
      Completes .tmuPllRelock s (fun t => Rest s t ∧ t.d.tmu = s.d.tmu ∧ t.d.fld F.TMU_STAT_LOCKED 0 = 1))

/-- Resets of the device and of its dies: who is reset, what is held, when a die runs again, and what it then keeps.
The model's choices: log entries 14, 130, 135, 163, 164, 165, 194. -/
def Obligations.ResetCommands : Prop :=
  ∀ (s : State) (m : Master) (data : Word),
    (Reaches s m .GLB_RESET_CTL 0 (BitVec.ofNat 64 (2 ^ 63)) →
      Completes (.deviceRst m) s (fun t => Restarted s t .starting ∧ Answers t 0))
    ∧ (Reaches s m .GLB_RESET_CTL 0 (setBits data 63 63 0) →
      Completes (.dieRst m data) s (fun t => Rest s t ∧ Answers t 0
        ∧ (¬ LastHouseWing s data → t.d.fld F.GLB_RESET_CTL_DIE_HOLD 0 = bitsOf data 56 33
            ∧ ∀ n, 1 ≤ n → n < 25 → t.d.site n = if bitOf data n = true ∧ s.d.site n = 1 then 2 else s.d.site n)
        ∧ (LastHouseWing s data → (∀ n, t.d.site n = s.d.site n)
            ∧ (Heard s → Raises s t 0x08 0 0 (setBits data 63 63 0).toNat))))
    ∧ (Reaches s m .GLB_RESET_CTL 0 (setBits (setBits data 63 63 0) 24 1 0) →
      Completes (.dieHold m data) s (fun t => Rest s t ∧ Answers t 0
        ∧ t.d.fld F.GLB_RESET_CTL_DIE_HOLD 0 = bitsOf data 56 33 ∧ ∀ n, t.d.site n = s.d.site n))
    ∧ (∀ n, 1 ≤ n → n < 25 → s.d.site n = 2 → Completes (.dieResetWidthEnd n) s (fun t =>
        t = { s with d := { s.d with widthDone := t.d.widthDone } } ∧ n ∈ t.d.widthDone))
    ∧ (∀ n, 1 ≤ n → n < 25 → s.d.site n = 2 → n ∈ s.d.widthDone → s.d.dieHeld n = false → 3 ≤ s.d.fld F.GLB_START_PHASE 0 →
        (n ≤ 20 → SeamLive s n) → (17 ≤ n → n ≤ 20 → s.d.fld F.GLB_START_PHASE 0 < 6 ∨ s.d.sec.loomFw = true) →
        Completes (.dieRunning n) s (fun t => t.pending = s.pending ∧ t.d.site n = 1 ∧ bitOf (t.d.rd .GLB_RESET_CTL 0) n = false
          ∧ (n ≤ 16 → t.mem = s.mem ∧ t.d.trapMap (n - 1) = (s.d.wing (n - 1)).trap ∧ (Heard s → Raises s t 0x6A (8 * n) 0 0))
          ∧ (17 ≤ n → n ≤ 20 → t.mem = s.mem)
          ∧ (21 ≤ n → n - 21 ∈ t.d.rebuilding ∧ ∀ a, memByte t.mem a =
              if (n - 21) * 0x1200000000 ≤ a ∧ a < (n - 20) * 0x1200000000 then 0 else memByte s.mem a)))
    ∧ (∀ w, w < s.d.nWings → s.d.site (w + 1) = 1 → Completes (.wingPllUnlock w) s (fun t =>
        Rest s t ∧ t.d.site (w + 1) = 2 ∧ WingLanesFail s t w 2))
    ∧ (∀ k, k < 4 → s.d.site (17 + k) = 1 → Completes (.loomPllUnlock k) s (fun t =>
        Rest s t ∧ t.d.site (17 + k) = 2 ∧ ∀ e, e < 64 → (t.d.engine k e).st = 0 ∨ (t.d.engine k e).st = 6))
    ∧ (∀ k, k < 4 → s.d.site (21 + k) = 1 → Completes (.stackPllUnlock k) s (fun t => Rest s t ∧ t.d.site (21 + k) = 2
        ∧ (Heard s → ∀ x ∈ s.d.entries 3, s.d.swatchInStack x.2 k = true → Raises s t 0x09 3 (swProd x.2) (k * 2 ^ 62))))
    ∧ (∀ k, k < 4 → s.memOk → k ∈ s.d.rebuilding → Completes (.stackMirrorRebuilt k) s (fun t => t.pending = s.pending
        ∧ t.d = { s.d with rebuilding := s.d.rebuilding.filter (· ≠ k) }
        ∧ ∀ a, memByte t.mem a = if k * 0x1200000000 + 0x1000000000 ≤ a ∧ a < (k + 1) * 0x1200000000 then
            memByte s.mem (a - k * 0x1200000000 + (k / 2 * 2 + (1 - k % 2)) * 0x1200000000) else memByte s.mem a))

end

namespace Sys2Proof.Claims

open Sys2Proof.Machine

/-! ## Flits, packets and scheduling -/

/-- Nothing that the device has made waits to be routed, and no end point waits to be declared dead. -/
def Calm (s : State) : Prop := s.d.net.outbox = [] ∧ s.d.net.endsDown = []

/-- A counter counts: with the counters running, and the counter no high half of a pair and not chained, its VALUE grows. -/
def Counts (s t : State) (inst idx n : Nat) : Prop :=
  s.d.instOk inst = true → s.d.cutState = 0 → bitOf (s.d.rd .CNT_CHAIN inst) (idx / 2) = false →
    t.d.fld F.CNT_VAL_VALUE (inst * 64 + idx) = (s.d.fld F.CNT_VAL_VALUE (inst * 64 + idx) + n) % 2 ^ 48

/-- A native lane whose link runs gets a flit. -/
structure LinkTakes (s : State) (lane : Nat) : Prop where
  present : lane < s.d.nLanes
  native : s.d.ltype lane ≤ 1
  state : s.d.lstate lane ∈ [2, 3, 4, 5]
  reference : s.d.tmu.refOk = true

/-- A numbered flit is good and the next expected. -/
def NextGood (s : State) (lane : Nat) (f : Flit) : Prop := crcGood f = true ∧ fcwRseq f = (s.d.lane lane).rxNext

/-- Header fields of a head flit. -/
def headOpc (f : Flit) : Nat := bitsOf f 411 404
def headLen (f : Flit) : Nat := bitsOf f 403 397
def headDetour (f : Flit) : Bool := bitOf f 367
/-- Credit that the packet of a head takes, in flits: whole cells of four. -/
def headCredit (f : Flit) : Nat := 4 * ((headLen f + 1 + 3) / 4)
/-- A head of a packet that is not link-local. -/
def Routable (f : Flit) : Prop := ¬ (fcwVl f = 0 ∧ (headOpc f = 0x70 ∨ headOpc f = 0x71))
/-- The packet of a head comes on detour credit. -/
def OnDetour (s : State) (lane : Nat) (f : Flit) : Prop :=
  headDetour f = true ∧ s.d.ltype lane = 1 ∧ 1 ≤ fcwVl f ∧ fcwVl f ≤ 6

/-- The lane takes the flit from its peer: the next RSEQ is expected, and no replay is asked for. -/
def Took (s t : State) (lane : Nat) : Prop :=
  (t.d.lane lane).rxNext = ((s.d.lane lane).rxNext + 1) % 2048 ∧ (t.d.lane lane).replayReq = false

/-- A packet waits for a resequencing context. -/
def Waiting (p : Pkt) : Prop := ∃ l q, p.place = .rsqWait l q

/-- An update of one port's scheduler and of named registers, and no more. -/
def PortOnly (s t : State) (port : Nat) (may : RF → Nat → Prop) : Prop :=
  Only (fun d => { d with net := { d.net with ports := [] } }) s t may ∧ ∀ p, p ≠ port → t.d.port p = s.d.port p

/-- The list that a SWAP judges: entries 0 to LAST of the shadow list, from BASE. -/
def shadowOrder (s : State) (port : Nat) (w : Word) : RunOrder :=
  ⟨s.d.shadowList port (bitsOf w 59 52), s.d.fld F.PRT_RO_BASE_BASE port⟩

/-- A VL's share of the time in a running order, as the open time and the cycle; all of it where there is none. -/
def openShare (o : Option RunOrder) (v : Nat) : Nat × Nat :=
  match o with | some o => (o.openNs v, max 1 o.cycle) | none => (1, 1)

/-- A list changes no share of VL1 to VL6. -/
def SameShares (s : State) (port : Nat) (o : RunOrder) : Prop :=
  ∀ v, 1 ≤ v → v ≤ 6 → (openShare (s.d.port port).order v).1 * (openShare (some o) v).2 = (openShare (some o) v).1 * (openShare (s.d.port port).order v).2

/-- Judged as R130 and R133 say, the list may be swapped in. -/
structure MaySwap (s : State) (port : Nat) (w : Word) : Prop where
  domain : bitsOf w 51 44 = s.d.fld F.TMU_CTL_DOMAIN 0
  time : s.d.syncedNow = true
  early : s.d.timeNs + 10000 ≤ (shadowOrder s port w).base
  entries : ∀ e ∈ (shadowOrder s port w).entries, e.2 ≠ 0
  cycle : (shadowOrder s port w).cycle ≤ 16777215
  whole : s.d.vl7Of port (shadowOrder s port w) ≤ s.d.fld F.PRT_SCHED_VL7_RATE port ∨ s.d.breached port = false
  fits : (s.d.vl7Of port (shadowOrder s port w) ≤ s.d.fld F.PRT_SCHED_VL7_RATE port ∧ SameShares s port (shadowOrder s port w))
    ∨ s.d.commitsFit port (s.d.commits port) (s.d.vl7Of port (shadowOrder s port w)) (s.d.fld F.PRT_SCHED_COLL_RATE port)
    (some (shadowOrder s port w)) = true

/-- A minimum rate that a write asks for is admitted. -/
def RateFits (s : State) (port q : Nat) (w : Word) : Prop :=
  bitsOf w 63 50 = 0 ∨ (q / 8 ∈ [1, 2, 5, 6] ∧ (bitsOf w 63 50 ≤ s.d.fld F.PRT_QRATE_MIN_RATE (64 * port + q)
    ∨ (s.d.breached port = false ∧ s.d.commitsFit port (((s.d.commits port).filter (fun x => x.1 ≠ q)) ++ [(q, bitsOf w 63 50)])
        (s.d.fld F.PRT_SCHED_VL7_RATE port) (s.d.fld F.PRT_SCHED_COLL_RATE port) (s.d.port port).order = true)))

end Sys2Proof.Claims

section
open Sys2Proof Sys2Proof.Claims Sys2Proof.Machine

/-- A numbered flit that is bad or not the next expected is not taken: a replay is asked for, and nothing else changes. -/
def Obligations.ReplayRequest : Prop :=
  ∀ (s : State) (lane : Nat) (f : Flit), LinkTakes s lane → Calm s →
    ¬ ((crcGood f = true ∨ isStomp f = true) ∧ fcwRseq f = (s.d.lane lane).rxNext) →
    (fcwType f = 1 → exec (.headFlitArrival lane f) s = .next { s with d := s.d.setLane lane { s.d.lane lane with replayReq := true } })
    ∧ (2 ≤ fcwType f → exec (.bodyFlitArrival lane f) s = .next { s with d := s.d.setLane lane { s.d.lane lane with replayReq := true } })

/-- The four flits: a head takes its credit, or fails the lane without it, or is link-local; a body joins its packet; an
idle flit gives its totals; and one flit leaves at each boundary.
The model's choices: log entries 30, 31, 41, 45, 202, 225, 244. -/
def Obligations.FlitCommands : Prop :=
  ∀ (s : State) (lane : Nat) (f : Flit), LinkTakes s lane → Calm s →
    (fcwType f = 1 → NextGood s lane f → Routable f →
      (¬ OnDetour s lane f → headCredit f ≤ ((s.d.lv (8 * lane + fcwVl f)).nGrant + 2 ^ 24 - (s.d.lv (8 * lane + fcwVl f)).nRx) % 2 ^ 24 →
        Completes (.headFlitArrival lane f) s (fun t => Rest s t ∧ Took s t lane ∧ (∀ r i, r.busy = false → t.d.rd r i = s.d.rd r i)
          ∧ (t.d.lv (8 * lane + fcwVl f)).nRx = ((s.d.lv (8 * lane + fcwVl f)).nRx + headCredit f) % 2 ^ 24))
      ∧ (OnDetour s lane f → headCredit f ≤ ((s.d.lv (8 * lane + fcwVl f)).dGrant + 2 ^ 24 - (s.d.lv (8 * lane + fcwVl f)).dRx) % 2 ^ 24 →
        Completes (.headFlitArrival lane f) s (fun t => Rest s t ∧ Took s t lane ∧ (∀ r i, r.busy = false → t.d.rd r i = s.d.rd r i)
          ∧ (t.d.lv (8 * lane + fcwVl f)).dRx = ((s.d.lv (8 * lane + fcwVl f)).dRx + headCredit f) % 2 ^ 24))
      ∧ (¬ OnDetour s lane f → ((s.d.lv (8 * lane + fcwVl f)).nGrant + 2 ^ 24 - (s.d.lv (8 * lane + fcwVl f)).nRx) % 2 ^ 24 < headCredit f →
        3 ≤ s.d.lstate lane →
        Completes (.headFlitArrival lane f) s (fun t => Rest s t ∧ t.d.lstate lane = 6 ∧ t.d.fld F.PRT_LINK_STAT_CAUSE lane = 5)))
    ∧ (fcwType f = 1 → NextGood s lane f → ¬ Routable f → (s.d.lane lane).rxLow = none → 69 < headLen f →
        Completes (.headFlitArrival lane f) s (fun t => Took s t lane ∧ t.d.net.lvs = s.d.net.lvs
          ∧ (t.d.lane lane).linkRx = (s.d.lane lane).linkRx ∧ (t.d.lane lane).dropLow = true ∧ Counts s t (16 + lane) C.BAD_HEADER 1))
    ∧ (fcwType f = 1 → NextGood s lane f → ¬ Routable f → (s.d.lane lane).rxLow = none → headLen f ≤ 69 →
        Completes (.headFlitArrival lane f) s (fun t => Took s t lane ∧ t.d.net.lvs = s.d.net.lvs
          ∧ (t.d.lane lane).linkRx = (s.d.lane lane).linkRx ++ [⟨headOpc f == 0x71, BitVec.ofNat 352 (bitsOf f 367 16)⟩]))
    ∧ (∀ i p, 2 ≤ fcwType f → NextGood s lane f →
        (if fcwVl f = 7 then (s.d.lane lane).rxHigh = some i ∧ (s.d.lane lane).dropHigh = false
          else (s.d.lane lane).rxLow = some i ∧ (s.d.lane lane).dropLow = false) →
        s.d.pkt i = some p → p.place ≠ .drain → p.vlIn = fcwVl f → (p.body.length + 1 = p.len ↔ fcwType f = 3) →
        Completes (.bodyFlitArrival lane f) s (fun t => Took s t lane
          ∧ t.d.pkt i = some { p with body := p.body ++ [BitVec.ofNat 480 (bitsOf f 495 16)], whole := fcwType f == 3 }
          ∧ (fcwType f = 3 → (if fcwVl f = 7 then (t.d.lane lane).rxHigh else (t.d.lane lane).rxLow) = none)))
    ∧ (fcwType f = 0 → crcGood f = true → bitOf f 494 = false →
        Completes (.idleFlitArrival lane f) s (fun t => Rest s t
          ∧ (t.d.lane lane).peerServing = bitOf f 495
          ∧ (∀ v, v < 8 → (t.d.lv (8 * lane + v)).nTot = bitsOf f (479 - 24 * v) (456 - 24 * v))
          ∧ (∀ v, 1 ≤ v → v ≤ 6 → (t.d.lv (8 * lane + v)).dTot = bitsOf f (287 - 24 * (v - 1)) (264 - 24 * (v - 1)))
          ∧ (bitOf f 143 = true → t.d.fld F.WNG_LANE_STAT_FAR_MARGIN (lane / 64 * 65 + lane % 64) = bitsOf f 137 128)
          ∧ (∀ r, ackThrough (s.d.lane lane).replay (bitsOf f 490 480) = some r → (t.d.lane lane).replay = r)))
    ∧ ((s.d.lane lane).muted = false →
        (∀ i p, (s.d.lane lane).txLow = some i ∨ (s.d.lane lane).txHigh = some i → s.d.pkt i = some p → 1 ≤ p.sent) →
        Completes (.transmitFlit lane) s (fun t => Rest s t ∧ ∃ g l, t.d.out = s.d.out ++ .flit lane g :: l
          ∧ (∀ x ∈ l, ∃ port pri off, x = .pfc port pri off)
          ∧ (255 ≤ (s.d.lane lane).sinceIdle ∨ s.d.fld F.GLB_SEAM_STAT_STATE (lane / 64 + 1) = 3 → fcwType g = 0 ∧ crcGood g = true ∧ (t.d.lane lane).sinceIdle = 0)
          ∧ (∀ h r, (s.d.lane lane).sinceIdle < 255 → s.d.fld F.GLB_SEAM_STAT_STATE (lane / 64 + 1) ≠ 3 → (s.d.lane lane).resend = h :: r → g = h ∧ (t.d.lane lane).resend = r)))

/-- Timers of the packet path: a head that waited takes its lane, an open packet whose rest does not come ends stomped, an
origin's way is free, and the resequencer learns, skips a gap, and releases a context.
The model's choices: log entries 23, 24, 35, 48, 246. -/
def Obligations.PacketTimers : Prop :=
  ∀ s : State, Calm s →
    (∀ (p : Pkt) (set : Nat) (det : Bool) (l n : Nat) (d2 : Dev), s.d.net.pkts = [p] → p.place = .ingress → p.buf ≠ 0 →
      p.internal = false → p.psnValid = true ∨ p.takesPsn = false ∨ n < 2 → p.route = some (.set set det) → s.d.collWaits p = false →
      s.d.select p set det = (.lane l n, d2) → s.d.ltype l = 1 →
      Completes (.memberSelectionRetry p.id) s (fun t => Quiet s t ∧ ∃ q, t.d.net.pkts = [q] ∧ q.id = p.id
        ∧ q.place = .queue l q.qIdx ∧ q.hops = p.hops - 1 ∧ q.dst = p.dst ∧ q.pay = p.pay ∧ q.body = p.body))
    ∧ (∀ (lane : Nat) (timed : Bool) (p : Pkt) (q : Nat), lane < s.d.nLanes →
      (if timed = true then (s.d.lane lane).txHigh = some p.id else (s.d.lane lane).txLow = some p.id) →
      s.d.pkt p.id = some p → p.place = .queue lane q → p.vl ≠ 1 → p.nextHere = false →
      Completes (.holdLimitExpiry lane timed) s (fun t => Rest s t
        ∧ t.d.pkt p.id = some { p with bad := true, whole := true } ∧ Counts s t 2 2 1))
    ∧ (∀ src dst vl, (∀ p ∈ s.d.net.pkts, p.place ≠ .ingress) →
      Completes (.originIdleExpiry src dst vl) s (fun t => t = { s with d := t.d } ∧ t.d = s.d.setOrigins (s.d.net.origins.map
        (fun o => if o.src = src ∧ o.dst = dst ∧ o.vl = vl then { o with idle := true } else o))))
    ∧ (∀ (src dst : BitVec 32) (vl : Nat) (pv : Bool) (c : Ctx), s.d.ctx ⟨src, dst, vl, pv⟩ = some c →
      (c.learning = true → Completes (.rsqLearnExpiry src dst vl pv) s (fun t => Quiet s t
        ∧ ∃ c', t.d.ctx ⟨src, dst, vl, pv⟩ = some c' ∧ c'.learning = false))
      ∧ (∀ h lane q, c.gapOn = true → c.learning = false → c.next ≠ h.rsqNo → s.d.heldOf ⟨src, dst, vl, pv⟩ = [h] → h.place = .held lane q → lane ≠ 1025 →
          s.d.laneLive lane = true → h.vl ≠ 1 → c.vl ≠ 1 → h.bad = false → (∀ p ∈ s.d.net.pkts, ¬ Waiting p) →
          (c.vl = 5 → (s.d.lv (8 * 1024 + h.vl)).resUsed < (s.d.lv (8 * 1024 + h.vl)).resCap) →
          Completes (.rsqGapExpiry src dst vl pv) s (fun t => Quiet s t
            ∧ (∃ c', t.d.ctx ⟨src, dst, vl, pv⟩ = some c' ∧ c'.next = (h.rsqNo + 1) % 2 ^ 24 ∧ c'.gapOn = false)
            ∧ (∃ p ∈ t.d.net.pkts, p.id = h.id ∧ p.place = .queue lane h.qIdx)
            ∧ (c.vl ≠ 5 → Counts s t 2 7 (delta h.rsqNo c.next 24))
            ∧ (c.vl = 5 → ∃ g p, g ∈ t.d.net.pkts ∧ p ∈ t.d.net.pkts ∧ p.id = h.id ∧ g.stamp < p.stamp ∧ g.place = .queue lane h.qIdx
                ∧ g.opc = 2 ∧ g.dst = h.dst ∧ g.src = h.src ∧ g.at 4 4 = c.next % 2 ^ 32 ∧ g.at 8 4 = delta h.rsqNo c.next 24)))
      ∧ (c.gapOn = false → c.learning = false → s.d.heldOf ⟨src, dst, vl, pv⟩ = [] → (vl = 1 → (s.d.flow src dst).outA = 0) →
          (∀ p ∈ s.d.net.pkts, ¬ Waiting p) →
          Completes (.rsqIdleExpiry src dst vl pv) s (fun t => Quiet s t ∧ t.d.ctx ⟨src, dst, vl, pv⟩ = none
            ∧ ∀ k, k ≠ ⟨src, dst, vl, pv⟩ → t.d.ctx k = s.d.ctx k)))

/-- Buckets on the wheel, gates at an entry's edge, and timed launch.
The model's choices: log entry 62. -/
def Obligations.WheelGatesLaunch : Prop :=
  ∀ (s : State) (port : Nat), port < s.d.nLanes →
    (∀ (b : BucketId) (w : Nat), (s.d.bucket port b).wheel = some w → (s.d.bucket port b).far = false → s.d.sinceFrc w < 2 ^ 63 →
      Completes (.bucketWheelExpiry port b) s (fun t => PortOnly s t port (fun _ _ => False)
        ∧ t.d.bucket port b = { s.d.bucket port b with wheel := none }))
    ∧ (∀ slot, Completes (.overflowSlotEmpty slot) s (fun t => Only (fun d => { d with net := { d.net with ports := [] } }) s t (fun _ _ => False)
        ∧ ∀ l b, t.d.bucket l b = match (s.d.bucket l b).wheel with
          | some w => if (s.d.bucket l b).far = true ∧ w / (65536 * 65536) % 1024 = slot then { s.d.bucket l b with far := false } else s.d.bucket l b
          | none => s.d.bucket l b))
    ∧ (∀ o, s.d.activeOrder port = some o → Completes (.gateEdge port) s (fun t =>
        t.d.fld F.PRT_RO_CTL_ENTRY port = (entryAt o.entries (s.d.cyclePos o) 0).1 % 256
        ∧ Only id s t (fun r i => r = .PRT_RO_CTL ∧ i = port)))
    ∧ (∀ e, e < 64 → s.d.fld F.PRT_LAUNCH_VALID (64 * port + e) = 1 → s.d.syncedNow = true →
        delta (s.d.timeNs % 2 ^ 48) (s.d.fld F.PRT_LAUNCH_TIME (64 * port + e)) 48 < 2 ^ 47 →
        Completes (.launchFire port e) s (fun t => t.d.fld F.PRT_LAUNCH_VALID (64 * port + e) = 0
          ∧ (t.d.port port).release.get 0 (s.d.fld F.PRT_LAUNCH_TC (64 * port + e))
            = (s.d.port port).release.get 0 (s.d.fld F.PRT_LAUNCH_TC (64 * port + e)) + s.d.fld F.PRT_LAUNCH_COUNT (64 * port + e)
          ∧ (e ∈ (s.d.port port).late → Counts s t (16 + port) 18 1)
          ∧ PortOnly s t port (fun r i => r = .PRT_LAUNCH ∧ i = 64 * port + e)))
    ∧ (∀ tc, tc < 8 → Completes (.launchWindowExpiry port tc) s (fun t => (t.d.port port).release.get 0 tc = 0
        ∧ Counts s t (16 + port) 19 ((s.d.port port).release.get 0 tc) ∧ PortOnly s t port (fun _ _ => False)))
    ∧ (∀ tc p, tc < 8 → s.d.queueFront port (56 + tc) = some p → s.d.tcHeld port tc = true → p.free = false →
        Completes (.launchHoldMaxExpiry port tc) s (fun t => Rest s t ∧ Counts s t (16 + port) 20 1
          ∧ ∃ q, t.d.pkt p.id = some q ∧ q.free = true ∧ q.place = ((s.d.pkt p.id).map (·.place)).getD q.place))

/-- Running orders: swapped in, activated, stopped and resumed; a swap in the wrong domain is refused.
The model's choices: log entries 59, 60, 61, 238. -/
def Obligations.RunningOrders : Prop :=
  ∀ (s : State) (m : Master) (port : Nat) (w : Word), port < 1024 →
    (Reaches s m .PRT_RO_CTL port w → bitsOf w 63 63 = 1 → bitsOf w 62 62 = 1 → s.d.fld F.PRT_RO_CTL_SWAP port = 0 →
      (MaySwap s port w → Completes (.roSwap m port w) s (fun t => Answers t 0
        ∧ (t.d.port port).pendingOrder = some (shadowOrder s port w) ∧ (t.d.port port).order = (s.d.port port).order
        ∧ t.d.fld F.PRT_RO_CTL_SWAP port = 1 ∧ t.d.fld F.PRT_RO_CTL_STATE port = (if (s.d.port port).suspended then 3 else 2)
        ∧ PortOnly s t port (fun r i => r = .PRT_RO_CTL ∧ i = port)))
      ∧ (bitsOf w 51 44 ≠ s.d.fld F.TMU_CTL_DOMAIN 0 → Completes (.roSwap m port w) s (fun t => Answers t 0
        ∧ t.d.fld F.PRT_RO_CTL_SWAP port = 0 ∧ Only id s t (fun r i => r = .PRT_RO_CTL ∧ i = port)
        ∧ (Heard s → Raises s t 0x34 1 (bitsOf w 43 32) (port * 2 ^ 48)))))
    ∧ (Reaches s m .PRT_RO_CTL port w → bitsOf w 63 63 = 0 → Completes (.roStop m port w) s (fun t => Answers t 0
        ∧ (t.d.port port).order = none ∧ (t.d.port port).pendingOrder = none
        ∧ t.d.fld F.PRT_RO_CTL_EN port = 0 ∧ t.d.fld F.PRT_RO_CTL_STATE port = 0 ∧ t.d.fld F.PRT_SCHED_VL7_RATE port = 0
        ∧ PortOnly s t port (fun r i => (r = .PRT_RO_CTL ∨ r = .PRT_SCHED) ∧ i = port)))
    ∧ (∀ o, port < s.d.nLanes → (s.d.port port).pendingOrder = some o → s.d.fld F.PRT_RO_CTL_SWAP port = 1 → o.base ≤ s.d.timeNs →
        s.d.fld F.PRT_RO_CTL_EN port = 1 → (s.d.port port).suspended = false →
        Completes (.roActivate port) s (fun t => (t.d.port port).order = some o ∧ (t.d.port port).pendingOrder = none
          ∧ t.d.fld F.PRT_RO_CTL_SWAP port = 0 ∧ t.d.fld F.PRT_RO_CTL_STATE port = 1
          ∧ t.d.fld F.PRT_RO_CTL_ACTIVE_LAST port = (o.entries.length - 1) % 256
          ∧ t.d.fld F.PRT_SCHED_VL7_RATE port = s.d.vl7Of port o % 2 ^ 14
          ∧ (s.d.ltype port ≤ 1 → s.d.fld F.PRT_PEER_LEVEL port < 2 → (t.d.port port).grVl7 = 0)
          ∧ t.d.fld F.PRT_RO_CTL_ENTRY port = (entryAt o.entries (s.d.cyclePos o) 0).1 % 256
          ∧ PortOnly s t port (fun r i => (r = .PRT_RO_CTL ∨ r = .PRT_SCHED) ∧ i = port ∨ s.d.breached port = true ∧ r = .PRT_QOWN ∧ i / 64 = port)))
    ∧ (∀ o, port < s.d.nLanes → (s.d.port port).suspended = true → (s.d.port port).order = some o → s.d.syncedNow = true →
        s.d.fld F.PRT_RO_CTL_EN port = 1 → ∀ c, (s.d.port port).resumeFrom = some c → c < s.d.cycleNo o →
        Completes (.roResume port) s (fun t => (t.d.port port).suspended = false ∧ (t.d.port port).order = some o
          ∧ t.d.fld F.PRT_RO_CTL_STATE port = (if s.d.fld F.PRT_RO_CTL_SWAP port = 1 then 2 else 1)
          ∧ t.d.fld F.PRT_RO_CTL_ENTRY port = (entryAt o.entries (s.d.cyclePos o) 0).1 % 256
          ∧ PortOnly s t port (fun r i => r = .PRT_RO_CTL ∧ i = port)))

/-- Queue rates and owners: what is admitted, what is refused, and what capacity that falls leaves granted.
The model's choices: log entries 57, 58, 61, 107, 239. -/
def Obligations.RatesAndGrants : Prop :=
  ∀ (s : State) (m : Master) (port q : Nat) (w : Word), port < 1024 → q < 64 →
    (Reaches s m .PRT_QRATE (64 * port + q) w →
      (RateFits s port q w → Completes (.qrateWrite m port q w) s (fun t => Answers t 0
        ∧ t.d.fld F.PRT_QRATE_MIN_RATE (64 * port + q) = bitsOf w 63 50 ∧ t.d.fld F.PRT_QRATE_MAX_RATE (64 * port + q) = bitsOf w 49 36
        ∧ t.d.fld F.PRT_QRATE_WEIGHT (64 * port + q) = bitsOf w 35 28 ∧ t.d.fld F.PRT_QRATE_BURST (64 * port + q) = bitsOf w 27 12
        ∧ t.d.fld F.PRT_SCHED_COMMITTED port = (s.d.fld F.PRT_SCHED_VL7_RATE port + s.d.fld F.PRT_SCHED_COLL_RATE port
            + (t.d.commits port).foldl (fun a x => a + x.2) 0) % 2 ^ 14
        ∧ PortOnly s t port (fun r i => r = .PRT_QRATE ∧ i = 64 * port + q ∨ r = .PRT_QOWN ∧ i = 64 * port + q ∨ r = .PRT_SCHED ∧ i = port)))
      ∧ (bitsOf w 63 50 ≠ 0 → q / 8 ∉ [1, 2, 5, 6] → Completes (.qrateWrite m port q w) s (fun t => Answers t 0
        ∧ t.d.fld F.PRT_SCHED_REFUSED port = min (s.d.fld F.PRT_SCHED_REFUSED port + 1) 255
        ∧ Only id s t (fun r i => r = .PRT_SCHED ∧ i = port)
        ∧ (Heard s → Raises s t 0x33 1 (s.d.fld F.PRT_QOWN_PROD (64 * port + q)) (port * 2 ^ 48)))))
    ∧ (Reaches s m .PRT_QOWN (64 * port + q) w →
      (s.d.fld F.PRT_QRATE_MIN_RATE (64 * port + q) = 0 → Completes (.qownWrite m port q w) s (fun t => Answers t 0
        ∧ t.d.fld F.PRT_QOWN_PROD (64 * port + q) = bitsOf w 63 52 ∧ t.d.fld F.PRT_QOWN_TIER (64 * port + q) = bitsOf w 51 50
        ∧ Only id s t (fun r i => r = .PRT_QOWN ∧ i = 64 * port + q)))
      ∧ (s.d.fld F.PRT_QRATE_MIN_RATE (64 * port + q) ≠ 0 → Completes (.qownWrite m port q w) s (fun t => Answers t 0
        ∧ Only id s t (fun _ _ => False)
        ∧ (Heard s → Raises s t 0x33 1 (s.d.fld F.PRT_QOWN_PROD (64 * port + q)) (port * 2 ^ 48)))))
    ∧ (port < s.d.nLanes → Completes (.grantedRecompute (.port port)) s (fun t =>
        PortOnly s t port (fun r i => r = .PRT_QOWN ∧ i / 64 = port)
        ∧ (t.d.port port).grVl7 ≤ s.d.fld F.PRT_SCHED_VL7_RATE port
        ∧ (∀ k, k < 64 → s.d.fld F.PRT_QRATE_MIN_RATE (64 * port + k) ≠ 0 →
            t.d.fld F.PRT_QOWN_GRANTED (64 * port + k) ≤ s.d.fld F.PRT_QRATE_MIN_RATE (64 * port + k)
            ∧ (t.d.fld F.PRT_QOWN_BREACHED (64 * port + k) = 1 ↔
                t.d.fld F.PRT_QOWN_GRANTED (64 * port + k) < s.d.fld F.PRT_QRATE_MIN_RATE (64 * port + k)))
        ∧ ((s.d.fld F.PRT_SCHED_VL7_RATE port + ((s.d.port port).coll.map (·.2)).sum + ((s.d.commits port).map (·.2)).sum)
              * (s.d.admitCap port).2 ≤ (s.d.admitCap port).1 →
            ∀ k, k < 64 → s.d.fld F.PRT_QRATE_MIN_RATE (64 * port + k) ≠ 0 →
              t.d.fld F.PRT_QOWN_GRANTED (64 * port + k) = s.d.fld F.PRT_QRATE_MIN_RATE (64 * port + k))))
    ∧ (∀ k, k < 4 → (∀ i ∈ (s.d.loom k).imgs, i.lack = false) →
        reservedAll (s.d.loom k).imgs Image.redRate * (s.d.loomCap k).2 ≤ (s.d.loomCap k).1 →
        Completes (.grantedRecompute (.loom k)) s (fun t => Rest s t ∧ (t.d.loom k).grants = []))

end

namespace Sys2Proof.Claims

open Sys2Proof.Machine

/-! ## Tables -/

/-- The fields of TBL_CMD. -/
structure CmdIs (w : Word) (op table : Nat) (byKey : Bool) (idx idx2 : Nat) : Prop where
  op : bitsOf w 63 60 = op
  table : bitsOf w 59 56 = table
  byKey : bitOf w 55 = byKey
  idx : bitsOf w 51 32 = idx
  idx2 : bitsOf w 31 12 = idx2

/-- What stands beside the registers but for the tables. -/
def noTab (d : Dev) : Dev :=
  { d with tab := {}, ecc := [], eccSoft := [], net := { d.net with pol := [], sprayPtr := [], downLost := [] } }

/-- A table command is taken where none runs, and is an overrun where one runs. -/
def StartsTable (c : Instr) (m : Master) (s : State) (op table : Nat) (byKey : Bool) (idx idx2 : Nat) : Prop :=
  (∀ w, Reaches s m .TBL_CMD 0 w) → table < 6 → idx < 2 ^ 20 → idx2 < 2 ^ 20 →
    (s.d.fld F.TBL_STAT_BUSY 0 = 0 → Completes c s (fun t => Answers t 0 ∧ t.d.fld F.TBL_STAT_BUSY 0 = 1
      ∧ (∃ w, CmdIs w op table byKey idx idx2 ∧ t.d.tab = { s.d.tab with cmd := some w })
      ∧ Only noTab s t (fun r _ => r = .TBL_STAT)))
    ∧ (s.d.fld F.TBL_STAT_BUSY 0 = 1 → Completes c s (fun t => Answers t 0 ∧ t.d.fld F.TBL_STAT_OVERRUN 0 = 1
      ∧ t.d.fld F.TBL_STAT_BUSY 0 = 1 ∧ Counts s t 1 0 1 ∧ Only id s t (fun r _ => r = .TBL_STAT)))

/-- The running command has this outcome: RESULT, and INDEX where it names one; BUSY falls and DONE_COUNT moves on. -/
def Ends (s : State) (res : Nat) (idx : Option Nat) (Q : State → Prop) : Prop :=
  Completes .tblCmdDone s (fun t => t.d.fld F.TBL_STAT_RESULT 0 = res
    ∧ t.d.fld F.TBL_STAT_INDEX 0 = idx.getD (s.d.fld F.TBL_STAT_INDEX 0)
    ∧ t.d.fld F.TBL_STAT_BUSY 0 = 0 ∧ t.d.fld F.TBL_STAT_DONE_COUNT 0 = (s.d.fld F.TBL_STAT_DONE_COUNT 0 + 1) % 2 ^ 32
    ∧ t.d.tab.cmd = none ∧ Only noTab s t (fun r _ => r = .TBL_STAT ∨ r = .TBL_DATA ∨ r = .PRT_LEARN) ∧ Q t)

/-- No entry of any table has changed. -/
def EntriesKept (s t : State) : Prop := ∀ a i, t.d.ent a i = s.d.ent a i

/-- Word n of an entry as READ gives it: with the VALID bit of its table. -/
def validAt (table : Nat) : Nat × Nat := if table = 0 then (7, 63) else if table = 1 then (2, 62) else if table = 3 then (4, 30) else (1, 63)

/-- A table is open to commands: an index inside it, and the two lookup tables not opened for DMA. -/
def TableTakes (s : State) (table idx : Nat) : Prop :=
  idx < s.d.tblSize table ∧ (table ≤ 1 → s.d.fld F.TBL_DMA_LOCK_STATE 0 ≠ 1)

/-- Entry i of table a holds `o`, and no other entry of any table has changed. -/
def EntryOnly (s t : State) (table idx : Nat) (o : Option (BitVec 512)) : Prop :=
  t.d.ent table idx = o ∧ ∀ a i, ¬ (a = table ∧ i = idx) → a < 6 → i < 2 ^ 20 → t.d.ent a i = s.d.ent a i

/-- The same, for an entry that is VALID after it. -/
def EntryOnlyAt (s : State) (table idx : Nat) (e : BitVec 512) (t : State) : Prop := EntryOnly s t table idx (some e)

/-- A hardware write of the tables while a command runs is held back, and does nothing else yet (R82). -/
def HeldBack (s : State) (c : Instr) (h : HwWrite) : Prop :=
  exec c s = .next { s with d := { s.d with tab := { s.d.tab with waiting := s.d.tab.waiting ++ [h] } } }

/-- A stack of pair A serves. -/
def PairServes (s : State) : Prop := s.d.stackUp 0 = true ∨ s.d.stackUp 1 = true

/-- The committed copy of an entry can be read. -/
def CopyReads (s : State) (key : Nat) : Prop := s.d.carveStack 0 (copyOff key) 64 ≠ none

end Sys2Proof.Claims

section
open Sys2Proof Sys2Proof.Claims Sys2Proof.Machine

/-- Table commands: each is taken by a write of TBL_CMD, and at its end gives its RESULT and its effect.
The model's choices: log entries 64, 65, 66, 67, 68, 69, 218, 219, 220. -/
def Obligations.TableCommands : Prop :=
  ∀ (s : State) (m : Master) (table idx idx2 : Nat),
    StartsTable (.tblRead m table idx) m s 1 table false idx 0
    ∧ StartsTable (.tblWrite m table idx) m s 2 table false idx 0
    ∧ StartsTable (.tblInsert m table) m s 3 table false 0 0
    ∧ (∀ k, StartsTable (.tblDelete m table k idx) m s 4 table k idx 0)
    ∧ StartsTable (.tblMove m table idx idx2) m s 5 table false idx idx2
    ∧ StartsTable (.tblSearch m table idx) m s 6 table false idx 0
    ∧ (Calm s → s.d.tab.waiting = [] → ∀ (w : Word) (op : Nat) (k : Bool), s.d.tab.cmd = some w → CmdIs w op table k idx idx2 → table < 6 →
      ((op = 4 ∧ k = true ∧ 2 ≤ table ∨ 2 ≤ table ∧ (op = 3 ∨ op = 5 ∨ op = 6) ∨ table = 1 ∧ op = 5) →
        (table ≤ 1 → s.d.fld F.TBL_DMA_LOCK_STATE 0 ≠ 1) → Ends s 8 none (EntriesKept s))
      ∧ (op = 1 ∨ op = 2 → s.d.tblSize table ≤ idx → (table ≤ 1 → s.d.fld F.TBL_DMA_LOCK_STATE 0 ≠ 1) → Ends s 4 none (EntriesKept s))
      ∧ (1 ≤ op → op ≤ 6 → table ≤ 1 → s.d.fld F.TBL_DMA_LOCK_STATE 0 = 1 → Ends s 7 none (EntriesKept s))
      ∧ (op = 1 → TableTakes s table idx → s.d.ent table idx = none →
          Ends s 0 (some idx) (fun t => ∀ n, n < 8 → t.d.rd .TBL_DATA n = 0))
      ∧ (∀ e, op = 1 → TableTakes s table idx → table ≠ 2 → table ≠ 5 → s.d.ent table idx = some e →
          Ends s 0 (some idx) (fun t => ∀ n hi lo, n < 8 → hi < 64 → lo ≤ hi →
            (n = (validAt table).1 → ¬ (lo ≤ (validAt table).2 ∧ (validAt table).2 ≤ hi)) →
            bitsOf (t.d.rd .TBL_DATA n) hi lo = dataOf e n hi lo))
      ∧ (op = 2 → table = 5 → TableTakes s table idx →
          (polPir s.d.staged < polCir s.d.staged ∨ polCbs s.d.staged < 4480 ∨ polPbs s.d.staged < 4480 → Ends s 5 none (EntriesKept s))
          ∧ (polCir s.d.staged ≤ polPir s.d.staged → 4480 ≤ polCbs s.d.staged → 4480 ≤ polPbs s.d.staged →
              polY s.d.staged ≠ 3 → polR s.d.staged ≠ 3 →
              Ends s 0 (some idx) (fun t => (∃ e, t.d.ent 5 idx = some e ∧ polCir e = polCir s.d.staged ∧ polPir e = polPir s.d.staged
                  ∧ polCbs e = polCbs s.d.staged ∧ polPbs e = polPbs s.d.staged)
                ∧ ∀ a i, ¬ (a = 5 ∧ i = idx) → a < 6 → i < 2 ^ 20 → t.d.ent a i = s.d.ent a i)))
      ∧ (op = 4 → k = false → TableTakes s table idx → table ∈ [0, 1, 3, 5] →
          Ends s 0 (some idx) (fun t => EntryOnly s t table idx none))
      ∧ (op = 2 → table = 2 → TableTakes s table idx → sprayOk s.d.staged = true →
          (idx % 2 = 0 → Ends s 0 (some idx) (fun t => EntriesKept s t ∧ t.d.tab.staged.find (idx / 2) = some (sprayClean s.d.staged)))
          ∧ (∀ x, idx % 2 = 1 → s.d.tab.staged.find (idx / 2) = some x → x ≠ 0 → sprayClean s.d.staged ≠ 0 →
              Ends s 0 (some idx) (fun t => t.d.ent 2 (idx - 1) = some x ∧ t.d.ent 2 idx = some (sprayClean s.d.staged)
                ∧ t.d.tab.staged.find (idx / 2) = none
                ∧ ∀ a i, ¬ (a = 2 ∧ (i = idx ∨ i = idx - 1)) → a < 6 → i < 2 ^ 20 → t.d.ent a i = s.d.ent a i)))
      ∧ (op = 2 → table = 2 → TableTakes s table idx → sprayOk s.d.staged = false → Ends s 5 none (EntriesKept s))
      ∧ (∀ i, op = 3 → table = 1 → TableTakes s table idx → exOk s.d.staged = true → s.d.exFind (exKeyOf s.d.staged) = some i →
          Ends s 1 (some (i % 2 ^ 20)) (EntryOnlyAt s 1 i (exClean s.d.staged)))
      ∧ (op = 6 → table = 1 → TableTakes s table idx →
          (∀ i, s.d.exFind (exKeyOf s.d.staged) = some i → Ends s 0 (some (i % 2 ^ 20)) (EntriesKept s))
          ∧ (s.d.exFind (exKeyOf s.d.staged) = none → Ends s 2 none (EntriesKept s)))
      ∧ (∀ i, op = 3 → table = 1 → TableTakes s table idx → exOk s.d.staged = true → s.d.exFind (exKeyOf s.d.staged) = none →
          i ∈ s.d.exWays (exKeyOf s.d.staged) → s.d.ent 1 i = none →
          Completes .tblCmdDone s (fun t => t.d.fld F.TBL_STAT_RESULT 0 = 0 ∧ Only noTab s t (fun r _ => r = .TBL_STAT)
            ∧ ∃ j ∈ s.d.exWays (exKeyOf s.d.staged), s.d.ent 1 j = none ∧ t.d.fld F.TBL_STAT_INDEX 0 = j
              ∧ (∃ e, t.d.ent 1 j = some e ∧ exKeyOf e = exKeyOf s.d.staged ∧ exStatic e = true ∧ exTarget e = exTarget s.d.staged)
              ∧ ∀ x, x ≠ j → t.d.ent 1 x = s.d.ent 1 x))
      ∧ (op = 2 → table = 0 → TableTakes s table idx → 1024 ≤ idx → tcamOk s.d.staged = true →
          kindSuits (tcamKind s.d.staged) (s.d.tcamPart idx) = true →
          ((s.d.setEnt 0 idx (tcamClean s.d.staged)).partOrdered (s.d.tcamPart idx) = false → Ends s 6 none (EntriesKept s))
          ∧ ((s.d.setEnt 0 idx (tcamClean s.d.staged)).partOrdered (s.d.tcamPart idx) = true →
              Ends s 0 (some idx) (EntryOnlyAt s 0 idx (tcamClean s.d.staged)))))

/-- What keeps the tables: partition size, the compatible image and its commit, the scrubber, provisional exceptions, the
collective pool, and ensembles.
The model's choices: log entries 54, 70, 71, 72, 106, 217, 221, 223, 236. -/
def Obligations.TableUpkeep : Prop :=
  ∀ (s : State) (m : Master) (w : Word),
    (Reaches s m .TBL_TCAM_PART 0 w →
      (s.d.entries 0 = [] → Completes (.tblTcamPartWrite m w) s (fun t => Answers t 0
        ∧ t.d.fld F.TBL_TCAM_PART_COORD_SLOTS 0 = bitsOf w 16 0 ∧ Only id s t (fun r _ => r = .TBL_TCAM_PART)))
      ∧ (∀ i e, (i, e) ∈ s.d.entries 0 → 1024 ≤ i → i < 131072 → tcamKind e = 2 → s.d.fld F.TBL_DMA_LOCK_COMPAT 0 = 0 → bitsOf w 16 0 = 130048 →
          Completes (.tblTcamPartWrite m w) s (fun t => Answers t 0 ∧ Only id s t (fun _ _ => False)
            ∧ (Heard s → Raises s t 0x21 2 0 0))))
    ∧ (Reaches s m .TBL_DMA_LOCK 0 w →
      (s.d.tablesEmpty = true → s.d.fld F.TBL_DMA_LOCK_STATE 0 = 0 → bitOf w 63 = false → s.d.fld F.TBL_DMA_LOCK_COMPAT 0 = 0 →
        bitOf w 62 = true → Completes (.tblCompatWrite m w) s (fun t => Answers t 0 ∧ t.d.fld F.TBL_DMA_LOCK_COMPAT 0 = 1
          ∧ t.d.tblSize 0 = 66048 ∧ t.d.tblSize 1 = 524288 ∧ Only id s t (fun r _ => r = .TBL_DMA_LOCK)))
      ∧ (bitOf w 62 = true → s.d.fld F.TBL_DMA_LOCK_COMPAT 0 = 0 → s.d.tablesEmpty = false →
        Completes (.tblCompatWrite m w) s (fun t => Answers t 0 ∧ Only id s t (fun _ _ => False) ∧ (Heard s → Raises s t 0x22 2 0 0)))
      ∧ (bitOf w 63 = true → bitOf w 62 = true → s.d.fld F.TBL_DMA_LOCK_COMPAT 0 = 1 → s.d.fld F.TBL_DMA_LOCK_STATE 0 = 0 →
        Completes (.tblDmaOpen m w) s (fun t => Answers t 0 ∧ t.d.fld F.TBL_DMA_LOCK_STATE 0 = 1
          ∧ Only id s t (fun r _ => r = .TBL_DMA_LOCK)))
      ∧ (bitOf w 63 = false → bitOf w 62 = true → s.d.fld F.TBL_DMA_LOCK_COMPAT 0 = 1 → s.d.fld F.TBL_DMA_LOCK_STATE 0 = 1 →
        Completes (.tblDmaCommit m w) s (fun t => Answers t 0 ∧ t.d.fld F.TBL_DMA_LOCK_STATE 0 = 2
          ∧ Only id s t (fun r _ => r = .TBL_DMA_LOCK)))
      ∧ (s.d.fld F.TBL_DMA_LOCK_STATE 0 = 2 → bitsOf w 62 62 = s.d.fld F.TBL_DMA_LOCK_COMPAT 0 → Completes (.tblDmaCommit m w) s (fun t => Answers t 0 ∧ Only id s t (fun _ _ => False))))
    ∧ (s.d.fld F.TBL_DMA_LOCK_STATE 0 = 2 →
      (∀ k, k = 0 ∧ s.d.stackUp 0 = true ∨ k = 1 ∧ s.d.stackUp 0 = false ∧ s.d.stackUp 1 = true →
        (∀ a, k * 0x1200000000 + 0x1050000000 ≤ a → a < k * 0x1200000000 + 0x1054000000 → memByte s.mem a = 0) → s.memOk →
        Completes .tblDmaCommitDone s (fun t => t.d.fld F.TBL_DMA_LOCK_STATE 0 = 0 ∧ (Heard s → Raises s t 0x23 2 0 0)
          ∧ (∀ i, 1024 ≤ i → i < 2 ^ 20 → t.d.ent 0 i = none) ∧ (∀ i, i < 2 ^ 20 → t.d.ent 1 i = none)
          ∧ (∀ a i, 2 ≤ a → a < 6 → i < 2 ^ 20 → t.d.ent a i = s.d.ent a i)
          ∧ Only noTab s t (fun r _ => r = .TBL_DMA_LOCK ∨ r = .PRT_LEARN)))
      ∧ (¬ PairServes s → Completes .tblDmaCommitDone s (fun t => t.d.fld F.TBL_DMA_LOCK_STATE 0 = 3
          ∧ (Heard s → Raises s t 0x24 2 0 0) ∧ Only id s t (fun r _ => r = .TBL_DMA_LOCK))))
    ∧ (s.d.tab.cmd = none → PairServes s → Completes .scrubCycle s (fun t => t.d.tab.parity = []
        ∧ Only noTab s t (fun r _ => r = .TBL_DOWN ∨ r = .TBL_UP ∨ r = .PRT_LEARN)
        ∧ ∀ a i, tblKey a i ∉ s.d.tab.parity ∨ CopyReads s (tblKey a i) → t.d.ent a i = s.d.ent a i))
    ∧ (∀ table idx n slot, s.d.tab.cmd ≠ none → HeldBack s (.scrubRepair table idx) (.scrub (tblKey table idx))
        ∧ HeldBack s (.provisionalInstall n) (.install n) ∧ HeldBack s (.provisionalDelete slot) (.remove slot)
        ∧ HeldBack s .macAgeTick .age)
    ∧ (∀ table idx, tblKey table idx ∈ s.d.tab.parity → table < 6 → idx < 2 ^ 20 → s.d.tab.cmd = none → PairServes s →
      (CopyReads s (tblKey table idx) → Completes (.scrubRepair table idx) s (fun t =>
        t = { s with d := { s.d with tab := { s.d.tab with parity := s.d.tab.parity.filter (· ≠ tblKey table idx) } } }))
      ∧ (¬ CopyReads s (tblKey table idx) → Completes (.scrubRepair table idx) s (fun t => t.d.ent table idx = none
          ∧ (∀ e, table = 1 → s.d.ent 1 idx = some e → exKind e = 0 → exStatic e = false →
              t.d.fld F.PRT_LEARN_LEARNED (exLane e) = s.d.fld F.PRT_LEARN_LEARNED (exLane e) - 1)
          ∧ Only noTab s t (fun r _ => table = 1 ∧ r = .PRT_LEARN) ∧ (Heard s → Raises s t 0x20 2 0 (table * 2 ^ 60 + 2 ^ 59 + idx)))))
    ∧ (∀ n, n ∈ s.d.net.downLost → s.d.fld F.TBL_DOWN_VALID n = 1 → n < s.d.downSize → s.d.tab.cmd = none →
        s.d.fld F.TBL_UP_VALID (caPod s.d.ownCa) = 1 → s.d.setNonEmpty (s.d.fld F.TBL_UP_SET (caPod s.d.ownCa)) = true →
        (∀ free, free < 1024 → s.d.ent 0 free = none → Completes (.provisionalInstall n) s (fun t => Only noTab s t (fun _ _ => False)
          ∧ n ∉ t.d.net.downLost ∧ ∃ i, i < 1024 ∧ s.d.ent 0 i = none
            ∧ t.d.ent 0 i = some (s.d.provEntry n (s.d.fld F.TBL_UP_SET (caPod s.d.ownCa)))
            ∧ ∀ j, j ≠ i → t.d.ent 0 j = s.d.ent 0 j))
        ∧ ((∀ i, i < 1024 → s.d.ent 0 i ≠ none) → Completes (.provisionalInstall n) s (fun t => Only noTab s t (fun _ _ => False)
          ∧ EntriesKept s t ∧ Counts s t 1 2 1)))
    ∧ (∀ slot n set x, s.d.tab.prov.find slot = some (n, set) → x ∈ (s.d.members set).1 → s.d.memberAlive x.2 = true → s.d.tab.cmd = none →
        Completes (.provisionalDelete slot) s (fun t => t.d.ent 0 slot = none ∧ t.d.tab.prov.find slot = none
          ∧ (∀ j, j ≠ slot → t.d.ent 0 j = s.d.ent 0 j) ∧ Only noTab s t (fun _ _ => False)))
    ∧ (Reaches s m .WRD_COLL_POOL 0 w →
      (s.d.fld F.WRD_COLL_POOL_ADMITTED 0 = 0 → bitsOf w 52 32 + 262144 ≤ s.d.sharedTotal + s.d.fld F.WRD_COLL_POOL_POOL 0 →
        Completes (.wrdCollPoolWrite m w) s (fun t => Answers t 0 ∧ t.d.fld F.WRD_COLL_POOL_POOL 0 = bitsOf w 52 32
          ∧ Only id s t (fun r _ => r = .WRD_COLL_POOL)))
      ∧ (s.d.fld F.WRD_COLL_POOL_ADMITTED 0 ≠ 0 → bitsOf w 52 32 ≠ s.d.fld F.WRD_COLL_POOL_POOL 0 →
        Completes (.wrdCollPoolWrite m w) s (fun t => Answers t 0 ∧ Only id s t (fun _ _ => False) ∧ (Heard s → Raises s t 0x30 1 0 0))))
    ∧ (∀ n second, n < 64 → Reaches s m (if second then .TBL_ENS_B else .TBL_ENS_A) n w →
      (s.d.groupBound true n = true → Completes (.tblEnsWrite m n second w) s (fun t => Answers t 0 ∧ Only id s t (fun _ _ => False)
        ∧ (Heard s → Raises s t 0x42 2 0 0)))
      ∧ (s.d.groupBound true n = false → second = false → bitOf w 63 = false → Completes (.tblEnsWrite m n second w) s (fun t =>
          Answers t 0 ∧ t.d.fld F.TBL_ENS_A_VALID n = 0 ∧ Only id s t (fun r i => r = .TBL_ENS_A ∧ i = n)))
      ∧ (s.d.groupBound true n = false → second = false → bitOf w 63 = true → bitsOf w 3 0 = 0 →
          Completes (.tblEnsWrite m n second w) s (fun t => Answers t 0 ∧ Only id s t (fun _ _ => False)
            ∧ (Heard s → Raises s t 0x41 2 0 0)))
      ∧ (s.d.groupBound true n = false → second = true → s.d.fld F.TBL_ENS_A_VALID n = 0 →
          Completes (.tblEnsWrite m n second w) s (fun t => Answers t 0 ∧ t.d.fld F.TBL_ENS_B_EXCL_EN n = bitsOf w 63 63
            ∧ t.d.fld F.TBL_ENS_B_EXCL n = bitsOf w 59 12 ∧ Only id s t (fun r i => r = .TBL_ENS_B ∧ i = n))))

end

namespace Sys2Proof.Claims

open Sys2Proof.Machine

/-! ## Border Ethernet and lanes -/

/-- What stands beside the registers but for packets, lanes and ports. -/
def noNet (d : Dev) : Dev := { d with net := {} }

/-- What stands beside the registers but for packets, lanes, ports, and the ports to flush from the MAC table. -/
def noNetFlush (d : Dev) : Dev := { d with net := {}, tab := { d.tab with flush := [] } }

/-- What stands beside the registers but for the lanes. -/
def noLanes (d : Dev) : Dev := { d with net := { d.net with lanes := [] } }

/-- A good frame of data arrives at a border port that is UP, whose production is live, without policer or steering; no
command runs on the tables. -/
structure BorderCase (s : State) (port : Nat) (f : List Byte) : Prop where
  calm : Calm s
  empty : s.d.net.pkts = []
  here : port < s.d.nLanes
  up : s.d.borderUp port = true
  reference : s.d.tmu.refOk = true
  good : frameGood f = true
  data : bytesAt f 12 2 ≠ 0x8808
  live : s.d.fld F.GLB_PROD_STATE (s.d.fld F.PRT_BORDER_PROD port) = 1
  unpoliced : s.d.fld F.PRT_POL_EN (8 * port + 5) = 0
  unsteered : frameDa f ≠ s.d.fld F.PRT_BORDER_MAC_STEER_MAC port
  noImage : s.d.fld F.TBL_DMA_LOCK_COMPAT 0 = 0 ∧ s.d.fld F.TBL_DMA_LOCK_STATE 0 = 0
  tables : s.d.tab.cmd = none

/-- The border port has ingress quota for the largest frame: 18 cells of its reserve, or PFC in place of a drop (R98). -/
def IngressRoom (s : State) (port : Nat) : Prop :=
  s.d.fld F.PRT_BORDER_PFC_EN port = 1 ∨ (s.d.lv (8 * port + 5)).resUsed + 18 ≤ (s.d.lv (8 * port + 5)).resCap

/-- The border port has neither reserve nor a share of the shared cells left, and no PFC (R98). -/
def IngressFull (s : State) (port : Nat) : Prop :=
  s.d.fld F.PRT_BORDER_PFC_EN port = 0 ∧ (s.d.lv (8 * port + 5)).resCap ≤ (s.d.lv (8 * port + 5)).resUsed
    ∧ s.d.shareLimit ≤ (s.d.lv (8 * port + 5)).shHeld

/-- VID of a frame at a border port. -/
def frameVid (s : State) (port : Nat) (f : List Byte) : Nat :=
  if frameTagged f = true then bytesAt f 14 2 % 4096 else s.d.fld F.PRT_BORDER_PVID port

/-- A packet of a frame: ETH_ENCAP of the port's production, from this device's FN 0x00, with the frame but its FCS. -/
structure Carries (s : State) (port : Nat) (f : List Byte) (p : Pkt) : Prop where
  opc : p.opc = 0x01
  prod : p.prod = s.d.fld F.PRT_BORDER_PROD port
  src : p.src = s.d.ownFn 0
  arrival : p.inl = port
  frame : p.frame = f.take (f.length - 4)

/-- A lane stands in a state, by its register. -/
def InState (s : State) (lane st : Nat) : Prop := lane < s.d.nLanes ∧ s.d.lstate lane = st

/-- The registers that a lane's change of state writes. -/
def laneRegs (lane : Nat) (r : RF) (i : Nat) : Prop :=
  r.busy = true ∨ (r = .PRT_LINK_STAT ∧ i = lane) ∨ r = .GLB_REF_CTL ∨ (r = .PRT_LINK_CTL ∧ i = lane)
    ∨ ((r = .WNG_LANE_STAT ∨ r = .WNG_LANE_CTL) ∧ i = lane / 64 * 65 + lane % 64)

/-- A lane leaves UP for a state with a cause: DOWNS counts it, and LINK_DOWN is raised; `f` hides what else may change
beside the registers. -/
structure LeavesUpBut (f : Dev → Dev) (s t : State) (lane cause dest : Nat) : Prop where
  state : t.d.lstate lane = dest
  why : t.d.fld F.PRT_LINK_STAT_CAUSE lane = cause
  downs : t.d.fld F.PRT_LINK_STAT_DOWNS lane = min (s.d.fld F.PRT_LINK_STAT_DOWNS lane + 1) 65535
  heard : Heard s → Raises s t 0x70 1 0 (lane * 2 ^ 48 + cause * 2 ^ 44 + dest * 2 ^ 40)
  frame : Only f s t (laneRegs lane)

/-- A native lane leaves UP: besides its registers only packets, lanes and ports change. -/
def LeavesUp (s t : State) (lane cause dest : Nat) : Prop := LeavesUpBut noNet s t lane cause dest

/-- A border lane leaves UP: its port's learned MAC entries are to be flushed too. -/
def BorderLeavesUp (s t : State) (lane cause : Nat) : Prop := LeavesUpBut noNetFlush s t lane cause 0

/-- A field of a link-local message. -/
def msgField (pay : BitVec 352) (off len : Nat) : Nat := bitsOf pay (351 - 8 * off) (352 - 8 * (off + len))

/-- A ROLL_CALL waits first on a lane that stands in ROLL_CALL, and shows that the neighbour has heard this device. -/
structure RollCallDue (s : State) (lane : Nat) (pay : BitVec 352) (rest : List LinkMsg) : Prop where
  state : InState s lane 2
  native : s.d.ltype lane ≤ 1
  reference : s.d.tmu.refOk = true
  first : (s.d.lane lane).linkRx = ⟨false, pay⟩ :: rest
  seen : msgField pay 16 1 % 2 = 1 ∧ msgField pay 20 4 = s.d.ownCa

/-- PRT_PEER as the neighbour's ROLL_CALL gives it. -/
structure PeerFrom (s t : State) (lane : Nat) (pay : BitVec 352) : Prop where
  ca : t.d.fld F.PRT_PEER_CA lane = msgField pay 4 4 / 256
  peerLane : t.d.fld F.PRT_PEER_LANE lane = msgField pay 8 2 % 1024
  version : t.d.fld F.PRT_PEER_VERSION lane = msgField pay 10 1
  level : t.d.fld F.PRT_PEER_LEVEL lane = min (s.d.fld F.GLB_LINK_CTL_LEVEL_CAP 0) (msgField pay 11 1)
  yefedra : t.d.fld F.PRT_PEER_YEFEDRA lane = msgField pay 16 1 / 2 % 2

end Sys2Proof.Claims

section
open Sys2Proof Sys2Proof.Claims Sys2Proof.Machine

/-- Border Ethernet: a frame in, dropped, learned, flooded or delivered; PFC; the MAC table's ageing; and a packet out.
The model's choices: log entries 63, 68, 76, 215. -/
def Obligations.BorderEthernet : Prop :=
  ∀ (s : State) (m : Master) (port : Nat) (f : List Byte),
    (port < s.d.nLanes → s.d.borderUp port = true → s.d.tmu.refOk = true → frameGood f = false →
      Completes (.borderFrameArrival port f) s (fun t => Quiet s t ∧ t.d.net = s.d.net ∧ Counts s t (16 + port) 34 1)
      ∧ Completes (.borderPfcArrival port f) s (fun t => Quiet s t ∧ t.d.net = s.d.net ∧ Counts s t (16 + port) 34 1))
    ∧ (BorderCase s port f →
      (s.d.fld F.PRT_LEARN_LEARN_EN port = 0 → s.d.exFind (exKey (s.d.fld F.PRT_BORDER_PROD port) (frameVid s port f) (frameDa f)) = none →
        (isGroup (frameDa f) = false → s.d.fld F.PRT_BORDER_UNK_FLOOD port = 0 →
          Completes (.borderFrameArrival port f) s (fun t => Rest s t ∧ t.d.net.pkts = [] ∧ Counts s t (16 + port) 35 1))
        ∧ (isGroup (frameDa f) = true ∨ s.d.fld F.PRT_BORDER_UNK_FLOOD port = 1 → IngressRoom s port → Completes (.borderFrameArrival port f) s (fun t => Rest s t
            ∧ (∀ x, x < s.d.nLanes → x ≠ port → s.d.isBorderPort x = true → s.d.fld F.PRT_BORDER_PROD x = s.d.fld F.PRT_BORDER_PROD port →
                ∃ p ∈ t.d.net.pkts, Carries s port f p ∧ ∃ q, p.place = .queue x q)
            ∧ ∀ p ∈ t.d.net.pkts, Carries s port f p ∧ ∃ x q, p.place = .queue x q ∧ x ≠ port)))
      ∧ (∀ i e out, s.d.fld F.PRT_LEARN_LEARN_EN port = 0 →
          s.d.exFind (exKey (s.d.fld F.PRT_BORDER_PROD port) (frameVid s port f) (frameDa f)) = some i → s.d.ent 1 i = some e →
          s.d.badParity 1 i = false → exKind e = 0 → exLane e = out → s.d.isBorderPort out = true →
          (IngressRoom s port → Completes (.borderFrameArrival port f) s (fun t => Rest s t
            ∧ ∃ p q, t.d.net.pkts = [p] ∧ Carries s port f p ∧ p.place = .queue out q))
          ∧ (IngressFull s port → Completes (.borderFrameArrival port f) s (fun t => Rest s t ∧ t.d.net.pkts = []
            ∧ Counts s t (16 + port) 22 1)))
      ∧ (∀ way, s.d.fld F.PRT_LEARN_LEARN_EN port = 1 → isGroup (frameSa f) = false →
          s.d.exFind (exKey (s.d.fld F.PRT_BORDER_PROD port) (frameVid s port f) (frameSa f)) = none →
          way ∈ s.d.exWays (exKey (s.d.fld F.PRT_BORDER_PROD port) (frameVid s port f) (frameSa f)) → s.d.ent 1 way = none →
          s.d.fld F.PRT_LEARN_LEARNED port < s.d.fld F.PRT_LEARN_LEARN_LIMIT port →
          Completes (.borderFrameArrival port f) s (fun t => Rest s t
            ∧ t.d.fld F.PRT_LEARN_LEARNED port = s.d.fld F.PRT_LEARN_LEARNED port + 1
            ∧ ∃ i ∈ s.d.exWays (exKey (s.d.fld F.PRT_BORDER_PROD port) (frameVid s port f) (frameSa f)), s.d.ent 1 i = none
              ∧ (∃ e, t.d.ent 1 i = some e ∧ exKeyOf e = exKey (s.d.fld F.PRT_BORDER_PROD port) (frameVid s port f) (frameSa f)
                  ∧ exLane e = port ∧ exKind e = 0 ∧ exStatic e = false)
              ∧ ∀ j, j ≠ i → t.d.ent 1 j = s.d.ent 1 j)))
    ∧ (port < s.d.nLanes → s.d.borderUp port = true → s.d.tmu.refOk = true → frameGood f = true → bytesAt f 12 2 = 0x8808 →
        bytesAt f 14 2 = 0x0101 → s.d.fld F.PRT_BORDER_PFC_EN port = 1 → Completes (.borderPfcArrival port f) s (fun t =>
          Only noLanes s t (fun _ _ => False) ∧ (∀ l, l ≠ port → t.d.lane l = s.d.lane l) ∧ Counts s t (16 + port) 4 1
          ∧ (∃ x, t.d.lane port = { s.d.lane port with paused := x })
          ∧ ∀ p, p < 8 → (t.d.lane port).paused.get 0 p =
              if bytesAt f 17 1 / 2 ^ p % 2 = 1 then s.d.tmu.total + s.d.quanta port (bytesAt f (18 + 2 * p) 2)
              else (s.d.lane port).paused.get 0 p))
    ∧ (∀ w, Reaches s m .PRT_BORDER port w → bitsOf w 63 63 = 1 → port < 1024 →
        (s.d.borderFits port (2 ^ bitsOf w 62 61) = true → Completes (.prtBorderWrite m port w) s (fun t => Answers t 0
          ∧ t.d.fld F.PRT_BORDER_EN port = 1 ∧ t.d.fld F.PRT_BORDER_WIDTH port = bitsOf w 62 61
          ∧ t.d.fld F.PRT_BORDER_PROD port = bitsOf w 58 47 ∧ t.d.fld F.PRT_BORDER_PVID port = bitsOf w 46 35
          ∧ t.d.fld F.PRT_BORDER_PCP_TC port = bitsOf w 23 0 ∧ Only id s t (fun r i => r = .PRT_BORDER ∧ i = port)))
        ∧ (s.d.borderFits port (2 ^ bitsOf w 62 61) = false → Completes (.prtBorderWrite m port w) s (fun t => Answers t 0
          ∧ Only id s t (fun _ _ => False) ∧ (Heard s → Raises s t 0x25 1 0 (port * 2 ^ 48)))))
    ∧ (∀ w, Reaches s m .PRT_BORDER port w → bitsOf w 63 63 = 0 → port < 1024 → s.d.isBorderPort port = true →
        Completes (.prtBorderWrite m port w) s (fun t => Answers t 0 ∧ t.d.fld F.PRT_BORDER_EN port = 0 ∧ port ∈ t.d.tab.flush
          ∧ (t.d.lane port).paused = [] ∧ Only noNetFlush s t (fun r i => r.busy = true ∨ r = .PRT_BORDER ∧ i = port)))
    ∧ (s.d.tab.cmd ≠ none → HeldBack s .macAgeTick .age)
    ∧ (s.d.tab.cmd = none → s.d.fld F.TBL_LEARN_CTL_AGE_TIME 0 ≠ 0 → (∀ x ∈ s.d.entries 1, exStatic x.2 = true) →
        Completes .macAgeTick s (fun t => t = s))
    ∧ (∀ i e, s.d.tab.cmd = none → s.d.fld F.TBL_LEARN_CTL_AGE_TIME 0 ≠ 0 → s.d.tab.ent = [(2 ^ 20 + i, e)] → i < 2 ^ 20 → exStatic e = false →
        (exAge e = 0 → Completes .macAgeTick s (fun t => (∃ e', t.d.ent 1 i = some e' ∧ exAge e' = 1 ∧ exKeyOf e' = exKeyOf e)
          ∧ Only noTab s t (fun _ _ => False)))
        ∧ (1 ≤ exAge e → Completes .macAgeTick s (fun t => t.d.ent 1 i = none
          ∧ t.d.fld F.PRT_LEARN_LEARNED (exLane e) = s.d.fld F.PRT_LEARN_LEARNED (exLane e) - 1
          ∧ Only noTab s t (fun r j => r = .PRT_LEARN ∧ j = exLane e))))
    ∧ (port < s.d.nLanes → s.d.borderUp port = true → port ∉ s.d.tab.flush → Completes (.macFlush port) s (fun t => t = s))
    ∧ (port < s.d.nLanes → s.d.borderUp port = false ∨ port ∈ s.d.tab.flush → s.d.tab.cmd ≠ none → HeldBack s (.macFlush port) (.flush port))
    ∧ (port < s.d.nLanes → s.d.borderUp port = false ∨ port ∈ s.d.tab.flush → s.d.tab.cmd = none → NMap.sorted s.d.tab.ent = true →
      Completes (.macFlush port) s (fun t => port ∉ t.d.tab.flush ∧ Only noTab s t (fun r j => r = .PRT_LEARN ∧ j = port)
        ∧ ∀ i, i < 2 ^ 20 → ∀ e, s.d.ent 1 i = some e →
          (exStatic e = true ∨ exLane e ≠ port → t.d.ent 1 i = some e)
          ∧ (exStatic e = false → exLane e = port → t.d.ent 1 i = none)))
    ∧ (∀ p out, s.d.net.pkts = [p] → p.place = .atFn 0 → p.opc = 0x01 → bitOf p.rw 10 = true →
        bitsOf p.rw 9 0 = out → s.d.isBorderPort out = true →
        Completes (.ethEncap p.id) s (fun t => Rest s t ∧ ∃ q x, t.d.net.pkts = [q] ∧ q.id = p.id ∧ q.place = .queue out x
          ∧ q.pay = p.pay ∧ q.body = p.body ∧ q.dst = p.dst))

/-- Lane commands from a manager: type and enable, recall, retraining, and the seat plan; what each starts at once.
The model's choices: log entries 132, 133. -/
def Obligations.LaneConfiguration : Prop :=
  ∀ (s : State) (m : Master) (lane : Nat) (w : Word), Calm s → lane < 1024 →
    (Reaches s m .PRT_LINK_CTL lane w → bitsOf w 60 60 = 0 → bitsOf w 62 61 ≤ 1 → s.d.fld F.PRT_LINK_CTL_TYPE lane = bitsOf w 62 61 →
      (s.d.fld F.PRT_LINK_CTL_EN lane = 0 → bitsOf w 63 63 = 1 → (s.d.lane lane).exiting = none →
        Completes (.linkCtlWrite m lane w) s (fun t => Answers t 0 ∧ t.d.fld F.PRT_LINK_CTL_EN lane = 1
          ∧ t.d.lstate lane = (if s.d.mayTrain lane = true then 1 else 0) ∧ Only noNet s t (laneRegs lane)))
      ∧ (s.d.fld F.PRT_LINK_CTL_EN lane = 1 → bitsOf w 63 63 = 0 → s.d.lstate lane = 3 →
        Completes (.linkCtlWrite m lane w) s (fun t => Answers t 0 ∧ t.d.fld F.PRT_LINK_CTL_EN lane = 0 ∧ t.d.lstate lane = 3
          ∧ (t.d.lane lane).exiting = some .retype ∧ t.d.net.pkts = s.d.net.pkts ∧ Only noNet s t (laneRegs lane)))
      ∧ (s.d.fld F.PRT_LINK_CTL_EN lane = 1 → bitsOf w 63 63 = 0 → s.d.lstate lane ≠ 3 →
        Completes (.linkCtlWrite m lane w) s (fun t => t.d.fld F.PRT_LINK_CTL_EN lane = 0 ∧ t.d.lstate lane = 0
          ∧ Only noNet s t (laneRegs lane))))
    ∧ (Reaches s m .PRT_LINK_CTL lane (setBits (s.d.rd .PRT_LINK_CTL lane) 60 60 1) → 3 ≤ s.d.lstate lane → s.d.lstate lane ≤ 5 →
        s.d.fld F.PRT_LINK_CTL_TYPE lane ≤ 1 → Completes (.recall m lane) s (fun t => Answers t 0
          ∧ t.d.fld F.PRT_LINK_CTL_RECALL lane = 1 ∧ t.d.lstate lane = s.d.lstate lane
          ∧ (t.d.lane lane).exiting = some (if (s.d.lane lane).exiting = some .retype then .retype else .recall)
          ∧ (∀ l, l ≠ lane → t.d.lane l = s.d.lane l)
          ∧ t.d.fld F.PRT_LINK_CTL_EN lane = s.d.fld F.PRT_LINK_CTL_EN lane ∧ t.d.fld F.PRT_LINK_CTL_TYPE lane = s.d.fld F.PRT_LINK_CTL_TYPE lane
          ∧ Only noNet s t (fun r i => r = .PRT_LINK_CTL ∧ i = lane)))
    ∧ (Reaches s m .WNG_LANE_CTL (65 * (lane / 64) + lane % 64) w →
      (bitsOf w 62 62 = 0 → Completes (.retrain m (lane / 64) (lane % 64) w) s (fun t => Answers t 0
          ∧ t.d.fld F.WNG_LANE_CTL_FEC (65 * (lane / 64) + lane % 64) = bitsOf w 63 63
          ∧ Only id s t (fun r i => r = .WNG_LANE_CTL ∧ i = 65 * (lane / 64) + lane % 64)))
      ∧ (bitsOf w 62 62 = 1 → 1 ≤ s.d.lstate lane → s.d.lstate lane ≤ 5 → s.d.ltype lane ≤ 1 → (s.d.lane lane).exiting ≠ some .retype →
          s.d.fld F.WNG_LANE_CTL_RETRAIN (65 * (lane / 64) + lane % 64) = 0 →
          Completes (.retrain m (lane / 64) (lane % 64) w) s (fun t => t.d.lstate lane = 1
            ∧ t.d.fld F.WNG_LANE_CTL_RETRAIN (65 * (lane / 64) + lane % 64) = 1
            ∧ (s.d.lstate lane = 3 → LeavesUp s t lane 6 1) ∧ Only noNet s t (laneRegs lane)))
      ∧ (bitsOf w 62 62 = 1 → s.d.lstate lane = 3 → s.d.ltype lane ≤ 1 → (s.d.lane lane).exiting = some .retype →
          s.d.fld F.PRT_LINK_CTL_EN lane = 0 → s.d.fld F.PRT_LINK_CTL_TYPE lane ≠ 3 →
          s.d.fld F.WNG_LANE_CTL_RETRAIN (65 * (lane / 64) + lane % 64) = 0 →
          Completes (.retrain m (lane / 64) (lane % 64) w) s (fun t => LeavesUp s t lane 6 0 ∧ (t.d.lane lane).exiting = none))
      ∧ (bitsOf w 62 62 = 1 → s.d.fld F.WNG_LANE_CTL_RETRAIN (65 * (lane / 64) + lane % 64) = 1 →
          Completes (.retrain m (lane / 64) (lane % 64) w) s (fun t => Answers t 0
            ∧ t.d.fld F.WNG_LANE_CTL_RETRAIN (65 * (lane / 64) + lane % 64) = 1
            ∧ Only id s t (fun r i => r = .WNG_LANE_CTL ∧ i = 65 * (lane / 64) + lane % 64)))
      ∧ (bitsOf w 62 62 = 1 → s.d.lstate lane = 3 → s.d.ltype lane = 2 →
          s.d.fld F.WNG_LANE_CTL_RETRAIN (65 * (lane / 64) + lane % 64) = 0 →
          Completes (.retrain m (lane / 64) (lane % 64) w) s (fun t => BorderLeavesUp s t lane 6
            ∧ t.d.fld F.WNG_LANE_CTL_RETRAIN (65 * (lane / 64) + lane % 64) = 1)))
    ∧ (Reaches s m .PRT_SEAT lane w → s.d.fld F.PRT_PEER_VERSION lane = 1 →
      (s.d.lstate lane = 3 → s.d.ltype lane ≤ 1 → bitsOf w 63 62 = 0 → (s.d.lane lane).exiting = none → Completes (.prtSeatWrite m lane w) s (fun t =>
          Answers t 0 ∧ t.d.lstate lane = 3 ∧ (t.d.lane lane).exiting = some (.seatFail 5)
          ∧ t.d.fld F.PRT_SEAT_EXPECT lane = 0 ∧ Only noNet s t (fun r i => r = .PRT_SEAT ∧ i = lane)))
      ∧ (s.d.lstate lane = 5 → s.d.ltype lane = 1 → bitsOf w 63 62 = 1 → s.d.fld F.PRT_PEER_YEFEDRA lane = 1 →
          bitsOf w 61 38 = s.d.fld F.PRT_PEER_CA lane → bitsOf w 37 28 = s.d.fld F.PRT_PEER_LANE lane →
          Completes (.prtSeatWrite m lane w) s (fun t => Answers t 0 ∧ t.d.lstate lane = 3
            ∧ t.d.fld F.PRT_SEAT_EXPECT lane = 1 ∧ t.d.fld F.PRT_SEAT_CA lane = s.d.fld F.PRT_PEER_CA lane
            ∧ ((s.d.lane lane).liftDue = false → Only noNet s t (fun r i => laneRegs lane r i ∨ r = .PRT_SEAT ∧ i = lane))))
      ∧ (s.d.lstate lane < 3 ∨ 2 ≤ s.d.ltype lane → Completes (.prtSeatWrite m lane w) s (fun t => Answers t 0
          ∧ t.d.fld F.PRT_SEAT_CA lane = bitsOf w 61 38 ∧ t.d.fld F.PRT_SEAT_PEER_LANE lane = bitsOf w 37 28
          ∧ Only id s t (fun r i => r = .PRT_SEAT ∧ i = lane))))
    ∧ (∀ e, lane < s.d.nLanes → s.d.ltype lane ≤ 1 → (s.d.lane lane).exiting = some e → (s.d.lane lane).txLow = none → (s.d.lane lane).txHigh = none →
      (e = .recall → s.d.lstate lane = 3 → Completes (.laneServiceExit lane) s (fun t => LeavesUp s t lane 6 2
          ∧ (t.d.lane lane).exiting = none ∧ (t.d.lane lane).peerSeen = false ∧ t.d.net.pkts = s.d.net.pkts))
      ∧ (e = .retype → s.d.lstate lane = 3 → s.d.fld F.PRT_LINK_CTL_EN lane = 0 → s.d.fld F.PRT_LINK_CTL_TYPE lane ≠ 3 →
          Completes (.laneServiceExit lane) s (fun t => LeavesUp s t lane 6 0 ∧ (t.d.lane lane).exiting = none))
      ∧ (e = .seatFail 5 → s.d.lstate lane = 3 → Completes (.laneServiceExit lane) s (fun t => LeavesUp s t lane 6 5
          ∧ (t.d.lane lane).exiting = none ∧ (Heard s → Raises s t 0x72 1 0
              (lane * 2 ^ 48 + s.d.fld F.PRT_PEER_CA lane * 2 ^ 24 + s.d.fld F.PRT_PEER_LANE lane * 2 ^ 14)))))

/-- Lane states by timers and events: training, roll call and its check, heartbeats, and the ways a lane is lost.
The model's choices: log entries 75, 112, 134, 228. -/
def Obligations.LaneStates : Prop :=
  ∀ (s : State) (lane : Nat), Calm s →
    (InState s lane 1 →
      (s.d.tmu.refOk = false → exec (.trainingDone lane) s = .next s)
      ∧ (s.d.tmu.refOk = true → Completes (.trainingDone lane) s (fun t => t.d.lstate lane = 2
        ∧ (∀ v, v < 8 → (t.d.lv (8 * lane + v)).nGrant = 4 * max 18 (bitsOf (s.d.rd .WRD_RES 0) (8 * v + 7) (8 * v)))
        ∧ t.d.fld F.WNG_LANE_CTL_RETRAIN (lane / 64 * 65 + lane % 64) = 0 ∧ Only noNet s t (laneRegs lane)))
      ∧ Completes (.trainTimeout lane) s (fun t => t.d.lstate lane = 1 ∧ t.d.fld F.PRT_LINK_STAT_CAUSE lane = 9
        ∧ t.d.lane lane = { s.d.lane lane with fecS := s.d.fld F.WNG_LANE_CTL_FEC (lane / 64 * 65 + lane % 64) == 1 }
        ∧ (∀ l, l ≠ lane → t.d.lane l = s.d.lane l) ∧ Only noLanes s t (fun r i => r = .PRT_LINK_STAT ∧ i = lane)))
    ∧ (InState s lane 2 →
      Completes (.rollCallSend lane) s (fun t => t = { s with d := s.d.setLane lane { s.d.lane lane with rollDue := true } })
      ∧ Completes (.rollCallTimeout lane) s (fun t => t.d.lstate lane = 1 ∧ t.d.fld F.PRT_LINK_CTL_RECALL lane = 0
        ∧ Only noNet s t (laneRegs lane)))
    ∧ (∀ pay rest, RollCallDue s lane pay rest →
      Completes (.rollCall lane) s (fun t => PeerFrom s t lane pay ∧ (t.d.lane lane).linkRx = rest ∧ 3 ≤ t.d.lstate lane ∧ t.d.lstate lane ≤ 5
        ∧ ((s.d.lane lane).liftDue = false → Only noNet s t (fun r i => laneRegs lane r i ∨ r = .PRT_PEER ∧ i = lane))
        ∧ (msgField pay 10 1 ≠ 1 → t.d.lstate lane = 4 ∧ t.d.fld F.PRT_LINK_STAT_CAUSE lane = 8
            ∧ (Heard s → Raises s t 0x71 1 0 (lane * 2 ^ 48 + msgField pay 4 4 / 256 * 2 ^ 24 + msgField pay 8 2 % 1024 * 2 ^ 14)))
        ∧ (msgField pay 10 1 = 1 → s.d.fld F.PRT_SEAT_EXPECT lane = 0 → t.d.lstate lane = 5
            ∧ (Heard s → Raises s t 0x72 1 0 (lane * 2 ^ 48 + msgField pay 4 4 / 256 * 2 ^ 24 + msgField pay 8 2 % 1024 * 2 ^ 14)))
        ∧ (msgField pay 10 1 = 1 → s.d.fld F.PRT_SEAT_EXPECT lane = 1 → s.d.ltype lane = 1 → msgField pay 16 1 / 2 % 2 = 1 →
            s.d.fld F.PRT_SEAT_CA lane = msgField pay 4 4 / 256 → s.d.fld F.PRT_SEAT_PEER_LANE lane = msgField pay 8 2 % 1024 →
            t.d.lstate lane = 3)))
    ∧ (∀ pay rest, lane < s.d.nLanes → s.d.linkRuns lane = true → s.d.lstate lane ≠ 2 → (s.d.lane lane).linkRx = ⟨false, pay⟩ :: rest →
      Completes (.rollCall lane) s (fun t => (t.d.lane lane).rollDue = true ∧ (t.d.lane lane).linkRx = rest
        ∧ Only noNet s t (fun _ _ => False)
        ∧ (msgField pay 12 4 ≠ s.d.fld F.GLB_LINK_CTL_PLAN_GEN 0 → (s.d.lane lane).skewRaised = false → Heard s →
            Raises s t 0x74 1 0 (msgField pay 12 4 * 2 ^ 32 + s.d.fld F.GLB_LINK_CTL_PLAN_GEN 0))))
    ∧ (lane < s.d.nLanes → (s.d.lane lane).absentRun = true → s.d.fld F.PRT_SEAT_EXPECT lane ≠ 0 →
      Completes (.absentTimeout lane) s (fun t => t.d.fld F.PRT_LINK_STAT_CAUSE lane = 7 ∧ (t.d.lane lane).absentRun = false
        ∧ Only noNet s t (fun r i => r = .PRT_LINK_STAT ∧ i = lane)
        ∧ (Heard s → Raises s t 0x73 1 0 (lane * 2 ^ 48 + s.d.fld F.PRT_SEAT_CA lane * 2 ^ 24 + s.d.fld F.PRT_SEAT_PEER_LANE lane * 2 ^ 14))))
    ∧ (InState s lane 6 →
      (s.d.fld F.PRT_LINK_CTL_EN lane = 1 → s.d.fld F.PRT_LINK_CTL_TYPE lane ≤ 1 → s.d.mayTrain lane = true →
        Completes (.failedRetry lane) s (fun t => t.d.lstate lane = 1 ∧ t.d.fld F.WNG_LANE_STAT_OSTATE (lane / 64 * 65 + lane % 64) = 1
          ∧ Only noNet s t (laneRegs lane)))
      ∧ (s.d.fld F.PRT_LINK_CTL_EN lane = 0 → s.d.fld F.PRT_LINK_CTL_TYPE lane ≠ 3 →
        Completes (.failedRetry lane) s (fun t => t.d.lstate lane = 0 ∧ Only noNet s t (laneRegs lane)))
      ∧ (s.d.fld F.PRT_LINK_CTL_EN lane = 1 → s.d.fld F.PRT_LINK_CTL_TYPE lane ≤ 1 → s.d.mayTrain lane = false →
        Completes (.failedRetry lane) s (fun t => t = s)))
    ∧ (lane < s.d.nLanes → 3 ≤ s.d.lstate lane → s.d.lstate lane ≤ 5 → s.d.ltype lane ≤ 1 →
      Completes (.heartbeatSend lane) s (fun t => t = { s with d := s.d.setLane lane { s.d.lane lane with hbDue := true } })
      ∧ (∀ pay rest, (s.d.lane lane).linkRx = ⟨true, pay⟩ :: rest → bitsOf pay 319 288 / 256 = s.d.fld F.PRT_PEER_CA lane →
          Completes (.heartbeat lane) s (fun t => t = { s with d := (s.d.setLane lane { s.d.lane lane with linkRx := rest }).setLane lane {
            s.d.lane lane with
              linkRx := rest
              hbAt := some s.d.tmu.total
              drainAt := if bitsOf pay 223 216 / 2 % 2 = 1 then some s.d.tmu.total else (s.d.lane lane).drainAt } })))
    ∧ (InState s lane 3 → s.d.ltype lane ≤ 1 →
      (s.d.ltype lane = 1 → s.d.hbWithin lane (40000 * 65536) = false → Completes (.hbLapse lane) s (fun t => LeavesUp s t lane 4 6))
      ∧ (s.d.ltype lane = 0 ∨ s.d.hbWithin lane (40000 * 65536) = true → Completes (.hbLapse lane) s (fun t => t = s))
      ∧ ((s.d.lane lane).drainAt = none → Completes (.losDetect lane) s (fun t => LeavesUp s t lane 1 6))
      ∧ (∀ at_, (s.d.lane lane).drainAt = some at_ → s.d.since at_ ≤ 50000 * 65536 →
          Completes (.losDetect lane) s (fun t => LeavesUp s t lane 6 6))
      ∧ (∀ at_, (s.d.lane lane).drainAt = some at_ → 50000 * 65536 < s.d.since at_ →
          Completes (.losDetect lane) s (fun t => LeavesUp s t lane 1 6))
      ∧ Completes (.lockLoss lane) s (fun t => LeavesUp s t lane 2 6))
    ∧ (lane < s.d.nLanes → s.d.fld F.PRT_LINK_CTL_TYPE lane = 2 → s.d.fld F.PRT_LINK_CTL_EN lane = 1 → s.d.site (1 + lane / 64) = 1 →
      s.d.lstate lane ≠ 3 → s.d.tmu.refOk = true → s.d.laserLost lane = false →
      (∀ x ∈ (s.d.wing (lane / 64)).clamped, x ≠ lane % 64 ∧ x ≠ 120 + lane % 64 / 8) →
      Completes (.borderBlockLockChange lane true) s (fun t => t.d.lstate lane = 3 ∧ Only noNet s t (laneRegs lane)))
    ∧ (lane < s.d.nLanes → s.d.lstate lane = 3 → Completes (.borderBlockLockChange lane true) s (fun t => t = s))
    ∧ (lane < s.d.nLanes → s.d.ltype lane = 2 → s.d.lstate lane = 3 →
      Completes (.borderBlockLockChange lane false) s (fun t => BorderLeavesUp s t lane 2)
      ∧ Completes (.losDetect lane) s (fun t => BorderLeavesUp s t lane 2)
      ∧ Completes (.lockLoss lane) s (fun t => BorderLeavesUp s t lane 2))

end

namespace Sys2Proof.Claims

open Sys2Proof.Machine

/-! ## Faults, strikes and launches -/

/-- One whole packet waits, at a function of the device. -/
structure AtFn (s : State) (p : Pkt) (fn vl opc : Nat) : Prop where
  calm : Calm s
  only : s.d.net.pkts = [p]
  place : p.place = .atFn fn
  vl : p.vl = vl
  opc : p.opc = opc
  whole : p.whole = true

/-- The step queues a packet of the device's own with these facts. -/
def SendsSome (i : Instr) (s : State) (Q : Pkt → Prop) : Prop := ∃ p, Sends i s p ∧ Q p

/-- A packet of the device's FN 0x00 on VL0. -/
structure Mgmt (s : State) (p : Pkt) (dst : BitVec 32) (prod gen opc tc status : Nat) : Prop where
  dst : p.dst = dst
  src : p.src = s.d.ownFn 0
  prod : p.prod = prod
  gen : p.gen = gen
  opc : p.opc = opc
  tc : p.tc = tc
  status : p.status = status
  vl : p.vl = 0

/-- The lanes to a lane's neighbour. -/
def ToNeighbour (s : State) (lane l : Nat) : Prop :=
  l < s.d.nLanes ∧ s.d.ltype l = 1 ∧ s.d.fld F.PRT_PEER_VERSION l ≠ 0 ∧ s.d.fld F.PRT_PEER_YEFEDRA l = 1
    ∧ s.d.fld F.PRT_PEER_CA l = s.d.fld F.PRT_PEER_CA lane

/-- A neighbour is declared failed: its lanes are fenced, the managers are sent FAULT, and the notice is raised. -/
structure Declares (i : Instr) (s t : State) (lane cause : Nat) : Prop where
  fenced : ∀ l, ToNeighbour s lane l → t.d.fld F.PRT_LINK_STAT_FENCED l = 1
  states : ∀ l, t.d.lstate l = s.d.lstate l
  others : ∀ l, ¬ ToNeighbour s lane l → t.d.fld F.PRT_LINK_STAT_FENCED l = s.d.fld F.PRT_LINK_STAT_FENCED l
  heard : Heard s → Raises s t 0x80 1 0 (s.d.fld F.PRT_PEER_CA lane * 2 ^ 40 + lane * 2 ^ 22 + cause * 2 ^ 18)
  managers : ∀ n, n < 5 → s.d.fld F.GLB_FM_VALID n = 1 → SendsSome i s (fun p =>
    p.dst = BitVec.ofNat 32 (s.d.fld F.GLB_FM_CA n / 256 * 256) ∧ p.src = s.d.ownFn 0 ∧ p.opc = 0x72 ∧ p.vl = 0
      ∧ p.at 4 4 = s.d.ownCa ∧ p.at 8 4 = s.d.fld F.PRT_PEER_CA lane * 256 ∧ p.at 12 2 = lane ∧ p.at 14 1 = cause)
  frame : Only noNet s t (fun r _ => r.busy = true ∨ r = .PRT_LINK_STAT ∨ r = .PRT_FENCE)

/-- A vote counts: a valid manager's signature over it, this plan, and a SEQ past the last. -/
structure GoodVote (s : State) (p : Pkt) : Prop where
  who : p.at 16 1 % 8 < 5
  valid : s.d.fld F.GLB_FM_VALID (p.at 16 1 % 8) = 1
  signed : ecdsaVerify (s.d.fmKey (p.at 16 1 % 8)) (sha384 (p.bytesFrom 4 13)) (ofBytes (p.bytesFrom 20 48)) (ofBytes (p.bytesFrom 68 48)) = true
  plan : p.at 12 4 = s.d.fld F.GLB_LINK_CTL_PLAN_GEN 0
  fresh : s.d.fld F.GLB_EXPEL_LAST_SEQ 0 < p.at 8 4

/-- A notice from outside waits for the relay, for the subscribers that are VALID and take its SEVERITY (R333). -/
structure Taken (s t : State) (p : Pkt) : Prop where
  relay : ∃ subs, t.d.relay = s.d.relay ++ [⟨s.d.fld F.GLB_NLOG_STAT_NEXT_SEQ 0, BitVec.ofNat 128 (p.at 4 16), some p.src, subs⟩]
    ∧ ∀ n, n ∈ subs ↔ n < 8 ∧ s.d.fld F.GLB_SUB_VALID n = 1 ∧ s.d.fld F.GLB_SUB_MIN_SEV n ≤ p.at 5 1 / 64

/-- STRIKING begins: STATE and GEN, and nothing of the production is left in the tables and the Looms. -/
structure Striking (s t : State) (p : Pkt) : Prop where
  state : t.d.fld F.GLB_PROD_STATE p.prod = 2
  gen : t.d.fld F.GLB_PROD_GEN p.prod = p.gen
  job : ∃ j ∈ t.d.strikes, j.prod = p.prod ∧ j.gen = p.gen ∧ j.senders = [(p.src, p.tc)]
  swatches : ∀ i e, i < 2 ^ 20 → t.d.ent 3 i = some e → swProd e ≠ p.prod
  casts : ∀ i e, i < 2 ^ 20 → t.d.ent 4 i = some e → castProd e ≠ p.prod
  images : ∀ k x i, (x, i) ∈ (t.d.loom k).images → i.prod ≠ p.prod
  used : t.d.fld F.WRD_PROD_USED p.prod = 0 ∧ t.d.fld F.GLB_PROD_LAUNCHER p.prod = 0 ∧ t.d.keys.find p.prod = none

end Sys2Proof.Claims

section
open Sys2Proof Sys2Proof.Claims Sys2Proof.Machine

/-- Failed neighbours and their fences, the fabric managers, and expulsion by their quorum.
The model's choices: log entries 51, 109, 110, 111, 112, 152, 195, 242. -/
def Obligations.FaultsAndManagers : Prop :=
  ∀ (s : State) (m : Master) (lane n : Nat) (w : Word), Calm s →
    (ToNeighbour s lane lane → (s.d.lane lane).fell = true → s.d.lstate lane ≠ 3 → (∀ l, ToNeighbour s lane l → s.d.lstate l ≠ 3) →
        (∃ l, ToNeighbour s lane l ∧ s.d.fld F.PRT_LINK_STAT_FENCED l = 0) →
        Completes (.neighbourFailed lane) s (fun t => Declares (.neighbourFailed lane) s t lane (s.d.fld F.PRT_LINK_STAT_CAUSE lane)))
    ∧ (lane < 1024 → ToNeighbour s lane lane → Reaches s m .PRT_FENCE lane (setBits (s.d.rd .PRT_FENCE lane) 63 63 1) →
        ((∀ l, ToNeighbour s lane l → s.d.fld F.PRT_FENCE_HOLD l = 0) → Completes (.fenceLift m lane) s (fun t => Answers t 0
          ∧ (∀ l, ToNeighbour s lane l → (s.d.lstate l = 3 → t.d.fld F.PRT_LINK_STAT_FENCED l = 0)
              ∧ (s.d.lstate l ≠ 3 → t.d.fld F.PRT_LINK_STAT_FENCED l = s.d.fld F.PRT_LINK_STAT_FENCED l
                  ∧ (s.d.fld F.PRT_LINK_STAT_FENCED l = 1 → (t.d.lane l).liftDue = true ∧ t.d.fld F.PRT_FENCE_LIFT lane = 1)))
          ∧ ((∀ l, ToNeighbour s lane l → s.d.lstate l = 3) → t.d.fld F.PRT_FENCE_LIFT lane = 0)
          ∧ Only noNet s t (fun r _ => r = .PRT_LINK_STAT ∨ r = .PRT_FENCE)))
        ∧ (∀ l, s.d.fld F.PRT_FENCE_HOLD lane = 0 → ToNeighbour s lane l → s.d.fld F.PRT_FENCE_HOLD l = 1 →
          Completes (.fenceLift m lane) s (fun t => Answers t 0 ∧ (∀ x, t.d.fld F.PRT_FENCE_HOLD x = s.d.fld F.PRT_FENCE_HOLD x)
            ∧ Only id s t (fun r _ => r = .PRT_FENCE))))
    ∧ (lane < 1024 → ToNeighbour s lane lane → Reaches s m .PRT_FENCE lane (setBits (s.d.rd .PRT_FENCE lane) 62 62 1) →
        ((∃ l, ToNeighbour s lane l ∧ s.d.fld F.PRT_LINK_STAT_FENCED l = 0) →
          Completes (.fenceHold m lane) s (fun t => Answers t 0 ∧ t.d.fld F.PRT_FENCE_HOLD lane = 1
            ∧ Declares (.fenceHold m lane) s t lane 6))
        ∧ ((∀ l, ToNeighbour s lane l → s.d.fld F.PRT_LINK_STAT_FENCED l = 1) →
          Completes (.fenceHold m lane) s (fun t => Answers t 0 ∧ t.d.fld F.PRT_FENCE_HOLD lane = 1
            ∧ Only id s t (fun r _ => r = .PRT_FENCE))))
    ∧ (n < 5 → Reaches s m .GLB_FM n w →
      (s.d.fld F.GLB_FM_LOCK_LOCK 0 = 0 → bitsOf w 63 63 = 1 → p384OnCurve (s.d.fmKey n) = true →
        Completes (.fmRegister m n w) s (fun t => Answers t 0 ∧ t.d.fld F.GLB_FM_VALID n = 1 ∧ t.d.fld F.GLB_FM_CA n = bitsOf w 31 0
          ∧ Only id s t (fun r i => r = .GLB_FM ∧ i = n)))
      ∧ (s.d.fld F.GLB_FM_LOCK_LOCK 0 = 0 → bitsOf w 63 63 = 1 → p384OnCurve (s.d.fmKey n) = false →
        Completes (.fmRegister m n w) s (fun t => Answers t 0 ∧ t.d.fld F.GLB_FM_VALID n = 0
          ∧ Only id s t (fun r i => r = .GLB_FM ∧ i = n) ∧ (Heard s → Raises s t 0x81 6 0 0)))
      ∧ (s.d.fld F.GLB_FM_LOCK_LOCK 0 = 1 → Completes (.fmRegister m n w) s (fun t => Answers t 0 ∧ Only id s t (fun _ _ => False))))
    ∧ (Reaches s m .GLB_FM_LOCK 0 (BitVec.ofNat 64 (2 ^ 63)) → s.d.fld F.GLB_FM_LOCK_LOCK 0 = 0 →
        Completes (.fmLock m) s (fun t => Answers t 0 ∧ t.d.fld F.GLB_FM_LOCK_LOCK 0 = 1 ∧ (∃ dig, Extended s t 7 dig)
          ∧ Only id s t (fun r i => r = .GLB_FM_LOCK ∨ (r = .SEC_MEAS ∧ 42 ≤ i ∧ i < 48))))
    ∧ (∀ p, AtFn s p 0 0 0x77 →
      (s.d.voteOk p = false → Completes (.expel p.id) s (fun t => t.d.net.pkts = [] ∧ t.d.gather = s.d.gather
          ∧ Counts s t 0 2 1 ∧ (Heard s → Raises s t 0x83 0 0 0)))
      ∧ (GoodVote s p → (∀ g, s.d.gather = some g → ¬ (g.target = p.at 4 4 ∧ g.seq = p.at 8 4 ∧ s.d.since g.at_ < 10 ^ 10 * 65536)) →
          Completes (.expel p.id) s (fun t => t.d.net.pkts = [] ∧ t.d.fld F.GLB_EXPEL_VOTES 0 = 2 ^ (p.at 16 1 % 8)
            ∧ t.d.gather = some ⟨p.at 4 4, p.at 8 4, s.d.tmu.total⟩ ∧ t.d.fld F.GLB_EXPEL_LAST_SEQ 0 = s.d.fld F.GLB_EXPEL_LAST_SEQ 0
            ∧ (Heard s → Raises s t 0x82 0 0 0)))
      ∧ (GoodVote s p → (∃ f, s.d.gather = some ⟨p.at 4 4, p.at 8 4, f⟩ ∧ s.d.since f < 10 ^ 10 * 65536) →
          3 ≤ (List.range 5).countP (fun k => (Nat.lor (s.d.fld F.GLB_EXPEL_VOTES 0) (2 ^ (p.at 16 1 % 8))).testBit k && s.d.flag F.GLB_FM_VALID k) →
          Completes (.expel p.id) s (fun t => t.d.fld F.GLB_EXPEL_VOTES 0 = 0 ∧ t.d.gather = none
            ∧ t.d.fld F.GLB_EXPEL_LAST_SEQ 0 = p.at 8 4 ∧ (Heard s → Raises s t 0x84 0 0 (p.at 4 4 * 2 ^ 32))
            ∧ ∀ l, l < s.d.nLanes → s.d.fld F.PRT_SEAT_CA l = p.at 4 4 / 256 →
                t.d.fld F.PRT_SEAT_EXPECT l = 0 ∧ t.d.fld F.PRT_LINK_STAT_FENCED l = 0)))
    ∧ (s.d.gather ≠ none → Completes .expelGatherExpiry s (fun t => t.d.gather = none ∧ t.d.fld F.GLB_EXPEL_VOTES 0 = 0
        ∧ Only (fun d => { d with gather := none }) s t (fun r _ => r = .GLB_EXPEL)))

/-- Strikes, seals and launches of productions, and notices from outside.
The model's choices: log entries 114, 115, 117, 186, 240, 241. -/
def Obligations.ProductionCommands : Prop :=
  ∀ (s : State) (p : Pkt),
    (AtFn s p 0 0 0x73 → p.at 4 1 % 2 = 0 →
      (s.d.fld F.GLB_PROD_STATE p.prod = 1 → p.gen = s.d.fld F.GLB_PROD_GEN p.prod → Completes (.strike p.id) s (fun t => Striking s t p))
      ∧ (s.d.fld F.GLB_PROD_STATE p.prod = 0 → Completes (.strike p.id) s (fun t => Striking s t p))
      ∧ (s.d.fld F.GLB_PROD_STATE p.prod = 1 → p.gen ≠ s.d.fld F.GLB_PROD_GEN p.prod →
          Completes (.strike p.id) s (fun t => t.d.fld F.GLB_PROD_STATE p.prod = 1 ∧ t.d.strikes = s.d.strikes)
          ∧ SendsSome (.strike p.id) s (fun q => Mgmt s q p.src p.prod p.gen 0x74 p.tc 3))
      ∧ (s.d.fld F.GLB_PROD_STATE p.prod = 2 → p.gen = s.d.fld F.GLB_PROD_GEN p.prod →
          Completes (.strike p.id) s (fun t => t.d.net.pkts = [] ∧ t.d.fld F.GLB_PROD_STATE p.prod = 2
            ∧ t.d.strikes = s.d.strikes.map (fun j => if j.prod = p.prod then { j with senders := j.senders ++ [(p.src, p.tc)] } else j)))
      ∧ (3 ≤ s.d.fld F.GLB_PROD_STATE p.prod → p.gen = s.d.fld F.GLB_PROD_GEN p.prod →
          SendsSome (.strike p.id) s (fun q => Mgmt s q p.src p.prod p.gen 0x74 p.tc 0))
      ∧ (3 ≤ s.d.fld F.GLB_PROD_STATE p.prod → p.gen ≠ s.d.fld F.GLB_PROD_GEN p.prod →
          (newer p.gen (s.d.fld F.GLB_PROD_GEN p.prod) 8 = true → Completes (.strike p.id) s (fun t => Striking s t p))
          ∧ (newer p.gen (s.d.fld F.GLB_PROD_GEN p.prod) 8 = false →
              SendsSome (.strike p.id) s (fun q => Mgmt s q p.src p.prod p.gen 0x74 p.tc 3))))
    ∧ (AtFn s p 0 0 0x73 → p.at 4 1 % 2 = 1 →
      (s.d.fld F.GLB_PROD_STATE p.prod = 3 → p.gen = s.d.fld F.GLB_PROD_GEN p.prod →
        Completes (.seal p.id) s (fun t => t.d.fld F.GLB_PROD_STATE p.prod = 4)
        ∧ SendsSome (.seal p.id) s (fun q => Mgmt s q p.src p.prod p.gen 0x74 p.tc 0 ∧ q.at 4 1 = 1))
      ∧ (s.d.fld F.GLB_PROD_STATE p.prod < 3 → Completes (.seal p.id) s (fun t => Quiet s t)
        ∧ SendsSome (.seal p.id) s (fun q => Mgmt s q p.src p.prod p.gen 0x74 p.tc 3)))
    ∧ (∀ prod j x, prod < 4096 → Calm s → s.d.strikes.find? (fun y => y.prod == prod) = some j → s.d.prodPkts prod = [] → x ∈ j.senders →
        Completes (.strikePurgeDone prod) s (fun t => t.d.fld F.GLB_PROD_STATE prod = 3 ∧ ∀ y ∈ t.d.strikes, y.prod ≠ prod)
        ∧ SendsSome (.strikePurgeDone prod) s (fun q => Mgmt s q x.1 prod (j.gen % 256) 0x74 (x.2 % 8) 0 ∧ q.at 4 1 = 0))
    ∧ (AtFn s p 0 0 0x75 →
      (s.d.launchRefused p (p.tree 112 (p.at 8 2 % 512)) = none →
        Completes (.launch p.id) s (fun t => t.d.fld F.GLB_PROD_STATE p.prod = 1 ∧ t.d.fld F.GLB_PROD_GEN p.prod = p.gen
          ∧ t.d.fld F.GLB_PROD_LAUNCHER p.prod = p.at 4 4
          ∧ t.d.keys.find p.prod = some (BitVec.ofNat 768 (ofBytes (p.bytesFrom 16 96)))
          ∧ (p.at 8 2 % 512 = 1 → t.d.launches = s.d.launches)
          ∧ (2 ≤ p.at 8 2 % 512 → 75 ≤ p.at 12 2 → ∃ j, t.d.launches = s.d.launches ++ [j] ∧ j.prod = p.prod ∧ j.tag = p.at 10 2
              ∧ j.parent = p.src ∧ j.kids ≠ [] ∧ j.missing = []))
        ∧ (p.at 8 2 % 512 = 1 → SendsSome (.launch p.id) s (fun q => Mgmt s q p.src p.prod p.gen 0x76 p.tc 0 ∧ q.at 4 2 = 0 ∧ q.at 6 2 = p.at 10 2)))
      ∧ (∀ st, s.d.launchRefused p (p.tree 112 (p.at 8 2 % 512)) = some st →
        Completes (.launch p.id) s (fun t => Quiet s t)
        ∧ SendsSome (.launch p.id) s (fun q => Mgmt s q p.src p.prod p.gen 0x76 p.tc st)))
    ∧ (AtFn s p 0 0 0x76 →
      ((∀ j ∈ s.d.launches, j.tag ≠ p.at 6 2) → Completes (.launchReply p.id) s (fun t => t.d.net.pkts = [] ∧ t.d.launches = s.d.launches
          ∧ Counts s t 0 4 1))
      ∧ (∀ j, s.d.launches = [j] → (j.budget - 25) * 65536000 ≤ s.d.since j.at_ → Completes (.launchReply p.id) s (fun t =>
          t.d.net.pkts = [] ∧ t.d.launches = [j] ∧ Counts s t 0 4 1))
      ∧ (∀ j ca sub, s.d.launches = [j] → j.tag = p.at 6 2 → s.d.since j.at_ < (j.budget - 25) * 65536000 → j.kids = [(ca, sub)] → ca / 256 = p.at 8 4 / 256 →
          Completes (.launchReply p.id) s (fun t => t.d.net.pkts = []
            ∧ t.d.launches = [{ j with kids := [], missing := j.missing ++ p.tree 16 (p.at 4 2 % 512) }])))
    ∧ (∀ prod j, Calm s → s.d.launches = [j] → j.prod = prod → prod < 4096 →
      (j.kids = [] → j.missing = [] → Completes (.launchReplyDeadline prod) s (fun t => t.d.launches = [])
        ∧ SendsSome (.launchReplyDeadline prod) s (fun q => Mgmt s q j.parent prod (j.gen % 256) 0x76 (j.tc % 8) 0 ∧ q.at 6 2 = j.tag % 65536))
      ∧ (j.kids ≠ [] → 25 ≤ j.budget → (j.budget - 25) * 65536000 ≤ s.d.since j.at_ → Completes (.launchReplyDeadline prod) s (fun t => t.d.launches = [])
        ∧ SendsSome (.launchReplyDeadline prod) s (fun q => Mgmt s q j.parent prod (j.gen % 256) 0x76 (j.tc % 8) 1))
      ∧ (j.kids ≠ [] → s.d.since j.at_ < (j.budget - 25) * 65536000 → Completes (.launchReplyDeadline prod) s (fun t => t = s)))
    ∧ (AtFn s p 0xFF 0 0x62 → Completes (.notice p.id) s (fun t => Quiet s t ∧ t.d.net.pkts = []
        ∧ t.d.fld F.GLB_NLOG_STAT_NEXT_SEQ 0 = (s.d.fld F.GLB_NLOG_STAT_NEXT_SEQ 0 + 1) % 2 ^ 32
        ∧ t.d.fld F.GLB_NLOG_C_REMOTE (s.d.fld F.GLB_NLOG_STAT_NEXT_SEQ 0 % 4096) = 1
        ∧ Taken s t p))
    ∧ (∀ fn, AtFn s p fn 0 0x62 → fn ≠ 0xFF →
      (s.d.housePriv p.src = true → Completes (.notice p.id) s (fun t => Quiet s t ∧ t.d.net.pkts = [] ∧ Taken s t p))
      ∧ (s.d.housePriv p.src = false → p.internal = false → Completes (.notice p.id) s (fun t => Quiet s t ∧ t.d.net.pkts = []
        ∧ t.d.relay = s.d.relay ∧ Counts s t (16 + p.inl) 33 1)))

end

namespace Sys2Proof.Claims

open Sys2Proof.Machine

/-! ## Register access, KLink and SPDM -/

/-- Registers whose writes do what their access codes say, and no more. -/
def plainRegs : List RF :=
  [.GLB_HOUSE_ACL, .GLB_HOUSE_LOCK, .GLB_SUB, .GLB_LINK_CTL, .GLB_RHS, .TBL_ROUTE_CTL, .TBL_STAT, .TBL_LEARN_CTL,
   .PRT_ROUTE, .PRT_TCMAP, .PRT_MARK, .PRT_VLG, .PRT_COLOUR, .PRT_POL, .PRT_LEARN, .PRT_LAUNCH_CTL, .PRT_BCAST_SEL,
   .WRD_SHARE, .WRD_RES, .WRD_RSQ_CTL, .WRD_PROD, .MEM_CTL, .CNT_DMA_CTL, .CNT_CHAIN, .CNT_FILT_A, .CNT_FILT_B]

/-- A field after a write, by its access code. -/
def fieldAfter (s : State) (r : RF) (i : Nat) (w : Word) (f : Fld) : Nat :=
  match f.acc with
  | .rw => bitsOf w f.hi f.lo
  | .rwl => if s.d.locked r = true then bitsOf (s.d.rd r i) f.hi f.lo else bitsOf w f.hi f.lo
  | .w1c => Nat.land (bitsOf (s.d.rd r i) f.hi f.lo) (2 ^ (f.hi - f.lo + 1) - 1 - bitsOf w f.hi f.lo)
  | .w1s => Nat.lor (bitsOf (s.d.rd r i) f.hi f.lo) (bitsOf w f.hi f.lo)
  | _ => bitsOf (s.d.rd r i) f.hi f.lo

/-- Register `i` of a family lies at an address outside the broadcast window. -/
def LiesAt (r : RF) (i a : Nat) : Prop := regAt a = some (r, i) ∧ r.mapped i = true ∧ inWindow a = false

/-- An access ends with a status and changes nothing. -/
def Ignored (c : Instr) (s : State) (status : Nat) : Prop :=
  Completes c s (fun t => Answers t status ∧ Only id s t (fun _ _ => False))

/-- A port is selected for a broadcast, where the selection is no SPRAY set. -/
def Selected (s : State) (l : Nat) : Prop :=
  match s.d.fld F.PRT_BCAST_SEL_MODE 0 with
  | 0 => True
  | 1 => l / 64 = s.d.fld F.PRT_BCAST_SEL_WING 0
  | 2 => False
  | _ => bitOf (s.d.rd .PRT_BCAST_MASK (l / 64)) (l % 64) = true

/-- A REG.RSP to a packet's source. -/
structure RegAnswer (p q : Pkt) (status : Nat) (data : Word) : Prop where
  route : q.dst = p.src ∧ q.src = p.dst ∧ q.opc = 0x61 ∧ q.prod = p.prod ∧ q.tc = p.tc
  status : q.status = status
  head : q.at 4 2 = p.at 4 2 ∧ q.at 8 4 = p.at 8 4
  data : q.at 12 8 = data.toNat

/-- A frame for this device on a house port that is up. -/
structure ForMe (s : State) (port : Nat) (f : KFrame) : Prop where
  isPort : port < 2
  up : port ∈ s.d.houseUp
  serves : s.d.prompter = true
  reference : s.d.tmu.refOk = true
  dst : f.dst = s.d.houseMac port

/-- The step sends this response on the port of the request. -/
def Replies (s t : State) (port : Nat) (f : KFrame) (bs : List Byte) : Prop :=
  t.d.out = s.d.out ++ [.klink port f.src f.tag bs]

/-- A message of the SPDM responder: SPDMVersion and response code. -/
def SpdmHead (body : List Byte) (ver code : Nat) : Prop := bytesAt body 0 1 = ver ∧ bytesAt body 1 1 = code

/-- An SPDM request that is served (R317): with no response in progress on its port its response is, and leaves as the block
idles; one that names no supported version is answered with ERROR; and one that meets a response in progress is answered at
once with ERROR Busy. -/
def SpdmServed (c : Nat → KFrame → Instr) (ok : Nat → Prop) (code : Nat) : Prop :=
  ∀ (s : State) (port : Nat) (f : KFrame), ForMe s port f → s.d.power = .running →
    (s.d.fld F.SEC_STATE_SECURITY 0 = 1 ∨ s.d.fld F.SEC_STATE_SECURITY 0 = 2) →
    kGood f = true → kKind f = 1 → ok (bytesAt f.bytes 9 1) →
    (s.d.spdm.find port = none → Completes (c port f) s (fun t => t.d.out = s.d.out
      ∧ Only (fun d => { d with spdm := [], sec := { d.sec with drbg := {} } }) s t (fun _ _ => False)
      ∧ (∀ q, q ≠ port → t.d.spdm.find q = s.d.spdm.find q)
      ∧ ∃ body, t.d.spdm.find port = some (.klink port f.src f.tag (klinkHeader 1 0 (bytesAt f.bytes 4 4) ++ body))
        ∧ (∃ v, SpdmHead body v code ∨ SpdmHead body v 0x7F)
        ∧ (spdmVerOk f = false → SpdmHead body (spdmVer f) 0x7F)))
    ∧ (∀ o, s.d.spdm.find port = some o → Completes (c port f) s (fun t =>
        t = { s with d := { s.d with out := s.d.out ++ [.klink port f.src f.tag (klinkHeader 1 0 (bytesAt f.bytes 4 4) ++ spdmBusy f)] } }))

/-- The status of a debug operation (R329). -/
def debugStatus (s : State) (f : KFrame) : Nat :=
  if 25 ≤ bytesAt f.bytes 12 4 / 2 ^ 27 ∨ 4 ≤ bytesAt f.bytes 12 4 / 2 ^ 24 % 8 then 7
  else if Config.securitySpace (bytesAt f.bytes 12 4) = false
      ∧ (s.d.fld F.SEC_STATE_DEBUG 0 = 2 ∨ (s.d.fld F.SEC_STATE_DEBUG 0 ≠ 0 ∧ bytesAt f.bytes 8 2 < 2 ^ 15)) then 0 else 2

end Sys2Proof.Claims

section
open Sys2Proof Sys2Proof.Claims Sys2Proof.Machine

/-- Register accesses by address: what a write leaves in each field, what a read gives and clears, and every way in which
an access ends without effect.
The model's choices: log entries 12, 162, 177, 179. -/
def Obligations.RegisterAccess : Prop :=
  ∀ (s : State) (m : Master) (r : RF) (i a : Nat) (w : Word), Calm s →
    (LiesAt r i a → r ∈ plainRegs → Reaches s m r i w → Completes (.regWrite m a w) s (fun t => Answers t 0
        ∧ (∀ f ∈ r.fields, bitsOf (t.d.rd r i) f.hi f.lo = fieldAfter s r i w f)
        ∧ Only id s t (fun q j => q = r ∧ j = i)))
    ∧ (r = .TBL_UP ∨ r = .TBL_DOWN → LiesAt r i a → Reaches s m r i w → Completes (.regWrite m a w) s (fun t => Answers t 0
        ∧ (∀ f ∈ r.fields, bitsOf (t.d.rd r i) f.hi f.lo = fieldAfter s r i w f)
        ∧ t.d.badParity (if r = .TBL_UP then upTable else downTable) i = false ∧ Only noTab s t (fun q j => q = r ∧ j = i)))
    ∧ (LiesAt r i a → r ∈ plainRegs → s.d.regRefused m r i (some w) = none → s.d.absentReg r i = true → Ignored (.regWrite m a w) s 0)
    ∧ (∀ b, LiesAt r i a → r ∈ plainRegs → s.d.regRefused m r i (some w) = none → s.d.absentReg r i = false → s.d.reservedEnc r i w = some b →
        Completes (.regWrite m a w) s (fun t => Answers t 0 ∧ Only id s t (fun _ _ => False)
          ∧ (Heard s → Raises s t 0x01 (r.source i) 0 (a * 2 ^ 32 + b))))
    ∧ (regAt a = none ∨ (regAt a = some (r, i) ∧ r.mapped i = false) → inWindow a = false →
        Ignored (.regWrite m a w) s 7 ∧ Ignored (.readClear m a) s 7)
    ∧ (LiesAt r i a → s.d.prompter = false → s.d.fld F.SEC_STATE_SECURITY 0 ≠ 2 → r ≠ .CUE_LDR_CMD → r ≠ .CUE_LDR_SRC →
        Ignored (.regWrite m a w) s 7 ∧ Ignored (.readClear m a) s 7)
    ∧ (LiesAt r i a → r.isWng = true → s.d.absentReg r i = false → s.d.site (r.unit i + 1) ≠ 1 →
        Ignored (.regWrite m a w) s 7 ∧ Ignored (.readClear m a) s 7)
    ∧ (∀ ca, LiesAt r i a → s.d.prompter = true → s.d.regDown r i = false → s.d.housePriv ca = false → r ≠ .CUE_LDR_CMD → r ≠ .CUE_LDR_SRC →
        Ignored (.regWrite (.inband ca) a w) s 2 ∧ Ignored (.readClear (.inband ca) a) s 2)
    ∧ (LiesAt .PRT_LINK_STAT i a → s.d.regRefused m .PRT_LINK_STAT i none = none → s.d.absentReg .PRT_LINK_STAT i = false →
        Completes (.readClear m a) s (fun t => t.d.out.getLast? = some (.reg 0 (s.d.rd .PRT_LINK_STAT i))
          ∧ t.d.fld F.PRT_LINK_STAT_DOWNS i = 0 ∧ t.d.fld F.PRT_LINK_STAT_REPLAYS i = 0
          ∧ t.d.lstate i = s.d.lstate i ∧ t.d.fld F.PRT_LINK_STAT_FENCED i = s.d.fld F.PRT_LINK_STAT_FENCED i
          ∧ t.d.fld F.PRT_LINK_STAT_CAUSE i = s.d.fld F.PRT_LINK_STAT_CAUSE i
          ∧ Only id s t (fun q j => q = .PRT_LINK_STAT ∧ j = i)))
    ∧ (LiesAt r i a → r ∈ plainRegs → s.d.regRefused m r i none = none → s.d.absentReg r i = false →
        Completes (.readClear m a) s (fun t => t.d.out.getLast? = some (.reg 0 (s.d.rd r i)) ∧ Only id s t (fun _ _ => False)))
    ∧ (s.d.regRefused m .PRT_TCMAP 0 (some w) = none → s.d.fld F.PRT_BCAST_SEL_MODE 0 ≠ 2 →
        Completes (.bcastWrite m 0x500 w) s (fun t => Answers t 0 ∧ Only id s t (fun q _ => q = .PRT_TCMAP)
          ∧ ∀ l, l < s.d.nLanes →
            (Selected s l → t.d.fld F.PRT_TCMAP_EN l = bitsOf w 63 63 ∧ t.d.fld F.PRT_TCMAP_MAP l = bitsOf w 23 0)
            ∧ (¬ Selected s l → t.d.rd .PRT_TCMAP l = s.d.rd .PRT_TCMAP l)))
    ∧ (Reaches s m .GLB_HOUSE_LOCK 0 (BitVec.ofNat 64 (2 ^ 63)) → Completes (.houseLock m) s (fun t => Answers t 0
        ∧ t.d.fld F.GLB_HOUSE_LOCK_LOCK 0 = 1 ∧ Only id s t (fun q _ => q = .GLB_HOUSE_LOCK)))

/-- Accesses from the fabric and from the house ports: REG.REQ, REG frames and their cache, debug frames, bad frames, and
the attestation requests.
The model's choices: log entries 154, 155, 156, 157, 158, 180, 181, 182, 183, 184. -/
def Obligations.ManagementFrames : Prop :=
  (∀ (s : State) (p : Pkt) (r : RF) (i : Nat), AtFn s p 0 0 0x60 → LiesAt r i (p.at 8 4) → r ∈ plainRegs →
      s.d.prompterSpace (regRsp p false 0 0) = true →
      (p.at 4 2 < 2 ^ 15 → s.d.regRefused (.inband p.src) r i none = none → s.d.absentReg r i = false →
        Completes (.regReq p.id) s (fun t => Quiet s t) ∧ SendsSome (.regReq p.id) s (fun q => RegAnswer p q 0 (s.d.rd r i)))
      ∧ (2 ^ 15 ≤ p.at 4 2 → Reaches s (.inband p.src) r i (BitVec.ofNat 64 (p.at 12 8)) → r ≠ .WRD_PROD →
        Completes (.regReq p.id) s (fun t => ∀ f ∈ r.fields, bitsOf (t.d.rd r i) f.hi f.lo = fieldAfter s r i (BitVec.ofNat 64 (p.at 12 8)) f)
        ∧ SendsSome (.regReq p.id) s (fun q => RegAnswer p q 0 0))
      ∧ (s.d.prompter = true → s.d.regDown r i = false → s.d.housePriv p.src = false →
        Completes (.regReq p.id) s (fun t => Quiet s t) ∧ SendsSome (.regReq p.id) s (fun q => RegAnswer p q 2 0)))
  ∧ (∀ (s : State) (port : Nat) (f : KFrame), ForMe s port f → kGood f = true → kKind f = 0 →
      (∀ e, s.d.kcache.find? (fun x => x.port == port && x.mac == f.src && x.seq == kSeq f) = some e →
        Completes (.klinkRegFrame port f) s (fun t => Replies s t port f e.resp
          ∧ t = { s with d := { s.d with out := t.d.out, kcache := t.d.kcache } }))
      ∧ (∀ r i, s.d.kcache.find? (fun x => x.port == port && x.mac == f.src && x.seq == kSeq f) = none → kCount f = 1 →
          bytesAt f.bytes 8 2 < 2 ^ 15 → LiesAt r i (bytesAt f.bytes 12 4) → r ∈ plainRegs → s.d.absentReg r i = false →
          s.d.regRefused (.house port) r i none = none →
          Completes (.klinkRegFrame port f) s (fun t =>
            Replies s t port f (klinkHeader 0 1 (kSeq f) ++ bytesOf 2 (bytesAt f.bytes 8 2) ++ [0, 0] ++ bytesOf 4 (bytesAt f.bytes 12 4)
              ++ bytesOf 8 (s.d.rd r i).toNat)
            ∧ (∃ e ∈ t.d.kcache, e.port = port ∧ e.mac = f.src ∧ e.seq = kSeq f)
            ∧ Only (fun d => { d with kcache := [] }) s t (fun _ _ => False))))
  ∧ (∀ (s : State) (port : Nat) (f : KFrame), ForMe s port f → kGood f = true → kKind f = 2 → kCount f = 1 →
      ∀ n, bytesAt f.bytes 12 4 = n →
      Completes (.klinkDebugFrame port f) s (fun t =>
        Only (fun d => { d with debugWords := [], prompterHalt := false, looms := [] }) s t (fun _ _ => False)
        ∧ (∃ bs, Replies s t port f bs ∧ bytesAt bs 10 1 = debugStatus s f
            ∧ ∀ x, bytesAt f.bytes 8 2 < 2 ^ 15 → debugStatus s f = 0 → s.d.debugWords.find n = some x → bytesAt bs 16 8 = x.toNat)
        ∧ (debugStatus s f ≠ 0 ∨ bytesAt f.bytes 8 2 < 2 ^ 15 → Only id s t (fun _ _ => False))
        ∧ (debugStatus s f = 0 → 2 ^ 15 ≤ bytesAt f.bytes 8 2 →
            (n / 2 ^ 24 % 8 ≠ 3 → t.d.debugWords.find n = some (BitVec.ofNat 64 (bytesAt f.bytes 16 8)) ∧ t.d.looms = s.d.looms
              ∧ t.d.prompterHalt = s.d.prompterHalt)
            ∧ (∀ e x, n / 2 ^ 24 % 8 = 3 → Config.haltOp n (BitVec.ofNat 64 (bytesAt f.bytes 16 8)) = (e, x) →
                (n / 2 ^ 27 = 0 → t.d.prompterHalt = (x != 0) ∧ t.d.looms = s.d.looms)
                ∧ (∀ k, n / 2 ^ 27 = 17 + k → k < 4 → t.d.loom k = { s.d.loom k with halted := (t.d.loom k).halted }
                    ∧ (t.d.loom k).halted.find (e % 68) = if x = 0 then none else some (x - 1))))))
  ∧ (∀ (s : State) (port : Nat) (f : KFrame), ForMe s port f → kGood f = false →
      Completes (.klinkBad port f) s (fun t => Quiet s t ∧ t.d.net = s.d.net ∧ Counts s t 0 0 1))
  ∧ SpdmServed .getVersion (· = 0x84) 0x04 ∧ SpdmServed .getCapabilities (· = 0xE1) 0x61
  ∧ SpdmServed .negotiateAlgorithms (· = 0xE3) 0x63 ∧ SpdmServed .getDigests (· = 0x81) 0x01
  ∧ SpdmServed .getCertificate (· = 0x82) 0x02 ∧ SpdmServed .challenge (· = 0x83) 0x03
  ∧ SpdmServed .getMeasurements (· = 0xE0) 0x60
  ∧ SpdmServed .unsupportedRequest (· ∉ [0x81, 0x82, 0x83, 0x84, 0xE0, 0xE1, 0xE3]) 0x7F
  ∧ (∀ (s : State) (port : Nat) (o : Out), s.d.spdmOpen = true → s.d.tmu.refOk = true → port ∈ s.d.houseUp → s.d.spdm = [(port, o)] →
      s.d.spdmSend = { s.d with spdm := [], out := s.d.out ++ [o] })

end

namespace Sys2Proof.Claims

open Sys2Proof.Machine

/-! ## Collectives -/

/-- What stands beside the registers but for packets and Looms. -/
def noLoom (d : Dev) : Dev := { d with net := {}, looms := [] }

/-- A whole packet stands at the entry of Loom k, and a binding there accepts it from the direction. -/
structure AtLoom (s : State) (p : Pkt) (k dir opc : Nat) (i : Image) (b : Bind) (c : Chan) : Prop where
  here : AtFn s p (0x10 + k) p.vl opc
  loom : k < 4
  accepts : s.d.accepts k p dir = some (i, b, c)

/-- The op in progress takes it: its OPSEQ is CUR's, op CUR is open, and its sender is the member it names, expected. -/
structure InOp (s : State) (p : Pkt) (b : Bind) (e : BitVec 512) (tile : Nat) : Prop where
  cur : b.cur = p.cSeq
  op : b.desc = some e
  sender : s.d.groupCa s.mem p.cEns p.cGroup p.cMember = some p.src.toNat
  expected : expects e tile p.cMember = true

/-- The packet is taken, nothing beside its Loom changes, and its binding becomes `b'`. -/
structure Binds (s t : State) (p : Pkt) (k : Nat) (b' : Bind) : Prop where
  rest : Rest s t
  bind : t.d.bind k p.prod p.cEns p.cGroup = some b'
  others : ∀ j, j ≠ k → t.d.loom j = s.d.loom j
  frame : Only noLoom s t (fun r _ => r.busy = true)

end Sys2Proof.Claims

section
open Sys2Proof Sys2Proof.Claims Sys2Proof.Machine

/-- Collective packets at a Loom: what is reduced, entered, answered or refused, and what comes from the stage above.
The model's choices: log entries 51, 77, 78, 79, 80, 81, 82, 83. -/
def Obligations.CollectivePackets : Prop :=
  ∀ (s : State) (p : Pkt) (k : Nat) (i : Image) (b : Bind) (c : Chan),
    (∀ e, AtLoom s p k 0 0x30 i b c → InOp s p b e p.cWord →
      (contribShape b e p = true → p.cWord ∉ b.closed → b.tiles = [] →
        Completes (.contrib p.id) s (fun t => t.d.net.pkts = [] ∧ ∃ b' a, Binds s t p k b' ∧ b'.tiles = [a] ∧ a.tile = p.cWord
          ∧ a.word = dAword e ∧ a.opseq = b.cur ∧ a.len = p.cLow % 1024 + 1 ∧ a.ins = [(p.cMember, p.cLow / 1024, p.cData)]
          ∧ a.openAt = s.d.tmu.total ∧ a.poison = !b.dead.isEmpty ∧ b'.cur = b.cur ∧ b'.desc = b.desc))
      ∧ (∀ a, contribShape b e p = true → p.cWord ∉ b.closed → b.tiles = [a] → a.tile = p.cWord → a.has p.cMember (p.cLow / 1024) = false →
        Completes (.contrib p.id) s (fun t => t.d.net.pkts = [] ∧ ∃ b', Binds s t p k b'
          ∧ b'.tiles = [{ a with ins := a.ins ++ [(p.cMember, p.cLow / 1024, p.cData)] }]))
      ∧ (contribShape b e p = true → p.cWord ∈ b.closed →
        Completes (.contrib p.id) s (fun t => t.d.net.pkts = [] ∧ t.d.looms = s.d.looms ∧ Counts s t (1056 + k) 6 1 ∧ Quiet s t))
      ∧ (contribShape b e p = false → Completes (.contrib p.id) s (fun t => Quiet s t)
          ∧ SendsSome (.contrib p.id) s (fun q => q.opc = 0x43 ∧ q.dst = p.src ∧ q.status = 7)))
    ∧ (AtLoom s p k 0 0x30 i b c → s.d.groupCa s.mem p.cEns p.cGroup p.cMember = some p.src.toNat → b.cur ≠ p.cSeq →
        Completes (.contrib p.id) s (fun t => Quiet s t) ∧ SendsSome (.contrib p.id) s (fun q => q.opc = 0x43 ∧ q.dst = p.src ∧ q.status = 2))
    ∧ (k < 4 → AtFn s p (0x10 + k) p.vl 0x30 → s.d.accepts k p 0 = none →
        Completes (.contrib p.id) s (fun t => Quiet s t ∧ Counts s t (1056 + k) 7 1)
        ∧ SendsSome (.contrib p.id) s (fun q => q.opc = 0x43 ∧ q.dst = p.src ∧ q.status = 2))
    ∧ (∀ e, AtLoom s p k 0 0x31 i b c → InOp s p b e 0 → rowsShape e (s.d.groupCount b.ens b.group) p = true →
      (b.rowDup e p = true → Completes (.a2aRows p.id) s (fun t => t.d.net.pkts = [] ∧ Quiet s t ∧ Counts s t (1056 + k) 6 1))
      ∧ (b.rowDup e p = false →
        Completes (.a2aRows p.id) s (fun t => Binds s t p k (b.addRows p.cMember p.aPeer p.aSeg (rowsOf e p)))
        ∧ ∀ ca, p.cLow < dCap e → p.cLow ∈ rowsOf e p → s.d.groupCa s.mem b.ens b.group p.aPeer = some ca →
          SendsSome (.a2aRows p.id) s (fun q => q.opc = 0x41 ∧ q.dst = BitVec.ofNat 32 ca ∧ q.vl = 4 ∧ q.at 6 2 = b.cur % 65536)))
    ∧ (∀ e, AtLoom s p k 0 0x32 i b c → InOp s p b e 0 →
      (b.arrived.any (fun x => x.1 == p.cMember) = false →
        Completes (.arrive p.id) s (fun t => t.d.net.pkts = [] ∧ Binds s t p k { b with arrived := b.arrived ++ [(p.cMember, p.cWord)] }))
      ∧ (b.arrived.any (fun x => x.1 == p.cMember) = true →
        Completes (.arrive p.id) s (fun t => t.d.net.pkts = [] ∧ Quiet s t ∧ Counts s t (1056 + k) 6 1)))
    ∧ (AtLoom s p k 3 0x40 i b c → b.cur = p.cSeq → b.up = [] →
        Completes (.result p.id) s (fun t => t.d.net.pkts = [] ∧ ∃ b' a, Binds s t p k b' ∧ b'.up = [a] ∧ a.tile = p.cWord
          ∧ (p.status = 1 → a.poison = true) ∧ (p.status = 0 → a.poison = false ∧ a.ins = [(0, p.cLow / 1024, p.cData)])))
    ∧ (AtLoom s p k 3 0x42 i b c → b.cur = p.cSeq →
      (p.cLow / 2 ^ 12 = 0 → Completes (.release p.id) s (fun t => t.d.net.pkts = [] ∧ Binds s t p k { b with upRelease := true }))
      ∧ (p.cLow / 2 ^ 12 = 1 → Completes (.release p.id) s (fun t => t.d.net.pkts = []
          ∧ Binds s t p k { b with sent := b.sent.filter (fun x => x.1 ≠ p.cWord) })))
    ∧ (∀ x, AtLoom s p k 2 0x43 i b c → b.cur = p.cSeq → b.sent.find? (fun y => y.1 == p.cWord && y.2.1 == p.cLow / 1024) = some x →
        p.status = 2 → Completes (.sendStatus p.id) s (fun t => Quiet s t)
          ∧ SendsSome (.sendStatus p.id) s (fun q => q.opc = 0x30 ∧ q.vl = 3 ∧ q.dst = BitVec.ofNat 32 (Config.upperHost b.prod b.ens b.group)
              ∧ q.at 6 2 = b.cur % 65536 ∧ q.at 8 4 / 2 ^ 14 = c.member % 2 ^ 18 ∧ q.at 12 4 = x.1 % 2 ^ 32))

/-- Late and lost members: a tile open past STALL is reported once, and the tiles that expect a dead member are poisoned. -/
def Obligations.CollectiveTimers : Prop :=
  ∀ (s : State) (k : Nat) (b : Bind) (a : Area) (e : BitVec 512), k < 4 →
    (s.d.fld F.LOM_COLL_CTL_STALL k = 0 → Completes (.collStallExpiry k) s (fun t => t = s))
    ∧ ((s.d.loom k).binds = [b] → b.desc = some e → b.tiles = [a] → s.d.fld F.LOM_COLL_CTL_STALL k ≠ 0 → a.stalled = false → a.poison = false →
        a.complete e (s.d.groupCount b.ens b.group) = false →
      (s.d.fld F.LOM_COLL_CTL_STALL k * 1000 * 65536 < s.d.since a.openAt →
        Completes (.collStallExpiry k) s (fun t => (t.d.loom k).binds = [{ b with tiles := [{ a with stalled := true }] }]
          ∧ (∀ j, j ≠ k → t.d.loom j = s.d.loom j) ∧ Only noLoom s t (fun _ _ => False) ∧ t.d.net = s.d.net
          ∧ (Heard s → Raises s t 0x45 (8 * (17 + k)) b.prod (bit b.ens * 2 ^ 63 + b.group * 2 ^ 48
              + lowestMissing e (s.d.groupCount b.ens b.group) a * 2 ^ 30 + a.tile % 2 ^ 30))))
      ∧ (s.d.since a.openAt ≤ s.d.fld F.LOM_COLL_CTL_STALL k * 1000 * 65536 →
        Completes (.collStallExpiry k) s (fun t => (t.d.loom k).binds = [b] ∧ t.d.net = s.d.net ∧ Only noLoom s t (fun _ _ => False))))
    ∧ (∀ ca i, (s.d.loom k).binds = [b] → (∀ j, j < 4 → j ≠ k → (s.d.loom j).binds = []) → b.desc = some e → b.tiles = [a] → i ∉ b.dead →
        ((∃ x ∈ s.d.net.deads, x.ca = bitsOf ca 31 8 ∧ x.prod = b.prod)
          ∨ ∃ l, l < s.d.nLanes ∧ s.d.fld F.PRT_LINK_STAT_FENCED l = 1 ∧ s.d.fld F.PRT_PEER_CA l = bitsOf ca 31 8) → s.d.memberIndices s.mem b.ens b.group (bitsOf ca 31 8) = [i] →
        Completes (.memberDeadPoison ca) s (fun t => ∃ a', (t.d.loom k).binds = [{ b with dead := b.dead ++ [i], tiles := [a'] }]
          ∧ (expects e a.tile i = true → a.complete e (s.d.groupCount b.ens b.group) = false → a' = { a with poison := true })
          ∧ (expects e a.tile i = false ∨ a.complete e (s.d.groupCount b.ens b.group) = true → a' = a)
          ∧ (∀ j, j ≠ k → t.d.loom j = s.d.loom j) ∧ Only noLoom s t (fun _ _ => False) ∧ t.d.net = s.d.net
          ∧ (Heard s → Raises s t 0x46 (8 * (17 + k)) b.prod (bit b.ens * 2 ^ 63 + b.group * 2 ^ 48 + i * 2 ^ 30))))

end

namespace Sys2Proof.Claims

open Sys2Proof.Machine

/-! ## The Cue loader -/

/-- A loader command reaches its Loom. -/
structure LdrReaches (s : State) (m : Master) (k : Nat) : Prop where
  loom : k < 4
  prompter : s.d.prompter = true
  running : s.d.site (17 + k) = 1
  loaded : s.d.loomLoaded = true
  allowed : s.d.houseM m = true

/-- A loader command is taken: BUSY, and the command with its OP; then `Q`. One that finds BUSY is discarded as an overrun,
and a Loom that is not RUNNING or has no verified microcode ends it UNSUPPORTED (R315). -/
def LdrCommand (c : Instr) (m : Master) (s : State) (k op : Nat) (data : Word) (Q : State → Prop) : Prop :=
  (k < 4 → s.d.site (17 + k) ≠ 1 ∨ s.d.loomLoaded = false → Calm s → Ignored c s 7)
  ∧ (LdrReaches s m k → Calm s →
    (s.d.fld F.CUE_LDR_STAT_BUSY k = 0 → Completes c s (fun t => Answers t 0 ∧ t.d.fld F.CUE_LDR_STAT_BUSY k = 1
      ∧ (∃ w, (t.d.loom k).ldr = some { cmd := w, result := none } ∧ bitsOf w 63 60 = op ∧ bitsOf w 59 0 = bitsOf data 59 0)
      ∧ (t.d.loom k).images = (s.d.loom k).images ∧ (t.d.loom k).active = (s.d.loom k).active ∧ Q t))
    ∧ (s.d.fld F.CUE_LDR_STAT_BUSY k = 1 → Completes c s (fun t => Answers t 0 ∧ t.d.fld F.CUE_LDR_STAT_OVERRUN k = 1
      ∧ t.d.looms = s.d.looms ∧ Counts s t (1056 + k) 12 1 ∧ Only id s t (fun r i => r = .CUE_LDR_STAT ∧ i = k))))

/-- An engine runs an image of a production's active set. -/
def RunsFor (s : State) (k e prod : Nat) : Prop :=
  ((s.d.engine k e).st = 1 ∨ (s.d.engine k e).st = 2) ∧ ∃ i, ((s.d.engine k e).image, i) ∈ (s.d.loom k).images ∧ i.prod = prod
    ∧ (s.d.loom k).active.find prod = some i.set ∧ i.started = true

/-- A loader command ends with a STATUS, a REASON and an IMAGE. -/
def LdrEnds (s : State) (k : Nat) (j : LdrJob) (status reason image : Nat) (Q : State → Prop) : Prop :=
  Completes (.loaderCmdDone k) s (fun t => t.d.fld F.CUE_LDR_STAT_BUSY k = 0 ∧ t.d.fld F.CUE_LDR_STAT_STATUS k = status
    ∧ t.d.fld F.CUE_LDR_STAT_REASON k = reason ∧ t.d.fld F.CUE_LDR_STAT_IMAGE k = image
    ∧ t.d.fld F.CUE_LDR_STAT_DONE_COUNT k = (s.d.fld F.CUE_LDR_STAT_DONE_COUNT k + 1) % 2 ^ 32 ∧ (t.d.loom k).ldr = none
    ∧ (Heard s → Raises s t 0x48 (8 * (17 + k)) (bitsOf j.cmd 43 32) (t.d.rd .CUE_LDR_STAT k).toNat) ∧ Q t)

/-- An engine starts an image at its entry point: PC, its position in S1, the engines in S2, the generation and PROD in S3. -/
structure Starts (t : State) (k e slot pos : Nat) (i : Image) : Prop where
  st : (t.d.engine k e).st = 1
  pc : (t.d.engine k e).pc = i.entry
  image : (t.d.engine k e).image = slot ∧ (t.d.engine k e).pos = pos
  s1 : (t.d.engine k e).s 1 = BitVec.ofNat 64 pos
  s2 : (t.d.engine k e).s 2 = BitVec.ofNat 64 i.engines
  s3 : (t.d.engine k e).s 3 = BitVec.ofNat 64 (i.gen * 4096 + i.prod)

end Sys2Proof.Claims

section
open Sys2Proof Sys2Proof.Claims Sys2Proof.Machine

/-- Loader commands: taken, refused, run to their status; sets of images change by them.
The model's choices: log entries 99, 100, 101, 106, 234. -/
def Obligations.LoaderCommands : Prop :=
  ∀ (s : State) (m : Master) (k : Nat) (data : Word),
    LdrCommand (.ldrLoad m k data) m s k 1 data (fun t => (t.d.loom k).engines = (s.d.loom k).engines)
    ∧ LdrCommand (.ldrUnload m k data) m s k 2 data (fun t => (t.d.loom k).engines = (s.d.loom k).engines)
    ∧ LdrCommand (.ldrActivate m k data) m s k 3 data (fun t => bitsOf data 43 32 ∈ (t.d.loom k).closed
        ∧ (bitsOf data 59 59 = 0 → ∀ e, RunsFor s k e (bitsOf data 43 32) →
            (t.d.engine k e).flag 255 = true ∧ (t.d.engine k e).st = (s.d.engine k e).st ∧ (t.d.engine k e).stopAt = some s.d.tmu.total)
        ∧ (bitsOf data 59 59 = 1 → ∀ e, RunsFor s k e (bitsOf data 43 32) → (t.d.engine k e).st = 5))
    ∧ LdrCommand (.ldrStop m k data) m s k 4 data (fun t => bitsOf data 43 32 ∈ (t.d.loom k).closed
        ∧ (bitsOf data 59 59 = 0 → ∀ e, RunsFor s k e (bitsOf data 43 32) →
            (t.d.engine k e).flag 255 = true ∧ (t.d.engine k e).st = (s.d.engine k e).st)
        ∧ (bitsOf data 59 59 = 1 → ∀ e, RunsFor s k e (bitsOf data 43 32) → (t.d.engine k e).st = 5))
    ∧ (k < 4 → Calm s → s.d.loomLoaded = true → ∀ j, (s.d.loom k).ldr = some j → j.result = none → j.incoming = false →
        (s.d.loom k).active.find (bitsOf j.cmd 43 32) = none →
      (bitsOf j.cmd 63 60 = 4 → Completes (.activateIncoming k) s (fun t => (t.d.loom k).ldr = some { j with incoming := true }
          ∧ (t.d.loom k).active.find (bitsOf j.cmd 43 32) = none ∧ bitsOf j.cmd 43 32 ∉ (t.d.loom k).closed
          ∧ (t.d.loom k).engines = (s.d.loom k).engines))
      ∧ (∀ slot i, bitsOf j.cmd 63 60 = 3 → (s.d.loom k).images = [(slot, i)] → i.prod = bitsOf j.cmd 43 32 → i.set = bitsOf j.cmd 47 44 →
          i.stale = false → i.engines ≤ 64 → (∀ e, e < 64 → (s.d.engine k e).st = 0) →
          Completes (.activateIncoming k) s (fun t => (t.d.loom k).ldr = some { j with incoming := true }
            ∧ (t.d.loom k).active.find i.prod = some i.set ∧ i.prod ∉ (t.d.loom k).closed
            ∧ ∀ e, e < i.engines → Starts t k e slot e i)))
    ∧ (k < 4 → ∀ j, (s.d.loom k).ldr = some j → j.result = none →
      (bitsOf j.cmd 63 60 = 1 →
        (s.d.staging s.mem k 640 = none → LdrEnds s k j 9 1 0 (fun t => (t.d.loom k).images = (s.d.loom k).images))
        ∧ (s.d.staging s.mem k 640 = some none → LdrEnds s k j 9 2 0 (fun t => (t.d.loom k).images = (s.d.loom k).images))
        ∧ ((s.d.load s.mem k (bitsOf j.cmd 43 32) (bitsOf j.cmd 47 44)).1 = 0 →
            LdrEnds s k j 0 0 ((s.d.load s.mem k (bitsOf j.cmd 43 32) (bitsOf j.cmd 47 44)).2.1 % 256) (fun t =>
              ∃ slot i, (s.d.loom k).images.find slot = none ∧ (t.d.loom k).images.find slot = some i ∧ i.prod = bitsOf j.cmd 43 32
                ∧ i.set = bitsOf j.cmd 47 44 ∧ (∀ x, x ≠ slot → (t.d.loom k).images.find x = (s.d.loom k).images.find x)
                ∧ ((copyPlace ((s.d.loom k).images.map (·.2)) slot i.bytes.length).isSome = true →
                  (∀ x, x ∈ (t.d.loom k).images → x.1 ≠ slot →
                    i.copyAt + i.bytes.length ≤ x.2.copyAt ∨ x.2.copyAt + x.2.bytes.length ≤ i.copyAt)
                  ∧ (s.memOk → ∀ n, n = 2 ∨ n = 3 → s.d.stackUp n = true →
                      memRead t.mem (carveAt n (stagingOff k i)) i.bytes.length = i.bytes)))))
      ∧ (bitsOf j.cmd 63 60 = 2 →
        ((s.d.loom k).images.find (bitsOf j.cmd 55 48) = none → LdrEnds s k j 2 0 (bitsOf j.cmd 55 48) (fun t => t.d.net = s.d.net))
        ∧ (∀ i, (s.d.loom k).images.find (bitsOf j.cmd 55 48) = some i → i.prod = bitsOf j.cmd 43 32 →
            (s.d.loom k).active.find i.prod ≠ some i.set →
            LdrEnds s k j 0 0 (bitsOf j.cmd 55 48) (fun t => (t.d.loom k).images.find (bitsOf j.cmd 55 48) = none))
        ∧ (∀ i, (s.d.loom k).images.find (bitsOf j.cmd 55 48) = some i →
            i.prod ≠ bitsOf j.cmd 43 32 ∨ (s.d.loom k).active.find i.prod = some i.set →
            LdrEnds s k j 2 0 (bitsOf j.cmd 55 48) (fun t => (t.d.loom k).images = (s.d.loom k).images)))
      ∧ (∀ e, bitsOf j.cmd 63 60 = 3 → e < 68 → RunsFor s k e (bitsOf j.cmd 43 32) → (s.d.engine k e).issued = 0 →
          Completes (.loaderCmdDone k) s (fun t => t = s))
      ∧ ((bitsOf j.cmd 63 60 = 3 ∧ ∀ e, (s.d.engine k e).st = 1 ∨ (s.d.engine k e).st = 2 → 0 < (s.d.engine k e).issued)
            ∨ bitsOf j.cmd 63 60 = 4 → j.incoming = true →
          LdrEnds s k j 0 0 0 (fun t => (t.d.loom k).engines = (s.d.loom k).engines ∧ t.d.net = s.d.net)))

/-- Engines that are stopped, fail, are replaced and restart, and images restored after their Loom's reset.
The model's choices: log entries 105, 108, 152, 234, 243. -/
def Obligations.EngineFaults : Prop :=
  ∀ (s : State) (k e slot : Nat), k < 4 →
    (e < 68 → (s.d.engine k e).stopAt ≠ none → ((s.d.engine k e).st = 1 ∨ (s.d.engine k e).st = 2) →
      Completes (.f255Timeout k e) s (fun t => t.d.engine k e = { s.d.engine k e with st := 5, stopAt := none }
        ∧ ∀ f, f ≠ e → t.d.engine k f = s.d.engine k f))
    ∧ (∀ n, e < 68 → n < 68 → ((s.d.engine k e).st = 1 ∨ (s.d.engine k e).st = 2) → s.d.site (17 + k) = 1 → (s.d.loom k).ldr = none →
        (s.d.engine k n).st = 7 → (∀ x, x < n → (s.d.engine k x).st ≠ 7) → s.d.overlay.length < 1024 →
      Completes (.engineFault k e) s (fun t => (t.d.engine k e).st = 6 ∧ (t.d.engine k n).st = 5
        ∧ (t.d.engine k n).image = (s.d.engine k e).image ∧ (t.d.engine k n).pos = (s.d.engine k e).pos
        ∧ (∀ x, x ≠ e → (s.d.engine k x).image = (s.d.engine k e).image → ((s.d.engine k x).st = 1 ∨ (s.d.engine k x).st = 2) →
            (t.d.engine k x).st = 5)
        ∧ t.d.fld F.CUE_ENG_TRAP_CAUSE (k * 68 + e) = 15
        ∧ (∃ time, t.d.overlay = s.d.overlay ++ [⟨3, 17 + k, e, n, time⟩])
        ∧ (t.d.loom k).subst.find (s.d.engine k e).image = some (e, some n)))
    ∧ (∀ old n i, slot < 256 → (s.d.loom k).ldr = none → (s.d.loom k).subst.find slot = some (old, some n) →
        (s.d.loom k).images.find slot = some i → (s.d.loom k).active.find i.prod = some i.set → i.started = true →
        (s.d.engine k n).image = slot → (s.d.engine k n).st = 5 →
        (∀ f, f ≠ n → (s.d.engine k f).image = slot → (s.d.engine k f).st = 6 ∨ (s.d.engine k f).pos ≠ (s.d.engine k n).pos) →
        (s.d.loom k).engines.sorted = true →
      Completes (.engineRestart k slot) s (fun t => Starts t k n slot (s.d.engine k n).pos i ∧ (t.d.loom k).subst.find slot = none
        ∧ (Heard s → Raises s t 0x49 (8 * (17 + k)) (s.d.engine k n).prod (old * 256 + n))))
    ∧ (∀ i, s.d.site (17 + k) = 1 → (s.d.loom k).images = [(slot, i)] → i.stale = true →
      (s.d.stackUp 2 = false → s.d.stackUp 3 = false → Completes (.imageRestore k) s (fun t => t = s))
      ∧ (∀ bs, s.d.carveRead s.mem 1 (stagingOff k i) i.bytes.length = some bs → sha384 bs = i.sha →
          Completes (.imageRestore k) s (fun t => (t.d.loom k).images = [(slot, { i with stale := false })] ∧ t.d.net = s.d.net))
      ∧ (s.d.stackUp 2 = true ∨ s.d.stackUp 3 = true →
          (∀ bs, s.d.carveRead s.mem 1 (stagingOff k i) i.bytes.length = some bs → sha384 bs ≠ i.sha) →
          Completes (.imageRestore k) s (fun t => (t.d.loom k).images = []
            ∧ (Heard s → Raises s t 0x4B (8 * (17 + k)) i.prod 0))))

end

namespace Sys2Proof.Claims

open Sys2Proof.Machine

/-! ## Memory -/

/-- An answer to a request: who it goes to, what it repeats of the request, its status and its data bytes. -/
structure Reply (p : Pkt) (opc status n : Nat) (q : Pkt) : Prop where
  ends : q.dst = p.src ∧ q.src = p.dst
  opc : q.opc = opc
  status : q.status = status
  same : q.prod = p.prod ∧ q.gen = p.gen ∧ q.tc = p.tc ∧ q.vl = 2
  tag : q.at 4 2 = p.at 4 2
  addr : q.at 8 8 = p.at 8 8
  size : q.memLen = n

/-- A whole request of an opcode waits at Bolt memory, which runs (R34) and holds VL2 space for its response (R115). -/
structure AtBolt (s : State) (p : Pkt) (opc : Nat) : Prop where
  here : AtFn s p 1 1 opc
  reference : s.d.tmu.refOk = true
  space : (s.d.chargeSource (8 * 1025 + 2) p.respSize).isSome = true

/-- A request that Bolt memory executes over `n` bytes: translated, in one stack's exposable range, and that stack serves. -/
structure BoltOpen (s : State) (p : Pkt) (opc n : Nat) : Prop where
  here : AtBolt s p opc
  house : p.house = false
  xlated : p.xlated = true
  range : exposable p.addr n = true
  serves : s.d.stackUp (stackOf p.addr) = true

/-- A request of house access over `n` bytes of a carve-out region, with house privilege. -/
structure BoltHouse (s : State) (p : Pkt) (opc n pair off : Nat) : Prop where
  here : AtBolt s p opc
  house : p.house = true
  priv : s.d.housePriv p.src = true
  region : houseRegion p.addr n (opc == 0x11 || opc == 0x12) (s.d.fld F.SEC_STATE_DEBUG 0 == 2) = some (pair, off)

/-- A stack serves, and `n` bytes at an address of it read without an uncorrectable error. -/
def Clean (s : State) (stack a n : Nat) : Prop := s.d.stackUp stack = true ∧ s.d.eccAt a n = false

/-- A READ over `n` bytes that finds its bytes at `a`: its own address, or a copy of a carve-out structure, the even
stack's, or the odd one's where the even one does not give it. -/
def BoltReads (s : State) (p : Pkt) (n a : Nat) : Prop :=
  BoltOpen s p 0x10 n ∧ s.d.eccAt a n = false ∧ a = p.addr
  ∨ ∃ pair off, BoltHouse s p 0x10 n pair off
    ∧ (Clean s (2 * pair) (carveAt (2 * pair) off) n ∧ a = carveAt (2 * pair) off
      ∨ ¬ Clean s (2 * pair) (carveAt (2 * pair) off) n ∧ Clean s (2 * pair + 1) (carveAt (2 * pair + 1) off) n
        ∧ a = carveAt (2 * pair + 1) off)

/-- A request that may be made, but no stack that holds its bytes serves. House access may not be atomic or reducing (R222). -/
def BoltDown (s : State) (p : Pkt) (opc n : Nat) : Prop :=
  (AtBolt s p opc ∧ p.house = false ∧ p.xlated = true ∧ exposable p.addr n = true ∧ s.d.stackUp (stackOf p.addr) = false)
  ∨ opc ≠ 0x13 ∧ opc ≠ 0x14 ∧ ∃ pair off, BoltHouse s p opc n pair off ∧ s.d.stackUp (2 * pair) = false ∧ s.d.stackUp (2 * pair + 1) = false

/-- A request whose stack serves, but whose bytes read with an uncorrectable error; a house READ that some copy serves and
none gives. -/
def BoltEcc (s : State) (p : Pkt) (opc n : Nat) : Prop :=
  BoltOpen s p opc n ∧ s.d.eccAt p.addr n = true
  ∨ opc = 0x10 ∧ ∃ pair off, BoltHouse s p opc n pair off ∧ (s.d.stackUp (2 * pair) = true ∨ s.d.stackUp (2 * pair + 1) = true)
    ∧ ¬ Clean s (2 * pair) (carveAt (2 * pair) off) n ∧ ¬ Clean s (2 * pair + 1) (carveAt (2 * pair + 1) off) n

/-- A request that Bolt memory takes in no case: neither translated into an exposable range nor a permitted house access. -/
structure BoltShut (s : State) (p : Pkt) (opc n : Nat) : Prop where
  here : AtBolt s p opc
  open_ : p.house = false → p.xlated = false ∨ exposable p.addr n = false
  house : p.house = true → opc = 0x13 ∨ opc = 0x14 ∨ s.d.housePriv p.src = false
    ∨ houseRegion p.addr n (opc == 0x11 || opc == 0x12) (s.d.fld F.SEC_STATE_DEBUG 0 == 2) = none

/-- Only Bolt memory and the packet path change; units read with an error as before, or a write has ended it. -/
def MemOnly (s t : State) : Prop :=
  t.pending = s.pending ∧ ({ s.d with ecc := t.d.ecc, eccSoft := t.d.eccSoft } : Dev).Soft t.d ∧ (∀ u ∈ t.d.ecc, u ∈ s.d.ecc)
    ∧ ∀ u ∈ t.d.eccSoft, u ∈ s.d.eccSoft

/-- Bytes are stored from an address on, and every other byte of Bolt memory is as before. -/
def Stored (s t : State) (a : Nat) (bs : List Byte) : Prop :=
  ∀ c, memByte t.mem c = if a ≤ c ∧ c < a + bs.length then bs.getD (c - a) 0 else memByte s.mem c

/-- Bytes are stored in the copies of a carve-out structure on both stacks of its pair, or on the one that serves, and every
other byte is as before. -/
def StoredPair (s t : State) (pair off : Nat) (bs : List Byte) : Prop :=
  ∀ c, memByte t.mem c =
    if s.d.stackUp (2 * pair) = true ∧ carveAt (2 * pair) off ≤ c ∧ c < carveAt (2 * pair) off + bs.length then bs.getD (c - carveAt (2 * pair) off) 0
    else if s.d.stackUp (2 * pair + 1) = true ∧ carveAt (2 * pair + 1) off ≤ c ∧ c < carveAt (2 * pair + 1) off + bs.length then
      bs.getD (c - carveAt (2 * pair + 1) off) 0
    else memByte s.mem c

/-- The request is answered with a status, Bolt memory is as before. -/
def BoltAnswers (i : Instr) (s : State) (p : Pkt) (opc status : Nat) : Prop :=
  Completes i s (fun t => Quiet s t) ∧ SendsSome i s (Reply p opc status 0)

/-- The value that an ATOMIC stores, by AOP, over words of `w` bits. -/
def atomicValue (aop w old a b : Nat) : Nat :=
  match aop with
  | 0 => (old + a) % 2 ^ w
  | 2 => if old = a then b else old
  | 3 => a
  | 4 => if (BitVec.ofNat w a).toInt < (BitVec.ofNat w old).toInt then a else old
  | 5 => if (BitVec.ofNat w old).toInt < (BitVec.ofNat w a).toInt then a else old
  | 6 => if a < old then a else old
  | 7 => if old < a then a else old
  | 8 => (BitVec.ofNat w old &&& BitVec.ofNat w a).toNat
  | 9 => (BitVec.ofNat w old ||| BitVec.ofNat w a).toNat
  | 10 => (BitVec.ofNat w old ^^^ BitVec.ofNat w a).toNat
  | _ => (encodeVal 1 0 0 (treeAdd 1 (decodeElem 1 old) (decodeElem 1 a))).1

/-- A VL1 request held at NEXT of its terminal's one context. -/
structure HeldAtNext (s : State) (p : Pkt) (c : Ctx) : Prop where
  calm : Calm s
  only : s.d.net.pkts = [p]
  place : p.isHeld = true
  vl : p.vl = 1
  context : s.d.net.ctxs = [c] ∧ c.ckey = p.ckey ∧ c.hold = some p.id ∧ c.learning = false

/-- A held request has been completed by its terminal with a status: NEXT passes it, and both ERR of its flow are OK. -/
structure HoldEnds (i : Instr) (s t : State) (p : Pkt) (c : Ctx) (status : Nat) : Prop where
  quiet : Quiet s t
  sent : SendsSome i s (Reply p 0x21 status 0)
  next : t.d.ctx p.ckey = some { c with next := (c.next + 1) % 2 ^ 24, hold := none, full := false, gapOn := false }
  errors : (t.d.flow p.src p.dst).errA = 0 ∧ (t.d.flow p.src p.dst).errW = 0
  counts : (t.d.flow p.src p.dst).outA = (s.d.flow p.src p.dst).outA ∧ (t.d.flow p.src p.dst).outW = (s.d.flow p.src p.dst).outW

/-- One whole packet waits at an endpoint-facing ingress. -/
structure AtIngress (s : State) (p : Pkt) (pl : Place) : Prop where
  calm : Calm s
  only : s.d.net.pkts = [p]
  place : p.place = pl

/-- What stands beside the registers but for packets and table entries. -/
def noMoves (d : Dev) : Dev := { d with net := {}, tab := {}, ecc := [], eccSoft := [] }

/-- A production has something on the device that involves an end point CA[31:8]. -/
def Involves (s : State) (ca q : Nat) : Prop :=
  (∃ l ∈ s.d.net.ledger, l.prod = q ∧ (bitsOf l.src 31 8 = ca ∨ bitsOf l.dst 31 8 = ca))
  ∨ (∃ x ∈ s.d.entries 3, swProd x.2 = q ∧ (swTarget x.2 / 256 = ca ∨ swOwner x.2 / 256 = ca))
  ∨ (∃ p ∈ s.d.net.pkts, p.isHeld = true ∧ p.prod = q ∧ (bitsOf p.src 31 8 = ca ∨ bitsOf p.dst 31 8 = ca))
  ∨ (∃ x ∈ s.d.looms, ∃ b ∈ x.2.binds, b.prod = q ∧ s.d.memberIndices s.mem b.ens b.group ca ≠ [])

/-- The timeline of an end point goes one step on: each production that stood at a step stands at the next. -/
def DeadSteps (s t : State) (ca n : Nat) : Prop :=
  t.d.net.deads.map (fun x => (x.ca, x.prod, x.phase))
    = s.d.net.deads.map (fun x => (x.ca, x.prod, if x.ca = ca ∧ x.phase = n then n + 1 else x.phase))

end Sys2Proof.Claims

section
open Sys2Proof Sys2Proof.Claims Sys2Proof.Machine

/-- Requests that read or store bytes of Bolt memory: what is read or stored and where, what is answered, what is refused.
The model's choices: log entries 14, 15, 18, 19, 20, 216. -/
def Obligations.BoltReadsAndWrites : Prop :=
  ∀ (s : State) (p : Pkt) (a pair off : Nat),
    (∀ opc c, opc = 0x10 ∧ (c = Instr.boltRead p.id ∨ c = Instr.boltReadConvert p.id) ∨ opc = 0x11 ∧ c = Instr.boltWrite p.id
        ∨ opc = 0x12 ∧ c = Instr.writeFlag p.id ∨ opc = 0x13 ∧ c = Instr.atomic p.id ∨ opc = 0x14 ∧ c = Instr.reduceWrite p.id →
      AtFn s p 1 1 opc → s.d.chargeSource (8 * 1025 + 2) p.respSize = none ∨ s.d.tmu.refOk = false → Completes c s (fun t => t = s))
    ∧ (BoltOpen s p 0x13 p.abytes → s.d.eccAt p.addr p.abytes = false → aopOk p.aop p.abytes = true → p.addr % p.abytes = 0 →
        Completes (.atomic p.id) s (fun t => MemOnly s t ∧ ∃ bs, bs.length = p.abytes ∧ Stored s t p.addr bs))
    ∧ (BoltOpen s p 0x14 p.memLen → s.d.eccAt p.addr p.memLen = false → reduceExact p.aword = false → reduceInPlace p.aword = true →
        elemCount (AWord.fmt p.aword) p.memLen ≠ 0 → p.addr % max 1 (elemBytes (AWord.fmt p.aword)) = 0 →
        Completes (.reduceWrite p.id) s (fun t => MemOnly s t ∧ ∃ bs, Stored s t p.addr bs))
    ∧ (p.convert = false →
      (BoltReads s p p.rdBytes a → Completes (.boltRead p.id) s (fun t => Quiet s t) ∧ SendsSome (.boltRead p.id) s (fun q =>
        Reply p 0x20 0 p.rdBytes q ∧ q.bytesFrom 32 p.rdBytes = memRead s.mem a p.rdBytes))
      ∧ (BoltDown s p 0x10 p.rdBytes → BoltAnswers (.boltRead p.id) s p 0x20 1)
      ∧ (BoltEcc s p 0x10 p.rdBytes → BoltAnswers (.boltRead p.id) s p 0x20 8)
      ∧ (BoltShut s p 0x10 p.rdBytes → BoltAnswers (.boltRead p.id) s p 0x21 2))
    ∧ (p.convert = true →
      (BoltReads s p p.extent a → convertOk p = true → Completes (.boltReadConvert p.id) s (fun t => Quiet s t)
        ∧ SendsSome (.boltReadConvert p.id) s (fun q => Reply p 0x20 0 p.rdBytes q
          ∧ (isInt (AWord.ofmt p.aword) = false → q.bytesFrom 32 p.rdBytes = (encodeTile (AWord.ofmt p.aword) (AWord.rnd p.aword) (fun _ => 0)
              (recordVals p.aword (memRead s.mem a p.extent) (elemCount (AWord.ofmt p.aword) p.rdBytes))).1)
          ∧ ∀ f o j v, f = AWord.fmt p.aword → o = AWord.ofmt p.aword → isInt o = true → j < p.rdBytes / elemBytes o →
            v = (laneOfRec f (memRead s.mem (a + j * recBytes f) (recBytes f))).val (lsbExp f 0) → v.unstatedInt = false →
            bytesAt (q.bytesFrom 32 p.rdBytes) (j * elemBytes o) (elemBytes o) = (encodeVal o (AWord.rnd p.aword) 0 v).1 % 256 ^ elemBytes o))
      ∧ (BoltDown s p 0x10 p.extent → convertOk p = true → BoltAnswers (.boltReadConvert p.id) s p 0x20 1)
      ∧ (BoltEcc s p 0x10 p.extent → convertOk p = true → BoltAnswers (.boltReadConvert p.id) s p 0x20 8)
      ∧ (AtBolt s p 0x10 → convertOk p = false → BoltAnswers (.boltReadConvert p.id) s p 0x21 7)
      ∧ (BoltShut s p 0x10 p.extent → convertOk p = true → BoltAnswers (.boltReadConvert p.id) s p 0x21 2))
    ∧ (∀ opc c, opc = 0x11 ∧ c = Instr.boltWrite p.id ∨ opc = 0x12 ∧ c = Instr.writeFlag p.id →
      (BoltOpen s p opc p.memLen → Completes c s (fun t => MemOnly s t ∧ Stored s t p.addr (p.bytesFrom 32 p.memLen))
        ∧ SendsSome c s (Reply p 0x21 0 0))
      ∧ (BoltHouse s p opc p.memLen pair off → s.d.stackUp (2 * pair) = true ∨ s.d.stackUp (2 * pair + 1) = true → Completes c s (fun t => MemOnly s t ∧ StoredPair s t pair off (p.bytesFrom 32 p.memLen))
        ∧ SendsSome c s (Reply p 0x21 0 0))
      ∧ (BoltDown s p opc p.memLen → BoltAnswers c s p 0x21 1)
      ∧ (BoltShut s p opc p.memLen → BoltAnswers c s p 0x21 2))

/-- Requests that compute in Bolt memory: ATOMIC and REDUCE.WRITE.
The model's choices: log entries 14, 15, 18, 216. -/
def Obligations.BoltAtomicsAndReductions : Prop :=
  ∀ (s : State) (p : Pkt) (n f w : Nat), p.abytes = n → AWord.fmt p.aword = f → elemBytes f = w →
    (BoltOpen s p 0x13 n → s.d.eccAt p.addr n = false → aopOk p.aop n = true → p.addr % n = 0 →
      Completes (.atomic p.id) s (fun t => MemOnly s t ∧ Stored s t p.addr (bytesOf n
        (atomicValue p.aop (8 * n) (ofBytes (memRead s.mem p.addr n)) (ofBytes (p.bytesFrom 32 n)) (ofBytes (p.bytesFrom (32 + n) n)))))
      ∧ SendsSome (.atomic p.id) s (fun q => Reply p 0x22 0 n q ∧ q.bytesFrom 32 n = memRead s.mem p.addr n))
    ∧ (BoltDown s p 0x13 n → aopOk p.aop n = true → p.addr % n = 0 → BoltAnswers (.atomic p.id) s p 0x22 1)
    ∧ (BoltEcc s p 0x13 n → aopOk p.aop n = true → p.addr % n = 0 → BoltAnswers (.atomic p.id) s p 0x22 8)
    ∧ (BoltShut s p 0x13 n → aopOk p.aop n = true → p.addr % n = 0 → BoltAnswers (.atomic p.id) s p 0x21 2)
    ∧ (AtBolt s p 0x13 → (aopOk p.aop n = false ∨ p.addr % n ≠ 0) → BoltAnswers (.atomic p.id) s p 0x21 7)
    ∧ (elemCount f p.memLen ≠ 0 → reduceExact p.aword = true → p.addr % 16 = 0 →
      (∀ bs, BoltOpen s p 0x14 p.extent → s.d.eccAt p.addr p.extent = false →
        addRecords f (memRead s.mem p.addr p.extent) ((List.range (p.memLen / w)).map (fun i => bytesAt (p.bytesFrom 32 p.memLen) (i * w) w)) = some bs →
        Completes (.reduceWrite p.id) s (fun t => MemOnly s t ∧ Stored s t p.addr bs) ∧ SendsSome (.reduceWrite p.id) s (Reply p 0x21 0 0))
      ∧ (BoltOpen s p 0x14 p.extent → s.d.eccAt p.addr p.extent = false →
        addRecords f (memRead s.mem p.addr p.extent) ((List.range (p.memLen / w)).map (fun i => bytesAt (p.bytesFrom 32 p.memLen) (i * w) w)) = none →
        BoltAnswers (.reduceWrite p.id) s p 0x21 7)
      ∧ (BoltDown s p 0x14 p.extent → BoltAnswers (.reduceWrite p.id) s p 0x21 1)
      ∧ (BoltEcc s p 0x14 p.extent → BoltAnswers (.reduceWrite p.id) s p 0x21 8)
      ∧ (BoltShut s p 0x14 p.extent → BoltAnswers (.reduceWrite p.id) s p 0x21 2))
    ∧ (elemCount f p.memLen ≠ 0 → reduceExact p.aword = false → reduceInPlace p.aword = true → p.addr % max 1 w = 0 →
      BoltOpen s p 0x14 p.memLen → s.d.eccAt p.addr p.memLen = false →
      Completes (.reduceWrite p.id) s (fun t => MemOnly s t
          ∧ Stored s t p.addr (combineElems s.d.fresh p.aword (memRead s.mem p.addr p.memLen) (p.bytesFrom 32 p.memLen)))
        ∧ SendsSome (.reduceWrite p.id) s (Reply p 0x21 0 0))
    ∧ (AtBolt s p 0x14 → reduceExact p.aword = false ∧ reduceInPlace p.aword = false ∨ elemCount f p.memLen = 0 → BoltAnswers (.reduceWrite p.id) s p 0x21 7)

/-- Holds, responses and moves of ownership at the terminals of memory flows.
The model's choices: log entries 38, 39, 191, 192. -/
def Obligations.MemoryOrdering : Prop :=
  ∀ (s : State) (p : Pkt) (c : Ctx),
    (HeldAtNext s p c → p.opc = 0x15 → (s.d.flow p.src p.dst).outA = 0 →
      Completes (.fence p.id) s (fun t => HoldEnds (.fence p.id) s t p c ((s.d.flow p.src p.dst).errA % 16)))
    ∧ (HeldAtNext s p c → p.opc = 0x15 → (s.d.flow p.src p.dst).outA ≠ 0 → Completes (.fence p.id) s (fun t => t = s))
    ∧ (HeldAtNext s p c → p.opc = 0x12 ∨ p.opc = 0x15 ∨ p.opc = 0x16 →
      Completes (.flagHoldExpiry p.src p.dst p.psnValid) s (fun t =>
        HoldEnds (.flagHoldExpiry p.src p.dst p.psnValid) s t p c 6 ∧ Counts s t 3 2 1))
    ∧ (∀ lane, AtIngress s p (.respIn lane) →
      (∀ l, s.d.net.ledger = [l] → l.src = p.dst → l.dst = p.src → l.tag = p.at 4 2 →
        ∀ d : Dev, d = s.d.responseTaken p → exec (.responseAtIngress p.id) s = .next { s with d := (d.forward p.id).settle } ∧ d.net.ledger = []
          ∧ d.pkt p.id = some { p with place := .ingress } ∧ s.d.Soft d
          ∧ (d.flow l.src l.dst).outA = (s.d.flow l.src l.dst).outA - 1
          ∧ (d.flow l.src l.dst).outW = (s.d.flow l.src l.dst).outW - (if l.writing then 1 else 0)
          ∧ (p.status = 0 → (d.flow l.src l.dst).errA = (s.d.flow l.src l.dst).errA ∧ (d.flow l.src l.dst).errW = (s.d.flow l.src l.dst).errW)
          ∧ (p.status ≠ 0 → (d.flow l.src l.dst).errA = St.join (s.d.flow l.src l.dst).errA p.status
              ∧ (d.flow l.src l.dst).errW = if l.writing then St.join (s.d.flow l.src l.dst).errW p.status else (s.d.flow l.src l.dst).errW))
      ∧ ((∀ l ∈ s.d.net.ledger, ¬ (l.src = p.dst ∧ l.dst = p.src ∧ l.tag = p.at 4 2)) →
        ∀ d : Dev, d = s.d.responseTaken p → exec (.responseAtIngress p.id) s = .next { s with d := (d.forward p.id).settle } ∧ d.net.ledger = s.d.net.ledger
          ∧ d.pkt p.id = some { p with place := .ingress } ∧ s.d.Soft d)
      ∧ Completes (.responseAtIngress p.id) s (fun t => Quiet s t))
    ∧ (∀ lane, AtIngress s p (.xferIn lane) → p.vl = 1 → p.opc = 0x16 →
      (∀ i e, (s.d.swatchAt p.prod p.addr).1 = some (i, e) →
        (p.dst.toNat = swTarget e → swOwner e / 256 = bitsOf p.src 31 8 → swState e = 0 →
          ∀ d : Dev, d = s.d.moveStart p i e → exec (.swatchXfer p.id) s = .next { s with d := (d.forward p.id).settle }
            ∧ d.ent 3 i = some (setData e 4 32 31 1)
            ∧ (∀ a j, tblKey a j ≠ tblKey 3 i → d.ent a j = s.d.ent a j)
            ∧ (∃ mv : Move, d.tab.moves.find i = some mv ∧ mv.newOwner.toNat = p.at 16 4 ∧ mv.newMode = bitOf (BitVec.ofNat 8 (p.at 20 1)) 0
                ∧ mv.owner = p.src ∧ mv.tag = p.at 4 2)
            ∧ ∃ q, d.pkt p.id = some q ∧ q.place = .ingress ∧ q.hdr = p.hdr ∧ q.xlated = true
              ∧ q.addr = (swLocal e * 4096 + (p.addr - swBase e * 4096)) % 2 ^ 64)
        ∧ (p.dst.toNat ≠ swTarget e ∨ swOwner e / 256 ≠ bitsOf p.src 31 8 ∨ swState e ≠ 0 → BoltAnswers (.swatchXfer p.id) s p 0x21 2))
      ∧ ((s.d.swatchAt p.prod p.addr).1 = none → BoltAnswers (.swatchXfer p.id) s p 0x21 2)
      ∧ Completes (.swatchXfer p.id) s (fun t => Rest s t ∧ Only noMoves s t (fun r _ => r.busy = true)))
    ∧ (∀ i mv e, Calm s → s.d.tab.moves.find i = some mv → s.d.ent 3 i = some e →
      Completes (.moveLimitExpiry i) s (fun t => t.d.ent 3 i = some (setData e 4 32 31 0) ∧ t.d.tab.moves.find i = none
        ∧ (∀ a j, tblKey a j ≠ tblKey 3 i → t.d.ent a j = s.d.ent a j)
        ∧ (Heard s → Raises s t 0x51 3 (swProd e) 0) ∧ Only noMoves s t (fun r _ => r.busy = true))
      ∧ SendsSome (.moveLimitExpiry i) s (fun q => q.dst = mv.owner ∧ q.src.toNat = swTarget e ∧ q.opc = 0x21 ∧ q.status = 6
          ∧ bitOf q.rw 16 = true ∧ q.at 4 2 = mv.tag % 2 ^ 16))

/-- Dead targets: the declaration and the three steps of the timeline.
The model's choices: log entries 226, 237. -/
def Obligations.DeadTargets : Prop :=
  ∀ (s : State) (ca : BitVec 32),
    (∀ lane, lane < s.d.nLanes → s.d.net.endsDown = [] → s.d.ltype lane = 0 → s.d.peerCa lane ≠ 0 → s.d.endHeard (s.d.peerCa lane) = false →
      Completes (.deadLapseExpiry lane) s (fun t => (∃ l, t = { s with d := { s.d with net := { s.d.net with deads := s.d.net.deads ++ l } } }
          ∧ ∀ x ∈ l, x.phase = 0 ∧ x.poisoned = 0)
        ∧ ∀ c q, (∃ x ∈ t.d.net.deads, x.ca = c ∧ x.prod = q)
            ↔ (∃ x ∈ s.d.net.deads, x.ca = c ∧ x.prod = q) ∨ c = s.d.peerCa lane ∧ Involves s c q))
    ∧ (∀ lane, lane < s.d.nLanes → s.d.net.endsDown = [] → s.d.ltype lane ≠ 0 ∨ s.d.peerCa lane = 0 ∨ s.d.endHeard (s.d.peerCa lane) = true →
      Completes (.deadLapseExpiry lane) s (fun t => t = s))
    ∧ (∀ lane, Calm s → InState s lane 3 → s.d.ltype lane = 0 → s.d.peerCa lane ≠ 0 →
        (∀ l, l < s.d.nLanes → l ≠ lane → s.d.ltype l = 0 → s.d.peerCa l = s.d.peerCa lane → s.d.lstate l ≠ 3) →
      Completes (.lockLoss lane) s (fun t => ∀ x ∈ s.d.entries 3, swTarget x.2 / 256 = s.d.peerCa lane →
        ∃ y ∈ t.d.net.deads, y.ca = s.d.peerCa lane ∧ y.prod = swProd x.2))
    ∧ (Calm s → NMap.sorted s.d.tab.ent = true →
      (s.d.net.pkts = [] → Completes (.deadTargetRefuse ca) s (fun t => DeadSteps s t (bitsOf ca 31 8) 0
        ∧ (∀ i e, i < 2 ^ 20 → s.d.ent 3 i = some e → t.d.ent 3 i =
            if swTarget e / 256 = bitsOf ca 31 8 ∧ (∃ x ∈ s.d.net.deads, x.ca = bitsOf ca 31 8 ∧ x.phase = 0 ∧ x.prod = swProd e)
            then some (setData e 4 32 31 2) else some e)
        ∧ Only noMoves s t (fun r _ => r.busy = true)))
      ∧ (∀ p c, HeldAtNext s p c → bitsOf p.dst 31 8 = bitsOf ca 31 8 → c.dst = p.dst → c.next = p.rsqNo →
          (∃ x ∈ s.d.net.deads, x.ca = bitsOf ca 31 8 ∧ x.phase = 0 ∧ x.prod = p.prod) →
          SendsSome (.deadTargetRefuse ca) s (Reply p 0x21 1 0)))
    ∧ (∀ l n, Calm s → s.d.net.pkts = [] → s.d.net.ledger = [l] → bitsOf l.dst 31 8 = bitsOf ca 31 8 →
        s.d.net.deads = [⟨bitsOf ca 31 8, l.prod, 1, n⟩] →
      Completes (.deadTargetLedger ca) s (fun t => t.d.net.ledger = [] ∧ t.d.net.deads = [⟨bitsOf ca 31 8, l.prod, 2, n + 1⟩] ∧ Quiet s t)
      ∧ SendsSome (.deadTargetLedger ca) s (fun q => q.dst = l.src ∧ q.src = l.dst ∧ q.opc = 0x21 ∧ q.status = 1 ∧ q.vl = 2
          ∧ q.prod = l.prod % 4096 ∧ q.at 4 2 = l.tag % 2 ^ 16))
    ∧ Completes (.teardown ca) s (fun t => DeadSteps s t (bitsOf ca 31 8) 2
        ∧ (∀ x ∈ s.d.net.deads, x.ca = bitsOf ca 31 8 → x.phase = 2 → Heard s →
            Raises s t 0x52 3 x.prod (ca.toNat * 2 ^ 32 + x.poisoned))
        ∧ Only noNet s t (fun _ _ => False))

end

namespace Sys2Proof.Claims

open Sys2Proof.Machine

/-! ## Wings -/

/-- What stands beside the registers but for the Wings, their lasers' hours and the received powers on record. -/
def noLaser (d : Dev) : Dev := { d with wings := [], laserRan := [], laserFrom := [], oma := [] }

/-- What stands beside the registers but for packets, lanes, Wings, and the ports to flush from the MAC table. -/
def noWing (d : Dev) : Dev := { noLaser d with net := {}, tab := { d.tab with flush := [] } }

/-- Registers of a Wing's lasers and swaps, and those that follow its lanes of one group. -/
def swapRegs (w g : Nat) (r : RF) (i : Nat) : Prop :=
  r.busy = true ∨ (r = .WNG_LASER ∧ i / 11 = w) ∨ (r = .WNG_LASER_CMD ∧ i = w) ∨ (r = .WNG_TRAP_CTL ∧ i = w) ∨ r = .SEC_MEAS
    ∨ r = .PWR_GOV ∨ ∃ l ∈ groupLanes w g, laneRegs l r i

/-- A command's change keeps to one Wing: other Wings, and registers that are not of its lasers, swaps and group, stay. -/
structure InWing (s t : State) (w g : Nat) : Prop where
  rest : Rest s t
  frame : Only (fun d => { noWing d with overlay := [], fades := [] }) s t (swapRegs w g)
  others : ∀ v, v ≠ w → t.d.wing v = s.d.wing v

/-- A swap has begun: the understudy warms, the working laser is SWAPPING, and in a drain the LIT lanes are DRAINING. -/
structure SwapBegins (s t : State) (w g old u : Nat) (fade byCmd : Bool) : Prop where
  under : t.d.laserState w u = 1
  working : t.d.laserState w old = 4
  swap : t.d.swapOf w g = some ⟨g, u, old, fade, 0, byCmd, false, s.d.trained w g⟩
  lanes : ∀ l ∈ groupLanes w g, t.d.ostate l =
    if fade = false then (if s.d.ostate l = 1 then 3 else s.d.ostate l)
    else if s.d.ostate l = 3 ∧ l ∉ s.d.pwr.parked then 1 else s.d.ostate l
  heard : Heard s → Raises s t 0x62 (8 * (w + 1)) 0 (g * 2 ^ 60 + u * 2 ^ 56)

/-- A swap of a group runs between two lasers of its Wing. -/
structure SwapRuns (s : State) (w g : Nat) (x : Swap) : Prop where
  wing : w < s.d.nWings
  group : g < 8
  running : s.d.swapOf w g = some x
  lasers : x.under < 11 ∧ x.old < 11 ∧ x.under ≠ x.old

/-- A swap has ended: the understudy feeds the group, the old laser retires, or stands by after a rehearsal. -/
structure SwapEnds (s t : State) (w g : Nat) (x : Swap) : Prop where
  under : t.d.laserState w x.under = 2 ∧ t.d.fld F.WNG_LASER_GROUP (11 * w + x.under) = g
  old : t.d.laserState w x.old = (if s.d.fades.contains (w, g) = true then 3 else 5) ∧ t.d.fld F.WNG_LASER_GROUP (11 * w + x.old) = 15
    ∧ t.d.fld F.WNG_LASER_EOL_WARN (11 * w + x.old) = 0 ∧ t.d.fld F.WNG_LASER_BIAS (11 * w + x.old) = 0
  over_ : t.d.swapOf w g = none
  heard : Heard s → Raises s t 0x63 (8 * (w + 1)) 0 (g * 2 ^ 60 + x.under * 2 ^ 56 + (if x.fade then 1 else 0) * 2 ^ 55)
  record : s.d.fades.contains (w, g) = false → s.d.overlay.length < 1024 →
    t.d.overlay = s.d.overlay ++ [⟨4, w + 1, x.old, x.under, s.d.timeNs % 2 ^ 32⟩]
  counted : Counts s t (1040 + w) 5 1
  result : x.byCmd = true → t.d.fld F.WNG_LASER_CMD_BUSY w = 0 ∧ t.d.fld F.WNG_LASER_CMD_RESULT w = if x.fallback then 4 else 0

/-- The group's native lanes that were in service have failed for want of light. -/
def GroupFails (s t : State) (w g : Nat) : Prop :=
  ∀ l ∈ groupLanes w g, s.d.ltype l ≤ 1 → 3 ≤ s.d.lstate l → s.d.lstate l ≤ 5 →
    t.d.lstate l = 6 ∧ t.d.fld F.PRT_LINK_STAT_CAUSE l = 1

/-- The understudy of a swap has failed: the other one in STANDBY starts the swap again, or the group's lanes go down (R239). -/
structure UnderFails (s t : State) (w g : Nat) (x : Swap) : Prop where
  failed : t.d.laserState w x.under = 6
  alone : (∀ k, k ∈ [8, 9, g] → k ≠ x.under → s.d.laserState w k ≠ 3) → t.d.swapOf w g = none
    ∧ (s.d.laserState w x.old = 4 → t.d.laserState w x.old = 2) ∧ GroupFails s t w g
    ∧ (Heard s → Raises s t 0x65 (8 * (w + 1)) 0 0 ∧ Raises s t 0x86 (8 * (w + 1)) 0 (Config.repairData 4 (w + 1) x.old).toNat)
    ∧ (x.byCmd = true → t.d.fld F.WNG_LASER_CMD_BUSY w = 0 ∧ t.d.fld F.WNG_LASER_CMD_RESULT w = 1)
  other : ∀ u, [8, 9, g].find? (fun k => k != x.under && s.d.laserState w k == 3) = some u → t.d.laserState w u = 1
    ∧ (∃ y, t.d.swapOf w g = some y ∧ y.under = u ∧ y.old = x.old ∧ y.byCmd = x.byCmd)
    ∧ (Heard s → Raises s t 0x62 (8 * (w + 1)) 0 (g * 2 ^ 60 + u * 2 ^ 56))
  frame : InWing s t w g

/-- A lane that a swap retrains: of a native type, enabled, and not parked. -/
def Retrained (s : State) (l : Nat) : Prop :=
  s.d.ltype l ≤ 1 ∧ s.d.fld F.PRT_LINK_CTL_EN l = 1 ∧ s.d.ostate l ≠ 2

/-- A lane stands DOWN or FAILED and may train once its light and its heaters are there. -/
structure WaitsLight (s : State) (l : Nat) : Prop where
  type : s.d.fld F.PRT_LINK_CTL_TYPE l ≤ 1
  enabled : s.d.fld F.PRT_LINK_CTL_EN l = 1
  wing : s.d.site (l / 64 + 1) = 1 ∧ s.d.sec.wingFw = true
  governor : l ∉ s.d.pwr.parked

/-- A circuit of a trapdoor map: output j takes its light from input i. -/
def Circuit (m : BitVec 128) (j i : Nat) : Prop := j < 16 ∧ bitsOf m (127 - 8 * j) (120 - 8 * j) / 128 = 1 ∧ bitsOf m (127 - 8 * j) (120 - 8 * j) % 16 = i

/-- The map written and the map in use differ in the circuit from input i to output j. -/
def Moves (s : State) (w j i : Nat) : Prop :=
  Circuit (s.d.trapMap w) j i ∧ ¬ Circuit (s.d.wing w).trap j i ∨ ¬ Circuit (s.d.trapMap w) j i ∧ Circuit (s.d.wing w).trap j i

/-- A commit would change a circuit of a lane of a group whose laser is being swapped. -/
def MapHeld (s : State) (w : Nat) : Prop :=
  ∃ x ∈ (s.d.wing w).swaps, ∃ j i, Moves s w j i ∧ (6 + j / 8 = x.group ∨ 6 + i / 8 = x.group)

/-- Lane 48 + i of a Wing is of trapdoor type. -/
def IsTrap (s : State) (w i : Nat) : Prop := s.d.fld F.PRT_LINK_CTL_TYPE (64 * w + 48 + i) = 3

/-- The input of a circuit is dark: its received power is below the threshold, or below range. -/
def InputDark (s : State) (w i : Nat) : Prop :=
  s.d.fld F.WNG_LANE_STAT_RX_POWER (65 * w + 48 + i) = 0x800
  ∨ (BitVec.ofNat 12 (s.d.fld F.WNG_LANE_STAT_RX_POWER (65 * w + 48 + i))).toInt < -(10 * (s.d.fld F.WNG_TRAP_CTL_DARK w : Int))

/-- The received power of an input is above the threshold. -/
def InputLit (s : State) (w i : Nat) : Prop :=
  s.d.fld F.WNG_LANE_STAT_RX_POWER (65 * w + 48 + i) ≠ 0x800
  ∧ -(10 * (s.d.fld F.WNG_TRAP_CTL_DARK w : Int)) < (BitVec.ofNat 12 (s.d.fld F.WNG_LANE_STAT_RX_POWER (65 * w + 48 + i))).toInt

/-- A circuit carries no light: its input is dark, a heater on its path is clamped, or its Wing does not run. -/
def NoLight (s : State) (w j i : Nat) : Prop :=
  InputDark s w i ∨ (∃ h ∈ (s.d.wing w).clamped, h ∈ (s.d.wing w).elements j) ∨ s.d.site (w + 1) ≠ 1 ∨ s.d.power = .shutdown

end Sys2Proof.Claims

section
open Sys2Proof Sys2Proof.Claims Sys2Proof.Machine

/-- Laser swaps: how one is commanded, each of its rows, its end, and what a laser's failure does.
The model's choices: log entries 120, 123, 124, 125, 126. -/
def Obligations.LaserSwaps : Prop :=
  ∀ (s : State) (w g : Nat) (x : Swap), w < s.d.nWings → g < 8 →
    (∀ (m : Master) (data : Word) (op : Nat) (c : Instr), op = 1 ∧ c = .laserSwap m w data ∨ op = 2 ∧ c = .swapFade m w data →
      Reaches s m .WNG_LASER_CMD w (setBits data 63 60 op) →
      (8 ≤ bitsOf data 59 56 → Completes c s (fun t => Answers t 0 ∧ t.d.fld F.WNG_LASER_CMD_RESULT w = 2
          ∧ Only id s t (fun r i => r = .WNG_LASER_CMD ∧ i = w)))
      ∧ (bitsOf data 59 56 = g →
      (∀ old u, s.d.fld F.WNG_LASER_CMD_BUSY w = 0 → s.d.groupLaser w g = some old → s.d.laserState w old = 2 → s.d.freeUnder w g = some u →
        Completes c s (fun t => Answers t 0 ∧ t.d.fld F.WNG_LASER_CMD_BUSY w = 1
          ∧ SwapBegins s t w g old u (decide (op = 2 ∨ s.d.drainable w g = false)) true ∧ InWing s t w g))
      ∧ (∀ old, s.d.fld F.WNG_LASER_CMD_BUSY w = 0 → s.d.groupLaser w g = some old → s.d.laserState w old = 2 → s.d.freeUnder w g = none →
        Completes c s (fun t => Answers t 0 ∧ t.d.fld F.WNG_LASER_CMD_RESULT w = 1 ∧ Only id s t (fun r i => r = .WNG_LASER_CMD ∧ i = w)))
      ∧ ((s.d.fld F.WNG_LASER_CMD_BUSY w = 1 ∨ s.d.groupLaser w g = none ∨ ∃ old, s.d.groupLaser w g = some old ∧ s.d.laserState w old ≠ 2) →
        Completes c s (fun t => Answers t 0 ∧ t.d.fld F.WNG_LASER_CMD_RESULT w = 2 ∧ Only id s t (fun r i => r = .WNG_LASER_CMD ∧ i = w)))))
    ∧ (SwapRuns s w g x → x.row = 0 → x.fade = false →
      ((∀ l ∈ groupLanes w g, s.d.egressEmpty l = true) →
        Completes (.laserDrainCheck w g) s (fun t => t.d.swapOf w g = some { x with row := 1 }
          ∧ Only (fun d => { d with wings := [] }) s t (fun _ _ => False) ∧ ∀ v, v ≠ w → t.d.wing v = s.d.wing v))
      ∧ ((∃ l ∈ groupLanes w g, s.d.egressEmpty l = false) →
        Completes (.laserDrainCheck w g) s (fun t => t.d.swapOf w g = some { x with row := 1, fade := true, fallback := true }
          ∧ (∀ l ∈ groupLanes w g, t.d.ostate l = if s.d.ostate l = 3 ∧ l ∉ s.d.pwr.parked then 1 else s.d.ostate l)
          ∧ (x.byCmd = true → t.d.fld F.WNG_LASER_CMD_RESULT w = 4) ∧ InWing s t w g)))
    ∧ (SwapRuns s w g x → x.row < 3 →
      (x.fade = true → Completes (.laserWavelengthReady w g true) s (fun t => t.d.swapOf w g = some { x with row := 3 }
          ∧ Only (fun d => { d with wings := [] }) s t (fun _ _ => False) ∧ ∀ v, v ≠ w → t.d.wing v = s.d.wing v))
      ∧ (x.fade = false → x.row = 1 → Completes (.laserWavelengthReady w g true) s (fun t => t.d.swapOf w g = some { x with row := 3 }
          ∧ (s.d.laserState w x.old = 4 → t.d.laserState w x.old = 0)
          ∧ (∀ l ∈ groupLanes w g, s.d.ostate l = 3 → l ∉ s.d.pwr.parked → s.d.ltype l ≤ 1 → 1 ≤ s.d.lstate l → s.d.lstate l ≤ 5 →
              (s.d.lane l).exiting ≠ some .retype → t.d.lstate l = 1 ∧ t.d.ostate l = 3)
          ∧ InWing s t w g))
      ∧ ((x.fade = true ∨ x.row = 1) → Completes (.laserWavelengthReady w g false) s (fun t => UnderFails s t w g x))
      ∧ (x.fade = false → x.row = 0 → ∀ ok, Completes (.laserWavelengthReady w g ok) s (fun t => t = s)))
    ∧ (SwapRuns s w g x → x.row = 3 → x.fade = false →
      ((∃ l ∈ x.lanes, Retrained s l ∧ 2 ≤ s.d.lstate l ∧ s.d.lstate l ≠ 6) ∨ (∀ l ∈ x.lanes, ¬ Retrained s l) →
        Completes (.laserSwapComplete w g) s (fun t => SwapEnds s t w g x ∧ InWing s t w g
          ∧ ∀ l ∈ groupLanes w g, s.d.ostate l = 3 → t.d.ostate l = 1))
      ∧ ((∃ l ∈ x.lanes, Retrained s l) → (∀ l ∈ x.lanes, Retrained s l → s.d.lstate l ≤ 1 ∨ s.d.lstate l = 6) →
        Completes (.laserSwapComplete w g) s (fun t => UnderFails s t w g x)))
    ∧ (SwapRuns s w g x → x.row = 3 → x.fade = true →
        Completes (.laserCrossfadeDone w g) s (fun t => SwapEnds s t w g x ∧ InWing s t w g))
    ∧ (∀ k, k < 10 → s.d.laserState w k = 2 → s.d.fld F.WNG_LASER_GROUP (11 * w + k) = g →
        Completes (.laserTapFail w k) s (fun t => t.d.laserState w k = 6 ∧ GroupFails s t w g ∧ InWing s t w g
          ∧ (Heard s → Raises s t 0x64 (8 * (w + 1)) 0 0)
          ∧ (s.d.fld F.WNG_CTL_AUTO_SWAP w = 1 → (∀ u, u ∈ [8, 9, g] → u ≠ k → s.d.laserState w u ≠ 3) → Heard s →
              Raises s t 0x65 (8 * (w + 1)) 0 0 ∧ Raises s t 0x86 (8 * (w + 1)) 0 (Config.repairData 4 (w + 1) k).toNat)
          ∧ (s.d.fld F.WNG_CTL_AUTO_SWAP w = 0 → t.d.swapOf w g = s.d.swapOf w g)
          ∧ ∀ u, s.d.fld F.WNG_CTL_AUTO_SWAP w = 1 → s.d.freeUnder w g = some u →
              t.d.laserState w u = 1 ∧ t.d.swapOf w g = some ⟨g, u, k, false, 1, false, false, s.d.trained w g⟩))
    ∧ (SwapRuns s w g x → s.d.laserState w x.old = 4 → s.d.fld F.WNG_LASER_GROUP (11 * w + x.old) = g → x.old < 10 →
        Completes (.laserTapFail w x.old) s (fun t => t.d.laserState w x.old = 6 ∧ GroupFails s t w g ∧ InWing s t w g
          ∧ t.d.swapOf w g = some { x with fade := false, row := max 1 x.row, lanes := (x.lanes ++ s.d.trained w g).dedup } ∧ (Heard s → Raises s t 0x64 (8 * (w + 1)) 0 0)))
    ∧ (s.d.laserState w 10 = 2 → Completes (.laserTapFail w 10) s (fun t => t.d.laserState w 10 = 6
          ∧ t.d.fld F.WNG_LANE_STAT_OSTATE (65 * w + 64) = 0
          ∧ (∀ p, p ∈ t.d.houseUp ↔ p ∈ s.d.houseUp ∧ ¬ (w = 0 ∧ p = 0 ∨ w = s.d.nWings / 2 ∧ p = 1))
          ∧ (∀ p, p ∈ s.d.houseUp → w = 0 ∧ p = 0 ∨ w = s.d.nWings / 2 ∧ p = 1 → Heard s → Raises s t 0xA1 (8 * (w + 1)) 0 p)
          ∧ (Heard s → Raises s t 0x64 (8 * (w + 1)) 0 0)
          ∧ Only (fun d => { noLaser d with houseUp := [] }) s t (fun r i => r = .WNG_LASER ∧ i = 11 * w + 10
              ∨ r = .WNG_LANE_STAT ∧ i = 65 * w + 64)))

/-- Lanes, monitors, heaters and the crosstalk matrix of a Wing.
The model's choices: log entries 119, 120, 127, 229. -/
def Obligations.WingLanesAndHeaters : Prop :=
  ∀ (s : State) (w : Nat), w < s.d.nWings →
    (∀ lane, lane < s.d.nLanes → lane ∈ s.d.pwr.parked → s.d.ostate lane = 3 → s.d.egressEmpty lane = true → (s.d.lane lane).hbDue = false →
      Completes (.lanePark lane) s (fun t => t.d.ostate lane = 2 ∧ t.d.lstate lane = 0
        ∧ t.d.fld F.PWR_GOV_PARKED 0 = (s.d.fld F.PWR_GOV_PARKED 0 + 1) % 1024
        ∧ (s.d.lstate lane = 3 → t.d.fld F.PRT_LINK_STAT_CAUSE lane = 6 ∧ (Heard s → Raises s t 0x70 1 0 (lane * 2 ^ 48 + 6 * 2 ^ 44)))
        ∧ Only noNet s t (fun r i => laneRegs lane r i ∨ r = .PWR_GOV)))
    ∧ (∀ k g, k < 10 → s.d.fld F.WNG_LASER_GROUP (11 * w + k) = g →
      (s.d.laserState w k = 2 → (∃ l ∈ groupLanes w g, s.d.ostate l = 2) → (∀ l ∈ groupLanes w g, s.d.ostate l ≠ 1 ∧ s.d.ostate l ≠ 3) →
        Completes (.laserIdleOff w k) s (fun t => t.d.laserState w k = 0 ∧ t.d.fld F.WNG_LASER_BIAS (11 * w + k) = 0
          ∧ Only noLaser s t (fun r i => r = .WNG_LASER ∧ i = 11 * w + k)))
      ∧ (s.d.laserState w k = 1 → g < 8 → Completes (.laserWarmed w k) s (fun t => t.d.laserState w k = 2
          ∧ (∀ l ∈ groupLanes w g, WaitsLight s l → s.d.lstate l = 0 → l % 64 ∉ (s.d.wing w).clamped → 120 + g ∉ (s.d.wing w).clamped →
              t.d.lstate l = 1 ∧ t.d.ostate l = 1)
          ∧ InWing s t w g)))
    ∧ (∀ j power near, s.d.site (w + 1) = 1 →
      (j < 64 → Completes (.rxPowerRefresh w j power near) s (fun t => t.d.fld F.WNG_LANE_STAT_RX_POWER (65 * w + j) = power % 4096
          ∧ t.d.fld F.WNG_LANE_STAT_NEAR_MARGIN (65 * w + j) = min near 1023 ∧ (t.d.lane (64 * w + j)).nearValid = true
          ∧ Only (fun d => { d with net := { d.net with lanes := [] } }) s t (fun r i => r = .WNG_LANE_STAT ∧ i = 65 * w + j)))
      ∧ (w = 0 ∨ w = s.d.nWings / 2 → Completes (.rxPowerRefresh w 64 power near) s (fun t =>
          t.d.fld F.WNG_LANE_STAT_RX_POWER (65 * w + 64) = power % 4096
          ∧ (s.d.laserState w 10 ≠ 2 → Only id s t (fun r i => r = .WNG_LANE_STAT ∧ i = 65 * w + 64))
          ∧ (s.d.laserState w 10 = 2 → t.d.fld F.WNG_LASER_BIAS (11 * w + 10) ≤ 1000 ∧ t.d.laserState w 10 = 2
              ∧ (800 ≤ t.d.fld F.WNG_LASER_BIAS (11 * w + 10) → t.d.fld F.WNG_LASER_EOL_WARN (11 * w + 10) = 1
                ∧ (s.d.fld F.WNG_LASER_EOL_WARN (11 * w + 10) = 0 → Heard s → Raises s t 0x60 (8 * (w + 1)) 0 0))
              ∧ Only (fun d => { d with wings := [] }) s t (fun r i => r = .WNG_LANE_STAT ∧ i = 65 * w + 64 ∨ r = .WNG_LASER ∧ i = 11 * w + 10))))
      ∧ (w ≠ 0 → w ≠ s.d.nWings / 2 → Completes (.rxPowerRefresh w 64 power near) s (fun t => t = s)))
    ∧ (∀ heater err, s.d.site (w + 1) = 1 → heater < 64 →
      Completes (.heaterTelemetry w heater err) s (fun t => (t.d.wing w).ffLost = false ∧ (t.d.wing w).ff.isSome = true
        ∧ t.d.fld F.WNG_HEAT_STAT_WORST_PM w = max (s.d.fld F.WNG_HEAT_STAT_WORST_PM w) (min err 65535)
        ∧ t.d.fld F.WNG_HEAT_STAT_WORST_HEATER w =
            (if s.d.fld F.WNG_HEAT_STAT_WORST_PM w < min err 65535 then heater else s.d.fld F.WNG_HEAT_STAT_WORST_HEATER w)
        ∧ Only (fun d => { d with wings := [] }) s t (fun r i => r = .WNG_HEAT_STAT ∧ i = w)))
    ∧ (s.d.site (w + 1) = 1 →
      ((s.d.wing w).ffLost = false → Completes (.heatFfLost w) s (fun t => (t.d.wing w).ffLost = true ∧ (t.d.wing w).ff = none
        ∧ (Heard s → Raises s t 0x66 (8 * (w + 1)) 0 0) ∧ Only (fun d => { d with wings := [] }) s t (fun _ _ => False)))
      ∧ ((s.d.wing w).ffLost = true → Completes (.heatFfLost w) s (fun t => t = s)))
    ∧ (∀ heater atMax, s.d.site (w + 1) = 1 → heater < 128 →
      Completes (.heaterRange w heater atMax) s (fun t => heater ∈ (t.d.wing w).clamped ∧ Rest s t
        ∧ (Heard s → s.d.limits.find (0x67 * 2 ^ 32 + 128 * w + heater) = none →
            Raises s t 0x67 (8 * (w + 1)) 0 (heater * 2 ^ 57 + (if atMax then 1 else 0) * 2 ^ 56))
        ∧ (heater < 64 → s.d.ltype (64 * w + heater) ≤ 1 → 3 ≤ s.d.lstate (64 * w + heater) → s.d.lstate (64 * w + heater) ≤ 5 →
            t.d.lstate (64 * w + heater) = 6 ∧ t.d.fld F.PRT_LINK_STAT_CAUSE (64 * w + heater) = 2)
        ∧ (heater < 64 → s.d.ltype (64 * w + heater) = 2 → s.d.lstate (64 * w + heater) = 3 →
            t.d.lstate (64 * w + heater) = 0 ∧ t.d.fld F.PRT_LINK_STAT_CAUSE (64 * w + heater) = 2)
        ∧ (heater < 64 → s.d.ostate (64 * w + heater) = 1 ∨ s.d.ostate (64 * w + heater) = 3 → t.d.ostate (64 * w + heater) = 0)
        ∧ (heater < 64 → InWing s t w (heater / 8))
        ∧ (120 ≤ heater → GroupFails s t w (heater - 120) ∧ InWing s t w (heater - 120))
        ∧ (64 ≤ heater → heater < 120 → Only (fun d => { d with wings := [] }) s t (fun _ _ => False))))
    ∧ (∀ heater, heater < 128 → heater ∈ (s.d.wing w).clamped →
      Completes (.heaterInRange w heater) s (fun t => heater ∉ (t.d.wing w).clamped ∧ Rest s t
        ∧ (heater < 64 → WaitsLight s (64 * w + heater) → (s.d.lstate (64 * w + heater) = 0 ∨ s.d.lstate (64 * w + heater) = 6) →
            s.d.laserOn (64 * w + heater) = true → 120 + heater / 8 ∉ (s.d.wing w).clamped → t.d.lstate (64 * w + heater) = 1)
        ∧ (heater < 64 → s.d.fld F.PRT_LINK_CTL_TYPE (64 * w + heater) = 2 → s.d.fld F.PRT_LINK_CTL_EN (64 * w + heater) = 1 →
            s.d.site (w + 1) = 1 → s.d.laserOn (64 * w + heater) = true → 120 + heater / 8 ∉ (s.d.wing w).clamped →
            t.d.ostate (64 * w + heater) = 1)
        ∧ (heater < 64 → InWing s t w (heater / 8))
        ∧ (120 ≤ heater → InWing s t w (heater - 120) ∧ ∀ l ∈ groupLanes w (heater - 120), WaitsLight s l →
            (s.d.lstate l = 0 ∨ s.d.lstate l = 6) → s.d.laserOn l = true → l % 64 ∉ (s.d.wing w).clamped → t.d.lstate l = 1)
        ∧ (64 ≤ heater → heater < 120 → Only (fun d => { d with wings := [] }) s t (fun _ _ => False))))
    ∧ (∀ (m : Master) (data : Word), Reaches s m .WNG_CTL w (setBits data 60 60 1) →
      Completes (.xtCommit m w data) s (fun t => Answers t 0 ∧ t.d.fld F.WNG_CTL_XT_COMMIT w = 1
        ∧ t.d.fld F.WNG_CTL_AUTO_SWAP w = bitsOf data 63 63 ∧ t.d.fld F.WNG_CTL_FF_EN w = bitsOf data 62 62
        ∧ t.d.fld F.WNG_CTL_XT_EN w = (if s.d.nWings = 8 then 0 else bitsOf data 61 61) ∧ t.d.fld F.WNG_CTL_MON_INT w = bitsOf data 59 58
        ∧ Only id s t (fun r i => r = .WNG_CTL ∧ i = w)))
    ∧ (s.d.fld F.WNG_CTL_XT_COMMIT w = 1 → Completes (.xtalkApply w) s (fun t => t.d.fld F.WNG_CTL_XT_COMMIT w = 0
        ∧ (∀ k, k < 640 → (t.d.wing w).xt.get 0 k = s.d.rd .WNG_XTALK (640 * w + k))
        ∧ (∀ v, v ≠ w → t.d.wing v = s.d.wing v)
        ∧ Only (fun d => { d with wings := [] }) s t (fun r i => r = .WNG_CTL ∧ i = w)))

/-- Trapdoors: a commit is checked, waits for a swap, and ends with the map in use; and a dark circuit is reported.
The model's choices: log entries 129, 227, 230. -/
def Obligations.Trapdoors : Prop :=
  ∀ (s : State) (w : Nat), w < s.d.nWings →
    (∀ (m : Master) (data : Word), Reaches s m .WNG_TRAP_CTL w data →
      (s.d.fld F.WNG_TRAP_CTL_STATE w = 0 → bitsOf data 63 63 = 1 →
        ((∀ j i, Circuit (s.d.trapMap w) j i → IsTrap s w j ∧ IsTrap s w i) →
          (∀ j j' i, Circuit (s.d.trapMap w) j i → Circuit (s.d.trapMap w) j' i → j = j') →
          Completes (.trapCommit m w data) s (fun t => Answers t 0 ∧ t.d.fld F.WNG_TRAP_CTL_COMMIT w = 1
            ∧ (MapHeld s w → t.d.fld F.WNG_TRAP_CTL_STATE w = 1) ∧ (¬ MapHeld s w → t.d.fld F.WNG_TRAP_CTL_STATE w = 2)
            ∧ t.d.fld F.WNG_TRAP_CTL_DARK w = bitsOf data 57 48 ∧ Only id s t (fun r i => r = .WNG_TRAP_CTL ∧ i = w)))
        ∧ ((∃ j i, Circuit (s.d.trapMap w) j i ∧ ¬ (IsTrap s w j ∧ IsTrap s w i)) →
          Completes (.trapCommit m w data) s (fun t => Answers t 0 ∧ t.d.fld F.WNG_TRAP_CTL_STATE w = 0 ∧ t.d.fld F.WNG_TRAP_CTL_RESULT w = 1
            ∧ (Heard s → Raises s t 0x68 (8 * (w + 1)) 0 0) ∧ Only id s t (fun r i => r = .WNG_TRAP_CTL ∧ i = w)))
        ∧ ((∀ j i, Circuit (s.d.trapMap w) j i → IsTrap s w j ∧ IsTrap s w i) →
          (∃ j j' i, Circuit (s.d.trapMap w) j i ∧ Circuit (s.d.trapMap w) j' i ∧ j ≠ j') →
          Completes (.trapCommit m w data) s (fun t => Answers t 0 ∧ t.d.fld F.WNG_TRAP_CTL_STATE w = 0 ∧ t.d.fld F.WNG_TRAP_CTL_RESULT w = 2
            ∧ (Heard s → Raises s t 0x68 (8 * (w + 1)) 0 0) ∧ Only id s t (fun r i => r = .WNG_TRAP_CTL ∧ i = w))))
      ∧ ((s.d.fld F.WNG_TRAP_CTL_STATE w ≠ 0 ∨ bitsOf data 63 63 = 0) → Completes (.trapCommit m w data) s (fun t => Answers t 0
          ∧ t.d.fld F.WNG_TRAP_CTL_DARK w = bitsOf data 57 48 ∧ t.d.fld F.WNG_TRAP_CTL_STATE w = s.d.fld F.WNG_TRAP_CTL_STATE w
          ∧ t.d.fld F.WNG_TRAP_CTL_COMMIT w = s.d.fld F.WNG_TRAP_CTL_COMMIT w ∧ Only id s t (fun r i => r = .WNG_TRAP_CTL ∧ i = w))))
    ∧ (s.d.fld F.WNG_TRAP_CTL_STATE w = 2 → Completes (.trapSwitchDone w) s (fun t => (t.d.wing w).trap = s.d.trapMap w
        ∧ t.d.fld F.WNG_TRAP_CTL_STATE w = 0 ∧ t.d.fld F.WNG_TRAP_CTL_RESULT w = 0 ∧ t.d.fld F.WNG_TRAP_CTL_COMMIT w = 0
        ∧ (∀ j, j < 16 → (t.d.fld F.WNG_TRAP_CTL_MOVED w).testBit j = true →
            ∃ i, Circuit (s.d.trapMap w) j i ∧ Circuit (s.d.wing w).trap j i)
        ∧ ((∀ j i, Circuit (s.d.trapMap w) j i → Circuit (s.d.wing w).trap j i) → t.d.fld F.WNG_TRAP_CTL_MOVED w = 0)
        ∧ (∀ j i, Circuit (s.d.trapMap w) j i → Circuit (s.d.wing w).trap j i → (t.d.fld F.WNG_TRAP_CTL_MOVED w).testBit j = false →
            (t.d.wing w).elements j = (s.d.wing w).elements j)
        ∧ (∀ i, i ∈ (t.d.wing w).dark ↔ i ∈ (s.d.wing w).dark ∧ ∃ j, Circuit (s.d.trapMap w) j i ∧ Circuit (s.d.wing w).trap j i)
        ∧ (Heard s → Raises s t 0x69 (8 * (w + 1)) 0 (t.d.fld F.WNG_TRAP_CTL_MOVED w)) ∧ Counts s t (1040 + w) 6 1
        ∧ (∀ v, v ≠ w → t.d.wing v = s.d.wing v)
        ∧ Only (fun d => { d with wings := [] }) s t (fun r i => r = .WNG_TRAP_CTL ∧ i = w)))
    ∧ (∀ i j, Circuit (s.d.wing w).trap j i → (∀ j', Circuit (s.d.wing w).trap j' i → j' = j) →
      (i ∈ (s.d.wing w).dark ∨ ¬ NoLight s w j i → Completes (.trapDark w i) s (fun t => t = s))
      ∧ (i ∉ (s.d.wing w).dark ∨ NoLight s w j i ∨ ¬ InputLit s w i → Completes (.trapLit w i) s (fun t => t = s))
      ∧ (i ∉ (s.d.wing w).dark → NoLight s w j i →
        Completes (.trapDark w i) s (fun t => i ∈ (t.d.wing w).dark ∧ (Heard s → Raises s t 0x6B (8 * (w + 1)) 0 (i * 2 ^ 60 + j * 2 ^ 56))
          ∧ (t.d.wing w).trap = (s.d.wing w).trap ∧ Only (fun d => { d with wings := [] }) s t (fun _ _ => False)))
      ∧ (i ∈ (s.d.wing w).dark → ¬ NoLight s w j i → InputLit s w i →
        Completes (.trapLit w i) s (fun t => i ∉ (t.d.wing w).dark ∧ (Heard s → Raises s t 0x6C (8 * (w + 1)) 0 (i * 2 ^ 60 + j * 2 ^ 56))
          ∧ (t.d.wing w).trap = (s.d.wing w).trap ∧ Only (fun d => { d with wings := [] }) s t (fun _ _ => False))))

end

namespace Sys2Proof.Claims

open Sys2Proof.Machine

/-! ## Time, repairs and rehearsal -/

/-- What stands beside the registers but for the time unit. -/
def noTmu (d : Dev) : Dev := { d with tmu := {} }
/-- What stands beside the registers but for the power measurement and the running minute. -/
def noPwr (d : Dev) : Dev := { d with pwr := {} }
/-- What stands beside the registers but for the running minute and ports. -/
def noPwrPort (d : Dev) : Dev := { d with pwr := {}, net := { d.net with ports := [] } }
/-- What stands beside the registers but for the time unit, the running minute, and ports. -/
def noTmuPort (d : Dev) : Dev := { d with tmu := {}, pwr := {}, net := { d.net with ports := [] } }

/-- T as readable time would rise to SYNCED with a SYNC bit: VALID and LOCKED stand, and DOMAIN is not 0. -/
def MaySync (s : State) : Prop :=
  s.d.fld F.TMU_STAT_VALID 0 = 1 ∧ s.d.fld F.TMU_STAT_LOCKED 0 = 1 ∧ s.d.fld F.TMU_CTL_DOMAIN 0 ≠ 0

/-- Time is synchronised: SYNC, VALID and LOCKED are 1 and DOMAIN is not 0. -/
def Synced (s : State) : Prop := MaySync s ∧ s.d.fld F.TMU_CTL_SYNC 0 = 1

/-- Registers of a minute's entry in the energy log. -/
def minuteRegs (r : RF) : Prop := r = .PWR_LOG_A ∨ r = .PWR_LOG_B

/-- The servo runs and takes the message, of messageType k: of the device's own pod, of its PTP domain, and not dropped. -/
structure ServoTakes (s : State) (p : Pkt) (k : Nat) : Prop where
  runs : s.d.fld F.TMU_CTL_SERVO 0 = 1 ∧ s.d.prompterHalt = false
  type : p.ptpType = some k
  kept : s.d.ptpDrop p = none
  pod : bitsOf p.rw 15 8 = s.d.fld F.TMU_CTL_DOMAIN 0
  domain : bitsOf p.rw 7 0 = Config.ptpDomain % 256

/-- The servo has adjusted time by an estimate: the count of Sync intervals in a row, SYNC, and what a step or a slew writes. -/
structure Adjusts (s t : State) : Prop where
  good : t.d.tmu.good = 0 ∨ t.d.tmu.good = s.d.tmu.good + 1
  sync : 16 ≤ t.d.tmu.good → t.d.fld F.TMU_CTL_SYNC 0 = 1
  frame : Only (fun d => { d with tmu := {}, pwr := {}, net := {} }) s t (fun r _ => r.busy = true ∨ r = .TMU_RATE
    ∨ r = .TMU_OFFSET_FINE ∨ r = .TMU_STAT ∨ r = .TMU_CTL ∨ minuteRegs r ∨ r = .PRT_RO_CTL)

/-- The message is the Follow_Up of the two-step Sync that waits for it. -/
def FollowsSync (s : State) (p : Pkt) : Prop := ∃ c, s.d.tmu.syncWait = some (p.ptpKey, c)

/-- The message is the Delay_Resp to the servo's last Delay_Req. -/
def AnswersReq (s : State) (p : Pkt) : Prop :=
  ofBytes (p.bytesFrom 48 10) = Config.clockIdentity % 2 ^ 80 ∧ p.ptpKey % 65536 = (s.d.tmu.reqSeq + 65535) % 65536

/-- A running order runs or is pending on some port. -/
def OrdersLive (s : State) : Prop :=
  ∃ x ∈ s.d.net.ports, (x.2.order.isSome = true ∨ x.2.pendingOrder.isSome = true)
    ∧ (s.d.fld F.PRT_RO_CTL_STATE x.1 = 1 ∨ s.d.fld F.PRT_RO_CTL_STATE x.1 = 2)

/-- Bits of a GLB_RHSn word: KIND, PROD, TARGET. -/
structure Injection (w : Word) (kind prod target : Nat) : Prop where
  kind : bitsOf w 62 60 = kind
  prod : bitsOf w 59 48 = prod
  target : bitsOf w 47 24 = target

/-- An injection has used a count: COUNT falls by one, and EN clears with the last; a COUNT of 0 stays. -/
structure CountUsed (s t : State) (n : Nat) : Prop where
  free : s.d.fld F.GLB_RHS_COUNT n = 0 → t.d.rd .GLB_RHS n = s.d.rd .GLB_RHS n
  fewer : 1 ≤ s.d.fld F.GLB_RHS_COUNT n → t.d.fld F.GLB_RHS_COUNT n = s.d.fld F.GLB_RHS_COUNT n - 1
  enabled : 2 ≤ s.d.fld F.GLB_RHS_COUNT n → t.d.fld F.GLB_RHS_EN n = s.d.fld F.GLB_RHS_EN n
  last : s.d.fld F.GLB_RHS_COUNT n = 1 → t.d.fld F.GLB_RHS_EN n = 0

/-- What stands beside the registers but for the injections. -/
def noRhs (d : Dev) : Dev := { d with rhs := [] }

/-- An injection that is announced takes effect now. -/
structure Announced (s : State) (n : Nat) (x : Inject) (kind : Nat) : Prop where
  register : n < 16
  held : s.d.rhs.find n = some x
  phase : x.phase = 1
  kind : bitsOf x.word 62 60 = kind
  can : s.d.rhsCannot x.word = false

/-- A repair is recorded in the overlay and extended into SEC_MEAS4 once the firmware is verified, and REPAIR is raised. -/
structure Recorded (s t : State) (kind site unit spare : Nat) : Prop where
  overlay : t.d.overlay = s.d.overlay ++ [⟨kind, site, unit, spare, s.d.timeNs % 2 ^ 32⟩]
  measured : s.d.fld F.SEC_STATE_SECURITY 0 ≠ 0 → Extended s t 4 (Config.overlayDigest kind site unit spare (s.d.timeNs % 2 ^ 32))
  heard : Heard s → Raises s t 0x85 (8 * site) 0 (Config.repairData kind site unit).toNat

end Sys2Proof.Claims

section
open Sys2Proof Sys2Proof.Claims Sys2Proof.Machine

/-- The time unit: rate, steps, control, the readout, the servo's watchdog, and TIME.PTP at FN 0x00.
The model's choices: log entries 141, 142, 143, 144. -/
def Obligations.TimeUnit : Prop :=
  ∀ (s : State) (m : Master) (data : Word),
    (Reaches s m .TMU_RATE 0 data → Completes (.tmuRateWrite m data) s (fun t => Answers t 0
        ∧ t.d.fld F.TMU_RATE_RATE 0 = bitsOf data 39 0 ∧ t.d.timeFull = s.d.timeFull ∧ t.d.tmu.frc = s.d.tmu.frc
        ∧ Only noTmu s t (fun r i => r = .TMU_RATE ∧ i = 0)))
    ∧ (Reaches s m .TMU_OFFSET 0 data → Completes (.tmuOffsetStep m data) s (fun t => Answers t 0
        ∧ (t.d.timeFull : Int) = ((s.d.timeFull : Int) + (data.toInt * 2 ^ 16 + s.d.fld F.TMU_OFFSET_FINE_STEP_FRAC 0) * 2 ^ 32) % 2 ^ 112
        ∧ t.d.tmu.frc = s.d.tmu.frc ∧ t.d.fld F.TMU_STAT_VALID 0 = 1
        ∧ t.d.fld F.TMU_STAT_STEPS 0 = min (s.d.fld F.TMU_STAT_STEPS 0 + 1) 65535 ∧ MinuteLogged s t s.d.pwr.incomplete
        ∧ (s.d.fld F.TMU_STAT_VALID 0 = 0 → s.d.fld F.TMU_CTL_SYNC 0 = 1 → s.d.fld F.TMU_STAT_LOCKED 0 = 1 → s.d.fld F.TMU_CTL_DOMAIN 0 ≠ 0 →
            Heard s → Raises s t 0x75 4 0 0)
        ∧ (∀ l k, k < 64 → s.d.fld F.PRT_LAUNCH_VALID (l * 64 + k) = 1 → s.d.launchDue (s.d.fld F.PRT_LAUNCH_TIME (l * 64 + k)) = false →
            t.d.launchDue (s.d.fld F.PRT_LAUNCH_TIME (l * 64 + k)) = true → k ∈ (t.d.port l).late)
        ∧ Only noTmuPort s t (fun r _ => r = .TMU_STAT ∨ minuteRegs r ∨ r = .PRT_RO_CTL)))
    ∧ (Reaches s m .TMU_CTL 0 data →
      (bitsOf data 61 54 = s.d.fld F.TMU_CTL_DOMAIN 0 → Completes (.tmuCtlWrite m data) s (fun t => Answers t 0
          ∧ t.d.fld F.TMU_CTL_SYNC 0 = bitsOf data 63 63 ∧ t.d.fld F.TMU_CTL_SERVO 0 = bitsOf data 62 62
          ∧ t.d.fld F.TMU_CTL_DOMAIN 0 = bitsOf data 61 54 ∧ t.d.fld F.TMU_CTL_HOLD 0 = bitsOf data 53 40
          ∧ (MaySync s → s.d.fld F.TMU_CTL_SYNC 0 = 0 → bitsOf data 63 63 = 1 →
              MinuteLogged s t s.d.pwr.incomplete ∧ (Heard s → Raises s t 0x75 4 0 0))
          ∧ (Synced s → bitsOf data 63 63 = 0 → MinuteLogged s t s.d.pwr.incomplete)
          ∧ Only noPwrPort s t (fun r _ => r = .TMU_CTL ∨ minuteRegs r)))
      ∧ (bitsOf data 61 54 ≠ s.d.fld F.TMU_CTL_DOMAIN 0 → ¬ OrdersLive s → Completes (.tmuCtlWrite m data) s (fun t => Answers t 0
          ∧ t.d.fld F.TMU_CTL_SYNC 0 = 0 ∧ t.d.fld F.TMU_CTL_DOMAIN 0 = bitsOf data 61 54
          ∧ t.d.fld F.TMU_CTL_SERVO 0 = bitsOf data 62 62 ∧ t.d.fld F.TMU_CTL_HOLD 0 = bitsOf data 53 40
          ∧ (s.d.fld F.TMU_CTL_SYNC 0 = 1 → Heard s → Raises s t 0x76 4 0 0)
          ∧ (Synced s → MinuteLogged s t s.d.pwr.incomplete) ∧ t.d.tmu = { s.d.tmu with good := 0 }
          ∧ Only (fun d => { noPwr d with tmu := {} }) s t (fun r _ => r = .TMU_CTL ∨ minuteRegs r)))
      ∧ (bitsOf data 61 54 ≠ s.d.fld F.TMU_CTL_DOMAIN 0 → OrdersLive s → Completes (.tmuCtlWrite m data) s (fun t => Answers t 0
          ∧ Only id s t (fun _ _ => False) ∧ (Heard s → Raises s t 0x77 4 0 0))))
    ∧ (s.d.regRefused m .TMU_NOW 0 none = none → Completes (.tmuNowRead m) s (fun t =>
        t.d.out = s.d.out ++ [.reg 0 (BitVec.ofNat 64 s.d.timeNs)] ∧ t.d.tmu = { s.d.tmu with latch := s.d.timeFull / 2 ^ 32 % 65536 }
        ∧ Only noTmu s t (fun _ _ => False)))
    ∧ (s.d.fld F.TMU_CTL_HOLD 0 = 0 → Completes .servoHoldExpiry s (fun t => t = s))
    ∧ (s.d.fld F.TMU_CTL_HOLD 0 ≠ 0 → Completes .servoHoldExpiry s (fun t => t.d.fld F.TMU_CTL_SYNC 0 = 0
        ∧ (s.d.fld F.TMU_CTL_SYNC 0 = 1 → Heard s → Raises s t 0x76 4 0 0)
        ∧ (Synced s → MinuteLogged s t s.d.pwr.incomplete) ∧ t.d.tmu = { s.d.tmu with good := 0 }
        ∧ Only (fun d => { noPwr d with tmu := {} }) s t (fun r _ => r = .TMU_CTL ∨ minuteRegs r)))
    ∧ (∀ p vl, AtFn s p 0 vl 0x50 → Completes (.timePtp p.id) s (fun t => Rest s t
        ∧ (¬ ServoTakes s p 0 → ¬ (ServoTakes s p 8 ∧ FollowsSync s p) → ¬ (ServoTakes s p 9 ∧ AnswersReq s p) → t.d.net.pkts = [] ∧ Quiet s t)
        ∧ (∀ k, p.ptpType = some k → k = 2 ∨ k = 3 ∨ k = 0xA → Counts s t 4 1 1)
        ∧ (∀ k, p.ptpType = some k → k = 0 ∨ k = 1 → s.d.fld F.TMU_STAT_LOCKED 0 = 0 → Counts s t 4 2 1)
        ∧ (bitsOf p.rw 15 8 ≠ s.d.fld F.TMU_CTL_DOMAIN 0 →
            (∀ k, p.ptpType = some k → k ∉ [2, 3, 0xA] ∧ (k = 0 ∨ k = 1 → s.d.fld F.TMU_STAT_LOCKED 0 = 1)) → Counts s t 4 0 1)
        ∧ (∀ k, p.ptpType = some k → k = 0 ∨ k = 1 → s.d.fld F.TMU_STAT_LOCKED 0 = 1 →
            bitsOf p.rw 15 8 = s.d.fld F.TMU_CTL_DOMAIN 0 → Counts s t 4 3 1)
        ∧ (ServoTakes s p 0 → t.d.tmu.syncIn = some (ptpTime (s.d.timeUnits - s.d.residence p.frcIn s.d.tmu.frc))
            ∧ t.d.tmu.reqSeq = (s.d.tmu.reqSeq + 1) % 65536
            ∧ (p.twoStep = false → t.d.tmu.syncWait = none ∧ Adjusts s t)
            ∧ (p.twoStep = true → (∃ c, t.d.tmu.syncWait = some (p.ptpKey, c)) ∧ t.d.timeFull = s.d.timeFull ∧ t.d.tmu.good = s.d.tmu.good
                ∧ Only (fun d => { d with tmu := {}, net := {} }) s t (fun r _ => r.busy = true)))
        ∧ (ServoTakes s p 8 → FollowsSync s p → t.d.net.pkts = [] ∧ t.d.tmu.syncWait = none ∧ t.d.tmu.syncIn = s.d.tmu.syncIn ∧ Adjusts s t)
        ∧ (ServoTakes s p 9 → AnswersReq s p → t.d.net.pkts = []
            ∧ t.d.tmu = { s.d.tmu with delayResp := some (p.ptpStamp, p.ptpCorr) }
            ∧ Only (fun d => { d with tmu := {}, net := {} }) s t (fun r _ => r.busy = true)))
      ∧ (ServoTakes s p 0 → SendsSome (.timePtp p.id) s (fun q => q.dst = p.src ∧ q.src = s.d.ownFn 0 ∧ q.opc = 0x50 ∧ q.vl = 7
          ∧ q.bytesFrom 8 1 = [BitVec.ofNat 8 p.opx])))

/-- Self-repair of a memory row and of a Wardrobe macro; and rehearsal: a register's write, an injection's announcement, its
effect by KIND, and the end of a mute.
The model's choices: log entries 118, 152, 187, 188, 189, 190. -/
def Obligations.RepairsAndRehearsal : Prop :=
  ∀ (s : State) (n : Nat) (x : Inject),
    (∀ site array row, (site = 0 ∨ 17 ≤ site ∧ site ≤ 20) → row < 1024 → s.d.overlay.length < 1024 →
      (s.d.rowSpares.get 0 (site * 2 ^ 20 + array) < 2 → Completes (.sramRowRepair site array row) s (fun t =>
          Recorded s t 0 site (array * 1024 + row) (s.d.rowSpares.get 0 (site * 2 ^ 20 + array))
          ∧ t.d.rowSpares.get 0 (site * 2 ^ 20 + array) = s.d.rowSpares.get 0 (site * 2 ^ 20 + array) + 1
          ∧ Only (fun d => { d with overlay := [], rowSpares := [] }) s t (fun r i => r = .SEC_MEAS ∧ i / 6 = 4)))
      ∧ (2 ≤ s.d.rowSpares.get 0 (site * 2 ^ 20 + array) → Completes (.sramRowRepair site array row) s (fun t =>
          Only id s t (fun _ _ => False) ∧ (Heard s → Raises s t 0x86 (8 * site) 0 (Config.repairData 0 site (array * 1024 + row)).toNat))))
    ∧ (∀ mac, mac < 256 →
      (s.d.net.draining.find mac = none → Completes (.wrdMacroWithdraw ⟨mac, []⟩) s (fun t =>
          (∃ idle, idle ≤ 8192 ∧ t.d.net.draining.find mac = some idle)
          ∧ (s.d.wrdSpare ≤ s.d.net.draining.length → Heard s → Raises s t 0x86 0 0 (Config.repairData 1 0 mac).toNat)
          ∧ Only (fun d => { d with net := { d.net with draining := [] } }) s t (fun _ _ => False)))
      ∧ (∀ p, s.d.net.draining.find mac = none → Calm s → s.d.net.pkts = [p] → (∀ l, ¬ s.d.isOpen l p.id = true) →
          Completes (.wrdMacroWithdraw ⟨mac, [p.id]⟩) s (fun t => t.d.net.pkts = [{ p with bad := true, whole := true }]
            ∧ (∃ idle, t.d.net.draining.find mac = some idle) ∧ Only noNet s t (fun _ _ => False)))
      ∧ (∀ bad idle, s.d.net.draining.find mac = some idle → Completes (.wrdMacroWithdraw ⟨mac, bad⟩) s (fun t => t = s))
      ∧ (∀ idle, s.d.net.draining.find mac = some idle →
        (s.d.wrdSpare = 0 → Completes (.wrdMacroDrained mac) s (fun t => t.d.net.draining.find mac = none
            ∧ t.d.net.lostCells = s.d.net.lostCells + 8192
            ∧ Only (fun d => { d with net := { d.net with draining := [], lostCells := 0 } }) s t (fun _ _ => False)))
        ∧ (s.d.wrdSpare ≠ 0 → s.d.overlay.length < 1024 → Completes (.wrdMacroDrained mac) s (fun t => t.d.net.draining.find mac = none
            ∧ t.d.wrdSpare = s.d.wrdSpare - 1 ∧ Recorded s t 1 0 mac (8 - s.d.wrdSpare)
            ∧ Only (fun d => { d with net := { d.net with draining := [] }, overlay := [], wrdSpare := 0 }) s t
                (fun r i => r = .SEC_MEAS ∧ i / 6 = 4)))))
    ∧ (∀ (m : Master) (data : Word), n < 16 → Reaches s m .GLB_RHS n data → Completes (.glbRhsWrite m n data) s (fun t =>
        Answers t 0 ∧ t.d.rd .GLB_RHS n = data ∧ Only id s t (fun r i => r = .GLB_RHS ∧ i = n)))
    ∧ (n < 16 → s.d.fld F.GLB_RHS_EN n = 1 → ∀ kind prod target, Injection (s.d.rd .GLB_RHS n) kind prod target →
      (s.d.rhsBusy n = false → s.d.rhsCannot (s.d.rd .GLB_RHS n) = false → Completes (.rehearsalInject n) s (fun t => CountUsed s t n
          ∧ (∃ y, t.d.rhs.find n = some y ∧ y.phase = 1 ∧ y.word = s.d.rd .GLB_RHS n)
          ∧ (Heard s → Raises s t 0x88 0 prod (kind * 2 ^ 61 + n * 2 ^ 57 + target * 2 ^ 24))
          ∧ Only noRhs s t (fun r i => r = .GLB_RHS ∧ i = n)))
      ∧ ((s.d.rhsBusy n = true ∨ s.d.rhsCannot (s.d.rd .GLB_RHS n) = true ∨ kind = 1 ∧ (target % 32 = 0 ∨ s.d.site (target % 32) = 0) ∨ kind = 3 ∧ s.d.ent (target / 2 ^ 20) (target % 2 ^ 20) = none) →
          Completes (.rehearsalInject n) s (fun t => CountUsed s t n ∧ Counts s t 0 3 1 ∧ Only id s t (fun r i => r = .GLB_RHS ∧ i = n))))
    ∧ (n < 16 → s.d.rhs.find n = some x → x.phase = 1 → s.d.rhsCannot x.word = true → Completes (.rhsEffect n) s (fun t =>
        t.d.rhs.find n = none ∧ Counts s t 0 3 1 ∧ Only noRhs s t (fun _ _ => False)))
    ∧ (Announced s n x 0 → Completes (.rhsEffect n) s (fun t => (t.d.lane (bitsOf x.word 47 24 % 1024)).muted = true
        ∧ t.d.rhs.find n = some { x with phase := 2 }
        ∧ Only (fun d => { noRhs d with net := { d.net with lanes := [] } }) s t (fun _ _ => False)
        ∧ ∀ l, l ≠ bitsOf x.word 47 24 % 1024 → t.d.lane l = s.d.lane l))
    ∧ (Announced s n x 1 → Completes (.rhsEffect n) s (fun t => t.d.rhs.find n = some { x with phase := 2 }
        ∧ t.d.site (bitsOf x.word 47 24 % 32) = 2 ∧ bitOf (t.d.rd .GLB_RESET_CTL 0) (bitsOf x.word 47 24 % 32) = true ∧ Rest s t))
    ∧ (Announced s n x 2 → ∀ w g old u, w = bitsOf x.word 47 24 / 16 % 16 → g = bitsOf x.word 47 24 % 8 → s.d.groupLaser w g = some old →
        s.d.laserState w old = 2 → s.d.freeUnder w g = some u → Completes (.rhsEffect n) s (fun t =>
          t.d.rhs.find n = some { x with phase := 2 } ∧ t.d.fld F.WNG_LASER_MARGIN (11 * w + old) = 5 ∧ Rest s t
          ∧ (s.d.fld F.WNG_CTL_AUTO_SWAP w = 1 → (w, g) ∈ t.d.fades ∧ SwapBegins s t w g old u (decide (s.d.drainable w g = false)) false)
          ∧ (s.d.fld F.WNG_CTL_AUTO_SWAP w = 0 → Only noRhs s t (fun r i => r = .WNG_LASER ∧ i = 11 * w + old))))
    ∧ (Announced s n x 3 → Completes (.rhsEffect n) s (fun t => t.d.rhs.find n = some { x with phase := 2 }
        ∧ t.d.badParity (bitsOf x.word 47 24 / 2 ^ 20) (bitsOf x.word 47 24 % 2 ^ 20) = true
          ∧ t.d.tab.ent = s.d.tab.ent ∧ Only (fun d => { noRhs d with tab := {} }) s t (fun _ _ => False)))
    ∧ (Announced s n x 4 → ∀ k e, k = bitsOf x.word 47 24 % 4 → s.d.rhsEngine x.word = some e → Completes (.rhsEffect n) s (fun t =>
        { t.d.engine k e with queue := [], flags := 0 } = { s.d.engine k e with st := 3, queue := [], flags := 0 }
        ∧ ((s.d.engine k e).queue = [] → t.d.engine k e = { s.d.engine k e with st := 3 }) ∧ t.d.fld F.CUE_ENG_TRAP_CAUSE (k * 68 + e) = 14
        ∧ t.d.fld F.CUE_ENG_TRAP_DETAIL (k * 68 + e) = bitsOf x.word 59 48 * 16 + n
        ∧ t.d.rhs.find n = some { phase := 2, word := x.word, unit := e }
        ∧ (Heard s → Raises s t 0x47 (8 * (17 + k)) (s.d.engine k e).prod
            (k * 2 ^ 62 + e * 2 ^ 55 + 14 * 2 ^ 47 + (s.d.engine k e).pc % 65536)) ∧ Rest s t))
    ∧ (n < 16 → s.d.rhs.find n = some x → x.phase = 2 → bitsOf x.word 62 60 = 0 → Completes (.rhsMuteEnd n) s (fun t =>
        (t.d.lane (bitsOf x.word 47 24 % 1024)).muted = false ∧ t.d.rhs.find n = none
        ∧ (∀ l, l ≠ bitsOf x.word 47 24 % 1024 → t.d.lane l = s.d.lane l)
        ∧ Only (fun d => { noRhs d with net := { d.net with lanes := [] } }) s t (fun _ _ => False)))

end

namespace Sys2Proof.Claims

open Sys2Proof.Machine

/-! ## Power -/

/-- POWER stands above the governor's target. -/
def OverTarget (s : State) : Prop := ∃ v, s.d.pwr.target = some v ∧ v < s.d.fld F.PWR_STAT_POWER 0

/-- The limits in force at a governor update with this 1 ms of energy: the thermal target, the instantaneous cap, and what the
60 s window leaves for the next second. -/
def limitsAt (s : State) (energy : Nat) : List Nat :=
  (if s.d.pwr.thermal.isSome then [energy * 95 / 100] else [])
  ++ (if s.d.fld F.PWR_CAP_INST_EN 0 = 1 then [s.d.fld F.PWR_CAP_INST_CAP 0] else [])
  ++ (if s.d.fld F.PWR_CAP_MIN_EN 0 = 1 then
        [(s.d.fld F.PWR_CAP_MIN_CAP 0 * 60000 - ((energy :: s.d.pwr.hist).take 59000).foldl (· + ·) 0) / 1000] else [])

/-- The lowest step that BOOST allows. -/
def leastStep (s : State) : Nat := if s.d.fld F.PWR_GOV_BOOST 0 = 1 then 0 else 2

/-- Highest reading at the sites that `p` names, where every site is present. -/
def Hottest (temps : List Nat) (p : Nat → Prop) (v : Nat) : Prop :=
  (∀ i t, p i → temps[i]? = some t → t ≤ v) ∧ ∃ i, p i ∧ temps[i]? = some v

/-- A reading of every die, all of them present, none above 255 °C, and the device runs. -/
structure Sampled (s : State) (temps : List Nat) : Prop where
  running : s.d.power = .running
  all : temps.length = 25
  present : ∀ n, 1 ≤ n → n < 25 → s.d.site n ≠ 0
  range : ∀ t ∈ temps, t < 256

end Sys2Proof.Claims

section
open Sys2Proof Sys2Proof.Claims Sys2Proof.Machine

/-- Power: the governor's update and its actions, caps, the replica paths, the minute log, and what temperature does.
The model's choices: log entries 136, 137, 138, 166, 170, 171. -/
def Obligations.PowerAndThermal : Prop :=
  ∀ (s : State) (m : Master) (data : Word) (energy : Nat),
    (energy < 65536 → Completes (.governorUpdate energy) s (fun t => t.d.fld F.PWR_STAT_POWER 0 = energy
        ∧ t.d.fld F.PWR_STAT_WINDOW 0 = ((energy :: s.d.pwr.hist).take 60000).foldl (· + ·) 0 / 60000 % 65536
        ∧ t.d.pwr.energy = s.d.pwr.energy + energy ∧ t.d.pwr.peak = max s.d.pwr.peak energy
        ∧ t.d.pwr.target = (limitsAt s energy).min?
        ∧ (∀ v, (limitsAt s energy).min? = some v → t.d.fld F.PWR_STAT_TARGET 0 = v % 65536)
        ∧ (t.d.fld F.PWR_STAT_INST_OVER 0 = 1 ↔ s.d.fld F.PWR_CAP_INST_EN 0 = 1 ∧ s.d.fld F.PWR_CAP_INST_CAP 0 < energy)
        ∧ (OverTarget t → t.d.fld F.PWR_STAT_UNMET 0 = s.d.fld F.PWR_STAT_UNMET 0) ∧ (¬ OverTarget t → t.d.fld F.PWR_STAT_UNMET 0 = 0)
        ∧ ((∀ v, (limitsAt s energy).min? = some v → 100 * energy ≤ 97 * v) → t.d.pwr.calm = s.d.pwr.calm + 1)
        ∧ (∀ v, (limitsAt s energy).min? = some v → 97 * v < 100 * energy → t.d.pwr.calm = 0)
        ∧ Only noPwr s t (fun r _ => r = .PWR_STAT)))
    ∧ (Calm s → OverTarget s →
      (4 < s.d.fld F.PWR_GOV_LOOM_RATE 0 → Completes .governorAction s (fun t =>
          t.d.fld F.PWR_GOV_LOOM_RATE 0 = s.d.fld F.PWR_GOV_LOOM_RATE 0 - 1 ∧ t.d.fld F.PWR_GOV_STEP 0 = s.d.fld F.PWR_GOV_STEP 0
          ∧ Only id s t (fun r _ => r = .PWR_GOV)))
      ∧ (s.d.fld F.PWR_GOV_LOOM_RATE 0 ≤ 4 → s.d.fld F.PWR_GOV_STEP 0 < s.d.fld F.PWR_GOV_STEP_MIN 0 → Completes .governorAction s (fun t =>
          t.d.fld F.PWR_GOV_STEP 0 = s.d.fld F.PWR_GOV_STEP 0 + 1 ∧ Counts s t 5 0 1 ∧ Only id s t (fun r _ => r = .PWR_GOV)))
      ∧ (s.d.fld F.PWR_GOV_LOOM_RATE 0 ≤ 4 → s.d.fld F.PWR_GOV_STEP_MIN 0 ≤ s.d.fld F.PWR_GOV_STEP 0 →
        (∀ l, s.d.parkable.head? = some l → Completes .governorAction s (fun t => t.d.pwr.parked = s.d.pwr.parked ++ [l] ∧ t.d.ostate l = 3
            ∧ (t.d.lane l).hbDue = true ∧ Counts s t 5 1 1
            ∧ Only (fun d => { d with net := {}, pwr := {} }) s t (fun r i => r = .WNG_LANE_STAT ∧ i = l / 64 * 65 + l % 64)))
        ∧ (s.d.parkable = [] → Completes .governorAction s (fun t => t = s))))
    ∧ (Calm s → ¬ OverTarget s →
      (s.d.pwr.calm < 10 → Completes .governorAction s (fun t => t = s))
      ∧ (10 ≤ s.d.pwr.calm →
        (∀ l, s.d.pwr.parked.getLast? = some l → s.d.ostate l = 2 → 1 ≤ s.d.fld F.PWR_GOV_PARKED 0 → Completes .governorAction s (fun t =>
            t.d.pwr.parked = s.d.pwr.parked.filter (· ≠ l) ∧ t.d.fld F.PWR_GOV_PARKED 0 = s.d.fld F.PWR_GOV_PARKED 0 - 1
            ∧ t.d.ostate l ≠ 2 ∧ t.d.pwr.calm = 0 ∧ Rest s t))
        ∧ (∀ l, s.d.pwr.parked.getLast? = some l → s.d.ostate l = 3 → s.d.swapOf (l / 64) (l % 64 / 8) = none → Completes .governorAction s (fun t =>
            t.d.pwr.parked = s.d.pwr.parked.filter (· ≠ l) ∧ t.d.ostate l = 1 ∧ t.d.pwr.calm = 0
            ∧ Only noPwr s t (fun r i => r = .WNG_LANE_STAT ∧ i = l / 64 * 65 + l % 64)))
        ∧ (s.d.pwr.parked = [] → leastStep s < s.d.fld F.PWR_GOV_STEP 0 → Completes .governorAction s (fun t =>
            t.d.fld F.PWR_GOV_STEP 0 = s.d.fld F.PWR_GOV_STEP 0 - 1 ∧ t.d.pwr.calm = 0 ∧ Only noPwr s t (fun r _ => r = .PWR_GOV)))
        ∧ (s.d.pwr.parked = [] → s.d.fld F.PWR_GOV_STEP 0 ≤ leastStep s → s.d.fld F.PWR_GOV_LOOM_RATE 0 < 16 → Completes .governorAction s (fun t =>
            t.d.fld F.PWR_GOV_LOOM_RATE 0 = s.d.fld F.PWR_GOV_LOOM_RATE 0 + 1 ∧ t.d.pwr.calm = 0 ∧ Only noPwr s t (fun r _ => r = .PWR_GOV)))))
    ∧ (OverTarget s → s.d.fld F.PWR_STAT_UNMET 0 = 0 →
        s.d.fld F.PWR_GOV_LOOM_RATE 0 ≤ 4 → s.d.fld F.PWR_GOV_STEP_MIN 0 ≤ s.d.fld F.PWR_GOV_STEP 0 → s.d.parkable = [] →
        Completes .pwrCapUnmet s (fun t =>
        t.d.fld F.PWR_STAT_UNMET 0 = 1 ∧ t.d.pwr = { s.d.pwr with unmet := true } ∧ (Heard s → Raises s t 0x91 5 0 0)
        ∧ Only noPwr s t (fun r _ => r = .PWR_STAT)))
    ∧ (¬ OverTarget s ∨ s.d.fld F.PWR_STAT_UNMET 0 = 1 ∨ 4 < s.d.fld F.PWR_GOV_LOOM_RATE 0
        ∨ s.d.fld F.PWR_GOV_STEP 0 < s.d.fld F.PWR_GOV_STEP_MIN 0 ∨ s.d.parkable ≠ [] → Completes .pwrCapUnmet s (fun t => t = s))
    ∧ (Reaches s m .PWR_CAP_MIN 0 data →
      (bitOf data 63 = true → s.d.fld F.PWR_CAP_INST_EN 0 = 1 → s.d.fld F.PWR_CAP_INST_CAP 0 < bitsOf data 15 0 →
        Completes (.pwrCapMinWrite m data) s (fun t => Answers t 0 ∧ Only id s t (fun _ _ => False) ∧ (Heard s → Raises s t 0x90 5 0 0)))
      ∧ (bitOf data 63 = false ∨ s.d.fld F.PWR_CAP_INST_EN 0 = 0 ∨ bitsOf data 15 0 ≤ s.d.fld F.PWR_CAP_INST_CAP 0 →
        Completes (.pwrCapMinWrite m data) s (fun t => Answers t 0 ∧ t.d.fld F.PWR_CAP_MIN_EN 0 = bitsOf data 63 63
          ∧ t.d.fld F.PWR_CAP_MIN_CAP 0 = bitsOf data 15 0
          ∧ t.d.pwr.oldCaps = s.d.pwr.oldCaps ++
              (if bitsOf data 15 0 < s.d.fld F.PWR_CAP_MIN_CAP 0 then [(s.d.fld F.PWR_CAP_MIN_CAP 0, s.d.tmu.total)] else [])
          ∧ Only noPwr s t (fun r _ => r = .PWR_CAP_MIN))))
    ∧ (Reaches s m .PWR_CAP_INST 0 data →
      (bitOf data 63 = true → s.d.fld F.PWR_CAP_MIN_EN 0 = 1 → bitsOf data 15 0 < s.d.fld F.PWR_CAP_MIN_CAP 0 →
        Completes (.pwrCapInstWrite m data) s (fun t => Answers t 0 ∧ Only id s t (fun _ _ => False) ∧ (Heard s → Raises s t 0x90 5 0 0)))
      ∧ (bitOf data 63 = false ∨ s.d.fld F.PWR_CAP_MIN_EN 0 = 0 ∨ s.d.fld F.PWR_CAP_MIN_CAP 0 ≤ bitsOf data 15 0 →
        Completes (.pwrCapInstWrite m data) s (fun t => Answers t 0 ∧ t.d.fld F.PWR_CAP_INST_EN 0 = bitsOf data 63 63
          ∧ t.d.fld F.PWR_CAP_INST_CAP 0 = bitsOf data 15 0 ∧ Only id s t (fun r _ => r = .PWR_CAP_INST))))
    ∧ bitsOf (s.d.view .PWR_STAT 0) F.PWR_STAT_INST_OVER.hi F.PWR_STAT_INST_OVER.lo
        = (if s.d.fld F.PWR_CAP_INST_EN 0 = 1 ∧ s.d.fld F.PWR_CAP_INST_CAP 0 < s.d.fld F.PWR_STAT_POWER 0 then 1 else 0)
    ∧ (∀ factor corrected looms, Completes (.replicaMeasure ⟨factor, looms⟩ corrected) s (fun t => t.d.fld F.PWR_GOV_FACTOR 0 = min factor 4095
        ∧ t.d.fuse = { s.d.fuse with guard := if 102 * 1024 < 100 * corrected then min 30 (s.d.fuse.guard + 5) else s.d.fuse.guard }
        ∧ (∀ k x, k < 4 → looms[k]? = some x → t.d.pwr.loomFactor.find k = some x)
        ∧ t.d.stageSupply = s.d.stageSupply + ((t.d.fuse.guard : Int) - s.d.fuse.guard)
        ∧ Only (fun d => { noPwr d with fuse := {} }) s t (fun r _ => r = .PWR_GOV)))
    ∧ Completes .minuteClose s (fun t => MinuteLogged s t s.d.pwr.incomplete
        ∧ t.d.fld F.PWR_LOG_A_ALIGNED (s.d.pwr.seq % 64) = (if s.d.syncedNow then 1 else 0)
        ∧ t.d.fld F.PWR_LOG_A_OVER (s.d.pwr.seq % 64) = bit s.d.pwr.over_ ∧ t.d.fld F.PWR_LOG_A_INST_OVER (s.d.pwr.seq % 64) = bit s.d.pwr.inst
        ∧ t.d.fld F.PWR_LOG_A_UNMET (s.d.pwr.seq % 64) = bit s.d.pwr.unmet
        ∧ t.d.fld F.PWR_LOG_B_PEAK (s.d.pwr.seq % 64) = s.d.pwr.peak % 65536
        ∧ t.d.fld F.PWR_LOG_B_END (s.d.pwr.seq % 64) = (if s.d.syncedNow then s.d.timeNs else s.d.tmu.frc / 65536) % 2 ^ 48
        ∧ (Heard s → Raises s t 0x92 5 0 (s.d.pwr.seq % 2 ^ 24 * 2 ^ 40 + s.d.pwr.energy % 2 ^ 28))
        ∧ Only noPwr s t (fun r i => (r = .PWR_LOG_A ∨ r = .PWR_LOG_B) ∧ i = s.d.pwr.seq % 64))
    ∧ (∀ temps, Sampled s temps →
      (Calm s → (∀ t ∈ temps, t < 115) → (∀ i t, 21 ≤ i → temps[i]? = some t → t < 100) → Completes (.thermalSample temps) s (fun t => Rest s t
          ∧ temps[0]? = some (t.d.fld F.PWR_THERM_STAGE_TJ 0)
          ∧ Hottest temps (fun i => 17 ≤ i ∧ i ≤ 20) (t.d.fld F.PWR_THERM_LOOM_TJ 0)
          ∧ Hottest temps (fun i => 1 ≤ i ∧ i ≤ 16) (t.d.fld F.PWR_THERM_WING_TJ 0)
          ∧ Hottest temps (fun i => 21 ≤ i) (t.d.fld F.PWR_THERM_HBM_T 0)
          ∧ (∀ i v, i ≤ 20 → temps[i]? = some v → 100 ≤ v → i ∉ s.d.pwr.warned → Heard s → Raises s t 0x93 (if i = 0 then 5 else 8 * i) 0 0)
          ∧ (∀ i v, 21 ≤ i → temps[i]? = some v → 95 ≤ v → i ∉ s.d.pwr.warned → Heard s → Raises s t 0x94 (8 * i) 0 0)
          ∧ ((∀ i v, i ≤ 20 → temps[i]? = some v → v < 103) → t.d.pwr.thermal = none)
          ∧ Only noPwr s t (fun r _ => r = .PWR_THERM)))
      ∧ (Calm s → (∀ t ∈ temps, t < 115) → ∀ i v, 21 ≤ i → temps[i]? = some v → 100 ≤ v → s.d.site i = 1 →
          Completes (.thermalSample temps) s (fun t => t.d.site i = 2 ∧ Rest s t ∧ (Heard s → Raises s t 0x95 (8 * i) 0 0)))
      ∧ ((∃ t ∈ temps, 115 ≤ t) → Completes (.thermalSample temps) s (fun t => ShutsDown s t true ∧ t.d.tripped = true
          ∧ (Heard s → ∃ i, Raises s t 0x95 (if i = 0 then 5 else 8 * i) 0 0))))
    ∧ (s.d.pwr.thermal = none → (105 ≤ s.d.fld F.PWR_THERM_STAGE_TJ 0 ∨ 105 ≤ s.d.fld F.PWR_THERM_LOOM_TJ 0 ∨ 105 ≤ s.d.fld F.PWR_THERM_WING_TJ 0) →
        Completes .thermLimit s (fun t => t.d.pwr = { s.d.pwr with thermal := some (s.d.fld F.PWR_STAT_POWER 0 * 95 / 100) }
          ∧ (Heard s → Raises s t 0x94 5 0 0) ∧ Only noPwr s t (fun _ _ => False)))

end

namespace Sys2Proof.Claims

open Sys2Proof.Machine

/-! ## Security and snapshots -/

/-- The digest of an event that SEC_MEAS6 records. -/
def eventDigest (s : State) (ty level slot minutes : Nat) : BitVec 384 :=
  sha384 ([BitVec.ofNat 8 ty, BitVec.ofNat 8 level, BitVec.ofNat 8 slot] ++ bytesOf 2 minutes ++ [0, 0, 0]
    ++ bytesOf 4 (s.d.timeNs % 2 ^ 32) ++ [0, 0, 0, 0])

/-- What stands beside the registers but for the security unit. -/
def noSec (d : Dev) : Dev := { d with sec := {} }

/-- An open debug level closes: DEBUG 0, RESULT CLOSED, DEBUG_CLOSED, and a record in SEC_MEAS6. -/
structure DebugCloses (s t : State) : Prop where
  level : t.d.fld F.SEC_STATE_DEBUG 0 = 0
  result : t.d.fld F.SEC_DBG_CTL_RESULT 0 = 7
  record : Extended s t 6 (eventDigest s 4 (s.d.fld F.SEC_STATE_DEBUG 0) s.d.sec.openBy s.d.sec.minutes)
  heard : Heard s → Raises s t 0x98 6 0 0
  frame : Only noSec s t (fun r i => r = .SEC_STATE ∨ r = .SEC_DBG_CTL ∨ (r = .SEC_MEAS ∧ i / 6 = 6))
  nonce : t.d.sec.nonce = s.d.sec.nonce

/-- The nonce that the DRBG gives next. -/
def freshNonce (s : State) : BitVec 256 := BitVec.ofNat 256 (ofBytes (s.d.sec.drbg.draw 32).1)

/-- A SUBMIT of a level, slot and MINUTES reaches SEC_DBG_CTL. -/
structure Submits (s : State) (m : Master) (data : Word) (level slot minutes : Nat) : Prop where
  reaches : Reaches s m .SEC_DBG_CTL 0 (setBits data 63 62 2)
  level : bitsOf data 61 60 = level
  slot : bitsOf data 59 58 = slot
  minutes : bitsOf data 57 46 = minutes

/-- The level is allowed: the device runs, and the security state is SECURE, or RECOVERY with a level other than FULL; and a
REVOKE is not of the last valid slot. -/
def LevelOpen (s : State) (level slot : Nat) : Prop :=
  s.d.power = .running ∧ (s.d.fld F.SEC_STATE_SECURITY 0 = 1 ∨ s.d.fld F.SEC_STATE_SECURITY 0 = 2 ∧ level ≠ 2)
  ∧ ¬ (level = 3 ∧ s.d.fuse.ownerValid = 2 ^ slot)

/-- SEC_DBG_RESP as key, and the halves of the signature. -/
def respKey (s : State) : Nat := s.d.dbgResp 0 12

/-- The key's hash is that of a valid owner slot. -/
def OwnerKey (s : State) (slot : Nat) : Prop :=
  s.d.fuse.ownerValid.testBit slot = true ∧ s.d.fuse.owners[slot]? = some (sha384 (bytesOf 96 (respKey s)))

/-- The signature over nonce, GLB_ID, LEVEL, SLOT and MINUTES verifies. -/
def OwnerSigned (s : State) (nonce : BitVec 256) (level slot minutes : Nat) : Prop :=
  ecdsaVerify (BitVec.ofNat 768 (respKey s)) (sha384 (bytesOf 32 nonce.toNat ++ bytesOf 7 ((s.d.rd .GLB_ID 0).toNat / 256)
    ++ bytesOf 1 level ++ bytesOf 1 slot ++ bytesOf 2 minutes)) (s.d.dbgResp 12 6) (s.d.dbgResp 18 6) = true

/-- The house port of a master. -/
def portOf (m : Master) : Nat := match m with | .house p => p | _ => 0

/-- What the security unit keeps of a SUBMIT that was taken: its port and the moment, unless it met one of the other port. -/
def submittedAfter (s : State) (m : Master) : Option (Nat × Nat) :=
  if s.d.submitMet (portOf m) then s.d.sec.submitted else some (portOf m, s.d.tmu.total)

/-- A SUBMIT has failed with a RESULT; where it counts as a failure, FAILS rises, and the third locks the device out. -/
structure SubmitFails (s t : State) (m : Master) (result : Nat) (counts : Bool) : Prop where
  answered : Answers t 0
  result : t.d.fld F.SEC_DBG_CTL_RESULT 0 = result
  sec : t.d.sec = { s.d.sec with nonce := none, lockedOut := t.d.sec.lockedOut, submitted := submittedAfter s m }
  level : t.d.fld F.SEC_STATE_DEBUG 0 = s.d.fld F.SEC_STATE_DEBUG 0
  fails : t.d.fld F.SEC_DBG_CTL_FAILS 0 = if counts then (s.d.fld F.SEC_DBG_CTL_FAILS 0 + 1) % 4 else s.d.fld F.SEC_DBG_CTL_FAILS 0
  lockout : counts = true → 2 ≤ s.d.fld F.SEC_DBG_CTL_FAILS 0 → t.d.sec.lockedOut = true ∧ t.d.fuse.lockouts = s.d.fuse.lockouts + 1
  open_ : counts = false ∨ s.d.fld F.SEC_DBG_CTL_FAILS 0 < 2 → t.d.sec.lockedOut = s.d.sec.lockedOut ∧ t.d.fuse = s.d.fuse
  frame : Only (fun d => { noSec d with fuse := {} }) s t (fun r _ => r = .SEC_DBG_CTL)

/-- What stands beside the registers but for the cut and the snapshot in hand. -/
def noCut (d : Dev) : Dev := { d with cutDue := false, cutFrc := 0, cutT := 0, snapSeq := 0, snapPeriodic := false }

/-- The cut is fixed 1 µs ahead, and CUT tells its FRC in ns. -/
structure CutFixed (s t : State) : Prop where
  due : t.d.cutDue = true
  at_ : t.d.cutFrc = (s.d.tmu.frc + 1000 * 65536) % 2 ^ 64
  cut : t.d.fld F.CNT_FREEZE_CUT 0 = (s.d.tmu.frc + 1000 * 65536) % 2 ^ 64 / 65536
  frame : Only noCut s t (fun r _ => r = .CNT_FREEZE)

/-- The readout of T in ns where FRC stands at `c`. -/
def timeAt (s : State) (c : Nat) : Nat := ({ s.d with tmu := { s.d.tmu with frc := c } } : Dev).timeNs

/-- The counters run again: pending counts are added, and FREEZE reads 0. -/
structure Thawed (s t : State) : Prop where
  state : t.d.fld F.CNT_FREEZE_STATE 0 = 0 ∧ t.d.fld F.CNT_FREEZE_FREEZE 0 = 0
  pending : t.d.cntPend = []
  added : ∀ inst idx n, s.d.cntPend = [(inst * 64 + idx, n)] → idx < 64 →
    t.d.fld F.CNT_VAL_VALUE (inst * 64 + idx) = (s.d.fld F.CNT_VAL_VALUE (inst * 64 + idx) + n) % 2 ^ 48
  kept : s.d.cntPend = [] → ∀ i, t.d.rd .CNT_VAL i = s.d.rd .CNT_VAL i
  frame : Only noCut s t (fun r _ => r = .CNT_FREEZE)

/-- Bytes of a snapshot record. -/
def recordSize (s : State) : Nat := 64 + 576 * s.d.instances.length
/-- Bytes free in the snapshot ring. -/
def ringFree (s : State) : Nat :=
  if s.d.fld F.CNT_SNAP_WP_PTR 0 = s.d.fld F.CNT_SNAP_RP_PTR 0 then 0x30000000
  else (s.d.fld F.CNT_SNAP_RP_PTR 0 + 0x30000000 - s.d.fld F.CNT_SNAP_WP_PTR 0) % 0x30000000

/-- A record is at hand, and both stacks of pair B serve. -/
structure SnapDue (s : State) : Prop where
  state : s.d.cutState = 2
  serves : s.d.stackUp 2 = true ∧ s.d.stackUp 3 = true
  room : s.d.fld F.CNT_SNAP_WP_PTR 0 + recordSize s ≤ 0x30000000

end Sys2Proof.Claims

section
open Sys2Proof Sys2Proof.Claims Sys2Proof.Machine

/-- Security: extension and SVN commit, and debug opened, refused, revoked, closed and expired.
The model's choices: log entries 147, 148, 149, 150, 151, 237. -/
def Obligations.SecurityCommands : Prop :=
  ∀ (s : State) (m : Master) (data : Word) (level slot minutes : Nat),
    (Reaches s m .SEC_EXT_CTL 0 (setBits data 63 62 1) → Completes (.secExtend m data) s (fun t => Answers t 0
        ∧ Extended s t (bitsOf data 61 58) s.d.extDigest ∧ Only id s t (fun r i => r = .SEC_MEAS ∧ i / 6 = bitsOf data 61 58)))
    ∧ (∀ a, LiesAt .SEC_EXT_CTL 0 a → s.d.prompter = true → s.d.regDown .SEC_EXT_CTL 0 = false →
        ¬ (bitsOf data 63 62 = 1 ∧ 8 ≤ bitsOf data 61 58) → ¬ (bitsOf data 63 62 = 2 ∧ isHousePort m = true) →
        Ignored (.regWrite m a data) s 2)
    ∧ (Reaches s m .SEC_EXT_CTL 0 (setBits data 63 62 2) →
      (s.d.fuse.svnCount < s.d.fld F.SEC_STATE_SVN 0 → Completes (.svnCommit m data) s (fun t => Answers t 0
          ∧ t.d.fuse = { s.d.fuse with svnCount := s.d.fld F.SEC_STATE_SVN 0 } ∧ Extended s t 6 (eventDigest s 2 0 0 0)
          ∧ Only (fun d => { d with fuse := {} }) s t (fun r i => r = .SEC_MEAS ∧ i / 6 = 6)))
      ∧ (s.d.fld F.SEC_STATE_SVN 0 ≤ s.d.fuse.svnCount → Completes (.svnCommit m data) s (fun t => Answers t 0
          ∧ Only id s t (fun _ _ => False))))
    ∧ (Reaches s m .SEC_DBG_CTL 0 (setBits data 63 62 1) → Completes (.dbgNonce m data) s (fun t => Answers t 0
        ∧ t.d.sec = { s.d.sec with nonce := some (freshNonce s), drbg := (s.d.sec.drbg.draw 32).2 }
        ∧ (∀ w, w < 4 → t.d.rd .SEC_DBG_NONCE w = BitVec.ofNat 64 (bitsOf (freshNonce s) (255 - 64 * w) (192 - 64 * w)))
        ∧ Only noSec s t (fun r _ => r = .SEC_DBG_NONCE)))
    ∧ (Submits s m data level slot minutes →
      (¬ LevelOpen s level slot → Completes (.dbgSubmit m data) s (fun t => SubmitFails s t m 6 false))
      ∧ (LevelOpen s level slot → s.d.sec.lockedOut = true → Completes (.dbgSubmit m data) s (fun t => SubmitFails s t m 5 false))
      ∧ (LevelOpen s level slot → s.d.sec.lockedOut = false →
        (s.d.sec.nonce = none → Completes (.dbgSubmit m data) s (fun t => SubmitFails s t m 3 (!s.d.submitMet (portOf m))))
        ∧ (∀ n, s.d.sec.nonce = some n →
          (¬ OwnerKey s slot → Completes (.dbgSubmit m data) s (fun t => SubmitFails s t m 4 true))
          ∧ (OwnerKey s slot → ¬ OwnerSigned s n level slot minutes → Completes (.dbgSubmit m data) s (fun t => SubmitFails s t m 2 true))
          ∧ (OwnerKey s slot → OwnerSigned s n level slot minutes → level ≠ 3 → Completes (.dbgSubmit m data) s (fun t => Answers t 0
              ∧ t.d.fld F.SEC_STATE_DEBUG 0 = level ∧ t.d.fld F.SEC_DBG_CTL_RESULT 0 = 1 ∧ t.d.fld F.SEC_DBG_CTL_FAILS 0 = 0
              ∧ t.d.sec = { s.d.sec with nonce := none, openBy := slot, minutes := minutes, openAt := s.d.tmu.frc, submitted := submittedAfter s m }
              ∧ Extended s t 6 (eventDigest s 3 level slot minutes) ∧ (Heard s → Raises s t 0x97 6 0 (Config.debugData level slot).toNat)
              ∧ Only noSec s t (fun r i => r = .SEC_STATE ∨ r = .SEC_DBG_CTL ∨ (r = .SEC_MEAS ∧ i / 6 = 6))))
          ∧ (OwnerKey s slot → OwnerSigned s n level slot minutes → level = 3 → Completes (.dbgSubmit m data) s (fun t => Answers t 0
              ∧ t.d.fuse = { s.d.fuse with ownerValid := s.d.fuse.ownerValid - 2 ^ slot } ∧ t.d.sec.nonce = none
              ∧ t.d.fld F.SEC_DBG_CTL_FAILS 0 = 0
              ∧ (s.d.fld F.SEC_STATE_DEBUG 0 = 0 → Extended s t 6 (eventDigest s 5 3 slot minutes))
              ∧ (s.d.sec.openBy = slot → t.d.fld F.SEC_STATE_DEBUG 0 = 0)
              ∧ (s.d.sec.openBy ≠ slot → t.d.fld F.SEC_STATE_DEBUG 0 = s.d.fld F.SEC_STATE_DEBUG 0)
              ∧ Only (fun d => { noSec d with fuse := {} }) s t (fun r i => r = .SEC_STATE ∨ r = .SEC_DBG_CTL ∨ (r = .SEC_MEAS ∧ i / 6 = 6)))))))
    ∧ (Reaches s m .SEC_DBG_CTL 0 (setBits data 63 62 3) →
      (s.d.fld F.SEC_STATE_DEBUG 0 ≠ 0 → Completes (.dbgClose m data) s (fun t => Answers t 0 ∧ DebugCloses s t))
      ∧ (s.d.fld F.SEC_STATE_DEBUG 0 = 0 → Completes (.dbgClose m data) s (fun t => Answers t 0 ∧ Only id s t (fun _ _ => False))))
    ∧ Completes .dbgNonceExpiry s (fun t => t = { s with d := { s.d with sec := { s.d.sec with nonce := none } } })
    ∧ (s.d.fld F.SEC_STATE_DEBUG 0 ≠ 0 → s.d.sec.minutes * 60000000000 * 65536 ≤ s.d.sinceFrc s.d.sec.openAt →
        Completes .dbgMinutesExpiry s (fun t => DebugCloses s t))
    ∧ (s.d.fld F.SEC_STATE_DEBUG 0 = 0 ∨ s.d.sinceFrc s.d.sec.openAt < s.d.sec.minutes * 60000000000 * 65536 →
        Completes .dbgMinutesExpiry s (fun t => t = s))

/-- Counters: freeze, cut, thaw, snapshot, and the write of a counter.
The model's choices: log entries 159, 160, 176. -/
def Obligations.CounterCommands : Prop :=
  ∀ (s : State) (m : Master) (data : Word),
    (Reaches s m .CNT_FREEZE 0 (setBits data 63 63 1) → s.d.cutState = 0 → s.d.fld F.CNT_FREEZE_FREEZE 0 = 0 →
        Completes (.cntFreeze m data) s (fun t => Answers t 0 ∧ t.d.fld F.CNT_FREEZE_FREEZE 0 = 1 ∧ CutFixed s t))
    ∧ (Reaches s m .CNT_FREEZE 0 (setBits data 63 63 0) → bitOf data 62 = false →
      (s.d.cutState = 1 → Completes (.cntThaw m data) s (fun t => Answers t 0 ∧ Thawed s t))
      ∧ (s.d.cutState = 0 → s.d.fld F.CNT_FREEZE_SNAP 0 = 0 → Completes (.cntThaw m data) s (fun t => Answers t 0
          ∧ t.d.fld F.CNT_FREEZE_FREEZE 0 = 0 ∧ t.d.cutDue = false ∧ Only noCut s t (fun r _ => r = .CNT_FREEZE)))
      ∧ (s.d.cutState = 2 → Completes (.cntThaw m data) s (fun t => Answers t 0
          ∧ t.d.fld F.CNT_FREEZE_FREEZE 0 = 0 ∧ t.d.fld F.CNT_FREEZE_STATE 0 = 2 ∧ Only noCut s t (fun r _ => r = .CNT_FREEZE))))
    ∧ (Reaches s m .CNT_FREEZE 0 (setBits data 62 62 1) →
      (s.d.cutState = 0 → s.d.fld F.CNT_FREEZE_SNAP 0 = 0 →
        Completes (.cntSnap m data) s (fun t => Answers t 0 ∧ t.d.fld F.CNT_FREEZE_SNAP 0 = 1 ∧ CutFixed s t))
      ∧ (s.d.cutState = 1 → Completes (.cntSnap m data) s (fun t => Answers t 0 ∧ t.d.fld F.CNT_FREEZE_SNAP 0 = 1
          ∧ t.d.fld F.CNT_FREEZE_STATE 0 = 2 ∧ t.d.snapPeriodic = false ∧ Only noCut s t (fun r _ => r = .CNT_FREEZE))))
    ∧ bitsOf (s.d.view .CNT_FREEZE 0) F.CNT_FREEZE_STATE.hi F.CNT_FREEZE_STATE.lo = s.d.cutState
    ∧ (s.d.cutPast = false → Completes .cntCut s (fun t => t = s))
    ∧ (s.d.cutPast = true → s.d.fld F.CNT_FREEZE_STATE 0 = 0 → Completes .cntCut s (fun t =>
        t.d.fld F.CNT_FREEZE_STATE 0 = (if s.d.fld F.CNT_FREEZE_SNAP 0 = 1 then 2 else 1) ∧ t.d.cutDue = false
        ∧ t.d.cutT = (if s.d.fld F.TMU_STAT_VALID 0 = 1 then timeAt s s.d.cutFrc else 0) ∧ Only noCut s t (fun r _ => r = .CNT_FREEZE)))
    ∧ (SnapDue s →
      (recordSize s < ringFree s → Completes .snapshotWrite s (fun t => StoredPair s t 1 (0x10000000 + s.d.fld F.CNT_SNAP_WP_PTR 0) s.d.cutNow.snapRecord
          ∧ t.pending = s.pending
          ∧ t.d.fld F.CNT_SNAP_WP_PTR 0 = (s.d.fld F.CNT_SNAP_WP_PTR 0 + recordSize s) % 0x30000000
          ∧ t.d.snapSeq = s.d.snapSeq + 1 ∧ t.d.fld F.CNT_FREEZE_SNAP 0 = 0
          ∧ t.d.fld F.CNT_FREEZE_STATE 0 = s.d.fld F.CNT_FREEZE_FREEZE 0))
      ∧ (ringFree s ≤ recordSize s → Completes .snapshotWrite s (fun t => Rest s t
          ∧ t.d.fld F.CNT_SNAP_WP_PTR 0 = s.d.fld F.CNT_SNAP_WP_PTR 0 ∧ t.d.snapSeq = s.d.snapSeq
          ∧ t.d.fld F.CNT_FREEZE_SNAP 0 = 0 ∧ t.d.fld F.CNT_FREEZE_STATE 0 = s.d.fld F.CNT_FREEZE_FREEZE 0)))
    ∧ (s.d.cutState = 0 → Completes .freezeAutoThaw s (fun t => t = s))
    ∧ (s.d.cutState = 1 → Completes .freezeAutoThaw s (fun t => Thawed s t))
    ∧ (s.d.cutState = 2 → Completes .freezeAutoThaw s (fun t => t.d.fld F.CNT_FREEZE_FREEZE 0 = 0
        ∧ t.d.fld F.CNT_FREEZE_STATE 0 = 2 ∧ Only noCut s t (fun r _ => r = .CNT_FREEZE)))
    ∧ (s.d.fld F.CNT_DMA_CTL_EN 0 = 1 →
      (s.d.cutState = 0 → s.d.fld F.CNT_FREEZE_SNAP 0 = 0 → Completes .cntPeriodicSnap s (fun t =>
          t.d.fld F.CNT_FREEZE_SNAP 0 = 1 ∧ t.d.snapPeriodic = true ∧ CutFixed s t))
      ∧ (s.d.cutState ≠ 0 → bitOf (s.d.rd .CNT_CHAIN 0) 2 = false → Completes .cntPeriodicSnap s (fun t =>
          t.d.cntPend.get 0 5 = (s.d.cntPend.get 0 5 + 1) % 2 ^ 32 ∧ Only noCut s t (fun r _ => r = .CNT_FREEZE))))
    ∧ (∀ inst index, inst < 1064 → index < 64 → Reaches s m .CNT_VAL (inst * 64 + index) data → Completes (.cntValWrite m inst index data) s (fun t =>
        Answers t 0 ∧ t.d.fld F.CNT_VAL_VALUE (inst * 64 + index) = bitsOf data 47 0 ∧ t.d.fld F.CNT_VAL_WRAP (inst * 64 + index) = 0
        ∧ (∀ r j, ¬ (r = .CNT_VAL ∧ j = inst * 64 + index) → t.d.rd r j = s.d.rd r j) ∧ Only id s t (fun _ _ => False)))

end

section
open Sys2Proof Sys2Proof.Claims Sys2Proof.Machine

/-- When a house port's link leaves or regains block lock, HOUSE_DOWN or HOUSE_UP is raised with the port in DATA[0], unless
the device is in RECOVERY, where it raises no notice; the port is up no longer, or again, and little else changes. -/
def Obligations.HouseLinkNotices : Prop :=
  ∀ (s : State) (port : Nat), port < 2 →
    (port ∈ s.d.houseUp → Completes (.housePortLockChange port false) s (fun t =>
      (∀ p, p ∈ t.d.houseUp ↔ p ∈ s.d.houseUp ∧ p ≠ port)
      ∧ (Heard s → ∃ src data, Raises s t 0xA1 src 0 data ∧ data % 2 = port)
      ∧ Only (fun d => { d with houseUp := [] }) s t (fun _ _ => False)))
    ∧ (port ∉ s.d.houseUp → Completes (.housePortLockChange port true) s (fun t =>
      (∀ p, p ∈ t.d.houseUp ↔ p ∈ s.d.houseUp ∨ p = port)
      ∧ (Heard s → ∃ src data, Raises s t 0xA2 src 0 data ∧ data % 2 = port)
      ∧ Only (fun d => { d with houseUp := [] }) s t (fun r _ => r = .WNG_LANE_CTL)))

/-- Chained counters: the two halves are one count of 96 bits, the high half counts nothing but the carry, a counter that
is not chained wraps and sets WRAP, and a write of CNT_CHAIN leaves every value as it stands. -/
def Obligations.ChainedCounters : Prop :=
  ∀ (s : State) (inst k n : Nat), s.d.instOk inst = true → s.d.cutState = 0 → k < 32 → n < 2 ^ 48 →
    (bitOf (s.d.rd .CNT_CHAIN inst) k = true →
      (s.d.count inst (2 * k) n).fld F.CNT_VAL_VALUE (inst * 64 + 2 * k + 1) * 2 ^ 48
          + (s.d.count inst (2 * k) n).fld F.CNT_VAL_VALUE (inst * 64 + 2 * k)
        = (s.d.fld F.CNT_VAL_VALUE (inst * 64 + 2 * k + 1) * 2 ^ 48 + s.d.fld F.CNT_VAL_VALUE (inst * 64 + 2 * k) + n) % 2 ^ 96
      ∧ s.d.count inst (2 * k + 1) n = s.d)
    ∧ (bitOf (s.d.rd .CNT_CHAIN inst) k = false → ∀ j, j < 2 →
      (s.d.count inst (2 * k + j) n).fld F.CNT_VAL_VALUE (inst * 64 + 2 * k + j)
        = (s.d.fld F.CNT_VAL_VALUE (inst * 64 + 2 * k + j) + n) % 2 ^ 48
      ∧ (s.d.count inst (2 * k + j) n).fld F.CNT_VAL_WRAP (inst * 64 + 2 * k + j)
        = (if 2 ^ 48 ≤ s.d.fld F.CNT_VAL_VALUE (inst * 64 + 2 * k + j) + n then 1
           else s.d.fld F.CNT_VAL_WRAP (inst * 64 + 2 * k + j)))
    ∧ (∀ (m : Master) (a : Nat) (w : Word), Calm s → LiesAt .CNT_CHAIN inst a → Reaches s m .CNT_CHAIN inst w →
      Completes (.regWrite m a w) s (fun t => Answers t 0 ∧ (∀ p, p < 32 → bitOf (t.d.rd .CNT_CHAIN inst) p = bitOf w p)
        ∧ ∀ i, t.d.rd .CNT_VAL i = s.d.rd .CNT_VAL i))

end
end

