-- ==== Sys2Proof/Laws/Bytes.lean ====
section
/-! SUPPORT. Laws of byte lists: how large a number they spell, and that bytes and numbers invert each other. -/

namespace Sys2Proof.Machine

theorem ofBytes_foldl (l : List Byte) (a : Nat) :
    l.foldl (fun a b => a * 256 + b.toNat) a = a * 256 ^ l.length + ofBytes l := by
  induction l generalizing a with
  | nil => simp [ofBytes]
  | cons b l ih =>
    unfold ofBytes
    rw [List.foldl_cons, List.foldl_cons, ih, ih (0 * 256 + b.toNat), List.length_cons, Nat.pow_succ]
    ring

@[simp] theorem ofBytes_nil : ofBytes [] = 0 := rfl

theorem ofBytes_cons (b : Byte) (l : List Byte) : ofBytes (b :: l) = b.toNat * 256 ^ l.length + ofBytes l := by
  conv_lhs => unfold ofBytes
  rw [List.foldl_cons, ofBytes_foldl]
  simp

theorem ofBytes_lt (l : List Byte) : ofBytes l < 256 ^ l.length := by
  induction l with
  | nil => simp
  | cons b l ih =>
    rw [ofBytes_cons, List.length_cons, Nat.pow_succ]
    have := b.isLt
    nlinarith [Nat.zero_le (ofBytes l)]

theorem bytesAt_lt (bs : List Byte) (off len : Nat) : bytesAt bs off len < 256 ^ len := by
  unfold bytesAt
  have h1 := ofBytes_lt ((bs.drop off).take len)
  have h2 : ((bs.drop off).take len).length ≤ len := List.length_take_le _ _
  have e : 256 ^ len = 256 ^ ((bs.drop off).take len).length * 256 ^ (len - ((bs.drop off).take len).length) := by
    rw [← Nat.pow_add]; congr 1; omega
  rw [e]
  exact Nat.mul_lt_mul_of_pos_right h1 (Nat.pos_of_ne_zero (by positivity))

@[simp] theorem length_bytesOf (n v : Nat) : (bytesOf n v).length = n := by
  induction n with
  | zero => rfl
  | succ n ih => simp [bytesOf, ih]

/-- Byte `j` of a number, the most significant first. -/
theorem getElem?_bytesOf (n v j : Nat) (h : j < n) : (bytesOf n v)[j]? = some (BitVec.ofNat 8 (v >>> (8 * (n - 1 - j)))) := by
  induction n generalizing j with
  | zero => omega
  | succ n ih =>
    cases j with
    | zero => simp [bytesOf]
    | succ j =>
      simp only [bytesOf, List.getElem?_cons_succ]
      rw [ih j (by omega)]
      congr 4; omega

/-- Bytes of the number that a list spells. -/
theorem bytesOf_ofBytes (l : List Byte) : bytesOf l.length (ofBytes l) = l := by
  induction l with
  | nil => rfl
  | cons b l ih =>
    have hlt := ofBytes_lt l
    have key : ∀ n a v : Nat, bytesOf n (a * 256 ^ n + v) = bytesOf n v := by
      intro n
      induction n with
      | zero => intros; rfl
      | succ n ihn =>
        intro a v
        have e : a * 256 ^ (n + 1) + v = (a * 256) * 256 ^ n + v := by rw [Nat.pow_succ]; ring
        simp only [bytesOf]
        rw [e, ihn]
        congr 1
        apply BitVec.eq_of_toNat_eq
        simp only [BitVec.toNat_ofNat, Nat.shiftRight_eq_div_pow]
        rw [show 2 ^ (8 * n) = 256 ^ n by rw [Nat.pow_mul]]
        rw [Nat.mul_comm (a * 256), Nat.mul_add_div (by positivity)]
        omega
    rw [List.length_cons, ofBytes_cons]
    simp only [bytesOf]
    rw [key, ih]
    congr 1
    apply BitVec.eq_of_toNat_eq
    simp only [BitVec.toNat_ofNat, Nat.shiftRight_eq_div_pow]
    rw [show 2 ^ (8 * l.length) = 256 ^ l.length by rw [Nat.pow_mul], Nat.mul_comm, Nat.mul_add_div (by positivity),
      Nat.div_eq_of_lt hlt]
    have := b.isLt
    omega

end Sys2Proof.Machine
end

