-- ==== Sys2Proof/Laws/NMap.lean ====
section
/-! SUPPORT. Laws of the sparse stores: read after write, and the canonical form that every write keeps. -/

namespace Sys2Proof.Machine

theorem NMap.find_put {α : Type} (m : NMap α) (j k : Nat) (x : α) :
    (m.put j x).find k = if k = j then some x else m.find k := by
  induction m with
  | nil => simp [NMap.put, NMap.find]
  | cons c m ih =>
    obtain ⟨i, v⟩ := c
    simp only [NMap.put]
    split
    · simp [NMap.find]
    · split
      · subst_vars; simp only [NMap.find]; split <;> simp_all
      · simp only [NMap.find, ih]; split <;> split <;> simp_all

theorem NMap.find_erase {α : Type} (m : NMap α) (j k : Nat) :
    (m.erase j).find k = if k = j then none else m.find k := by
  induction m with
  | nil => simp [NMap.erase, NMap.find]
  | cons c m ih =>
    obtain ⟨i, v⟩ := c
    simp only [NMap.erase]
    split
    · subst_vars; rw [ih]; simp only [NMap.find]; split <;> simp_all
    · simp only [NMap.find, ih]; split <;> split <;> simp_all

@[simp] theorem NMap.get_put {α : Type} (m : NMap α) (z : α) (j k : Nat) (x : α) :
    (m.put j x).get z k = if k = j then x else m.get z k := by
  simp only [NMap.get, NMap.find_put]; split <;> rfl

@[simp] theorem NMap.get_erase {α : Type} (m : NMap α) (z : α) (j k : Nat) :
    (m.erase j).get z k = if k = j then z else m.get z k := by
  simp only [NMap.get, NMap.find_erase]; split <;> rfl

theorem NMap.get_putD {α : Type} [DecidableEq α] (m : NMap α) (y z : α) (j k : Nat) (x : α) (h : k = j → y = z) :
    (m.putD y j x).get z k = if k = j then x else m.get z k := by
  unfold NMap.putD
  split
  · rename_i e; rw [NMap.get_erase]; split
    · rename_i hk; rw [e, h hk]
    · rfl
  · rw [NMap.get_put]

/-- A change of every listed value, where it leaves the default as it is, is a change of every value read. -/
theorem NMap.get_map {α : Type} (f : α → α) (m : NMap α) (z : α) (hz : f z = z) (k : Nat) :
    NMap.get (m.map (fun x => (x.1, f x.2))) z k = f (m.get z k) := by
  induction m with
  | nil => simp [NMap.get, NMap.find, hz]
  | cons c m ih =>
    obtain ⟨i, v⟩ := c
    simp only [NMap.get, NMap.find, List.map_cons] at ih ⊢
    split
    · simp
    · exact ih

/-- Every listed key is above a bound. -/
def NMap.above {α : Type} (b : Nat) : NMap α → Prop
  | [] => True
  | (k, _) :: m => b < k ∧ NMap.above b m

theorem NMap.above_mono {α : Type} {a b : Nat} (h : a ≤ b) : ∀ {m : NMap α}, m.above b → m.above a
  | [], _ => trivial
  | (_, _) :: _, ⟨h1, h2⟩ => ⟨Nat.lt_of_le_of_lt h h1, NMap.above_mono h h2⟩

theorem NMap.sorted_cons {α : Type} (k : Nat) (v : α) (m : NMap α) :
    NMap.sorted ((k, v) :: m) = true ↔ m.above k ∧ m.sorted = true := by
  induction m generalizing k v with
  | nil => simp [NMap.sorted, NMap.above]
  | cons c m ih =>
    obtain ⟨j, w⟩ := c
    simp only [NMap.sorted, Bool.and_eq_true, decide_eq_true_eq, NMap.above]
    constructor
    · rintro ⟨h, s⟩
      exact ⟨⟨h, NMap.above_mono (Nat.le_of_lt h) ((ih j w).1 s).1⟩, s⟩
    · rintro ⟨⟨h, _⟩, s⟩
      exact ⟨h, s⟩

theorem NMap.above_put {α : Type} {b j : Nat} {x : α} (hj : b < j) : ∀ {m : NMap α}, m.above b → (m.put j x).above b
  | [], _ => by simp [NMap.put, NMap.above, hj]
  | (k, v) :: m, ⟨h1, h2⟩ => by
    simp only [NMap.put]
    split
    · exact ⟨hj, h1, h2⟩
    · split
      · exact ⟨hj, h2⟩
      · exact ⟨h1, NMap.above_put hj h2⟩

theorem NMap.above_erase {α : Type} {b j : Nat} : ∀ {m : NMap α}, m.above b → (m.erase j).above b
  | [], _ => trivial
  | (k, v) :: m, ⟨h1, h2⟩ => by
    simp only [NMap.erase]
    split
    · exact NMap.above_erase h2
    · exact ⟨h1, NMap.above_erase h2⟩

theorem NMap.above_filter {α : Type} {b : Nat} (f : Nat × α → Bool) : ∀ {m : NMap α}, m.above b → NMap.above b (m.filter f)
  | [], _ => trivial
  | (k, v) :: m, ⟨h1, h2⟩ => by
    simp only [List.filter_cons]
    split
    · exact ⟨h1, NMap.above_filter f h2⟩
    · exact NMap.above_filter f h2

theorem NMap.sorted_filter {α : Type} (f : Nat × α → Bool) : ∀ (m : NMap α), m.sorted = true → NMap.sorted (m.filter f) = true
  | [], _ => rfl
  | (k, v) :: m, h => by
    have hm := (NMap.sorted_cons k v m).1 h
    simp only [List.filter_cons]
    split
    · exact (NMap.sorted_cons _ _ _).2 ⟨NMap.above_filter f hm.1, NMap.sorted_filter f m hm.2⟩
    · exact NMap.sorted_filter f m hm.2

theorem NMap.sorted_put {α : Type} (j : Nat) (x : α) : ∀ (m : NMap α), m.sorted = true → (m.put j x).sorted = true
  | [], _ => rfl
  | (k, v) :: m, h => by
    have hm := (NMap.sorted_cons k v m).1 h
    simp only [NMap.put]
    split
    · rename_i hlt
      exact (NMap.sorted_cons _ _ _).2 ⟨⟨hlt, NMap.above_mono (Nat.le_of_lt hlt) hm.1⟩, h⟩
    · split
      · rename_i e; subst e; exact (NMap.sorted_cons _ _ _).2 hm
      · exact (NMap.sorted_cons _ _ _).2 ⟨NMap.above_put (by omega) hm.1, NMap.sorted_put j x m hm.2⟩

theorem NMap.sorted_erase {α : Type} (j : Nat) : ∀ (m : NMap α), m.sorted = true → (m.erase j).sorted = true
  | [], _ => rfl
  | (k, v) :: m, h => by
    have hm := (NMap.sorted_cons k v m).1 h
    simp only [NMap.erase]
    split
    · exact NMap.sorted_erase j m hm.2
    · exact (NMap.sorted_cons _ _ _).2 ⟨NMap.above_erase hm.1, NMap.sorted_erase j m hm.2⟩

theorem NMap.all_put {α : Type} (f : Nat × α → Bool) (j : Nat) (x : α) (hx : f (j, x) = true) :
    ∀ (m : NMap α), m.all f = true → (m.put j x).all f = true
  | [], _ => by simp [NMap.put, hx]
  | (k, v) :: m, h => by
    simp only [List.all_cons, Bool.and_eq_true] at h
    simp only [NMap.put]
    split
    · simp [hx, h.1, h.2]
    · split
      · simp [hx, h.2]
      · simp [h.1, NMap.all_put f j x hx m h.2]

theorem NMap.all_erase {α : Type} (f : Nat × α → Bool) (j : Nat) :
    ∀ (m : NMap α), m.all f = true → (m.erase j).all f = true
  | [], _ => rfl
  | (k, v) :: m, h => by
    simp only [List.all_cons, Bool.and_eq_true] at h
    simp only [NMap.erase]
    split
    · exact NMap.all_erase f j m h.2
    · simp [h.1, NMap.all_erase f j m h.2]

end Sys2Proof.Machine
end

