-- ==== Sys2Proof/Laws/Regs.lean ====
section
/-! SUPPORT. Laws of bit fields and registers: a field reads what was set, and every other field and register keeps its
value. -/

namespace Sys2Proof

theorem getLsbD_setBits {n : Nat} (w : BitVec n) (hi lo v i : Nat) (hl : lo ≤ hi) :
    (setBits w hi lo v).getLsbD i = if i < n ∧ lo ≤ i ∧ i ≤ hi then v.testBit (i - lo) else w.getLsbD i := by
  unfold setBits
  simp only [BitVec.getLsbD_or, BitVec.getLsbD_and, BitVec.getLsbD_not, BitVec.getLsbD_ofNat, Nat.testBit_shiftLeft,
    Nat.testBit_two_pow_sub_one, Nat.testBit_mod_two_pow]
  by_cases h1 : i < n
  · by_cases h2 : lo ≤ i
    · by_cases h3 : i ≤ hi
      · have : i - lo < hi - lo + 1 := by omega
        simp [h1, h2, h3, this]
      · have : ¬ i - lo < hi - lo + 1 := by omega
        simp [h1, h2, h3, this]
    · simp [h1, h2]
  · simp [h1, BitVec.getLsbD_of_ge w i (by omega)]

theorem testBit_bitsOf {n : Nat} (w : BitVec n) (hi lo i : Nat) :
    (bitsOf w hi lo).testBit i = (decide (i < hi - lo + 1) && w.getLsbD (lo + i)) := by
  unfold bitsOf
  simp only [Nat.testBit_mod_two_pow, Nat.testBit_shiftRight, BitVec.getLsbD]

/-- A field reads what was set in it. -/
theorem bitsOf_setBits {n : Nat} (w : BitVec n) (hi lo v : Nat) (hl : lo ≤ hi) (hn : hi < n) :
    bitsOf (setBits w hi lo v) hi lo = v % 2 ^ (hi - lo + 1) := by
  apply Nat.eq_of_testBit_eq
  intro i
  rw [testBit_bitsOf, getLsbD_setBits _ _ _ _ _ hl, Nat.testBit_mod_two_pow]
  by_cases h : i < hi - lo + 1
  · have : lo + i < n ∧ lo ≤ lo + i ∧ lo + i ≤ hi := by omega
    simp [h, this]
  · simp [h]

/-- A field that does not overlap keeps its value. -/
theorem bitsOf_setBits_of_disjoint {n : Nat} (w : BitVec n) (hi lo v hi' lo' : Nat) (hl : lo ≤ hi) (hl' : lo' ≤ hi')
    (h : hi' < lo ∨ hi < lo') :
    bitsOf (setBits w hi lo v) hi' lo' = bitsOf w hi' lo' := by
  apply Nat.eq_of_testBit_eq
  intro i
  rw [testBit_bitsOf, testBit_bitsOf, getLsbD_setBits _ _ _ _ _ hl]
  by_cases h2 : i < hi' - lo' + 1
  · have : ¬ (lo' + i < n ∧ lo ≤ lo' + i ∧ lo' + i ≤ hi) := by omega
    simp [this]
  · simp [h2]

theorem bitsOf_lt {n : Nat} (w : BitVec n) (hi lo : Nat) : bitsOf w hi lo < 2 ^ (hi - lo + 1) :=
  Nat.mod_lt _ (Nat.two_pow_pos _)

theorem setBits_bitsOf {n : Nat} (w : BitVec n) (hi lo : Nat) (hl : lo ≤ hi) : setBits w hi lo (bitsOf w hi lo) = w := by
  apply BitVec.eq_of_getLsbD_eq
  intro i hi'
  rw [getLsbD_setBits _ _ _ _ _ hl, testBit_bitsOf]
  split
  · rename_i h
    have : i - lo < hi - lo + 1 := by omega
    simp [this, Nat.add_sub_cancel' h.2.1]
  · rfl

namespace Machine

theorem RF.num_lt (r : RF) : r.num < 128 := by cases r <;> decide

theorem RF.num_injective {r r' : RF} (h : r.num = r'.num) : r = r' := by
  have key : ∀ r : RF, RF.all[r.num]? = some r := by intro r; cases r <;> rfl
  have h1 := key r
  rw [h, key r'] at h1
  exact (Option.some.inj h1).symm

theorem RF.key_injective {r r' : RF} {i i' : Nat} (h : r.key i = r'.key i') : r = r' ∧ i = i' := by
  unfold RF.key at h
  have h1 := RF.num_lt r
  have h2 := RF.num_lt r'
  have hi : i = i' := by omega
  subst hi
  exact ⟨RF.num_injective (by omega), rfl⟩

/-- The reset word of a register is fixed by the fuses. -/
theorem Dev.resetWord_congr {d d' : Dev} (h : d'.fuse = d.fuse) (r : RF) (i : Nat) : d'.resetWord r i = d.resetWord r i := by
  unfold Dev.resetWord Dev.capMax; rw [h]

@[simp] theorem Dev.wr_regs (d : Dev) (r : RF) (i : Nat) (w : Word) :
    (d.wr r i w).regs = d.regs.putD (d.resetWord r i) (r.key i) w := rfl

theorem Dev.rd_wr_self (d : Dev) (r : RF) (i : Nat) (w : Word) : (d.wr r i w).rd r i = w := by
  have e : (d.wr r i w).resetWord r i = d.resetWord r i := Dev.resetWord_congr rfl r i
  unfold Dev.rd
  rw [Dev.wr_regs, e, NMap.get_putD _ _ _ _ _ _ (fun _ => rfl)]
  simp

theorem Dev.rd_wr_of_ne (d : Dev) (r r' : RF) (i i' : Nat) (w : Word) (h : ¬ (r' = r ∧ i' = i)) :
    (d.wr r i w).rd r' i' = d.rd r' i' := by
  unfold Dev.rd
  have hk : r'.key i' ≠ r.key i := fun e => h (RF.key_injective e)
  have e : (d.wr r i w).resetWord r' i' = d.resetWord r' i' := Dev.resetWord_congr rfl r' i'
  rw [Dev.wr_regs, e, NMap.get_putD _ _ _ _ _ _ (fun e => absurd e hk), if_neg hk]

/-- A register after a write of one. -/
theorem Dev.rd_wr (d : Dev) (r r' : RF) (i i' : Nat) (w : Word) :
    (d.wr r i w).rd r' i' = if r' = r ∧ i' = i then w else d.rd r' i' := by
  split
  · rename_i h; obtain ⟨rfl, rfl⟩ := h; exact Dev.rd_wr_self _ _ _ _
  · rename_i h; exact Dev.rd_wr_of_ne _ _ _ _ _ _ h

theorem Dev.rd_setFld_of_ne (d : Dev) (f : Fld) (r : RF) (i i' v : Nat) (h : ¬ (r = f.rf ∧ i' = i)) :
    (d.setFld f i v).rd r i' = d.rd r i' := Dev.rd_wr_of_ne _ _ _ _ _ _ h

/-- A field set reads back, modulo its width. -/
theorem Dev.fld_setFld_self (d : Dev) (f : Fld) (i v : Nat) (hl : f.lo ≤ f.hi) (hn : f.hi < 64) :
    (d.setFld f i v).fld f i = v % 2 ^ (f.hi - f.lo + 1) := by
  unfold Dev.fld Dev.setFld
  rw [Dev.rd_wr_self, bitsOf_setBits _ _ _ _ hl hn]

/-- A field of another register, or one that does not overlap, keeps its value. -/
theorem Dev.fld_setFld_of_ne (d : Dev) (f g : Fld) (i j v : Nat) (hl : f.lo ≤ f.hi) (hg : g.lo ≤ g.hi)
    (h : ¬ (g.rf = f.rf ∧ j = i) ∨ g.hi < f.lo ∨ f.hi < g.lo) :
    (d.setFld f i v).fld g j = d.fld g j := by
  unfold Dev.fld
  by_cases he : g.rf = f.rf ∧ j = i
  · obtain ⟨h1, rfl⟩ := he
    have h2 : g.hi < f.lo ∨ f.hi < g.lo := by tauto
    rw [h1]
    unfold Dev.setFld
    rw [Dev.rd_wr_self, bitsOf_setBits_of_disjoint _ _ _ _ _ _ hl hg h2]
  · rw [Dev.rd_setFld_of_ne _ _ _ _ _ _ he]

end Machine
end Sys2Proof
end

