-- ==== Sys2Proof/Laws/Cue.lean ====
section
/-! SUPPORT. Laws of the Cue engines: what putting an engine back changes, and what a Cue command answers. -/

namespace Sys2Proof.Machine

@[simp] theorem Dev.loom_setLoom (d : Dev) (k j : Nat) (x : Loom) : (d.setLoom k x).loom j = if j = k then x else d.loom j := by
  simp [Dev.loom, Dev.setLoom]

@[simp] theorem Dev.engine_setEngine (d : Dev) (k e j f : Nat) (y : Engine) :
    (d.setEngine k e y).engine j f = if j = k ∧ f = e then y else d.engine j f := by
  unfold Dev.engine Dev.setEngine Dev.modLoom
  rw [Dev.loom_setLoom]
  by_cases hj : j = k
  · subst hj
    by_cases hf : f = e
    · subst hf; simp [Loom.engine]
    · simp [Loom.engine, hf]
  · simp [hj]

theorem Dev.loom_setEngine_of_ne (d : Dev) (k e j : Nat) (y : Engine) (h : j ≠ k) : (d.setEngine k e y).loom j = d.loom j := by
  unfold Dev.setEngine Dev.modLoom; rw [Dev.loom_setLoom, if_neg h]

theorem Dev.loom_setEngine_engines (d : Dev) (k e : Nat) (y : Engine) :
    { (d.setEngine k e y).loom k with engines := [] } = { d.loom k with engines := [] } := by
  unfold Dev.setEngine Dev.modLoom; rw [Dev.loom_setLoom, if_pos rfl]

theorem Dev.setEngine_rest (d : Dev) (k e : Nat) (y : Engine) : { d.setEngine k e y with looms := [] } = { d with looms := [] } := rfl

/-- The issue of an instruction where the engine stands before it. -/
theorem Dev.issue_eq (d : Dev) (m : Mem) (i : Instr) (k e : Nat) (f : Image → Engine → Dev → Dev) (im : Image)
    (hi : (d.loom k).images.find (d.engine k e).image = some im) (hr : d.site (17 + k) = 1)
    (hl : (d.engine k e).st = 1 ∨ (d.engine k e).st = 2) (hh : (d.loom k).halted.find e = none)
    (hp : (d.engine k e).pc < im.codeWords)
    (hw : cueDecode k e (im.word (d.engine k e).pc) = i) :
    d.issue m i k e f = f im (d.engine k e) d := by
  have h1 : d.siteUp (loomSite k) = true := by
    have : loomSite k = 17 + k := by unfold loomSite; omega
    simp [Dev.siteUp, this, hr]
  have h2 : (d.engine k e).live = true := by
    rcases hl with h | h <;> simp [Engine.live, h]
  have h3 : d.mayStep k e = true := by simp [Dev.mayStep, hh]
  have h4 : d.takeStep k e = d := by simp [Dev.takeStep, hh]
  unfold Dev.issue Dev.engImage
  rw [hi]
  dsimp only
  rw [h1, h2, h3, h4, if_neg (by simp), if_neg (by omega), if_pos hw]

theorem cueRow_eq (s : State) (i : Instr) (k e : Nat) (f : Engine → Eff) (im : Image) (hk : k < 4) (he : e < 68)
    (hi : (s.d.loom k).images.find (s.d.engine k e).image = some im) (hr : s.d.site (17 + k) = 1)
    (hl : (s.d.engine k e).st = 1 ∨ (s.d.engine k e).st = 2) (hh : (s.d.loom k).halted.find e = none)
    (hp : (s.d.engine k e).pc < im.codeWords)
    (hw : cueDecode k e (im.word (s.d.engine k e).pc) = i) :
    cueRow i k e f s = .next { s with d := s.d.apply s.mem k e (f (s.d.engine k e)) } := by
  unfold cueRow ifUnit onDevM
  rw [if_pos (by simp [hk, he])]
  simp only
  rw [Dev.issue_eq s.d s.mem i k e _ im hi hr hl hh hp hw]

theorem cueRowM_eq (s : State) (i : Instr) (k e : Nat) (f : Mem → Image → Engine → Dev → Dev) (im : Image) (hk : k < 4)
    (he : e < 68) (hi : (s.d.loom k).images.find (s.d.engine k e).image = some im) (hr : s.d.site (17 + k) = 1)
    (hl : (s.d.engine k e).st = 1 ∨ (s.d.engine k e).st = 2) (hh : (s.d.loom k).halted.find e = none)
    (hp : (s.d.engine k e).pc < im.codeWords)
    (hw : cueDecode k e (im.word (s.d.engine k e).pc) = i) :
    cueRowM i k e f s = .next { s with d := f s.mem im (s.d.engine k e) s.d } := by
  unfold cueRowM ifUnit onDevM
  rw [if_pos (by simp [hk, he])]
  simp only
  rw [Dev.issue_eq s.d s.mem i k e _ im hi hr hl hh hp hw]

theorem Image.codeWords_lt (i : Image) : i.codeWords < 2 ^ 32 := bytesAt_lt _ _ 4

end Sys2Proof.Machine
end

