-- ==== Sys2Proof/Laws/Memory.lean ====
section
/-! SUPPORT. Laws of Bolt memory: read after write, and the canonical form that every memory operation keeps. -/

namespace Sys2Proof.Machine

theorem memByte_memPut (m : Mem) (a c : Nat) (b : BitVec 8) :
    memByte (memPut m a b) c = if c = a then b else memByte m c :=
  NMap.get_putD m 0 0 a c b (fun _ => rfl)

theorem Memory.wf_memPut (m : Mem) (a : Nat) (b : BitVec 8) (h : Memory.wf m = true) : Memory.wf (memPut m a b) = true := by
  simp only [Memory.wf, Bool.and_eq_true] at h ⊢
  unfold memPut NMap.putD
  split
  · exact ⟨NMap.sorted_erase a m h.1, NMap.all_erase _ a m h.2⟩
  · rename_i hb
    exact ⟨NMap.sorted_put a b m h.1, NMap.all_put _ a b (by simpa using hb) m h.2⟩

theorem Memory.wf_memWrite (bs : List Byte) : ∀ (m : Mem) (a : Nat), Memory.wf m = true → Memory.wf (memWrite m a bs) = true := by
  induction bs with
  | nil => intro m a h; exact h
  | cons b bs ih => intro m a h; exact ih _ _ (Memory.wf_memPut m a b h)

theorem Memory.wf_filter (m : Mem) (f : Nat × BitVec 8 → Bool) (h : Memory.wf m = true) : Memory.wf (m.filter f) = true := by
  simp only [Memory.wf, Bool.and_eq_true] at h ⊢
  refine ⟨NMap.sorted_filter f m h.1, ?_⟩
  rw [List.all_eq_true] at h ⊢
  exact fun x hx => h.2 x (List.mem_filter.1 hx).1

/-- Bytes put one after another, as the copy of a mirror is. -/
theorem Memory.wf_foldl {α : Type} (g : α → Nat) (b : α → BitVec 8) (l : List α) :
    ∀ m : Mem, Memory.wf m = true → Memory.wf (l.foldl (fun m c => memPut m (g c) (b c)) m) = true := by
  induction l with
  | nil => intro m h; exact h
  | cons c l ih => intro m h; exact ih _ (Memory.wf_memPut m _ _ h)

theorem Memory.wf_dropStack (m : Mem) (k : Nat) (h : Memory.wf m = true) : Memory.wf (dropStack m k) = true :=
  Memory.wf_filter m _ h

theorem Memory.wf_carveWrite (d : Dev) (m : Mem) (pair off : Nat) (bs : List Byte) (h : Memory.wf m = true) :
    Memory.wf (d.carveWrite m pair off bs) = true := by
  have step : ∀ (m : Mem) (k : Nat), Memory.wf m = true →
      Memory.wf (if d.stackUp k then memWrite m (carveAt k off) bs else m) = true := by
    intro m k hm
    split
    · exact Memory.wf_memWrite bs _ _ hm
    · exact hm
  unfold Dev.carveWrite
  exact step _ _ (step _ _ h)

theorem Memory.wf_carveStore (d : Dev) (m : Mem) (pair off : Nat) (bs : List Byte) (h : Memory.wf m = true) :
    Memory.wf (d.carveStore m pair off bs).2 = true :=
  Memory.wf_carveWrite d m pair off bs h

theorem Memory.wf_boltStore (d : Dev) (m : Mem) (r : BoltRange) (bs : List Byte) (h : Memory.wf m = true) :
    Memory.wf (d.boltStore m r bs).2 = true := by
  unfold Dev.boltStore
  split
  · exact h
  · exact Memory.wf_memWrite bs _ _ h
  · exact Memory.wf_carveStore d m _ _ bs h

/-- A byte after a write of several: the written byte inside the range, the old one outside. -/
theorem memByte_memWrite (bs : List Byte) : ∀ (m : Mem) (a c : Nat),
    memByte (memWrite m a bs) c = if h : a ≤ c ∧ c - a < bs.length then bs[c - a]'h.2 else memByte m c := by
  induction bs with
  | nil => intro m a c; simp [memWrite]
  | cons b bs ih =>
    intro m a c
    simp only [memWrite, ih, memByte_memPut]
    by_cases hc : c = a
    · subst hc; simp
    · by_cases hl : a ≤ c ∧ c - a < bs.length + 1
      · have h1 : a + 1 ≤ c ∧ c - (a + 1) < bs.length := by omega
        rw [dif_pos h1, dif_pos (by simpa using hl)]
        have : c - a = (c - (a + 1)) + 1 := by omega
        simp [this]
      · rw [dif_neg (by omega), dif_neg (by simpa using hl), if_neg hc]

end Sys2Proof.Machine
end

