-- ==== Sys2Proof/Laws/Soft.lean ====
section
/-! SUPPORT. What the packet path may change: routing, queueing, resequencing, refusing and counting leave everything but
packets, buffers, credit, contexts, ledgers, counters and the notice log as it was. -/

namespace Sys2Proof.Machine

namespace Dev.Soft

theorem refl (d : Dev) : d.Soft d := ⟨rfl, fun _ => rfl, fun _ _ _ => rfl⟩

theorem trans {a b c : Dev} (h : a.Soft b) (k : b.Soft c) : a.Soft c :=
  ⟨k.hard.trans h.hard, fun l => (k.lane l).trans (h.lane l), fun r i hr => (k.regs r i hr).trans (h.regs r i hr)⟩

/-- A change that keeps the register words, the lanes but for what they receive, and everything hard. -/
theorem of_lanes {a d d' : Dev} (h : a.Soft d) (h1 : d'.hard = d.hard) (h2 : d'.regs = d.regs)
    (h3 : ∀ l, (d'.lane l).still = (d.lane l).still) : a.Soft d' := by
  refine h.trans ⟨h1, h3, fun r i _ => ?_⟩
  have hf : d'.fuse = d.fuse := by have e := congrArg Dev.fuse h1; exact e
  unfold Dev.rd
  rw [h2, Dev.resetWord_congr hf]

/-- A change that keeps the register words, the lanes and everything hard. -/
theorem of_regs {a d d' : Dev} (h : a.Soft d) (h1 : d'.hard = d.hard) (h2 : d'.regs = d.regs) (h3 : d'.net.lanes = d.net.lanes) :
    a.Soft d' :=
  h.of_lanes h1 h2 (fun l => by unfold Dev.lane; rw [h3])

theorem wr {a d : Dev} (h : a.Soft d) {r : RF} (hr : r.busy = true) (i : Nat) (w : Word) : a.Soft (d.wr r i w) := by
  refine h.trans ⟨rfl, fun _ => rfl, fun r' i' hb => Dev.rd_wr_of_ne _ _ _ _ _ _ ?_⟩
  rintro ⟨rfl, _⟩
  simp [hb] at hr

theorem setFld {a d : Dev} (h : a.Soft d) {f : Fld} (hr : f.rf.busy = true) (i v : Nat) : a.Soft (d.setFld f i v) := h.wr hr i _

theorem each {α : Type} {a d : Dev} (h : a.Soft d) (l : List α) {f : Dev → α → Dev} (hf : ∀ (b d : Dev) (x : α), b.Soft d → b.Soft (f d x)) :
    a.Soft (d.each l f) := by
  unfold Dev.each
  induction l generalizing d with
  | nil => exact h
  | cons x l ih => exact ih (hf a d x h)

theorem when {a d : Dev} (h : a.Soft d) (c : Bool) {f : Dev → Dev} (hf : a.Soft (f d)) : a.Soft (d.when c f) := by
  unfold Dev.when; split <;> assumption

theorem whenSome {α : Type} {a d : Dev} (h : a.Soft d) (o : Option α) {f : α → Dev → Dev} (hf : ∀ x, a.Soft (f x d)) :
    a.Soft (d.whenSome o f) := by
  unfold Dev.whenSome; split
  · exact hf _
  · exact h

theorem whenSome' {α : Type} {a d : Dev} (h : a.Soft d) (o : Option α) {f : α → Dev → Dev} (hf : ∀ x, o = some x → a.Soft (f x d)) :
    a.Soft (d.whenSome o f) := by
  unfold Dev.whenSome; split
  · exact hf _ rfl
  · exact h

theorem fuse {d d' : Dev} (h : d.Soft d') : d'.fuse = d.fuse := by have e := congrArg Dev.fuse h.hard; exact e
theorem looms {d d' : Dev} (h : d.Soft d') : d'.looms = d.looms := by have e := congrArg Dev.looms h.hard; exact e
theorem wings {d d' : Dev} (h : d.Soft d') : d'.wings = d.wings := by have e := congrArg Dev.wings h.hard; exact e
theorem tab {d d' : Dev} (h : d.Soft d') : d'.tab = d.tab := by have e := congrArg Dev.tab h.hard; exact e
theorem tmu {d d' : Dev} (h : d.Soft d') : d'.tmu = d.tmu := by have e := congrArg Dev.tmu h.hard; exact e
theorem pwr {d d' : Dev} (h : d.Soft d') : d'.pwr = d.pwr := by have e := congrArg Dev.pwr h.hard; exact e
theorem sec {d d' : Dev} (h : d.Soft d') : d'.sec = d.sec := by have e := congrArg Dev.sec h.hard; exact e
theorem power {d d' : Dev} (h : d.Soft d') : d'.power = d.power := by have e := congrArg Dev.power h.hard; exact e
theorem out {d d' : Dev} (h : d.Soft d') : d'.out = d.out := by have e := congrArg Dev.out h.hard; exact e
theorem ports {d d' : Dev} (h : d.Soft d') : d'.net.ports = d.net.ports := by have e := congrArg (fun x : Dev => x.net.ports) h.hard; exact e

theorem fld {d d' : Dev} (h : d.Soft d') (f : Fld) (i : Nat) (hb : f.rf.busy = false) : d'.fld f i = d.fld f i := by
  unfold Dev.fld; rw [h.regs _ _ hb]

/-! ## Counters and notices -/

theorem addCount {a d : Dev} (h : a.Soft d) (inst idx n : Nat) : a.Soft (d.addCount inst idx n) := by
  unfold Dev.addCount
  have e1 : F.CNT_VAL_VALUE.rf.busy = true := rfl
  have e2 : F.CNT_VAL_WRAP.rf.busy = true := rfl
  dsimp only
  repeat' split
  all_goals apply_rules [setFld]

theorem count {a d : Dev} (h : a.Soft d) (inst idx n : Nat) : a.Soft (d.count inst idx n) := by
  unfold Dev.count
  repeat' split
  · exact h
  · exact h
  · exact h.addCount _ _ _
  · exact h.of_regs rfl rfl rfl

theorem countGlb {a d : Dev} (h : a.Soft d) (c : Nat) : a.Soft (d.countGlb c) := h.count _ _ _
theorem countTbl {a d : Dev} (h : a.Soft d) (c : Nat) : a.Soft (d.countTbl c) := h.count _ _ _
theorem countWrd {a d : Dev} (h : a.Soft d) (c : Nat) : a.Soft (d.countWrd c) := h.count _ _ _
theorem countMem {a d : Dev} (h : a.Soft d) (c : Nat) : a.Soft (d.countMem c) := h.count _ _ _
theorem countTmu {a d : Dev} (h : a.Soft d) (c : Nat) : a.Soft (d.countTmu c) := h.count _ _ _
theorem countPwr {a d : Dev} (h : a.Soft d) (c : Nat) : a.Soft (d.countPwr c) := h.count _ _ _
theorem countPort {a d : Dev} (h : a.Soft d) (l c : Nat) : a.Soft (d.countPort l c) := h.count _ _ _
theorem countWing {a d : Dev} (h : a.Soft d) (w c n : Nat) : a.Soft (d.countWing w c n) := h.count _ _ _
theorem countLoom {a d : Dev} (h : a.Soft d) (k c n : Nat) : a.Soft (d.countLoom k c n) := h.count _ _ _
theorem countStack {a d : Dev} (h : a.Soft d) (m c n : Nat) : a.Soft (d.countStack m c n) := h.count _ _ _

theorem countEv {a d : Dev} (h : a.Soft d) (inst ev n : Nat) (x : EvCtx) : a.Soft (d.countEv inst ev n x) := by
  unfold Dev.countEv
  refine h.each _ fun b d j hb => ?_
  split
  · exact hb.count _ _ _
  · exact hb

theorem setRelay {a d : Dev} (h : a.Soft d) (l : List Relay) : a.Soft { d with relay := l } := h.of_regs rfl rfl rfl
theorem setLedger {a d : Dev} (h : a.Soft d) (l : List Led) : a.Soft { d with net := { d.net with ledger := l } } :=
  h.of_regs rfl rfl rfl

theorem logNotice {a d : Dev} (h : a.Soft d) (bits : BitVec 128) (r : Option (BitVec 32)) : a.Soft (d.logNotice bits r) := by
  unfold Dev.logNotice
  refine setRelay ?_ _
  exact ((((h.setFld rfl _ _).setFld rfl _ _).setFld rfl _ _).setFld rfl _ _).setFld rfl _ _

theorem noticeSev {a d : Dev} (h : a.Soft d) (t sev src prod data : Nat) : a.Soft (d.noticeSev t sev src prod data) := by
  unfold Dev.noticeSev; split
  · exact h
  · exact h.logNotice _ _

theorem notice {a d : Dev} (h : a.Soft d) (t src prod data : Nat) : a.Soft (d.notice t src prod data) := h.noticeSev _ _ _ _ _

theorem noticeLim {a d : Dev} (h : a.Soft d) (t src prod data key : Nat) : a.Soft (d.noticeLim t src prod data key) := by
  have h2 : a.Soft ({ d with limits := d.limits.put (t * 2 ^ 32 + key) d.tmu.total } : Dev) := h.of_regs rfl rfl rfl
  unfold Dev.noticeLim
  dsimp only
  repeat' split
  all_goals first | exact h | exact h2.notice _ _ _ _

theorem discardOther {a d : Dev} (h : a.Soft d) (p : Pkt) : a.Soft (d.discardOther p) := by
  unfold Dev.discardOther; split
  · exact h.countGlb _
  · exact (h.countPort _ _).countEv _ _ _ _

theorem discardAs {a d : Dev} (h : a.Soft d) (p : Pkt) (c : Nat) : a.Soft (d.discardAs p c) := by
  unfold Dev.discardAs; split
  · exact h.countGlb _
  · exact (h.countPort _ _).countEv _ _ _ _

/-! ## Wardrobe -/

theorem countDrop {a d : Dev} (h : a.Soft d) (p : Pkt) : a.Soft (d.countDrop p) := by
  unfold Dev.countDrop; split
  · exact h
  · exact h.countEv _ _ _ _

theorem modPkt {a d : Dev} (h : a.Soft d) (id : Nat) (f : Pkt → Pkt) : a.Soft (d.modPkt id f) := h.of_regs rfl rfl rfl
theorem dropPkt {a d : Dev} (h : a.Soft d) (id : Nat) : a.Soft (d.dropPkt id) := h.of_regs rfl rfl rfl
theorem setLv {a d : Dev} (h : a.Soft d) (k : Nat) (x : LaneVl) : a.Soft (d.setLv k x) := h.of_regs rfl rfl rfl
theorem modLv {a d : Dev} (h : a.Soft d) (k : Nat) (f : LaneVl → LaneVl) : a.Soft (d.modLv k f) := h.of_regs rfl rfl rfl
theorem send {a d : Dev} (h : a.Soft d) (p : Pkt) : a.Soft (d.send p) := h.of_regs rfl rfl rfl
theorem stamp {a d : Dev} (h : a.Soft d) : a.Soft d.stamp.2 := h.of_regs rfl rfl rfl
theorem addBuf {a d : Dev} (h : a.Soft d) (b : Buf) : a.Soft (d.addBuf b).2 := h.of_regs rfl rfl rfl
theorem addUsed {a d : Dev} (h : a.Soft d) (p n : Nat) : a.Soft (d.addUsed p n) := h.setFld rfl _ _
theorem subUsed {a d : Dev} (h : a.Soft d) (p n : Nat) : a.Soft (d.subUsed p n) := h.setFld rfl _ _
theorem freeNat {a d : Dev} (h : a.Soft d) : a.Soft d.freeNat.2 := h.of_regs rfl rfl rfl

theorem moveTo {a d : Dev} (h : a.Soft d) (id : Nat) (pl : Place) : a.Soft (d.moveTo id pl) := by
  unfold Dev.moveTo; exact h.stamp.modPkt _ _

theorem giveBack {a d : Dev} (h : a.Soft d) (k : Nat) : a.Soft (d.giveBack k) := by
  unfold Dev.giveBack; dsimp only; split
  · exact h
  · exact h.setLv _ _

theorem grantShared {a d : Dev} (h : a.Soft d) (k : Nat) : a.Soft (d.grantShared k) := by
  unfold Dev.grantShared; dsimp only; split
  · exact h.setLv _ _
  · exact h

theorem grant {a d : Dev} (h : a.Soft d) (k : Nat) : a.Soft (d.grant k) := by
  unfold Dev.grant; split
  · exact (h.giveBack _).grantShared _
  · exact h

theorem chargeLane {a d : Dev} (h : a.Soft d) (k : Nat) (o : Bool) (p : Pkt) : a.Soft (d.chargeLane k o p).2 := by
  unfold Dev.chargeLane; dsimp only
  split
  · exact (h.setLv _ _).addBuf _
  · split
    · exact (h.setLv _ _).addBuf _
    · exact (((h.setLv _ _).addUsed _ _).when _ (((h.setLv _ _).addUsed _ _).countWrd _)).addBuf _

theorem chargeSource {a d : Dev} (h : a.Soft d) (k : Nat) (p : Pkt) : ∀ x, d.chargeSource k p = some x → a.Soft x.2 := by
  intro x hx
  unfold Dev.chargeSource at hx; dsimp only at hx
  split at hx
  · cases hx; exact (h.setLv _ _).addBuf _
  · split at hx
    · cases hx; exact (((h.setLv _ _).addUsed _ _).when _ (((h.setLv _ _).addUsed _ _).countWrd _)).addBuf _
    · cases hx

theorem chargeCommon {a d : Dev} (h : a.Soft d) (n prod : Nat) : a.Soft (d.chargeCommon n prod).2 := by
  unfold Dev.chargeCommon; exact ((h.addUsed _ _).when _ ((h.addUsed _ _).countWrd _)).addBuf _

theorem setBufs {a d : Dev} (h : a.Soft d) (m : NMap Buf) : a.Soft { d with net := { d.net with bufs := m } } :=
  h.of_regs rfl rfl rfl

theorem returnCells {a d : Dev} (h : a.Soft d) (b : Buf) (n : Nat) : a.Soft (d.returnCells b n) := by
  have h2 : a.Soft (if b.pool = .coll ∨ b.pool = .collDue then d else d.whenSome b.prod (fun q d => d.subUsed q n)) := by
    split
    · exact h
    · exact h.whenSome _ (fun q => h.subUsed q n)
  unfold Dev.returnCells
  dsimp only
  split
  all_goals first | exact (h2.setLv _ _).grant _ | exact h2

theorem freeBuf {a d : Dev} (h : a.Soft d) (id : Nat) : a.Soft (d.freeBuf id) := by
  unfold Dev.freeBuf
  split
  · exact h
  · split
    · exact h.setBufs _
    · exact (h.setBufs _).returnCells _ _

theorem trimBuf {a d : Dev} (h : a.Soft d) (id : Nat) : a.Soft (d.trimBuf id) := by
  unfold Dev.trimBuf
  split
  · exact h
  · split
    · exact (h.setBufs _).returnCells _ _
    · exact h

theorem forgetRx {a d : Dev} (h : a.Soft d) (id : Nat) : a.Soft (d.forgetRx id) := by
  refine h.of_lanes rfl rfl (fun l => ?_)
  have e : (d.forgetRx id).lane l = (d.lane l).forget id := NMap.get_map (Lane.forget id) d.net.lanes ({} : Lane) rfl l
  rw [e]
  unfold Lane.forget Lane.still
  repeat' split
  all_goals rfl

theorem endPkt {a d : Dev} (h : a.Soft d) (id : Nat) : a.Soft (d.endPkt id) := by
  unfold Dev.endPkt; split
  · exact h
  · exact (((h.freeBuf _).dropPkt _).trimBuf _).forgetRx _

theorem refuseReq {a d : Dev} (h : a.Soft d) (p : Pkt) (st : Nat) {drop : Dev → Dev} (hd : a.Soft (drop d)) :
    a.Soft (d.refuseReq p st drop) := by
  unfold Dev.refuseReq
  refine endPkt ?_ _
  split
  · exact ((h.send _).countEv _ _ _ _).countDrop _
  · exact hd

theorem countMark {a d : Dev} (h : a.Soft d) (p : Pkt) (l m : Nat) : a.Soft (d.countMark p l m) := by
  have h1 : a.Soft (if m = 1 then d.countPort l C.MARK_T1 else if m = 2 then d.countPort l C.MARK_T2 else d) := by
    repeat' split
    all_goals first | exact h | exact h.countPort _ _
  unfold Dev.countMark
  dsimp only
  split
  · exact h1.countEv _ _ _ _
  · exact h1

theorem chargeColl {a d : Dev} (h : a.Soft d) (id : Nat) : ∀ x, d.chargeColl id = some x → a.Soft x := by
  intro x hx
  unfold Dev.chargeColl at hx
  split at hx
  · cases hx; exact h
  · split at hx
    · cases hx; exact h
    · split at hx
      · cases hx; exact h.setBufs _
      · cases hx

theorem refuse {a d : Dev} (h : a.Soft d) (p : Pkt) (st : Nat) {drop : Dev → Dev} (hd : a.Soft (drop d)) :
    a.Soft (d.refuse p st drop) := by
  unfold Dev.refuse; dsimp only
  refine endPkt ?_ _
  repeat' split
  · exact ((h.send _).countEv _ _ _ _).countDrop _
  · exact (h.send _).countDrop _
  · exact hd

theorem countStale {a d : Dev} (h : a.Soft d) (p : Pkt) : a.Soft (d.countStale p) := by
  unfold Dev.countStale
  repeat' split
  all_goals first | exact h.countGlb _ | exact h.countPort _ _

theorem refuseGen {a d : Dev} (h : a.Soft d) (p : Pkt) (st : Nat) : a.Soft (d.refuseGen p st) := by
  unfold Dev.refuseGen; dsimp only
  have h1 : a.Soft (if st = St.GEN_STALE then d.countStale p else d) := by
    split
    · exact h.countStale _
    · exact h
  refine h1.refuse _ _ ?_
  split
  · exact h1.discardAs _ _
  · exact h1.countDrop _

/-! ## Resequencing and accounting -/

theorem setCtxs {a d : Dev} (h : a.Soft d) (l : List Ctx) : a.Soft (d.setCtxs l) := h.of_regs rfl rfl rfl
theorem modCtx {a d : Dev} (h : a.Soft d) (k : CtxKey) (f : Ctx → Ctx) : a.Soft (d.modCtx k f) := h.of_regs rfl rfl rfl
theorem noteCtxs {a d : Dev} (h : a.Soft d) : a.Soft d.noteCtxs := by
  unfold Dev.noteCtxs; exact (h.setFld rfl _ _).setFld rfl _ _
theorem addCtx {a d : Dev} (h : a.Soft d) (c : Ctx) : a.Soft (d.addCtx c) := (h.setCtxs _).noteCtxs
theorem dropCtx {a d : Dev} (h : a.Soft d) (k : CtxKey) : a.Soft (d.dropCtx k) := (h.setCtxs _).noteCtxs
theorem setFlow {a d : Dev} (h : a.Soft d) (f : Flow) : a.Soft (d.setFlow f) := h.of_regs rfl rfl rfl
theorem noteLedger {a d : Dev} (h : a.Soft d) : a.Soft d.noteLedger := by
  unfold Dev.noteLedger; exact (h.setFld rfl _ _).setFld rfl _ _

theorem raiseErr {a d : Dev} (h : a.Soft d) (s t : BitVec 32) (st : Nat) (w : Bool) : a.Soft (d.raiseErr s t st w) := by
  unfold Dev.raiseErr; dsimp only; split
  · exact h
  · exact h.setFlow _

theorem ledgerAdd {a d : Dev} (h : a.Soft d) (p : Pkt) : a.Soft (d.ledgerAdd p) := by
  unfold Dev.ledgerAdd; dsimp only
  exact ((h.setFlow _).setLedger _).noteLedger

theorem ledgerDrop {a d : Dev} (h : a.Soft d) (l : Led) : a.Soft (d.ledgerDrop l) := by
  unfold Dev.ledgerDrop; dsimp only
  exact ((h.setFlow _).setLedger _).noteLedger

theorem countPoison {a d : Dev} (h : a.Soft d) (c : BitVec 32) (p : Nat) : a.Soft (d.countPoison c p) := h.of_regs rfl rfl rfl

theorem completeReq {a d : Dev} (h : a.Soft d) (p : Pkt) (st lane : Nat) : a.Soft (d.completeReq p st lane) := by
  unfold Dev.completeReq; dsimp only
  refine endPkt ?_ _
  split
  · exact h.send _
  · exact (h.send _).countEv _ _ _ _

theorem letGo {a d : Dev} (h : a.Soft d) (p : Pkt) (lane : Nat) : a.Soft (d.letGo p lane) := by
  unfold Dev.letGo
  repeat' split
  · exact h.moveTo _ _
  · exact h.moveTo _ _
  · exact (h.discardOther _).endPkt _

theorem deliver1 {a d : Dev} (h : a.Soft d) (c : Ctx) (p : Pkt) : ∀ x, d.deliver1 c p = some x → a.Soft x := by
  intro x hx
  unfold Dev.deliver1 at hx; dsimp only at hx
  split at hx
  · split at hx
    · cases hx; exact (h.countPoison _ _).completeReq _ _ _
    split at hx
    · cases hx; exact (h.raiseErr _ _ _ _).completeReq _ _ _
    split at hx
    · cases hx; split
      · exact (h.raiseErr _ _ _ _).completeReq _ _ _
      · exact (h.discardOther _).endPkt _
    split at hx
    · cases hx
    split at hx
    · split at hx
      · cases hx; exact (h.setFlow _).completeReq _ _ _
      · cases hx
    split at hx
    · cases hx
    split at hx
    · cases hx; exact (h.setFlow _).completeReq _ _ _
    split at hx
    · cases hx
    · cases hx; exact (h.ledgerAdd _).letGo _ _
  · split at hx
    · cases hx; exact (h.discardOther _).endPkt _
    · cases hx; exact h.letGo _ _

theorem advance (n : Nat) : ∀ {a d : Dev} (_ : a.Soft d) (k : CtxKey), a.Soft (Dev.advance n d k) := by
  induction n with
  | zero => intro a d h k; exact h
  | succ n ih =>
    intro a d h k
    unfold Dev.advance
    split
    · exact h
    · split
      · exact h
      split
      · exact h.modCtx _ _
      · split
        · rename_i hd
          exact ih ((h.deliver1 _ _ _ hd).modCtx _ _) k
        · dsimp only
          refine modCtx ?_ _ _
          split
          · exact (h.countMem _).noticeLim _ _ _ _ _
          · exact h

theorem runCtx {a d : Dev} (h : a.Soft d) (k : CtxKey) : a.Soft (d.runCtx k) := advance _ h k

theorem pushPkt {a d : Dev} (h : a.Soft d) (g : Pkt) (pl : Place) : a.Soft (d.pushPkt g pl) := h.of_regs rfl rfl rfl

theorem gapReport {a d : Dev} (h : a.Soft d) (c : Ctx) (p : Pkt) (f n : Nat) : ∀ x, d.gapReport c p f n = some x → a.Soft x := by
  intro x hx
  unfold Dev.gapReport at hx; dsimp only at hx
  split at hx
  · cases hx; exact h
  · obtain ⟨y, hy, rfl⟩ := Option.map_eq_some_iff.1 hx
    exact ((h.chargeSource _ _ _ hy).countMark _ _ _).pushPkt _ _

theorem skipGap {a d : Dev} (h : a.Soft d) (c : Ctx) (p : Pkt) (n : Nat) : ∀ x, d.skipGap c p n = some x → a.Soft x := by
  intro x hx
  unfold Dev.skipGap at hx; dsimp only at hx
  split at hx
  · exact h.gapReport _ _ _ _ _ hx
  · cases hx
    split
    · exact (h.count _ _ _).raiseErr _ _ _ _
    · exact h.count _ _ _

theorem skipTo {a d : Dev} (h : a.Soft d) (c : Ctx) (p : Pkt) : ∀ x, d.skipTo c p = some x → a.Soft x := by
  intro x hx
  unfold Dev.skipTo at hx
  split at hx
  · cases hx; exact h
  · exact h.skipGap _ _ _ _ hx

theorem moveGap {a d : Dev} (h : a.Soft d) (k : CtxKey) (c : Ctx) (p : Pkt) : a.Soft (d.moveGap k c p) :=
  whenSome' h _ fun _ hx => runCtx ((h.skipTo _ _ _ hx).modCtx _ _) _

theorem passGap {a d : Dev} (h : a.Soft d) (k : CtxKey) (c : Ctx) (o : Option Pkt) : a.Soft (d.passGap k c o) := by
  cases o with
  | none => exact h.modCtx _ _
  | some p => exact h.moveGap _ _ _

theorem expireGap {a d : Dev} (h : a.Soft d) (k : CtxKey) : a.Soft (d.expireGap k) :=
  h.whenSome _ fun _ => h.passGap _ _ _

theorem lateOrDup {a d : Dev} (h : a.Soft d) (c : Ctx) (p : Pkt) : a.Soft (d.lateOrDup c p) := by
  unfold Dev.lateOrDup
  repeat' split
  · exact (h.countPoison _ _).completeReq _ _ _
  · exact h.completeReq _ _ _
  · exact h.letGo _ _
  · exact h.endPkt _

theorem overrunTo (n : Nat) : ∀ {a d : Dev} (_ : a.Soft d) (k : CtxKey) (p : Pkt) (u : Nat), a.Soft (Dev.overrunTo n d k p u) := by
  induction n with
  | zero => intro a d h k p u; exact h
  | succ n ih =>
    intro a d h k p u
    unfold Dev.overrunTo
    repeat' split
    all_goals first
      | exact h
      | exact ih (h.expireGap _) _ _ _
      | exact whenSome' h _ (fun x hx => (h.skipGap _ _ _ _ hx).modCtx _ _)

theorem rsqFeed {a d : Dev} (h : a.Soft d) (c : Ctx) (p : Pkt) (l q : Nat) : a.Soft (d.rsqFeed c p l q) := by
  have hh : a.Soft (d.modPkt p.id (fun x => { x with place := .held l q })) := h.modPkt _ _
  unfold Dev.rsqFeed; dsimp only
  split
  · split
    · exact (h.countWrd _).lateOrDup _ _
    · split
      · exact hh.runCtx _
      · exact hh.modCtx _ _
  · split
    · split
      · exact h.moveTo _ _
      · have h0 : a.Soft (if p.overrun then d else (d.modPkt p.id (fun x => { x with overrun := true })).countWrd C.RSQ_OVERRUN) := by
          split
          · exact h
          · exact (h.modPkt _ _).countWrd _
        have h3 := overrunTo ((d.heldOf c.ckey).length + 1) h0 c.ckey
          { p with place := .rsqWait l q } ((p.rsqNo + 2 ^ 24 - 4096) % 2 ^ 24)
        split
        · exact h3
        · split
          · exact h3.moveTo _ _
          · exact (h3.modPkt _ _).runCtx _
    · exact (h.countWrd _).lateOrDup _ _

theorem rsqNumber {a d : Dev} (h : a.Soft d) (c : Ctx) (p : Pkt) : a.Soft (d.rsqNumber c p) := by
  unfold Dev.rsqNumber; split
  · exact h.modPkt _ _
  · exact (h.modPkt _ _).modCtx _ _

theorem rsqOpen {a d : Dev} (h : a.Soft d) (p : Pkt) (l q : Nat) : a.Soft (d.rsqOpen p l q) := by
  unfold Dev.rsqOpen; dsimp only; split
  · exact (h.addCtx _).modPkt _ _
  · exact ((h.addCtx _).modPkt _ _).runCtx _

theorem rsqJoin {a d : Dev} (h : a.Soft d) (c : Ctx) (p : Pkt) (l q : Nat) : a.Soft (d.rsqJoin c p l q) := by
  unfold Dev.rsqJoin; dsimp only; split
  · exact (h.rsqNumber _ _).modPkt _ _
  · exact (h.rsqNumber _ _).rsqFeed _ _ _ _

theorem rsqPlace {a d : Dev} (h : a.Soft d) (id l q : Nat) : a.Soft (d.rsqPlace id l q) := by
  unfold Dev.rsqPlace
  split
  · exact h
  · split
    · exact h.rsqJoin _ _ _ _
    · split
      · exact ((h.countWrd _).noticeLim _ _ _ _ _).moveTo _ _
      · exact h.rsqOpen _ _ _

theorem rsqRetry {a d : Dev} (h : a.Soft d) : a.Soft d.rsqRetry := by
  unfold Dev.rsqRetry
  refine h.each _ fun b d x hb => ?_
  repeat' split
  all_goals first | exact hb | exact hb.rsqPlace _ _ _

theorem retryFull {a d : Dev} (h : a.Soft d) : a.Soft d.retryFull := by
  unfold Dev.retryFull; split
  · exact h
  · exact h.each _ fun b d c hb => hb.runCtx _

theorem retryFlow {a d : Dev} (h : a.Soft d) (s t : BitVec 32) : a.Soft (d.retryFlow s t) :=
  (((h.runCtx _).runCtx _).retryFull).rsqRetry

/-! ## Routing -/

theorem noteParity {a d : Dev} (h : a.Soft d) (t i : Nat) : a.Soft (d.noteParity t i) := (h.countTbl _).noticeLim _ _ _ _ _

theorem look {a d : Dev} (h : a.Soft d) (t i : Nat) : a.Soft (d.look t i).2 := by
  unfold Dev.look
  repeat' split
  · exact h
  · exact h.noteParity _ _
  · exact h

theorem tcamFind {a d : Dev} (h : a.Soft d) (k lo hi : Nat) : a.Soft (d.tcamFind k lo hi).2 := by
  unfold Dev.tcamFind
  exact h.each _ fun b d x hb => hb.noteParity _ _

theorem tcamCoord {a d : Dev} (h : a.Soft d) (p t : Nat) : a.Soft (d.tcamCoord p t).2 := h.tcamFind _ _ _

theorem members {a d : Dev} (h : a.Soft d) (s : Nat) : a.Soft (d.members s).2 := by
  unfold Dev.members; dsimp only
  exact (h.look _ _).look _ _

theorem checkSpray {a d : Dev} (h : a.Soft d) (s : Nat) (ms : List (Nat × List Nat)) : a.Soft (d.checkSpray s ms) := by
  unfold Dev.checkSpray
  refine h.each _ fun b d x hb => ?_
  repeat' split
  all_goals first | exact hb | exact hb.noticeLim _ _ _ _ _

theorem select {a d : Dev} (h : a.Soft d) (p : Pkt) (s : Nat) (o : Bool) : a.Soft (d.select p s o).2 := by
  have h1 : a.Soft ((d.members s).2.checkSpray s (d.members s).1) := (h.members _).checkSpray _ _
  unfold Dev.select; dsimp only
  split
  · exact h1
  · split
    · split
      · exact h1
      · have h2 : ∀ (c : Prop) [Decidable c] (v : NMap Nat), a.Soft (if c then
            { ((d.members s).2.checkSpray s (d.members s).1) with
              net := { ((d.members s).2.checkSpray s (d.members s).1).net with sprayPtr := v } }
            else (d.members s).2.checkSpray s (d.members s).1) := by
          intro c _ v
          split
          · exact h1.of_regs rfl rfl rfl
          · exact h1
        split
        · exact h2 _ _
        · exact h2 _ _
    · repeat' split
      all_goals exact h1

theorem setOrigins {a d : Dev} (h : a.Soft d) (l : List Origin) : a.Soft (d.setOrigins l) := h.of_regs rfl rfl rfl

theorem assignPsn {a d : Dev} (h : a.Soft d) (p : Pkt) : ∀ x, d.assignPsn p = some x → a.Soft x.2 := by
  intro x hx
  unfold Dev.assignPsn at hx; dsimp only at hx
  split at hx
  · cases hx; exact h.setOrigins _
  · split at hx
    · cases hx
    · split at hx
      · cases hx; exact h.freeNat.setOrigins _
      · cases hx; exact h.freeNat.setOrigins _

theorem markPkt {a d : Dev} (h : a.Soft d) (p : Pkt) (l : Nat) : a.Soft (d.markPkt p l) := by
  unfold Dev.markPkt; exact (h.countMark _ _ _).modPkt _ _

theorem enqueue {a d : Dev} (h : a.Soft d) (id l : Nat) : a.Soft (d.enqueue id l) := by
  unfold Dev.enqueue
  split
  · exact h
  · dsimp only
    split
    · exact (h.markPkt _ _).refuseGen _ _
    · split
      · exact (h.markPkt _ _).rsqPlace _ _ _
      · exact (h.markPkt _ _).moveTo _ _

theorem noteRoute {a d : Dev} (h : a.Soft d) (p : Pkt) (c x : Nat) : a.Soft (d.noteRoute p c x) := by
  unfold Dev.noteRoute; split
  all_goals first | exact h | exact h.noticeLim _ _ _ _ _

theorem refuseRoute {a d : Dev} (h : a.Soft d) (p : Pkt) (c s : Nat) : a.Soft (d.refuseRoute p c s) := by
  unfold Dev.refuseRoute; split
  · exact (h.send _).endPkt _
  · exact (h.noteRoute _ _ _).refuse _ _ ((h.noteRoute _ _ _).discardAs _ _)

theorem unsupported {a d : Dev} (h : a.Soft d) (p : Pkt) : a.Soft (d.unsupported p) := h.refuse _ _ (h.discardOther _)

theorem toBolt {a d : Dev} (h : a.Soft d) (p : Pkt) : a.Soft (d.toBolt p) := by
  unfold Dev.toBolt; split
  · split
    · exact h.refuseGen _ _
    · exact h.rsqPlace _ _ _
  · exact h.unsupported _

theorem toLoom {a d : Dev} (h : a.Soft d) (p : Pkt) (fn : Nat) : a.Soft (d.toLoom p fn) := by
  unfold Dev.toLoom; split
  · split
    · exact h.refuseGen _ _
    · exact h.moveTo _ _
  · exact h.unsupported _

theorem toPrompter {a d : Dev} (h : a.Soft d) (p : Pkt) : a.Soft (d.toPrompter p) := by
  unfold Dev.toPrompter; split
  · split
    · exact (h.discardOther _).endPkt _
    · exact h.moveTo _ _
  · split
    · exact h.moveTo _ _
    · exact h.unsupported _

theorem toLocal {a d : Dev} (h : a.Soft d) (p : Pkt) : a.Soft (d.toLocal p) := by
  unfold Dev.toLocal
  generalize bitsOf p.dst 7 0 = fn
  dsimp only
  repeat' split
  · exact h.moveTo _ _
  · exact h.toBolt _
  · exact h.toLoom _ _
  · exact h.toPrompter _
  · exact h.unsupported _
  · exact h.refuseReq _ _ (h.discardAs _ _)

theorem routeEntry {a d : Dev} (h : a.Soft d) (t n : Nat) (v s : Fld) : a.Soft (d.routeEntry t n v s).2 := by
  unfold Dev.routeEntry
  repeat' split
  · exact h
  · exact h.noteParity _ _
  · exact h

theorem arithmetic {a d : Dev} (h : a.Soft d) (t : Nat) : a.Soft (d.arithmetic t).2 := by
  unfold Dev.arithmetic; split
  · exact h
  · split
    · exact h.routeEntry _ _ _ _
    · exact h.routeEntry _ _ _ _

theorem routeSet {a d : Dev} (h : a.Soft d) (p : Pkt) : a.Soft (d.routeSet p).2 := by
  have h1 : a.Soft (d.tcamCoord p.prod p.dst.toNat).2 := h.tcamCoord _ _
  unfold Dev.routeSet
  split
  · rename_i e; rw [e] at h1; split <;> exact h1
  · rename_i d1 e; rw [e] at h1
    have h2 : a.Soft (d1.arithmetic p.dst.toNat).2 := Dev.Soft.arithmetic h1 _
    split
    · rename_i e2; rw [e2] at h2; exact h2
    · rename_i e2; rw [e2] at h2; exact h2

theorem numberPkt {a d : Dev} (h : a.Soft d) (p : Pkt) (n : Nat) : ∀ x, d.numberPkt p n = some x → a.Soft x.2 := by
  intro x hx
  unfold Dev.numberPkt at hx
  split at hx
  · obtain ⟨y, hy, rfl⟩ := Option.map_eq_some_iff.1 hx
    exact h.assignPsn _ _ hy
  · cases hx; exact h

theorem chargeOut {a d : Dev} (h : a.Soft d) (p : Pkt) : ∀ x, d.chargeOut p = some x → a.Soft x.2 := by
  intro x hx
  unfold Dev.chargeOut at hx
  split at hx
  · exact h.chargeSource _ _ _ hx
  · obtain ⟨y, hy, rfl⟩ := Option.map_eq_some_iff.1 hx
    exact h.chargeColl _ _ hy

theorem stallPkt {a d : Dev} (h : a.Soft d) (p : Pkt) : a.Soft (d.stallPkt p) := by
  unfold Dev.stallPkt; split
  · exact h
  · exact ((h.modPkt _ _).countWrd _).noticeLim _ _ _ _ _

theorem takeLane {a d : Dev} (h : a.Soft d) (p : Pkt) (l n : Nat) (o : Bool) : a.Soft (d.takeLane p l n o) := by
  unfold Dev.takeLane
  split
  · exact h.stallPkt _
  · rename_i hn
    dsimp only
    split
    · exact h
    · rename_i hc
      exact (((h.numberPkt _ _ _ hn).chargeOut _ _ hc).modPkt _ _).enqueue _ _

theorem proceed {a d : Dev} (h : a.Soft d) (p : Pkt) (r : Route) : a.Soft (d.proceed p r) := by
  unfold Dev.proceed
  split
  · exact h
  · split
    · exact h.toLocal _
    · rename_i s o
      have h2 := h.select p s o
      split
      · rename_i e; rw [e] at h2; exact h2.takeLane _ _ _ _
      · rename_i e; rw [e] at h2; exact h2
      · rename_i e; rw [e] at h2; exact h2.refuseRoute _ _ _

theorem routed {a d : Dev} (h : a.Soft d) (p : Pkt) (r : Route) : a.Soft (d.routed p r) := (h.modPkt _ _).proceed _ _

theorem forward {a d : Dev} (h : a.Soft d) (id : Nat) : a.Soft (d.forward id) := by
  unfold Dev.forward
  split
  · exact h
  · rename_i p _
    split
    · exact h.proceed _ _
    · split
      · exact h.routed _ _
      · split
        · exact ((h.noticeLim _ _ _ _ _).discardAs _ _).endPkt _
        · have h1 := h.routeSet p
          split
          · rename_i e; rw [e] at h1; exact h1.refuseRoute _ _ _
          · rename_i e; rw [e] at h1; exact h1.routed _ _

theorem addPkt {a d : Dev} (h : a.Soft d) (p : Pkt) : a.Soft (d.addPkt p).2 := h.of_regs rfl rfl rfl

theorem setOutbox {a d : Dev} (h : a.Soft d) (l : List Pkt) : a.Soft { d with net := { d.net with outbox := l } } :=
  h.of_regs rfl rfl rfl

theorem sendMade {a d : Dev} (h : a.Soft d) : a.Soft d.sendMade := by
  unfold Dev.sendMade
  exact (h.setOutbox []).each _ fun b d x hb => (hb.addPkt _).forward _

theorem settle {a d : Dev} (h : a.Soft d) : a.Soft d.settle := h.sendMade.sendMade

theorem retryWaiting {a d : Dev} (h : a.Soft d) (c : Pkt → Bool) : a.Soft (d.retryWaiting c) := by
  unfold Dev.retryWaiting
  exact h.each _ fun b d x hb => hb.forward _

end Dev.Soft
end Sys2Proof.Machine
end

