-- ==== Sys2Proof/Laws/State.lean ====
section
/-! SUPPORT. The small laws of State: what each named update leaves of each field, and what the shapes of a command
answer. -/

namespace Sys2Proof.Machine

/-! ## The shapes of a command -/

@[simp] theorem onDev_eq (s : State) (f : Dev → Dev) : onDev s f = .next { s with d := f s.d } := rfl
@[simp] theorem onDevM_eq (s : State) (f : Mem → Dev → Dev) : onDevM s f = .next { s with d := f s.mem s.d } := rfl
@[simp] theorem onBoth_eq (s : State) (f : Dev × Mem → Dev × Mem) :
    onBoth s f = .next { s with d := (f (s.d, s.mem)).1, mem := (f (s.d, s.mem)).2 } := rfl
@[simp] theorem ifUnit_true (r : Res) : ifUnit true r = r := rfl
@[simp] theorem ifUnit_false (r : Res) : ifUnit false r = .fault .noSuchUnit := rfl

/-- A command on the device alone leaves the queue and Bolt memory as they were. -/
theorem onDev_keeps (s t : State) (f : Dev → Dev) (h : onDev s f = .next t) : t.pending = s.pending ∧ t.mem = s.mem ∧ t.d = f s.d := by
  cases h; exact ⟨rfl, rfl, rfl⟩

/-- A command that reads Bolt memory leaves it, and the queue, as they were. -/
theorem onDevM_keeps (s t : State) (f : Mem → Dev → Dev) (h : onDevM s f = .next t) :
    t.pending = s.pending ∧ t.mem = s.mem ∧ t.d = f s.mem s.d := by
  cases h; exact ⟨rfl, rfl, rfl⟩

/-- A command on device and Bolt memory leaves the queue as it was. -/
theorem onBoth_keeps (s t : State) (f : Dev × Mem → Dev × Mem) (h : onBoth s f = .next t) :
    t.pending = s.pending ∧ (t.d, t.mem) = f (s.d, s.mem) := by
  cases h; exact ⟨rfl, rfl⟩

/-- A command about a unit answers a next state only where the unit is one that some part has. -/
theorem ifUnit_next (ok : Bool) (r : Res) (t : State) (h : ifUnit ok r = .next t) : ok = true ∧ r = .next t := by
  cases ok with
  | true => exact ⟨rfl, h⟩
  | false => cases h

@[simp] theorem Dev.when_true (d : Dev) (f : Dev → Dev) : d.when true f = f d := rfl
@[simp] theorem Dev.when_false (d : Dev) (f : Dev → Dev) : d.when false f = d := rfl
@[simp] theorem Dev.whenSome_some {α : Type} (d : Dev) (x : α) (f : α → Dev → Dev) : d.whenSome (some x) f = f x d := rfl
@[simp] theorem Dev.whenSome_none {α : Type} (d : Dev) (f : α → Dev → Dev) : d.whenSome none f = d := rfl
@[simp] theorem Dev.each_nil {α : Type} (d : Dev) (f : Dev → α → Dev) : d.each [] f = d := rfl
@[simp] theorem Dev.each_cons {α : Type} (d : Dev) (x : α) (l : List α) (f : Dev → α → Dev) : d.each (x :: l) f = (f d x).each l f := rfl


/-! ## wr -/

@[simp] theorem Dev.wr_net (d : Dev) (r : RF) (i : Nat) (w : Word) : (d.wr r i w).net = d.net := rfl
@[simp] theorem Dev.wr_tab (d : Dev) (r : RF) (i : Nat) (w : Word) : (d.wr r i w).tab = d.tab := rfl
@[simp] theorem Dev.wr_tmu (d : Dev) (r : RF) (i : Nat) (w : Word) : (d.wr r i w).tmu = d.tmu := rfl
@[simp] theorem Dev.wr_wings (d : Dev) (r : RF) (i : Nat) (w : Word) : (d.wr r i w).wings = d.wings := rfl
@[simp] theorem Dev.wr_looms (d : Dev) (r : RF) (i : Nat) (w : Word) : (d.wr r i w).looms = d.looms := rfl
@[simp] theorem Dev.wr_houseUp (d : Dev) (r : RF) (i : Nat) (w : Word) : (d.wr r i w).houseUp = d.houseUp := rfl
@[simp] theorem Dev.wr_relay (d : Dev) (r : RF) (i : Nat) (w : Word) : (d.wr r i w).relay = d.relay := rfl
@[simp] theorem Dev.wr_ecc (d : Dev) (r : RF) (i : Nat) (w : Word) : (d.wr r i w).ecc = d.ecc := rfl
@[simp] theorem Dev.wr_eccSoft (d : Dev) (r : RF) (i : Nat) (w : Word) : (d.wr r i w).eccSoft = d.eccSoft := rfl
@[simp] theorem Dev.wr_rebuilding (d : Dev) (r : RF) (i : Nat) (w : Word) : (d.wr r i w).rebuilding = d.rebuilding := rfl
@[simp] theorem Dev.wr_cntPend (d : Dev) (r : RF) (i : Nat) (w : Word) : (d.wr r i w).cntPend = d.cntPend := rfl
@[simp] theorem Dev.wr_power (d : Dev) (r : RF) (i : Nat) (w : Word) : (d.wr r i w).power = d.power := rfl
@[simp] theorem Dev.wr_porHigh (d : Dev) (r : RF) (i : Nat) (w : Word) : (d.wr r i w).porHigh = d.porHigh := rfl
@[simp] theorem Dev.wr_pwrOk (d : Dev) (r : RF) (i : Nat) (w : Word) : (d.wr r i w).pwrOk = d.pwrOk := rfl
@[simp] theorem Dev.wr_tripped (d : Dev) (r : RF) (i : Nat) (w : Word) : (d.wr r i w).tripped = d.tripped := rfl
@[simp] theorem Dev.wr_widthDone (d : Dev) (r : RF) (i : Nat) (w : Word) : (d.wr r i w).widthDone = d.widthDone := rfl
@[simp] theorem Dev.wr_seamDead (d : Dev) (r : RF) (i : Nat) (w : Word) : (d.wr r i w).seamDead = d.seamDead := rfl
@[simp] theorem Dev.wr_seams (d : Dev) (r : RF) (i : Nat) (w : Word) : (d.wr r i w).seams = d.seams := rfl
@[simp] theorem Dev.wr_seamOut (d : Dev) (r : RF) (i : Nat) (w : Word) : (d.wr r i w).seamOut = d.seamOut := rfl
@[simp] theorem Dev.wr_seamIn (d : Dev) (r : RF) (i : Nat) (w : Word) : (d.wr r i w).seamIn = d.seamIn := rfl
@[simp] theorem Dev.wr_resetDue (d : Dev) (r : RF) (i : Nat) (w : Word) : (d.wr r i w).resetDue = d.resetDue := rfl
@[simp] theorem Dev.wr_overlay (d : Dev) (r : RF) (i : Nat) (w : Word) : (d.wr r i w).overlay = d.overlay := rfl
@[simp] theorem Dev.wr_laserRan (d : Dev) (r : RF) (i : Nat) (w : Word) : (d.wr r i w).laserRan = d.laserRan := rfl
@[simp] theorem Dev.wr_laserFrom (d : Dev) (r : RF) (i : Nat) (w : Word) : (d.wr r i w).laserFrom = d.laserFrom := rfl
@[simp] theorem Dev.wr_oma (d : Dev) (r : RF) (i : Nat) (w : Word) : (d.wr r i w).oma = d.oma := rfl
@[simp] theorem Dev.wr_rowSpares (d : Dev) (r : RF) (i : Nat) (w : Word) : (d.wr r i w).rowSpares = d.rowSpares := rfl
@[simp] theorem Dev.wr_wrdSpare (d : Dev) (r : RF) (i : Nat) (w : Word) : (d.wr r i w).wrdSpare = d.wrdSpare := rfl
@[simp] theorem Dev.wr_keys (d : Dev) (r : RF) (i : Nat) (w : Word) : (d.wr r i w).keys = d.keys := rfl
@[simp] theorem Dev.wr_strikes (d : Dev) (r : RF) (i : Nat) (w : Word) : (d.wr r i w).strikes = d.strikes := rfl
@[simp] theorem Dev.wr_launches (d : Dev) (r : RF) (i : Nat) (w : Word) : (d.wr r i w).launches = d.launches := rfl
@[simp] theorem Dev.wr_gather (d : Dev) (r : RF) (i : Nat) (w : Word) : (d.wr r i w).gather = d.gather := rfl
@[simp] theorem Dev.wr_rhs (d : Dev) (r : RF) (i : Nat) (w : Word) : (d.wr r i w).rhs = d.rhs := rfl
@[simp] theorem Dev.wr_fades (d : Dev) (r : RF) (i : Nat) (w : Word) : (d.wr r i w).fades = d.fades := rfl
@[simp] theorem Dev.wr_sec (d : Dev) (r : RF) (i : Nat) (w : Word) : (d.wr r i w).sec = d.sec := rfl
@[simp] theorem Dev.wr_pwr (d : Dev) (r : RF) (i : Nat) (w : Word) : (d.wr r i w).pwr = d.pwr := rfl
@[simp] theorem Dev.wr_kcache (d : Dev) (r : RF) (i : Nat) (w : Word) : (d.wr r i w).kcache = d.kcache := rfl
@[simp] theorem Dev.wr_snapPeriodic (d : Dev) (r : RF) (i : Nat) (w : Word) : (d.wr r i w).snapPeriodic = d.snapPeriodic := rfl
@[simp] theorem Dev.wr_cutDue (d : Dev) (r : RF) (i : Nat) (w : Word) : (d.wr r i w).cutDue = d.cutDue := rfl
@[simp] theorem Dev.wr_cutT (d : Dev) (r : RF) (i : Nat) (w : Word) : (d.wr r i w).cutT = d.cutT := rfl
@[simp] theorem Dev.wr_snapSeq (d : Dev) (r : RF) (i : Nat) (w : Word) : (d.wr r i w).snapSeq = d.snapSeq := rfl
@[simp] theorem Dev.wr_cutFrc (d : Dev) (r : RF) (i : Nat) (w : Word) : (d.wr r i w).cutFrc = d.cutFrc := rfl
@[simp] theorem Dev.wr_prompter (d : Dev) (r : RF) (i : Nat) (w : Word) : (d.wr r i w).prompter = d.prompter := rfl
@[simp] theorem Dev.wr_prompterHalt (d : Dev) (r : RF) (i : Nat) (w : Word) : (d.wr r i w).prompterHalt = d.prompterHalt := rfl
@[simp] theorem Dev.wr_spdm (d : Dev) (r : RF) (i : Nat) (w : Word) : (d.wr r i w).spdm = d.spdm := rfl
@[simp] theorem Dev.wr_debugWords (d : Dev) (r : RF) (i : Nat) (w : Word) : (d.wr r i w).debugWords = d.debugWords := rfl
@[simp] theorem Dev.wr_limits (d : Dev) (r : RF) (i : Nat) (w : Word) : (d.wr r i w).limits = d.limits := rfl
@[simp] theorem Dev.wr_out (d : Dev) (r : RF) (i : Nat) (w : Word) : (d.wr r i w).out = d.out := rfl
@[simp] theorem Dev.wr_fresh (d : Dev) (r : RF) (i : Nat) (w : Word) : (d.wr r i w).fresh = d.fresh := rfl
@[simp] theorem Dev.wr_fuse (d : Dev) (r : RF) (i : Nat) (w : Word) : (d.wr r i w).fuse = d.fuse := rfl

/-! ## setFld -/

@[simp] theorem Dev.setFld_net (d : Dev) (f : Fld) (i v : Nat) : (d.setFld f i v).net = d.net := rfl
@[simp] theorem Dev.setFld_tab (d : Dev) (f : Fld) (i v : Nat) : (d.setFld f i v).tab = d.tab := rfl
@[simp] theorem Dev.setFld_tmu (d : Dev) (f : Fld) (i v : Nat) : (d.setFld f i v).tmu = d.tmu := rfl
@[simp] theorem Dev.setFld_wings (d : Dev) (f : Fld) (i v : Nat) : (d.setFld f i v).wings = d.wings := rfl
@[simp] theorem Dev.setFld_looms (d : Dev) (f : Fld) (i v : Nat) : (d.setFld f i v).looms = d.looms := rfl
@[simp] theorem Dev.setFld_houseUp (d : Dev) (f : Fld) (i v : Nat) : (d.setFld f i v).houseUp = d.houseUp := rfl
@[simp] theorem Dev.setFld_relay (d : Dev) (f : Fld) (i v : Nat) : (d.setFld f i v).relay = d.relay := rfl
@[simp] theorem Dev.setFld_ecc (d : Dev) (f : Fld) (i v : Nat) : (d.setFld f i v).ecc = d.ecc := rfl
@[simp] theorem Dev.setFld_eccSoft (d : Dev) (f : Fld) (i v : Nat) : (d.setFld f i v).eccSoft = d.eccSoft := rfl
@[simp] theorem Dev.setFld_rebuilding (d : Dev) (f : Fld) (i v : Nat) : (d.setFld f i v).rebuilding = d.rebuilding := rfl
@[simp] theorem Dev.setFld_cntPend (d : Dev) (f : Fld) (i v : Nat) : (d.setFld f i v).cntPend = d.cntPend := rfl
@[simp] theorem Dev.setFld_power (d : Dev) (f : Fld) (i v : Nat) : (d.setFld f i v).power = d.power := rfl
@[simp] theorem Dev.setFld_porHigh (d : Dev) (f : Fld) (i v : Nat) : (d.setFld f i v).porHigh = d.porHigh := rfl
@[simp] theorem Dev.setFld_pwrOk (d : Dev) (f : Fld) (i v : Nat) : (d.setFld f i v).pwrOk = d.pwrOk := rfl
@[simp] theorem Dev.setFld_tripped (d : Dev) (f : Fld) (i v : Nat) : (d.setFld f i v).tripped = d.tripped := rfl
@[simp] theorem Dev.setFld_widthDone (d : Dev) (f : Fld) (i v : Nat) : (d.setFld f i v).widthDone = d.widthDone := rfl
@[simp] theorem Dev.setFld_seamDead (d : Dev) (f : Fld) (i v : Nat) : (d.setFld f i v).seamDead = d.seamDead := rfl
@[simp] theorem Dev.setFld_seams (d : Dev) (f : Fld) (i v : Nat) : (d.setFld f i v).seams = d.seams := rfl
@[simp] theorem Dev.setFld_seamOut (d : Dev) (f : Fld) (i v : Nat) : (d.setFld f i v).seamOut = d.seamOut := rfl
@[simp] theorem Dev.setFld_seamIn (d : Dev) (f : Fld) (i v : Nat) : (d.setFld f i v).seamIn = d.seamIn := rfl
@[simp] theorem Dev.setFld_resetDue (d : Dev) (f : Fld) (i v : Nat) : (d.setFld f i v).resetDue = d.resetDue := rfl
@[simp] theorem Dev.setFld_overlay (d : Dev) (f : Fld) (i v : Nat) : (d.setFld f i v).overlay = d.overlay := rfl
@[simp] theorem Dev.setFld_laserRan (d : Dev) (f : Fld) (i v : Nat) : (d.setFld f i v).laserRan = d.laserRan := rfl
@[simp] theorem Dev.setFld_laserFrom (d : Dev) (f : Fld) (i v : Nat) : (d.setFld f i v).laserFrom = d.laserFrom := rfl
@[simp] theorem Dev.setFld_oma (d : Dev) (f : Fld) (i v : Nat) : (d.setFld f i v).oma = d.oma := rfl
@[simp] theorem Dev.setFld_rowSpares (d : Dev) (f : Fld) (i v : Nat) : (d.setFld f i v).rowSpares = d.rowSpares := rfl
@[simp] theorem Dev.setFld_wrdSpare (d : Dev) (f : Fld) (i v : Nat) : (d.setFld f i v).wrdSpare = d.wrdSpare := rfl
@[simp] theorem Dev.setFld_keys (d : Dev) (f : Fld) (i v : Nat) : (d.setFld f i v).keys = d.keys := rfl
@[simp] theorem Dev.setFld_strikes (d : Dev) (f : Fld) (i v : Nat) : (d.setFld f i v).strikes = d.strikes := rfl
@[simp] theorem Dev.setFld_launches (d : Dev) (f : Fld) (i v : Nat) : (d.setFld f i v).launches = d.launches := rfl
@[simp] theorem Dev.setFld_gather (d : Dev) (f : Fld) (i v : Nat) : (d.setFld f i v).gather = d.gather := rfl
@[simp] theorem Dev.setFld_rhs (d : Dev) (f : Fld) (i v : Nat) : (d.setFld f i v).rhs = d.rhs := rfl
@[simp] theorem Dev.setFld_fades (d : Dev) (f : Fld) (i v : Nat) : (d.setFld f i v).fades = d.fades := rfl
@[simp] theorem Dev.setFld_sec (d : Dev) (f : Fld) (i v : Nat) : (d.setFld f i v).sec = d.sec := rfl
@[simp] theorem Dev.setFld_pwr (d : Dev) (f : Fld) (i v : Nat) : (d.setFld f i v).pwr = d.pwr := rfl
@[simp] theorem Dev.setFld_kcache (d : Dev) (f : Fld) (i v : Nat) : (d.setFld f i v).kcache = d.kcache := rfl
@[simp] theorem Dev.setFld_snapPeriodic (d : Dev) (f : Fld) (i v : Nat) : (d.setFld f i v).snapPeriodic = d.snapPeriodic := rfl
@[simp] theorem Dev.setFld_cutDue (d : Dev) (f : Fld) (i v : Nat) : (d.setFld f i v).cutDue = d.cutDue := rfl
@[simp] theorem Dev.setFld_cutT (d : Dev) (f : Fld) (i v : Nat) : (d.setFld f i v).cutT = d.cutT := rfl
@[simp] theorem Dev.setFld_snapSeq (d : Dev) (f : Fld) (i v : Nat) : (d.setFld f i v).snapSeq = d.snapSeq := rfl
@[simp] theorem Dev.setFld_cutFrc (d : Dev) (f : Fld) (i v : Nat) : (d.setFld f i v).cutFrc = d.cutFrc := rfl
@[simp] theorem Dev.setFld_prompter (d : Dev) (f : Fld) (i v : Nat) : (d.setFld f i v).prompter = d.prompter := rfl
@[simp] theorem Dev.setFld_prompterHalt (d : Dev) (f : Fld) (i v : Nat) : (d.setFld f i v).prompterHalt = d.prompterHalt := rfl
@[simp] theorem Dev.setFld_spdm (d : Dev) (f : Fld) (i v : Nat) : (d.setFld f i v).spdm = d.spdm := rfl
@[simp] theorem Dev.setFld_debugWords (d : Dev) (f : Fld) (i v : Nat) : (d.setFld f i v).debugWords = d.debugWords := rfl
@[simp] theorem Dev.setFld_limits (d : Dev) (f : Fld) (i v : Nat) : (d.setFld f i v).limits = d.limits := rfl
@[simp] theorem Dev.setFld_out (d : Dev) (f : Fld) (i v : Nat) : (d.setFld f i v).out = d.out := rfl
@[simp] theorem Dev.setFld_fresh (d : Dev) (f : Fld) (i v : Nat) : (d.setFld f i v).fresh = d.fresh := rfl
@[simp] theorem Dev.setFld_fuse (d : Dev) (f : Fld) (i v : Nat) : (d.setFld f i v).fuse = d.fuse := rfl

/-! ## setLane -/

@[simp] theorem Dev.setLane_regs (d : Dev) (l : Nat) (x : Lane) : (d.setLane l x).regs = d.regs := rfl
@[simp] theorem Dev.setLane_tab (d : Dev) (l : Nat) (x : Lane) : (d.setLane l x).tab = d.tab := rfl
@[simp] theorem Dev.setLane_tmu (d : Dev) (l : Nat) (x : Lane) : (d.setLane l x).tmu = d.tmu := rfl
@[simp] theorem Dev.setLane_wings (d : Dev) (l : Nat) (x : Lane) : (d.setLane l x).wings = d.wings := rfl
@[simp] theorem Dev.setLane_looms (d : Dev) (l : Nat) (x : Lane) : (d.setLane l x).looms = d.looms := rfl
@[simp] theorem Dev.setLane_houseUp (d : Dev) (l : Nat) (x : Lane) : (d.setLane l x).houseUp = d.houseUp := rfl
@[simp] theorem Dev.setLane_relay (d : Dev) (l : Nat) (x : Lane) : (d.setLane l x).relay = d.relay := rfl
@[simp] theorem Dev.setLane_ecc (d : Dev) (l : Nat) (x : Lane) : (d.setLane l x).ecc = d.ecc := rfl
@[simp] theorem Dev.setLane_eccSoft (d : Dev) (l : Nat) (x : Lane) : (d.setLane l x).eccSoft = d.eccSoft := rfl
@[simp] theorem Dev.setLane_rebuilding (d : Dev) (l : Nat) (x : Lane) : (d.setLane l x).rebuilding = d.rebuilding := rfl
@[simp] theorem Dev.setLane_cntPend (d : Dev) (l : Nat) (x : Lane) : (d.setLane l x).cntPend = d.cntPend := rfl
@[simp] theorem Dev.setLane_power (d : Dev) (l : Nat) (x : Lane) : (d.setLane l x).power = d.power := rfl
@[simp] theorem Dev.setLane_porHigh (d : Dev) (l : Nat) (x : Lane) : (d.setLane l x).porHigh = d.porHigh := rfl
@[simp] theorem Dev.setLane_pwrOk (d : Dev) (l : Nat) (x : Lane) : (d.setLane l x).pwrOk = d.pwrOk := rfl
@[simp] theorem Dev.setLane_tripped (d : Dev) (l : Nat) (x : Lane) : (d.setLane l x).tripped = d.tripped := rfl
@[simp] theorem Dev.setLane_widthDone (d : Dev) (l : Nat) (x : Lane) : (d.setLane l x).widthDone = d.widthDone := rfl
@[simp] theorem Dev.setLane_seamDead (d : Dev) (l : Nat) (x : Lane) : (d.setLane l x).seamDead = d.seamDead := rfl
@[simp] theorem Dev.setLane_seams (d : Dev) (l : Nat) (x : Lane) : (d.setLane l x).seams = d.seams := rfl
@[simp] theorem Dev.setLane_seamOut (d : Dev) (l : Nat) (x : Lane) : (d.setLane l x).seamOut = d.seamOut := rfl
@[simp] theorem Dev.setLane_seamIn (d : Dev) (l : Nat) (x : Lane) : (d.setLane l x).seamIn = d.seamIn := rfl
@[simp] theorem Dev.setLane_resetDue (d : Dev) (l : Nat) (x : Lane) : (d.setLane l x).resetDue = d.resetDue := rfl
@[simp] theorem Dev.setLane_overlay (d : Dev) (l : Nat) (x : Lane) : (d.setLane l x).overlay = d.overlay := rfl
@[simp] theorem Dev.setLane_laserRan (d : Dev) (l : Nat) (x : Lane) : (d.setLane l x).laserRan = d.laserRan := rfl
@[simp] theorem Dev.setLane_laserFrom (d : Dev) (l : Nat) (x : Lane) : (d.setLane l x).laserFrom = d.laserFrom := rfl
@[simp] theorem Dev.setLane_oma (d : Dev) (l : Nat) (x : Lane) : (d.setLane l x).oma = d.oma := rfl
@[simp] theorem Dev.setLane_rowSpares (d : Dev) (l : Nat) (x : Lane) : (d.setLane l x).rowSpares = d.rowSpares := rfl
@[simp] theorem Dev.setLane_wrdSpare (d : Dev) (l : Nat) (x : Lane) : (d.setLane l x).wrdSpare = d.wrdSpare := rfl
@[simp] theorem Dev.setLane_keys (d : Dev) (l : Nat) (x : Lane) : (d.setLane l x).keys = d.keys := rfl
@[simp] theorem Dev.setLane_strikes (d : Dev) (l : Nat) (x : Lane) : (d.setLane l x).strikes = d.strikes := rfl
@[simp] theorem Dev.setLane_launches (d : Dev) (l : Nat) (x : Lane) : (d.setLane l x).launches = d.launches := rfl
@[simp] theorem Dev.setLane_gather (d : Dev) (l : Nat) (x : Lane) : (d.setLane l x).gather = d.gather := rfl
@[simp] theorem Dev.setLane_rhs (d : Dev) (l : Nat) (x : Lane) : (d.setLane l x).rhs = d.rhs := rfl
@[simp] theorem Dev.setLane_fades (d : Dev) (l : Nat) (x : Lane) : (d.setLane l x).fades = d.fades := rfl
@[simp] theorem Dev.setLane_sec (d : Dev) (l : Nat) (x : Lane) : (d.setLane l x).sec = d.sec := rfl
@[simp] theorem Dev.setLane_pwr (d : Dev) (l : Nat) (x : Lane) : (d.setLane l x).pwr = d.pwr := rfl
@[simp] theorem Dev.setLane_kcache (d : Dev) (l : Nat) (x : Lane) : (d.setLane l x).kcache = d.kcache := rfl
@[simp] theorem Dev.setLane_snapPeriodic (d : Dev) (l : Nat) (x : Lane) : (d.setLane l x).snapPeriodic = d.snapPeriodic := rfl
@[simp] theorem Dev.setLane_cutDue (d : Dev) (l : Nat) (x : Lane) : (d.setLane l x).cutDue = d.cutDue := rfl
@[simp] theorem Dev.setLane_cutT (d : Dev) (l : Nat) (x : Lane) : (d.setLane l x).cutT = d.cutT := rfl
@[simp] theorem Dev.setLane_snapSeq (d : Dev) (l : Nat) (x : Lane) : (d.setLane l x).snapSeq = d.snapSeq := rfl
@[simp] theorem Dev.setLane_cutFrc (d : Dev) (l : Nat) (x : Lane) : (d.setLane l x).cutFrc = d.cutFrc := rfl
@[simp] theorem Dev.setLane_prompter (d : Dev) (l : Nat) (x : Lane) : (d.setLane l x).prompter = d.prompter := rfl
@[simp] theorem Dev.setLane_prompterHalt (d : Dev) (l : Nat) (x : Lane) : (d.setLane l x).prompterHalt = d.prompterHalt := rfl
@[simp] theorem Dev.setLane_spdm (d : Dev) (l : Nat) (x : Lane) : (d.setLane l x).spdm = d.spdm := rfl
@[simp] theorem Dev.setLane_debugWords (d : Dev) (l : Nat) (x : Lane) : (d.setLane l x).debugWords = d.debugWords := rfl
@[simp] theorem Dev.setLane_limits (d : Dev) (l : Nat) (x : Lane) : (d.setLane l x).limits = d.limits := rfl
@[simp] theorem Dev.setLane_out (d : Dev) (l : Nat) (x : Lane) : (d.setLane l x).out = d.out := rfl
@[simp] theorem Dev.setLane_fresh (d : Dev) (l : Nat) (x : Lane) : (d.setLane l x).fresh = d.fresh := rfl
@[simp] theorem Dev.setLane_fuse (d : Dev) (l : Nat) (x : Lane) : (d.setLane l x).fuse = d.fuse := rfl
@[simp] theorem Dev.setLane_net_pkts (d : Dev) (l : Nat) (x : Lane) : (d.setLane l x).net.pkts = d.net.pkts := rfl
@[simp] theorem Dev.setLane_net_outbox (d : Dev) (l : Nat) (x : Lane) : (d.setLane l x).net.outbox = d.net.outbox := rfl
@[simp] theorem Dev.setLane_net_bufs (d : Dev) (l : Nat) (x : Lane) : (d.setLane l x).net.bufs = d.net.bufs := rfl
@[simp] theorem Dev.setLane_net_nextId (d : Dev) (l : Nat) (x : Lane) : (d.setLane l x).net.nextId = d.net.nextId := rfl
@[simp] theorem Dev.setLane_net_nextStamp (d : Dev) (l : Nat) (x : Lane) : (d.setLane l x).net.nextStamp = d.net.nextStamp := rfl
@[simp] theorem Dev.setLane_net_lvs (d : Dev) (l : Nat) (x : Lane) : (d.setLane l x).net.lvs = d.net.lvs := rfl
@[simp] theorem Dev.setLane_net_ports (d : Dev) (l : Nat) (x : Lane) : (d.setLane l x).net.ports = d.net.ports := rfl
@[simp] theorem Dev.setLane_net_ctxs (d : Dev) (l : Nat) (x : Lane) : (d.setLane l x).net.ctxs = d.net.ctxs := rfl
@[simp] theorem Dev.setLane_net_flows (d : Dev) (l : Nat) (x : Lane) : (d.setLane l x).net.flows = d.net.flows := rfl
@[simp] theorem Dev.setLane_net_ledger (d : Dev) (l : Nat) (x : Lane) : (d.setLane l x).net.ledger = d.net.ledger := rfl
@[simp] theorem Dev.setLane_net_origins (d : Dev) (l : Nat) (x : Lane) : (d.setLane l x).net.origins = d.net.origins := rfl
@[simp] theorem Dev.setLane_net_deads (d : Dev) (l : Nat) (x : Lane) : (d.setLane l x).net.deads = d.net.deads := rfl
@[simp] theorem Dev.setLane_net_pol (d : Dev) (l : Nat) (x : Lane) : (d.setLane l x).net.pol = d.net.pol := rfl
@[simp] theorem Dev.setLane_net_sprayPtr (d : Dev) (l : Nat) (x : Lane) : (d.setLane l x).net.sprayPtr = d.net.sprayPtr := rfl
@[simp] theorem Dev.setLane_net_downLost (d : Dev) (l : Nat) (x : Lane) : (d.setLane l x).net.downLost = d.net.downLost := rfl
@[simp] theorem Dev.setLane_net_endsDown (d : Dev) (l : Nat) (x : Lane) : (d.setLane l x).net.endsDown = d.net.endsDown := rfl
@[simp] theorem Dev.setLane_net_lostCells (d : Dev) (l : Nat) (x : Lane) : (d.setLane l x).net.lostCells = d.net.lostCells := rfl
@[simp] theorem Dev.setLane_net_draining (d : Dev) (l : Nat) (x : Lane) : (d.setLane l x).net.draining = d.net.draining := rfl

/-! ## modLane -/

@[simp] theorem Dev.modLane_regs (d : Dev) (l : Nat) (f : Lane → Lane) : (d.modLane l f).regs = d.regs := rfl
@[simp] theorem Dev.modLane_tab (d : Dev) (l : Nat) (f : Lane → Lane) : (d.modLane l f).tab = d.tab := rfl
@[simp] theorem Dev.modLane_tmu (d : Dev) (l : Nat) (f : Lane → Lane) : (d.modLane l f).tmu = d.tmu := rfl
@[simp] theorem Dev.modLane_wings (d : Dev) (l : Nat) (f : Lane → Lane) : (d.modLane l f).wings = d.wings := rfl
@[simp] theorem Dev.modLane_looms (d : Dev) (l : Nat) (f : Lane → Lane) : (d.modLane l f).looms = d.looms := rfl
@[simp] theorem Dev.modLane_houseUp (d : Dev) (l : Nat) (f : Lane → Lane) : (d.modLane l f).houseUp = d.houseUp := rfl
@[simp] theorem Dev.modLane_relay (d : Dev) (l : Nat) (f : Lane → Lane) : (d.modLane l f).relay = d.relay := rfl
@[simp] theorem Dev.modLane_ecc (d : Dev) (l : Nat) (f : Lane → Lane) : (d.modLane l f).ecc = d.ecc := rfl
@[simp] theorem Dev.modLane_eccSoft (d : Dev) (l : Nat) (f : Lane → Lane) : (d.modLane l f).eccSoft = d.eccSoft := rfl
@[simp] theorem Dev.modLane_rebuilding (d : Dev) (l : Nat) (f : Lane → Lane) : (d.modLane l f).rebuilding = d.rebuilding := rfl
@[simp] theorem Dev.modLane_cntPend (d : Dev) (l : Nat) (f : Lane → Lane) : (d.modLane l f).cntPend = d.cntPend := rfl
@[simp] theorem Dev.modLane_power (d : Dev) (l : Nat) (f : Lane → Lane) : (d.modLane l f).power = d.power := rfl
@[simp] theorem Dev.modLane_porHigh (d : Dev) (l : Nat) (f : Lane → Lane) : (d.modLane l f).porHigh = d.porHigh := rfl
@[simp] theorem Dev.modLane_pwrOk (d : Dev) (l : Nat) (f : Lane → Lane) : (d.modLane l f).pwrOk = d.pwrOk := rfl
@[simp] theorem Dev.modLane_tripped (d : Dev) (l : Nat) (f : Lane → Lane) : (d.modLane l f).tripped = d.tripped := rfl
@[simp] theorem Dev.modLane_widthDone (d : Dev) (l : Nat) (f : Lane → Lane) : (d.modLane l f).widthDone = d.widthDone := rfl
@[simp] theorem Dev.modLane_seamDead (d : Dev) (l : Nat) (f : Lane → Lane) : (d.modLane l f).seamDead = d.seamDead := rfl
@[simp] theorem Dev.modLane_seams (d : Dev) (l : Nat) (f : Lane → Lane) : (d.modLane l f).seams = d.seams := rfl
@[simp] theorem Dev.modLane_seamOut (d : Dev) (l : Nat) (f : Lane → Lane) : (d.modLane l f).seamOut = d.seamOut := rfl
@[simp] theorem Dev.modLane_seamIn (d : Dev) (l : Nat) (f : Lane → Lane) : (d.modLane l f).seamIn = d.seamIn := rfl
@[simp] theorem Dev.modLane_resetDue (d : Dev) (l : Nat) (f : Lane → Lane) : (d.modLane l f).resetDue = d.resetDue := rfl
@[simp] theorem Dev.modLane_overlay (d : Dev) (l : Nat) (f : Lane → Lane) : (d.modLane l f).overlay = d.overlay := rfl
@[simp] theorem Dev.modLane_laserRan (d : Dev) (l : Nat) (f : Lane → Lane) : (d.modLane l f).laserRan = d.laserRan := rfl
@[simp] theorem Dev.modLane_laserFrom (d : Dev) (l : Nat) (f : Lane → Lane) : (d.modLane l f).laserFrom = d.laserFrom := rfl
@[simp] theorem Dev.modLane_oma (d : Dev) (l : Nat) (f : Lane → Lane) : (d.modLane l f).oma = d.oma := rfl
@[simp] theorem Dev.modLane_rowSpares (d : Dev) (l : Nat) (f : Lane → Lane) : (d.modLane l f).rowSpares = d.rowSpares := rfl
@[simp] theorem Dev.modLane_wrdSpare (d : Dev) (l : Nat) (f : Lane → Lane) : (d.modLane l f).wrdSpare = d.wrdSpare := rfl
@[simp] theorem Dev.modLane_keys (d : Dev) (l : Nat) (f : Lane → Lane) : (d.modLane l f).keys = d.keys := rfl
@[simp] theorem Dev.modLane_strikes (d : Dev) (l : Nat) (f : Lane → Lane) : (d.modLane l f).strikes = d.strikes := rfl
@[simp] theorem Dev.modLane_launches (d : Dev) (l : Nat) (f : Lane → Lane) : (d.modLane l f).launches = d.launches := rfl
@[simp] theorem Dev.modLane_gather (d : Dev) (l : Nat) (f : Lane → Lane) : (d.modLane l f).gather = d.gather := rfl
@[simp] theorem Dev.modLane_rhs (d : Dev) (l : Nat) (f : Lane → Lane) : (d.modLane l f).rhs = d.rhs := rfl
@[simp] theorem Dev.modLane_fades (d : Dev) (l : Nat) (f : Lane → Lane) : (d.modLane l f).fades = d.fades := rfl
@[simp] theorem Dev.modLane_sec (d : Dev) (l : Nat) (f : Lane → Lane) : (d.modLane l f).sec = d.sec := rfl
@[simp] theorem Dev.modLane_pwr (d : Dev) (l : Nat) (f : Lane → Lane) : (d.modLane l f).pwr = d.pwr := rfl
@[simp] theorem Dev.modLane_kcache (d : Dev) (l : Nat) (f : Lane → Lane) : (d.modLane l f).kcache = d.kcache := rfl
@[simp] theorem Dev.modLane_snapPeriodic (d : Dev) (l : Nat) (f : Lane → Lane) : (d.modLane l f).snapPeriodic = d.snapPeriodic := rfl
@[simp] theorem Dev.modLane_cutDue (d : Dev) (l : Nat) (f : Lane → Lane) : (d.modLane l f).cutDue = d.cutDue := rfl
@[simp] theorem Dev.modLane_cutT (d : Dev) (l : Nat) (f : Lane → Lane) : (d.modLane l f).cutT = d.cutT := rfl
@[simp] theorem Dev.modLane_snapSeq (d : Dev) (l : Nat) (f : Lane → Lane) : (d.modLane l f).snapSeq = d.snapSeq := rfl
@[simp] theorem Dev.modLane_cutFrc (d : Dev) (l : Nat) (f : Lane → Lane) : (d.modLane l f).cutFrc = d.cutFrc := rfl
@[simp] theorem Dev.modLane_prompter (d : Dev) (l : Nat) (f : Lane → Lane) : (d.modLane l f).prompter = d.prompter := rfl
@[simp] theorem Dev.modLane_prompterHalt (d : Dev) (l : Nat) (f : Lane → Lane) : (d.modLane l f).prompterHalt = d.prompterHalt := rfl
@[simp] theorem Dev.modLane_spdm (d : Dev) (l : Nat) (f : Lane → Lane) : (d.modLane l f).spdm = d.spdm := rfl
@[simp] theorem Dev.modLane_debugWords (d : Dev) (l : Nat) (f : Lane → Lane) : (d.modLane l f).debugWords = d.debugWords := rfl
@[simp] theorem Dev.modLane_limits (d : Dev) (l : Nat) (f : Lane → Lane) : (d.modLane l f).limits = d.limits := rfl
@[simp] theorem Dev.modLane_out (d : Dev) (l : Nat) (f : Lane → Lane) : (d.modLane l f).out = d.out := rfl
@[simp] theorem Dev.modLane_fresh (d : Dev) (l : Nat) (f : Lane → Lane) : (d.modLane l f).fresh = d.fresh := rfl
@[simp] theorem Dev.modLane_fuse (d : Dev) (l : Nat) (f : Lane → Lane) : (d.modLane l f).fuse = d.fuse := rfl
@[simp] theorem Dev.modLane_net_pkts (d : Dev) (l : Nat) (f : Lane → Lane) : (d.modLane l f).net.pkts = d.net.pkts := rfl
@[simp] theorem Dev.modLane_net_outbox (d : Dev) (l : Nat) (f : Lane → Lane) : (d.modLane l f).net.outbox = d.net.outbox := rfl
@[simp] theorem Dev.modLane_net_bufs (d : Dev) (l : Nat) (f : Lane → Lane) : (d.modLane l f).net.bufs = d.net.bufs := rfl
@[simp] theorem Dev.modLane_net_nextId (d : Dev) (l : Nat) (f : Lane → Lane) : (d.modLane l f).net.nextId = d.net.nextId := rfl
@[simp] theorem Dev.modLane_net_nextStamp (d : Dev) (l : Nat) (f : Lane → Lane) : (d.modLane l f).net.nextStamp = d.net.nextStamp := rfl
@[simp] theorem Dev.modLane_net_lvs (d : Dev) (l : Nat) (f : Lane → Lane) : (d.modLane l f).net.lvs = d.net.lvs := rfl
@[simp] theorem Dev.modLane_net_ports (d : Dev) (l : Nat) (f : Lane → Lane) : (d.modLane l f).net.ports = d.net.ports := rfl
@[simp] theorem Dev.modLane_net_ctxs (d : Dev) (l : Nat) (f : Lane → Lane) : (d.modLane l f).net.ctxs = d.net.ctxs := rfl
@[simp] theorem Dev.modLane_net_flows (d : Dev) (l : Nat) (f : Lane → Lane) : (d.modLane l f).net.flows = d.net.flows := rfl
@[simp] theorem Dev.modLane_net_ledger (d : Dev) (l : Nat) (f : Lane → Lane) : (d.modLane l f).net.ledger = d.net.ledger := rfl
@[simp] theorem Dev.modLane_net_origins (d : Dev) (l : Nat) (f : Lane → Lane) : (d.modLane l f).net.origins = d.net.origins := rfl
@[simp] theorem Dev.modLane_net_deads (d : Dev) (l : Nat) (f : Lane → Lane) : (d.modLane l f).net.deads = d.net.deads := rfl
@[simp] theorem Dev.modLane_net_pol (d : Dev) (l : Nat) (f : Lane → Lane) : (d.modLane l f).net.pol = d.net.pol := rfl
@[simp] theorem Dev.modLane_net_sprayPtr (d : Dev) (l : Nat) (f : Lane → Lane) : (d.modLane l f).net.sprayPtr = d.net.sprayPtr := rfl
@[simp] theorem Dev.modLane_net_downLost (d : Dev) (l : Nat) (f : Lane → Lane) : (d.modLane l f).net.downLost = d.net.downLost := rfl
@[simp] theorem Dev.modLane_net_endsDown (d : Dev) (l : Nat) (f : Lane → Lane) : (d.modLane l f).net.endsDown = d.net.endsDown := rfl
@[simp] theorem Dev.modLane_net_lostCells (d : Dev) (l : Nat) (f : Lane → Lane) : (d.modLane l f).net.lostCells = d.net.lostCells := rfl
@[simp] theorem Dev.modLane_net_draining (d : Dev) (l : Nat) (f : Lane → Lane) : (d.modLane l f).net.draining = d.net.draining := rfl

/-! ## setLv -/

@[simp] theorem Dev.setLv_regs (d : Dev) (k : Nat) (x : LaneVl) : (d.setLv k x).regs = d.regs := rfl
@[simp] theorem Dev.setLv_tab (d : Dev) (k : Nat) (x : LaneVl) : (d.setLv k x).tab = d.tab := rfl
@[simp] theorem Dev.setLv_tmu (d : Dev) (k : Nat) (x : LaneVl) : (d.setLv k x).tmu = d.tmu := rfl
@[simp] theorem Dev.setLv_wings (d : Dev) (k : Nat) (x : LaneVl) : (d.setLv k x).wings = d.wings := rfl
@[simp] theorem Dev.setLv_looms (d : Dev) (k : Nat) (x : LaneVl) : (d.setLv k x).looms = d.looms := rfl
@[simp] theorem Dev.setLv_houseUp (d : Dev) (k : Nat) (x : LaneVl) : (d.setLv k x).houseUp = d.houseUp := rfl
@[simp] theorem Dev.setLv_relay (d : Dev) (k : Nat) (x : LaneVl) : (d.setLv k x).relay = d.relay := rfl
@[simp] theorem Dev.setLv_ecc (d : Dev) (k : Nat) (x : LaneVl) : (d.setLv k x).ecc = d.ecc := rfl
@[simp] theorem Dev.setLv_eccSoft (d : Dev) (k : Nat) (x : LaneVl) : (d.setLv k x).eccSoft = d.eccSoft := rfl
@[simp] theorem Dev.setLv_rebuilding (d : Dev) (k : Nat) (x : LaneVl) : (d.setLv k x).rebuilding = d.rebuilding := rfl
@[simp] theorem Dev.setLv_cntPend (d : Dev) (k : Nat) (x : LaneVl) : (d.setLv k x).cntPend = d.cntPend := rfl
@[simp] theorem Dev.setLv_power (d : Dev) (k : Nat) (x : LaneVl) : (d.setLv k x).power = d.power := rfl
@[simp] theorem Dev.setLv_porHigh (d : Dev) (k : Nat) (x : LaneVl) : (d.setLv k x).porHigh = d.porHigh := rfl
@[simp] theorem Dev.setLv_pwrOk (d : Dev) (k : Nat) (x : LaneVl) : (d.setLv k x).pwrOk = d.pwrOk := rfl
@[simp] theorem Dev.setLv_tripped (d : Dev) (k : Nat) (x : LaneVl) : (d.setLv k x).tripped = d.tripped := rfl
@[simp] theorem Dev.setLv_widthDone (d : Dev) (k : Nat) (x : LaneVl) : (d.setLv k x).widthDone = d.widthDone := rfl
@[simp] theorem Dev.setLv_seamDead (d : Dev) (k : Nat) (x : LaneVl) : (d.setLv k x).seamDead = d.seamDead := rfl
@[simp] theorem Dev.setLv_seams (d : Dev) (k : Nat) (x : LaneVl) : (d.setLv k x).seams = d.seams := rfl
@[simp] theorem Dev.setLv_seamOut (d : Dev) (k : Nat) (x : LaneVl) : (d.setLv k x).seamOut = d.seamOut := rfl
@[simp] theorem Dev.setLv_seamIn (d : Dev) (k : Nat) (x : LaneVl) : (d.setLv k x).seamIn = d.seamIn := rfl
@[simp] theorem Dev.setLv_resetDue (d : Dev) (k : Nat) (x : LaneVl) : (d.setLv k x).resetDue = d.resetDue := rfl
@[simp] theorem Dev.setLv_overlay (d : Dev) (k : Nat) (x : LaneVl) : (d.setLv k x).overlay = d.overlay := rfl
@[simp] theorem Dev.setLv_laserRan (d : Dev) (k : Nat) (x : LaneVl) : (d.setLv k x).laserRan = d.laserRan := rfl
@[simp] theorem Dev.setLv_laserFrom (d : Dev) (k : Nat) (x : LaneVl) : (d.setLv k x).laserFrom = d.laserFrom := rfl
@[simp] theorem Dev.setLv_oma (d : Dev) (k : Nat) (x : LaneVl) : (d.setLv k x).oma = d.oma := rfl
@[simp] theorem Dev.setLv_rowSpares (d : Dev) (k : Nat) (x : LaneVl) : (d.setLv k x).rowSpares = d.rowSpares := rfl
@[simp] theorem Dev.setLv_wrdSpare (d : Dev) (k : Nat) (x : LaneVl) : (d.setLv k x).wrdSpare = d.wrdSpare := rfl
@[simp] theorem Dev.setLv_keys (d : Dev) (k : Nat) (x : LaneVl) : (d.setLv k x).keys = d.keys := rfl
@[simp] theorem Dev.setLv_strikes (d : Dev) (k : Nat) (x : LaneVl) : (d.setLv k x).strikes = d.strikes := rfl
@[simp] theorem Dev.setLv_launches (d : Dev) (k : Nat) (x : LaneVl) : (d.setLv k x).launches = d.launches := rfl
@[simp] theorem Dev.setLv_gather (d : Dev) (k : Nat) (x : LaneVl) : (d.setLv k x).gather = d.gather := rfl
@[simp] theorem Dev.setLv_rhs (d : Dev) (k : Nat) (x : LaneVl) : (d.setLv k x).rhs = d.rhs := rfl
@[simp] theorem Dev.setLv_fades (d : Dev) (k : Nat) (x : LaneVl) : (d.setLv k x).fades = d.fades := rfl
@[simp] theorem Dev.setLv_sec (d : Dev) (k : Nat) (x : LaneVl) : (d.setLv k x).sec = d.sec := rfl
@[simp] theorem Dev.setLv_pwr (d : Dev) (k : Nat) (x : LaneVl) : (d.setLv k x).pwr = d.pwr := rfl
@[simp] theorem Dev.setLv_kcache (d : Dev) (k : Nat) (x : LaneVl) : (d.setLv k x).kcache = d.kcache := rfl
@[simp] theorem Dev.setLv_snapPeriodic (d : Dev) (k : Nat) (x : LaneVl) : (d.setLv k x).snapPeriodic = d.snapPeriodic := rfl
@[simp] theorem Dev.setLv_cutDue (d : Dev) (k : Nat) (x : LaneVl) : (d.setLv k x).cutDue = d.cutDue := rfl
@[simp] theorem Dev.setLv_cutT (d : Dev) (k : Nat) (x : LaneVl) : (d.setLv k x).cutT = d.cutT := rfl
@[simp] theorem Dev.setLv_snapSeq (d : Dev) (k : Nat) (x : LaneVl) : (d.setLv k x).snapSeq = d.snapSeq := rfl
@[simp] theorem Dev.setLv_cutFrc (d : Dev) (k : Nat) (x : LaneVl) : (d.setLv k x).cutFrc = d.cutFrc := rfl
@[simp] theorem Dev.setLv_prompter (d : Dev) (k : Nat) (x : LaneVl) : (d.setLv k x).prompter = d.prompter := rfl
@[simp] theorem Dev.setLv_prompterHalt (d : Dev) (k : Nat) (x : LaneVl) : (d.setLv k x).prompterHalt = d.prompterHalt := rfl
@[simp] theorem Dev.setLv_spdm (d : Dev) (k : Nat) (x : LaneVl) : (d.setLv k x).spdm = d.spdm := rfl
@[simp] theorem Dev.setLv_debugWords (d : Dev) (k : Nat) (x : LaneVl) : (d.setLv k x).debugWords = d.debugWords := rfl
@[simp] theorem Dev.setLv_limits (d : Dev) (k : Nat) (x : LaneVl) : (d.setLv k x).limits = d.limits := rfl
@[simp] theorem Dev.setLv_out (d : Dev) (k : Nat) (x : LaneVl) : (d.setLv k x).out = d.out := rfl
@[simp] theorem Dev.setLv_fresh (d : Dev) (k : Nat) (x : LaneVl) : (d.setLv k x).fresh = d.fresh := rfl
@[simp] theorem Dev.setLv_fuse (d : Dev) (k : Nat) (x : LaneVl) : (d.setLv k x).fuse = d.fuse := rfl
@[simp] theorem Dev.setLv_net_pkts (d : Dev) (k : Nat) (x : LaneVl) : (d.setLv k x).net.pkts = d.net.pkts := rfl
@[simp] theorem Dev.setLv_net_outbox (d : Dev) (k : Nat) (x : LaneVl) : (d.setLv k x).net.outbox = d.net.outbox := rfl
@[simp] theorem Dev.setLv_net_bufs (d : Dev) (k : Nat) (x : LaneVl) : (d.setLv k x).net.bufs = d.net.bufs := rfl
@[simp] theorem Dev.setLv_net_nextId (d : Dev) (k : Nat) (x : LaneVl) : (d.setLv k x).net.nextId = d.net.nextId := rfl
@[simp] theorem Dev.setLv_net_nextStamp (d : Dev) (k : Nat) (x : LaneVl) : (d.setLv k x).net.nextStamp = d.net.nextStamp := rfl
@[simp] theorem Dev.setLv_net_lanes (d : Dev) (k : Nat) (x : LaneVl) : (d.setLv k x).net.lanes = d.net.lanes := rfl
@[simp] theorem Dev.setLv_net_ports (d : Dev) (k : Nat) (x : LaneVl) : (d.setLv k x).net.ports = d.net.ports := rfl
@[simp] theorem Dev.setLv_net_ctxs (d : Dev) (k : Nat) (x : LaneVl) : (d.setLv k x).net.ctxs = d.net.ctxs := rfl
@[simp] theorem Dev.setLv_net_flows (d : Dev) (k : Nat) (x : LaneVl) : (d.setLv k x).net.flows = d.net.flows := rfl
@[simp] theorem Dev.setLv_net_ledger (d : Dev) (k : Nat) (x : LaneVl) : (d.setLv k x).net.ledger = d.net.ledger := rfl
@[simp] theorem Dev.setLv_net_origins (d : Dev) (k : Nat) (x : LaneVl) : (d.setLv k x).net.origins = d.net.origins := rfl
@[simp] theorem Dev.setLv_net_deads (d : Dev) (k : Nat) (x : LaneVl) : (d.setLv k x).net.deads = d.net.deads := rfl
@[simp] theorem Dev.setLv_net_pol (d : Dev) (k : Nat) (x : LaneVl) : (d.setLv k x).net.pol = d.net.pol := rfl
@[simp] theorem Dev.setLv_net_sprayPtr (d : Dev) (k : Nat) (x : LaneVl) : (d.setLv k x).net.sprayPtr = d.net.sprayPtr := rfl
@[simp] theorem Dev.setLv_net_downLost (d : Dev) (k : Nat) (x : LaneVl) : (d.setLv k x).net.downLost = d.net.downLost := rfl
@[simp] theorem Dev.setLv_net_endsDown (d : Dev) (k : Nat) (x : LaneVl) : (d.setLv k x).net.endsDown = d.net.endsDown := rfl
@[simp] theorem Dev.setLv_net_lostCells (d : Dev) (k : Nat) (x : LaneVl) : (d.setLv k x).net.lostCells = d.net.lostCells := rfl
@[simp] theorem Dev.setLv_net_draining (d : Dev) (k : Nat) (x : LaneVl) : (d.setLv k x).net.draining = d.net.draining := rfl

/-! ## setPort -/

@[simp] theorem Dev.setPort_regs (d : Dev) (p : Nat) (x : Port) : (d.setPort p x).regs = d.regs := rfl
@[simp] theorem Dev.setPort_tab (d : Dev) (p : Nat) (x : Port) : (d.setPort p x).tab = d.tab := rfl
@[simp] theorem Dev.setPort_tmu (d : Dev) (p : Nat) (x : Port) : (d.setPort p x).tmu = d.tmu := rfl
@[simp] theorem Dev.setPort_wings (d : Dev) (p : Nat) (x : Port) : (d.setPort p x).wings = d.wings := rfl
@[simp] theorem Dev.setPort_looms (d : Dev) (p : Nat) (x : Port) : (d.setPort p x).looms = d.looms := rfl
@[simp] theorem Dev.setPort_houseUp (d : Dev) (p : Nat) (x : Port) : (d.setPort p x).houseUp = d.houseUp := rfl
@[simp] theorem Dev.setPort_relay (d : Dev) (p : Nat) (x : Port) : (d.setPort p x).relay = d.relay := rfl
@[simp] theorem Dev.setPort_ecc (d : Dev) (p : Nat) (x : Port) : (d.setPort p x).ecc = d.ecc := rfl
@[simp] theorem Dev.setPort_eccSoft (d : Dev) (p : Nat) (x : Port) : (d.setPort p x).eccSoft = d.eccSoft := rfl
@[simp] theorem Dev.setPort_rebuilding (d : Dev) (p : Nat) (x : Port) : (d.setPort p x).rebuilding = d.rebuilding := rfl
@[simp] theorem Dev.setPort_cntPend (d : Dev) (p : Nat) (x : Port) : (d.setPort p x).cntPend = d.cntPend := rfl
@[simp] theorem Dev.setPort_power (d : Dev) (p : Nat) (x : Port) : (d.setPort p x).power = d.power := rfl
@[simp] theorem Dev.setPort_porHigh (d : Dev) (p : Nat) (x : Port) : (d.setPort p x).porHigh = d.porHigh := rfl
@[simp] theorem Dev.setPort_pwrOk (d : Dev) (p : Nat) (x : Port) : (d.setPort p x).pwrOk = d.pwrOk := rfl
@[simp] theorem Dev.setPort_tripped (d : Dev) (p : Nat) (x : Port) : (d.setPort p x).tripped = d.tripped := rfl
@[simp] theorem Dev.setPort_widthDone (d : Dev) (p : Nat) (x : Port) : (d.setPort p x).widthDone = d.widthDone := rfl
@[simp] theorem Dev.setPort_seamDead (d : Dev) (p : Nat) (x : Port) : (d.setPort p x).seamDead = d.seamDead := rfl
@[simp] theorem Dev.setPort_seams (d : Dev) (p : Nat) (x : Port) : (d.setPort p x).seams = d.seams := rfl
@[simp] theorem Dev.setPort_seamOut (d : Dev) (p : Nat) (x : Port) : (d.setPort p x).seamOut = d.seamOut := rfl
@[simp] theorem Dev.setPort_seamIn (d : Dev) (p : Nat) (x : Port) : (d.setPort p x).seamIn = d.seamIn := rfl
@[simp] theorem Dev.setPort_resetDue (d : Dev) (p : Nat) (x : Port) : (d.setPort p x).resetDue = d.resetDue := rfl
@[simp] theorem Dev.setPort_overlay (d : Dev) (p : Nat) (x : Port) : (d.setPort p x).overlay = d.overlay := rfl
@[simp] theorem Dev.setPort_laserRan (d : Dev) (p : Nat) (x : Port) : (d.setPort p x).laserRan = d.laserRan := rfl
@[simp] theorem Dev.setPort_laserFrom (d : Dev) (p : Nat) (x : Port) : (d.setPort p x).laserFrom = d.laserFrom := rfl
@[simp] theorem Dev.setPort_oma (d : Dev) (p : Nat) (x : Port) : (d.setPort p x).oma = d.oma := rfl
@[simp] theorem Dev.setPort_rowSpares (d : Dev) (p : Nat) (x : Port) : (d.setPort p x).rowSpares = d.rowSpares := rfl
@[simp] theorem Dev.setPort_wrdSpare (d : Dev) (p : Nat) (x : Port) : (d.setPort p x).wrdSpare = d.wrdSpare := rfl
@[simp] theorem Dev.setPort_keys (d : Dev) (p : Nat) (x : Port) : (d.setPort p x).keys = d.keys := rfl
@[simp] theorem Dev.setPort_strikes (d : Dev) (p : Nat) (x : Port) : (d.setPort p x).strikes = d.strikes := rfl
@[simp] theorem Dev.setPort_launches (d : Dev) (p : Nat) (x : Port) : (d.setPort p x).launches = d.launches := rfl
@[simp] theorem Dev.setPort_gather (d : Dev) (p : Nat) (x : Port) : (d.setPort p x).gather = d.gather := rfl
@[simp] theorem Dev.setPort_rhs (d : Dev) (p : Nat) (x : Port) : (d.setPort p x).rhs = d.rhs := rfl
@[simp] theorem Dev.setPort_fades (d : Dev) (p : Nat) (x : Port) : (d.setPort p x).fades = d.fades := rfl
@[simp] theorem Dev.setPort_sec (d : Dev) (p : Nat) (x : Port) : (d.setPort p x).sec = d.sec := rfl
@[simp] theorem Dev.setPort_pwr (d : Dev) (p : Nat) (x : Port) : (d.setPort p x).pwr = d.pwr := rfl
@[simp] theorem Dev.setPort_kcache (d : Dev) (p : Nat) (x : Port) : (d.setPort p x).kcache = d.kcache := rfl
@[simp] theorem Dev.setPort_snapPeriodic (d : Dev) (p : Nat) (x : Port) : (d.setPort p x).snapPeriodic = d.snapPeriodic := rfl
@[simp] theorem Dev.setPort_cutDue (d : Dev) (p : Nat) (x : Port) : (d.setPort p x).cutDue = d.cutDue := rfl
@[simp] theorem Dev.setPort_cutT (d : Dev) (p : Nat) (x : Port) : (d.setPort p x).cutT = d.cutT := rfl
@[simp] theorem Dev.setPort_snapSeq (d : Dev) (p : Nat) (x : Port) : (d.setPort p x).snapSeq = d.snapSeq := rfl
@[simp] theorem Dev.setPort_cutFrc (d : Dev) (p : Nat) (x : Port) : (d.setPort p x).cutFrc = d.cutFrc := rfl
@[simp] theorem Dev.setPort_prompter (d : Dev) (p : Nat) (x : Port) : (d.setPort p x).prompter = d.prompter := rfl
@[simp] theorem Dev.setPort_prompterHalt (d : Dev) (p : Nat) (x : Port) : (d.setPort p x).prompterHalt = d.prompterHalt := rfl
@[simp] theorem Dev.setPort_spdm (d : Dev) (p : Nat) (x : Port) : (d.setPort p x).spdm = d.spdm := rfl
@[simp] theorem Dev.setPort_debugWords (d : Dev) (p : Nat) (x : Port) : (d.setPort p x).debugWords = d.debugWords := rfl
@[simp] theorem Dev.setPort_limits (d : Dev) (p : Nat) (x : Port) : (d.setPort p x).limits = d.limits := rfl
@[simp] theorem Dev.setPort_out (d : Dev) (p : Nat) (x : Port) : (d.setPort p x).out = d.out := rfl
@[simp] theorem Dev.setPort_fresh (d : Dev) (p : Nat) (x : Port) : (d.setPort p x).fresh = d.fresh := rfl
@[simp] theorem Dev.setPort_fuse (d : Dev) (p : Nat) (x : Port) : (d.setPort p x).fuse = d.fuse := rfl
@[simp] theorem Dev.setPort_net_pkts (d : Dev) (p : Nat) (x : Port) : (d.setPort p x).net.pkts = d.net.pkts := rfl
@[simp] theorem Dev.setPort_net_outbox (d : Dev) (p : Nat) (x : Port) : (d.setPort p x).net.outbox = d.net.outbox := rfl
@[simp] theorem Dev.setPort_net_bufs (d : Dev) (p : Nat) (x : Port) : (d.setPort p x).net.bufs = d.net.bufs := rfl
@[simp] theorem Dev.setPort_net_nextId (d : Dev) (p : Nat) (x : Port) : (d.setPort p x).net.nextId = d.net.nextId := rfl
@[simp] theorem Dev.setPort_net_nextStamp (d : Dev) (p : Nat) (x : Port) : (d.setPort p x).net.nextStamp = d.net.nextStamp := rfl
@[simp] theorem Dev.setPort_net_lanes (d : Dev) (p : Nat) (x : Port) : (d.setPort p x).net.lanes = d.net.lanes := rfl
@[simp] theorem Dev.setPort_net_lvs (d : Dev) (p : Nat) (x : Port) : (d.setPort p x).net.lvs = d.net.lvs := rfl
@[simp] theorem Dev.setPort_net_ctxs (d : Dev) (p : Nat) (x : Port) : (d.setPort p x).net.ctxs = d.net.ctxs := rfl
@[simp] theorem Dev.setPort_net_flows (d : Dev) (p : Nat) (x : Port) : (d.setPort p x).net.flows = d.net.flows := rfl
@[simp] theorem Dev.setPort_net_ledger (d : Dev) (p : Nat) (x : Port) : (d.setPort p x).net.ledger = d.net.ledger := rfl
@[simp] theorem Dev.setPort_net_origins (d : Dev) (p : Nat) (x : Port) : (d.setPort p x).net.origins = d.net.origins := rfl
@[simp] theorem Dev.setPort_net_deads (d : Dev) (p : Nat) (x : Port) : (d.setPort p x).net.deads = d.net.deads := rfl
@[simp] theorem Dev.setPort_net_pol (d : Dev) (p : Nat) (x : Port) : (d.setPort p x).net.pol = d.net.pol := rfl
@[simp] theorem Dev.setPort_net_sprayPtr (d : Dev) (p : Nat) (x : Port) : (d.setPort p x).net.sprayPtr = d.net.sprayPtr := rfl
@[simp] theorem Dev.setPort_net_downLost (d : Dev) (p : Nat) (x : Port) : (d.setPort p x).net.downLost = d.net.downLost := rfl
@[simp] theorem Dev.setPort_net_endsDown (d : Dev) (p : Nat) (x : Port) : (d.setPort p x).net.endsDown = d.net.endsDown := rfl
@[simp] theorem Dev.setPort_net_lostCells (d : Dev) (p : Nat) (x : Port) : (d.setPort p x).net.lostCells = d.net.lostCells := rfl
@[simp] theorem Dev.setPort_net_draining (d : Dev) (p : Nat) (x : Port) : (d.setPort p x).net.draining = d.net.draining := rfl

/-! ## modPkt -/

@[simp] theorem Dev.modPkt_regs (d : Dev) (id : Nat) (f : Pkt → Pkt) : (d.modPkt id f).regs = d.regs := rfl
@[simp] theorem Dev.modPkt_tab (d : Dev) (id : Nat) (f : Pkt → Pkt) : (d.modPkt id f).tab = d.tab := rfl
@[simp] theorem Dev.modPkt_tmu (d : Dev) (id : Nat) (f : Pkt → Pkt) : (d.modPkt id f).tmu = d.tmu := rfl
@[simp] theorem Dev.modPkt_wings (d : Dev) (id : Nat) (f : Pkt → Pkt) : (d.modPkt id f).wings = d.wings := rfl
@[simp] theorem Dev.modPkt_looms (d : Dev) (id : Nat) (f : Pkt → Pkt) : (d.modPkt id f).looms = d.looms := rfl
@[simp] theorem Dev.modPkt_houseUp (d : Dev) (id : Nat) (f : Pkt → Pkt) : (d.modPkt id f).houseUp = d.houseUp := rfl
@[simp] theorem Dev.modPkt_relay (d : Dev) (id : Nat) (f : Pkt → Pkt) : (d.modPkt id f).relay = d.relay := rfl
@[simp] theorem Dev.modPkt_ecc (d : Dev) (id : Nat) (f : Pkt → Pkt) : (d.modPkt id f).ecc = d.ecc := rfl
@[simp] theorem Dev.modPkt_eccSoft (d : Dev) (id : Nat) (f : Pkt → Pkt) : (d.modPkt id f).eccSoft = d.eccSoft := rfl
@[simp] theorem Dev.modPkt_rebuilding (d : Dev) (id : Nat) (f : Pkt → Pkt) : (d.modPkt id f).rebuilding = d.rebuilding := rfl
@[simp] theorem Dev.modPkt_cntPend (d : Dev) (id : Nat) (f : Pkt → Pkt) : (d.modPkt id f).cntPend = d.cntPend := rfl
@[simp] theorem Dev.modPkt_power (d : Dev) (id : Nat) (f : Pkt → Pkt) : (d.modPkt id f).power = d.power := rfl
@[simp] theorem Dev.modPkt_porHigh (d : Dev) (id : Nat) (f : Pkt → Pkt) : (d.modPkt id f).porHigh = d.porHigh := rfl
@[simp] theorem Dev.modPkt_pwrOk (d : Dev) (id : Nat) (f : Pkt → Pkt) : (d.modPkt id f).pwrOk = d.pwrOk := rfl
@[simp] theorem Dev.modPkt_tripped (d : Dev) (id : Nat) (f : Pkt → Pkt) : (d.modPkt id f).tripped = d.tripped := rfl
@[simp] theorem Dev.modPkt_widthDone (d : Dev) (id : Nat) (f : Pkt → Pkt) : (d.modPkt id f).widthDone = d.widthDone := rfl
@[simp] theorem Dev.modPkt_seamDead (d : Dev) (id : Nat) (f : Pkt → Pkt) : (d.modPkt id f).seamDead = d.seamDead := rfl
@[simp] theorem Dev.modPkt_seams (d : Dev) (id : Nat) (f : Pkt → Pkt) : (d.modPkt id f).seams = d.seams := rfl
@[simp] theorem Dev.modPkt_seamOut (d : Dev) (id : Nat) (f : Pkt → Pkt) : (d.modPkt id f).seamOut = d.seamOut := rfl
@[simp] theorem Dev.modPkt_seamIn (d : Dev) (id : Nat) (f : Pkt → Pkt) : (d.modPkt id f).seamIn = d.seamIn := rfl
@[simp] theorem Dev.modPkt_resetDue (d : Dev) (id : Nat) (f : Pkt → Pkt) : (d.modPkt id f).resetDue = d.resetDue := rfl
@[simp] theorem Dev.modPkt_overlay (d : Dev) (id : Nat) (f : Pkt → Pkt) : (d.modPkt id f).overlay = d.overlay := rfl
@[simp] theorem Dev.modPkt_laserRan (d : Dev) (id : Nat) (f : Pkt → Pkt) : (d.modPkt id f).laserRan = d.laserRan := rfl
@[simp] theorem Dev.modPkt_laserFrom (d : Dev) (id : Nat) (f : Pkt → Pkt) : (d.modPkt id f).laserFrom = d.laserFrom := rfl
@[simp] theorem Dev.modPkt_oma (d : Dev) (id : Nat) (f : Pkt → Pkt) : (d.modPkt id f).oma = d.oma := rfl
@[simp] theorem Dev.modPkt_rowSpares (d : Dev) (id : Nat) (f : Pkt → Pkt) : (d.modPkt id f).rowSpares = d.rowSpares := rfl
@[simp] theorem Dev.modPkt_wrdSpare (d : Dev) (id : Nat) (f : Pkt → Pkt) : (d.modPkt id f).wrdSpare = d.wrdSpare := rfl
@[simp] theorem Dev.modPkt_keys (d : Dev) (id : Nat) (f : Pkt → Pkt) : (d.modPkt id f).keys = d.keys := rfl
@[simp] theorem Dev.modPkt_strikes (d : Dev) (id : Nat) (f : Pkt → Pkt) : (d.modPkt id f).strikes = d.strikes := rfl
@[simp] theorem Dev.modPkt_launches (d : Dev) (id : Nat) (f : Pkt → Pkt) : (d.modPkt id f).launches = d.launches := rfl
@[simp] theorem Dev.modPkt_gather (d : Dev) (id : Nat) (f : Pkt → Pkt) : (d.modPkt id f).gather = d.gather := rfl
@[simp] theorem Dev.modPkt_rhs (d : Dev) (id : Nat) (f : Pkt → Pkt) : (d.modPkt id f).rhs = d.rhs := rfl
@[simp] theorem Dev.modPkt_fades (d : Dev) (id : Nat) (f : Pkt → Pkt) : (d.modPkt id f).fades = d.fades := rfl
@[simp] theorem Dev.modPkt_sec (d : Dev) (id : Nat) (f : Pkt → Pkt) : (d.modPkt id f).sec = d.sec := rfl
@[simp] theorem Dev.modPkt_pwr (d : Dev) (id : Nat) (f : Pkt → Pkt) : (d.modPkt id f).pwr = d.pwr := rfl
@[simp] theorem Dev.modPkt_kcache (d : Dev) (id : Nat) (f : Pkt → Pkt) : (d.modPkt id f).kcache = d.kcache := rfl
@[simp] theorem Dev.modPkt_snapPeriodic (d : Dev) (id : Nat) (f : Pkt → Pkt) : (d.modPkt id f).snapPeriodic = d.snapPeriodic := rfl
@[simp] theorem Dev.modPkt_cutDue (d : Dev) (id : Nat) (f : Pkt → Pkt) : (d.modPkt id f).cutDue = d.cutDue := rfl
@[simp] theorem Dev.modPkt_cutT (d : Dev) (id : Nat) (f : Pkt → Pkt) : (d.modPkt id f).cutT = d.cutT := rfl
@[simp] theorem Dev.modPkt_snapSeq (d : Dev) (id : Nat) (f : Pkt → Pkt) : (d.modPkt id f).snapSeq = d.snapSeq := rfl
@[simp] theorem Dev.modPkt_cutFrc (d : Dev) (id : Nat) (f : Pkt → Pkt) : (d.modPkt id f).cutFrc = d.cutFrc := rfl
@[simp] theorem Dev.modPkt_prompter (d : Dev) (id : Nat) (f : Pkt → Pkt) : (d.modPkt id f).prompter = d.prompter := rfl
@[simp] theorem Dev.modPkt_prompterHalt (d : Dev) (id : Nat) (f : Pkt → Pkt) : (d.modPkt id f).prompterHalt = d.prompterHalt := rfl
@[simp] theorem Dev.modPkt_spdm (d : Dev) (id : Nat) (f : Pkt → Pkt) : (d.modPkt id f).spdm = d.spdm := rfl
@[simp] theorem Dev.modPkt_debugWords (d : Dev) (id : Nat) (f : Pkt → Pkt) : (d.modPkt id f).debugWords = d.debugWords := rfl
@[simp] theorem Dev.modPkt_limits (d : Dev) (id : Nat) (f : Pkt → Pkt) : (d.modPkt id f).limits = d.limits := rfl
@[simp] theorem Dev.modPkt_out (d : Dev) (id : Nat) (f : Pkt → Pkt) : (d.modPkt id f).out = d.out := rfl
@[simp] theorem Dev.modPkt_fresh (d : Dev) (id : Nat) (f : Pkt → Pkt) : (d.modPkt id f).fresh = d.fresh := rfl
@[simp] theorem Dev.modPkt_fuse (d : Dev) (id : Nat) (f : Pkt → Pkt) : (d.modPkt id f).fuse = d.fuse := rfl
@[simp] theorem Dev.modPkt_net_outbox (d : Dev) (id : Nat) (f : Pkt → Pkt) : (d.modPkt id f).net.outbox = d.net.outbox := rfl
@[simp] theorem Dev.modPkt_net_bufs (d : Dev) (id : Nat) (f : Pkt → Pkt) : (d.modPkt id f).net.bufs = d.net.bufs := rfl
@[simp] theorem Dev.modPkt_net_nextId (d : Dev) (id : Nat) (f : Pkt → Pkt) : (d.modPkt id f).net.nextId = d.net.nextId := rfl
@[simp] theorem Dev.modPkt_net_nextStamp (d : Dev) (id : Nat) (f : Pkt → Pkt) : (d.modPkt id f).net.nextStamp = d.net.nextStamp := rfl
@[simp] theorem Dev.modPkt_net_lanes (d : Dev) (id : Nat) (f : Pkt → Pkt) : (d.modPkt id f).net.lanes = d.net.lanes := rfl
@[simp] theorem Dev.modPkt_net_lvs (d : Dev) (id : Nat) (f : Pkt → Pkt) : (d.modPkt id f).net.lvs = d.net.lvs := rfl
@[simp] theorem Dev.modPkt_net_ports (d : Dev) (id : Nat) (f : Pkt → Pkt) : (d.modPkt id f).net.ports = d.net.ports := rfl
@[simp] theorem Dev.modPkt_net_ctxs (d : Dev) (id : Nat) (f : Pkt → Pkt) : (d.modPkt id f).net.ctxs = d.net.ctxs := rfl
@[simp] theorem Dev.modPkt_net_flows (d : Dev) (id : Nat) (f : Pkt → Pkt) : (d.modPkt id f).net.flows = d.net.flows := rfl
@[simp] theorem Dev.modPkt_net_ledger (d : Dev) (id : Nat) (f : Pkt → Pkt) : (d.modPkt id f).net.ledger = d.net.ledger := rfl
@[simp] theorem Dev.modPkt_net_origins (d : Dev) (id : Nat) (f : Pkt → Pkt) : (d.modPkt id f).net.origins = d.net.origins := rfl
@[simp] theorem Dev.modPkt_net_deads (d : Dev) (id : Nat) (f : Pkt → Pkt) : (d.modPkt id f).net.deads = d.net.deads := rfl
@[simp] theorem Dev.modPkt_net_pol (d : Dev) (id : Nat) (f : Pkt → Pkt) : (d.modPkt id f).net.pol = d.net.pol := rfl
@[simp] theorem Dev.modPkt_net_sprayPtr (d : Dev) (id : Nat) (f : Pkt → Pkt) : (d.modPkt id f).net.sprayPtr = d.net.sprayPtr := rfl
@[simp] theorem Dev.modPkt_net_downLost (d : Dev) (id : Nat) (f : Pkt → Pkt) : (d.modPkt id f).net.downLost = d.net.downLost := rfl
@[simp] theorem Dev.modPkt_net_endsDown (d : Dev) (id : Nat) (f : Pkt → Pkt) : (d.modPkt id f).net.endsDown = d.net.endsDown := rfl
@[simp] theorem Dev.modPkt_net_lostCells (d : Dev) (id : Nat) (f : Pkt → Pkt) : (d.modPkt id f).net.lostCells = d.net.lostCells := rfl
@[simp] theorem Dev.modPkt_net_draining (d : Dev) (id : Nat) (f : Pkt → Pkt) : (d.modPkt id f).net.draining = d.net.draining := rfl

/-! ## dropPkt -/

@[simp] theorem Dev.dropPkt_regs (d : Dev) (id : Nat) : (d.dropPkt id).regs = d.regs := rfl
@[simp] theorem Dev.dropPkt_tab (d : Dev) (id : Nat) : (d.dropPkt id).tab = d.tab := rfl
@[simp] theorem Dev.dropPkt_tmu (d : Dev) (id : Nat) : (d.dropPkt id).tmu = d.tmu := rfl
@[simp] theorem Dev.dropPkt_wings (d : Dev) (id : Nat) : (d.dropPkt id).wings = d.wings := rfl
@[simp] theorem Dev.dropPkt_looms (d : Dev) (id : Nat) : (d.dropPkt id).looms = d.looms := rfl
@[simp] theorem Dev.dropPkt_houseUp (d : Dev) (id : Nat) : (d.dropPkt id).houseUp = d.houseUp := rfl
@[simp] theorem Dev.dropPkt_relay (d : Dev) (id : Nat) : (d.dropPkt id).relay = d.relay := rfl
@[simp] theorem Dev.dropPkt_ecc (d : Dev) (id : Nat) : (d.dropPkt id).ecc = d.ecc := rfl
@[simp] theorem Dev.dropPkt_eccSoft (d : Dev) (id : Nat) : (d.dropPkt id).eccSoft = d.eccSoft := rfl
@[simp] theorem Dev.dropPkt_rebuilding (d : Dev) (id : Nat) : (d.dropPkt id).rebuilding = d.rebuilding := rfl
@[simp] theorem Dev.dropPkt_cntPend (d : Dev) (id : Nat) : (d.dropPkt id).cntPend = d.cntPend := rfl
@[simp] theorem Dev.dropPkt_power (d : Dev) (id : Nat) : (d.dropPkt id).power = d.power := rfl
@[simp] theorem Dev.dropPkt_porHigh (d : Dev) (id : Nat) : (d.dropPkt id).porHigh = d.porHigh := rfl
@[simp] theorem Dev.dropPkt_pwrOk (d : Dev) (id : Nat) : (d.dropPkt id).pwrOk = d.pwrOk := rfl
@[simp] theorem Dev.dropPkt_tripped (d : Dev) (id : Nat) : (d.dropPkt id).tripped = d.tripped := rfl
@[simp] theorem Dev.dropPkt_widthDone (d : Dev) (id : Nat) : (d.dropPkt id).widthDone = d.widthDone := rfl
@[simp] theorem Dev.dropPkt_seamDead (d : Dev) (id : Nat) : (d.dropPkt id).seamDead = d.seamDead := rfl
@[simp] theorem Dev.dropPkt_seams (d : Dev) (id : Nat) : (d.dropPkt id).seams = d.seams := rfl
@[simp] theorem Dev.dropPkt_seamOut (d : Dev) (id : Nat) : (d.dropPkt id).seamOut = d.seamOut := rfl
@[simp] theorem Dev.dropPkt_seamIn (d : Dev) (id : Nat) : (d.dropPkt id).seamIn = d.seamIn := rfl
@[simp] theorem Dev.dropPkt_resetDue (d : Dev) (id : Nat) : (d.dropPkt id).resetDue = d.resetDue := rfl
@[simp] theorem Dev.dropPkt_overlay (d : Dev) (id : Nat) : (d.dropPkt id).overlay = d.overlay := rfl
@[simp] theorem Dev.dropPkt_laserRan (d : Dev) (id : Nat) : (d.dropPkt id).laserRan = d.laserRan := rfl
@[simp] theorem Dev.dropPkt_laserFrom (d : Dev) (id : Nat) : (d.dropPkt id).laserFrom = d.laserFrom := rfl
@[simp] theorem Dev.dropPkt_oma (d : Dev) (id : Nat) : (d.dropPkt id).oma = d.oma := rfl
@[simp] theorem Dev.dropPkt_rowSpares (d : Dev) (id : Nat) : (d.dropPkt id).rowSpares = d.rowSpares := rfl
@[simp] theorem Dev.dropPkt_wrdSpare (d : Dev) (id : Nat) : (d.dropPkt id).wrdSpare = d.wrdSpare := rfl
@[simp] theorem Dev.dropPkt_keys (d : Dev) (id : Nat) : (d.dropPkt id).keys = d.keys := rfl
@[simp] theorem Dev.dropPkt_strikes (d : Dev) (id : Nat) : (d.dropPkt id).strikes = d.strikes := rfl
@[simp] theorem Dev.dropPkt_launches (d : Dev) (id : Nat) : (d.dropPkt id).launches = d.launches := rfl
@[simp] theorem Dev.dropPkt_gather (d : Dev) (id : Nat) : (d.dropPkt id).gather = d.gather := rfl
@[simp] theorem Dev.dropPkt_rhs (d : Dev) (id : Nat) : (d.dropPkt id).rhs = d.rhs := rfl
@[simp] theorem Dev.dropPkt_fades (d : Dev) (id : Nat) : (d.dropPkt id).fades = d.fades := rfl
@[simp] theorem Dev.dropPkt_sec (d : Dev) (id : Nat) : (d.dropPkt id).sec = d.sec := rfl
@[simp] theorem Dev.dropPkt_pwr (d : Dev) (id : Nat) : (d.dropPkt id).pwr = d.pwr := rfl
@[simp] theorem Dev.dropPkt_kcache (d : Dev) (id : Nat) : (d.dropPkt id).kcache = d.kcache := rfl
@[simp] theorem Dev.dropPkt_snapPeriodic (d : Dev) (id : Nat) : (d.dropPkt id).snapPeriodic = d.snapPeriodic := rfl
@[simp] theorem Dev.dropPkt_cutDue (d : Dev) (id : Nat) : (d.dropPkt id).cutDue = d.cutDue := rfl
@[simp] theorem Dev.dropPkt_cutT (d : Dev) (id : Nat) : (d.dropPkt id).cutT = d.cutT := rfl
@[simp] theorem Dev.dropPkt_snapSeq (d : Dev) (id : Nat) : (d.dropPkt id).snapSeq = d.snapSeq := rfl
@[simp] theorem Dev.dropPkt_cutFrc (d : Dev) (id : Nat) : (d.dropPkt id).cutFrc = d.cutFrc := rfl
@[simp] theorem Dev.dropPkt_prompter (d : Dev) (id : Nat) : (d.dropPkt id).prompter = d.prompter := rfl
@[simp] theorem Dev.dropPkt_prompterHalt (d : Dev) (id : Nat) : (d.dropPkt id).prompterHalt = d.prompterHalt := rfl
@[simp] theorem Dev.dropPkt_spdm (d : Dev) (id : Nat) : (d.dropPkt id).spdm = d.spdm := rfl
@[simp] theorem Dev.dropPkt_debugWords (d : Dev) (id : Nat) : (d.dropPkt id).debugWords = d.debugWords := rfl
@[simp] theorem Dev.dropPkt_limits (d : Dev) (id : Nat) : (d.dropPkt id).limits = d.limits := rfl
@[simp] theorem Dev.dropPkt_out (d : Dev) (id : Nat) : (d.dropPkt id).out = d.out := rfl
@[simp] theorem Dev.dropPkt_fresh (d : Dev) (id : Nat) : (d.dropPkt id).fresh = d.fresh := rfl
@[simp] theorem Dev.dropPkt_fuse (d : Dev) (id : Nat) : (d.dropPkt id).fuse = d.fuse := rfl
@[simp] theorem Dev.dropPkt_net_outbox (d : Dev) (id : Nat) : (d.dropPkt id).net.outbox = d.net.outbox := rfl
@[simp] theorem Dev.dropPkt_net_bufs (d : Dev) (id : Nat) : (d.dropPkt id).net.bufs = d.net.bufs := rfl
@[simp] theorem Dev.dropPkt_net_nextId (d : Dev) (id : Nat) : (d.dropPkt id).net.nextId = d.net.nextId := rfl
@[simp] theorem Dev.dropPkt_net_nextStamp (d : Dev) (id : Nat) : (d.dropPkt id).net.nextStamp = d.net.nextStamp := rfl
@[simp] theorem Dev.dropPkt_net_lanes (d : Dev) (id : Nat) : (d.dropPkt id).net.lanes = d.net.lanes := rfl
@[simp] theorem Dev.dropPkt_net_lvs (d : Dev) (id : Nat) : (d.dropPkt id).net.lvs = d.net.lvs := rfl
@[simp] theorem Dev.dropPkt_net_ports (d : Dev) (id : Nat) : (d.dropPkt id).net.ports = d.net.ports := rfl
@[simp] theorem Dev.dropPkt_net_ctxs (d : Dev) (id : Nat) : (d.dropPkt id).net.ctxs = d.net.ctxs := rfl
@[simp] theorem Dev.dropPkt_net_flows (d : Dev) (id : Nat) : (d.dropPkt id).net.flows = d.net.flows := rfl
@[simp] theorem Dev.dropPkt_net_ledger (d : Dev) (id : Nat) : (d.dropPkt id).net.ledger = d.net.ledger := rfl
@[simp] theorem Dev.dropPkt_net_origins (d : Dev) (id : Nat) : (d.dropPkt id).net.origins = d.net.origins := rfl
@[simp] theorem Dev.dropPkt_net_deads (d : Dev) (id : Nat) : (d.dropPkt id).net.deads = d.net.deads := rfl
@[simp] theorem Dev.dropPkt_net_pol (d : Dev) (id : Nat) : (d.dropPkt id).net.pol = d.net.pol := rfl
@[simp] theorem Dev.dropPkt_net_sprayPtr (d : Dev) (id : Nat) : (d.dropPkt id).net.sprayPtr = d.net.sprayPtr := rfl
@[simp] theorem Dev.dropPkt_net_downLost (d : Dev) (id : Nat) : (d.dropPkt id).net.downLost = d.net.downLost := rfl
@[simp] theorem Dev.dropPkt_net_endsDown (d : Dev) (id : Nat) : (d.dropPkt id).net.endsDown = d.net.endsDown := rfl
@[simp] theorem Dev.dropPkt_net_lostCells (d : Dev) (id : Nat) : (d.dropPkt id).net.lostCells = d.net.lostCells := rfl
@[simp] theorem Dev.dropPkt_net_draining (d : Dev) (id : Nat) : (d.dropPkt id).net.draining = d.net.draining := rfl

/-! ## emitOut -/

@[simp] theorem Dev.emitOut_regs (d : Dev) (o : Out) : (d.emitOut o).regs = d.regs := rfl
@[simp] theorem Dev.emitOut_net (d : Dev) (o : Out) : (d.emitOut o).net = d.net := rfl
@[simp] theorem Dev.emitOut_tab (d : Dev) (o : Out) : (d.emitOut o).tab = d.tab := rfl
@[simp] theorem Dev.emitOut_tmu (d : Dev) (o : Out) : (d.emitOut o).tmu = d.tmu := rfl
@[simp] theorem Dev.emitOut_wings (d : Dev) (o : Out) : (d.emitOut o).wings = d.wings := rfl
@[simp] theorem Dev.emitOut_looms (d : Dev) (o : Out) : (d.emitOut o).looms = d.looms := rfl
@[simp] theorem Dev.emitOut_houseUp (d : Dev) (o : Out) : (d.emitOut o).houseUp = d.houseUp := rfl
@[simp] theorem Dev.emitOut_relay (d : Dev) (o : Out) : (d.emitOut o).relay = d.relay := rfl
@[simp] theorem Dev.emitOut_ecc (d : Dev) (o : Out) : (d.emitOut o).ecc = d.ecc := rfl
@[simp] theorem Dev.emitOut_eccSoft (d : Dev) (o : Out) : (d.emitOut o).eccSoft = d.eccSoft := rfl
@[simp] theorem Dev.emitOut_rebuilding (d : Dev) (o : Out) : (d.emitOut o).rebuilding = d.rebuilding := rfl
@[simp] theorem Dev.emitOut_cntPend (d : Dev) (o : Out) : (d.emitOut o).cntPend = d.cntPend := rfl
@[simp] theorem Dev.emitOut_power (d : Dev) (o : Out) : (d.emitOut o).power = d.power := rfl
@[simp] theorem Dev.emitOut_porHigh (d : Dev) (o : Out) : (d.emitOut o).porHigh = d.porHigh := rfl
@[simp] theorem Dev.emitOut_pwrOk (d : Dev) (o : Out) : (d.emitOut o).pwrOk = d.pwrOk := rfl
@[simp] theorem Dev.emitOut_tripped (d : Dev) (o : Out) : (d.emitOut o).tripped = d.tripped := rfl
@[simp] theorem Dev.emitOut_widthDone (d : Dev) (o : Out) : (d.emitOut o).widthDone = d.widthDone := rfl
@[simp] theorem Dev.emitOut_seamDead (d : Dev) (o : Out) : (d.emitOut o).seamDead = d.seamDead := rfl
@[simp] theorem Dev.emitOut_seams (d : Dev) (o : Out) : (d.emitOut o).seams = d.seams := rfl
@[simp] theorem Dev.emitOut_seamOut (d : Dev) (o : Out) : (d.emitOut o).seamOut = d.seamOut := rfl
@[simp] theorem Dev.emitOut_seamIn (d : Dev) (o : Out) : (d.emitOut o).seamIn = d.seamIn := rfl
@[simp] theorem Dev.emitOut_resetDue (d : Dev) (o : Out) : (d.emitOut o).resetDue = d.resetDue := rfl
@[simp] theorem Dev.emitOut_overlay (d : Dev) (o : Out) : (d.emitOut o).overlay = d.overlay := rfl
@[simp] theorem Dev.emitOut_laserRan (d : Dev) (o : Out) : (d.emitOut o).laserRan = d.laserRan := rfl
@[simp] theorem Dev.emitOut_laserFrom (d : Dev) (o : Out) : (d.emitOut o).laserFrom = d.laserFrom := rfl
@[simp] theorem Dev.emitOut_oma (d : Dev) (o : Out) : (d.emitOut o).oma = d.oma := rfl
@[simp] theorem Dev.emitOut_rowSpares (d : Dev) (o : Out) : (d.emitOut o).rowSpares = d.rowSpares := rfl
@[simp] theorem Dev.emitOut_wrdSpare (d : Dev) (o : Out) : (d.emitOut o).wrdSpare = d.wrdSpare := rfl
@[simp] theorem Dev.emitOut_keys (d : Dev) (o : Out) : (d.emitOut o).keys = d.keys := rfl
@[simp] theorem Dev.emitOut_strikes (d : Dev) (o : Out) : (d.emitOut o).strikes = d.strikes := rfl
@[simp] theorem Dev.emitOut_launches (d : Dev) (o : Out) : (d.emitOut o).launches = d.launches := rfl
@[simp] theorem Dev.emitOut_gather (d : Dev) (o : Out) : (d.emitOut o).gather = d.gather := rfl
@[simp] theorem Dev.emitOut_rhs (d : Dev) (o : Out) : (d.emitOut o).rhs = d.rhs := rfl
@[simp] theorem Dev.emitOut_fades (d : Dev) (o : Out) : (d.emitOut o).fades = d.fades := rfl
@[simp] theorem Dev.emitOut_sec (d : Dev) (o : Out) : (d.emitOut o).sec = d.sec := rfl
@[simp] theorem Dev.emitOut_pwr (d : Dev) (o : Out) : (d.emitOut o).pwr = d.pwr := rfl
@[simp] theorem Dev.emitOut_kcache (d : Dev) (o : Out) : (d.emitOut o).kcache = d.kcache := rfl
@[simp] theorem Dev.emitOut_snapPeriodic (d : Dev) (o : Out) : (d.emitOut o).snapPeriodic = d.snapPeriodic := rfl
@[simp] theorem Dev.emitOut_cutDue (d : Dev) (o : Out) : (d.emitOut o).cutDue = d.cutDue := rfl
@[simp] theorem Dev.emitOut_cutT (d : Dev) (o : Out) : (d.emitOut o).cutT = d.cutT := rfl
@[simp] theorem Dev.emitOut_snapSeq (d : Dev) (o : Out) : (d.emitOut o).snapSeq = d.snapSeq := rfl
@[simp] theorem Dev.emitOut_cutFrc (d : Dev) (o : Out) : (d.emitOut o).cutFrc = d.cutFrc := rfl
@[simp] theorem Dev.emitOut_prompter (d : Dev) (o : Out) : (d.emitOut o).prompter = d.prompter := rfl
@[simp] theorem Dev.emitOut_prompterHalt (d : Dev) (o : Out) : (d.emitOut o).prompterHalt = d.prompterHalt := rfl
@[simp] theorem Dev.emitOut_spdm (d : Dev) (o : Out) : (d.emitOut o).spdm = d.spdm := rfl
@[simp] theorem Dev.emitOut_debugWords (d : Dev) (o : Out) : (d.emitOut o).debugWords = d.debugWords := rfl
@[simp] theorem Dev.emitOut_limits (d : Dev) (o : Out) : (d.emitOut o).limits = d.limits := rfl
@[simp] theorem Dev.emitOut_fresh (d : Dev) (o : Out) : (d.emitOut o).fresh = d.fresh := rfl
@[simp] theorem Dev.emitOut_fuse (d : Dev) (o : Out) : (d.emitOut o).fuse = d.fuse := rfl

/-! ## setWing -/

@[simp] theorem Dev.setWing_regs (d : Dev) (w : Nat) (x : Wing) : (d.setWing w x).regs = d.regs := rfl
@[simp] theorem Dev.setWing_net (d : Dev) (w : Nat) (x : Wing) : (d.setWing w x).net = d.net := rfl
@[simp] theorem Dev.setWing_tab (d : Dev) (w : Nat) (x : Wing) : (d.setWing w x).tab = d.tab := rfl
@[simp] theorem Dev.setWing_tmu (d : Dev) (w : Nat) (x : Wing) : (d.setWing w x).tmu = d.tmu := rfl
@[simp] theorem Dev.setWing_looms (d : Dev) (w : Nat) (x : Wing) : (d.setWing w x).looms = d.looms := rfl
@[simp] theorem Dev.setWing_houseUp (d : Dev) (w : Nat) (x : Wing) : (d.setWing w x).houseUp = d.houseUp := rfl
@[simp] theorem Dev.setWing_relay (d : Dev) (w : Nat) (x : Wing) : (d.setWing w x).relay = d.relay := rfl
@[simp] theorem Dev.setWing_ecc (d : Dev) (w : Nat) (x : Wing) : (d.setWing w x).ecc = d.ecc := rfl
@[simp] theorem Dev.setWing_eccSoft (d : Dev) (w : Nat) (x : Wing) : (d.setWing w x).eccSoft = d.eccSoft := rfl
@[simp] theorem Dev.setWing_rebuilding (d : Dev) (w : Nat) (x : Wing) : (d.setWing w x).rebuilding = d.rebuilding := rfl
@[simp] theorem Dev.setWing_cntPend (d : Dev) (w : Nat) (x : Wing) : (d.setWing w x).cntPend = d.cntPend := rfl
@[simp] theorem Dev.setWing_power (d : Dev) (w : Nat) (x : Wing) : (d.setWing w x).power = d.power := rfl
@[simp] theorem Dev.setWing_porHigh (d : Dev) (w : Nat) (x : Wing) : (d.setWing w x).porHigh = d.porHigh := rfl
@[simp] theorem Dev.setWing_pwrOk (d : Dev) (w : Nat) (x : Wing) : (d.setWing w x).pwrOk = d.pwrOk := rfl
@[simp] theorem Dev.setWing_tripped (d : Dev) (w : Nat) (x : Wing) : (d.setWing w x).tripped = d.tripped := rfl
@[simp] theorem Dev.setWing_widthDone (d : Dev) (w : Nat) (x : Wing) : (d.setWing w x).widthDone = d.widthDone := rfl
@[simp] theorem Dev.setWing_seamDead (d : Dev) (w : Nat) (x : Wing) : (d.setWing w x).seamDead = d.seamDead := rfl
@[simp] theorem Dev.setWing_seams (d : Dev) (w : Nat) (x : Wing) : (d.setWing w x).seams = d.seams := rfl
@[simp] theorem Dev.setWing_seamOut (d : Dev) (w : Nat) (x : Wing) : (d.setWing w x).seamOut = d.seamOut := rfl
@[simp] theorem Dev.setWing_seamIn (d : Dev) (w : Nat) (x : Wing) : (d.setWing w x).seamIn = d.seamIn := rfl
@[simp] theorem Dev.setWing_resetDue (d : Dev) (w : Nat) (x : Wing) : (d.setWing w x).resetDue = d.resetDue := rfl
@[simp] theorem Dev.setWing_overlay (d : Dev) (w : Nat) (x : Wing) : (d.setWing w x).overlay = d.overlay := rfl
@[simp] theorem Dev.setWing_laserRan (d : Dev) (w : Nat) (x : Wing) : (d.setWing w x).laserRan = d.laserRan := rfl
@[simp] theorem Dev.setWing_laserFrom (d : Dev) (w : Nat) (x : Wing) : (d.setWing w x).laserFrom = d.laserFrom := rfl
@[simp] theorem Dev.setWing_oma (d : Dev) (w : Nat) (x : Wing) : (d.setWing w x).oma = d.oma := rfl
@[simp] theorem Dev.setWing_rowSpares (d : Dev) (w : Nat) (x : Wing) : (d.setWing w x).rowSpares = d.rowSpares := rfl
@[simp] theorem Dev.setWing_wrdSpare (d : Dev) (w : Nat) (x : Wing) : (d.setWing w x).wrdSpare = d.wrdSpare := rfl
@[simp] theorem Dev.setWing_keys (d : Dev) (w : Nat) (x : Wing) : (d.setWing w x).keys = d.keys := rfl
@[simp] theorem Dev.setWing_strikes (d : Dev) (w : Nat) (x : Wing) : (d.setWing w x).strikes = d.strikes := rfl
@[simp] theorem Dev.setWing_launches (d : Dev) (w : Nat) (x : Wing) : (d.setWing w x).launches = d.launches := rfl
@[simp] theorem Dev.setWing_gather (d : Dev) (w : Nat) (x : Wing) : (d.setWing w x).gather = d.gather := rfl
@[simp] theorem Dev.setWing_rhs (d : Dev) (w : Nat) (x : Wing) : (d.setWing w x).rhs = d.rhs := rfl
@[simp] theorem Dev.setWing_fades (d : Dev) (w : Nat) (x : Wing) : (d.setWing w x).fades = d.fades := rfl
@[simp] theorem Dev.setWing_sec (d : Dev) (w : Nat) (x : Wing) : (d.setWing w x).sec = d.sec := rfl
@[simp] theorem Dev.setWing_pwr (d : Dev) (w : Nat) (x : Wing) : (d.setWing w x).pwr = d.pwr := rfl
@[simp] theorem Dev.setWing_kcache (d : Dev) (w : Nat) (x : Wing) : (d.setWing w x).kcache = d.kcache := rfl
@[simp] theorem Dev.setWing_snapPeriodic (d : Dev) (w : Nat) (x : Wing) : (d.setWing w x).snapPeriodic = d.snapPeriodic := rfl
@[simp] theorem Dev.setWing_cutDue (d : Dev) (w : Nat) (x : Wing) : (d.setWing w x).cutDue = d.cutDue := rfl
@[simp] theorem Dev.setWing_cutT (d : Dev) (w : Nat) (x : Wing) : (d.setWing w x).cutT = d.cutT := rfl
@[simp] theorem Dev.setWing_snapSeq (d : Dev) (w : Nat) (x : Wing) : (d.setWing w x).snapSeq = d.snapSeq := rfl
@[simp] theorem Dev.setWing_cutFrc (d : Dev) (w : Nat) (x : Wing) : (d.setWing w x).cutFrc = d.cutFrc := rfl
@[simp] theorem Dev.setWing_prompter (d : Dev) (w : Nat) (x : Wing) : (d.setWing w x).prompter = d.prompter := rfl
@[simp] theorem Dev.setWing_prompterHalt (d : Dev) (w : Nat) (x : Wing) : (d.setWing w x).prompterHalt = d.prompterHalt := rfl
@[simp] theorem Dev.setWing_spdm (d : Dev) (w : Nat) (x : Wing) : (d.setWing w x).spdm = d.spdm := rfl
@[simp] theorem Dev.setWing_debugWords (d : Dev) (w : Nat) (x : Wing) : (d.setWing w x).debugWords = d.debugWords := rfl
@[simp] theorem Dev.setWing_limits (d : Dev) (w : Nat) (x : Wing) : (d.setWing w x).limits = d.limits := rfl
@[simp] theorem Dev.setWing_out (d : Dev) (w : Nat) (x : Wing) : (d.setWing w x).out = d.out := rfl
@[simp] theorem Dev.setWing_fresh (d : Dev) (w : Nat) (x : Wing) : (d.setWing w x).fresh = d.fresh := rfl
@[simp] theorem Dev.setWing_fuse (d : Dev) (w : Nat) (x : Wing) : (d.setWing w x).fuse = d.fuse := rfl

/-! ## setLoom -/

@[simp] theorem Dev.setLoom_regs (d : Dev) (k : Nat) (x : Loom) : (d.setLoom k x).regs = d.regs := rfl
@[simp] theorem Dev.setLoom_net (d : Dev) (k : Nat) (x : Loom) : (d.setLoom k x).net = d.net := rfl
@[simp] theorem Dev.setLoom_tab (d : Dev) (k : Nat) (x : Loom) : (d.setLoom k x).tab = d.tab := rfl
@[simp] theorem Dev.setLoom_tmu (d : Dev) (k : Nat) (x : Loom) : (d.setLoom k x).tmu = d.tmu := rfl
@[simp] theorem Dev.setLoom_wings (d : Dev) (k : Nat) (x : Loom) : (d.setLoom k x).wings = d.wings := rfl
@[simp] theorem Dev.setLoom_houseUp (d : Dev) (k : Nat) (x : Loom) : (d.setLoom k x).houseUp = d.houseUp := rfl
@[simp] theorem Dev.setLoom_relay (d : Dev) (k : Nat) (x : Loom) : (d.setLoom k x).relay = d.relay := rfl
@[simp] theorem Dev.setLoom_ecc (d : Dev) (k : Nat) (x : Loom) : (d.setLoom k x).ecc = d.ecc := rfl
@[simp] theorem Dev.setLoom_eccSoft (d : Dev) (k : Nat) (x : Loom) : (d.setLoom k x).eccSoft = d.eccSoft := rfl
@[simp] theorem Dev.setLoom_rebuilding (d : Dev) (k : Nat) (x : Loom) : (d.setLoom k x).rebuilding = d.rebuilding := rfl
@[simp] theorem Dev.setLoom_cntPend (d : Dev) (k : Nat) (x : Loom) : (d.setLoom k x).cntPend = d.cntPend := rfl
@[simp] theorem Dev.setLoom_power (d : Dev) (k : Nat) (x : Loom) : (d.setLoom k x).power = d.power := rfl
@[simp] theorem Dev.setLoom_porHigh (d : Dev) (k : Nat) (x : Loom) : (d.setLoom k x).porHigh = d.porHigh := rfl
@[simp] theorem Dev.setLoom_pwrOk (d : Dev) (k : Nat) (x : Loom) : (d.setLoom k x).pwrOk = d.pwrOk := rfl
@[simp] theorem Dev.setLoom_tripped (d : Dev) (k : Nat) (x : Loom) : (d.setLoom k x).tripped = d.tripped := rfl
@[simp] theorem Dev.setLoom_widthDone (d : Dev) (k : Nat) (x : Loom) : (d.setLoom k x).widthDone = d.widthDone := rfl
@[simp] theorem Dev.setLoom_seamDead (d : Dev) (k : Nat) (x : Loom) : (d.setLoom k x).seamDead = d.seamDead := rfl
@[simp] theorem Dev.setLoom_seams (d : Dev) (k : Nat) (x : Loom) : (d.setLoom k x).seams = d.seams := rfl
@[simp] theorem Dev.setLoom_seamOut (d : Dev) (k : Nat) (x : Loom) : (d.setLoom k x).seamOut = d.seamOut := rfl
@[simp] theorem Dev.setLoom_seamIn (d : Dev) (k : Nat) (x : Loom) : (d.setLoom k x).seamIn = d.seamIn := rfl
@[simp] theorem Dev.setLoom_resetDue (d : Dev) (k : Nat) (x : Loom) : (d.setLoom k x).resetDue = d.resetDue := rfl
@[simp] theorem Dev.setLoom_overlay (d : Dev) (k : Nat) (x : Loom) : (d.setLoom k x).overlay = d.overlay := rfl
@[simp] theorem Dev.setLoom_laserRan (d : Dev) (k : Nat) (x : Loom) : (d.setLoom k x).laserRan = d.laserRan := rfl
@[simp] theorem Dev.setLoom_laserFrom (d : Dev) (k : Nat) (x : Loom) : (d.setLoom k x).laserFrom = d.laserFrom := rfl
@[simp] theorem Dev.setLoom_oma (d : Dev) (k : Nat) (x : Loom) : (d.setLoom k x).oma = d.oma := rfl
@[simp] theorem Dev.setLoom_rowSpares (d : Dev) (k : Nat) (x : Loom) : (d.setLoom k x).rowSpares = d.rowSpares := rfl
@[simp] theorem Dev.setLoom_wrdSpare (d : Dev) (k : Nat) (x : Loom) : (d.setLoom k x).wrdSpare = d.wrdSpare := rfl
@[simp] theorem Dev.setLoom_keys (d : Dev) (k : Nat) (x : Loom) : (d.setLoom k x).keys = d.keys := rfl
@[simp] theorem Dev.setLoom_strikes (d : Dev) (k : Nat) (x : Loom) : (d.setLoom k x).strikes = d.strikes := rfl
@[simp] theorem Dev.setLoom_launches (d : Dev) (k : Nat) (x : Loom) : (d.setLoom k x).launches = d.launches := rfl
@[simp] theorem Dev.setLoom_gather (d : Dev) (k : Nat) (x : Loom) : (d.setLoom k x).gather = d.gather := rfl
@[simp] theorem Dev.setLoom_rhs (d : Dev) (k : Nat) (x : Loom) : (d.setLoom k x).rhs = d.rhs := rfl
@[simp] theorem Dev.setLoom_fades (d : Dev) (k : Nat) (x : Loom) : (d.setLoom k x).fades = d.fades := rfl
@[simp] theorem Dev.setLoom_sec (d : Dev) (k : Nat) (x : Loom) : (d.setLoom k x).sec = d.sec := rfl
@[simp] theorem Dev.setLoom_pwr (d : Dev) (k : Nat) (x : Loom) : (d.setLoom k x).pwr = d.pwr := rfl
@[simp] theorem Dev.setLoom_kcache (d : Dev) (k : Nat) (x : Loom) : (d.setLoom k x).kcache = d.kcache := rfl
@[simp] theorem Dev.setLoom_snapPeriodic (d : Dev) (k : Nat) (x : Loom) : (d.setLoom k x).snapPeriodic = d.snapPeriodic := rfl
@[simp] theorem Dev.setLoom_cutDue (d : Dev) (k : Nat) (x : Loom) : (d.setLoom k x).cutDue = d.cutDue := rfl
@[simp] theorem Dev.setLoom_cutT (d : Dev) (k : Nat) (x : Loom) : (d.setLoom k x).cutT = d.cutT := rfl
@[simp] theorem Dev.setLoom_snapSeq (d : Dev) (k : Nat) (x : Loom) : (d.setLoom k x).snapSeq = d.snapSeq := rfl
@[simp] theorem Dev.setLoom_cutFrc (d : Dev) (k : Nat) (x : Loom) : (d.setLoom k x).cutFrc = d.cutFrc := rfl
@[simp] theorem Dev.setLoom_prompter (d : Dev) (k : Nat) (x : Loom) : (d.setLoom k x).prompter = d.prompter := rfl
@[simp] theorem Dev.setLoom_prompterHalt (d : Dev) (k : Nat) (x : Loom) : (d.setLoom k x).prompterHalt = d.prompterHalt := rfl
@[simp] theorem Dev.setLoom_spdm (d : Dev) (k : Nat) (x : Loom) : (d.setLoom k x).spdm = d.spdm := rfl
@[simp] theorem Dev.setLoom_debugWords (d : Dev) (k : Nat) (x : Loom) : (d.setLoom k x).debugWords = d.debugWords := rfl
@[simp] theorem Dev.setLoom_limits (d : Dev) (k : Nat) (x : Loom) : (d.setLoom k x).limits = d.limits := rfl
@[simp] theorem Dev.setLoom_out (d : Dev) (k : Nat) (x : Loom) : (d.setLoom k x).out = d.out := rfl
@[simp] theorem Dev.setLoom_fresh (d : Dev) (k : Nat) (x : Loom) : (d.setLoom k x).fresh = d.fresh := rfl
@[simp] theorem Dev.setLoom_fuse (d : Dev) (k : Nat) (x : Loom) : (d.setLoom k x).fuse = d.fuse := rfl

/-! ## setSeam -/

@[simp] theorem Dev.setSeam_regs (d : Dev) (s : Nat) (x : Seam) : (d.setSeam s x).regs = d.regs := rfl
@[simp] theorem Dev.setSeam_net (d : Dev) (s : Nat) (x : Seam) : (d.setSeam s x).net = d.net := rfl
@[simp] theorem Dev.setSeam_tab (d : Dev) (s : Nat) (x : Seam) : (d.setSeam s x).tab = d.tab := rfl
@[simp] theorem Dev.setSeam_tmu (d : Dev) (s : Nat) (x : Seam) : (d.setSeam s x).tmu = d.tmu := rfl
@[simp] theorem Dev.setSeam_wings (d : Dev) (s : Nat) (x : Seam) : (d.setSeam s x).wings = d.wings := rfl
@[simp] theorem Dev.setSeam_looms (d : Dev) (s : Nat) (x : Seam) : (d.setSeam s x).looms = d.looms := rfl
@[simp] theorem Dev.setSeam_houseUp (d : Dev) (s : Nat) (x : Seam) : (d.setSeam s x).houseUp = d.houseUp := rfl
@[simp] theorem Dev.setSeam_relay (d : Dev) (s : Nat) (x : Seam) : (d.setSeam s x).relay = d.relay := rfl
@[simp] theorem Dev.setSeam_ecc (d : Dev) (s : Nat) (x : Seam) : (d.setSeam s x).ecc = d.ecc := rfl
@[simp] theorem Dev.setSeam_eccSoft (d : Dev) (s : Nat) (x : Seam) : (d.setSeam s x).eccSoft = d.eccSoft := rfl
@[simp] theorem Dev.setSeam_rebuilding (d : Dev) (s : Nat) (x : Seam) : (d.setSeam s x).rebuilding = d.rebuilding := rfl
@[simp] theorem Dev.setSeam_cntPend (d : Dev) (s : Nat) (x : Seam) : (d.setSeam s x).cntPend = d.cntPend := rfl
@[simp] theorem Dev.setSeam_power (d : Dev) (s : Nat) (x : Seam) : (d.setSeam s x).power = d.power := rfl
@[simp] theorem Dev.setSeam_porHigh (d : Dev) (s : Nat) (x : Seam) : (d.setSeam s x).porHigh = d.porHigh := rfl
@[simp] theorem Dev.setSeam_pwrOk (d : Dev) (s : Nat) (x : Seam) : (d.setSeam s x).pwrOk = d.pwrOk := rfl
@[simp] theorem Dev.setSeam_tripped (d : Dev) (s : Nat) (x : Seam) : (d.setSeam s x).tripped = d.tripped := rfl
@[simp] theorem Dev.setSeam_widthDone (d : Dev) (s : Nat) (x : Seam) : (d.setSeam s x).widthDone = d.widthDone := rfl
@[simp] theorem Dev.setSeam_seamDead (d : Dev) (s : Nat) (x : Seam) : (d.setSeam s x).seamDead = d.seamDead := rfl
@[simp] theorem Dev.setSeam_seamOut (d : Dev) (s : Nat) (x : Seam) : (d.setSeam s x).seamOut = d.seamOut := rfl
@[simp] theorem Dev.setSeam_seamIn (d : Dev) (s : Nat) (x : Seam) : (d.setSeam s x).seamIn = d.seamIn := rfl
@[simp] theorem Dev.setSeam_resetDue (d : Dev) (s : Nat) (x : Seam) : (d.setSeam s x).resetDue = d.resetDue := rfl
@[simp] theorem Dev.setSeam_overlay (d : Dev) (s : Nat) (x : Seam) : (d.setSeam s x).overlay = d.overlay := rfl
@[simp] theorem Dev.setSeam_laserRan (d : Dev) (s : Nat) (x : Seam) : (d.setSeam s x).laserRan = d.laserRan := rfl
@[simp] theorem Dev.setSeam_laserFrom (d : Dev) (s : Nat) (x : Seam) : (d.setSeam s x).laserFrom = d.laserFrom := rfl
@[simp] theorem Dev.setSeam_oma (d : Dev) (s : Nat) (x : Seam) : (d.setSeam s x).oma = d.oma := rfl
@[simp] theorem Dev.setSeam_rowSpares (d : Dev) (s : Nat) (x : Seam) : (d.setSeam s x).rowSpares = d.rowSpares := rfl
@[simp] theorem Dev.setSeam_wrdSpare (d : Dev) (s : Nat) (x : Seam) : (d.setSeam s x).wrdSpare = d.wrdSpare := rfl
@[simp] theorem Dev.setSeam_keys (d : Dev) (s : Nat) (x : Seam) : (d.setSeam s x).keys = d.keys := rfl
@[simp] theorem Dev.setSeam_strikes (d : Dev) (s : Nat) (x : Seam) : (d.setSeam s x).strikes = d.strikes := rfl
@[simp] theorem Dev.setSeam_launches (d : Dev) (s : Nat) (x : Seam) : (d.setSeam s x).launches = d.launches := rfl
@[simp] theorem Dev.setSeam_gather (d : Dev) (s : Nat) (x : Seam) : (d.setSeam s x).gather = d.gather := rfl
@[simp] theorem Dev.setSeam_rhs (d : Dev) (s : Nat) (x : Seam) : (d.setSeam s x).rhs = d.rhs := rfl
@[simp] theorem Dev.setSeam_fades (d : Dev) (s : Nat) (x : Seam) : (d.setSeam s x).fades = d.fades := rfl
@[simp] theorem Dev.setSeam_sec (d : Dev) (s : Nat) (x : Seam) : (d.setSeam s x).sec = d.sec := rfl
@[simp] theorem Dev.setSeam_pwr (d : Dev) (s : Nat) (x : Seam) : (d.setSeam s x).pwr = d.pwr := rfl
@[simp] theorem Dev.setSeam_kcache (d : Dev) (s : Nat) (x : Seam) : (d.setSeam s x).kcache = d.kcache := rfl
@[simp] theorem Dev.setSeam_snapPeriodic (d : Dev) (s : Nat) (x : Seam) : (d.setSeam s x).snapPeriodic = d.snapPeriodic := rfl
@[simp] theorem Dev.setSeam_cutDue (d : Dev) (s : Nat) (x : Seam) : (d.setSeam s x).cutDue = d.cutDue := rfl
@[simp] theorem Dev.setSeam_cutT (d : Dev) (s : Nat) (x : Seam) : (d.setSeam s x).cutT = d.cutT := rfl
@[simp] theorem Dev.setSeam_snapSeq (d : Dev) (s : Nat) (x : Seam) : (d.setSeam s x).snapSeq = d.snapSeq := rfl
@[simp] theorem Dev.setSeam_cutFrc (d : Dev) (s : Nat) (x : Seam) : (d.setSeam s x).cutFrc = d.cutFrc := rfl
@[simp] theorem Dev.setSeam_prompter (d : Dev) (s : Nat) (x : Seam) : (d.setSeam s x).prompter = d.prompter := rfl
@[simp] theorem Dev.setSeam_prompterHalt (d : Dev) (s : Nat) (x : Seam) : (d.setSeam s x).prompterHalt = d.prompterHalt := rfl
@[simp] theorem Dev.setSeam_spdm (d : Dev) (s : Nat) (x : Seam) : (d.setSeam s x).spdm = d.spdm := rfl
@[simp] theorem Dev.setSeam_debugWords (d : Dev) (s : Nat) (x : Seam) : (d.setSeam s x).debugWords = d.debugWords := rfl
@[simp] theorem Dev.setSeam_limits (d : Dev) (s : Nat) (x : Seam) : (d.setSeam s x).limits = d.limits := rfl
@[simp] theorem Dev.setSeam_out (d : Dev) (s : Nat) (x : Seam) : (d.setSeam s x).out = d.out := rfl
@[simp] theorem Dev.setSeam_fresh (d : Dev) (s : Nat) (x : Seam) : (d.setSeam s x).fresh = d.fresh := rfl
@[simp] theorem Dev.setSeam_fuse (d : Dev) (s : Nat) (x : Seam) : (d.setSeam s x).fuse = d.fuse := rfl

/-! ## What reads what -/

theorem Dev.resetWord_of_fuse {d d' : Dev} (h : d'.fuse = d.fuse) (r : RF) (i : Nat) : d'.resetWord r i = d.resetWord r i := by
  unfold Dev.resetWord Dev.capMax; rw [h]

/-- A register reads the same where the register words and the fuses are the same. -/
theorem Dev.rd_of_regs {d d' : Dev} (h : d'.regs = d.regs) (k : d'.fuse = d.fuse) (r : RF) (i : Nat) : d'.rd r i = d.rd r i := by
  unfold Dev.rd; rw [h, Dev.resetWord_of_fuse k]

@[simp] theorem Dev.rd_setLane (d : Dev) (l : Nat) (x : Lane) (r : RF) (n : Nat) : (d.setLane l x).rd r n = d.rd r n := Dev.rd_of_regs rfl rfl r n
@[simp] theorem Dev.fld_setLane (d : Dev) (l : Nat) (x : Lane) (g : Fld) (n : Nat) : (d.setLane l x).fld g n = d.fld g n := by unfold Dev.fld; rw [Dev.rd_setLane]
@[simp] theorem Dev.rd_modLane (d : Dev) (l : Nat) (f : Lane → Lane) (r : RF) (n : Nat) : (d.modLane l f).rd r n = d.rd r n := Dev.rd_of_regs rfl rfl r n
@[simp] theorem Dev.fld_modLane (d : Dev) (l : Nat) (f : Lane → Lane) (g : Fld) (n : Nat) : (d.modLane l f).fld g n = d.fld g n := by unfold Dev.fld; rw [Dev.rd_modLane]
@[simp] theorem Dev.rd_setLv (d : Dev) (k : Nat) (x : LaneVl) (r : RF) (n : Nat) : (d.setLv k x).rd r n = d.rd r n := Dev.rd_of_regs rfl rfl r n
@[simp] theorem Dev.fld_setLv (d : Dev) (k : Nat) (x : LaneVl) (g : Fld) (n : Nat) : (d.setLv k x).fld g n = d.fld g n := by unfold Dev.fld; rw [Dev.rd_setLv]
@[simp] theorem Dev.rd_setPort (d : Dev) (p : Nat) (x : Port) (r : RF) (n : Nat) : (d.setPort p x).rd r n = d.rd r n := Dev.rd_of_regs rfl rfl r n
@[simp] theorem Dev.fld_setPort (d : Dev) (p : Nat) (x : Port) (g : Fld) (n : Nat) : (d.setPort p x).fld g n = d.fld g n := by unfold Dev.fld; rw [Dev.rd_setPort]
@[simp] theorem Dev.rd_modPkt (d : Dev) (id : Nat) (f : Pkt → Pkt) (r : RF) (n : Nat) : (d.modPkt id f).rd r n = d.rd r n := Dev.rd_of_regs rfl rfl r n
@[simp] theorem Dev.fld_modPkt (d : Dev) (id : Nat) (f : Pkt → Pkt) (g : Fld) (n : Nat) : (d.modPkt id f).fld g n = d.fld g n := by unfold Dev.fld; rw [Dev.rd_modPkt]
@[simp] theorem Dev.rd_dropPkt (d : Dev) (id : Nat) (r : RF) (n : Nat) : (d.dropPkt id).rd r n = d.rd r n := Dev.rd_of_regs rfl rfl r n
@[simp] theorem Dev.fld_dropPkt (d : Dev) (id : Nat) (g : Fld) (n : Nat) : (d.dropPkt id).fld g n = d.fld g n := by unfold Dev.fld; rw [Dev.rd_dropPkt]
@[simp] theorem Dev.rd_emitOut (d : Dev) (o : Out) (r : RF) (n : Nat) : (d.emitOut o).rd r n = d.rd r n := Dev.rd_of_regs rfl rfl r n
@[simp] theorem Dev.fld_emitOut (d : Dev) (o : Out) (g : Fld) (n : Nat) : (d.emitOut o).fld g n = d.fld g n := by unfold Dev.fld; rw [Dev.rd_emitOut]
@[simp] theorem Dev.rd_setWing (d : Dev) (w : Nat) (x : Wing) (r : RF) (n : Nat) : (d.setWing w x).rd r n = d.rd r n := Dev.rd_of_regs rfl rfl r n
@[simp] theorem Dev.fld_setWing (d : Dev) (w : Nat) (x : Wing) (g : Fld) (n : Nat) : (d.setWing w x).fld g n = d.fld g n := by unfold Dev.fld; rw [Dev.rd_setWing]
@[simp] theorem Dev.rd_setLoom (d : Dev) (k : Nat) (x : Loom) (r : RF) (n : Nat) : (d.setLoom k x).rd r n = d.rd r n := Dev.rd_of_regs rfl rfl r n
@[simp] theorem Dev.fld_setLoom (d : Dev) (k : Nat) (x : Loom) (g : Fld) (n : Nat) : (d.setLoom k x).fld g n = d.fld g n := by unfold Dev.fld; rw [Dev.rd_setLoom]
@[simp] theorem Dev.rd_setSeam (d : Dev) (s : Nat) (x : Seam) (r : RF) (n : Nat) : (d.setSeam s x).rd r n = d.rd r n := Dev.rd_of_regs rfl rfl r n
@[simp] theorem Dev.fld_setSeam (d : Dev) (s : Nat) (x : Seam) (g : Fld) (n : Nat) : (d.setSeam s x).fld g n = d.fld g n := by unfold Dev.fld; rw [Dev.rd_setSeam]

end Sys2Proof.Machine
end

