-- ==== Sys2Proof/Tests/Slice0.lean ====
section
/-! SUPPORT. For every statement that has hypotheses, states and operands that meet them, one case for each clause and for the
values where clauses meet; ill-formed commands for each check of WellFormed; words decoded from the spec's encodings. -/

namespace Sys2Proof.Tests
set_option Elab.async false
open Sys2Proof Sys2Proof.Machine Sys2Proof.Claims

/-! ## Helper states -/

/-- The device after its start-up: running, every die RUNNING, the Prompter, the firmware and the time unit there. -/
def boot : Dev :=
  let d : Dev := { power := .running, pwrOk := true, prompter := true, houseUp := [0, 1], sec := { library := true, wingFw := true, loomFw := true } }
  let d := (List.range 24).foldl (fun d n => d.setSite (n + 1) 1) d
  let d := d.setFld F.GLB_START_PHASE 0 7
  let d := d.setFld F.SEC_STATE_SECURITY 0 1
  let d := d.setFld F.TMU_STAT_LOCKED 0 1
  let d := d.setFld F.GLB_SEAM_STAT_STATE 16 2
  d.setFld F.GLB_SEAM_STAT_STATE 19 4

def st (d : Dev) : State := { d := d }
/-- The device after start-up, changed. -/
def dv (f : Dev → Dev) : State := { d := f boot }
def bst : State := st boot
def fm : Master := .house 0

/-- A number whose `n` bytes hold fields (offset, bytes, value). -/
def place (n : Nat) (fs : List (Nat × Nat × Nat)) : List Byte :=
  bytesOf n (fs.foldl (fun a f => a + f.2.2 % 256 ^ f.2.1 * 256 ^ (n - f.1 - f.2.1)) 0)

/-- An image of one instruction on four engines, with channels 0 to 3 of group 5 in the four directions, 2 units of tile
SRAM and 4 KiB of Bolt memory. -/
def image (w : Nat) : Image :=
  { set := 0, prod := 9, gen := 1, sha := 0, started := true,
    bytes := place 128 [(11, 1, 4), (12, 4, 1), (24, 4, 2), (36, 4, 4096)]
      ++ (List.range 4).flatMap (fun c => place 32 [(0, 1, 128 + 32 * c + 16), (1, 2, 5), (3, 1, 1), (4, 4, 4096 * c), (8, 4, 1024), (12, 2, 64)])
      ++ List.replicate 384 0 ++ bytesOf 4 w }

/-- A table entry from fields (word, high bit, low bit, value) of TBL_DATA. -/
def entry (fs : List (Nat × Nat × Nat × Nat)) : BitVec 512 := fs.foldl (fun e f => setData e f.1 f.2.1 f.2.2.1 f.2.2.2) 0

/-- A table entry in place. -/
def withEnt (d : Dev) (table i : Nat) (e : BitVec 512) : Dev := { d with tab := { d.tab with ent := d.tab.ent.put (tblKey table i) e } }

/-- Cast 5 of production 9, generation 1, with three members. -/
def castEntry : BitVec 512 := entry [(0, 63, 52, 9), (0, 51, 44, 1), (0, 43, 30, 2)]

/-- An all-reduce descriptor: a SUM of signed integers of format 17, tiles of 64 bytes, every member expected, one tile. -/
def descriptor : BitVec 512 := entry [(0, 63, 32, 17 * 2 ^ 27 + 17 * 2 ^ 22 + 31 * 2 ^ 17 + 2 ^ 13), (3, 63, 32, 1)]

/-- Channel `n` of the image, its direction `n`. -/
def chanOf (n : Nat) : Chan :=
  { dir := n, vl := 4, ens := false, group := 5, wm1 := 1, accBase := 4096 * n, slot := 1024, tileMax := 64, linkRate := 0, member := 0 }

/-- An engine of Loom 3 before the instruction of a word. -/
def atCue (y : Engine) (w : Nat) : State :=
  let x : Loom := { engines := [(63, { y with st := 1, image := 7, prod := 9 })], images := [(7, image w)], active := [(9, 0)],
                    binds := [{ prod := 9, ens := false, group := 5 }] }
  st { withEnt boot 4 5 castEntry with looms := [(3, x)] }

/-- The state before an instruction, its word taken from the encoder. -/
def cue (y : Engine) (i : Instr) : State := atCue y ((cueEncode i).getD 0)


/-- A state with its device changed. -/
def onDv (f : Dev → Dev) (s : State) : State := { s with d := f s.d }

/-- A link of a TYPE, enabled, in a STATE. -/
def link (l ty n : Nat) (s : State) : State := onDv (fun d =>
  ((d.setFld F.PRT_LINK_CTL_TYPE l ty).setFld F.PRT_LINK_STAT_STATE l n).setFld F.PRT_LINK_CTL_EN l 1) s

/-- The packets that the device holds. -/
def holding (ps : List Pkt) (s : State) : State := onDv (fun d => { d with net := { d.net with pkts := ps, nextId := 50 } }) s

/-- A packet of 200 bytes from end point 0x00300001, its OPC, its VL and its place. -/
def packet (opc vl : Nat) (pl : Place) : Pkt :=
  { id := 4, hdr := mkHdr 0x00002001 0x00300001 9 1 opc 2 3, rw := 0, vl := vl, vlIn := vl, pay := 5, body := [7, 8], inl := 5, whole := true, place := pl, buf := 3 }

theorem select_of {x : Choice × Dev} {c : Choice} (h : x.1 = c) : ∃ d, x = (c, d) := ⟨x.2, by rw [← h]⟩

theorem none_waits {l : List Pkt} (h : ∀ p ∈ l, ∀ x ∈ [p.place], (match x with | .rsqWait .. => true | _ => false) = false) :
    ∀ p ∈ l, ¬ Waiting p := fun p hp ⟨_, _, e⟩ => by have := h p hp p.place (by simp); rw [e] at this; cases this

theorem of_some {α : Type} {x : Option α} {a : α} {Q : α → Prop} (h : x = some a) (q : Q a) : ∀ b, x = some b → Q b :=
  fun b e => by rw [h] at e; cases e; exact q
theorem of_none {α : Type} {x : Option α} {Q : α → Prop} (h : x = none) : ∀ b, x = some b → Q b := fun b e => by rw [h] at e; cases e

/-! ## The queue, the memory and the encoding -/

def isNext (o : Host.Outcome State Fault Refusal) : Bool := match o with | .next _ => true | _ => false
theorem next_of {o : Host.Outcome State Fault Refusal} (h : isNext o = true) : ∃ t, o = .next t := by
  cases o with
  | next t => exact ⟨t, rfl⟩
  | _ => cases h

/-- Two commands wait. -/
def waiting : State := { bst with pending := [.refLoss, .nporAssert], mem := [(0, 5)] }

theorem witness_StepRunsFront : waiting.pending = .refLoss :: [.nporAssert] := rfl
theorem witness_IdleStep : bst.pending = [] := rfl
theorem witness_KnownCommandCompletes : Known waiting .refLoss := by unfold Known; decide +kernel
theorem witness_QueueUntouched : ∃ t, exec .refLoss waiting = .next t := next_of (by decide +kernel)
theorem witness_MemoryStaysCanonical : waiting.memOk ∧ ∃ t, step waiting = .next t := ⟨by unfold State.memOk; decide +kernel, next_of (by decide +kernel)⟩
theorem witness_CueDecodesWhatItEncodes :
    let i := Instr.cueRoundTile 3 67 15 255 63 63 1
    Instr.wf bst.d.nLanes bst.d.nWings i = true ∧ isCue i = true ∧ cueEncode i = some ((cueEncode i).getD 0) := by decide +kernel

/-! ## The Cue -/

/-- An engine with values at the edges: small, negative, the most negative, addresses at the ends of 2 units of tile SRAM. -/
def y0 : Engine :=
  { sreg := [(1, 5), (2, 0xFFFFFFFFFFFFFFF0), (3, 70), (4, 0x8000000000000001), (10, 64), (11, 131008), (12, 131072), (13, 1), (15, 65536)],
    flags := 0x200, dmem := [(0x40, 0xab), (0x47, 0x01)], vreg := [(1, 0x80ff7f01), (2, 7)], preds := [(1, 0xF0F0F0F0F0F0F0F5)] }

def imageOf (i : Instr) : Image := image ((cueEncode i).getD 0)

/-- Engine 63 of Loom 3 stands before an instruction. -/
abbrev CueOn (y : Engine) (i : Instr) : Prop := CueAt 3 63 i (imageOf i) (cue y i)

/-- The word of an instruction decodes to it. -/
def reads (i : Instr) : Bool := decide (cueDecode 3 63 ((imageOf i).word 0) = i)

theorem running_loom (y : Engine) (w : Nat) : (atCue y w).d.site (17 + 3) = 1 := by
  have h : boot.site 20 = 1 := by decide +kernel
  simpa only [atCue, st, withEnt, Dev.site, Dev.rd, Dev.resetWord] using h

theorem cueOn_of {y : Engine} {i : Instr} (hy : y.pc = 0) (h : reads i = true) : CueOn y i where
  loom := by decide
  engine := by decide
  running := running_loom y _
  live := Or.inl rfl
  free := rfl
  image := rfl
  inside := by show y.pc < 1; omega
  word := by show cueDecode 3 63 ((imageOf i).word y.pc) = i; rw [hy]; exact of_decide_eq_true h

theorem cueOn_all {y : Engine} (hy : y.pc = 0) {l : List Instr} (h : l.all reads = true) : ∀ i ∈ l, CueOn y i :=
  fun i hi => cueOn_of hy (List.all_eq_true.mp h i hi)

/-- Every operand at its least and its greatest value. -/
theorem witness_CueThreeRegister :
    ∀ i ∈ [(0, 0, 0), (63, 63, 63)].flatMap (fun (d, a, b) =>
      [Instr.cueAdd 3 63 d a b, .cueSub 3 63 d a b, .cueAnd 3 63 d a b, .cueOr 3 63 d a b, .cueXor 3 63 d a b, .cueSll 3 63 d a b,
       .cueSrl 3 63 d a b, .cueSra 3 63 d a b, .cueSlt 3 63 d a b, .cueSltu 3 63 d a b, .cueMul 3 63 d a b, .cueMulhu 3 63 d a b,
       .cueMin 3 63 d a b, .cueMax 3 63 d a b, .cueMinu 3 63 d a b, .cueMaxu 3 63 d a b]), CueOn y0 i :=
  cueOn_all rfl (by decide +kernel)

theorem witness_CueImmediates :
    ∀ i ∈ [(0, 0, 0), (63, 63, 16383)].flatMap (fun (d, a, n) =>
      [Instr.cueAddi 3 63 d a n, .cueAndi 3 63 d a n, .cueOri 3 63 d a n, .cueXori 3 63 d a n, .cueCat 3 63 d a n])
      ++ [.cueShi 3 63 0 0 0 0, .cueShi 3 63 63 63 1 63, .cueShi 3 63 1 1 2 63], CueOn y0 i :=
  cueOn_all rfl (by decide +kernel)

/-- A branch taken and one not taken, of each condition; the jumps. -/
theorem witness_CueControlFlow :
    (∀ i ∈ [Instr.cueBeq 3 63 1 1 0, .cueBeq 3 63 1 2 16383, .cueBne 3 63 1 2 0, .cueBne 3 63 1 1 16383, .cueBlt 3 63 2 1 0,
        .cueBlt 3 63 1 2 16383, .cueBge 3 63 1 2 0, .cueBge 3 63 2 1 16383, .cueBltu 3 63 1 2 0, .cueBltu 3 63 2 1 16383,
        .cueBgeu 3 63 2 1 0, .cueBgeu 3 63 1 2 16383, .cueJal 3 63 63 8191, .cueJalr 3 63 63 1 16383], CueOn y0 i)
    ∧ y0.s 1 = y0.s 1 ∧ ¬ y0.s 1 = y0.s 2 ∧ (y0.s 2).toInt < (y0.s 1).toInt ∧ (y0.s 1).toNat < (y0.s 2).toNat :=
  ⟨cueOn_all rfl (by decide +kernel), by decide +kernel⟩

/-- The first and the last doubleword of data memory. -/
theorem witness_CueLoadStore :
    (∀ i ∈ [Instr.cueLd 3 63 63 0 0, .cueLd 3 63 0 15 16376, .cueSt 3 63 63 0 0, .cueSt 3 63 0 15 16376], CueOn y0 i)
    ∧ dataFits (dataAddr y0 0 0) ∧ dataFits (dataAddr y0 15 16376) :=
  ⟨cueOn_all rfl (by decide +kernel), by unfold dataFits; decide +kernel⟩

/-- A flag set, a flag clear, and F255. -/
theorem witness_CueFlags :
    (∀ i ∈ [Instr.cueFset 3 63 0 0, .cueFset 3 63 1 250, .cueFclr 3 63 1 250, .cueFtest 3 63 63 1 4, .cueWaitf 3 63 1 4, .cueWaitf 3 63 1 5],
      CueOn y0 i)
    ∧ CueOn { y0 with flags := 2 ^ 255 } (.cueWaitf 3 63 1 5) ∧ y0.flags.getLsbD (flagOf y0 1 4) = true
    ∧ y0.flags.getLsbD (flagOf y0 1 5) = false ∧ y0.flags.getLsbD 255 = false ∧ (2 ^ 255 : BitVec 256).getLsbD 255 = true :=
  ⟨cueOn_all rfl (by decide +kernel), cueOn_of rfl (by decide +kernel), by decide +kernel⟩

/-- A stream queue with one operation, and a full one. -/
def y1 : Engine := { y0 with queue := [{ word := 0 }] }
def y16 : Engine := { y0 with queue := List.replicate 16 { word := 0 } }

theorem witness_CueSystem :
    (∀ i ∈ [Instr.cueNop 3 63, .cueSwait 3 63, .cueEnd 3 63, .cueRdtime 3 63 0, .cueRdtime 3 63 63], CueOn y0 i)
    ∧ (∀ i ∈ [Instr.cueSwait 3 63, .cueEnd 3 63], CueOn y1 i) ∧ y0.queue = [] ∧ y1.queue ≠ [] :=
  ⟨cueOn_all rfl (by decide +kernel), cueOn_all rfl (by decide +kernel), by decide +kernel⟩

theorem witness_CueVectorElements :
    ∀ i ∈ [(0, 0, 0, 0, 0), (31, 31, 31, 7, 3)].flatMap (fun (d, a, b, p, w) =>
      [Instr.cueVadd 3 63 d a b p w, .cueVsub 3 63 d a b p w, .cueVand 3 63 d a b p w, .cueVor 3 63 d a b p w, .cueVxor 3 63 d a b p w,
       .cueVmin 3 63 d a b p w, .cueVmax 3 63 d a b p w, .cueVminu 3 63 d a b p w, .cueVmaxu 3 63 d a b p w, .cueVmov 3 63 d a p w,
       .cueVsel 3 63 d a b p w]), CueOn y0 i :=
  cueOn_all rfl (by decide +kernel)

theorem witness_CuePredicates :
    ∀ i ∈ [(0, 0, 0, 0, 0), (7, 31, 31, 7, 3)].flatMap (fun (d, a, b, p, w) =>
      [Instr.cueVceq 3 63 d a b p w, .cueVclt 3 63 d a b p w, .cueVcltu 3 63 d a b p w, .cuePand 3 63 d p p, .cuePor 3 63 d p p,
       .cuePnot 3 63 d p]), CueOn y0 i :=
  cueOn_all rfl (by decide +kernel)

/-- The first and the last line of an allocation; the last element of each width. -/
theorem witness_CueVectorMoves :
    (∀ i ∈ [Instr.cueVld 3 63 0 0 0, .cueVld 3 63 31 12 16383, .cueVst 3 63 0 0 0, .cueVst 3 63 31 12 16383, .cueVsplat 3 63 31 63 3,
        .cueVext 3 63 63 31 63 0, .cueVext 3 63 63 31 7 3], CueOn y0 i)
    ∧ lineFits (imageOf (.cueVld 3 63 0 0 0)) (lineAddr y0 0 0) ∧ lineFits (imageOf (.cueVst 3 63 31 12 16383)) (lineAddr y0 12 16383)
    ∧ 63 < 512 / wBits 0 ∧ 7 < 512 / wBits 3 :=
  ⟨cueOn_all rfl (by decide +kernel), by unfold lineFits; decide +kernel⟩

/-- Arithmetic words in registers 16 (a sum of INT8 elements) and 17 (the greatest FP64 element). -/
def yAcc : Engine :=
  { y0 with sreg := y0.sreg ++ [(16, 0x843E2000), (17, 0x003E4000), (18, 0x3000000000000000)],
            acc := [(15, { word := 0x843E2000 })] }

/-- VACC into a clear register and into one of its class, its first and its last part; AOUT of one. -/
theorem witness_CueAccumulators :
    (∀ i ∈ [Instr.cueAclr 3 63 0, .cueAclr 3 63 15, .cueVacc 3 63 0 16 31 0 1, .cueVacc 3 63 15 16 31 0 1, .cueAout 3 63 31 15 18 0], CueOn yAcc i)
    ∧ VaccFits yAcc 0 16 0 1 ∧ VaccFits yAcc 15 16 0 1
    ∧ ∃ x c, yAcc.acc.find 15 = some x ∧ isMx (AWord.ofmt x.word) = false ∧ 0 < elemBits (AWord.ofmt x.word)
      ∧ (0 + 1) * perPart (AWord.ofmt x.word) ≤ accLanes (AWord.fmt x.word) ∧ AWord.op x.word < 5
      ∧ (imageOf (.cueAout 3 63 31 15 18 0)).chan ((yAcc.s 18).toNat / 2 ^ 60) = some c :=
  have fits (acc a) (h : vaccReg yAcc acc a = { word := vaccWordOf yAcc a }) (hw : vaccWord (vaccWordOf yAcc a) = true)
      (hp : (0 + 1) * perPart (AWord.fmt (vaccWordOf yAcc a)) ≤ accLanes (AWord.fmt (vaccWordOf yAcc a))) : VaccFits yAcc acc a 0 1 :=
    ⟨hw, hp, by rw [h], by rw [h], by rw [h], fun n _ => by rw [h]; exact (by decide : 0 + 1 < 2 ^ 40)⟩
  ⟨cueOn_all rfl (by decide +kernel), fits _ _ (by decide +kernel) (by decide +kernel) (by decide +kernel),
    fits _ _ (by decide +kernel) (by decide +kernel) (by decide +kernel), _, chanOf 3, rfl, by decide +kernel⟩

/-- Stream operands: 5 holds the address of a descriptor, 6 and 7 the last offset and a length of Bolt memory that end at its
bound, 14 the last byte of the allocation. -/
def yStream : Engine :=
  { y0 with sreg := [(5, 64), (6, 4032), (7, 64), (11, 131008), (14, 131071)],
            dmem := (List.range 64).map (fun j => (64 + j, wordAt j)) }
where wordAt (j : Nat) : Byte := descriptor.extractLsb' (504 - 8 * j) 8

/-- What a stream instruction on a channel is asked: room in the queue, a channel, and the ranges. -/
theorem witness_CueStreamIssue :
    (∀ i ∈ [Instr.cueOpen 3 63 0 5, .cueTakeRed 3 63 0 255 0, .cueTake 3 63 3 0 0, .cueReduceTile 3 63 0 255 14 14 0, .cueRoundTile 3 63 0 1 14 14 1,
        .cueGive 3 63 1 1 14 0, .cueGive 3 63 2 1 14 0, .cueExchange 3 63 0 1 1, .cueSyncCollect 3 63 0 1, .cueSyncArrive 3 63 2 1,
        .cueSyncRelease 3 63 1 1, .cueSyncAwait 3 63 3 1, .cueRetire 3 63 0 1 0, .cueRetire 3 63 0 1 5, .cueAbandon 3 63 3 1,
        .cueBoltFetch 3 63 1 11 6, .cueBoltStash 3 63 1 11 6], CueOn yStream i)
    ∧ roomy (cue yStream (.cueNop 3 63)) 3 63 ∧ StreamInstr 3 63 (.cueOpen 3 63 0 5) ∧ CueOn y16 (.cueOpen 3 63 0 5) ∧ 16 ≤ y16.queue.length
    ∧ (∀ n ∈ [0, 1, 2, 3], bound (imageOf (.cueNop 3 63)) n [n]) ∧ hostsTile (imageOf (.cueTake 3 63 3 0 0)) yStream 0
    ∧ tileRange (imageOf (.cueGive 3 63 1 1 14 0)) (yStream.s 14) (tileIn none)
    ∧ tileRange (imageOf (.cueBoltFetch 3 63 1 11 6)) (yStream.s 11) (yStream.s 7).toNat
    ∧ (imageOf (.cueBoltFetch 3 63 1 11 6)).boltOk (yStream.s 6).toNat (yStream.s 7).toNat = true
    ∧ (∀ i ∈ [Instr.cueOpen 3 63 0 5, .cueRetire 3 63 0 1 5], (imageOf i).chan 0 = some (chanOf 0)
      ∧ ((cue yStream i).d.readDesc (imageOf i) (chanOf 0) ((cue yStream i).d.engine 3 63) ((yStream.s 5).toNat)).isSome = true
      ∧ (cue yStream i).d.curDesc 3 7 (imageOf i) (chanOf 0) = none
      ∧ ((cue yStream i).d.bind 3 9 false 5).bind (openHosted (imageOf i) ((cue yStream i).d.engine 3 63)) = none) :=
  ⟨cueOn_all rfl (by decide +kernel), by unfold roomy; decide +kernel, .open_ .., cueOn_of rfl (by decide +kernel), by decide +kernel,
    fun n hn => ⟨chanOf n, by revert n; decide +kernel, by simp [chanOf]⟩, by unfold hostsTile; decide +kernel,
    by unfold tileRange; decide +kernel, by unfold tileRange; decide +kernel, by decide +kernel, by decide +kernel⟩

/-- Addresses just past the end or off their alignment. -/
theorem witness_CueTraps :
    (∀ i ∈ [Instr.cueBreak 3 63 2, .cueIllegal 3 63 0xFFFFFFFF, .cueLd 3 63 3 1 60, .cueLd 3 63 3 15 0, .cueSt 3 63 3 15 16377,
        .cueVld 3 63 3 12 0, .cueVst 3 63 3 1 0, .cueVext 3 63 3 1 8 3, .cueVext 3 63 3 1 63 3], CueOn y0 i)
    ∧ ¬ dataFits (dataAddr y0 1 60) ∧ ¬ dataFits (dataAddr y0 15 0) ∧ ¬ dataFits (dataAddr y0 15 16377)
    ∧ ¬ lineFits (imageOf (.cueVld 3 63 3 12 0)) (lineAddr y0 12 0) ∧ ¬ lineFits (imageOf (.cueVst 3 63 3 1 0)) (lineAddr y0 1 0)
    ∧ 512 / wBits 3 ≤ 8 ∧ 512 / wBits 3 ≤ 63 :=
  ⟨cueOn_all rfl (by decide +kernel), by unfold dataFits lineFits; decide +kernel⟩

/-- An OPEN at the front of a queue; an engine 3 instructions after the end of its sampling period. -/
def opened : StreamOp := { word := (cueEncode (.cueOpen 3 63 0 5)).getD 0, desc := some (descriptor, []) }
def yOpen : Engine := { yStream with queue := [opened] }
def sampled (rp : Nat) : State :=
  let s := cue { y0 with issued := 1003 } (.cueNop 3 63)
  st (((s.d.setFld F.CUE_SAMPLE_CTL_EN 3 1).setFld F.CUE_SAMPLE_CTL_PERIOD 3 0).setFld F.CNT_SMP_RP_PTR 0 rp)

theorem witness_CueEngineEvents :
    (let s := cue yOpen (.cueNop 3 63)
     s.d.site (17 + 3) = 1 ∧ (s.d.loom 3).images.find (s.d.engine 3 63).image = some (imageOf (.cueNop 3 63))
      ∧ (s.d.engine 3 63).queue = [opened] ∧ cueDecode 3 63 opened.word = .cueOpen 3 63 0 5 ∧ fieldAt opened.word 14 8 = 0
      ∧ (imageOf (.cueNop 3 63)).chan 0 = some (chanOf 0) ∧ s.d.bind 3 9 false 5 = some { prod := 9, ens := false, group := 5 })
    ∧ (∀ rp ∈ [0, 32], SampleDue (sampled rp) 3 63 1000 (imageOf (.cueNop 3 63)))
    ∧ ((sampled 0).d.fld F.CNT_SMP_WP_PTR 0 + 32) % 268435456 ≠ (sampled 0).d.fld F.CNT_SMP_RP_PTR 0
    ∧ ((sampled 32).d.fld F.CNT_SMP_WP_PTR 0 + 32) % 268435456 = (sampled 32).d.fld F.CNT_SMP_RP_PTR 0 :=
  ⟨by decide +kernel, by
    have h : ∀ rp ∈ [0, 32], (sampled rp).d.fld F.CUE_SAMPLE_CTL_EN 3 = 1 ∧ (sampled rp).d.fld F.CUE_SAMPLE_CTL_PROD_EN 3 ≠ 1
        ∧ ((sampled rp).d.engine 3 63).st = 1 ∧ ((sampled rp).d.loom 3).images.find ((sampled rp).d.engine 3 63).image = some (imageOf (.cueNop 3 63))
        ∧ (sampled rp).d.site (17 + 3) = 1 ∧ ranOut (sampled rp) 3 ((sampled rp).d.engine 3 63) = some 1000
        ∧ ((sampled rp).d.engine 3 63).issued ≤ 1000 + 3 := by decide +kernel
    intro rp hrp
    obtain ⟨a, b, c, d, e, f, g⟩ := h rp hrp
    exact ⟨a, fun x => absurd x b, .inl c, d, e, f, .inr g⟩, by decide +kernel⟩

/-! ## Well-formedness: for each check, an ill-formed command -/

def wf (i : Instr) : Bool := i.wf boot.nLanes boot.nWings

theorem test_wf_cue_scalar : wf (.cueAdd 3 67 63 63 63) = true ∧ wf (.cueAdd 4 67 63 63 63) = false ∧ wf (.cueAdd 3 68 63 63 63) = false ∧ wf (.cueAdd 3 67 64 63 63) = false ∧ wf (.cueAdd 3 67 63 64 63) = false ∧ wf (.cueAdd 3 67 63 63 64) = false := by decide +kernel
theorem test_wf_cue_immediates : wf (.cueShi 3 67 63 63 2 63) = true ∧ wf (.cueShi 3 67 63 63 3 63) = false ∧ wf (.cueShi 3 67 63 63 2 64) = false ∧ wf (.cueAddi 3 67 63 63 16384) = false ∧ wf (.cueWaitf 3 67 63 256) = false := by decide +kernel
theorem test_wf_cue_branches : wf (.cueJal 3 67 63 1048575) = true ∧ wf (.cueJal 3 67 63 1048576) = false ∧ wf (.cueBlt 3 67 63 63 16384) = false := by decide +kernel
theorem test_wf_cue_vector : wf (.cueVceq 3 67 7 31 31 7 3) = true ∧ wf (.cueVceq 3 67 8 31 31 7 3) = false ∧ wf (.cueVadd 3 67 32 31 31 7 3) = false ∧ wf (.cueVadd 3 67 31 32 31 7 3) = false ∧ wf (.cueVadd 3 67 31 31 32 7 3) = false ∧ wf (.cueVadd 3 67 31 31 31 8 3) = false ∧ wf (.cueVadd 3 67 31 31 31 7 4) = false ∧ wf (.cuePand 3 67 7 7 8) = false := by decide +kernel
theorem test_wf_cue_vector_memory : wf (.cueVext 3 67 63 31 63 3) = true ∧ wf (.cueVext 3 67 63 31 64 3) = false ∧ wf (.cueVld 3 67 31 63 16384) = false := by decide +kernel
theorem test_wf_cue_accumulator : wf (.cueVacc 3 67 15 63 31 3 7) = true ∧ wf (.cueVacc 3 67 16 63 31 3 7) = false ∧ wf (.cueVacc 3 67 15 63 31 4 7) = false ∧ wf (.cueVacc 3 67 15 63 31 3 8) = false := by decide +kernel
theorem test_wf_cue_stream : wf (.cueReduceTile 3 67 15 255 63 63 1) = true ∧ wf (.cueReduceTile 3 67 16 255 63 63 1) = false ∧ wf (.cueReduceTile 3 67 15 256 63 63 1) = false ∧ wf (.cueReduceTile 3 67 15 255 64 63 1) = false ∧ wf (.cueReduceTile 3 67 15 255 63 64 1) = false ∧ wf (.cueReduceTile 3 67 15 255 63 63 2) = false ∧ wf (.cueExchange 3 67 15 255 16) = false := by decide +kernel
theorem test_wf_cue_word : wf (.cueIllegal 3 67 4294967295) = true ∧ wf (.cueIllegal 3 67 4294967296) = false := by decide +kernel
theorem test_wf_sites : wf (.seamFlitArrival 20 0) = true ∧ wf (.seamFlitArrival 0 0) = false ∧ wf (.seamFlitArrival 21 0) = false ∧ wf (.dieRunning 0) = false ∧ wf (.dieRunning 25) = false := by decide +kernel
theorem test_wf_site_of_a_repair : wf (.sramRowRepair 17 5 1023) = true ∧ wf (.sramRowRepair 16 5 0) = false ∧ wf (.sramRowRepair 21 5 0) = false ∧ wf (.sramRowRepair 0 5 1024) = false := by decide +kernel
theorem test_wf_lane : wf (.lockLoss 1023) = true ∧ wf (.lockLoss 1024) = false := by decide +kernel
theorem test_wf_wing : wf (.trapSwitchDone 15) = true ∧ wf (.trapSwitchDone 16) = false := by decide +kernel
theorem test_wf_units_of_a_wing : wf (.rxPowerRefresh 15 64 0 0) = true ∧ wf (.rxPowerRefresh 15 65 0 0) = false ∧ wf (.heaterTelemetry 15 64 0) = false ∧ wf (.heaterRange 15 128 true) = false ∧ wf (.trapDark 15 16) = false ∧ wf (.laserTapFail 15 11) = false ∧ wf (.laserIdleOff 15 10) = false ∧ wf (.laserDrainCheck 15 8) = false := by decide +kernel
theorem test_wf_register_number : wf (.qrateWrite fm 1023 63 0) = true ∧ wf (.qrateWrite fm 1024 63 0) = false ∧ wf (.qrateWrite fm 1023 64 0) = false ∧ wf (.retrain fm 16 0 0) = false ∧ wf (.retrain fm 0 65 0) = false ∧ wf (.cntValWrite fm 1064 0 0) = false ∧ wf (.cntValWrite fm 0 64 0) = false ∧ wf (.fmRegister fm 5 0) = false ∧ wf (.tblEnsWrite fm 64 0 0) = false ∧ wf (.glbRhsWrite fm 16 0) = false := by decide +kernel
theorem test_wf_port_units : wf (.launchFire 1023 63) = true ∧ wf (.launchFire 1023 64) = false ∧ wf (.launchWindowExpiry 1023 8) = false := by decide +kernel
theorem test_wf_house_port : wf (.housePortLockChange 1 true) = true ∧ wf (.housePortLockChange 2 true) = false := by decide +kernel
theorem test_wf_loom_units : wf (.engineRestart 3 255) = true ∧ wf (.engineRestart 3 256) = false ∧ wf (.loomPllUnlock 4) = false ∧ wf (.stackPllUnlock 4) = false ∧ wf (.replicaMeasure ⟨1024, [1, 2, 3, 4, 5]⟩ 0) = false := by decide +kernel
theorem test_wf_macro : wf (.wrdMacroWithdraw ⟨255, []⟩) = true ∧ wf (.wrdMacroWithdraw ⟨256, []⟩) = false ∧ wf (.rehearsalInject 16) = false := by decide +kernel

/-! ## Decoding: words written out from the spec's encodings, one of each group -/

/-- The eight words that R193 lists. -/
theorem test_decode_listing : (List.map (cueDecode 3 67) [0x08A04000, 0xC4820028, 0x28003008, 0xD0825550, 0x28003009, 0xD4C29528, 0x04A28200, 0x48A2FFFA])
    = [.cueAddi 3 67 10 1 0, .cueTakeRed 3 67 2 8 10, .cueWaitf 3 67 0 8, .cueRoundTile 3 67 2 9 21 20 0, .cueWaitf 3 67 0 9,
       .cueGive 3 67 3 10 21 10, .cueAdd 3 67 10 10 2, .cueBlt 3 67 10 11 0x3FFA] := by decide +kernel
theorem test_decode_scalar : (List.map (cueDecode 3 67) [5 * 2 ^ 14 + 2, 1 * 2 ^ 26 + 1 * 2 ^ 20 + 2 * 2 ^ 14 + 3 * 2 ^ 8 + 9,
      6 * 2 ^ 26 + 1 * 2 ^ 20 + 2 * 2 ^ 14 + 2 * 2 ^ 12 + 7, 8 * 2 ^ 26 + 4 * 2 ^ 20 + 5 * 2 ^ 14 + 0x3FF8,
      10 * 2 ^ 26 + 4 * 2 ^ 20 + 5 * 2 ^ 14 + 2 * 2 ^ 12 + 9, 0x16 * 2 ^ 26 + 1 * 2 ^ 20 + 0xFFFFF])
    = [.cueBreak 3 67 5, .cueSltu 3 67 1 2 3, .cueShi 3 67 1 2 2 7, .cueLd 3 67 4 5 0x3FF8, .cueFtest 3 67 4 5 9, .cueJal 3 67 1 0xFFFFF] := by decide +kernel
theorem test_decode_vector : (List.map (cueDecode 3 67) [0x20 * 2 ^ 26 + 1 * 2 ^ 21 + 2 * 2 ^ 16 + 3 * 2 ^ 11 + 4 * 2 ^ 8 + 2 * 2 ^ 6,
      0x20 * 2 ^ 26 + 1 * 2 ^ 21 + 2 * 2 ^ 16 + 3 * 2 ^ 11 + 4 * 2 ^ 8 + 3 * 2 ^ 6 + 11, 0x20 * 2 ^ 26 + 1 * 2 ^ 21 + 2 * 2 ^ 16 + 16,
      0x21 * 2 ^ 26 + 9 * 2 ^ 20 + 5 * 2 ^ 14 + 3, 0x24 * 2 ^ 26 + 4 * 2 ^ 20 + 9 * 2 ^ 14 + 1 * 2 ^ 8 + 6])
    = [.cueVadd 3 67 1 2 3 4 2, .cueVclt 3 67 1 2 3 4 3, .cuePnot 3 67 1 2, .cueVld 3 67 9 5 3, .cueVext 3 67 4 9 6 1] := by decide +kernel
theorem test_decode_accumulator_and_stream : (List.map (cueDecode 3 67) [0x28 * 2 ^ 26 + 3 * 2 ^ 20 + 4 * 2 ^ 14 + 5 * 2 ^ 8 + 1 * 2 ^ 6 + 2 * 2 ^ 4 + 3,
      0x28 * 2 ^ 26 + 7 * 2 ^ 20 + 3 * 2 ^ 14 + 5 * 2 ^ 8 + 2 * 2 ^ 6 + 1 * 2 ^ 4, 0x37 * 2 ^ 26 + 2 * 2 ^ 22 + 8 * 2 ^ 14 + 3,
      0x3A * 2 ^ 26 + 8 * 2 ^ 14 + 1 * 2 ^ 8 + 2 * 2 ^ 2 + 1])
    = [.cueVacc 3 67 3 4 5 2 3, .cueAout 3 67 7 3 5 1, .cueSyncAwait 3 67 2 8, .cueBoltStash 3 67 8 1 2] := by decide +kernel
/-- A reserved major opcode, a reserved shift, a vector field with its top bit set, and func[3] of the ACC group set (R180). -/
theorem test_decode_reserved : ∀ w ∈ [0x0B * 2 ^ 26, 6 * 2 ^ 26 + 3 * 2 ^ 12, 0x21 * 2 ^ 26 + 32 * 2 ^ 20, 0x28 * 2 ^ 26 + 8],
    cueDecode 3 67 w = .cueIllegal 3 67 w := by decide +kernel

/-- The device after start-up, but in a power state and a phase of the start-up. -/
def phaseOf (p : PowerState) (n : Nat) : State := dv fun d => { d.setFld F.GLB_START_PHASE 0 n with power := p }

/-- A case of each clause of PowerCommands. -/
theorem witness_PowerCommands :
    (bst.d.power ≠ PowerState.off)
    ∧ ((phaseOf .standby 0).d.power = PowerState.standby) ∧ ((phaseOf .standby 0).d.tripped = false)
    ∧ (Powered bst)
    ∧ (Powered bst) ∧ (bst.d.pwrOk = true)
    ∧ ((phaseOf .shutdown 0).d.power = PowerState.shutdown)
    ∧ ((phaseOf .off 0).d.power = PowerState.off) := by
  repeat' first
    | decide +kernel
    | apply And.intro
    | (unfold Powered; decide +kernel)

/-- Cases of clauses of StartUpSteps. -/
theorem witness_StartUpSteps_1 :
    (AtPhase (phaseOf .starting 0) PowerState.starting 0) ∧ ((phaseOf .starting 0).d.tmu.refOk = true) ∧ ((phaseOf .starting 0).d.fuse.straps.head? =
          some (0, 3))
    ∧ (AtPhase (phaseOf .starting 1) PowerState.starting 1)
    ∧ (AtPhase (dv fun d => { (d.setFld F.GLB_START_PHASE 0 2).setFld F.SEC_STATE_SECURITY 0 0 with power := .starting, prompter := false })
          PowerState.starting 2) ∧ ((dv fun d => { (d.setFld F.GLB_START_PHASE 0 2).setFld F.SEC_STATE_SECURITY 0 0 with power := .starting, prompter := false }).d.prompter
          = false) ∧ ((dv fun d => { (d.setFld F.GLB_START_PHASE 0 2).setFld F.SEC_STATE_SECURITY 0 0 with power := .starting, prompter := false }).d.fld
          F.SEC_STATE_SECURITY 0 = 0)
    ∧ (AtPhase (phaseOf .starting 2) PowerState.starting 2) ∧ ((phaseOf .starting 2).d.prompter = true)
    ∧ (AtPhase (phaseOf .starting 3) PowerState.starting 3)
    ∧ (AtPhase (phaseOf .starting 4) PowerState.starting 4)
    ∧ (AtPhase (phaseOf .starting 5) PowerState.starting 5)
    ∧ (AtPhase (phaseOf .running 5) PowerState.running 5) := by
  repeat' first
    | decide +kernel
    | apply And.intro

/-- Cases of clauses of StartUpSteps. -/
theorem witness_StartUpSteps_2 :
    (AtPhase (phaseOf .running 6) PowerState.running 6) := by
  repeat' first
    | decide +kernel
    | apply And.intro




/-- A site in reset whose width has run, its seam link in a state with all its bundles. -/
def seamAt (site n : Nat) : State := dv fun d =>
  { ((d.setSite site 2).setFld F.GLB_SEAM_STAT_STATE site n).setFld F.GLB_SEAM_STAT_BUNDLES_UP site (bundlesOf site) with widthDone := [site] }

/-- Cases of clauses of SeamLinks. -/
theorem witness_SeamLinks_1 :
    (Trains (seamAt 16 0) 16)
    ∧ (Trains (seamAt 17 0) 17)
    ∧ (SeamLive bst 16) ∧ (bst.d.tmu.refOk = true)
    ∧ (SeamLive bst 19) ∧ (bst.d.tmu.refOk = true)
    ∧ (1 ≤ 20) ∧ (20 ≤ 20) ∧ (¬SeamLive bst 20) ∧ (bst.d.tmu.refOk = true)
    ∧ (SeamLive (dv fun d => d.setSeam 16 { run := 8 }) 16) ∧ (((dv fun d => d.setSeam 16 { run := 8 }).d.seam 16).run ≥ 8
        ∨ ((dv fun d => d.setSeam 16 { run := 8 }).d.seam 16).asked ≥ 8 ∨ ((dv fun d => d.setSeam 16 { run := 8 }).d.seam 16).bad.length > 64
        ∨ ((dv fun d => d.setSeam 16 { run := 8 }).d.seam 16).farBad.length > 64)
    ∧ (SeamLive (dv fun d => d.setSeam 19 { bad := List.replicate 65 0 }) 19) ∧ (((dv fun d => d.setSeam 19 { bad := List.replicate 65 0 }).d.seam
          19).run ≥ 8 ∨ ((dv fun d => d.setSeam 19 { bad := List.replicate 65 0 }).d.seam 19).asked ≥ 8 ∨ ((dv fun d => d.setSeam 19 { bad := List.replicate 65 0 }).d.seam
          19).bad.length > 64 ∨ ((dv fun d => d.setSeam 19 { bad := List.replicate 65 0 }).d.seam 19).farBad.length > 64)
    ∧ (1 ≤ 16) ∧ (16 ≤ 20) ∧ ((seamAt 16 3).d.tmu.refOk = true) ∧ ((seamAt 16 3).d.fld F.GLB_SEAM_STAT_STATE 16 = 3)
        ∧ ((seamAt 16 3).d.fld F.GLB_SEAM_STAT_BUNDLES_UP 16 = bundlesOf 16) := by
  repeat' first
    | decide +kernel
    | apply And.intro
    | (unfold SeamLive; decide +kernel)
    | apply Trains.mk

/-- Cases of clauses of SeamLinks. -/
theorem witness_SeamLinks_2 :
    (1 ≤ 20) ∧ (20 ≤ 20) ∧ ((seamAt 20 3).d.tmu.refOk = true) ∧ ((seamAt 20 3).d.fld F.GLB_SEAM_STAT_STATE 20 = 3)
        ∧ ((seamAt 20 3).d.fld F.GLB_SEAM_STAT_BUNDLES_UP 20 = bundlesOf 20)
    ∧ (1 ≤ 16) ∧ (16 ≤ 20) ∧ ((seamAt 16 3).d.tmu.refOk = true) ∧ ((seamAt 16 3).d.fld F.GLB_SEAM_STAT_STATE 16 = 3)
        ∧ ((seamAt 16 3).d.fld F.GLB_SEAM_STAT_BUNDLES_UP 16 = bundlesOf 16) ∧ (35 < bundlesOf 16) ∧ (35 ∉ ((seamAt 16 3).d.seam 16).out)
        ∧ ((seamAt 16 3).d.overlay.length < 1024) ∧ (35 ∉ (seamAt 16 3).d.understudies 16)
    ∧ (1 ≤ 20) ∧ (20 ≤ 20) ∧ ((seamAt 20 3).d.tmu.refOk = true) ∧ ((seamAt 20 3).d.fld F.GLB_SEAM_STAT_STATE 20 = 3)
        ∧ ((seamAt 20 3).d.fld F.GLB_SEAM_STAT_BUNDLES_UP 20 = bundlesOf 20) ∧ (127 < bundlesOf 20) ∧ (127 ∉ ((seamAt 20 3).d.seam 20).out)
        ∧ ((seamAt 20 3).d.overlay.length < 1024) ∧ (127 ∉ (seamAt 20 3).d.understudies 20)
    ∧ (1 ≤ 16) ∧ (16 ≤ 20) ∧ ((onDv (fun d => { d with overlay := [⟨2, 16, 35, 0, 0⟩] }) (seamAt 16 3)).d.tmu.refOk = true)
        ∧ ((onDv (fun d => { d with overlay := [⟨2, 16, 35, 0, 0⟩] }) (seamAt 16 3)).d.fld F.GLB_SEAM_STAT_STATE 16 = 3)
        ∧ ((onDv (fun d => { d with overlay := [⟨2, 16, 35, 0, 0⟩] }) (seamAt 16 3)).d.fld F.GLB_SEAM_STAT_BUNDLES_UP 16 = bundlesOf 16)
        ∧ (35 < bundlesOf 16) ∧ (35 ∉ ((onDv (fun d => { d with overlay := [⟨2, 16, 35, 0, 0⟩] }) (seamAt 16 3)).d.seam 16).out)
        ∧ ((onDv (fun d => { d with overlay := [⟨2, 16, 35, 0, 0⟩] }) (seamAt 16 3)).d.overlay.length < 1024)
        ∧ (35 ∈ (onDv (fun d => { d with overlay := [⟨2, 16, 35, 0, 0⟩] }) (seamAt 16 3)).d.understudies 16)
    ∧ (1 ≤ 16) ∧ (16 ≤ 20) ∧ ((seamAt 16 3).d.tmu.refOk = true) ∧ ((seamAt 16 3).d.fld F.GLB_SEAM_STAT_STATE 16 = 3)
        ∧ ((seamAt 16 3).d.fld F.GLB_SEAM_STAT_BUNDLES_UP 16 = bundlesOf 16) ∧ (35 < bundlesOf 16) ∧ (35 ∉ ((seamAt 16 3).d.seam 16).out)
        ∧ ((seamAt 16 3).d.overlay.length < 1024) := by
  repeat' first
    | decide +kernel

/-- A case of each clause of ReferenceCommands. -/
theorem witness_ReferenceCommands :
    ((dv fun d => ((d.setFld F.GLB_REF_CTL_DISCIPLINE_EN 0 1).setFld F.GLB_REF_CTL_LANE 0 1023).setFld F.PRT_LINK_STAT_STATE 1023 3 |>.setFld
          F.PRT_LINK_CTL_TYPE 1023 1).d.fld F.GLB_REF_CTL_DISCIPLINE_EN 0 = 1) ∧ ((dv fun d => ((d.setFld F.GLB_REF_CTL_DISCIPLINE_EN 0 1).setFld
          F.GLB_REF_CTL_LANE 0 1023).setFld F.PRT_LINK_STAT_STATE 1023 3 |>.setFld F.PRT_LINK_CTL_TYPE 1023 1).d.ltype ((dv fun d => ((d.setFld
          F.GLB_REF_CTL_DISCIPLINE_EN 0 1).setFld F.GLB_REF_CTL_LANE 0 1023).setFld F.PRT_LINK_STAT_STATE 1023 3 |>.setFld F.PRT_LINK_CTL_TYPE 1023
          1).d.fld F.GLB_REF_CTL_LANE 0) = 1) ∧ ((dv fun d => ((d.setFld F.GLB_REF_CTL_DISCIPLINE_EN 0 1).setFld F.GLB_REF_CTL_LANE 0 1023).setFld
          F.PRT_LINK_STAT_STATE 1023 3 |>.setFld F.PRT_LINK_CTL_TYPE 1023 1).d.lstate ((dv fun d => ((d.setFld F.GLB_REF_CTL_DISCIPLINE_EN 0 1).setFld
          F.GLB_REF_CTL_LANE 0 1023).setFld F.PRT_LINK_STAT_STATE 1023 3 |>.setFld F.PRT_LINK_CTL_TYPE 1023 1).d.fld F.GLB_REF_CTL_LANE 0) = 3)
    ∧ (bst.d.tmu.refOk = true) ∧ (Powered bst)
    ∧ ((dv fun d => { d with tmu := { d.tmu with refOk := false } }).d.tmu.refOk = false) ∧ (Powered (dv fun d => { d with tmu := { d.tmu with refOk := false } }))
    ∧ (bst.d.fld F.TMU_STAT_LOCKED 0 = 1)
    ∧ (bst.d.tmu.refOk = true) ∧ (2 ≤ bst.d.fld F.GLB_START_PHASE 0) := by
  repeat' first
    | decide +kernel
    | apply And.intro
    | (unfold Powered; decide +kernel)

/-- Cases of clauses of ResetCommands. -/
theorem witness_ResetCommands_1 :
    (Reaches bst fm RF.GLB_RESET_CTL 0 (BitVec.ofNat 64 (2 ^ 63)))
    ∧ (Reaches bst fm RF.GLB_RESET_CTL 0 (setBits (0xFFFFFF : Word) 63 63 0))
    ∧ (Reaches bst fm RF.GLB_RESET_CTL 0 (setBits (setBits (0xFFFFFF : Word) 63 63 0) 24 1 0))
    ∧ (1 ≤ 24) ∧ (24 < 25) ∧ ((seamAt 24 2).d.site 24 = 2)
    ∧ (1 ≤ 20) ∧ (20 < 25) ∧ ((seamAt 20 2).d.site 20 = 2) ∧ (20 ∈ (seamAt 20 2).d.widthDone) ∧ ((seamAt 20 2).d.dieHeld 20 = false)
        ∧ (3 ≤ (seamAt 20 2).d.fld F.GLB_START_PHASE 0) ∧ (20 ≤ 20 → SeamLive (seamAt 20 2) 20) ∧ (17 ≤ 20 → 20 ≤ 20
        → (seamAt 20 2).d.fld F.GLB_START_PHASE 0 < 6 ∨ (seamAt 20 2).d.sec.loomFw = true)
    ∧ (1 ≤ 21) ∧ (21 < 25) ∧ ((seamAt 21 2).d.site 21 = 2) ∧ (21 ∈ (seamAt 21 2).d.widthDone) ∧ ((seamAt 21 2).d.dieHeld 21 = false)
        ∧ (3 ≤ (seamAt 21 2).d.fld F.GLB_START_PHASE 0) ∧ (21 ≤ 20 → SeamLive (seamAt 21 2) 21) ∧ (17 ≤ 21 → 21 ≤ 20
        → (seamAt 21 2).d.fld F.GLB_START_PHASE 0 < 6 ∨ (seamAt 21 2).d.sec.loomFw = true)
    ∧ (15 < bst.d.nWings) ∧ (bst.d.site (15 + 1) = 1)
    ∧ (3 < 4) ∧ (bst.d.site (17 + 3) = 1) := by
  repeat' first
    | decide +kernel
    | apply And.intro
    | (unfold SeamLive; decide +kernel)
    | apply Reaches.mk

/-- Cases of clauses of ResetCommands. -/
theorem witness_ResetCommands_2 :
    (3 < 4) ∧ (bst.d.site (21 + 3) = 1)
    ∧ (3 < 4) ∧ ((dv fun d => { d with rebuilding := [3] }).memOk) ∧ (3 ∈ (dv fun d => { d with rebuilding := [3] }).d.rebuilding) := by
  repeat' first
    | decide +kernel
    | apply And.intro
    | (unfold State.memOk; decide +kernel)

/-- A flit with a good CRC, from its type, VL, RSEQ and payload; the payload of a head from its OPC, LEN and DETOUR. -/
def flit (ty vl rseq pl : Nat) : Flit := sealFlit (ty * 2 ^ 494 + vl * 2 ^ 491 + rseq * 2 ^ 480 + pl % 2 ^ 480)
def head (opc len : Nat) (det : Bool := false) : Nat := (mkHdr 0x00200000 0x00300001 9 1 opc len 0).toNat * 2 ^ 352 + (if det then 2 ^ 351 else 0)

/-- Native lane 5 with credit for 20 cells on each VL, and credit for 10 detoured. -/
def credited (s : State) : State := onDv (fun d => (List.range 8).foldl (fun d v => d.setLv (40 + v) { d.lv (40 + v) with nGrant := 80, dGrant := 40 }) d) s
def trained : State := credited (link 5 1 3 bst)
def border : State := link 70 2 3 bst

/-- A case of each clause of ReplayRequest. -/
theorem witness_ReplayRequest :
    (LinkTakes trained 5) ∧ (Calm trained) ∧ (¬((crcGood (flit 1 2 3 (head 2 3)) = true ∨ isStomp (flit 1 2 3 (head 2 3)) = true)
        ∧ fcwRseq (flit 1 2 3 (head 2 3)) = (trained.d.lane 5).rxNext)) ∧ (fcwType (flit 1 2 3 (head 2 3)) = 1)
    ∧ (LinkTakes trained 5) ∧ (Calm trained) ∧ (¬((crcGood (flit 1 2 0 (head 2 3) ^^^ 1) = true ∨ isStomp (flit 1 2 0 (head 2 3) ^^^ 1) = true)
        ∧ fcwRseq (flit 1 2 0 (head 2 3) ^^^ 1) = (trained.d.lane 5).rxNext)) ∧ (fcwType (flit 1 2 0 (head 2 3) ^^^ 1) = 1)
    ∧ (LinkTakes trained 5) ∧ (Calm trained) ∧ (¬((crcGood (flit 2 7 2047 5) = true ∨ isStomp (flit 2 7 2047 5) = true)
        ∧ fcwRseq (flit 2 7 2047 5) = (trained.d.lane 5).rxNext)) ∧ (2 ≤ fcwType (flit 2 7 2047 5))
    ∧ (LinkTakes trained 5) ∧ (Calm trained) ∧ (¬((crcGood (flit 3 7 0 5 ^^^ 8) = true ∨ isStomp (flit 3 7 0 5 ^^^ 8) = true)
        ∧ fcwRseq (flit 3 7 0 5 ^^^ 8) = (trained.d.lane 5).rxNext)) ∧ (2 ≤ fcwType (flit 3 7 0 5 ^^^ 8)) := by
  repeat' first
    | decide +kernel
    | apply And.intro
    | apply LinkTakes.mk

/-- A packet of some words of which lane 5 has received 2. -/
def arriving (n : Nat) : Pkt := { packet 2 2 (.queue 9 16) with hdr := mkHdr 0x00002001 0x00300001 9 1 2 n 3, body := [7], whole := false }
def receiving (n : Nat) : State := onDv (fun d => d.setLane 5 { d.lane 5 with rxLow := some 4 }) (holding [arriving n] trained)

/-- Cases of clauses of FlitCommands. -/
theorem witness_FlitCommands_1 :
    (LinkTakes trained 5) ∧ (Calm trained) ∧ (fcwType (flit 1 2 0 (head 2 69)) = 1) ∧ (NextGood trained 5 (flit 1 2 0 (head 2 69)))
        ∧ (Routable (flit 1 2 0 (head 2 69))) ∧ (¬OnDetour trained 5 (flit 1 2 0 (head 2 69))) ∧ (headCredit (flit 1 2 0 (head 2 69)) ≤ ((trained.d.lv
          (8 * 5 + fcwVl (flit 1 2 0 (head 2 69)))).nGrant + 2 ^ 24 - (trained.d.lv (8 * 5 + fcwVl (flit 1 2 0 (head 2 69)))).nRx) % 2 ^ 24)
    ∧ (LinkTakes trained 5) ∧ (Calm trained) ∧ (fcwType (flit 1 7 0 (head 2 69 true)) = 1) ∧ (NextGood trained 5 (flit 1 7 0 (head 2 69 true)))
        ∧ (Routable (flit 1 7 0 (head 2 69 true))) ∧ (¬OnDetour trained 5 (flit 1 7 0 (head 2 69 true))) ∧ (headCredit (flit 1 7 0 (head 2 69 true)) ≤
          ((trained.d.lv (8 * 5 + fcwVl (flit 1 7 0 (head 2 69 true)))).nGrant + 2 ^ 24 - (trained.d.lv (8 * 5 + fcwVl (flit 1 7 0 (head 2 69
          true)))).nRx) % 2 ^ 24)
    ∧ (LinkTakes trained 5) ∧ (Calm trained) ∧ (fcwType (flit 1 1 0 (head 2 39 true)) = 1) ∧ (NextGood trained 5 (flit 1 1 0 (head 2 39 true)))
        ∧ (Routable (flit 1 1 0 (head 2 39 true))) ∧ (OnDetour trained 5 (flit 1 1 0 (head 2 39 true))) ∧ (headCredit (flit 1 1 0 (head 2 39 true)) ≤
          ((trained.d.lv (8 * 5 + fcwVl (flit 1 1 0 (head 2 39 true)))).dGrant + 2 ^ 24 - (trained.d.lv (8 * 5 + fcwVl (flit 1 1 0 (head 2 39
          true)))).dRx) % 2 ^ 24)
    ∧ (LinkTakes trained 5) ∧ (Calm trained) ∧ (fcwType (flit 1 6 0 (head 2 39 true)) = 1) ∧ (NextGood trained 5 (flit 1 6 0 (head 2 39 true)))
        ∧ (Routable (flit 1 6 0 (head 2 39 true))) ∧ (OnDetour trained 5 (flit 1 6 0 (head 2 39 true))) ∧ (headCredit (flit 1 6 0 (head 2 39 true)) ≤
          ((trained.d.lv (8 * 5 + fcwVl (flit 1 6 0 (head 2 39 true)))).dGrant + 2 ^ 24 - (trained.d.lv (8 * 5 + fcwVl (flit 1 6 0 (head 2 39
          true)))).dRx) % 2 ^ 24)
    ∧ (LinkTakes (link 5 1 3 bst) 5) ∧ (Calm (link 5 1 3 bst)) ∧ (fcwType (flit 1 2 0 (head 2 0)) = 1) ∧ (NextGood (link 5 1 3 bst) 5 (flit 1 2 0
          (head 2 0))) ∧ (Routable (flit 1 2 0 (head 2 0))) ∧ (¬OnDetour (link 5 1 3 bst) 5 (flit 1 2 0 (head 2 0)))
        ∧ ((((link 5 1 3 bst).d.lv (8 * 5 + fcwVl (flit 1 2 0 (head 2 0)))).nGrant + 2 ^ 24 - ((link 5 1 3 bst).d.lv (8 * 5 + fcwVl (flit 1 2 0 (head
          2 0)))).nRx) % 2 ^ 24 < headCredit (flit 1 2 0 (head 2 0))) ∧ (3 ≤ (link 5 1 3 bst).d.lstate 5)
    ∧ (LinkTakes trained 5) ∧ (Calm trained) ∧ (fcwType (flit 1 2 0 (head 2 80)) = 1) ∧ (NextGood trained 5 (flit 1 2 0 (head 2 80)))
        ∧ (Routable (flit 1 2 0 (head 2 80))) ∧ (¬OnDetour trained 5 (flit 1 2 0 (head 2 80))) ∧ (((trained.d.lv (8 * 5 + fcwVl (flit 1 2 0 (head 2
          80)))).nGrant + 2 ^ 24 - (trained.d.lv (8 * 5 + fcwVl (flit 1 2 0 (head 2 80)))).nRx) % 2 ^ 24 < headCredit (flit 1 2 0 (head 2 80)))
        ∧ (3 ≤ trained.d.lstate 5)
    ∧ (LinkTakes trained 5) ∧ (Calm trained) ∧ (fcwType (flit 1 0 0 (head 0x70 70)) = 1) ∧ (NextGood trained 5 (flit 1 0 0 (head 0x70 70)))
        ∧ (¬Routable (flit 1 0 0 (head 0x70 70))) ∧ ((trained.d.lane 5).rxLow = none) ∧ (69 < headLen (flit 1 0 0 (head 0x70 70)))
    ∧ (LinkTakes trained 5) ∧ (Calm trained) ∧ (fcwType (flit 1 0 0 (head 0x71 69)) = 1) ∧ (NextGood trained 5 (flit 1 0 0 (head 0x71 69)))
        ∧ (¬Routable (flit 1 0 0 (head 0x71 69))) ∧ ((trained.d.lane 5).rxLow = none) ∧ (headLen (flit 1 0 0 (head 0x71 69)) ≤ 69) := by
  repeat' first
    | decide +kernel
    | apply And.intro
    | (unfold Routable; decide +kernel)
    | (unfold OnDetour; decide +kernel)
    | apply LinkTakes.mk

/-- Cases of clauses of FlitCommands. -/
theorem witness_FlitCommands_2 :
    (LinkTakes (receiving 3) 5) ∧ (Calm (receiving 3)) ∧ (2 ≤ fcwType (flit 2 2 0 777)) ∧ (NextGood (receiving 3) 5 (flit 2 2 0 777))
        ∧ (if fcwVl (flit 2 2 0 777) = 7 then ((receiving 3).d.lane 5).rxHigh = some 4 ∧ ((receiving 3).d.lane 5).dropHigh = false else ((receiving
          3).d.lane 5).rxLow = some 4 ∧ ((receiving 3).d.lane 5).dropLow = false) ∧ ((receiving 3).d.pkt 4 = some (arriving 3))
        ∧ ((arriving 3).place ≠ Place.drain) ∧ ((arriving 3).vlIn = fcwVl (flit 2 2 0 777)) ∧ ((arriving 3).body.length + 1 = (arriving 3).len ↔
          fcwType (flit 2 2 0 777) = 3)
    ∧ (LinkTakes (receiving 2) 5) ∧ (Calm (receiving 2)) ∧ (2 ≤ fcwType (flit 3 2 0 777)) ∧ (NextGood (receiving 2) 5 (flit 3 2 0 777))
        ∧ (if fcwVl (flit 3 2 0 777) = 7 then ((receiving 2).d.lane 5).rxHigh = some 4 ∧ ((receiving 2).d.lane 5).dropHigh = false else ((receiving
          2).d.lane 5).rxLow = some 4 ∧ ((receiving 2).d.lane 5).dropLow = false) ∧ ((receiving 2).d.pkt 4 = some (arriving 2))
        ∧ ((arriving 2).place ≠ Place.drain) ∧ ((arriving 2).vlIn = fcwVl (flit 3 2 0 777)) ∧ ((arriving 2).body.length + 1 = (arriving 2).len ↔
          fcwType (flit 3 2 0 777) = 3)
    ∧ (LinkTakes trained 5) ∧ (Calm trained) ∧ (fcwType (flit 0 0 0 0) = 0) ∧ (crcGood (flit 0 0 0 0) = true) ∧ (bitOf (flit 0 0 0 0) 494 = false)
    ∧ (LinkTakes trained 5) ∧ (Calm trained) ∧ ((trained.d.lane 5).muted = false) ∧ ((trained.d.lane 5).txLow = none)
        ∧ ((trained.d.lane 5).txHigh = none) := by
  repeat' first
    | decide +kernel
    | apply And.intro
    | apply LinkTakes.mk

/-- A SPRAY set with a bond of lanes 70 and 71, which lead to a peer with credit; and a packet that waits at ingress for one of them. -/
def spray : State :=
  let two (f : Dev → Nat → Dev) (s : State) : State := onDv (fun d => [70, 71].foldl f d) s
  onDv (fun d => withEnt d 2 12 (BitVec.ofNat 512 ((2 ^ 15 + 2 ^ 11 + 70) * 2 ^ 496)))
    (two (fun d l => (((d.setLane l { d.lane l with peerServing := true }).setFld F.PRT_PEER_CA l 0x20).setFld F.PRT_PEER_LEVEL l 3).setLv (8 * l + 2)
      { d.lv (8 * l + 2) with nTot := 100, dTot := 100 }) (link 71 1 3 (link 70 1 3 bst)))
def retried : Pkt := { packet 2 2 .ingress with rw := 0x45000000, route := some (.set 6 false) }
def routed : State := onDv (fun d => { d with net := { d.net with bufs := [(3, ⟨42, .reserve, 1, some 9, false, 1⟩)] } }) (holding [retried] spray)

/-- A packet open on lane 70, in the timed slot or the other, whose end has not come. -/
def blocked (timed : Bool) : Pkt := { packet 2 (if timed then 7 else 2) (.queue 70 20) with body := [7], whole := false, sent := 2 }
def openFlits (timed : Bool) : State := onDv (fun d => d.setLane 70 (if timed then { d.lane 70 with txHigh := some 4 } else { d.lane 70 with txLow := some 4 }))
  (holding [blocked timed] (link 70 0 3 bst))

/-- A resequencing context, and a packet that its queue holds. -/
def ctx2 (learning gap : Bool) : Ctx :=
  { src := 0x00300001, dst := 0x00002001, vl := 2, pv := true, lane := 70, next := 10, learning := learning, gapOn := gap, arr := 3, hold := none }
def held : Pkt := { packet 2 2 (.held 70 20) with rw := 0x43000000, rsqNo := 13, numbered := true }
def context (learning gap : Bool) (ps : List Pkt) : State := onDv (fun d => d.setCtxs [ctx2 learning gap]) (holding ps (link 70 0 3 bst))

/-- A case of each clause of PacketTimers. -/
theorem witness_PacketTimers :
    (Calm routed) ∧ (routed.d.net.pkts = [retried]) ∧ (retried.place = Place.ingress) ∧ (retried.buf ≠ 0) ∧ (retried.internal = false)
        ∧ (retried.psnValid = true ∨ retried.takesPsn = false ∨ 1 < 2) ∧ (retried.route = some (Route.set 6 false))
        ∧ (routed.d.collWaits retried = false) ∧ (routed.d.ltype 71 = 1) ∧ (∃ d2, routed.d.select retried 6 false = (.lane 71 1, d2))
    ∧ (Calm (openFlits false)) ∧ (70 < (openFlits false).d.nLanes) ∧ (if false = true then ((openFlits false).d.lane 70).txHigh = some (blocked
          false).id else ((openFlits false).d.lane 70).txLow = some (blocked false).id) ∧ ((openFlits false).d.pkt (blocked false).id = some (blocked
          false)) ∧ ((blocked false).place = Place.queue 70 20) ∧ ((blocked false).vl ≠ 1) ∧ ((blocked false).nextHere = false)
    ∧ (Calm (openFlits true)) ∧ (70 < (openFlits true).d.nLanes) ∧ (if true = true then ((openFlits true).d.lane 70).txHigh = some (blocked true).id
          else ((openFlits true).d.lane 70).txLow = some (blocked true).id) ∧ ((openFlits true).d.pkt (blocked true).id = some (blocked true))
        ∧ ((blocked true).place = Place.queue 70 20) ∧ ((blocked true).vl ≠ 1) ∧ ((blocked true).nextHere = false)
    ∧ (Calm bst) ∧ (bst.d.net.pkts = [])
    ∧ (Calm (context true false [])) ∧ ((context true false []).d.ctx { src := (0x00300001 : BitVec 32), dst := (0x00002001 : BitVec 32), vl := 2, pv := true }
          = some (ctx2 true false)) ∧ ((ctx2 true false).learning = true)
    ∧ (Calm (context false true [held])) ∧ ((context false true [held]).d.ctx { src := (0x00300001 : BitVec 32), dst := (0x00002001 : BitVec 32), vl := 2, pv := true }
          = some (ctx2 false true)) ∧ ((ctx2 false true).gapOn = true) ∧ ((ctx2 false true).learning = false)
        ∧ ((ctx2 false true).next ≠ held.rsqNo) ∧ ((context false true [held]).d.heldOf { src := (0x00300001 : BitVec 32), dst := (0x00002001 : BitVec 32), vl := 2, pv := true }
          = [held]) ∧ (held.place = Place.held 70 20) ∧ (70 ≠ 1025) ∧ ((context false true [held]).d.laneLive 70 = true)
        ∧ (held.vl ≠ 1) ∧ ((ctx2 false true).vl ≠ 1) ∧ (held.bad = false) ∧ (∀ retried ∈ (context false true [held]).d.net.pkts, ¬Waiting retried)
        ∧ ((ctx2 false true).vl = 5 → ((context false true [held]).d.lv (8 * 1024 + held.vl)).resUsed < ((context false true [held]).d.lv (8 * 1024 +
          held.vl)).resCap)
    ∧ (Calm (context false false [])) ∧ ((context false false []).d.ctx { src := (0x00300001 : BitVec 32), dst := (0x00002001 : BitVec 32), vl := 2, pv := true }
          = some (ctx2 false false)) ∧ ((ctx2 false false).gapOn = false) ∧ ((ctx2 false false).learning = false)
        ∧ ((context false false []).d.heldOf { src := (0x00300001 : BitVec 32), dst := (0x00002001 : BitVec 32), vl := 2, pv := true } = [])
        ∧ (2 = 1 → ((context false false []).d.flow (0x00300001 : BitVec 32) (0x00002001 : BitVec 32)).outA = 0)
        ∧ ((context false false []).d.net.pkts = []) := by
  repeat' first
    | decide +kernel
    | apply And.intro
    | exact select_of (by decide +kernel)
    | exact none_waits (by decide +kernel)

/-- Time is in step; lane 70 has a bucket on the wheel, a running order, and launch entries that are due. -/
def order : RunOrder := ⟨[(0xFF, 1000), (0x81, 500)], 0⟩
def inStep (s : State) : State := onDv (fun d => (((d.setFld F.TMU_STAT_VALID 0 1).setFld F.TMU_CTL_DOMAIN 0 3).setFld F.TMU_CTL_SYNC 0 1)) s
def onPort (l : Nat) (f : Port → Port) (s : State) : State := onDv (fun d => { d with net := { d.net with ports := d.net.ports.put l (f (d.port l)) } }) s
def gated : State := onDv (fun d => { d with tmu := { d.tmu with frc := 1234 * 65536 } })
  (onDv (fun d => [0, 63].foldl (fun d e => d.setFld F.PRT_LAUNCH_VALID (64 * 70 + e) 1) d)
    (onPort 70 (fun p => { p with order := some order, maxB := [(5, { wheel := some 0 })] }) (inStep (link 70 1 3 bst))))
def launching : State := onDv (fun d => (d.setFld F.PRT_LAUNCH_CTL_EN 70 1).setFld F.PRT_LAUNCH_CTL_TCMASK 70 255)
  (holding [packet 2 7 (.queue 70 59)] (link 70 2 3 bst))

/-- A case of each clause of WheelGatesLaunch. -/
theorem witness_WheelGatesLaunch :
    (70 < gated.d.nLanes) ∧ ((gated.d.bucket 70 (.maxOf 5)).wheel = some 0) ∧ ((gated.d.bucket 70 (.maxOf 5)).far = false)
        ∧ (gated.d.sinceFrc 0 < 2 ^ 63)
    ∧ (70 < gated.d.nLanes)
    ∧ (70 < gated.d.nLanes) ∧ (gated.d.activeOrder 70 = some order)
    ∧ (70 < gated.d.nLanes) ∧ (0 < 64) ∧ (gated.d.fld F.PRT_LAUNCH_VALID (64 * 70 + 0) = 1) ∧ (gated.d.syncedNow = true)
        ∧ (delta (gated.d.timeNs % 2 ^ 48) (gated.d.fld F.PRT_LAUNCH_TIME (64 * 70 + 0)) 48 < 2 ^ 47)
    ∧ (70 < gated.d.nLanes) ∧ (63 < 64) ∧ (gated.d.fld F.PRT_LAUNCH_VALID (64 * 70 + 63) = 1) ∧ (gated.d.syncedNow = true)
        ∧ (delta (gated.d.timeNs % 2 ^ 48) (gated.d.fld F.PRT_LAUNCH_TIME (64 * 70 + 63)) 48 < 2 ^ 47)
    ∧ (70 < gated.d.nLanes) ∧ (7 < 8)
    ∧ (70 < launching.d.nLanes) ∧ (3 < 8) ∧ (launching.d.queueFront 70 (56 + 3) = some (packet 2 7 (.queue 70 59)))
        ∧ (launching.d.tcHeld 70 3 = true) ∧ ((packet 2 7 (.queue 70 59)).free = false) := by
  repeat' first
    | decide +kernel

/-- Two entries in the shadow list of lane 70 and a base time ahead; a SWAP that waits; an order that is suspended. -/
def shadow : State := onDv (fun d => ((d.setFld F.PRT_RO_ENTRY_EVEN 8960 (0x7F * 2 ^ 24 + 1000)).setFld F.PRT_RO_ENTRY_ODD 8960 (0x7F * 2 ^ 24 + 500)).setFld F.PRT_RO_BASE_BASE 70 10000)
  (inStep (link 70 1 3 bst))
def running (s : State) : State := onDv (fun d => (d.setFld F.PRT_RO_CTL_EN 70 1).setFld F.PRT_RO_CTL_STATE 70 1) s
def ordered : State := onDv (fun d => d.setFld F.PRT_RO_CTL_SWAP 70 1) (running (onPort 70 (fun p => { p with pendingOrder := some order }) (inStep (link 70 1 3 bst))))
def paused : State := running (onPort 70 (fun p => { p with order := some order, suspended := true, resumeFrom := some (-5) }) (inStep (link 70 1 3 bst)))

/-- A case of each clause of RunningOrders. -/
theorem witness_RunningOrders :
    (70 < 1024) ∧ (Reaches shadow fm RF.PRT_RO_CTL 70 (0xC010300900000000 : Word)) ∧ (bitsOf (0xC010300900000000 : Word) 63 63 = 1)
        ∧ (bitsOf (0xC010300900000000 : Word) 62 62 = 1) ∧ (shadow.d.fld F.PRT_RO_CTL_SWAP 70 = 0) ∧ (MaySwap shadow 70 (0xC010300900000000 : Word))
    ∧ (70 < 1024) ∧ (Reaches shadow fm RF.PRT_RO_CTL 70 (0xC010400900000000 : Word)) ∧ (bitsOf (0xC010400900000000 : Word) 63 63 = 1)
        ∧ (bitsOf (0xC010400900000000 : Word) 62 62 = 1) ∧ (shadow.d.fld F.PRT_RO_CTL_SWAP 70 = 0) ∧ (bitsOf (0xC010400900000000 : Word) 51 44 ≠
          shadow.d.fld F.TMU_CTL_DOMAIN 0)
    ∧ (70 < 1024) ∧ (Reaches ordered fm RF.PRT_RO_CTL 70 (0 : Word)) ∧ (bitsOf (0 : Word) 63 63 = 0)
    ∧ (70 < 1024) ∧ (70 < ordered.d.nLanes) ∧ ((ordered.d.port 70).pendingOrder = some order) ∧ (ordered.d.fld F.PRT_RO_CTL_SWAP 70 = 1)
        ∧ (order.base ≤ ordered.d.timeNs) ∧ (ordered.d.fld F.PRT_RO_CTL_EN 70 = 1) ∧ ((ordered.d.port 70).suspended = false)
    ∧ (70 < 1024) ∧ (70 < paused.d.nLanes) ∧ ((paused.d.port 70).suspended = true) ∧ ((paused.d.port 70).order = some order)
        ∧ (paused.d.syncedNow = true) ∧ (paused.d.fld F.PRT_RO_CTL_EN 70 = 1) ∧ ((paused.d.port 70).resumeFrom = some (-5 : ℤ))
        ∧ ((-5 : ℤ) < paused.d.cycleNo order) := by
  repeat' first
    | decide +kernel
    | apply And.intro
    | (unfold SameShares; decide +kernel)
    | apply Reaches.mk
    | apply MaySwap.mk

/-- Lane 70 serves, and the seam of its Wing is up whole. -/
def admitting : State := onDv (fun d => (((d.setFld F.GLB_SEAM_STAT_STATE 2 2).setFld F.GLB_SEAM_STAT_BUNDLES_UP 2 36).setLane 70 { peerServing := true })) (link 70 1 3 bst)

/-- A case of each clause of RatesAndGrants. -/
theorem witness_RatesAndGrants :
    (70 < 1024) ∧ (9 < 64) ∧ (Reaches admitting fm RF.PRT_QRATE (64 * 70 + 9) (0x0190000010000000 : Word)) ∧ (RateFits admitting 70 9
          (0x0190000010000000 : Word))
    ∧ (70 < 1024) ∧ (63 < 64) ∧ (Reaches admitting fm RF.PRT_QRATE (64 * 70 + 63) (0x10000000 : Word)) ∧ (RateFits admitting 70 63 (0x10000000 :
          Word))
    ∧ (70 < 1024) ∧ (0 < 64) ∧ (Reaches admitting fm RF.PRT_QRATE (64 * 70 + 0) (0x0190000010000000 : Word)) ∧ (bitsOf (0x0190000010000000 : Word) 63
          50 ≠ 0) ∧ (0 / 8 ∉ [1, 2, 5, 6])
    ∧ (70 < 1024) ∧ (63 < 64) ∧ (Reaches admitting fm RF.PRT_QRATE (64 * 70 + 63) (0x0004000010000000 : Word))
        ∧ (bitsOf (0x0004000010000000 : Word) 63 50 ≠ 0) ∧ (63 / 8 ∉ [1, 2, 5, 6])
    ∧ (70 < 1024) ∧ (9 < 64) ∧ (Reaches admitting fm RF.PRT_QOWN (64 * 70 + 9) (0 : Word)) ∧ (admitting.d.fld F.PRT_QRATE_MIN_RATE (64 * 70 + 9) = 0)
    ∧ (70 < 1024) ∧ (9 < 64) ∧ (Reaches (onDv (fun d => d.setFld F.PRT_QRATE_MIN_RATE (64 * 70 + 9) 300) admitting) fm RF.PRT_QOWN (64 * 70 + 9) (0 :
          Word)) ∧ ((onDv (fun d => d.setFld F.PRT_QRATE_MIN_RATE (64 * 70 + 9) 300) admitting).d.fld F.PRT_QRATE_MIN_RATE (64 * 70 + 9) ≠ 0)
    ∧ (70 < 1024) ∧ (9 < 64) ∧ (70 < admitting.d.nLanes)
    ∧ (70 < 1024) ∧ (9 < 64) ∧ (0 < 4) ∧ (∀ i ∈ (admitting.d.loom 0).imgs, i.lack = false) ∧ (reservedAll (admitting.d.loom 0).imgs Image.redRate *
          (admitting.d.loomCap 0).2 ≤ (admitting.d.loomCap 0).1) := by
  repeat' first
    | decide +kernel
    | apply And.intro
    | (unfold RateFits; decide +kernel)
    | apply Reaches.mk

/-! ## Tables -/

def cmdWord (op table : Nat) (k : Bool) (i j : Nat) : Word := BitVec.ofNat 64 (op * 2 ^ 60 + table * 2 ^ 56 + bit k * 2 ^ 55 + i * 2 ^ 32 + j * 2 ^ 12)
/-- A coordinate entry of a mask length; a MAC entry; a row of SPRAY with one member; policers. -/
def coord (len : Nat) : BitVec 512 :=
  let key (w a : Nat) : List (Nat × Nat × Nat × Nat) := [(w, 63, 0, a / 2 ^ 96), (w + 1, 63, 0, a / 2 ^ 32 % 2 ^ 64), (w + 2, 63, 32, a % 2 ^ 32)]
  entry (key 0 (2 ^ 158 + 9 * 2 ^ 146) ++ key 3 (3 * 2 ^ 158 + 4095 * 2 ^ 146 + (2 ^ 32 - 2 ^ (32 - len)) * 2 ^ 114) ++ [(6, 63, 62, 1), (6, 11, 0, 3)])
def mac (k out : Nat) : BitVec 512 := entry [(0, 63, 40, k / 2 ^ 48), (1, 63, 16, k % 2 ^ 48), (2, 63, 63, 1), (2, 41, 32, out)]
def row (f n j : Nat) : BitVec 512 := BitVec.ofNat 512 ((2 ^ 15 + (n - 1) * 2 ^ 11 + f) * 2 ^ (496 - 16 * j))
def policer : BitVec 512 := entry [(0, 63, 44, 100), (0, 43, 24, 100), (0, 23, 0, 4480), (1, 63, 40, 4480)]
def policerLow : BitVec 512 := entry [(0, 63, 44, 100), (0, 43, 24, 100), (0, 23, 0, 4479), (1, 63, 40, 4480)]

/-- Some entries; an entry staged in TBL_DATA; a command that runs; compatible tables. -/
def tables : State := onDv (fun d => [(0, 1024, coord 12), (0, 1025, coord 11), (1, 134312, mac 0x123456 6), (2, 10, row 5 2 0), (4, 5, castEntry), (5, 3, policer)].foldl
  (fun d x => d.setEnt x.1 x.2.1 x.2.2) d) bst
def staged (e : BitVec 512) (s : State) : State := onDv (fun d => (List.range 8).foldl (fun d n => d.wr .TBL_DATA n (e.extractLsb' (448 - 64 * n) 64)) d) s
def commanded (w : Word) (s : State) : State := onDv (fun d => ({ d with tab := { d.tab with cmd := some w } }).setFld F.TBL_STAT_BUSY 0 1) s
def compat (n : Nat) (s : State) : State := onDv (fun d => (d.setFld F.TBL_DMA_LOCK_COMPAT 0 1).setFld F.TBL_DMA_LOCK_STATE 0 n) s

/-- Cases of clauses of TableCommands. -/
theorem witness_TableCommands_1 :
    (Calm (commanded (cmdWord 3 3 false 0 0) (tables))) ∧ ((commanded (cmdWord 3 3 false 0 0) (tables)).d.tab.waiting = [])
        ∧ ((commanded (cmdWord 3 3 false 0 0) (tables)).d.tab.cmd = some (cmdWord 3 3 false 0 0)) ∧ (CmdIs (cmdWord 3 3 false 0 0) 3 3 false 0 0)
        ∧ (3 < 6) ∧ (3 = 4 ∧ false = true ∧ 2 ≤ 3 ∨ 2 ≤ 3 ∧ (3 = 3 ∨ 3 = 5 ∨ 3 = 6) ∨ 3 = 1 ∧ 3 = 5) ∧ (3 ≤ 1
        → (commanded (cmdWord 3 3 false 0 0) (tables)).d.fld F.TBL_DMA_LOCK_STATE 0 ≠ 1)
    ∧ (Calm (commanded (cmdWord 4 2 true 0 0) (tables))) ∧ ((commanded (cmdWord 4 2 true 0 0) (tables)).d.tab.waiting = [])
        ∧ ((commanded (cmdWord 4 2 true 0 0) (tables)).d.tab.cmd = some (cmdWord 4 2 true 0 0)) ∧ (CmdIs (cmdWord 4 2 true 0 0) 4 2 true 0 0)
        ∧ (2 < 6) ∧ (4 = 4 ∧ true = true ∧ 2 ≤ 2 ∨ 2 ≤ 2 ∧ (4 = 3 ∨ 4 = 5 ∨ 4 = 6) ∨ 2 = 1 ∧ 4 = 5) ∧ (2 ≤ 1 → (commanded (cmdWord 4 2 true 0 0)
          (tables)).d.fld F.TBL_DMA_LOCK_STATE 0 ≠ 1)
    ∧ (Calm (commanded (cmdWord 5 1 false 0 0) (tables))) ∧ ((commanded (cmdWord 5 1 false 0 0) (tables)).d.tab.waiting = [])
        ∧ ((commanded (cmdWord 5 1 false 0 0) (tables)).d.tab.cmd = some (cmdWord 5 1 false 0 0)) ∧ (CmdIs (cmdWord 5 1 false 0 0) 5 1 false 0 0)
        ∧ (1 < 6) ∧ (5 = 4 ∧ false = true ∧ 2 ≤ 1 ∨ 2 ≤ 1 ∧ (5 = 3 ∨ 5 = 5 ∨ 5 = 6) ∨ 1 = 1 ∧ 5 = 5) ∧ (1 ≤ 1
        → (commanded (cmdWord 5 1 false 0 0) (tables)).d.fld F.TBL_DMA_LOCK_STATE 0 ≠ 1)
    ∧ (Calm (commanded (cmdWord 1 4 false 16384 0) (tables))) ∧ ((commanded (cmdWord 1 4 false 16384 0) (tables)).d.tab.waiting = [])
        ∧ ((commanded (cmdWord 1 4 false 16384 0) (tables)).d.tab.cmd = some (cmdWord 1 4 false 16384 0)) ∧ (CmdIs (cmdWord 1 4 false 16384 0) 1 4
          false 16384 0) ∧ (4 < 6) ∧ (1 = 1 ∨ 1 = 2) ∧ ((commanded (cmdWord 1 4 false 16384 0) (tables)).d.tblSize 4 ≤ 16384)
        ∧ (4 ≤ 1 → (commanded (cmdWord 1 4 false 16384 0) (tables)).d.fld F.TBL_DMA_LOCK_STATE 0 ≠ 1)
    ∧ (Calm (commanded (cmdWord 2 0 false 131072 0) (tables))) ∧ ((commanded (cmdWord 2 0 false 131072 0) (tables)).d.tab.waiting = [])
        ∧ ((commanded (cmdWord 2 0 false 131072 0) (tables)).d.tab.cmd = some (cmdWord 2 0 false 131072 0)) ∧ (CmdIs (cmdWord 2 0 false 131072 0) 2 0
          false 131072 0) ∧ (0 < 6) ∧ (2 = 1 ∨ 2 = 2) ∧ ((commanded (cmdWord 2 0 false 131072 0) (tables)).d.tblSize 0 ≤ 131072)
        ∧ (0 ≤ 1 → (commanded (cmdWord 2 0 false 131072 0) (tables)).d.fld F.TBL_DMA_LOCK_STATE 0 ≠ 1)
    ∧ (Calm (commanded (cmdWord 1 0 false 0 0) (compat 1 bst))) ∧ ((commanded (cmdWord 1 0 false 0 0) (compat 1 bst)).d.tab.waiting = [])
        ∧ ((commanded (cmdWord 1 0 false 0 0) (compat 1 bst)).d.tab.cmd = some (cmdWord 1 0 false 0 0)) ∧ (CmdIs (cmdWord 1 0 false 0 0) 1 0 false 0
          0) ∧ (0 < 6) ∧ (1 ≤ 1) ∧ (1 ≤ 6) ∧ (0 ≤ 1) ∧ ((commanded (cmdWord 1 0 false 0 0) (compat 1 bst)).d.fld F.TBL_DMA_LOCK_STATE 0 = 1)
    ∧ (Calm (commanded (cmdWord 6 1 false 0 0) (compat 1 bst))) ∧ ((commanded (cmdWord 6 1 false 0 0) (compat 1 bst)).d.tab.waiting = [])
        ∧ ((commanded (cmdWord 6 1 false 0 0) (compat 1 bst)).d.tab.cmd = some (cmdWord 6 1 false 0 0)) ∧ (CmdIs (cmdWord 6 1 false 0 0) 6 1 false 0
          0) ∧ (1 < 6) ∧ (1 ≤ 6) ∧ (6 ≤ 6) ∧ (1 ≤ 1) ∧ ((commanded (cmdWord 6 1 false 0 0) (compat 1 bst)).d.fld F.TBL_DMA_LOCK_STATE 0 = 1)
    ∧ (Calm (commanded (cmdWord 1 5 false 8191 0) (tables))) ∧ ((commanded (cmdWord 1 5 false 8191 0) (tables)).d.tab.waiting = [])
        ∧ ((commanded (cmdWord 1 5 false 8191 0) (tables)).d.tab.cmd = some (cmdWord 1 5 false 8191 0)) ∧ (CmdIs (cmdWord 1 5 false 8191 0) 1 5 false
          8191 0) ∧ (5 < 6) ∧ (1 = 1) ∧ (TableTakes (commanded (cmdWord 1 5 false 8191 0) (tables)) 5 8191) ∧ ((commanded (cmdWord 1 5 false 8191 0)
          (tables)).d.ent 5 8191 = none) := by
  repeat' first
    | decide +kernel
    | apply And.intro
    | apply CmdIs.mk

/-- Cases of clauses of TableCommands. -/
theorem witness_TableCommands_2 :
    (Calm (commanded (cmdWord 1 4 false 5 0) (tables))) ∧ ((commanded (cmdWord 1 4 false 5 0) (tables)).d.tab.waiting = [])
        ∧ ((commanded (cmdWord 1 4 false 5 0) (tables)).d.tab.cmd = some (cmdWord 1 4 false 5 0)) ∧ (CmdIs (cmdWord 1 4 false 5 0) 1 4 false 5 0)
        ∧ (4 < 6) ∧ (1 = 1) ∧ (TableTakes (commanded (cmdWord 1 4 false 5 0) (tables)) 4 5) ∧ (4 ≠ 2) ∧ (4 ≠ 5)
        ∧ ((commanded (cmdWord 1 4 false 5 0) (tables)).d.ent 4 5 = some castEntry)
    ∧ (Calm (commanded (cmdWord 2 5 false 3 0) (staged policerLow tables))) ∧ ((commanded (cmdWord 2 5 false 3 0) (staged policerLow
          tables)).d.tab.waiting = []) ∧ ((commanded (cmdWord 2 5 false 3 0) (staged policerLow tables)).d.tab.cmd = some (cmdWord 2 5 false 3 0))
        ∧ (CmdIs (cmdWord 2 5 false 3 0) 2 5 false 3 0) ∧ (5 < 6) ∧ (2 = 2) ∧ (5 = 5) ∧ (TableTakes (commanded (cmdWord 2 5 false 3 0) (staged
          policerLow tables)) 5 3) ∧ (polPir (commanded (cmdWord 2 5 false 3 0) (staged policerLow tables)).d.staged < polCir (commanded (cmdWord 2 5
          false 3 0) (staged policerLow tables)).d.staged ∨ polCbs (commanded (cmdWord 2 5 false 3 0) (staged policerLow tables)).d.staged < 4480
        ∨ polPbs (commanded (cmdWord 2 5 false 3 0) (staged policerLow tables)).d.staged < 4480)
    ∧ (Calm (commanded (cmdWord 2 5 false 8191 0) (staged policer tables))) ∧ ((commanded (cmdWord 2 5 false 8191 0) (staged policer
          tables)).d.tab.waiting = []) ∧ ((commanded (cmdWord 2 5 false 8191 0) (staged policer tables)).d.tab.cmd = some (cmdWord 2 5 false 8191 0))
        ∧ (CmdIs (cmdWord 2 5 false 8191 0) 2 5 false 8191 0) ∧ (5 < 6) ∧ (2 = 2) ∧ (5 = 5) ∧ (TableTakes (commanded (cmdWord 2 5 false 8191 0)
          (staged policer tables)) 5 8191) ∧ (polCir (commanded (cmdWord 2 5 false 8191 0) (staged policer tables)).d.staged ≤ polPir (commanded
          (cmdWord 2 5 false 8191 0) (staged policer tables)).d.staged) ∧ (4480 ≤ polCbs (commanded (cmdWord 2 5 false 8191 0) (staged policer
          tables)).d.staged) ∧ (4480 ≤ polPbs (commanded (cmdWord 2 5 false 8191 0) (staged policer tables)).d.staged)
        ∧ (polY (commanded (cmdWord 2 5 false 8191 0) (staged policer tables)).d.staged ≠ 3) ∧ (polR (commanded (cmdWord 2 5 false 8191 0) (staged
          policer tables)).d.staged ≠ 3)
    ∧ (Calm (commanded (cmdWord 4 0 false 1024 0) (tables))) ∧ ((commanded (cmdWord 4 0 false 1024 0) (tables)).d.tab.waiting = [])
        ∧ ((commanded (cmdWord 4 0 false 1024 0) (tables)).d.tab.cmd = some (cmdWord 4 0 false 1024 0)) ∧ (CmdIs (cmdWord 4 0 false 1024 0) 4 0 false
          1024 0) ∧ (0 < 6) ∧ (4 = 4) ∧ (false = false) ∧ (TableTakes (commanded (cmdWord 4 0 false 1024 0) (tables)) 0 1024)
        ∧ (0 ∈ [0, 1, 3, 5])
    ∧ (Calm (commanded (cmdWord 4 5 false 3 0) (tables))) ∧ ((commanded (cmdWord 4 5 false 3 0) (tables)).d.tab.waiting = [])
        ∧ ((commanded (cmdWord 4 5 false 3 0) (tables)).d.tab.cmd = some (cmdWord 4 5 false 3 0)) ∧ (CmdIs (cmdWord 4 5 false 3 0) 4 5 false 3 0)
        ∧ (5 < 6) ∧ (4 = 4) ∧ (false = false) ∧ (TableTakes (commanded (cmdWord 4 5 false 3 0) (tables)) 5 3)
        ∧ (5 ∈ [0, 1, 3, 5])
    ∧ (Calm (commanded (cmdWord 2 2 false 10 0) (staged (row 5 2 2) tables))) ∧ ((commanded (cmdWord 2 2 false 10 0) (staged (row 5 2 2)
          tables)).d.tab.waiting = []) ∧ ((commanded (cmdWord 2 2 false 10 0) (staged (row 5 2 2) tables)).d.tab.cmd = some (cmdWord 2 2 false 10 0))
        ∧ (CmdIs (cmdWord 2 2 false 10 0) 2 2 false 10 0) ∧ (2 < 6) ∧ (2 = 2) ∧ (2 = 2) ∧ (TableTakes (commanded (cmdWord 2 2 false 10 0) (staged (row
          5 2 2) tables)) 2 10) ∧ (sprayOk (commanded (cmdWord 2 2 false 10 0) (staged (row 5 2 2) tables)).d.staged = true)
        ∧ (10 % 2 = 0)
    ∧ (Calm (commanded (cmdWord 2 2 false 11 0) (staged (row 5 2 2) (onDv (fun d => { d with tab := { d.tab with staged := [(5, row 7 1 3)] } })
          tables)))) ∧ ((commanded (cmdWord 2 2 false 11 0) (staged (row 5 2 2) (onDv (fun d => { d with tab := { d.tab with staged := [(5, row 7 1 3)] } })
          tables))).d.tab.waiting = []) ∧ ((commanded (cmdWord 2 2 false 11 0) (staged (row 5 2 2) (onDv (fun d => { d with tab := { d.tab with staged := [(5, row 7 1 3)] } })
          tables))).d.tab.cmd = some (cmdWord 2 2 false 11 0)) ∧ (CmdIs (cmdWord 2 2 false 11 0) 2 2 false 11 0)
        ∧ (2 < 6) ∧ (2 = 2) ∧ (2 = 2) ∧ (TableTakes (commanded (cmdWord 2 2 false 11 0) (staged (row 5 2 2) (onDv (fun d => { d with tab := { d.tab with staged := [(5, row 7 1 3)] } })
          tables))) 2 11) ∧ (sprayOk (commanded (cmdWord 2 2 false 11 0) (staged (row 5 2 2) (onDv (fun d => { d with tab := { d.tab with staged := [(5, row 7 1 3)] } })
          tables))).d.staged = true) ∧ (11 % 2 = 1) ∧ ((commanded (cmdWord 2 2 false 11 0) (staged (row 5 2 2) (onDv (fun d => { d with tab := { d.tab with staged := [(5, row 7 1 3)] } })
          tables))).d.tab.staged.find (11 / 2) = some (row 7 1 3)) ∧ ((row 7 1 3) ≠ 0) ∧ (sprayClean (commanded (cmdWord 2 2 false 11 0) (staged (row
          5 2 2) (onDv (fun d => { d with tab := { d.tab with staged := [(5, row 7 1 3)] } }) tables))).d.staged ≠ 0)
    ∧ (Calm (commanded (cmdWord 2 2 false 8191 0) (staged (row 63 2 2) tables))) ∧ ((commanded (cmdWord 2 2 false 8191 0) (staged (row 63 2 2)
          tables)).d.tab.waiting = []) ∧ ((commanded (cmdWord 2 2 false 8191 0) (staged (row 63 2 2) tables)).d.tab.cmd = some (cmdWord 2 2 false 8191
          0)) ∧ (CmdIs (cmdWord 2 2 false 8191 0) 2 2 false 8191 0) ∧ (2 < 6) ∧ (2 = 2) ∧ (2 = 2) ∧ (TableTakes (commanded (cmdWord 2 2 false 8191 0)
          (staged (row 63 2 2) tables)) 2 8191) ∧ (sprayOk (commanded (cmdWord 2 2 false 8191 0) (staged (row 63 2 2) tables)).d.staged = false) := by
  repeat' first
    | decide +kernel
    | apply And.intro
    | apply CmdIs.mk

/-- Cases of clauses of TableCommands. -/
theorem witness_TableCommands_3 :
    (Calm (commanded (cmdWord 3 1 false 0 0) (staged (mac 0x123456 5) tables))) ∧ ((commanded (cmdWord 3 1 false 0 0) (staged (mac 0x123456 5)
          tables)).d.tab.waiting = []) ∧ ((commanded (cmdWord 3 1 false 0 0) (staged (mac 0x123456 5) tables)).d.tab.cmd = some (cmdWord 3 1 false 0
          0)) ∧ (CmdIs (cmdWord 3 1 false 0 0) 3 1 false 0 0) ∧ (1 < 6) ∧ (3 = 3) ∧ (1 = 1) ∧ (TableTakes (commanded (cmdWord 3 1 false 0 0) (staged
          (mac 0x123456 5) tables)) 1 0) ∧ (exOk (commanded (cmdWord 3 1 false 0 0) (staged (mac 0x123456 5) tables)).d.staged = true)
        ∧ ((commanded (cmdWord 3 1 false 0 0) (staged (mac 0x123456 5) tables)).d.exFind (exKeyOf (commanded (cmdWord 3 1 false 0 0) (staged (mac
          0x123456 5) tables)).d.staged) = some 134312)
    ∧ (Calm (commanded (cmdWord 6 1 false 0 0) (staged (mac 0x123456 5) tables))) ∧ ((commanded (cmdWord 6 1 false 0 0) (staged (mac 0x123456 5)
          tables)).d.tab.waiting = []) ∧ ((commanded (cmdWord 6 1 false 0 0) (staged (mac 0x123456 5) tables)).d.tab.cmd = some (cmdWord 6 1 false 0
          0)) ∧ (CmdIs (cmdWord 6 1 false 0 0) 6 1 false 0 0) ∧ (1 < 6) ∧ (6 = 6) ∧ (1 = 1) ∧ (TableTakes (commanded (cmdWord 6 1 false 0 0) (staged
          (mac 0x123456 5) tables)) 1 0) ∧ ((commanded (cmdWord 6 1 false 0 0) (staged (mac 0x123456 5) tables)).d.exFind (exKeyOf (commanded (cmdWord
          6 1 false 0 0) (staged (mac 0x123456 5) tables)).d.staged) = some 134312)
    ∧ (Calm (commanded (cmdWord 6 1 false 0 0) (staged (mac 0x777 5) tables))) ∧ ((commanded (cmdWord 6 1 false 0 0) (staged (mac 0x777 5)
          tables)).d.tab.waiting = []) ∧ ((commanded (cmdWord 6 1 false 0 0) (staged (mac 0x777 5) tables)).d.tab.cmd = some (cmdWord 6 1 false 0 0))
        ∧ (CmdIs (cmdWord 6 1 false 0 0) 6 1 false 0 0) ∧ (1 < 6) ∧ (6 = 6) ∧ (1 = 1) ∧ (TableTakes (commanded (cmdWord 6 1 false 0 0) (staged (mac
          0x777 5) tables)) 1 0) ∧ ((commanded (cmdWord 6 1 false 0 0) (staged (mac 0x777 5) tables)).d.exFind (exKeyOf (commanded (cmdWord 6 1 false
          0 0) (staged (mac 0x777 5) tables)).d.staged) = none)
    ∧ (Calm (commanded (cmdWord 3 1 false 0 0) (staged (mac 0x777 5) tables))) ∧ ((commanded (cmdWord 3 1 false 0 0) (staged (mac 0x777 5)
          tables)).d.tab.waiting = []) ∧ ((commanded (cmdWord 3 1 false 0 0) (staged (mac 0x777 5) tables)).d.tab.cmd = some (cmdWord 3 1 false 0 0))
        ∧ (CmdIs (cmdWord 3 1 false 0 0) 3 1 false 0 0) ∧ (1 < 6) ∧ (3 = 3) ∧ (1 = 1) ∧ (TableTakes (commanded (cmdWord 3 1 false 0 0) (staged (mac
          0x777 5) tables)) 1 0) ∧ (exOk (commanded (cmdWord 3 1 false 0 0) (staged (mac 0x777 5) tables)).d.staged = true)
        ∧ ((commanded (cmdWord 3 1 false 0 0) (staged (mac 0x777 5) tables)).d.exFind (exKeyOf (commanded (cmdWord 3 1 false 0 0) (staged (mac 0x777
          5) tables)).d.staged) = none) ∧ (69545 ∈ (commanded (cmdWord 3 1 false 0 0) (staged (mac 0x777 5) tables)).d.exWays (exKeyOf (commanded
          (cmdWord 3 1 false 0 0) (staged (mac 0x777 5) tables)).d.staged)) ∧ ((commanded (cmdWord 3 1 false 0 0) (staged (mac 0x777 5) tables)).d.ent
          1 69545 = none)
    ∧ (Calm (commanded (cmdWord 2 0 false 1026 0) (staged (coord 16) tables))) ∧ ((commanded (cmdWord 2 0 false 1026 0) (staged (coord 16)
          tables)).d.tab.waiting = []) ∧ ((commanded (cmdWord 2 0 false 1026 0) (staged (coord 16) tables)).d.tab.cmd = some (cmdWord 2 0 false 1026
          0)) ∧ (CmdIs (cmdWord 2 0 false 1026 0) 2 0 false 1026 0) ∧ (0 < 6) ∧ (2 = 2) ∧ (0 = 0) ∧ (TableTakes (commanded (cmdWord 2 0 false 1026 0)
          (staged (coord 16) tables)) 0 1026) ∧ (1024 ≤ 1026) ∧ (tcamOk (commanded (cmdWord 2 0 false 1026 0) (staged (coord 16) tables)).d.staged =
          true) ∧ (kindSuits (tcamKind (commanded (cmdWord 2 0 false 1026 0) (staged (coord 16) tables)).d.staged) ((commanded (cmdWord 2 0 false 1026
          0) (staged (coord 16) tables)).d.tcamPart 1026) = true) ∧ (((commanded (cmdWord 2 0 false 1026 0) (staged (coord 16) tables)).d.setEnt 0
          1026 (tcamClean (commanded (cmdWord 2 0 false 1026 0) (staged (coord 16) tables)).d.staged)).partOrdered ((commanded (cmdWord 2 0 false 1026
          0) (staged (coord 16) tables)).d.tcamPart 1026) = false)
    ∧ (Calm (commanded (cmdWord 2 0 false 1026 0) (staged (coord 10) tables))) ∧ ((commanded (cmdWord 2 0 false 1026 0) (staged (coord 10)
          tables)).d.tab.waiting = []) ∧ ((commanded (cmdWord 2 0 false 1026 0) (staged (coord 10) tables)).d.tab.cmd = some (cmdWord 2 0 false 1026
          0)) ∧ (CmdIs (cmdWord 2 0 false 1026 0) 2 0 false 1026 0) ∧ (0 < 6) ∧ (2 = 2) ∧ (0 = 0) ∧ (TableTakes (commanded (cmdWord 2 0 false 1026 0)
          (staged (coord 10) tables)) 0 1026) ∧ (1024 ≤ 1026) ∧ (tcamOk (commanded (cmdWord 2 0 false 1026 0) (staged (coord 10) tables)).d.staged =
          true) ∧ (kindSuits (tcamKind (commanded (cmdWord 2 0 false 1026 0) (staged (coord 10) tables)).d.staged) ((commanded (cmdWord 2 0 false 1026
          0) (staged (coord 10) tables)).d.tcamPart 1026) = true) ∧ (((commanded (cmdWord 2 0 false 1026 0) (staged (coord 10) tables)).d.setEnt 0
          1026 (tcamClean (commanded (cmdWord 2 0 false 1026 0) (staged (coord 10) tables)).d.staged)).partOrdered ((commanded (cmdWord 2 0 false 1026
          0) (staged (coord 10) tables)).d.tcamPart 1026) = true) := by
  repeat' first
    | decide +kernel
    | apply And.intro
    | apply CmdIs.mk

/-- A stack whose die is in reset; a device whose table of routes down has lost an index, and one with its exception. -/
def noStack (n : Nat) (s : State) : State := onDv (fun d => d.setSite n 2) s
def lost (ents : NMap (BitVec 512)) : State := onDv (fun d =>
  let d := ((((d.setFld F.TBL_ROUTE_CTL_TIER 0 2).setFld F.TBL_ROUTE_CTL_OWN_CA 0 0x01800500).setFld F.TBL_DOWN_VALID 7 1).setFld F.TBL_UP_VALID 3 1).setFld F.TBL_UP_SET 3 5
  { d with net := { d.net with downLost := [7] }, tab := { d.tab with ent := (tblKey 2 10, row 5 1 0) :: ents } }) bst
def tcamButLast : NMap (BitVec 512) := (List.range 1023).map (fun i => (tblKey 0 i, coord 12))
def tcamFull : NMap (BitVec 512) := (List.range 1024).map (fun i => (tblKey 0 i, coord 12))
def provided : State := onDv (fun d => { (d.setLane 5 { peerServing := true }) with tab := { d.tab with ent := [(tblKey 2 10, row 5 1 0)], prov := [(1023, (7, 5))] } }) (link 5 1 3 bst)
/-- A parity error in entry 1024 of the first table, with Bolt memory as it should be or with an error under the copy. -/
def flawed : State := onDv (fun d => { d with tab := { d.tab with parity := [tblKey 0 1024] } }) bst
/-- An image of Loom 0 that binds ensemble 63. -/
def bound64 : State := onDv (fun d => d.modLoom 0 (fun x => { x with images := [(7, { image 0 with bytes := place 160 [(11, 1, 4), (12, 4, 1), (128, 1, 146), (129, 2, 63)] })] })) bst

/-- An error of Bolt memory under a structure in both stacks of its pair: it cannot be read. -/
def eccOver (o : Nat) (s : State) : State := onDv (fun d => { d with ecc := [carveAt 0 o / 64, carveAt 1 o / 64] }) s
theorem eccOver_unread (o : Nat) (s : State) : (eccOver o s).d.carveStack 0 o 64 = none := by
  have h0 : (eccOver o s).d.eccAt (carveAt 0 o) 64 = true := by
    simp only [eccOver, onDv, Dev.eccAt, List.any_cons, Bool.or_eq_true, decide_eq_true_eq]; left; omega
  have h1 : (eccOver o s).d.eccAt (carveAt 1 o) 64 = true := by
    simp only [eccOver, onDv, Dev.eccAt, List.any_cons, Bool.or_eq_true, decide_eq_true_eq]; right; left; omega
  simp [Dev.carveStack, h0, h1]

theorem find_mem {α : Type} {k : Nat} : ∀ {l : NMap α}, k ∈ l.map (·.1) → l.find k ≠ none
  | [], h => by simp at h
  | (j, x) :: l, h => by
    by_cases e : k = j
    · simp [NMap.find, e]
    · have : k ∈ l.map (·.1) := by simpa [e] using h
      simpa [NMap.find, e] using find_mem this

theorem tcamFull_ent : ∀ i < 1024, (lost tcamFull).d.ent 0 i ≠ none := fun i hi =>
  find_mem (l := (tblKey 2 10, row 5 1 0) :: tcamFull) (List.mem_cons_of_mem _ (by
    simp only [tcamFull, List.map_map, List.mem_map, List.mem_range]
    exact ⟨i, hi, rfl⟩))

/-- Cases of clauses of TableUpkeep. -/
theorem witness_TableUpkeep_1 :
    (Reaches bst fm RF.TBL_TCAM_PART 0 (1024 : Word)) ∧ (bst.d.entries 0 = [])
    ∧ (Reaches (onDv (fun d => d.setEnt 0 130047 (setBits (coord 12) 511 510 2)) bst) fm RF.TBL_TCAM_PART 0 (130048 : Word))
        ∧ ((130047, (setBits (coord 12) 511 510 2)) ∈ (onDv (fun d => d.setEnt 0 130047 (setBits (coord 12) 511 510 2)) bst).d.entries 0)
        ∧ (1024 ≤ 130047) ∧ (130047 < 131072) ∧ (tcamKind (setBits (coord 12) 511 510 2) = 2) ∧ ((onDv (fun d => d.setEnt 0 130047 (setBits (coord 12)
          511 510 2)) bst).d.fld F.TBL_DMA_LOCK_COMPAT 0 = 0) ∧ (bitsOf (130048 : Word) 16 0 = 130048)
    ∧ (Reaches bst fm RF.TBL_DMA_LOCK 0 (0x4000000000000000 : Word)) ∧ (bst.d.tablesEmpty = true) ∧ (bst.d.fld F.TBL_DMA_LOCK_STATE 0 = 0)
        ∧ (bitOf (0x4000000000000000 : Word) 63 = false) ∧ (bst.d.fld F.TBL_DMA_LOCK_COMPAT 0 = 0) ∧ (bitOf (0x4000000000000000 : Word) 62 = true)
    ∧ (Reaches tables fm RF.TBL_DMA_LOCK 0 (0x4000000000000000 : Word)) ∧ (bitOf (0x4000000000000000 : Word) 62 = true)
        ∧ (tables.d.fld F.TBL_DMA_LOCK_COMPAT 0 = 0) ∧ (tables.d.tablesEmpty = false)
    ∧ (Reaches (compat 0 bst) fm RF.TBL_DMA_LOCK 0 (0xC000000000000000 : Word)) ∧ (bitOf (0xC000000000000000 : Word) 63 = true)
        ∧ (bitOf (0xC000000000000000 : Word) 62 = true) ∧ ((compat 0 bst).d.fld F.TBL_DMA_LOCK_COMPAT 0 = 1) ∧ ((compat 0 bst).d.fld
          F.TBL_DMA_LOCK_STATE 0 = 0)
    ∧ (Reaches (compat 1 bst) fm RF.TBL_DMA_LOCK 0 (0x4000000000000000 : Word)) ∧ (bitOf (0x4000000000000000 : Word) 63 = false)
        ∧ (bitOf (0x4000000000000000 : Word) 62 = true) ∧ ((compat 1 bst).d.fld F.TBL_DMA_LOCK_COMPAT 0 = 1) ∧ ((compat 1 bst).d.fld
          F.TBL_DMA_LOCK_STATE 0 = 1)
    ∧ (Reaches (compat 2 bst) fm RF.TBL_DMA_LOCK 0 (0x4000000000000000 : Word)) ∧ ((compat 2 bst).d.fld F.TBL_DMA_LOCK_STATE 0 = 2)
        ∧ (bitsOf (0x4000000000000000 : Word) 62 62 = (compat 2 bst).d.fld F.TBL_DMA_LOCK_COMPAT 0)
    ∧ ((compat 2 bst).d.fld F.TBL_DMA_LOCK_STATE 0 = 2) ∧ (0 = 0 ∧ (compat 2 bst).d.stackUp 0 = true ∨ 0 = 1 ∧ (compat 2 bst).d.stackUp 0 = false
        ∧ (compat 2 bst).d.stackUp 1 = true) ∧ ((compat 2 bst).memOk) ∧ (bst.mem = []) := by
  repeat' first
    | with_reducible exact tcamFull_ent
    | decide +kernel
    | apply And.intro
    | (unfold State.memOk; decide +kernel)
    | exact fun h => h (eccOver_unread _ _)
    | apply Reaches.mk

/-- Cases of clauses of TableUpkeep. -/
theorem witness_TableUpkeep_2 :
    ((compat 2 (noStack 21 bst)).d.fld F.TBL_DMA_LOCK_STATE 0 = 2) ∧ (1 = 0 ∧ (compat 2 (noStack 21 bst)).d.stackUp 0 = true
        ∨ 1 = 1 ∧ (compat 2 (noStack 21 bst)).d.stackUp 0 = false ∧ (compat 2 (noStack 21 bst)).d.stackUp 1 = true)
        ∧ ((compat 2 (noStack 21 bst)).memOk) ∧ (bst.mem = [])
    ∧ ((compat 2 (noStack 22 (noStack 21 bst))).d.fld F.TBL_DMA_LOCK_STATE 0 = 2) ∧ (¬PairServes (compat 2 (noStack 22 (noStack 21 bst))))
    ∧ (bst.d.tab.cmd = none) ∧ (PairServes bst)
    ∧ ((commanded 0 bst).d.tab.cmd ≠ none)
    ∧ (tblKey 0 1024 ∈ flawed.d.tab.parity) ∧ (0 < 6) ∧ (1024 < 2 ^ 20) ∧ (flawed.d.tab.cmd = none) ∧ (PairServes flawed)
        ∧ (CopyReads flawed (tblKey 0 1024))
    ∧ (tblKey 0 1024 ∈ (eccOver (copyOff (tblKey 0 1024)) flawed).d.tab.parity) ∧ (0 < 6) ∧ (1024 < 2 ^ 20) ∧ ((eccOver (copyOff (tblKey 0 1024))
          flawed).d.tab.cmd = none) ∧ (PairServes (eccOver (copyOff (tblKey 0 1024)) flawed)) ∧ (¬CopyReads (eccOver (copyOff (tblKey 0 1024)) flawed)
          (tblKey 0 1024))
    ∧ (7 ∈ (lost []).d.net.downLost) ∧ ((lost []).d.fld F.TBL_DOWN_VALID 7 = 1) ∧ (7 < (lost []).d.downSize) ∧ ((lost []).d.tab.cmd = none)
        ∧ ((lost []).d.fld F.TBL_UP_VALID (caPod (lost []).d.ownCa) = 1) ∧ ((lost []).d.setNonEmpty ((lost []).d.fld F.TBL_UP_SET (caPod (lost
          []).d.ownCa)) = true) ∧ (0 < 1024) ∧ ((lost []).d.ent 0 0 = none)
    ∧ (7 ∈ (lost tcamButLast).d.net.downLost) ∧ ((lost tcamButLast).d.fld F.TBL_DOWN_VALID 7 = 1) ∧ (7 < (lost tcamButLast).d.downSize)
        ∧ ((lost tcamButLast).d.tab.cmd = none) ∧ ((lost tcamButLast).d.fld F.TBL_UP_VALID (caPod (lost tcamButLast).d.ownCa) = 1)
        ∧ ((lost tcamButLast).d.setNonEmpty ((lost tcamButLast).d.fld F.TBL_UP_SET (caPod (lost tcamButLast).d.ownCa)) = true)
        ∧ (1023 < 1024) ∧ ((lost tcamButLast).d.ent 0 1023 = none) := by
  repeat' first
    | with_reducible exact tcamFull_ent
    | decide +kernel
    | apply And.intro
    | (unfold PairServes; decide +kernel)
    | (unfold CopyReads; decide +kernel)
    | (unfold State.memOk; decide +kernel)
    | exact fun h => h (eccOver_unread _ _)

/-- Cases of clauses of TableUpkeep. -/
theorem witness_TableUpkeep_3 :
    (7 ∈ (lost tcamFull).d.net.downLost) ∧ ((lost tcamFull).d.fld F.TBL_DOWN_VALID 7 = 1) ∧ (7 < (lost tcamFull).d.downSize)
        ∧ ((lost tcamFull).d.tab.cmd = none) ∧ ((lost tcamFull).d.fld F.TBL_UP_VALID (caPod (lost tcamFull).d.ownCa) = 1)
        ∧ ((lost tcamFull).d.setNonEmpty ((lost tcamFull).d.fld F.TBL_UP_SET (caPod (lost tcamFull).d.ownCa)) = true)
        ∧ (∀ i < 1024, (lost tcamFull).d.ent 0 i ≠ none)
    ∧ (provided.d.tab.prov.find 1023 = some (7, 5)) ∧ ((0, [5]) ∈ (provided.d.members 5).1) ∧ (provided.d.memberAlive (0, [5]).2 = true)
        ∧ (provided.d.tab.cmd = none)
    ∧ (Reaches bst fm RF.WRD_COLL_POOL 0 (0 : Word)) ∧ (bst.d.fld F.WRD_COLL_POOL_ADMITTED 0 = 0) ∧ (bitsOf (0 : Word) 52 32 + 262144 ≤
          bst.d.sharedTotal + bst.d.fld F.WRD_COLL_POOL_POOL 0)
    ∧ (Reaches (onDv (fun d => d.setFld F.WRD_COLL_POOL_ADMITTED 0 1) bst) fm RF.WRD_COLL_POOL 0 (0x100000000 : Word))
        ∧ ((onDv (fun d => d.setFld F.WRD_COLL_POOL_ADMITTED 0 1) bst).d.fld F.WRD_COLL_POOL_ADMITTED 0 ≠ 0) ∧ (bitsOf (0x100000000 : Word) 52 32 ≠
          (onDv (fun d => d.setFld F.WRD_COLL_POOL_ADMITTED 0 1) bst).d.fld F.WRD_COLL_POOL_POOL 0)
    ∧ (63 < 64) ∧ (Reaches bound64 fm (if true = true then RF.TBL_ENS_B else RF.TBL_ENS_A) 63 (0 : Word)) ∧ (bound64.d.groupBound true 63 = true)
    ∧ (63 < 64) ∧ (Reaches bst fm (if false = true then RF.TBL_ENS_B else RF.TBL_ENS_A) 63 (0 : Word)) ∧ (bst.d.groupBound true 63 = false)
        ∧ (false = false) ∧ (bitOf (0 : Word) 63 = false)
    ∧ (0 < 64) ∧ (Reaches bst fm (if false = true then RF.TBL_ENS_B else RF.TBL_ENS_A) 0 (0x8000000000000000 : Word))
        ∧ (bst.d.groupBound true 0 = false) ∧ (false = false) ∧ (bitOf (0x8000000000000000 : Word) 63 = true)
        ∧ (bitsOf (0x8000000000000000 : Word) 3 0 = 0)
    ∧ (0 < 64) ∧ (Reaches bst fm (if true = true then RF.TBL_ENS_B else RF.TBL_ENS_A) 0 (0 : Word)) ∧ (bst.d.groupBound true 0 = false)
        ∧ (true = true) ∧ (bst.d.fld F.TBL_ENS_A_VALID 0 = 0) := by
  repeat' first
    | with_reducible exact tcamFull_ent
    | decide +kernel
    | apply And.intro
    | exact fun h => h (eccOver_unread _ _)
    | apply Reaches.mk

/-! ## Border ports -/

/-- Border ports 64 and 65, UP, with production 9; a frame to an address; a PFC frame. -/
def borders : State := [64, 65].foldl (fun s l => onDv (fun d => (((d.setFld F.PRT_BORDER_EN l 1).setFld F.PRT_BORDER_PROD l 9).setFld F.PRT_BORDER_PVID l 5).setFld F.GLB_PROD_STATE 9 1)
  (link l 2 3 s)) bst
def withFcs (l : List Byte) : List Byte := l ++ fcsOf l
def frame (da : Nat) : List Byte := withFcs (bytesOf 6 da ++ bytesOf 6 0x020000000001 ++ bytesOf 2 0x0800 ++ List.replicate 46 0)
def pfcFrame : List Byte := withFcs (bytesOf 6 0x0180C2000001 ++ bytesOf 6 0x112233445566 ++ bytesOf 2 0x8808 ++ bytesOf 2 0x0101 ++ bytesOf 2 5 ++ List.replicate 42 0)
/-- Reserved cells of port 64, and those in use; an entry for an address, learned or static, of an age. -/
def roomy5 (cap used : Nat) : State := onDv (fun d => d.setLv 517 { d.lv 517 with resCap := cap, resUsed := used }) borders
def macEntry (out : Nat) (static : Bool) (age : Nat) : BitVec 512 :=
  let k := exKey 9 5 0x021122334455
  entry [(0, 63, 40, k / 2 ^ 48), (1, 63, 16, k % 2 ^ 48), (2, 63, 63, bit static), (2, 41, 32, out), (3, 7, 0, age)]
def known65 : BitVec 512 := macEntry 65 true 0
def way : Nat := (borders.d.exWays (exKey 9 5 0x021122334455)).head?.getD 0
def known (out : Nat) (static : Bool) (s : State) : State := onDv (fun d => d.setEnt 1 way (macEntry out static 0)) s
def agedEntry (static : Bool) (age : Nat) : BitVec 512 := macEntry 64 static age
def aged (n : Nat) (static : Bool) (age : Nat) : State :=
  onDv (fun d => (d.setFld F.TBL_LEARN_CTL_AGE_TIME 0 n).setEnt 1 way (agedEntry static age)) borders
def encapsulated : Pkt := { packet 1 5 (.atFn 0) with rw := 0x441 }

/-- Cases of clauses of BorderEthernet. -/
theorem witness_BorderEthernet_1 :
    (64 < borders.d.nLanes) ∧ (borders.d.borderUp 64 = true) ∧ (borders.d.tmu.refOk = true) ∧ (frameGood (frame 0x021122334455 ++ [0]) = false)
    ∧ (64 < borders.d.nLanes) ∧ (borders.d.borderUp 64 = true) ∧ (borders.d.tmu.refOk = true) ∧ (frameGood (List.replicate 63 0) = false)
    ∧ (BorderCase borders 64 (frame 0x021122334455)) ∧ (borders.d.fld F.PRT_LEARN_LEARN_EN 64 = 0) ∧ (borders.d.exFind (exKey (borders.d.fld
          F.PRT_BORDER_PROD 64) (frameVid borders 64 (frame 0x021122334455)) (frameDa (frame 0x021122334455))) = none)
        ∧ (isGroup (frameDa (frame 0x021122334455)) = false) ∧ (borders.d.fld F.PRT_BORDER_UNK_FLOOD 64 = 0)
    ∧ (BorderCase (roomy5 18 0) 64 (frame 0xFFFFFFFFFFFF)) ∧ ((roomy5 18 0).d.fld F.PRT_LEARN_LEARN_EN 64 = 0)
        ∧ ((roomy5 18 0).d.exFind (exKey ((roomy5 18 0).d.fld F.PRT_BORDER_PROD 64) (frameVid (roomy5 18 0) 64 (frame 0xFFFFFFFFFFFF)) (frameDa (frame
          0xFFFFFFFFFFFF))) = none) ∧ (isGroup (frameDa (frame 0xFFFFFFFFFFFF)) = true ∨ (roomy5 18 0).d.fld F.PRT_BORDER_UNK_FLOOD 64 = 1)
        ∧ (IngressRoom (roomy5 18 0) 64)
    ∧ (BorderCase (onDv (fun d => (d.setFld F.PRT_BORDER_UNK_FLOOD 64 1).setFld F.PRT_BORDER_PFC_EN 64 1) borders) 64 (frame 0x021122334455))
        ∧ ((onDv (fun d => (d.setFld F.PRT_BORDER_UNK_FLOOD 64 1).setFld F.PRT_BORDER_PFC_EN 64 1) borders).d.fld F.PRT_LEARN_LEARN_EN 64 = 0)
        ∧ ((onDv (fun d => (d.setFld F.PRT_BORDER_UNK_FLOOD 64 1).setFld F.PRT_BORDER_PFC_EN 64 1) borders).d.exFind (exKey ((onDv (fun d => (d.setFld
          F.PRT_BORDER_UNK_FLOOD 64 1).setFld F.PRT_BORDER_PFC_EN 64 1) borders).d.fld F.PRT_BORDER_PROD 64) (frameVid (onDv (fun d => (d.setFld
          F.PRT_BORDER_UNK_FLOOD 64 1).setFld F.PRT_BORDER_PFC_EN 64 1) borders) 64 (frame 0x021122334455)) (frameDa (frame 0x021122334455))) = none)
        ∧ (isGroup (frameDa (frame 0x021122334455)) = true ∨ (onDv (fun d => (d.setFld F.PRT_BORDER_UNK_FLOOD 64 1).setFld F.PRT_BORDER_PFC_EN 64 1)
          borders).d.fld F.PRT_BORDER_UNK_FLOOD 64 = 1) ∧ (IngressRoom (onDv (fun d => (d.setFld F.PRT_BORDER_UNK_FLOOD 64 1).setFld
          F.PRT_BORDER_PFC_EN 64 1) borders) 64)
    ∧ (BorderCase (known 65 true (roomy5 18 0)) 64 (frame 0x021122334455)) ∧ ((known 65 true (roomy5 18 0)).d.fld F.PRT_LEARN_LEARN_EN 64 = 0)
        ∧ ((known 65 true (roomy5 18 0)).d.exFind (exKey ((known 65 true (roomy5 18 0)).d.fld F.PRT_BORDER_PROD 64) (frameVid (known 65 true (roomy5
          18 0)) 64 (frame 0x021122334455)) (frameDa (frame 0x021122334455))) = some way) ∧ ((known 65 true (roomy5 18 0)).d.ent 1 way = some known65)
        ∧ ((known 65 true (roomy5 18 0)).d.badParity 1 way = false) ∧ (exKind known65 = 0) ∧ (exLane known65 = 65)
        ∧ ((known 65 true (roomy5 18 0)).d.isBorderPort 65 = true) ∧ (IngressRoom (known 65 true (roomy5 18 0)) 64)
    ∧ (BorderCase (known 65 true (onDv (fun d => d.setLv 517 { d.lv 517 with shHeld := 10000000 }) (roomy5 10 10))) 64 (frame 0x021122334455))
        ∧ ((known 65 true (onDv (fun d => d.setLv 517 { d.lv 517 with shHeld := 10000000 }) (roomy5 10 10))).d.fld F.PRT_LEARN_LEARN_EN 64 = 0)
        ∧ ((known 65 true (onDv (fun d => d.setLv 517 { d.lv 517 with shHeld := 10000000 }) (roomy5 10 10))).d.exFind (exKey ((known 65 true (onDv
          (fun d => d.setLv 517 { d.lv 517 with shHeld := 10000000 }) (roomy5 10 10))).d.fld F.PRT_BORDER_PROD 64) (frameVid (known 65 true (onDv (fun
          d => d.setLv 517 { d.lv 517 with shHeld := 10000000 }) (roomy5 10 10))) 64 (frame 0x021122334455)) (frameDa (frame 0x021122334455))) = some
          way) ∧ ((known 65 true (onDv (fun d => d.setLv 517 { d.lv 517 with shHeld := 10000000 }) (roomy5 10 10))).d.ent 1 way = some known65)
        ∧ ((known 65 true (onDv (fun d => d.setLv 517 { d.lv 517 with shHeld := 10000000 }) (roomy5 10 10))).d.badParity 1 way = false)
        ∧ (exKind known65 = 0) ∧ (exLane known65 = 65) ∧ ((known 65 true (onDv (fun d => d.setLv 517 { d.lv 517 with shHeld := 10000000 }) (roomy5 10
          10))).d.isBorderPort 65 = true) ∧ (IngressFull (known 65 true (onDv (fun d => d.setLv 517 { d.lv 517 with shHeld := 10000000 }) (roomy5 10
          10))) 64)
    ∧ (BorderCase (onDv (fun d => (d.setFld F.PRT_LEARN_LEARN_EN 64 1).setFld F.PRT_LEARN_LEARN_LIMIT 64 1) borders) 64 (frame 0x021122334455))
        ∧ ((onDv (fun d => (d.setFld F.PRT_LEARN_LEARN_EN 64 1).setFld F.PRT_LEARN_LEARN_LIMIT 64 1) borders).d.fld F.PRT_LEARN_LEARN_EN 64 = 1)
        ∧ (isGroup (frameSa (frame 0x021122334455)) = false) ∧ ((onDv (fun d => (d.setFld F.PRT_LEARN_LEARN_EN 64 1).setFld F.PRT_LEARN_LEARN_LIMIT 64
          1) borders).d.exFind (exKey ((onDv (fun d => (d.setFld F.PRT_LEARN_LEARN_EN 64 1).setFld F.PRT_LEARN_LEARN_LIMIT 64 1) borders).d.fld
          F.PRT_BORDER_PROD 64) (frameVid (onDv (fun d => (d.setFld F.PRT_LEARN_LEARN_EN 64 1).setFld F.PRT_LEARN_LEARN_LIMIT 64 1) borders) 64 (frame
          0x021122334455)) (frameSa (frame 0x021122334455))) = none) ∧ (((borders.d.exWays (exKey 9 5 0x020000000001)).head?.getD 0) ∈ (onDv (fun d =>
          (d.setFld F.PRT_LEARN_LEARN_EN 64 1).setFld F.PRT_LEARN_LEARN_LIMIT 64 1) borders).d.exWays (exKey ((onDv (fun d => (d.setFld
          F.PRT_LEARN_LEARN_EN 64 1).setFld F.PRT_LEARN_LEARN_LIMIT 64 1) borders).d.fld F.PRT_BORDER_PROD 64) (frameVid (onDv (fun d => (d.setFld
          F.PRT_LEARN_LEARN_EN 64 1).setFld F.PRT_LEARN_LEARN_LIMIT 64 1) borders) 64 (frame 0x021122334455)) (frameSa (frame 0x021122334455))))
        ∧ ((onDv (fun d => (d.setFld F.PRT_LEARN_LEARN_EN 64 1).setFld F.PRT_LEARN_LEARN_LIMIT 64 1) borders).d.ent 1 ((borders.d.exWays (exKey 9 5
          0x020000000001)).head?.getD 0) = none) ∧ ((onDv (fun d => (d.setFld F.PRT_LEARN_LEARN_EN 64 1).setFld F.PRT_LEARN_LEARN_LIMIT 64 1)
          borders).d.fld F.PRT_LEARN_LEARNED 64 < (onDv (fun d => (d.setFld F.PRT_LEARN_LEARN_EN 64 1).setFld F.PRT_LEARN_LEARN_LIMIT 64 1)
          borders).d.fld F.PRT_LEARN_LEARN_LIMIT 64) := by
  repeat' first
    | decide +kernel
    | apply And.intro
    | (unfold IngressRoom; decide +kernel)
    | apply BorderCase.mk

/-- Cases of clauses of BorderEthernet. -/
theorem witness_BorderEthernet_2 :
    (64 < (onDv (fun d => d.setFld F.PRT_BORDER_PFC_EN 64 1) borders).d.nLanes) ∧ ((onDv (fun d => d.setFld F.PRT_BORDER_PFC_EN 64 1)
          borders).d.borderUp 64 = true) ∧ ((onDv (fun d => d.setFld F.PRT_BORDER_PFC_EN 64 1) borders).d.tmu.refOk = true)
        ∧ (frameGood pfcFrame = true) ∧ (bytesAt pfcFrame 12 2 = 34824) ∧ (bytesAt pfcFrame 14 2 = 257) ∧ ((onDv (fun d => d.setFld
          F.PRT_BORDER_PFC_EN 64 1) borders).d.fld F.PRT_BORDER_PFC_EN 64 = 1)
    ∧ (Reaches (onDv (fun d => d.setFld F.PRT_BORDER_EN 65 0) borders) fm RF.PRT_BORDER 64 (0xA000000000000000 : Word))
        ∧ (bitsOf (0xA000000000000000 : Word) 63 63 = 1) ∧ (64 < 1024) ∧ ((onDv (fun d => d.setFld F.PRT_BORDER_EN 65 0) borders).d.borderFits 64 (2 ^
          bitsOf (0xA000000000000000 : Word) 62 61) = true)
    ∧ (Reaches borders fm RF.PRT_BORDER 65 (0xA000000000000000 : Word)) ∧ (bitsOf (0xA000000000000000 : Word) 63 63 = 1)
        ∧ (65 < 1024) ∧ (borders.d.borderFits 65 (2 ^ bitsOf (0xA000000000000000 : Word) 62 61) = false)
    ∧ (Reaches borders fm RF.PRT_BORDER 64 (0 : Word)) ∧ (bitsOf (0 : Word) 63 63 = 0) ∧ (64 < 1024) ∧ (borders.d.isBorderPort 64 = true)
    ∧ ((commanded 0 borders).d.tab.cmd ≠ none)
    ∧ ((aged 1 true 0).d.tab.cmd = none) ∧ ((aged 1 true 0).d.fld F.TBL_LEARN_CTL_AGE_TIME 0 ≠ 0) ∧ (∀ x ∈ (aged 1 true 0).d.entries 1, exStatic x.2 =
          true)
    ∧ ((aged 1 false 0).d.tab.cmd = none) ∧ ((aged 1 false 0).d.fld F.TBL_LEARN_CTL_AGE_TIME 0 ≠ 0) ∧ ((aged 1 false 0).d.tab.ent = [(2 ^ 20 + way,
          (agedEntry false 0))]) ∧ (way < 2 ^ 20) ∧ (exStatic (agedEntry false 0) = false) ∧ (exAge (agedEntry false 0) = 0)
    ∧ ((aged 1 false 1).d.tab.cmd = none) ∧ ((aged 1 false 1).d.fld F.TBL_LEARN_CTL_AGE_TIME 0 ≠ 0) ∧ ((aged 1 false 1).d.tab.ent = [(2 ^ 20 + way,
          (agedEntry false 1))]) ∧ (way < 2 ^ 20) ∧ (exStatic (agedEntry false 1) = false) ∧ (1 ≤ exAge (agedEntry false 1)) := by
  repeat' first
    | decide +kernel
    | apply And.intro
    | apply Reaches.mk

/-- Cases of clauses of BorderEthernet. -/
theorem witness_BorderEthernet_3 :
    (64 < borders.d.nLanes) ∧ (borders.d.borderUp 64 = true) ∧ (64 ∉ borders.d.tab.flush)
    ∧ (64 < (commanded 0 (link 64 2 0 borders)).d.nLanes) ∧ ((commanded 0 (link 64 2 0 borders)).d.borderUp 64 = false
        ∨ 64 ∈ (commanded 0 (link 64 2 0 borders)).d.tab.flush) ∧ ((commanded 0 (link 64 2 0 borders)).d.tab.cmd ≠ none)
    ∧ (64 < (onDv (fun d => { d with tab := { d.tab with flush := [64] } }) borders).d.nLanes) ∧ ((onDv (fun d => { d with tab := { d.tab with flush := [64] } })
          borders).d.borderUp 64 = false ∨ 64 ∈ (onDv (fun d => { d with tab := { d.tab with flush := [64] } }) borders).d.tab.flush)
        ∧ ((onDv (fun d => { d with tab := { d.tab with flush := [64] } }) borders).d.tab.cmd = none) ∧ ((onDv (fun d => { d with tab := { d.tab with flush := [64] } })
          borders).d.tab.ent.sorted = true)
    ∧ (64 < (link 64 2 0 borders).d.nLanes) ∧ ((link 64 2 0 borders).d.borderUp 64 = false ∨ 64 ∈ (link 64 2 0 borders).d.tab.flush)
        ∧ ((link 64 2 0 borders).d.tab.cmd = none) ∧ ((link 64 2 0 borders).d.tab.ent.sorted = true)
    ∧ ((holding [encapsulated] borders).d.net.pkts = [encapsulated]) ∧ (encapsulated.place = Place.atFn 0) ∧ (encapsulated.opc = 1)
        ∧ (bitOf encapsulated.rw 10 = true) ∧ (bitsOf encapsulated.rw 9 0 = 65) ∧ ((holding [encapsulated] borders).d.isBorderPort 65 = true) := by
  repeat' first
    | decide +kernel

/-! ## Lanes -/

/-- Lane 1023 of a TYPE, with EN and STATE, on its way out of service or not; its peer is lane 9 of 0x20. -/
def lane (ty en n : Nat) (e : Option Exit) : State := onDv (fun d =>
  (((((d.setFld F.PRT_LINK_CTL_EN 1023 en).setFld F.PRT_PEER_VERSION 1023 1).setFld F.PRT_PEER_CA 1023 0x20).setFld F.PRT_PEER_LANE 1023 9).setFld F.PRT_PEER_YEFEDRA 1023 1).setLane 1023
    { peerServing := true, exiting := e }) (link 1023 ty n bst)
/-- The same with a link message received, and the elapsed time at its last HEARTBEAT or draining, and now. -/
def heard (ms : List LinkMsg) (last : Option Nat) (now : Nat) (s : State) : State := onDv (fun d =>
  { (d.setLane 1023 { d.lane 1023 with linkRx := ms, hbAt := last, drainAt := last, absentRun := true }) with tmu := { d.tmu with total := now } }) s
/-- A ROLL_CALL that has seen this device, or a HEARTBEAT, of 0x20. -/
def msg : BitVec 352 := BitVec.ofNat 352 (0x2000 * 2 ^ 288 + 2 ^ 216)

/-- Cases of clauses of LaneConfiguration. -/
theorem witness_LaneConfiguration_1 :
    (Calm (lane 1 0 0 none)) ∧ (1023 < 1024) ∧ (Reaches (lane 1 0 0 none) fm RF.PRT_LINK_CTL 1023 (0xA000000000000000 : Word))
        ∧ (bitsOf (0xA000000000000000 : Word) 60 60 = 0) ∧ (bitsOf (0xA000000000000000 : Word) 62 61 ≤ 1) ∧ ((lane 1 0 0 none).d.fld
          F.PRT_LINK_CTL_TYPE 1023 = bitsOf (0xA000000000000000 : Word) 62 61) ∧ ((lane 1 0 0 none).d.fld F.PRT_LINK_CTL_EN 1023 = 0)
        ∧ (bitsOf (0xA000000000000000 : Word) 63 63 = 1) ∧ (((lane 1 0 0 none).d.lane 1023).exiting = none)
    ∧ (Calm (lane 1 1 3 none)) ∧ (1023 < 1024) ∧ (Reaches (lane 1 1 3 none) fm RF.PRT_LINK_CTL 1023 (0x2000000000000000 : Word))
        ∧ (bitsOf (0x2000000000000000 : Word) 60 60 = 0) ∧ (bitsOf (0x2000000000000000 : Word) 62 61 ≤ 1) ∧ ((lane 1 1 3 none).d.fld
          F.PRT_LINK_CTL_TYPE 1023 = bitsOf (0x2000000000000000 : Word) 62 61) ∧ ((lane 1 1 3 none).d.fld F.PRT_LINK_CTL_EN 1023 = 1)
        ∧ (bitsOf (0x2000000000000000 : Word) 63 63 = 0) ∧ ((lane 1 1 3 none).d.lstate 1023 = 3)
    ∧ (Calm (lane 1 1 2 none)) ∧ (1023 < 1024) ∧ (Reaches (lane 1 1 2 none) fm RF.PRT_LINK_CTL 1023 (0x2000000000000000 : Word))
        ∧ (bitsOf (0x2000000000000000 : Word) 60 60 = 0) ∧ (bitsOf (0x2000000000000000 : Word) 62 61 ≤ 1) ∧ ((lane 1 1 2 none).d.fld
          F.PRT_LINK_CTL_TYPE 1023 = bitsOf (0x2000000000000000 : Word) 62 61) ∧ ((lane 1 1 2 none).d.fld F.PRT_LINK_CTL_EN 1023 = 1)
        ∧ (bitsOf (0x2000000000000000 : Word) 63 63 = 0) ∧ ((lane 1 1 2 none).d.lstate 1023 ≠ 3)
    ∧ (Calm (lane 1 1 3 none)) ∧ (1023 < 1024) ∧ (Reaches (lane 1 1 3 none) fm RF.PRT_LINK_CTL 1023 (setBits ((lane 1 1 3 none).d.rd RF.PRT_LINK_CTL
          1023) 60 60 1)) ∧ (3 ≤ (lane 1 1 3 none).d.lstate 1023) ∧ ((lane 1 1 3 none).d.lstate 1023 ≤ 5) ∧ ((lane 1 1 3 none).d.fld
          F.PRT_LINK_CTL_TYPE 1023 ≤ 1)
    ∧ (Calm (lane 0 1 5 none)) ∧ (1023 < 1024) ∧ (Reaches (lane 0 1 5 none) fm RF.PRT_LINK_CTL 1023 (setBits ((lane 0 1 5 none).d.rd RF.PRT_LINK_CTL
          1023) 60 60 1)) ∧ (3 ≤ (lane 0 1 5 none).d.lstate 1023) ∧ ((lane 0 1 5 none).d.lstate 1023 ≤ 5) ∧ ((lane 0 1 5 none).d.fld
          F.PRT_LINK_CTL_TYPE 1023 ≤ 1)
    ∧ (Calm (lane 1 0 0 none)) ∧ (1023 < 1024) ∧ (Reaches (lane 1 0 0 none) fm RF.WNG_LANE_CTL (65 * (1023 / 64) + 1023 % 64) (0 : Word))
        ∧ (bitsOf (0 : Word) 62 62 = 0)
    ∧ (Calm (lane 1 1 1 none)) ∧ (1023 < 1024) ∧ (Reaches (lane 1 1 1 none) fm RF.WNG_LANE_CTL (65 * (1023 / 64) + 1023 % 64) (0x4000000000000000 :
          Word)) ∧ (bitsOf (0x4000000000000000 : Word) 62 62 = 1) ∧ (1 ≤ (lane 1 1 1 none).d.lstate 1023) ∧ ((lane 1 1 1 none).d.lstate 1023 ≤ 5)
        ∧ ((lane 1 1 1 none).d.ltype 1023 ≤ 1) ∧ (((lane 1 1 1 none).d.lane 1023).exiting ≠ some Exit.retype)
        ∧ ((lane 1 1 1 none).d.fld F.WNG_LANE_CTL_RETRAIN (65 * (1023 / 64) + 1023 % 64) = 0)
    ∧ (Calm (lane 0 1 5 (some .recall))) ∧ (1023 < 1024) ∧ (Reaches (lane 0 1 5 (some .recall)) fm RF.WNG_LANE_CTL (65 * (1023 / 64) + 1023 % 64)
          (0x4000000000000000 : Word)) ∧ (bitsOf (0x4000000000000000 : Word) 62 62 = 1) ∧ (1 ≤ (lane 0 1 5 (some .recall)).d.lstate 1023)
        ∧ ((lane 0 1 5 (some .recall)).d.lstate 1023 ≤ 5) ∧ ((lane 0 1 5 (some .recall)).d.ltype 1023 ≤ 1) ∧ (((lane 0 1 5 (some .recall)).d.lane
          1023).exiting ≠ some Exit.retype) ∧ ((lane 0 1 5 (some .recall)).d.fld F.WNG_LANE_CTL_RETRAIN (65 * (1023 / 64) + 1023 % 64) = 0) := by
  repeat' first
    | decide +kernel
    | apply And.intro
    | apply Reaches.mk

/-- Cases of clauses of LaneConfiguration. -/
theorem witness_LaneConfiguration_2 :
    (Calm (lane 1 0 3 (some .retype))) ∧ (1023 < 1024) ∧ (Reaches (lane 1 0 3 (some .retype)) fm RF.WNG_LANE_CTL (65 * (1023 / 64) + 1023 % 64)
          (0x4000000000000000 : Word)) ∧ (bitsOf (0x4000000000000000 : Word) 62 62 = 1) ∧ ((lane 1 0 3 (some .retype)).d.lstate 1023 = 3)
        ∧ ((lane 1 0 3 (some .retype)).d.ltype 1023 ≤ 1) ∧ (((lane 1 0 3 (some .retype)).d.lane 1023).exiting = some Exit.retype)
        ∧ ((lane 1 0 3 (some .retype)).d.fld F.PRT_LINK_CTL_EN 1023 = 0) ∧ ((lane 1 0 3 (some .retype)).d.fld F.PRT_LINK_CTL_TYPE 1023 ≠ 3)
        ∧ ((lane 1 0 3 (some .retype)).d.fld F.WNG_LANE_CTL_RETRAIN (65 * (1023 / 64) + 1023 % 64) = 0)
    ∧ (Calm (onDv (fun d => d.setFld F.WNG_LANE_CTL_RETRAIN (65 * (1023 / 64) + 1023 % 64) 1) (lane 1 1 1 none)))
        ∧ (1023 < 1024) ∧ (Reaches (onDv (fun d => d.setFld F.WNG_LANE_CTL_RETRAIN (65 * (1023 / 64) + 1023 % 64) 1) (lane 1 1 1 none)) fm
          RF.WNG_LANE_CTL (65 * (1023 / 64) + 1023 % 64) (0x4000000000000000 : Word)) ∧ (bitsOf (0x4000000000000000 : Word) 62 62 = 1)
        ∧ ((onDv (fun d => d.setFld F.WNG_LANE_CTL_RETRAIN (65 * (1023 / 64) + 1023 % 64) 1) (lane 1 1 1 none)).d.fld F.WNG_LANE_CTL_RETRAIN (65 *
          (1023 / 64) + 1023 % 64) = 1)
    ∧ (Calm (lane 2 1 3 none)) ∧ (1023 < 1024) ∧ (Reaches (lane 2 1 3 none) fm RF.WNG_LANE_CTL (65 * (1023 / 64) + 1023 % 64) (0x4000000000000000 :
          Word)) ∧ (bitsOf (0x4000000000000000 : Word) 62 62 = 1) ∧ ((lane 2 1 3 none).d.lstate 1023 = 3) ∧ ((lane 2 1 3 none).d.ltype 1023 = 2)
        ∧ ((lane 2 1 3 none).d.fld F.WNG_LANE_CTL_RETRAIN (65 * (1023 / 64) + 1023 % 64) = 0)
    ∧ (Calm (lane 0 1 3 none)) ∧ (1023 < 1024) ∧ (Reaches (lane 0 1 3 none) fm RF.PRT_SEAT 1023 (0 : Word)) ∧ ((lane 0 1 3 none).d.fld
          F.PRT_PEER_VERSION 1023 = 1) ∧ ((lane 0 1 3 none).d.lstate 1023 = 3) ∧ ((lane 0 1 3 none).d.ltype 1023 ≤ 1)
        ∧ (bitsOf (0 : Word) 63 62 = 0) ∧ (((lane 0 1 3 none).d.lane 1023).exiting = none)
    ∧ (Calm (lane 1 1 5 none)) ∧ (1023 < 1024) ∧ (Reaches (lane 1 1 5 none) fm RF.PRT_SEAT 1023 (0x4000080090000000 : Word))
        ∧ ((lane 1 1 5 none).d.fld F.PRT_PEER_VERSION 1023 = 1) ∧ ((lane 1 1 5 none).d.lstate 1023 = 5) ∧ ((lane 1 1 5 none).d.ltype 1023 = 1)
        ∧ (bitsOf (0x4000080090000000 : Word) 63 62 = 1) ∧ ((lane 1 1 5 none).d.fld F.PRT_PEER_YEFEDRA 1023 = 1)
        ∧ (bitsOf (0x4000080090000000 : Word) 61 38 = (lane 1 1 5 none).d.fld F.PRT_PEER_CA 1023) ∧ (bitsOf (0x4000080090000000 : Word) 37 28 = (lane
          1 1 5 none).d.fld F.PRT_PEER_LANE 1023)
    ∧ (Calm (lane 1 1 2 none)) ∧ (1023 < 1024) ∧ (Reaches (lane 1 1 2 none) fm RF.PRT_SEAT 1023 (0 : Word)) ∧ ((lane 1 1 2 none).d.fld
          F.PRT_PEER_VERSION 1023 = 1) ∧ ((lane 1 1 2 none).d.lstate 1023 < 3 ∨ 2 ≤ (lane 1 1 2 none).d.ltype 1023)
    ∧ (Calm (lane 2 1 3 none)) ∧ (1023 < 1024) ∧ (Reaches (lane 2 1 3 none) fm RF.PRT_SEAT 1023 (0 : Word)) ∧ ((lane 2 1 3 none).d.fld
          F.PRT_PEER_VERSION 1023 = 1) ∧ ((lane 2 1 3 none).d.lstate 1023 < 3 ∨ 2 ≤ (lane 2 1 3 none).d.ltype 1023)
    ∧ (Calm (lane 1 1 3 (some .recall))) ∧ (1023 < 1024) ∧ (1023 < (lane 1 1 3 (some .recall)).d.nLanes) ∧ ((lane 1 1 3 (some .recall)).d.ltype 1023 ≤
          1) ∧ (((lane 1 1 3 (some .recall)).d.lane 1023).exiting = some .recall) ∧ (((lane 1 1 3 (some .recall)).d.lane 1023).txLow = none)
        ∧ (((lane 1 1 3 (some .recall)).d.lane 1023).txHigh = none) ∧ (.recall = Exit.recall) ∧ ((lane 1 1 3 (some .recall)).d.lstate 1023 = 3) := by
  repeat' first
    | decide +kernel
    | apply And.intro
    | apply Reaches.mk

/-- Cases of clauses of LaneConfiguration. -/
theorem witness_LaneConfiguration_3 :
    (Calm (lane 1 0 3 (some .retype))) ∧ (1023 < 1024) ∧ (1023 < (lane 1 0 3 (some .retype)).d.nLanes) ∧ ((lane 1 0 3 (some .retype)).d.ltype 1023 ≤
          1) ∧ (((lane 1 0 3 (some .retype)).d.lane 1023).exiting = some .retype) ∧ (((lane 1 0 3 (some .retype)).d.lane 1023).txLow = none)
        ∧ (((lane 1 0 3 (some .retype)).d.lane 1023).txHigh = none) ∧ (.retype = Exit.retype) ∧ ((lane 1 0 3 (some .retype)).d.lstate 1023 = 3)
        ∧ ((lane 1 0 3 (some .retype)).d.fld F.PRT_LINK_CTL_EN 1023 = 0) ∧ ((lane 1 0 3 (some .retype)).d.fld F.PRT_LINK_CTL_TYPE 1023 ≠ 3)
    ∧ (Calm (lane 0 1 3 (some (.seatFail 5)))) ∧ (1023 < 1024) ∧ (1023 < (lane 0 1 3 (some (.seatFail 5))).d.nLanes)
        ∧ ((lane 0 1 3 (some (.seatFail 5))).d.ltype 1023 ≤ 1) ∧ (((lane 0 1 3 (some (.seatFail 5))).d.lane 1023).exiting = some (.seatFail 5))
        ∧ (((lane 0 1 3 (some (.seatFail 5))).d.lane 1023).txLow = none) ∧ (((lane 0 1 3 (some (.seatFail 5))).d.lane 1023).txHigh = none)
        ∧ ((.seatFail 5) = Exit.seatFail 5) ∧ ((lane 0 1 3 (some (.seatFail 5))).d.lstate 1023 = 3) := by
  repeat' first
    | decide +kernel
    | apply And.intro

/-- The laser of lane 1023 runs. -/
def lasing (s : State) : State := onDv (fun d => (d.setFld F.WNG_LASER_GROUP (15 * 11) 7).setFld F.WNG_LASER_STATE (15 * 11) 2) s

/-- Cases of clauses of LaneStates. -/
theorem witness_LaneStates_1 :
    (Calm (onDv (fun d => { d with tmu := { d.tmu with refOk := false } }) (lane 1 1 1 none))) ∧ (InState (onDv (fun d => { d with tmu := { d.tmu with refOk := false } })
          (lane 1 1 1 none)) 1023 1) ∧ ((onDv (fun d => { d with tmu := { d.tmu with refOk := false } }) (lane 1 1 1 none)).d.tmu.refOk = false)
    ∧ (Calm (lane 1 1 1 none)) ∧ (InState (lane 1 1 1 none) 1023 1) ∧ ((lane 1 1 1 none).d.tmu.refOk = true)
    ∧ (Calm (lane 1 1 1 none)) ∧ (InState (lane 1 1 1 none) 1023 1)
    ∧ (Calm (lane 1 1 2 none)) ∧ (InState (lane 1 1 2 none) 1023 2)
    ∧ (Calm (lane 0 1 2 none)) ∧ (InState (lane 0 1 2 none) 1023 2)
    ∧ (Calm (heard [⟨false, msg⟩] none 0 (lane 1 1 2 none))) ∧ (RollCallDue (heard [⟨false, msg⟩] none 0 (lane 1 1 2 none)) 1023 msg [])
    ∧ (Calm (heard [⟨false, msg⟩] none 0 (lane 1 1 3 none))) ∧ (1023 < (heard [⟨false, msg⟩] none 0 (lane 1 1 3 none)).d.nLanes)
        ∧ ((heard [⟨false, msg⟩] none 0 (lane 1 1 3 none)).d.linkRuns 1023 = true) ∧ ((heard [⟨false, msg⟩] none 0 (lane 1 1 3 none)).d.lstate 1023 ≠
          2) ∧ (((heard [⟨false, msg⟩] none 0 (lane 1 1 3 none)).d.lane 1023).linkRx = { hb := false, pay := msg } :: [])
    ∧ (Calm (heard [] none 0 (onDv (fun d => d.setFld F.PRT_SEAT_EXPECT 1023 1) (lane 1 1 1 none)))) ∧ (1023 < (heard [] none 0 (onDv (fun d =>
          d.setFld F.PRT_SEAT_EXPECT 1023 1) (lane 1 1 1 none))).d.nLanes) ∧ (((heard [] none 0 (onDv (fun d => d.setFld F.PRT_SEAT_EXPECT 1023 1)
          (lane 1 1 1 none))).d.lane 1023).absentRun = true) ∧ ((heard [] none 0 (onDv (fun d => d.setFld F.PRT_SEAT_EXPECT 1023 1) (lane 1 1 1
          none))).d.fld F.PRT_SEAT_EXPECT 1023 ≠ 0) := by
  repeat' first
    | decide +kernel
    | apply And.intro
    | apply RollCallDue.mk

/-- Cases of clauses of LaneStates. -/
theorem witness_LaneStates_2 :
    (Calm (lasing (lane 1 1 6 none))) ∧ (InState (lasing (lane 1 1 6 none)) 1023 6) ∧ ((lasing (lane 1 1 6 none)).d.fld F.PRT_LINK_CTL_EN 1023 = 1)
        ∧ ((lasing (lane 1 1 6 none)).d.fld F.PRT_LINK_CTL_TYPE 1023 ≤ 1) ∧ ((lasing (lane 1 1 6 none)).d.mayTrain 1023 = true)
    ∧ (Calm (lane 1 0 6 none)) ∧ (InState (lane 1 0 6 none) 1023 6) ∧ ((lane 1 0 6 none).d.fld F.PRT_LINK_CTL_EN 1023 = 0)
        ∧ ((lane 1 0 6 none).d.fld F.PRT_LINK_CTL_TYPE 1023 ≠ 3)
    ∧ (Calm (lane 1 1 6 none)) ∧ (InState (lane 1 1 6 none) 1023 6) ∧ ((lane 1 1 6 none).d.fld F.PRT_LINK_CTL_EN 1023 = 1)
        ∧ ((lane 1 1 6 none).d.fld F.PRT_LINK_CTL_TYPE 1023 ≤ 1) ∧ ((lane 1 1 6 none).d.mayTrain 1023 = false)
    ∧ (Calm (lane 0 1 3 none)) ∧ (1023 < (lane 0 1 3 none).d.nLanes) ∧ (3 ≤ (lane 0 1 3 none).d.lstate 1023) ∧ ((lane 0 1 3 none).d.lstate 1023 ≤ 5)
        ∧ ((lane 0 1 3 none).d.ltype 1023 ≤ 1)
    ∧ (Calm (lane 1 1 5 none)) ∧ (1023 < (lane 1 1 5 none).d.nLanes) ∧ (3 ≤ (lane 1 1 5 none).d.lstate 1023) ∧ ((lane 1 1 5 none).d.lstate 1023 ≤ 5)
        ∧ ((lane 1 1 5 none).d.ltype 1023 ≤ 1)
    ∧ (Calm (heard [⟨true, msg⟩] none 0 (lane 1 1 4 none))) ∧ (1023 < (heard [⟨true, msg⟩] none 0 (lane 1 1 4 none)).d.nLanes)
        ∧ (3 ≤ (heard [⟨true, msg⟩] none 0 (lane 1 1 4 none)).d.lstate 1023) ∧ ((heard [⟨true, msg⟩] none 0 (lane 1 1 4 none)).d.lstate 1023 ≤ 5)
        ∧ ((heard [⟨true, msg⟩] none 0 (lane 1 1 4 none)).d.ltype 1023 ≤ 1) ∧ (((heard [⟨true, msg⟩] none 0 (lane 1 1 4 none)).d.lane 1023).linkRx = { hb := true, pay := msg }
          :: []) ∧ (bitsOf msg 319 288 / 256 = (heard [⟨true, msg⟩] none 0 (lane 1 1 4 none)).d.fld F.PRT_PEER_CA 1023)
    ∧ (Calm (heard [] (some 0) (40000 * 65536) (lane 1 1 3 none))) ∧ (InState (heard [] (some 0) (40000 * 65536) (lane 1 1 3 none)) 1023 3)
        ∧ ((heard [] (some 0) (40000 * 65536) (lane 1 1 3 none)).d.ltype 1023 ≤ 1) ∧ ((heard [] (some 0) (40000 * 65536) (lane 1 1 3 none)).d.ltype
          1023 = 1) ∧ ((heard [] (some 0) (40000 * 65536) (lane 1 1 3 none)).d.hbWithin 1023 (40000 * 65536) = false)
    ∧ (Calm (heard [] (some 0) (40000 * 65536 - 1) (lane 1 1 3 none))) ∧ (InState (heard [] (some 0) (40000 * 65536 - 1) (lane 1 1 3 none)) 1023 3)
        ∧ ((heard [] (some 0) (40000 * 65536 - 1) (lane 1 1 3 none)).d.ltype 1023 ≤ 1) ∧ ((heard [] (some 0) (40000 * 65536 - 1) (lane 1 1 3
          none)).d.ltype 1023 = 0 ∨ (heard [] (some 0) (40000 * 65536 - 1) (lane 1 1 3 none)).d.hbWithin 1023 (40000 * 65536) = true) := by
  repeat' first
    | decide +kernel
    | apply And.intro

/-- Cases of clauses of LaneStates. -/
theorem witness_LaneStates_3 :
    (Calm (lane 0 1 3 none)) ∧ (InState (lane 0 1 3 none) 1023 3) ∧ ((lane 0 1 3 none).d.ltype 1023 ≤ 1) ∧ ((lane 0 1 3 none).d.ltype 1023 = 0
        ∨ (lane 0 1 3 none).d.hbWithin 1023 (40000 * 65536) = true)
    ∧ (Calm (lane 1 1 3 none)) ∧ (InState (lane 1 1 3 none) 1023 3) ∧ ((lane 1 1 3 none).d.ltype 1023 ≤ 1) ∧ (((lane 1 1 3 none).d.lane 1023).drainAt
          = none)
    ∧ (Calm (heard [] (some 0) (50000 * 65536) (lane 1 1 3 none))) ∧ (InState (heard [] (some 0) (50000 * 65536) (lane 1 1 3 none)) 1023 3)
        ∧ ((heard [] (some 0) (50000 * 65536) (lane 1 1 3 none)).d.ltype 1023 ≤ 1) ∧ (((heard [] (some 0) (50000 * 65536) (lane 1 1 3 none)).d.lane
          1023).drainAt = some 0) ∧ ((heard [] (some 0) (50000 * 65536) (lane 1 1 3 none)).d.since 0 ≤ 50000 * 65536)
    ∧ (Calm (heard [] (some 0) (50000 * 65536 + 1) (lane 1 1 3 none))) ∧ (InState (heard [] (some 0) (50000 * 65536 + 1) (lane 1 1 3 none)) 1023 3)
        ∧ ((heard [] (some 0) (50000 * 65536 + 1) (lane 1 1 3 none)).d.ltype 1023 ≤ 1) ∧ (((heard [] (some 0) (50000 * 65536 + 1) (lane 1 1 3
          none)).d.lane 1023).drainAt = some 0) ∧ (50000 * 65536 < (heard [] (some 0) (50000 * 65536 + 1) (lane 1 1 3 none)).d.since 0)
    ∧ (Calm (lane 0 1 3 none)) ∧ (InState (lane 0 1 3 none) 1023 3) ∧ ((lane 0 1 3 none).d.ltype 1023 ≤ 1)
    ∧ (Calm (lane 2 1 0 none)) ∧ (1023 < (lane 2 1 0 none).d.nLanes) ∧ ((lane 2 1 0 none).d.fld F.PRT_LINK_CTL_TYPE 1023 = 2)
        ∧ ((lane 2 1 0 none).d.fld F.PRT_LINK_CTL_EN 1023 = 1) ∧ ((lane 2 1 0 none).d.site (1 + 1023 / 64) = 1)
        ∧ ((lane 2 1 0 none).d.lstate 1023 ≠ 3) ∧ ((lane 2 1 0 none).d.tmu.refOk = true) ∧ ((lane 2 1 0 none).d.laserLost 1023 = false)
        ∧ (∀ x ∈ ((lane 2 1 0 none).d.wing (1023 / 64)).clamped, x ≠ 1023 % 64 ∧ x ≠ 120 + 1023 % 64 / 8)
    ∧ (Calm (lane 2 1 3 none)) ∧ (1023 < (lane 2 1 3 none).d.nLanes) ∧ ((lane 2 1 3 none).d.lstate 1023 = 3)
    ∧ (Calm (lane 2 1 3 none)) ∧ (1023 < (lane 2 1 3 none).d.nLanes) ∧ ((lane 2 1 3 none).d.ltype 1023 = 2) ∧ ((lane 2 1 3 none).d.lstate 1023 = 3) :=
          by
  repeat' first
    | decide +kernel
    | apply And.intro

/-! ## Faults, managers and productions -/

/-- Lanes 64 and 65 lead to 0x30, in two states, fenced or not; HOLD of lane 65. -/
def neighbours (a b f g hold : Nat) : State :=
  let one (l n f h : Nat) (s : State) : State := onDv (fun d => ((((((d.setFld F.PRT_PEER_VERSION l 1).setFld F.PRT_PEER_CA l 0x30).setFld F.PRT_PEER_YEFEDRA l 1).setFld F.PRT_LINK_STAT_FENCED l f).setFld F.PRT_FENCE_HOLD l h).setLane l
    { peerServing := true, fell := true })) (link l 1 n s)
  one 64 a f 0 (one 65 b g hold bst)

theorem to_neighbour {s : State} {lane : Nat} {Q : Nat → Prop}
    (h : ∀ l, l < s.d.nLanes → s.d.fld F.PRT_PEER_CA l = s.d.fld F.PRT_PEER_CA lane → Q l) : ∀ l, ToNeighbour s lane l → Q l :=
  fun l x => h l x.1 x.2.2.2.2

/-- A packet for a function of this device: OPC, VL, GEN, TC, its source and its payload from offset 4. -/
def sent (fn opc vl gen : Nat) (src : BitVec 32) (bs : List Byte) : Pkt :=
  let n := (bs.length - 40 + 59) / 60
  let at_ (o k : Nat) : Nat := ofBytes ((bs.drop o ++ List.replicate k 0).take k)
  { id := 4, hdr := mkHdr (BitVec.ofNat 32 (0x2000 + fn)) src 9 gen opc n 3, rw := 0, vl := vl, vlIn := vl, pay := BitVec.ofNat 320 (at_ 0 40),
    body := (List.range n).map (fun i => BitVec.ofNat 480 (at_ (40 + 60 * i) 60)), inl := 5, place := .atFn fn, buf := 0 }

/-- Manager 3 has a key, and votes to expel 0x00400000. -/
def managerKey : Nat := 0xc8a07a98cea2f043628e57a9083b7d238e4193fbe9b050ea6f1b29921e708886aec5b4574c7f49f9847c609f2fea4e2b850e8b62486555602703c004402f456ab5372c2394c4e5be4b20628f960b79273b44816dc6bfe9bfa460cd181ec39ce1
def manager : State := onDv (fun d => ([0, 2, 3].foldl (fun d n => d.setFld F.GLB_FM_VALID n 1) d) |>
  fun d => (List.range 12).foldl (fun d n => d.wr .GLB_FM_KEY (36 + n) (BitVec.ofNat 64 (managerKey / 2 ^ (704 - 64 * n)))) d) bst
def vote (r s : Nat) : Pkt :=
  sent 0 119 0 1 0x00300001 (bytesOf 4 0x00400000 ++ bytesOf 4 2 ++ bytesOf 4 0 ++ bytesOf 4 0x03000000 ++ bytesOf 48 r ++ bytesOf 48 s)
def signedVote : Pkt := vote 0xe04b6560ea86590f92522012d306569b6aea0dabc96abec3f9c85e466d0f8467b3d337b02891fff75370fff2f1347628 0xe04b6560ea86590f92522012d306569b6aea0dabc96abec3f9c85e466d0f8467b3d337b02891fff75370fff2f1347628
def gathered (t : Nat) : Gather := ⟨0x00400000, 2, t⟩
def voting (g : Option Nat) (now : Nat) : State := onDv (fun d =>
  { (d.setFld F.GLB_EXPEL_VOTES 0 5) with gather := g.map gathered, tmu := { d.tmu with total := now } }) (holding [signedVote] manager)

/-- Cases of clauses of FaultsAndManagers. -/
theorem witness_FaultsAndManagers_1 :
    (Calm (neighbours 6 6 0 0 0)) ∧ (ToNeighbour (neighbours 6 6 0 0 0) 64 64) ∧ (((neighbours 6 6 0 0 0).d.lane 64).fell = true)
        ∧ ((neighbours 6 6 0 0 0).d.lstate 64 ≠ 3) ∧ (∀ (l : ℕ), ToNeighbour (neighbours 6 6 0 0 0) 64 l → (neighbours 6 6 0 0 0).d.lstate l ≠ 3)
        ∧ (∃ l, ToNeighbour (neighbours 6 6 0 0 0) 64 l ∧ (neighbours 6 6 0 0 0).d.fld F.PRT_LINK_STAT_FENCED l = 0)
    ∧ (Calm (neighbours 5 6 1 0 0)) ∧ (ToNeighbour (neighbours 5 6 1 0 0) 64 64) ∧ (((neighbours 5 6 1 0 0).d.lane 64).fell = true)
        ∧ ((neighbours 5 6 1 0 0).d.lstate 64 ≠ 3) ∧ (∀ (l : ℕ), ToNeighbour (neighbours 5 6 1 0 0) 64 l → (neighbours 5 6 1 0 0).d.lstate l ≠ 3)
        ∧ (∃ l, ToNeighbour (neighbours 5 6 1 0 0) 64 l ∧ (neighbours 5 6 1 0 0).d.fld F.PRT_LINK_STAT_FENCED l = 0)
    ∧ (Calm (neighbours 6 6 1 1 0)) ∧ (64 < 1024) ∧ (ToNeighbour (neighbours 6 6 1 1 0) 64 64) ∧ (Reaches (neighbours 6 6 1 1 0) fm RF.PRT_FENCE 64
          (setBits ((neighbours 6 6 1 1 0).d.rd RF.PRT_FENCE 64) 63 63 1)) ∧ (∀ (l : ℕ), ToNeighbour (neighbours 6 6 1 1 0) 64 l
        → (neighbours 6 6 1 1 0).d.fld F.PRT_FENCE_HOLD l = 0)
    ∧ (Calm (neighbours 6 6 1 1 1)) ∧ (64 < 1024) ∧ (ToNeighbour (neighbours 6 6 1 1 1) 64 64) ∧ (Reaches (neighbours 6 6 1 1 1) fm RF.PRT_FENCE 64
          (setBits ((neighbours 6 6 1 1 1).d.rd RF.PRT_FENCE 64) 63 63 1)) ∧ ((neighbours 6 6 1 1 1).d.fld F.PRT_FENCE_HOLD 64 = 0)
        ∧ (ToNeighbour (neighbours 6 6 1 1 1) 64 65) ∧ ((neighbours 6 6 1 1 1).d.fld F.PRT_FENCE_HOLD 65 = 1)
    ∧ (Calm (neighbours 3 3 1 0 0)) ∧ (64 < 1024) ∧ (ToNeighbour (neighbours 3 3 1 0 0) 64 64) ∧ (Reaches (neighbours 3 3 1 0 0) fm RF.PRT_FENCE 64
          (setBits ((neighbours 3 3 1 0 0).d.rd RF.PRT_FENCE 64) 62 62 1)) ∧ (∃ l, ToNeighbour (neighbours 3 3 1 0 0) 64 l
        ∧ (neighbours 3 3 1 0 0).d.fld F.PRT_LINK_STAT_FENCED l = 0)
    ∧ (Calm (neighbours 3 3 1 1 0)) ∧ (64 < 1024) ∧ (ToNeighbour (neighbours 3 3 1 1 0) 64 64) ∧ (Reaches (neighbours 3 3 1 1 0) fm RF.PRT_FENCE 64
          (setBits ((neighbours 3 3 1 1 0).d.rd RF.PRT_FENCE 64) 62 62 1)) ∧ (∀ (l : ℕ), ToNeighbour (neighbours 3 3 1 1 0) 64 l
        → (neighbours 3 3 1 1 0).d.fld F.PRT_LINK_STAT_FENCED l = 1)
    ∧ (Calm manager) ∧ (3 < 5) ∧ (Reaches manager fm RF.GLB_FM 3 (0x8000000000000000 : Word)) ∧ (manager.d.fld F.GLB_FM_LOCK_LOCK 0 = 0)
        ∧ (bitsOf (0x8000000000000000 : Word) 63 63 = 1) ∧ (p384OnCurve (manager.d.fmKey 3) = true)
    ∧ (Calm bst) ∧ (4 < 5) ∧ (Reaches bst fm RF.GLB_FM 4 (0x8000000000000000 : Word)) ∧ (bst.d.fld F.GLB_FM_LOCK_LOCK 0 = 0)
        ∧ (bitsOf (0x8000000000000000 : Word) 63 63 = 1) ∧ (p384OnCurve (bst.d.fmKey 4) = false) := by
  repeat' first
    | decide +kernel
    | apply And.intro
    | exact to_neighbour (by decide +kernel)
    | exact ⟨64, by unfold ToNeighbour; decide +kernel⟩
    | exact ⟨65, by unfold ToNeighbour; decide +kernel⟩
    | exact of_none (by decide +kernel)
    | apply Reaches.mk

/-- Cases of clauses of FaultsAndManagers. -/
theorem witness_FaultsAndManagers_2 :
    (Calm (onDv (fun d => d.setFld F.GLB_FM_LOCK_LOCK 0 1) bst)) ∧ (4 < 5) ∧ (Reaches (onDv (fun d => d.setFld F.GLB_FM_LOCK_LOCK 0 1) bst) fm
          RF.GLB_FM 4 (0x8000000000000000 : Word)) ∧ ((onDv (fun d => d.setFld F.GLB_FM_LOCK_LOCK 0 1) bst).d.fld F.GLB_FM_LOCK_LOCK 0 = 1)
    ∧ (Calm bst) ∧ (Reaches bst fm RF.GLB_FM_LOCK 0 (BitVec.ofNat 64 (2 ^ 63))) ∧ (bst.d.fld F.GLB_FM_LOCK_LOCK 0 = 0)
    ∧ (Calm (holding [vote 0 0] manager)) ∧ (AtFn (holding [vote 0 0] manager) (vote 0 0) 0 0 119) ∧ ((holding [vote 0 0] manager).d.voteOk (vote 0 0)
          = false)
    ∧ (Calm (voting none 0)) ∧ (AtFn (voting none 0) signedVote 0 0 119) ∧ (GoodVote (voting none 0) signedVote)
        ∧ (∀ (g : Gather), (voting none 0).d.gather = some g → ¬(g.target = signedVote.at 4 4 ∧ g.seq = signedVote.at 8 4
        ∧ (voting none 0).d.since g.at_ < 10 ^ 10 * 65536))
    ∧ (Calm (voting (some 0) (10 ^ 10 * 65536))) ∧ (AtFn (voting (some 0) (10 ^ 10 * 65536)) signedVote 0 0 119)
        ∧ (GoodVote (voting (some 0) (10 ^ 10 * 65536)) signedVote) ∧ (∀ (g : Gather), (voting (some 0) (10 ^ 10 * 65536)).d.gather = some g
        → ¬(g.target = signedVote.at 4 4 ∧ g.seq = signedVote.at 8 4 ∧ (voting (some 0) (10 ^ 10 * 65536)).d.since g.at_ < 10 ^ 10 * 65536))
    ∧ (Calm (voting (some 0) (10 ^ 10 * 65536 - 1))) ∧ (AtFn (voting (some 0) (10 ^ 10 * 65536 - 1)) signedVote 0 0 119)
        ∧ (GoodVote (voting (some 0) (10 ^ 10 * 65536 - 1)) signedVote) ∧ (∃ f, (voting (some 0) (10 ^ 10 * 65536 - 1)).d.gather = some { target := signedVote.at 4 4, seq := signedVote.at 8 4, at_ := f }
        ∧ (voting (some 0) (10 ^ 10 * 65536 - 1)).d.since f < 10 ^ 10 * 65536) ∧ (3 ≤ List.countP (fun k => (((voting (some 0) (10 ^ 10 * 65536 -
          1)).d.fld F.GLB_EXPEL_VOTES 0).lor (2 ^ (signedVote.at 16 1 % 8))).testBit k && (voting (some 0) (10 ^ 10 * 65536 - 1)).d.flag
          F.GLB_FM_VALID k) (List.range 5))
    ∧ (Calm (voting (some 0) 0)) ∧ ((voting (some 0) 0).d.gather ≠ none) := by
  repeat' first
    | decide +kernel
    | apply And.intro
    | exact to_neighbour (by decide +kernel)
    | exact of_none (by decide +kernel)
    | exact ⟨0, by decide +kernel⟩
    | apply Reaches.mk
    | apply AtFn.mk
    | apply GoodVote.mk

/-- Production 9 in a STATE with a GEN, and packets at the functions. -/
def produced (n gen : Nat) (ps : List Pkt) : State := onDv (fun d =>
  ((d.setFld F.TBL_ROUTE_CTL_OWN_CA 0 0x2000).setFld F.GLB_PROD_STATE 9 n).setFld F.GLB_PROD_GEN 9 gen) (holding ps bst)
def strikePkt (flags gen : Nat) : Pkt := sent 0 115 0 gen 0x00300001 (bytesOf 1 flags)
def purge : StrikeJob := { prod := 9, gen := 5, senders := [(0x00400001, 1), (0x00500001, 2)], at_ := 0, cells := 3 }
def striking : State := onDv (fun d => { d with strikes := [purge] }) (produced 2 5 [])
def launchPkt (gen : Nat) : Pkt :=
  sent 0 117 0 gen 0x00300001 (bytesOf 4 0x00300100 ++ bytesOf 2 1 ++ bytesOf 2 77 ++ bytesOf 2 100 ++ List.replicate 98 0 ++ bytesOf 8 0x200000000001)
def job (kids : List (Nat × Nat)) (budget : Nat) : LaunchJob :=
  { prod := 9, gen := 5, parent := 0x00300001, tc := 3, tag := 77, budget := budget, at_ := 0, kids := kids, missing := [] }
def reply (tag : Nat) : Pkt := sent 0 118 0 5 0x00300200 (bytesOf 2 0 ++ bytesOf 2 tag ++ bytesOf 4 0x00300200)
/-- One launch waits; the time since is in us. -/
def launching2 (ps : List Pkt) (j : LaunchJob) (us : Nat) : State := onDv (fun d => { d with launches := [j], tmu := { d.tmu with total := us * 65536000 / 1000 } }) (produced 1 5 ps)
def noticePkt (fn : Nat) : Pkt := sent fn 98 0 5 0x00300001 (bytesOf 16 0)

/-- Cases of clauses of ProductionCommands. -/
theorem witness_ProductionCommands_1 :
    (AtFn (produced 1 5 [strikePkt 0 5]) (strikePkt 0 5) 0 0 115) ∧ ((strikePkt 0 5).at 4 1 % 2 = 0) ∧ ((produced 1 5 [strikePkt 0 5]).d.fld
          F.GLB_PROD_STATE (strikePkt 0 5).prod = 1) ∧ ((strikePkt 0 5).gen = (produced 1 5 [strikePkt 0 5]).d.fld F.GLB_PROD_GEN (strikePkt 0
          5).prod)
    ∧ (AtFn (produced 0 5 [strikePkt 0 5]) (strikePkt 0 5) 0 0 115) ∧ ((strikePkt 0 5).at 4 1 % 2 = 0) ∧ ((produced 0 5 [strikePkt 0 5]).d.fld
          F.GLB_PROD_STATE (strikePkt 0 5).prod = 0)
    ∧ (AtFn (produced 1 5 [strikePkt 0 4]) (strikePkt 0 4) 0 0 115) ∧ ((strikePkt 0 4).at 4 1 % 2 = 0) ∧ ((produced 1 5 [strikePkt 0 4]).d.fld
          F.GLB_PROD_STATE (strikePkt 0 4).prod = 1) ∧ ((strikePkt 0 4).gen ≠ (produced 1 5 [strikePkt 0 4]).d.fld F.GLB_PROD_GEN (strikePkt 0
          4).prod)
    ∧ (AtFn (produced 2 5 [strikePkt 0 5]) (strikePkt 0 5) 0 0 115) ∧ ((strikePkt 0 5).at 4 1 % 2 = 0) ∧ ((produced 2 5 [strikePkt 0 5]).d.fld
          F.GLB_PROD_STATE (strikePkt 0 5).prod = 2) ∧ ((strikePkt 0 5).gen = (produced 2 5 [strikePkt 0 5]).d.fld F.GLB_PROD_GEN (strikePkt 0
          5).prod)
    ∧ (AtFn (produced 3 5 [strikePkt 0 5]) (strikePkt 0 5) 0 0 115) ∧ ((strikePkt 0 5).at 4 1 % 2 = 0) ∧ (3 ≤ (produced 3 5 [strikePkt 0 5]).d.fld
          F.GLB_PROD_STATE (strikePkt 0 5).prod) ∧ ((strikePkt 0 5).gen = (produced 3 5 [strikePkt 0 5]).d.fld F.GLB_PROD_GEN (strikePkt 0 5).prod)
    ∧ (AtFn (produced 4 5 [strikePkt 0 5]) (strikePkt 0 5) 0 0 115) ∧ ((strikePkt 0 5).at 4 1 % 2 = 0) ∧ (3 ≤ (produced 4 5 [strikePkt 0 5]).d.fld
          F.GLB_PROD_STATE (strikePkt 0 5).prod) ∧ ((strikePkt 0 5).gen = (produced 4 5 [strikePkt 0 5]).d.fld F.GLB_PROD_GEN (strikePkt 0 5).prod)
    ∧ (AtFn (produced 4 5 [strikePkt 0 6]) (strikePkt 0 6) 0 0 115) ∧ ((strikePkt 0 6).at 4 1 % 2 = 0) ∧ (3 ≤ (produced 4 5 [strikePkt 0 6]).d.fld
          F.GLB_PROD_STATE (strikePkt 0 6).prod) ∧ ((strikePkt 0 6).gen ≠ (produced 4 5 [strikePkt 0 6]).d.fld F.GLB_PROD_GEN (strikePkt 0 6).prod)
        ∧ (newer (strikePkt 0 6).gen ((produced 4 5 [strikePkt 0 6]).d.fld F.GLB_PROD_GEN (strikePkt 0 6).prod) 8 = true)
    ∧ (AtFn (produced 3 5 [strikePkt 0 4]) (strikePkt 0 4) 0 0 115) ∧ ((strikePkt 0 4).at 4 1 % 2 = 0) ∧ (3 ≤ (produced 3 5 [strikePkt 0 4]).d.fld
          F.GLB_PROD_STATE (strikePkt 0 4).prod) ∧ ((strikePkt 0 4).gen ≠ (produced 3 5 [strikePkt 0 4]).d.fld F.GLB_PROD_GEN (strikePkt 0 4).prod)
        ∧ (newer (strikePkt 0 4).gen ((produced 3 5 [strikePkt 0 4]).d.fld F.GLB_PROD_GEN (strikePkt 0 4).prod) 8 = false) := by
  repeat' first
    | decide +kernel
    | apply And.intro
    | apply AtFn.mk

/-- Cases of clauses of ProductionCommands. -/
theorem witness_ProductionCommands_2 :
    (AtFn (produced 3 5 [strikePkt 1 5]) (strikePkt 1 5) 0 0 115) ∧ ((strikePkt 1 5).at 4 1 % 2 = 1) ∧ ((produced 3 5 [strikePkt 1 5]).d.fld
          F.GLB_PROD_STATE (strikePkt 1 5).prod = 3) ∧ ((strikePkt 1 5).gen = (produced 3 5 [strikePkt 1 5]).d.fld F.GLB_PROD_GEN (strikePkt 1
          5).prod)
    ∧ (AtFn (produced 0 5 [strikePkt 1 5]) (strikePkt 1 5) 0 0 115) ∧ ((strikePkt 1 5).at 4 1 % 2 = 1) ∧ ((produced 0 5 [strikePkt 1 5]).d.fld
          F.GLB_PROD_STATE (strikePkt 1 5).prod < 3)
    ∧ (AtFn (produced 2 5 [strikePkt 1 5]) (strikePkt 1 5) 0 0 115) ∧ ((strikePkt 1 5).at 4 1 % 2 = 1) ∧ ((produced 2 5 [strikePkt 1 5]).d.fld
          F.GLB_PROD_STATE (strikePkt 1 5).prod < 3)
    ∧ (9 < 4096) ∧ (Calm striking) ∧ (List.find? (fun y => y.prod == 9) striking.d.strikes = some purge) ∧ (striking.d.prodPkts 9 = [])
        ∧ ((0x00400001, 1) ∈ purge.senders)
    ∧ (AtFn (produced 1 5 [launchPkt 5]) (launchPkt 5) 0 0 117) ∧ ((produced 1 5 [launchPkt 5]).d.launchRefused (launchPkt 5) ((launchPkt 5).tree 112
          ((launchPkt 5).at 8 2 % 512)) = none)
    ∧ (AtFn (produced 1 5 [launchPkt 5]) (launchPkt 5) 0 0 117) ∧ ((produced 1 5 [launchPkt 5]).d.launchRefused (launchPkt 5) ((launchPkt 5).tree 112
          ((launchPkt 5).at 8 2 % 512)) = none) ∧ ((launchPkt 5).at 8 2 % 512 = 1)
    ∧ (AtFn (produced 4 5 [launchPkt 6]) (launchPkt 6) 0 0 117) ∧ ((produced 4 5 [launchPkt 6]).d.launchRefused (launchPkt 6) ((launchPkt 6).tree 112
          ((launchPkt 6).at 8 2 % 512)) = none)
    ∧ (AtFn (produced 4 5 [launchPkt 6]) (launchPkt 6) 0 0 117) ∧ ((produced 4 5 [launchPkt 6]).d.launchRefused (launchPkt 6) ((launchPkt 6).tree 112
          ((launchPkt 6).at 8 2 % 512)) = none) ∧ ((launchPkt 6).at 8 2 % 512 = 1) := by
  repeat' first
    | decide +kernel
    | apply And.intro
    | apply AtFn.mk

/-- Cases of clauses of ProductionCommands. -/
theorem witness_ProductionCommands_3 :
    (AtFn (produced 1 5 [launchPkt 6]) (launchPkt 6) 0 0 117) ∧ ((produced 1 5 [launchPkt 6]).d.launchRefused (launchPkt 6) ((launchPkt 6).tree 112
          ((launchPkt 6).at 8 2 % 512)) = some St.GEN_STALE)
    ∧ (AtFn (produced 2 5 [launchPkt 5]) (launchPkt 5) 0 0 117) ∧ ((produced 2 5 [launchPkt 5]).d.launchRefused (launchPkt 5) ((launchPkt 5).tree 112
          ((launchPkt 5).at 8 2 % 512)) = some St.STRUCK)
    ∧ (AtFn (produced 1 5 [reply 77]) (reply 77) 0 0 118) ∧ (∀ j ∈ (produced 1 5 [reply 77]).d.launches, j.tag ≠ (reply 77).at 6 2)
    ∧ (AtFn (launching2 [reply 78] (job [(0x00300200, 2)] 100) 75000) (reply 78) 0 0 118) ∧ ((launching2 [reply 78] (job [(0x00300200, 2)] 100)
          75000).d.launches = [(job [(0x00300200, 2)] 100)]) ∧ (((job [(0x00300200, 2)] 100).budget - 25) * 65536000 ≤ (launching2 [reply 78] (job
          [(0x00300200, 2)] 100) 75000).d.since (job [(0x00300200, 2)] 100).at_)
    ∧ (AtFn (launching2 [reply 77] (job [(0x00300200, 2)] 100) 74999) (reply 77) 0 0 118) ∧ ((launching2 [reply 77] (job [(0x00300200, 2)] 100)
          74999).d.launches = [(job [(0x00300200, 2)] 100)]) ∧ ((job [(0x00300200, 2)] 100).tag = (reply 77).at 6 2)
        ∧ ((launching2 [reply 77] (job [(0x00300200, 2)] 100) 74999).d.since (job [(0x00300200, 2)] 100).at_ < ((job [(0x00300200, 2)] 100).budget -
          25) * 65536000) ∧ ((job [(0x00300200, 2)] 100).kids = [(0x00300200, 2)]) ∧ (0x00300200 / 256 = (reply 77).at 8 4 / 256)
    ∧ (Calm (launching2 [] (job [] 100) 0)) ∧ ((launching2 [] (job [] 100) 0).d.launches = [(job [] 100)]) ∧ ((job [] 100).prod = 9)
        ∧ (9 < 4096) ∧ ((job [] 100).kids = []) ∧ ((job [] 100).missing = [])
    ∧ (Calm (launching2 [] (job [(0x00300200, 2)] 25) 0)) ∧ ((launching2 [] (job [(0x00300200, 2)] 25) 0).d.launches = [(job [(0x00300200, 2)] 25)])
        ∧ ((job [(0x00300200, 2)] 25).prod = 9) ∧ (9 < 4096) ∧ ((job [(0x00300200, 2)] 25).kids ≠ []) ∧ (25 ≤ (job [(0x00300200, 2)] 25).budget)
        ∧ (((job [(0x00300200, 2)] 25).budget - 25) * 65536000 ≤ (launching2 [] (job [(0x00300200, 2)] 25) 0).d.since (job [(0x00300200, 2)] 25).at_)
    ∧ (Calm (launching2 [] (job [(0x00300200, 2)] 100) 75000)) ∧ ((launching2 [] (job [(0x00300200, 2)] 100) 75000).d.launches = [(job [(0x00300200,
          2)] 100)]) ∧ ((job [(0x00300200, 2)] 100).prod = 9) ∧ (9 < 4096) ∧ ((job [(0x00300200, 2)] 100).kids ≠ [])
        ∧ (25 ≤ (job [(0x00300200, 2)] 100).budget) ∧ (((job [(0x00300200, 2)] 100).budget - 25) * 65536000 ≤ (launching2 [] (job [(0x00300200, 2)]
          100) 75000).d.since (job [(0x00300200, 2)] 100).at_) := by
  repeat' first
    | decide +kernel
    | apply And.intro
    | apply AtFn.mk

/-- Cases of clauses of ProductionCommands. -/
theorem witness_ProductionCommands_4 :
    (Calm (launching2 [] (job [(0x00300200, 2)] 100) 74999)) ∧ ((launching2 [] (job [(0x00300200, 2)] 100) 74999).d.launches = [(job [(0x00300200, 2)]
          100)]) ∧ ((job [(0x00300200, 2)] 100).prod = 9) ∧ (9 < 4096) ∧ ((job [(0x00300200, 2)] 100).kids ≠ [])
        ∧ ((launching2 [] (job [(0x00300200, 2)] 100) 74999).d.since (job [(0x00300200, 2)] 100).at_ < ((job [(0x00300200, 2)] 100).budget - 25) *
          65536000)
    ∧ (AtFn (produced 1 5 [noticePkt 255]) (noticePkt 255) 255 0 98)
    ∧ (AtFn (onDv (fun d => (d.setFld F.GLB_FM_VALID 0 1).setFld F.GLB_FM_CA 0 0x00300000) (produced 1 5 [noticePkt 0])) (noticePkt 0) 0 0 98)
        ∧ (0 ≠ 255) ∧ ((onDv (fun d => (d.setFld F.GLB_FM_VALID 0 1).setFld F.GLB_FM_CA 0 0x00300000) (produced 1 5 [noticePkt 0])).d.housePriv
          (noticePkt 0).src = true)
    ∧ (AtFn (produced 1 5 [noticePkt 254]) (noticePkt 254) 254 0 98) ∧ (254 ≠ 255) ∧ ((produced 1 5 [noticePkt 254]).d.housePriv (noticePkt 254).src =
          false) ∧ ((noticePkt 254).internal = false) := by
  repeat' first
    | decide +kernel
    | apply And.intro
    | apply AtFn.mk

/-! ## Registers and management -/

/-- The part with half the lanes; the device whose Prompter is not there. -/
def smallPart : State := onDv (fun d => { d with fuse := { d.fuse with part := 0x0512 } }) bst
def noAgent : State := onDv (fun d => { d with prompter := false }) bst

/-- Cases of clauses of RegisterAccess. -/
theorem witness_RegisterAccess_1 :
    (Calm bst) ∧ (LiesAt RF.PRT_TCMAP 1023 (RF.addr .PRT_TCMAP 1023)) ∧ (RF.PRT_TCMAP ∈ plainRegs) ∧ (Reaches bst fm RF.PRT_TCMAP 1023
          (0x0FFFFFFFFFFFFFFF : Word))
    ∧ (Calm bst) ∧ (LiesAt RF.GLB_HOUSE_ACL 0 (RF.addr .GLB_HOUSE_ACL 0)) ∧ (RF.GLB_HOUSE_ACL ∈ plainRegs) ∧ (Reaches bst fm RF.GLB_HOUSE_ACL 0
          (0x0FFFFFFFFFFFFFFF : Word))
    ∧ (Calm bst) ∧ (RF.TBL_UP = RF.TBL_UP ∨ RF.TBL_UP = RF.TBL_DOWN) ∧ (LiesAt RF.TBL_UP 3 (RF.addr .TBL_UP 3))
        ∧ (Reaches bst fm RF.TBL_UP 3 (0x0FFFFFFFFFFFFFFF : Word))
    ∧ (Calm smallPart) ∧ (LiesAt RF.PRT_TCMAP 1023 (RF.addr .PRT_TCMAP 1023)) ∧ (RF.PRT_TCMAP ∈ plainRegs) ∧ (smallPart.d.regRefused fm RF.PRT_TCMAP
          1023 (some (0x0FFFFFFFFFFFFFFF : Word)) = none) ∧ (smallPart.d.absentReg RF.PRT_TCMAP 1023 = true)
    ∧ (Calm bst) ∧ (LiesAt RF.MEM_CTL 0 (RF.addr .MEM_CTL 0)) ∧ (RF.MEM_CTL ∈ plainRegs) ∧ (bst.d.regRefused fm RF.MEM_CTL 0 (some (0 : Word)) = none)
        ∧ (bst.d.absentReg RF.MEM_CTL 0 = false) ∧ (bst.d.reservedEnc RF.MEM_CTL 0 (0 : Word) = some 52)
    ∧ (Calm bst) ∧ (regAt 5 = none ∨ regAt 5 = some (RF.PRT_TCMAP, 1023) ∧ RF.PRT_TCMAP.mapped 1023 = false) ∧ (inWindow 5 = false)
    ∧ (Calm bst) ∧ (regAt (RF.addr .CNT_VAL 384) = none ∨ regAt (RF.addr .CNT_VAL 384) = some (RF.CNT_VAL, 384)
        ∧ RF.CNT_VAL.mapped 384 = false) ∧ (inWindow (RF.addr .CNT_VAL 384) = false)
    ∧ (Calm noAgent) ∧ (LiesAt RF.PRT_TCMAP 1023 (RF.addr .PRT_TCMAP 1023)) ∧ (noAgent.d.prompter = false) ∧ (noAgent.d.fld F.SEC_STATE_SECURITY 0 ≠
          2) ∧ (RF.PRT_TCMAP ≠ RF.CUE_LDR_CMD) ∧ (RF.PRT_TCMAP ≠ RF.CUE_LDR_SRC) := by
  repeat' first
    | decide +kernel
    | apply And.intro
    | apply Reaches.mk

/-- Cases of clauses of RegisterAccess. -/
theorem witness_RegisterAccess_2 :
    (Calm (noStack 1 bst)) ∧ (LiesAt RF.WNG_LANE_STAT 64 (RF.addr .WNG_LANE_STAT 64)) ∧ (RF.WNG_LANE_STAT.isWng = true)
        ∧ ((noStack 1 bst).d.absentReg RF.WNG_LANE_STAT 64 = false) ∧ ((noStack 1 bst).d.site (RF.WNG_LANE_STAT.unit 64 + 1) ≠ 1)
    ∧ (Calm bst) ∧ (LiesAt RF.PRT_TCMAP 1023 (RF.addr .PRT_TCMAP 1023)) ∧ (bst.d.prompter = true) ∧ (bst.d.regDown RF.PRT_TCMAP 1023 = false)
        ∧ (bst.d.housePriv (0x00300001 : BitVec 32) = false) ∧ (RF.PRT_TCMAP ≠ RF.CUE_LDR_CMD) ∧ (RF.PRT_TCMAP ≠ RF.CUE_LDR_SRC)
    ∧ (Calm bst) ∧ (LiesAt RF.PRT_LINK_STAT 1023 (RF.addr .PRT_LINK_STAT 1023)) ∧ (bst.d.regRefused fm RF.PRT_LINK_STAT 1023 none = none)
        ∧ (bst.d.absentReg RF.PRT_LINK_STAT 1023 = false)
    ∧ (Calm bst) ∧ (LiesAt RF.PRT_TCMAP 1023 (RF.addr .PRT_TCMAP 1023)) ∧ (RF.PRT_TCMAP ∈ plainRegs) ∧ (bst.d.regRefused fm RF.PRT_TCMAP 1023 none =
          none) ∧ (bst.d.absentReg RF.PRT_TCMAP 1023 = false)
    ∧ (Calm bst) ∧ (bst.d.regRefused fm RF.PRT_TCMAP 0 (some (0x0FFFFFFFFFFFFFFF : Word)) = none) ∧ (bst.d.fld F.PRT_BCAST_SEL_MODE 0 ≠ 2)
    ∧ (Calm bst) ∧ (Reaches bst fm RF.GLB_HOUSE_LOCK 0 (BitVec.ofNat 64 (2 ^ 63))) := by
  repeat' first
    | decide +kernel
    | apply And.intro
    | apply Reaches.mk

/-- A REG.REQ for PRT_TCMAP of lane 3, bit 15 of its first word a write; a device that lists its source as a house. -/
def regReqPkt (wt : Nat) : Pkt := sent 0 96 0 5 0x00300001 (bytesOf 2 wt ++ [0, 0] ++ bytesOf 4 (RF.addr .PRT_TCMAP 3) ++ bytesOf 8 0x0FFFFFFFFFFFFFFF)
def admitted (ps : List Pkt) : State := onDv (fun d => (d.setFld F.GLB_HOUSE_ACL_VALID 0 1).setFld F.GLB_HOUSE_ACL_CA 0 0x003000) (produced 1 5 ps)
/-- A K-link frame with one access of that register; an SPDM request; a response that waits. -/
def kframe (kind count wt pad : Nat) : KFrame :=
  { dst := 0x020000000000, src := 0x0600AABBCCDD, tag := none, bytes := bytesOf 1 (16 + kind) ++ bytesOf 1 count ++ [0, 0] ++ bytesOf 4 7
      ++ bytesOf 2 wt ++ [0, 0] ++ bytesOf 4 (RF.addr .PRT_TCMAP 3) ++ bytesOf 8 0 ++ List.replicate pad 0 }
def cached : KCache := { port := 0, mac := 0x0600AABBCCDD, seq := 7, resp := [1, 2, 3] }
def spdmFrame (code : Nat) : KFrame :=
  { dst := 0x020000000000, src := 0x0600AABBCCDD, tag := none, bytes := [0x11, 0, 0, 0] ++ bytesOf 4 7 ++ [0x12] ++ bytesOf 1 code ++ List.replicate 36 0 }
def answering : State := onDv (fun d => { d with spdm := [(0, .klink 0 5 none [])] }) bst

/-- Cases of clauses of ManagementFrames. -/
theorem witness_ManagementFrames_1 :
    (AtFn (admitted [regReqPkt 5]) (regReqPkt 5) 0 0 96) ∧ (LiesAt RF.PRT_TCMAP 3 ((regReqPkt 5).at 8 4)) ∧ (RF.PRT_TCMAP ∈ plainRegs)
        ∧ ((admitted [regReqPkt 5]).d.prompterSpace (regRsp (regReqPkt 5) false 0 0) = true) ∧ ((regReqPkt 5).at 4 2 < 2 ^ 15)
        ∧ ((admitted [regReqPkt 5]).d.regRefused (Master.inband (regReqPkt 5).src) RF.PRT_TCMAP 3 none = none)
        ∧ ((admitted [regReqPkt 5]).d.absentReg RF.PRT_TCMAP 3 = false)
    ∧ (AtFn (admitted [regReqPkt 0x8005]) (regReqPkt 0x8005) 0 0 96) ∧ (LiesAt RF.PRT_TCMAP 3 ((regReqPkt 0x8005).at 8 4))
        ∧ (RF.PRT_TCMAP ∈ plainRegs) ∧ ((admitted [regReqPkt 0x8005]).d.prompterSpace (regRsp (regReqPkt 0x8005) false 0 0) = true)
        ∧ (2 ^ 15 ≤ (regReqPkt 0x8005).at 4 2) ∧ (Reaches (admitted [regReqPkt 0x8005]) (Master.inband (regReqPkt 0x8005).src) RF.PRT_TCMAP 3
          (BitVec.ofNat 64 ((regReqPkt 0x8005).at 12 8))) ∧ (RF.PRT_TCMAP ≠ RF.WRD_PROD)
    ∧ (AtFn (produced 1 5 [regReqPkt 5]) (regReqPkt 5) 0 0 96) ∧ (LiesAt RF.PRT_TCMAP 3 ((regReqPkt 5).at 8 4))
        ∧ (RF.PRT_TCMAP ∈ plainRegs) ∧ ((produced 1 5 [regReqPkt 5]).d.prompterSpace (regRsp (regReqPkt 5) false 0 0) = true)
        ∧ ((produced 1 5 [regReqPkt 5]).d.prompter = true) ∧ ((produced 1 5 [regReqPkt 5]).d.regDown RF.PRT_TCMAP 3 = false)
        ∧ ((produced 1 5 [regReqPkt 5]).d.housePriv (regReqPkt 5).src = false)
    ∧ (ForMe (onDv (fun d => { d with kcache := [cached] }) bst) 0 (kframe 0 1 5 22)) ∧ (kGood (kframe 0 1 5 22) = true)
        ∧ (kKind (kframe 0 1 5 22) = 0) ∧ (List.find? (fun x => x.port == 0 && x.mac == (kframe 0 1 5 22).src && x.seq == kSeq (kframe 0 1 5 22))
          (onDv (fun d => { d with kcache := [cached] }) bst).d.kcache = some cached)
    ∧ (ForMe bst 0 (kframe 0 1 5 22)) ∧ (kGood (kframe 0 1 5 22) = true) ∧ (kKind (kframe 0 1 5 22) = 0) ∧ (List.find? (fun x => x.port == 0 && x.mac
          == (kframe 0 1 5 22).src && x.seq == kSeq (kframe 0 1 5 22)) bst.d.kcache = none) ∧ (kCount (kframe 0 1 5 22) = 1)
        ∧ (bytesAt (kframe 0 1 5 22).bytes 8 2 < 2 ^ 15) ∧ (LiesAt RF.PRT_TCMAP 3 (bytesAt (kframe 0 1 5 22).bytes 12 4))
        ∧ (RF.PRT_TCMAP ∈ plainRegs) ∧ (bst.d.absentReg RF.PRT_TCMAP 3 = false) ∧ (bst.d.regRefused (Master.house 0) RF.PRT_TCMAP 3 none = none)
    ∧ (ForMe bst 0 (kframe 2 1 5 22)) ∧ (kGood (kframe 2 1 5 22) = true) ∧ (kKind (kframe 2 1 5 22) = 2) ∧ (kCount (kframe 2 1 5 22) = 1)
        ∧ (bytesAt (kframe 2 1 5 22).bytes 12 4 = (RF.addr .PRT_TCMAP 3))
    ∧ (ForMe bst 0 (kframe 0 1 5 1)) ∧ (kGood (kframe 0 1 5 1) = false)
    ∧ (ForMe bst 0 (kframe 3 1 5 22)) ∧ (kGood (kframe 3 1 5 22) = false) := by
  repeat' first
    | decide +kernel
    | apply And.intro
    | apply Reaches.mk
    | apply AtFn.mk
    | apply ForMe.mk

/-- Cases of clauses of ManagementFrames. -/
theorem witness_ManagementFrames_2 :
    (ForMe bst 0 (spdmFrame 0x84)) ∧ (kGood (spdmFrame 0x84) = true) ∧ (kKind (spdmFrame 0x84) = 1) ∧ (bytesAt (spdmFrame 0x84).bytes 9 1 = 0x84)
        ∧ (bst.d.power = .running) ∧ (bst.d.fld F.SEC_STATE_SECURITY 0 = 1) ∧ (bst.d.spdm.find 0 = none) ∧ (answering.d.spdm.find 0 = some (.klink 0 5
          none [])) ∧ (ForMe answering 0 (spdmFrame 0x84))
    ∧ (ForMe bst 0 (spdmFrame 0xE1)) ∧ (kGood (spdmFrame 0xE1) = true) ∧ (kKind (spdmFrame 0xE1) = 1) ∧ (bytesAt (spdmFrame 0xE1).bytes 9 1 = 0xE1)
    ∧ (ForMe bst 0 (spdmFrame 0xE3)) ∧ (kGood (spdmFrame 0xE3) = true) ∧ (kKind (spdmFrame 0xE3) = 1) ∧ (bytesAt (spdmFrame 0xE3).bytes 9 1 = 0xE3)
    ∧ (ForMe bst 0 (spdmFrame 0x81)) ∧ (kGood (spdmFrame 0x81) = true) ∧ (kKind (spdmFrame 0x81) = 1) ∧ (bytesAt (spdmFrame 0x81).bytes 9 1 = 0x81)
    ∧ (ForMe bst 0 (spdmFrame 0x82)) ∧ (kGood (spdmFrame 0x82) = true) ∧ (kKind (spdmFrame 0x82) = 1) ∧ (bytesAt (spdmFrame 0x82).bytes 9 1 = 0x82)
    ∧ (ForMe bst 0 (spdmFrame 0x83)) ∧ (kGood (spdmFrame 0x83) = true) ∧ (kKind (spdmFrame 0x83) = 1) ∧ (bytesAt (spdmFrame 0x83).bytes 9 1 = 0x83)
    ∧ (ForMe bst 0 (spdmFrame 0xE0)) ∧ (kGood (spdmFrame 0xE0) = true) ∧ (kKind (spdmFrame 0xE0) = 1) ∧ (bytesAt (spdmFrame 0xE0).bytes 9 1 = 0xE0)
    ∧ (ForMe bst 0 (spdmFrame 0x55)) ∧ (kGood (spdmFrame 0x55) = true) ∧ (kKind (spdmFrame 0x55) = 1) ∧ (bytesAt (spdmFrame 0x55).bytes 9 1 = 0x55) :=
          by
  repeat' first
    | decide +kernel
    | apply And.intro
    | apply ForMe.mk

/-- Cases of clauses of ManagementFrames. -/
theorem witness_ManagementFrames_3 :
    (answering.d.spdmOpen = true) ∧ (answering.d.tmu.refOk = true) ∧ (0 ∈ answering.d.houseUp) ∧ (answering.d.spdm = [(0, (.klink 0 5 none []))]) :=
          by
  repeat' first
    | decide +kernel

/-! ## Collectives -/

/-- CAs of the three members of cast 5, listed in Bolt memory; an op of a KIND; an all-to-all with 4 rows of 64 bytes. -/
def memberCa (i : Nat) : Nat := 0x00300001 + 0x100 * i
def castList : Mem := (List.range 3).flatMap (fun i =>
  ((bytesOf 4 (memberCa i)).zipIdx.map (fun x => (0x1000000000 + 0x54000000 + 4 * i + x.2, x.1))).filter (fun x => x.2 != 0))
def op (kind : Nat) : BitVec 512 := setData descriptor 0 31 28 kind
def rowOp : BitVec 512 := setData (op 2) 2 63 48 4
/-- A binding of Loom 3 with op 4 open, and the device with it. -/
def binding (e : BitVec 512) : Bind := { prod := 9, ens := false, group := 5, cur := 4, desc := some e }
def weaving (b : Bind) (ps : List Pkt) : State :=
  { onDv (fun d => { d.setEnt 4 5 (setData castEntry 1 62 59 8) with looms := [(3, { images := [(7, image 0)], active := [(9, 0)], binds := [b] })] })
      (produced 1 1 ps) with mem := castList }
/-- A packet of the group for Loom 3, from member 1, with `n` bytes of data. -/
def data (n : Nat) : List Byte := List.replicate n 1
def arrival (opc low word vl n : Nat) (seq : Nat := 4) : Pkt :=
  let p := sent 0x13 opc vl 1 (BitVec.ofNat 32 (memberCa 1)) (bytesOf 2 5 ++ bytesOf 2 seq ++ bytesOf 4 (2 ^ 14 + low) ++ bytesOf 4 word ++ data n)
  { p with rw := BitVec.ofNat 32 (28 + 60 * p.len - n) }
def contribution (seq n : Nat) : Pkt := arrival 48 0 0 3 n seq
def rows (row : Nat) : Pkt := arrival 49 row (2 * 2 ^ 14) 3 64
/-- A tile with some inputs. -/
def area (ins : List (Nat × Nat × List Byte)) : Area := { word := dAword (op 0), opseq := 4, tile := 0, len := 1, ins := ins }

/-- Cases of clauses of CollectivePackets. -/
theorem witness_CollectivePackets_1 :
    (AtLoom (weaving (binding (op 0)) [contribution 4 64]) (contribution 4 64) 3 0 48 (image 0) (binding (op 0)) (chanOf 0))
        ∧ (InOp (weaving (binding (op 0)) [contribution 4 64]) (contribution 4 64) (binding (op 0)) (op 0) (contribution 4 64).cWord)
        ∧ (contribShape (binding (op 0)) (op 0) (contribution 4 64) = true) ∧ ((contribution 4 64).cWord ∉ (binding (op 0)).closed)
        ∧ ((binding (op 0)).tiles = [])
    ∧ (AtLoom (weaving ({ binding (op 0) with tiles := [area [(0, 0, data 64)]] }) [contribution 4 64]) (contribution 4 64) 3 0 48 (image 0) ({ binding (op 0) with tiles := [area [(0, 0, data 64)]] })
          (chanOf 0)) ∧ (InOp (weaving ({ binding (op 0) with tiles := [area [(0, 0, data 64)]] }) [contribution 4 64]) (contribution 4 64) ({ binding (op 0) with tiles := [area [(0, 0, data 64)]] })
          (op 0) (contribution 4 64).cWord) ∧ (contribShape ({ binding (op 0) with tiles := [area [(0, 0, data 64)]] }) (op 0) (contribution 4 64) =
          true) ∧ ((contribution 4 64).cWord ∉ ({ binding (op 0) with tiles := [area [(0, 0, data 64)]] }).closed)
        ∧ (({ binding (op 0) with tiles := [area [(0, 0, data 64)]] }).tiles = [(area [(0, 0, data 64)])]) ∧ ((area [(0, 0, data 64)]).tile =
          (contribution 4 64).cWord) ∧ ((area [(0, 0, data 64)]).has (contribution 4 64).cMember ((contribution 4 64).cLow / 1024) = false)
    ∧ (AtLoom (weaving ({ binding (op 0) with closed := [0] }) [contribution 4 64]) (contribution 4 64) 3 0 48 (image 0) ({ binding (op 0) with closed := [0] })
          (chanOf 0)) ∧ (InOp (weaving ({ binding (op 0) with closed := [0] }) [contribution 4 64]) (contribution 4 64) ({ binding (op 0) with closed := [0] })
          (op 0) (contribution 4 64).cWord) ∧ (contribShape ({ binding (op 0) with closed := [0] }) (op 0) (contribution 4 64) = true)
        ∧ ((contribution 4 64).cWord ∈ ({ binding (op 0) with closed := [0] }).closed)
    ∧ (AtLoom (weaving (binding (op 0)) [contribution 4 60]) (contribution 4 60) 3 0 48 (image 0) (binding (op 0)) (chanOf 0))
        ∧ (InOp (weaving (binding (op 0)) [contribution 4 60]) (contribution 4 60) (binding (op 0)) (op 0) (contribution 4 60).cWord)
        ∧ (contribShape (binding (op 0)) (op 0) (contribution 4 60) = false)
    ∧ (AtLoom (weaving (binding (op 0)) [contribution 5 64]) (contribution 5 64) 3 0 48 (image 0) (binding (op 0)) (chanOf 0))
        ∧ ((weaving (binding (op 0)) [contribution 5 64]).d.groupCa (weaving (binding (op 0)) [contribution 5 64]).mem (contribution 5 64).cEns
          (contribution 5 64).cGroup (contribution 5 64).cMember = some (contribution 5 64).src.toNat) ∧ ((binding (op 0)).cur ≠ (contribution 5
          64).cSeq)
    ∧ (3 < 4) ∧ (AtFn (produced 1 1 [contribution 4 64]) (contribution 4 64) (16 + 3) (contribution 4 64).vl 48)
        ∧ ((produced 1 1 [contribution 4 64]).d.accepts 3 (contribution 4 64) 0 = none)
    ∧ (AtLoom (weaving ({ binding rowOp with rows := [⟨1, 2, 3, [0]⟩] }) [rows 3]) (rows 3) 3 0 49 (image 0) ({ binding rowOp with rows := [⟨1, 2, 3, [0]⟩] })
          (chanOf 0)) ∧ (InOp (weaving ({ binding rowOp with rows := [⟨1, 2, 3, [0]⟩] }) [rows 3]) (rows 3) ({ binding rowOp with rows := [⟨1, 2, 3, [0]⟩] })
          rowOp 0) ∧ (rowsShape rowOp ((weaving ({ binding rowOp with rows := [⟨1, 2, 3, [0]⟩] }) [rows 3]).d.groupCount ({ binding rowOp with rows := [⟨1, 2, 3, [0]⟩] }).ens
          ({ binding rowOp with rows := [⟨1, 2, 3, [0]⟩] }).group) (rows 3) = true) ∧ (({ binding rowOp with rows := [⟨1, 2, 3, [0]⟩] }).rowDup rowOp
          (rows 3) = true)
    ∧ (AtLoom (weaving (binding rowOp) [rows 3]) (rows 3) 3 0 49 (image 0) (binding rowOp) (chanOf 0)) ∧ (InOp (weaving (binding rowOp) [rows 3])
          (rows 3) (binding rowOp) rowOp 0) ∧ (rowsShape rowOp ((weaving (binding rowOp) [rows 3]).d.groupCount (binding rowOp).ens (binding
          rowOp).group) (rows 3) = true) ∧ ((binding rowOp).rowDup rowOp (rows 3) = false) := by
  repeat' first
    | decide +kernel
    | apply And.intro
    | apply AtFn.mk
    | apply AtLoom.mk
    | apply InOp.mk

/-- Cases of clauses of CollectivePackets. -/
theorem witness_CollectivePackets_2 :
    (AtLoom (weaving (binding rowOp) [rows 4]) (rows 4) 3 0 49 (image 0) (binding rowOp) (chanOf 0)) ∧ (InOp (weaving (binding rowOp) [rows 4]) (rows
          4) (binding rowOp) rowOp 0) ∧ (rowsShape rowOp ((weaving (binding rowOp) [rows 4]).d.groupCount (binding rowOp).ens (binding rowOp).group)
          (rows 4) = true) ∧ ((binding rowOp).rowDup rowOp (rows 4) = false)
    ∧ (AtLoom (weaving (binding rowOp) [rows 3]) (rows 3) 3 0 49 (image 0) (binding rowOp) (chanOf 0)) ∧ (InOp (weaving (binding rowOp) [rows 3])
          (rows 3) (binding rowOp) rowOp 0) ∧ (rowsShape rowOp ((weaving (binding rowOp) [rows 3]).d.groupCount (binding rowOp).ens (binding
          rowOp).group) (rows 3) = true) ∧ ((binding rowOp).rowDup rowOp (rows 3) = false) ∧ ((rows 3).cLow < dCap rowOp)
        ∧ ((rows 3).cLow ∈ rowsOf rowOp (rows 3)) ∧ ((weaving (binding rowOp) [rows 3]).d.groupCa (weaving (binding rowOp) [rows 3]).mem (binding
          rowOp).ens (binding rowOp).group (rows 3).aPeer = some (memberCa 2))
    ∧ (AtLoom (weaving (binding (op 1)) [arrival 50 0 7 3 0]) (arrival 50 0 7 3 0) 3 0 50 (image 0) (binding (op 1)) (chanOf 0))
        ∧ (InOp (weaving (binding (op 1)) [arrival 50 0 7 3 0]) (arrival 50 0 7 3 0) (binding (op 1)) (op 1) 0)
        ∧ (((binding (op 1)).arrived.any fun x => x.1 == (arrival 50 0 7 3 0).cMember) = false)
    ∧ (AtLoom (weaving ({ binding (op 1) with arrived := [(1, 9)] }) [arrival 50 0 7 3 0]) (arrival 50 0 7 3 0) 3 0 50 (image 0) ({ binding (op 1) with arrived := [(1, 9)] })
          (chanOf 0)) ∧ (InOp (weaving ({ binding (op 1) with arrived := [(1, 9)] }) [arrival 50 0 7 3 0]) (arrival 50 0 7 3 0) ({ binding (op 1) with arrived := [(1, 9)] })
          (op 1) 0) ∧ ((({ binding (op 1) with arrived := [(1, 9)] }).arrived.any fun x => x.1 == (arrival 50 0 7 3 0).cMember) = true)
    ∧ (AtLoom (weaving (binding (op 0)) [arrival 64 0 0 4 64]) (arrival 64 0 0 4 64) 3 3 64 (image 0) (binding (op 0)) (chanOf 3))
        ∧ ((binding (op 0)).cur = (arrival 64 0 0 4 64).cSeq) ∧ ((binding (op 0)).up = [])
    ∧ (AtLoom (weaving (binding (op 0)) [arrival 66 0 7 4 0]) (arrival 66 0 7 4 0) 3 3 66 (image 0) (binding (op 0)) (chanOf 3))
        ∧ ((binding (op 0)).cur = (arrival 66 0 7 4 0).cSeq) ∧ ((arrival 66 0 7 4 0).cLow / 2 ^ 12 = 0)
    ∧ (AtLoom (weaving (binding (op 0)) [arrival 66 4096 7 4 0]) (arrival 66 4096 7 4 0) 3 3 66 (image 0) (binding (op 0)) (chanOf 3))
        ∧ ((binding (op 0)).cur = (arrival 66 4096 7 4 0).cSeq) ∧ ((arrival 66 4096 7 4 0).cLow / 2 ^ 12 = 1)
    ∧ (AtLoom (weaving ({ binding (op 0) with sent := [(0, 0, 1, data 64)] }) [{ arrival 67 0 0 4 0 with rw := 0x200000 }]) ({ arrival 67 0 0 4 0 with rw := 0x200000 })
          3 2 67 (image 0) ({ binding (op 0) with sent := [(0, 0, 1, data 64)] }) (chanOf 2)) ∧ (({ binding (op 0) with sent := [(0, 0, 1, data 64)] }).cur
          = ({ arrival 67 0 0 4 0 with rw := 0x200000 }).cSeq) ∧ (List.find? (fun y => y.1 == ({ arrival 67 0 0 4 0 with rw := 0x200000 }).cWord &&
          y.2.1 == ({ arrival 67 0 0 4 0 with rw := 0x200000 }).cLow / 1024) ({ binding (op 0) with sent := [(0, 0, 1, data 64)] }).sent = some (0, 0,
          1, data 64)) ∧ (({ arrival 67 0 0 4 0 with rw := 0x200000 }).status = 2) := by
  repeat' first
    | decide +kernel
    | apply And.intro
    | apply AtFn.mk
    | apply AtLoom.mk
    | apply InOp.mk

def waitingTile : Bind := { binding (op 0) with tiles := [area [(0, 0, data 64)]] }
/-- A limit of 5 us, and the elapsed time in ns. -/
def stalling (ns : Nat) : State := onDv (fun d => { d.setFld F.LOM_COLL_CTL_STALL 3 5 with tmu := { d.tmu with total := ns * 65536 } }) (weaving waitingTile [])
/-- Member 1 is a dead end point, or behind a fenced lane. -/
def dead : State := onDv (fun d => { d with net := { d.net with deads := [{ ca := 0x003001, prod := 9, phase := 0, poisoned := 0 }] } }) (stalling 0)
def fencedOff : State := onDv (fun d => (d.setFld F.PRT_LINK_STAT_FENCED 64 1).setFld F.PRT_PEER_CA 64 0x003001) (stalling 0)

/-- A case of each clause of CollectiveTimers. -/
theorem witness_CollectiveTimers :
    (3 < 4) ∧ ((onDv (fun d => d.setFld F.LOM_COLL_CTL_STALL 3 0) bst).d.fld F.LOM_COLL_CTL_STALL 3 = 0)
    ∧ (3 < 4) ∧ (((stalling 5001).d.loom 3).binds = [waitingTile]) ∧ (waitingTile.desc = some (op 0)) ∧ (waitingTile.tiles = [(area [(0, 0, data
          64)])]) ∧ ((stalling 5001).d.fld F.LOM_COLL_CTL_STALL 3 ≠ 0) ∧ ((area [(0, 0, data 64)]).stalled = false)
        ∧ ((area [(0, 0, data 64)]).poison = false) ∧ ((area [(0, 0, data 64)]).complete (op 0) ((stalling 5001).d.groupCount waitingTile.ens
          waitingTile.group) = false) ∧ ((stalling 5001).d.fld F.LOM_COLL_CTL_STALL 3 * 1000 * 65536 < (stalling 5001).d.since (area [(0, 0, data
          64)]).openAt)
    ∧ (3 < 4) ∧ (((stalling 5000).d.loom 3).binds = [waitingTile]) ∧ (waitingTile.desc = some (op 0)) ∧ (waitingTile.tiles = [(area [(0, 0, data
          64)])]) ∧ ((stalling 5000).d.fld F.LOM_COLL_CTL_STALL 3 ≠ 0) ∧ ((area [(0, 0, data 64)]).stalled = false)
        ∧ ((area [(0, 0, data 64)]).poison = false) ∧ ((area [(0, 0, data 64)]).complete (op 0) ((stalling 5000).d.groupCount waitingTile.ens
          waitingTile.group) = false) ∧ ((stalling 5000).d.since (area [(0, 0, data 64)]).openAt ≤ (stalling 5000).d.fld F.LOM_COLL_CTL_STALL 3 * 1000
          * 65536)
    ∧ (3 < 4) ∧ (((dead : Machine.State).d.loom 3).binds = [waitingTile]) ∧ (∀ j < 4, j ≠ 3 → ((dead : Machine.State).d.loom j).binds = [])
        ∧ (waitingTile.desc = some (op 0)) ∧ (waitingTile.tiles = [(area [(0, 0, data 64)])]) ∧ (1 ∉ waitingTile.dead)
        ∧ ((∃ x ∈ (dead : Machine.State).d.net.deads, x.ca = bitsOf (0x00300101 : BitVec 32) 31 8 ∧ x.prod = waitingTile.prod)
        ∨ ∃ l < (dead : Machine.State).d.nLanes, (dead : Machine.State).d.fld F.PRT_LINK_STAT_FENCED l = 1 ∧ (dead : Machine.State).d.fld
          F.PRT_PEER_CA l = bitsOf (0x00300101 : BitVec 32) 31 8) ∧ ((dead : Machine.State).d.memberIndices (dead : Machine.State).mem waitingTile.ens
          waitingTile.group (bitsOf (0x00300101 : BitVec 32) 31 8) = [1])
    ∧ (3 < 4) ∧ ((fencedOff.d.loom 3).binds = [waitingTile]) ∧ (∀ j < 4, j ≠ 3 → (fencedOff.d.loom j).binds = [])
        ∧ (waitingTile.desc = some (op 0)) ∧ (waitingTile.tiles = [(area [(0, 0, data 64)])]) ∧ (1 ∉ waitingTile.dead)
        ∧ ((∃ x ∈ fencedOff.d.net.deads, x.ca = bitsOf (0x00300101 : BitVec 32) 31 8 ∧ x.prod = waitingTile.prod)
        ∨ ∃ l < fencedOff.d.nLanes, fencedOff.d.fld F.PRT_LINK_STAT_FENCED l = 1 ∧ fencedOff.d.fld F.PRT_PEER_CA l = bitsOf (0x00300101 : BitVec 32)
          31 8) ∧ (fencedOff.d.memberIndices fencedOff.mem waitingTile.ens waitingTile.group (bitsOf (0x00300101 : BitVec 32) 31 8) = [1]) := by
  repeat' first
    | decide +kernel
    | apply And.intro

/-! ## Loaders and engines -/

/-- The device after start-up, its Loom 3 without its engines; a command of the loader in a slot, and its state. -/
def loadable : State := bst
def ldrJob (op : Nat) : LdrJob := { cmd := BitVec.ofNat 64 (op * 2 ^ 60 + 7 * 2 ^ 48 + 9 * 2 ^ 32), result := none }
def loading (op : Nat) (imgs : NMap Image) (es : NMap Engine) (act : Option Nat) : State := onDv (fun d =>
  { d with looms := [(3, { engines := es, images := imgs, active := act.toList.map (fun x => (9, x)), ldr := some (ldrJob op) })] }) bst

/-- An image of one engine, with one instruction. -/
def small : Image := { set := 0, prod := 9, gen := 1, sha := 0, started := true, bytes := place 644 [(0, 4, 0x43554531), (4, 2, 1), (8, 2, 9), (10, 1, 1), (11, 1, 1), (12, 4, 1), (640, 4, 1)] }
/-- It is staged for Loom 3 with a signature of the production's owner, in both stacks of pair B. -/
def staged5 (s : State) : State := onDv (fun d => d.setFld F.CUE_LDR_SRC_ADDR 3 (carveAt 2 0xC000000)) s
def smallSig : Nat := 0x69f2f38416e7158366bdc6c6c4c396bd3235fb71ad66d1a0be734f8e338f7a38ead0fd5b4c3d52d345681c88a19b5501
def ownerKey : BitVec 768 := 0x2781c60fba1621a82ca0b48c24561f06af69d4d9710587b507b91cdf4f6f2c1d0fb2be5283aea94aab31d39fc0cf55377669cafc051c67c3bdadf977ff3961dab46dc7f8f962696752cc3fc862780e3567459565d161ee1cd2c95149fada1ff4
def signedStage : State :=
  let bs := small.bytes ++ bytesOf 48 smallSig ++ bytesOf 48 smallSig
  { staged5 (onDv (fun d => { (d.setFld F.GLB_PROD_STATE 9 1).setFld F.GLB_PROD_GEN 9 1 with keys := [(9, ownerKey)] }) (loading 1 [] [] none)) with
    mem := (bs.zipIdx.map (fun x => (carveAt 2 0xC000000 + x.2, x.1))).filter (fun x => x.2 != 0) }

theorem no_engine {s : State} {k : Nat} {Q : Nat → Prop} (h : (s.d.loom k).engines = []) :
    ∀ e, (s.d.engine k e).st = 1 ∨ (s.d.engine k e).st = 2 → Q e := fun e x => by
  simp only [Dev.engine, Loom.engine, h, NMap.get, NMap.find, Option.getD_none, engine0] at x
  split at x <;> simp at x

/-- Cases of clauses of LoaderCommands. -/
theorem witness_LoaderCommands_1 :
    (LdrReaches loadable fm 3) ∧ (Calm loadable) ∧ (loadable.d.fld F.CUE_LDR_STAT_BUSY 3 = 0)
    ∧ (LdrReaches loadable fm 3) ∧ ((onDv (fun d => d.setFld F.CUE_LDR_STAT_BUSY 3 1) loadable).d.fld F.CUE_LDR_STAT_BUSY 3 = 1)
    ∧ ((noStack 20 bst).d.site (17 + 3) ≠ 1)
    ∧ ((onDv (fun d => d.setFld F.GLB_START_PHASE 0 5) bst).d.loomLoaded = false)
    ∧ (3 < 4) ∧ (Calm (loading 4 [] [] none)) ∧ ((loading 4 [] [] none).d.loomLoaded = true) ∧ (((loading 4 [] [] none).d.loom 3).ldr = some (ldrJob
          4)) ∧ ((ldrJob 4).result = none) ∧ ((ldrJob 4).incoming = false) ∧ (((loading 4 [] [] none).d.loom 3).active.find (bitsOf (ldrJob 4).cmd 43
          32) = none) ∧ (bitsOf (ldrJob 4).cmd 63 60 = 4)
    ∧ (3 < 4) ∧ (Calm (loading 3 [(7, small)] [] none)) ∧ ((loading 3 [(7, small)] [] none).d.loomLoaded = true)
        ∧ (((loading 3 [(7, small)] [] none).d.loom 3).ldr = some (ldrJob 3)) ∧ ((ldrJob 3).result = none) ∧ ((ldrJob 3).incoming = false)
        ∧ (((loading 3 [(7, small)] [] none).d.loom 3).active.find (bitsOf (ldrJob 3).cmd 43 32) = none) ∧ (bitsOf (ldrJob 3).cmd 63 60 = 3)
        ∧ (((loading 3 [(7, small)] [] none).d.loom 3).images = [(7, small)]) ∧ (small.prod = bitsOf (ldrJob 3).cmd 43 32)
        ∧ (small.set = bitsOf (ldrJob 3).cmd 47 44) ∧ (small.stale = false) ∧ (small.engines ≤ 64) ∧ (∀ e < 64, ((loading 3 [(7, small)] []
          none).d.engine 3 e).st = 0)
    ∧ (3 < 4) ∧ (((loading 1 [] [] none).d.loom 3).ldr = some (ldrJob 1)) ∧ ((ldrJob 1).result = none) ∧ (bitsOf (ldrJob 1).cmd 63 60 = 1)
        ∧ ((loading 1 [] [] none).d.staging (loading 1 [] [] none).mem 3 640 = none)
    ∧ (3 < 4) ∧ (((staged5 (noStack 23 (noStack 24 (loading 1 [] [] none)))).d.loom 3).ldr = some (ldrJob 1))
        ∧ ((ldrJob 1).result = none) ∧ (bitsOf (ldrJob 1).cmd 63 60 = 1) ∧ ((staged5 (noStack 23 (noStack 24 (loading 1 [] [] none)))).d.staging
          (staged5 (noStack 23 (noStack 24 (loading 1 [] [] none)))).mem 3 640 = some none) := by
  repeat' first
    | decide +kernel
    | apply And.intro
    | apply LdrReaches.mk

/-- Cases of clauses of LoaderCommands. -/
theorem witness_LoaderCommands_2 :
    (3 < 4) ∧ ((signedStage.d.loom 3).ldr = some (ldrJob 1)) ∧ ((ldrJob 1).result = none) ∧ (bitsOf (ldrJob 1).cmd 63 60 = 1)
        ∧ ((signedStage.d.load signedStage.mem 3 (bitsOf (ldrJob 1).cmd 43 32) (bitsOf (ldrJob 1).cmd 47 44)).1 = 0)
    ∧ (3 < 4) ∧ (((loading 2 [] [] none).d.loom 3).ldr = some (ldrJob 2)) ∧ ((ldrJob 2).result = none) ∧ (bitsOf (ldrJob 2).cmd 63 60 = 2)
        ∧ (((loading 2 [] [] none).d.loom 3).images.find (bitsOf (ldrJob 2).cmd 55 48) = none)
    ∧ (3 < 4) ∧ (((loading 2 [(7, small)] [] none).d.loom 3).ldr = some (ldrJob 2)) ∧ ((ldrJob 2).result = none)
        ∧ (bitsOf (ldrJob 2).cmd 63 60 = 2) ∧ (((loading 2 [(7, small)] [] none).d.loom 3).images.find (bitsOf (ldrJob 2).cmd 55 48) = some small)
        ∧ (small.prod = bitsOf (ldrJob 2).cmd 43 32) ∧ (((loading 2 [(7, small)] [] none).d.loom 3).active.find small.prod ≠ some small.set)
    ∧ (3 < 4) ∧ (((loading 2 [(7, small)] [] (some 0)).d.loom 3).ldr = some (ldrJob 2)) ∧ ((ldrJob 2).result = none)
        ∧ (bitsOf (ldrJob 2).cmd 63 60 = 2) ∧ (((loading 2 [(7, small)] [] (some 0)).d.loom 3).images.find (bitsOf (ldrJob 2).cmd 55 48) = some small)
        ∧ (small.prod ≠ bitsOf (ldrJob 2).cmd 43 32 ∨ ((loading 2 [(7, small)] [] (some 0)).d.loom 3).active.find small.prod = some small.set)
    ∧ (3 < 4) ∧ (((loading 2 [(7, { small with prod := 8 })] [] none).d.loom 3).ldr = some (ldrJob 2)) ∧ ((ldrJob 2).result = none)
        ∧ (bitsOf (ldrJob 2).cmd 63 60 = 2) ∧ (((loading 2 [(7, { small with prod := 8 })] [] none).d.loom 3).images.find (bitsOf (ldrJob 2).cmd 55
          48) = some ({ small with prod := 8 })) ∧ (({ small with prod := 8 }).prod ≠ bitsOf (ldrJob 2).cmd 43 32
        ∨ ((loading 2 [(7, { small with prod := 8 })] [] none).d.loom 3).active.find ({ small with prod := 8 }).prod = some ({ small with prod := 8 }).set)
    ∧ (3 < 4) ∧ (((loading 3 [(7, small)] [(67, { st := 1, image := 7, prod := 9 })] (some 0)).d.loom 3).ldr = some (ldrJob 3))
        ∧ ((ldrJob 3).result = none) ∧ (bitsOf (ldrJob 3).cmd 63 60 = 3) ∧ (67 < 68) ∧ (RunsFor (loading 3 [(7, small)] [(67, { st := 1, image := 7, prod := 9 })]
          (some 0)) 3 67 (bitsOf (ldrJob 3).cmd 43 32)) ∧ (((loading 3 [(7, small)] [(67, { st := 1, image := 7, prod := 9 })] (some 0)).d.engine 3
          67).issued = 0)
    ∧ (3 < 4) ∧ (((onDv (fun d => d.modLoom 3 (fun x => { x with ldr := some { ldrJob 3 with incoming := true } })) (loading 3 [] [] none)).d.loom
          3).ldr = some ({ ldrJob 3 with incoming := true })) ∧ (({ ldrJob 3 with incoming := true }).result = none)
        ∧ ((bitsOf ({ ldrJob 3 with incoming := true }).cmd 63 60 = 3 ∧ ∀ (e : ℕ), ((onDv (fun d => d.modLoom 3 (fun x => { x with ldr := some { ldrJob 3 with incoming := true } }))
          (loading 3 [] [] none)).d.engine 3 e).st = 1 ∨ ((onDv (fun d => d.modLoom 3 (fun x => { x with ldr := some { ldrJob 3 with incoming := true } }))
          (loading 3 [] [] none)).d.engine 3 e).st = 2 → 0 < ((onDv (fun d => d.modLoom 3 (fun x => { x with ldr := some { ldrJob 3 with incoming := true } }))
          (loading 3 [] [] none)).d.engine 3 e).issued) ∨ bitsOf ({ ldrJob 3 with incoming := true }).cmd 63 60 = 4)
        ∧ (({ ldrJob 3 with incoming := true }).incoming = true)
    ∧ (3 < 4) ∧ (((onDv (fun d => d.modLoom 3 (fun x => { x with ldr := some { ldrJob 4 with incoming := true } })) (loading 4 [] [] none)).d.loom
          3).ldr = some ({ ldrJob 4 with incoming := true })) ∧ (({ ldrJob 4 with incoming := true }).result = none)
        ∧ ((bitsOf ({ ldrJob 4 with incoming := true }).cmd 63 60 = 3 ∧ ∀ (e : ℕ), ((onDv (fun d => d.modLoom 3 (fun x => { x with ldr := some { ldrJob 4 with incoming := true } }))
          (loading 4 [] [] none)).d.engine 3 e).st = 1 ∨ ((onDv (fun d => d.modLoom 3 (fun x => { x with ldr := some { ldrJob 4 with incoming := true } }))
          (loading 4 [] [] none)).d.engine 3 e).st = 2 → 0 < ((onDv (fun d => d.modLoom 3 (fun x => { x with ldr := some { ldrJob 4 with incoming := true } }))
          (loading 4 [] [] none)).d.engine 3 e).issued) ∨ bitsOf ({ ldrJob 4 with incoming := true }).cmd 63 60 = 4)
        ∧ (({ ldrJob 4 with incoming := true }).incoming = true) := by
  repeat' first
    | decide +kernel
    | apply And.intro
    | exact Or.inl ⟨by decide +kernel, no_engine (by decide +kernel)⟩
    | exact ⟨small, by decide +kernel⟩
    | exact Or.inl (by decide +kernel)
    | exact Or.inr (by decide +kernel)

def faulting (es : NMap Engine) : State := onDv (fun d => { d with looms := [(3, { engines := es })] }) bst
/-- Engine 3 waits for a restart of an image in the place of engine 67. -/
def restarting : State := onDv (fun d => { d with looms := [(3, { engines := [(3, { st := 5, image := 7 })], images := [(7, small)], active := [(9, 0)], subst := [(7, (67, some 3))] })] }) bst
/-- A stale image of 4 bytes, whose copy holds zeros. -/
def staleImage : Image := { set := 0, prod := 9, gen := 1, bytes := [1, 2, 3, 4], stale := true, sha := 0x394341b7182cd227c5c6b07ef8000cdfd86136c4292b8e576573ad7ed9ae41019f5818b4b971c9effc60e1ad9f1289f0 }
def withImage (i : Image) : State := onDv (fun d => { d with looms := [(3, { images := [(7, i)] })] }) bst
def stale : State := withImage staleImage

theorem restarting_only : ∀ f, f ≠ 3 → (restarting.d.engine 3 f).image = 7 →
    (restarting.d.engine 3 f).st = 6 ∨ (restarting.d.engine 3 f).pos ≠ (restarting.d.engine 3 3).pos := fun f hf h => by
  have : (restarting.d.loom 3).engines.find f = none := by
    show (if f = 3 then some ({ st := 5, image := 7 } : Engine) else none) = none
    simp [hf]
  simp only [Dev.engine, Loom.engine, NMap.get, this, Option.getD_none, engine0] at h
  split at h <;> simp at h

/-- A case of each clause of EngineFaults. -/
theorem witness_EngineFaults :
    (3 < 4) ∧ (67 < 68) ∧ (((faulting [(67, { st := 2, stopAt := some 0 })]).d.engine 3 67).stopAt ≠ none) ∧ (((faulting [(67, { st := 2, stopAt := some 0 })]).d.engine
          3 67).st = 1 ∨ ((faulting [(67, { st := 2, stopAt := some 0 })]).d.engine 3 67).st = 2)
    ∧ (3 < 4) ∧ (67 < 68) ∧ (3 < 68) ∧ (((faulting [(3, { st := 7 }), (67, { st := 1 })]).d.engine 3 67).st = 1
        ∨ ((faulting [(3, { st := 7 }), (67, { st := 1 })]).d.engine 3 67).st = 2) ∧ ((faulting [(3, { st := 7 }), (67, { st := 1 })]).d.site (17 + 3)
          = 1) ∧ (((faulting [(3, { st := 7 }), (67, { st := 1 })]).d.loom 3).ldr = none) ∧ (((faulting [(3, { st := 7 }), (67, { st := 1 })]).d.engine
          3 3).st = 7) ∧ (∀ x < 3, ((faulting [(3, { st := 7 }), (67, { st := 1 })]).d.engine 3 x).st ≠ 7) ∧ ((faulting [(3, { st := 7 }), (67, { st := 1 })]).d.overlay.length
          < 1024)
    ∧ (3 < 4) ∧ (7 < 256) ∧ ((restarting.d.loom 3).ldr = none) ∧ ((restarting.d.loom 3).subst.find 7 = some (67, some 3))
        ∧ ((restarting.d.loom 3).images.find 7 = some small) ∧ ((restarting.d.loom 3).active.find small.prod = some small.set)
        ∧ (small.started = true) ∧ ((restarting.d.engine 3 3).image = 7) ∧ ((restarting.d.engine 3 3).st = 5)
        ∧ (∀ (f : ℕ), f ≠ 3 → (restarting.d.engine 3 f).image = 7 → (restarting.d.engine 3 f).st = 6 ∨ (restarting.d.engine 3 f).pos ≠
          (restarting.d.engine 3 3).pos) ∧ ((restarting.d.loom 3).engines.sorted = true)
    ∧ (3 < 4) ∧ ((noStack 23 (noStack 24 stale)).d.site (17 + 3) = 1) ∧ (((noStack 23 (noStack 24 stale)).d.loom 3).images = [(7, staleImage)])
        ∧ (staleImage.stale = true) ∧ ((noStack 23 (noStack 24 stale)).d.stackUp 2 = false) ∧ ((noStack 23 (noStack 24 stale)).d.stackUp 3 = false)
    ∧ (3 < 4) ∧ (stale.d.site (17 + 3) = 1) ∧ ((stale.d.loom 3).images = [(7, staleImage)]) ∧ (staleImage.stale = true)
        ∧ (stale.d.carveRead stale.mem 1 (stagingOff 3 staleImage) staleImage.bytes.length = some [0, 0, 0, 0])
        ∧ (sha384 [0, 0, 0, 0] = staleImage.sha)
    ∧ (3 < 4) ∧ ((withImage { staleImage with sha := 0 }).d.site (17 + 3) = 1) ∧ (((withImage { staleImage with sha := 0 }).d.loom 3).images = [(7, ({ staleImage with sha := 0 }))])
        ∧ (({ staleImage with sha := 0 }).stale = true) ∧ ((withImage { staleImage with sha := 0 }).d.stackUp 2 = true
        ∨ (withImage { staleImage with sha := 0 }).d.stackUp 3 = true) ∧ (∀ (bs : List Byte), (withImage { staleImage with sha := 0 }).d.carveRead
          (withImage { staleImage with sha := 0 }).mem 1 (stagingOff 3 ({ staleImage with sha := 0 })) ({ staleImage with sha := 0 }).bytes.length =
          some bs → sha384 bs ≠ ({ staleImage with sha := 0 }).sha) := by
  repeat' first
    | decide +kernel
    | apply And.intro
    | exact restarting_only

/-! ## Memory -/

/-- A request of `n` data bytes at Bolt memory, from end point 0x00300001: its opcode, bytes 6 and 7, address and arithmetic
word, and PAD's neighbours: 8 translated, 4 house access, 2 conversion. -/
def req (opc h addr aw n fl : Nat) : Pkt :=
  let p := sent 1 opc 1 1 0x00300001 (bytesOf 2 7 ++ bytesOf 2 h ++ bytesOf 8 addr ++ bytesOf 4 aw ++ List.replicate 12 0 ++ List.replicate n 1)
  { p with rw := BitVec.ofNat 32 (65536 * fl + (12 + 60 * p.len - n)) }
/-- A carve-out byte with house access. -/
def houseAt : Nat := stackOpen + 0x50000000
/-- FP32 in, FP32 out; MAX over signed integers of format 17 and AND over FP32; a SUM of FP32. -/
def convWord : Nat := 0x08000000 + 0x00400000
def maxWord : Nat := 17 * 2 ^ 27 + 2 * 2 ^ 13
def sumWord : Nat := 2 ^ 27 + 2 ^ 13
/-- The request waits; its sender without house privilege, with the reference lost, no stack serving, stack 0 down, a unit of
each address in error. -/
def plain (p : Pkt) : State := holding [p] bst
def bolt0 (p : Pkt) : State := onDv (fun d => (d.setFld F.GLB_HOUSE_ACL_VALID 0 1).setFld F.GLB_HOUSE_ACL_CA 0 0x003000) (plain p)
def noRef (p : Pkt) : State := onDv (fun d => { d with tmu := { d.tmu with refOk := false } }) (bolt0 p)
def noStacks (p : Pkt) : State := onDv (fun d => { d with rebuilding := [0, 1] }) (bolt0 p)
def oneDown (p : Pkt) : State := onDv (fun d => { d with rebuilding := [0] }) (bolt0 p)
def eccd (p : Pkt) : State := onDv (fun d => { d with ecc := [64, houseAt / 64, (houseAt + stackSize) / 64] }) (bolt0 p)

theorem waits {s : State} {p : Pkt} {opc : Nat} (h : (s.d.net.outbox = [] ∧ s.d.net.endsDown = []) ∧ s.d.net.pkts = [p] ∧ p.place = .atFn 1
    ∧ p.vl = 1 ∧ p.opc = opc ∧ p.whole = true ∧ s.d.tmu.refOk = true ∧ (s.d.chargeSource (8 * 1025 + 2) p.respSize).isSome = true) : AtBolt s p opc :=
  ⟨⟨h.1, h.2.1, h.2.2.1, h.2.2.2.1, h.2.2.2.2.1, h.2.2.2.2.2.1⟩, h.2.2.2.2.2.2.1, h.2.2.2.2.2.2.2⟩
theorem opens {s : State} {p : Pkt} {opc n : Nat} (h : ((s.d.net.outbox = [] ∧ s.d.net.endsDown = []) ∧ s.d.net.pkts = [p] ∧ p.place = .atFn 1
    ∧ p.vl = 1 ∧ p.opc = opc ∧ p.whole = true ∧ s.d.tmu.refOk = true ∧ (s.d.chargeSource (8 * 1025 + 2) p.respSize).isSome = true)
    ∧ p.house = false ∧ p.xlated = true ∧ exposable p.addr n = true ∧ s.d.stackUp (stackOf p.addr) = true) : BoltOpen s p opc n :=
  ⟨waits h.1, h.2.1, h.2.2.1, h.2.2.2.1, h.2.2.2.2⟩
theorem houses {s : State} {p : Pkt} {opc n pair off : Nat} (h : ((s.d.net.outbox = [] ∧ s.d.net.endsDown = []) ∧ s.d.net.pkts = [p] ∧ p.place = .atFn 1
    ∧ p.vl = 1 ∧ p.opc = opc ∧ p.whole = true ∧ s.d.tmu.refOk = true ∧ (s.d.chargeSource (8 * 1025 + 2) p.respSize).isSome = true)
    ∧ p.house = true ∧ s.d.housePriv p.src = true
    ∧ houseRegion p.addr n (opc == 0x11 || opc == 0x12) (s.d.fld F.SEC_STATE_DEBUG 0 == 2) = some (pair, off)) : BoltHouse s p opc n pair off :=
  ⟨waits h.1, h.2.1, h.2.2.1, h.2.2.2⟩
theorem shut {s : State} {p : Pkt} {opc n : Nat} (h : ((s.d.net.outbox = [] ∧ s.d.net.endsDown = []) ∧ s.d.net.pkts = [p] ∧ p.place = .atFn 1
    ∧ p.vl = 1 ∧ p.opc = opc ∧ p.whole = true ∧ s.d.tmu.refOk = true ∧ (s.d.chargeSource (8 * 1025 + 2) p.respSize).isSome = true)
    ∧ (p.house = false → p.xlated = false ∨ exposable p.addr n = false)
    ∧ (p.house = true → opc = 0x13 ∨ opc = 0x14 ∨ s.d.housePriv p.src = false
        ∨ houseRegion p.addr n (opc == 0x11 || opc == 0x12) (s.d.fld F.SEC_STATE_DEBUG 0 == 2) = none)) : BoltShut s p opc n :=
  ⟨waits h.1, h.2.1, h.2.2⟩

/-- Cases of clauses of BoltReadsAndWrites. -/
theorem witness_BoltReadsAndWrites_1 :
    (16 = 16 ∧ ((Instr.boltRead 4) = Instr.boltRead (req 16 5 (4096) 0 0 8).id ∨ (Instr.boltRead 4) = Instr.boltReadConvert (req 16 5 (4096) 0 0
          8).id) ∨ 16 = 17 ∧ (Instr.boltRead 4) = Instr.boltWrite (req 16 5 (4096) 0 0 8).id ∨ 16 = 18 ∧ (Instr.boltRead 4) = Instr.writeFlag (req 16
          5 (4096) 0 0 8).id ∨ 16 = 19 ∧ (Instr.boltRead 4) = Instr.atomic (req 16 5 (4096) 0 0 8).id ∨ 16 = 20
        ∧ (Instr.boltRead 4) = Instr.reduceWrite (req 16 5 (4096) 0 0 8).id) ∧ (AtFn (noRef (req 16 5 (4096) 0 0 8)) (req 16 5 (4096) 0 0 8) 1 1 16)
        ∧ ((noRef (req 16 5 (4096) 0 0 8)).d.chargeSource (8 * 1025 + 2) (req 16 5 (4096) 0 0 8).respSize = none
        ∨ (noRef (req 16 5 (4096) 0 0 8)).d.tmu.refOk = false)
    ∧ (17 = 16 ∧ ((Instr.boltWrite 4) = Instr.boltRead (req 17 0 (4096) 0 8 8).id ∨ (Instr.boltWrite 4) = Instr.boltReadConvert (req 17 0 (4096) 0 8
          8).id) ∨ 17 = 17 ∧ (Instr.boltWrite 4) = Instr.boltWrite (req 17 0 (4096) 0 8 8).id ∨ 17 = 18 ∧ (Instr.boltWrite 4) = Instr.writeFlag (req
          17 0 (4096) 0 8 8).id ∨ 17 = 19 ∧ (Instr.boltWrite 4) = Instr.atomic (req 17 0 (4096) 0 8 8).id ∨ 17 = 20
        ∧ (Instr.boltWrite 4) = Instr.reduceWrite (req 17 0 (4096) 0 8 8).id) ∧ (AtFn (noRef (req 17 0 (4096) 0 8 8)) (req 17 0 (4096) 0 8 8) 1 1 17)
        ∧ ((noRef (req 17 0 (4096) 0 8 8)).d.chargeSource (8 * 1025 + 2) (req 17 0 (4096) 0 8 8).respSize = none
        ∨ (noRef (req 17 0 (4096) 0 8 8)).d.tmu.refOk = false)
    ∧ (18 = 16 ∧ ((Instr.writeFlag 4) = Instr.boltRead (req 18 0 (4096) 0 8 8).id ∨ (Instr.writeFlag 4) = Instr.boltReadConvert (req 18 0 (4096) 0 8
          8).id) ∨ 18 = 17 ∧ (Instr.writeFlag 4) = Instr.boltWrite (req 18 0 (4096) 0 8 8).id ∨ 18 = 18 ∧ (Instr.writeFlag 4) = Instr.writeFlag (req
          18 0 (4096) 0 8 8).id ∨ 18 = 19 ∧ (Instr.writeFlag 4) = Instr.atomic (req 18 0 (4096) 0 8 8).id ∨ 18 = 20
        ∧ (Instr.writeFlag 4) = Instr.reduceWrite (req 18 0 (4096) 0 8 8).id) ∧ (AtFn (noRef (req 18 0 (4096) 0 8 8)) (req 18 0 (4096) 0 8 8) 1 1 18)
        ∧ ((noRef (req 18 0 (4096) 0 8 8)).d.chargeSource (8 * 1025 + 2) (req 18 0 (4096) 0 8 8).respSize = none
        ∨ (noRef (req 18 0 (4096) 0 8 8)).d.tmu.refOk = false)
    ∧ (19 = 16 ∧ ((Instr.atomic 4) = Instr.boltRead (req 19 (8192) (4096) 0 16 8).id ∨ (Instr.atomic 4) = Instr.boltReadConvert (req 19 (8192) (4096)
          0 16 8).id) ∨ 19 = 17 ∧ (Instr.atomic 4) = Instr.boltWrite (req 19 (8192) (4096) 0 16 8).id ∨ 19 = 18
        ∧ (Instr.atomic 4) = Instr.writeFlag (req 19 (8192) (4096) 0 16 8).id ∨ 19 = 19 ∧ (Instr.atomic 4) = Instr.atomic (req 19 (8192) (4096) 0 16
          8).id ∨ 19 = 20 ∧ (Instr.atomic 4) = Instr.reduceWrite (req 19 (8192) (4096) 0 16 8).id) ∧ (AtFn (noRef (req 19 (8192) (4096) 0 16 8)) (req
          19 (8192) (4096) 0 16 8) 1 1 19) ∧ ((noRef (req 19 (8192) (4096) 0 16 8)).d.chargeSource (8 * 1025 + 2) (req 19 (8192) (4096) 0 16
          8).respSize = none ∨ (noRef (req 19 (8192) (4096) 0 16 8)).d.tmu.refOk = false)
    ∧ (20 = 16 ∧ ((Instr.reduceWrite 4) = Instr.boltRead (req 20 0 (4096) (maxWord) 8 8).id ∨ (Instr.reduceWrite 4) = Instr.boltReadConvert (req 20 0
          (4096) (maxWord) 8 8).id) ∨ 20 = 17 ∧ (Instr.reduceWrite 4) = Instr.boltWrite (req 20 0 (4096) (maxWord) 8 8).id
        ∨ 20 = 18 ∧ (Instr.reduceWrite 4) = Instr.writeFlag (req 20 0 (4096) (maxWord) 8 8).id ∨ 20 = 19 ∧ (Instr.reduceWrite 4) = Instr.atomic (req
          20 0 (4096) (maxWord) 8 8).id ∨ 20 = 20 ∧ (Instr.reduceWrite 4) = Instr.reduceWrite (req 20 0 (4096) (maxWord) 8 8).id)
        ∧ (AtFn (noRef (req 20 0 (4096) (maxWord) 8 8)) (req 20 0 (4096) (maxWord) 8 8) 1 1 20) ∧ ((noRef (req 20 0 (4096) (maxWord) 8
          8)).d.chargeSource (8 * 1025 + 2) (req 20 0 (4096) (maxWord) 8 8).respSize = none ∨ (noRef (req 20 0 (4096) (maxWord) 8 8)).d.tmu.refOk =
          false)
    ∧ (BoltOpen (bolt0 (req 19 (8192) (4096) 0 16 8)) (req 19 (8192) (4096) 0 16 8) 19 (req 19 (8192) (4096) 0 16 8).abytes)
        ∧ ((bolt0 (req 19 (8192) (4096) 0 16 8)).d.eccAt (req 19 (8192) (4096) 0 16 8).addr (req 19 (8192) (4096) 0 16 8).abytes = false)
        ∧ (aopOk (req 19 (8192) (4096) 0 16 8).aop (req 19 (8192) (4096) 0 16 8).abytes = true) ∧ ((req 19 (8192) (4096) 0 16 8).addr % (req 19 (8192)
          (4096) 0 16 8).abytes = 0)
    ∧ (BoltOpen (bolt0 (req 20 0 (4096) (maxWord) 8 8)) (req 20 0 (4096) (maxWord) 8 8) 20 (req 20 0 (4096) (maxWord) 8 8).memLen)
        ∧ ((bolt0 (req 20 0 (4096) (maxWord) 8 8)).d.eccAt (req 20 0 (4096) (maxWord) 8 8).addr (req 20 0 (4096) (maxWord) 8 8).memLen = false)
        ∧ (reduceExact (req 20 0 (4096) (maxWord) 8 8).aword = false) ∧ (reduceInPlace (req 20 0 (4096) (maxWord) 8 8).aword = true)
        ∧ (elemCount (req 20 0 (4096) (maxWord) 8 8).aword.fmt (req 20 0 (4096) (maxWord) 8 8).memLen ≠ 0) ∧ ((req 20 0 (4096) (maxWord) 8 8).addr %
          max 1 (elemBytes (req 20 0 (4096) (maxWord) 8 8).aword.fmt) = 0)
    ∧ ((req 16 5 (4096) 0 0 8).convert = false) ∧ (BoltReads (bolt0 (req 16 5 (4096) 0 0 8)) (req 16 5 (4096) 0 0 8) (req 16 5 (4096) 0 0 8).rdBytes
          4096) := by
  repeat' first
    | decide +kernel
    | apply And.intro
    | exact Or.inl ⟨opens (by decide +kernel), by decide +kernel, by decide +kernel⟩
    | exact opens (by decide +kernel)
    | exact houses (by decide +kernel)
    | exact waits (by decide +kernel)
    | exact shut (by decide +kernel)
    | apply AtFn.mk

/-- Cases of clauses of BoltReadsAndWrites. -/
theorem witness_BoltReadsAndWrites_2 :
    ((req 16 5 (houseAt) 0 0 4).convert = false) ∧ (BoltReads (bolt0 (req 16 5 (houseAt) 0 0 4)) (req 16 5 (houseAt) 0 0 4) (req 16 5 (houseAt) 0 0
          4).rdBytes houseAt)
    ∧ ((req 16 5 (houseAt) 0 0 4).convert = false) ∧ (BoltReads (oneDown (req 16 5 (houseAt) 0 0 4)) (req 16 5 (houseAt) 0 0 4) (req 16 5 (houseAt) 0
          0 4).rdBytes (houseAt + stackSize))
    ∧ ((req 16 5 (4096) 0 0 8).convert = false) ∧ (BoltDown (noStacks (req 16 5 (4096) 0 0 8)) (req 16 5 (4096) 0 0 8) 16 (req 16 5 (4096) 0 0
          8).rdBytes)
    ∧ ((req 16 5 (houseAt) 0 0 4).convert = false) ∧ (BoltDown (noStacks (req 16 5 (houseAt) 0 0 4)) (req 16 5 (houseAt) 0 0 4) 16 (req 16 5 (houseAt)
          0 0 4).rdBytes)
    ∧ ((req 16 5 (4096) 0 0 8).convert = false) ∧ (BoltEcc (eccd (req 16 5 (4096) 0 0 8)) (req 16 5 (4096) 0 0 8) 16 (req 16 5 (4096) 0 0 8).rdBytes)
    ∧ ((req 16 5 (houseAt) 0 0 4).convert = false) ∧ (BoltEcc (eccd (req 16 5 (houseAt) 0 0 4)) (req 16 5 (houseAt) 0 0 4) 16 (req 16 5 (houseAt) 0 0
          4).rdBytes)
    ∧ ((req 16 5 (4096) 0 0 0).convert = false) ∧ (BoltShut (bolt0 (req 16 5 (4096) 0 0 0)) (req 16 5 (4096) 0 0 0) 16 (req 16 5 (4096) 0 0
          0).rdBytes)
    ∧ ((req 16 5 (stackOpen - 5) 0 0 8).convert = false) ∧ (BoltShut (bolt0 (req 16 5 (stackOpen - 5) 0 0 8)) (req 16 5 (stackOpen - 5) 0 0 8) 16 (req
          16 5 (stackOpen - 5) 0 0 8).rdBytes) := by
  repeat' first
    | decide +kernel
    | apply And.intro
    | exact Or.inl ⟨opens (by decide +kernel), by decide +kernel⟩
    | exact Or.inr ⟨0, 0x50000000, houses (by decide +kernel), Or.inl ⟨by unfold Clean; decide +kernel, by decide +kernel⟩⟩
    | exact Or.inr ⟨0, 0x50000000, houses (by decide +kernel), Or.inr ⟨by unfold Clean; decide +kernel, by unfold Clean; decide +kernel, by decide +kernel⟩⟩
    | exact Or.inl ⟨waits (by decide +kernel), by decide +kernel⟩
    | exact Or.inr ⟨by decide, by decide, 0, 0x50000000, houses (by decide +kernel), by decide +kernel⟩
    | exact Or.inr ⟨by decide, 0, 0x50000000, houses (by decide +kernel), by decide +kernel, by unfold Clean; decide +kernel, by unfold Clean; decide +kernel⟩
    | exact opens (by decide +kernel)
    | exact houses (by decide +kernel)
    | exact waits (by decide +kernel)
    | exact ⟨waits (by decide +kernel), by decide +kernel, by decide +kernel⟩

/-- Cases of clauses of BoltReadsAndWrites. -/
theorem witness_BoltReadsAndWrites_3 :
    ((req 16 5 (4096) 0 0 4).convert = false) ∧ (BoltShut (bolt0 (req 16 5 (4096) 0 0 4)) (req 16 5 (4096) 0 0 4) 16 (req 16 5 (4096) 0 0 4).rdBytes)
    ∧ ((req 16 5 (houseAt) 0 0 4).convert = false) ∧ (BoltShut (plain (req 16 5 (houseAt) 0 0 4)) (req 16 5 (houseAt) 0 0 4) 16 (req 16 5 (houseAt) 0
          0 4).rdBytes)
    ∧ ((req 16 3 (4096) convWord 0 10).convert = true) ∧ (BoltReads (bolt0 (req 16 3 (4096) convWord 0 10)) (req 16 3 (4096) convWord 0 10) (req 16 3
          (4096) convWord 0 10).extent 4096) ∧ (convertOk (req 16 3 (4096) convWord 0 10) = true)
    ∧ ((req 16 3 (4096) convWord 0 10).convert = true) ∧ (BoltDown (noStacks (req 16 3 (4096) convWord 0 10)) (req 16 3 (4096) convWord 0 10) 16 (req
          16 3 (4096) convWord 0 10).extent) ∧ (convertOk (req 16 3 (4096) convWord 0 10) = true)
    ∧ ((req 16 3 (4096) convWord 0 10).convert = true) ∧ (BoltEcc (eccd (req 16 3 (4096) convWord 0 10)) (req 16 3 (4096) convWord 0 10) 16 (req 16 3
          (4096) convWord 0 10).extent) ∧ (convertOk (req 16 3 (4096) convWord 0 10) = true)
    ∧ ((req 16 3 (4100) convWord 0 10).convert = true) ∧ (AtBolt (bolt0 (req 16 3 (4100) convWord 0 10)) (req 16 3 (4100) convWord 0 10) 16)
        ∧ (convertOk (req 16 3 (4100) convWord 0 10) = false)
    ∧ ((req 16 3 (4096) convWord 0 2).convert = true) ∧ (BoltShut (bolt0 (req 16 3 (4096) convWord 0 2)) (req 16 3 (4096) convWord 0 2) 16 (req 16 3
          (4096) convWord 0 2).extent) ∧ (convertOk (req 16 3 (4096) convWord 0 2) = true)
    ∧ (17 = 17 ∧ (Instr.boltWrite 4) = Instr.boltWrite (req 17 0 (4096) 0 8 8).id ∨ 17 = 18 ∧ (Instr.boltWrite 4) = Instr.writeFlag (req 17 0 (4096) 0
          8 8).id) ∧ (BoltOpen (bolt0 (req 17 0 (4096) 0 8 8)) (req 17 0 (4096) 0 8 8) 17 (req 17 0 (4096) 0 8 8).memLen) := by
  repeat' first
    | decide +kernel
    | apply And.intro
    | exact Or.inl ⟨opens (by decide +kernel), by decide +kernel, by decide +kernel⟩
    | exact Or.inl ⟨opens (by decide +kernel), by decide +kernel⟩
    | exact Or.inl ⟨waits (by decide +kernel), by decide +kernel⟩
    | exact opens (by decide +kernel)
    | exact houses (by decide +kernel)
    | exact waits (by decide +kernel)
    | exact ⟨waits (by decide +kernel), by decide +kernel, by decide +kernel⟩

/-- Cases of clauses of BoltReadsAndWrites. -/
theorem witness_BoltReadsAndWrites_4 :
    (18 = 17 ∧ (Instr.writeFlag 4) = Instr.boltWrite (req 18 0 (4096) 0 8 8).id ∨ 18 = 18 ∧ (Instr.writeFlag 4) = Instr.writeFlag (req 18 0 (4096) 0 8
          8).id) ∧ (BoltOpen (bolt0 (req 18 0 (4096) 0 8 8)) (req 18 0 (4096) 0 8 8) 18 (req 18 0 (4096) 0 8 8).memLen)
    ∧ (17 = 17 ∧ (Instr.boltWrite 4) = Instr.boltWrite (req 17 0 (stackOpen - 8) 0 8 8).id ∨ 17 = 18 ∧ (Instr.boltWrite 4) = Instr.writeFlag (req 17 0
          (stackOpen - 8) 0 8 8).id) ∧ (BoltOpen (bolt0 (req 17 0 (stackOpen - 8) 0 8 8)) (req 17 0 (stackOpen - 8) 0 8 8) 17 (req 17 0 (stackOpen -
          8) 0 8 8).memLen)
    ∧ (17 = 17 ∧ (Instr.boltWrite 4) = Instr.boltWrite (req 17 0 (houseAt) 0 8 4).id ∨ 17 = 18 ∧ (Instr.boltWrite 4) = Instr.writeFlag (req 17 0
          (houseAt) 0 8 4).id) ∧ (BoltHouse (bolt0 (req 17 0 (houseAt) 0 8 4)) (req 17 0 (houseAt) 0 8 4) 17 (req 17 0 (houseAt) 0 8 4).memLen 0
          0x50000000) ∧ ((bolt0 (req 17 0 (houseAt) 0 8 4)).d.stackUp (2 * 0) = true ∨ (bolt0 (req 17 0 (houseAt) 0 8 4)).d.stackUp (2 * 0 + 1) =
          true)
    ∧ (18 = 17 ∧ (Instr.writeFlag 4) = Instr.boltWrite (req 18 0 (houseAt) 0 8 4).id ∨ 18 = 18 ∧ (Instr.writeFlag 4) = Instr.writeFlag (req 18 0
          (houseAt) 0 8 4).id) ∧ (BoltHouse (bolt0 (req 18 0 (houseAt) 0 8 4)) (req 18 0 (houseAt) 0 8 4) 18 (req 18 0 (houseAt) 0 8 4).memLen 0
          0x50000000) ∧ ((bolt0 (req 18 0 (houseAt) 0 8 4)).d.stackUp (2 * 0) = true ∨ (bolt0 (req 18 0 (houseAt) 0 8 4)).d.stackUp (2 * 0 + 1) =
          true)
    ∧ (17 = 17 ∧ (Instr.boltWrite 4) = Instr.boltWrite (req 17 0 (4096) 0 8 8).id ∨ 17 = 18 ∧ (Instr.boltWrite 4) = Instr.writeFlag (req 17 0 (4096) 0
          8 8).id) ∧ (BoltDown (noStacks (req 17 0 (4096) 0 8 8)) (req 17 0 (4096) 0 8 8) 17 (req 17 0 (4096) 0 8 8).memLen)
    ∧ (17 = 17 ∧ (Instr.boltWrite 4) = Instr.boltWrite (req 17 0 (houseAt) 0 8 4).id ∨ 17 = 18 ∧ (Instr.boltWrite 4) = Instr.writeFlag (req 17 0
          (houseAt) 0 8 4).id) ∧ (BoltDown (noStacks (req 17 0 (houseAt) 0 8 4)) (req 17 0 (houseAt) 0 8 4) 17 (req 17 0 (houseAt) 0 8 4).memLen)
    ∧ (17 = 17 ∧ (Instr.boltWrite 4) = Instr.boltWrite (req 17 0 (4096) 0 8 0).id ∨ 17 = 18 ∧ (Instr.boltWrite 4) = Instr.writeFlag (req 17 0 (4096) 0
          8 0).id) ∧ (BoltShut (bolt0 (req 17 0 (4096) 0 8 0)) (req 17 0 (4096) 0 8 0) 17 (req 17 0 (4096) 0 8 0).memLen)
    ∧ (18 = 17 ∧ (Instr.writeFlag 4) = Instr.boltWrite (req 18 0 (stackOpen - 4) 0 8 8).id ∨ 18 = 18 ∧ (Instr.writeFlag 4) = Instr.writeFlag (req 18 0
          (stackOpen - 4) 0 8 8).id) ∧ (BoltShut (bolt0 (req 18 0 (stackOpen - 4) 0 8 8)) (req 18 0 (stackOpen - 4) 0 8 8) 18 (req 18 0 (stackOpen -
          4) 0 8 8).memLen) := by
  repeat' first
    | decide +kernel
    | apply And.intro
    | exact Or.inl ⟨waits (by decide +kernel), by decide +kernel⟩
    | exact Or.inr ⟨by decide, by decide, 0, 0x50000000, houses (by decide +kernel), by decide +kernel⟩
    | exact opens (by decide +kernel)
    | exact houses (by decide +kernel)
    | exact waits (by decide +kernel)
    | exact ⟨waits (by decide +kernel), by decide +kernel, by decide +kernel⟩

/-- Cases of clauses of BoltReadsAndWrites. -/
theorem witness_BoltReadsAndWrites_5 :
    (17 = 17 ∧ (Instr.boltWrite 4) = Instr.boltWrite (req 17 0 (houseAt) 0 8 4).id ∨ 17 = 18 ∧ (Instr.boltWrite 4) = Instr.writeFlag (req 17 0
          (houseAt) 0 8 4).id) ∧ (BoltShut (plain (req 17 0 (houseAt) 0 8 4)) (req 17 0 (houseAt) 0 8 4) 17 (req 17 0 (houseAt) 0 8 4).memLen) := by
  repeat' first
    | decide +kernel
    | apply And.intro
    | exact opens (by decide +kernel)
    | exact houses (by decide +kernel)
    | exact waits (by decide +kernel)
    | exact ⟨waits (by decide +kernel), by decide +kernel, by decide +kernel⟩

/-- The records at 4096 have counted all that they can. -/
def full (p : Pkt) : State := { bolt0 p with mem := (List.range 5).map (fun i => (4096 + 43 + i, 255)) }

/-- Cases of clauses of BoltAtomicsAndReductions. -/
theorem witness_BoltAtomicsAndReductions_1 :
    ((req 19 (8192) (4096) 0 16 8).abytes = 4) ∧ ((req 19 (8192) (4096) 0 16 8).aword.fmt = 0) ∧ (elemBytes 0 = 8)
        ∧ (BoltOpen (bolt0 (req 19 (8192) (4096) 0 16 8)) (req 19 (8192) (4096) 0 16 8) 19 4) ∧ ((bolt0 (req 19 (8192) (4096) 0 16 8)).d.eccAt (req 19
          (8192) (4096) 0 16 8).addr 4 = false) ∧ (aopOk (req 19 (8192) (4096) 0 16 8).aop 4 = true) ∧ ((req 19 (8192) (4096) 0 16 8).addr % 4 = 0)
    ∧ ((req 19 (9216) (4104) 0 16 8).abytes = 8) ∧ ((req 19 (9216) (4104) 0 16 8).aword.fmt = 0) ∧ (elemBytes 0 = 8)
        ∧ (BoltOpen (bolt0 (req 19 (9216) (4104) 0 16 8)) (req 19 (9216) (4104) 0 16 8) 19 8) ∧ ((bolt0 (req 19 (9216) (4104) 0 16 8)).d.eccAt (req 19
          (9216) (4104) 0 16 8).addr 8 = false) ∧ (aopOk (req 19 (9216) (4104) 0 16 8).aop 8 = true) ∧ ((req 19 (9216) (4104) 0 16 8).addr % 8 = 0)
    ∧ ((req 19 (8192) (4096) 0 16 8).abytes = 4) ∧ ((req 19 (8192) (4096) 0 16 8).aword.fmt = 0) ∧ (elemBytes 0 = 8)
        ∧ (BoltDown (noStacks (req 19 (8192) (4096) 0 16 8)) (req 19 (8192) (4096) 0 16 8) 19 4) ∧ (aopOk (req 19 (8192) (4096) 0 16 8).aop 4 = true)
        ∧ ((req 19 (8192) (4096) 0 16 8).addr % 4 = 0)
    ∧ ((req 19 (8192) (4096) 0 16 8).abytes = 4) ∧ ((req 19 (8192) (4096) 0 16 8).aword.fmt = 0) ∧ (elemBytes 0 = 8)
        ∧ (BoltEcc (eccd (req 19 (8192) (4096) 0 16 8)) (req 19 (8192) (4096) 0 16 8) 19 4) ∧ (aopOk (req 19 (8192) (4096) 0 16 8).aop 4 = true)
        ∧ ((req 19 (8192) (4096) 0 16 8).addr % 4 = 0)
    ∧ ((req 19 (8192) (4096) 0 16 0).abytes = 4) ∧ ((req 19 (8192) (4096) 0 16 0).aword.fmt = 0) ∧ (elemBytes 0 = 8)
        ∧ (BoltShut (bolt0 (req 19 (8192) (4096) 0 16 0)) (req 19 (8192) (4096) 0 16 0) 19 4) ∧ (aopOk (req 19 (8192) (4096) 0 16 0).aop 4 = true)
        ∧ ((req 19 (8192) (4096) 0 16 0).addr % 4 = 0)
    ∧ ((req 19 (8192) (houseAt) 0 16 4).abytes = 4) ∧ ((req 19 (8192) (houseAt) 0 16 4).aword.fmt = 0) ∧ (elemBytes 0 = 8)
        ∧ (BoltShut (bolt0 (req 19 (8192) (houseAt) 0 16 4)) (req 19 (8192) (houseAt) 0 16 4) 19 4) ∧ (aopOk (req 19 (8192) (houseAt) 0 16 4).aop 4 =
          true) ∧ ((req 19 (8192) (houseAt) 0 16 4).addr % 4 = 0)
    ∧ ((req 19 (8192) (houseAt) 0 16 4).abytes = 4) ∧ ((req 19 (8192) (houseAt) 0 16 4).aword.fmt = 0) ∧ (elemBytes 0 = 8)
        ∧ (BoltShut (noStacks (req 19 (8192) (houseAt) 0 16 4)) (req 19 (8192) (houseAt) 0 16 4) 19 4) ∧ (aopOk (req 19 (8192) (houseAt) 0 16 4).aop 4
          = true) ∧ ((req 19 (8192) (houseAt) 0 16 4).addr % 4 = 0)
    ∧ ((req 19 (8192) (4098) 0 16 8).abytes = 4) ∧ ((req 19 (8192) (4098) 0 16 8).aword.fmt = 0) ∧ (elemBytes 0 = 8)
        ∧ (AtBolt (bolt0 (req 19 (8192) (4098) 0 16 8)) (req 19 (8192) (4098) 0 16 8) 19) ∧ (aopOk (req 19 (8192) (4098) 0 16 8).aop 4 = false
        ∨ (req 19 (8192) (4098) 0 16 8).addr % 4 ≠ 0) := by
  repeat' first
    | decide +kernel
    | apply And.intro
    | exact Or.inl ⟨opens (by decide +kernel), by decide +kernel⟩
    | exact Or.inl ⟨waits (by decide +kernel), by decide +kernel⟩
    | exact opens (by decide +kernel)
    | exact houses (by decide +kernel)
    | exact waits (by decide +kernel)
    | exact ⟨waits (by decide +kernel), by decide +kernel, by decide +kernel⟩

/-- Cases of clauses of BoltAtomicsAndReductions. -/
theorem witness_BoltAtomicsAndReductions_2 :
    ((req 19 (5120) (4096) 0 16 8).abytes = 8) ∧ ((req 19 (5120) (4096) 0 16 8).aword.fmt = 0) ∧ (elemBytes 0 = 8)
        ∧ (AtBolt (bolt0 (req 19 (5120) (4096) 0 16 8)) (req 19 (5120) (4096) 0 16 8) 19) ∧ (aopOk (req 19 (5120) (4096) 0 16 8).aop 8 = false
        ∨ (req 19 (5120) (4096) 0 16 8).addr % 8 ≠ 0)
    ∧ ((req 20 0 (4096) (sumWord) 8 8).abytes = 4) ∧ ((req 20 0 (4096) (sumWord) 8 8).aword.fmt = 1) ∧ (elemBytes 1 = 4)
        ∧ (elemCount 1 (req 20 0 (4096) (sumWord) 8 8).memLen ≠ 0) ∧ (reduceExact (req 20 0 (4096) (sumWord) 8 8).aword = true)
        ∧ ((req 20 0 (4096) (sumWord) 8 8).addr % 16 = 0) ∧ (BoltOpen (bolt0 (req 20 0 (4096) (sumWord) 8 8)) (req 20 0 (4096) (sumWord) 8 8) 20 (req
          20 0 (4096) (sumWord) 8 8).extent) ∧ ((bolt0 (req 20 0 (4096) (sumWord) 8 8)).d.eccAt (req 20 0 (4096) (sumWord) 8 8).addr (req 20 0 (4096)
          (sumWord) 8 8).extent = false) ∧ (addRecords 1 (memRead (bolt0 (req 20 0 (4096) (sumWord) 8 8)).mem (req 20 0 (4096) (sumWord) 8 8).addr
          (req 20 0 (4096) (sumWord) 8 8).extent) (List.map (fun i => bytesAt ((req 20 0 (4096) (sumWord) 8 8).bytesFrom 32 (req 20 0 (4096) (sumWord)
          8 8).memLen) (i * 4) 4) (List.range ((req 20 0 (4096) (sumWord) 8 8).memLen / 4))) = some ((addRecords 1 (memRead [] 4096 64) [0x01010101,
          0x01010101]).getD []))
    ∧ ((req 20 0 (4096) (sumWord) 8 8).abytes = 4) ∧ ((req 20 0 (4096) (sumWord) 8 8).aword.fmt = 1) ∧ (elemBytes 1 = 4)
        ∧ (elemCount 1 (req 20 0 (4096) (sumWord) 8 8).memLen ≠ 0) ∧ (reduceExact (req 20 0 (4096) (sumWord) 8 8).aword = true)
        ∧ ((req 20 0 (4096) (sumWord) 8 8).addr % 16 = 0) ∧ (BoltOpen (full (req 20 0 (4096) (sumWord) 8 8)) (req 20 0 (4096) (sumWord) 8 8) 20 (req
          20 0 (4096) (sumWord) 8 8).extent) ∧ ((full (req 20 0 (4096) (sumWord) 8 8)).d.eccAt (req 20 0 (4096) (sumWord) 8 8).addr (req 20 0 (4096)
          (sumWord) 8 8).extent = false) ∧ (addRecords 1 (memRead (full (req 20 0 (4096) (sumWord) 8 8)).mem (req 20 0 (4096) (sumWord) 8 8).addr (req
          20 0 (4096) (sumWord) 8 8).extent) (List.map (fun i => bytesAt ((req 20 0 (4096) (sumWord) 8 8).bytesFrom 32 (req 20 0 (4096) (sumWord) 8
          8).memLen) (i * 4) 4) (List.range ((req 20 0 (4096) (sumWord) 8 8).memLen / 4))) = none)
    ∧ ((req 20 0 (4096) (sumWord) 8 8).abytes = 4) ∧ ((req 20 0 (4096) (sumWord) 8 8).aword.fmt = 1) ∧ (elemBytes 1 = 4)
        ∧ (elemCount 1 (req 20 0 (4096) (sumWord) 8 8).memLen ≠ 0) ∧ (reduceExact (req 20 0 (4096) (sumWord) 8 8).aword = true)
        ∧ ((req 20 0 (4096) (sumWord) 8 8).addr % 16 = 0) ∧ (BoltDown (noStacks (req 20 0 (4096) (sumWord) 8 8)) (req 20 0 (4096) (sumWord) 8 8) 20
          (req 20 0 (4096) (sumWord) 8 8).extent)
    ∧ ((req 20 0 (4096) (sumWord) 8 8).abytes = 4) ∧ ((req 20 0 (4096) (sumWord) 8 8).aword.fmt = 1) ∧ (elemBytes 1 = 4)
        ∧ (elemCount 1 (req 20 0 (4096) (sumWord) 8 8).memLen ≠ 0) ∧ (reduceExact (req 20 0 (4096) (sumWord) 8 8).aword = true)
        ∧ ((req 20 0 (4096) (sumWord) 8 8).addr % 16 = 0) ∧ (BoltEcc (eccd (req 20 0 (4096) (sumWord) 8 8)) (req 20 0 (4096) (sumWord) 8 8) 20 (req 20
          0 (4096) (sumWord) 8 8).extent)
    ∧ ((req 20 0 (4096) (sumWord) 8 0).abytes = 4) ∧ ((req 20 0 (4096) (sumWord) 8 0).aword.fmt = 1) ∧ (elemBytes 1 = 4)
        ∧ (elemCount 1 (req 20 0 (4096) (sumWord) 8 0).memLen ≠ 0) ∧ (reduceExact (req 20 0 (4096) (sumWord) 8 0).aword = true)
        ∧ ((req 20 0 (4096) (sumWord) 8 0).addr % 16 = 0) ∧ (BoltShut (bolt0 (req 20 0 (4096) (sumWord) 8 0)) (req 20 0 (4096) (sumWord) 8 0) 20 (req
          20 0 (4096) (sumWord) 8 0).extent)
    ∧ ((req 20 0 (houseAt) (sumWord) 8 4).abytes = 4) ∧ ((req 20 0 (houseAt) (sumWord) 8 4).aword.fmt = 1) ∧ (elemBytes 1 = 4)
        ∧ (elemCount 1 (req 20 0 (houseAt) (sumWord) 8 4).memLen ≠ 0) ∧ (reduceExact (req 20 0 (houseAt) (sumWord) 8 4).aword = true)
        ∧ ((req 20 0 (houseAt) (sumWord) 8 4).addr % 16 = 0) ∧ (BoltShut (bolt0 (req 20 0 (houseAt) (sumWord) 8 4)) (req 20 0 (houseAt) (sumWord) 8 4)
          20 (req 20 0 (houseAt) (sumWord) 8 4).extent)
    ∧ ((req 20 0 (houseAt) (sumWord) 8 4).abytes = 4) ∧ ((req 20 0 (houseAt) (sumWord) 8 4).aword.fmt = 1) ∧ (elemBytes 1 = 4)
        ∧ (elemCount 1 (req 20 0 (houseAt) (sumWord) 8 4).memLen ≠ 0) ∧ (reduceExact (req 20 0 (houseAt) (sumWord) 8 4).aword = true)
        ∧ ((req 20 0 (houseAt) (sumWord) 8 4).addr % 16 = 0) ∧ (BoltShut (noStacks (req 20 0 (houseAt) (sumWord) 8 4)) (req 20 0 (houseAt) (sumWord) 8
          4) 20 (req 20 0 (houseAt) (sumWord) 8 4).extent) := by
  repeat' first
    | decide +kernel
    | apply And.intro
    | exact Or.inl ⟨opens (by decide +kernel), by decide +kernel⟩
    | exact Or.inl ⟨waits (by decide +kernel), by decide +kernel⟩
    | exact opens (by decide +kernel)
    | exact houses (by decide +kernel)
    | exact waits (by decide +kernel)
    | exact ⟨waits (by decide +kernel), by decide +kernel, by decide +kernel⟩

/-- Cases of clauses of BoltAtomicsAndReductions. -/
theorem witness_BoltAtomicsAndReductions_3 :
    ((req 20 0 (4096) (maxWord) 8 8).abytes = 4) ∧ ((req 20 0 (4096) (maxWord) 8 8).aword.fmt = 17) ∧ (elemBytes 17 = 2)
        ∧ (elemCount 17 (req 20 0 (4096) (maxWord) 8 8).memLen ≠ 0) ∧ (reduceExact (req 20 0 (4096) (maxWord) 8 8).aword = false)
        ∧ (reduceInPlace (req 20 0 (4096) (maxWord) 8 8).aword = true) ∧ ((req 20 0 (4096) (maxWord) 8 8).addr % max 1 2 = 0)
        ∧ (BoltOpen (bolt0 (req 20 0 (4096) (maxWord) 8 8)) (req 20 0 (4096) (maxWord) 8 8) 20 (req 20 0 (4096) (maxWord) 8 8).memLen)
        ∧ ((bolt0 (req 20 0 (4096) (maxWord) 8 8)).d.eccAt (req 20 0 (4096) (maxWord) 8 8).addr (req 20 0 (4096) (maxWord) 8 8).memLen = false)
    ∧ ((req 20 0 (4096) (sumWord + 2048) 8 8).abytes = 4) ∧ ((req 20 0 (4096) (sumWord + 2048) 8 8).aword.fmt = 1)
        ∧ (elemBytes 1 = 4) ∧ (AtBolt (bolt0 (req 20 0 (4096) (sumWord + 2048) 8 8)) (req 20 0 (4096) (sumWord + 2048) 8 8) 20)
        ∧ (reduceExact (req 20 0 (4096) (sumWord + 2048) 8 8).aword = false ∧ reduceInPlace (req 20 0 (4096) (sumWord + 2048) 8 8).aword = false
        ∨ elemCount 1 (req 20 0 (4096) (sumWord + 2048) 8 8).memLen = 0)
    ∧ ((req 20 0 (4096) (maxWord) 7 8).abytes = 4) ∧ ((req 20 0 (4096) (maxWord) 7 8).aword.fmt = 17) ∧ (elemBytes 17 = 2)
        ∧ (AtBolt (bolt0 (req 20 0 (4096) (maxWord) 7 8)) (req 20 0 (4096) (maxWord) 7 8) 20) ∧ (reduceExact (req 20 0 (4096) (maxWord) 7 8).aword =
          false ∧ reduceInPlace (req 20 0 (4096) (maxWord) 7 8).aword = false ∨ elemCount 17 (req 20 0 (4096) (maxWord) 7 8).memLen = 0) := by
  repeat' first
    | decide +kernel
    | apply And.intro
    | exact opens (by decide +kernel)
    | exact houses (by decide +kernel)
    | exact waits (by decide +kernel)

/-- A fence, or another held request, at NEXT of the one context of its terminal. -/
def fence (opc : Nat) : Pkt := { sent 1 opc 1 1 0x00300001 (bytesOf 2 7) with place := .held 8 1 }
def heldFirst (p : Pkt) : Ctx := { src := p.src, dst := p.dst, vl := 1, pv := p.psnValid, lane := 8, next := p.rsqNo, learning := false, gapOn := false, arr := 0, hold := some 4 }
def keeping (p : Pkt) (c : Ctx) : State := onDv (fun d => { d with net := { d.net with ctxs := [c] } }) (plain p)
/-- A request of the flow is still out. -/
def holdsBack (p : Pkt) (c : Ctx) : State := onDv (fun d => { d with net := { d.net with flows := [{ src := p.src, dst := p.dst, outA := 1 }] } }) (keeping p c)
/-- A response of a STATUS at the terminal's ingress, and a ledger that holds the request of tag 7. -/
def response (opc st tag : Nat) : Pkt :=
  let p := sent 1 opc 2 1 0x00300001 (bytesOf 2 tag)
  { p with rw := BitVec.ofNat 32 (2 ^ 20 * st), place := .respIn 8 }
def owed (tag : Nat) : Led := { src := 0x00002001, dst := 0x00300001, tag := tag, writing := true, prod := 9, gen := 1, tc := 3, addr := 4096 }
def owing (p : Pkt) : State := onDv (fun d => { d with net := { d.net with ledger := [owed 7], flows := [{ src := 0x00002001, dst := 0x00300001, outA := 1, outW := 1 }] } }) (plain p)
/-- A swatch of three pages from 4096 on, of an OWNER at this device, in a STATE, and a transfer of it. -/
def swatch (owner state : Nat) : BitVec 512 := entry [(0, 63, 12, 1), (1, 63, 12, 3), (2, 63, 12, 1), (3, 63, 32, 0x00002001), (3, 31, 0, owner), (0, 11, 0, 9), (4, 32, 31, state)]
def xfer (addr : Nat) : Pkt := { sent 1 22 1 1 0x00300001 (bytesOf 2 7 ++ bytesOf 2 0 ++ bytesOf 8 addr ++ bytesOf 4 0x00300101) with place := .xferIn 8 }
def owning (e : BitVec 512) (ps : List Pkt) : State := holding ps (st (withEnt boot 3 3 e))
def moving : Move := { newOwner := 0x00300101, newMode := false, owner := 0x00300001, tag := 7, tc := 3, gen := 1, addr := 4096 }
def underMove : State := onDv (fun d => { d with tab := { d.tab with moves := [(3, moving)] } }) (owning (swatch 0x00300001 1) [])

/-- Cases of clauses of MemoryOrdering. -/
theorem witness_MemoryOrdering_1 :
    (HeldAtNext (keeping (fence 21) (heldFirst (fence 21))) (fence 21) (heldFirst (fence 21))) ∧ ((fence 21).opc = 21)
        ∧ (((keeping (fence 21) (heldFirst (fence 21))).d.flow (fence 21).src (fence 21).dst).outA = 0)
    ∧ (HeldAtNext (holdsBack (fence 21) (heldFirst (fence 21))) (fence 21) (heldFirst (fence 21))) ∧ ((fence 21).opc = 21)
        ∧ (((holdsBack (fence 21) (heldFirst (fence 21))).d.flow (fence 21).src (fence 21).dst).outA ≠ 0)
    ∧ (HeldAtNext (keeping (fence 18) (heldFirst (fence 18))) (fence 18) (heldFirst (fence 18))) ∧ ((fence 18).opc = 18
        ∨ (fence 18).opc = 21 ∨ (fence 18).opc = 22)
    ∧ (HeldAtNext (keeping (fence 22) (heldFirst (fence 22))) (fence 22) (heldFirst (fence 22))) ∧ ((fence 22).opc = 18
        ∨ (fence 22).opc = 21 ∨ (fence 22).opc = 22)
    ∧ (HeldAtNext (keeping (fence 21) (heldFirst (fence 21))) (fence 21) (heldFirst (fence 21))) ∧ ((fence 21).opc = 18
        ∨ (fence 21).opc = 21 ∨ (fence 21).opc = 22)
    ∧ (AtIngress (owing (response 33 0 7)) (response 33 0 7) (Place.respIn 8)) ∧ ((owing (response 33 0 7)).d.net.ledger = [(owed 7)])
        ∧ ((owed 7).src = (response 33 0 7).dst) ∧ ((owed 7).dst = (response 33 0 7).src) ∧ ((owed 7).tag = (response 33 0 7).at 4 2)
        ∧ (((owing (response 33 0 7)).d.responseTaken (response 33 0 7)) = (owing (response 33 0 7)).d.responseTaken (response 33 0 7))
    ∧ (AtIngress (owing (response 33 0 7)) (response 33 0 7) (Place.respIn 8)) ∧ ((owing (response 33 0 7)).d.net.ledger = [(owed 7)])
        ∧ ((owed 7).src = (response 33 0 7).dst) ∧ ((owed 7).dst = (response 33 0 7).src) ∧ ((owed 7).tag = (response 33 0 7).at 4 2)
        ∧ (((owing (response 33 0 7)).d.responseTaken (response 33 0 7)) = (owing (response 33 0 7)).d.responseTaken (response 33 0 7))
        ∧ ((response 33 0 7).status = 0)
    ∧ (AtIngress (owing (response 33 7 7)) (response 33 7 7) (Place.respIn 8)) ∧ ((owing (response 33 7 7)).d.net.ledger = [(owed 7)])
        ∧ ((owed 7).src = (response 33 7 7).dst) ∧ ((owed 7).dst = (response 33 7 7).src) ∧ ((owed 7).tag = (response 33 7 7).at 4 2)
        ∧ (((owing (response 33 7 7)).d.responseTaken (response 33 7 7)) = (owing (response 33 7 7)).d.responseTaken (response 33 7 7)) := by
  repeat' first
    | with_reducible exact rfl
    | decide +kernel
    | apply And.intro
    | apply HeldAtNext.mk
    | apply AtIngress.mk

/-- Cases of clauses of MemoryOrdering. -/
theorem witness_MemoryOrdering_2 :
    (AtIngress (owing (response 33 7 7)) (response 33 7 7) (Place.respIn 8)) ∧ ((owing (response 33 7 7)).d.net.ledger = [(owed 7)])
        ∧ ((owed 7).src = (response 33 7 7).dst) ∧ ((owed 7).dst = (response 33 7 7).src) ∧ ((owed 7).tag = (response 33 7 7).at 4 2)
        ∧ (((owing (response 33 7 7)).d.responseTaken (response 33 7 7)) = (owing (response 33 7 7)).d.responseTaken (response 33 7 7))
        ∧ ((response 33 7 7).status ≠ 0)
    ∧ (AtIngress (owing (response 33 0 8)) (response 33 0 8) (Place.respIn 8)) ∧ (∀ l ∈ (owing (response 33 0 8)).d.net.ledger, ¬(l.src = (response 33
          0 8).dst ∧ l.dst = (response 33 0 8).src ∧ l.tag = (response 33 0 8).at 4 2)) ∧ (((owing (response 33 0 8)).d.responseTaken (response 33 0
          8)) = (owing (response 33 0 8)).d.responseTaken (response 33 0 8))
    ∧ (AtIngress (owing (response 33 0 8)) (response 33 0 8) (Place.respIn 8))
    ∧ (AtIngress (owning (swatch 0x00300001 0) [xfer 4096]) (xfer 4096) (Place.xferIn 8)) ∧ ((xfer 4096).vl = 1)
        ∧ ((xfer 4096).opc = 22) ∧ (((owning (swatch 0x00300001 0) [xfer 4096]).d.swatchAt (xfer 4096).prod (xfer 4096).addr).1 = some (3, (swatch
          0x00300001 0))) ∧ ((xfer 4096).dst.toNat = swTarget (swatch 0x00300001 0)) ∧ (swOwner (swatch 0x00300001 0) / 256 = bitsOf (xfer 4096).src
          31 8) ∧ (swState (swatch 0x00300001 0) = 0) ∧ (((owning (swatch 0x00300001 0) [xfer 4096]).d.moveStart (xfer 4096) 3 (swatch 0x00300001 0))
          = (owning (swatch 0x00300001 0) [xfer 4096]).d.moveStart (xfer 4096) 3 (swatch 0x00300001 0))
    ∧ (AtIngress (owning (swatch 0x00300001 0) [xfer 4096]) (xfer 4096) (Place.xferIn 8)) ∧ ((xfer 4096).vl = 1)
        ∧ ((xfer 4096).opc = 22) ∧ (((owning (swatch 0x00300001 0) [xfer 4096]).d.swatchAt (xfer 4096).prod (xfer 4096).addr).1 = some (3, (swatch
          0x00300001 0))) ∧ ((xfer 4096).dst.toNat = swTarget (swatch 0x00300001 0)) ∧ (swOwner (swatch 0x00300001 0) / 256 = bitsOf (xfer 4096).src
          31 8) ∧ (swState (swatch 0x00300001 0) = 0) ∧ (((owning (swatch 0x00300001 0) [xfer 4096]).d.moveStart (xfer 4096) 3 (swatch 0x00300001 0))
          = (owning (swatch 0x00300001 0) [xfer 4096]).d.moveStart (xfer 4096) 3 (swatch 0x00300001 0)) ∧ (tblKey 3 4 ≠ tblKey 3 3)
    ∧ (AtIngress (owning (swatch 0x00300001 0) [xfer 4096]) (xfer 4096) (Place.xferIn 8)) ∧ ((xfer 4096).vl = 1) ∧ ((xfer 4096).opc = 22)
    ∧ (AtIngress (owning (swatch 0x00300001 0) [xfer 4096]) (xfer 4096) (Place.xferIn 8)) ∧ ((xfer 4096).vl = 1)
        ∧ ((xfer 4096).opc = 22) ∧ (((owning (swatch 0x00300001 0) [xfer 4096]).d.swatchAt (xfer 4096).prod (xfer 4096).addr).1 = some (3, (swatch
          0x00300001 0))) ∧ ((xfer 4096).dst.toNat = swTarget (swatch 0x00300001 0)) ∧ (swOwner (swatch 0x00300001 0) / 256 = bitsOf (xfer 4096).src
          31 8) ∧ (swState (swatch 0x00300001 0) = 0) ∧ (((owning (swatch 0x00300001 0) [xfer 4096]).d.moveStart (xfer 4096) 3 (swatch 0x00300001 0))
          = (owning (swatch 0x00300001 0) [xfer 4096]).d.moveStart (xfer 4096) 3 (swatch 0x00300001 0)) ∧ (tblKey 4 3 ≠ tblKey 3 3)
    ∧ (AtIngress (owning (swatch 0x00300101 0) [xfer 4096]) (xfer 4096) (Place.xferIn 8)) ∧ ((xfer 4096).vl = 1)
        ∧ ((xfer 4096).opc = 22) ∧ (((owning (swatch 0x00300101 0) [xfer 4096]).d.swatchAt (xfer 4096).prod (xfer 4096).addr).1 = some (3, (swatch
          0x00300101 0))) ∧ ((xfer 4096).dst.toNat ≠ swTarget (swatch 0x00300101 0) ∨ swOwner (swatch 0x00300101 0) / 256 ≠ bitsOf (xfer 4096).src 31
          8 ∨ swState (swatch 0x00300101 0) ≠ 0) := by
  repeat' first
    | with_reducible exact rfl
    | decide +kernel
    | apply And.intro
    | apply AtIngress.mk

/-- Cases of clauses of MemoryOrdering. -/
theorem witness_MemoryOrdering_3 :
    (AtIngress (owning (swatch 0x00300001 1) [xfer 4096]) (xfer 4096) (Place.xferIn 8)) ∧ ((xfer 4096).vl = 1)
        ∧ ((xfer 4096).opc = 22) ∧ (((owning (swatch 0x00300001 1) [xfer 4096]).d.swatchAt (xfer 4096).prod (xfer 4096).addr).1 = some (3, (swatch
          0x00300001 1))) ∧ ((xfer 4096).dst.toNat ≠ swTarget (swatch 0x00300001 1) ∨ swOwner (swatch 0x00300001 1) / 256 ≠ bitsOf (xfer 4096).src 31
          8 ∨ swState (swatch 0x00300001 1) ≠ 0)
    ∧ (AtIngress (owning (swatch 0x00300001 0) [xfer 16384]) (xfer 16384) (Place.xferIn 8)) ∧ ((xfer 16384).vl = 1)
        ∧ ((xfer 16384).opc = 22) ∧ (((owning (swatch 0x00300001 0) [xfer 16384]).d.swatchAt (xfer 16384).prod (xfer 16384).addr).1 = none)
    ∧ (Calm underMove) ∧ (underMove.d.tab.moves.find 3 = some moving) ∧ (underMove.d.ent 3 3 = some (swatch 0x00300001 1)) := by
  repeat' first
    | with_reducible exact rfl
    | decide +kernel
    | apply And.intro
    | apply AtIngress.mk

/-- Lane 8 with an end point of a CA, in a STATE, and no HEARTBEAT from it. -/
def endLink (ty ca st : Nat) : State := onDv (fun d => d.setFld F.PRT_PEER_CA 8 ca) (link 8 ty st bst)
/-- The dead end point has a request held for it, and one in the ledger. -/
def toDead : Pkt := { sent 1 17 1 1 0x00300101 (bytesOf 2 7) with hdr := mkHdr 0x00300001 0x00300101 9 1 17 0 3, place := .held 8 1 }
def dead9 (phase : Nat) : Dead := { ca := 0x003000, prod := 9, phase := phase, poisoned := 0 }
def refusing : State := onDv (fun d => { d with net := { d.net with deads := [dead9 0] } }) (keeping toDead (heldFirst toDead))
def ledgerDead : State := onDv (fun d => { d with net := { d.net with deads := [dead9 1], ledger := [owed 7] } }) bst

/-- A case of each clause of DeadTargets. -/
theorem witness_DeadTargets :
    (8 < (endLink 0 0x003000 3).d.nLanes) ∧ ((endLink 0 0x003000 3).d.net.endsDown = []) ∧ ((endLink 0 0x003000 3).d.ltype 8 = 0)
        ∧ ((endLink 0 0x003000 3).d.peerCa 8 ≠ 0) ∧ ((endLink 0 0x003000 3).d.endHeard ((endLink 0 0x003000 3).d.peerCa 8) = false)
    ∧ (8 < (endLink 1 0x003000 3).d.nLanes) ∧ ((endLink 1 0x003000 3).d.net.endsDown = []) ∧ ((endLink 1 0x003000 3).d.ltype 8 ≠ 0
        ∨ (endLink 1 0x003000 3).d.peerCa 8 = 0 ∨ (endLink 1 0x003000 3).d.endHeard ((endLink 1 0x003000 3).d.peerCa 8) = true)
    ∧ (8 < (endLink 0 0 3).d.nLanes) ∧ ((endLink 0 0 3).d.net.endsDown = []) ∧ ((endLink 0 0 3).d.ltype 8 ≠ 0
        ∨ (endLink 0 0 3).d.peerCa 8 = 0 ∨ (endLink 0 0 3).d.endHeard ((endLink 0 0 3).d.peerCa 8) = true)
    ∧ (1023 < (onDv (fun d => d.setFld F.PRT_LINK_CTL_TYPE 1023 0) (endLink 1 0x003000 3)).d.nLanes) ∧ ((onDv (fun d => d.setFld F.PRT_LINK_CTL_TYPE
          1023 0) (endLink 1 0x003000 3)).d.net.endsDown = []) ∧ ((onDv (fun d => d.setFld F.PRT_LINK_CTL_TYPE 1023 0) (endLink 1 0x003000 3)).d.ltype
          1023 ≠ 0 ∨ (onDv (fun d => d.setFld F.PRT_LINK_CTL_TYPE 1023 0) (endLink 1 0x003000 3)).d.peerCa 1023 = 0
        ∨ (onDv (fun d => d.setFld F.PRT_LINK_CTL_TYPE 1023 0) (endLink 1 0x003000 3)).d.endHeard ((onDv (fun d => d.setFld F.PRT_LINK_CTL_TYPE 1023
          0) (endLink 1 0x003000 3)).d.peerCa 1023) = true)
    ∧ (Calm (endLink 0 0x003000 3)) ∧ (InState (endLink 0 0x003000 3) 8 3) ∧ ((endLink 0 0x003000 3).d.ltype 8 = 0)
        ∧ ((endLink 0 0x003000 3).d.peerCa 8 ≠ 0) ∧ (∀ l < (endLink 0 0x003000 3).d.nLanes, l ≠ 8 → (endLink 0 0x003000 3).d.ltype l = 0
        → (endLink 0 0x003000 3).d.peerCa l = (endLink 0 0x003000 3).d.peerCa 8 → (endLink 0 0x003000 3).d.lstate l ≠ 3)
    ∧ (Calm bst) ∧ (bst.d.tab.ent.sorted = true) ∧ (bst.d.net.pkts = [])
    ∧ (Calm refusing) ∧ (refusing.d.tab.ent.sorted = true) ∧ (HeldAtNext refusing toDead (heldFirst toDead)) ∧ (bitsOf toDead.dst 31 8 = bitsOf
          (0x00300001 : BitVec 32) 31 8) ∧ ((heldFirst toDead).dst = toDead.dst) ∧ ((heldFirst toDead).next = toDead.rsqNo)
        ∧ (∃ x ∈ refusing.d.net.deads, x.ca = bitsOf (0x00300001 : BitVec 32) 31 8 ∧ x.phase = 0 ∧ x.prod = toDead.prod)
    ∧ (Calm ledgerDead) ∧ (ledgerDead.d.net.pkts = []) ∧ (ledgerDead.d.net.ledger = [(owed 7)]) ∧ (bitsOf (owed 7).dst 31 8 = bitsOf (0x00300001 :
          BitVec 32) 31 8) ∧ (ledgerDead.d.net.deads = [{ ca := bitsOf (0x00300001 : BitVec 32) 31 8, prod := (owed 7).prod, phase := 1, poisoned := 0 }]) :=
          by
  repeat' first
    | decide +kernel
    | apply And.intro
    | apply HeldAtNext.mk

/-! ## Wings -/

/-- A laser of Wing `w` in a STATE, its GROUP its own number. -/
def aLaser (w k n : Nat) (s : State) : State := onDv (fun d => (d.setFld F.WNG_LASER_GROUP (11 * w + k) k).setFld F.WNG_LASER_STATE (11 * w + k) n) s
def understudied : State := onDv (fun d => (d.setFld F.WNG_LASER_GROUP 173 15).setFld F.WNG_LASER_STATE 173 3) (aLaser 15 7 2 bst)
/-- A swap of group 7 of Wing 15 in a row; the device with it; a packet of a lane of the group; lane 1020 trains, or not. -/
def swap (row : Nat) (fade : Bool) : Swap := { group := 7, under := 8, old := 7, fade := fade, row := row, byCmd := true, fallback := false, lanes := [1020] }
def swapping (x : Swap) : State := onDv (fun d => d.setWing 15 { swaps := [x] }) bst
def queued (x : Swap) : State := holding [packet 17 1 (.queue 1020 1)] (swapping x)
def laneTrained (n : Nat) (x : Swap) : State := link 1020 1 n (swapping x)

/-- Cases of clauses of LaserSwaps. -/
theorem witness_LaserSwaps_1 :
    (15 < (aLaser 15 7 2 bst).d.nWings) ∧ (7 < 8) ∧ (1 = 1 ∧ (Instr.laserSwap fm 15 0x0800000000000000) = Instr.laserSwap fm 15 (0x0800000000000000 :
          Word) ∨ 1 = 2 ∧ (Instr.laserSwap fm 15 0x0800000000000000) = Instr.swapFade fm 15 (0x0800000000000000 : Word))
        ∧ (Reaches (aLaser 15 7 2 bst) fm RF.WNG_LASER_CMD 15 (setBits (0x0800000000000000 : Word) 63 60 1)) ∧ (8 ≤ bitsOf (0x0800000000000000 : Word)
          59 56)
    ∧ (15 < (aLaser 15 7 2 bst).d.nWings) ∧ (7 < 8) ∧ (2 = 1 ∧ (Instr.swapFade fm 15 0x0800000000000000) = Instr.laserSwap fm 15 (0x0800000000000000 :
          Word) ∨ 2 = 2 ∧ (Instr.swapFade fm 15 0x0800000000000000) = Instr.swapFade fm 15 (0x0800000000000000 : Word))
        ∧ (Reaches (aLaser 15 7 2 bst) fm RF.WNG_LASER_CMD 15 (setBits (0x0800000000000000 : Word) 63 60 2)) ∧ (8 ≤ bitsOf (0x0800000000000000 : Word)
          59 56)
    ∧ (15 < understudied.d.nWings) ∧ (7 < 8) ∧ (1 = 1 ∧ (Instr.laserSwap fm 15 0x0700000000000000) = Instr.laserSwap fm 15 (0x0700000000000000 : Word)
        ∨ 1 = 2 ∧ (Instr.laserSwap fm 15 0x0700000000000000) = Instr.swapFade fm 15 (0x0700000000000000 : Word))
        ∧ (Reaches understudied fm RF.WNG_LASER_CMD 15 (setBits (0x0700000000000000 : Word) 63 60 1)) ∧ (bitsOf (0x0700000000000000 : Word) 59 56 = 7)
        ∧ (understudied.d.fld F.WNG_LASER_CMD_BUSY 15 = 0) ∧ (understudied.d.groupLaser 15 7 = some 7) ∧ (understudied.d.laserState 15 7 = 2)
        ∧ (understudied.d.freeUnder 15 7 = some 8)
    ∧ (15 < understudied.d.nWings) ∧ (7 < 8) ∧ (2 = 1 ∧ (Instr.swapFade fm 15 0x0700000000000000) = Instr.laserSwap fm 15 (0x0700000000000000 : Word)
        ∨ 2 = 2 ∧ (Instr.swapFade fm 15 0x0700000000000000) = Instr.swapFade fm 15 (0x0700000000000000 : Word))
        ∧ (Reaches understudied fm RF.WNG_LASER_CMD 15 (setBits (0x0700000000000000 : Word) 63 60 2)) ∧ (bitsOf (0x0700000000000000 : Word) 59 56 = 7)
        ∧ (understudied.d.fld F.WNG_LASER_CMD_BUSY 15 = 0) ∧ (understudied.d.groupLaser 15 7 = some 7) ∧ (understudied.d.laserState 15 7 = 2)
        ∧ (understudied.d.freeUnder 15 7 = some 8)
    ∧ (15 < (aLaser 15 7 2 bst).d.nWings) ∧ (7 < 8) ∧ (1 = 1 ∧ (Instr.laserSwap fm 15 0x0700000000000000) = Instr.laserSwap fm 15 (0x0700000000000000 :
          Word) ∨ 1 = 2 ∧ (Instr.laserSwap fm 15 0x0700000000000000) = Instr.swapFade fm 15 (0x0700000000000000 : Word))
        ∧ (Reaches (aLaser 15 7 2 bst) fm RF.WNG_LASER_CMD 15 (setBits (0x0700000000000000 : Word) 63 60 1)) ∧ (bitsOf (0x0700000000000000 : Word) 59
          56 = 7) ∧ ((aLaser 15 7 2 bst).d.fld F.WNG_LASER_CMD_BUSY 15 = 0) ∧ ((aLaser 15 7 2 bst).d.groupLaser 15 7 = some 7)
        ∧ ((aLaser 15 7 2 bst).d.laserState 15 7 = 2) ∧ ((aLaser 15 7 2 bst).d.freeUnder 15 7 = none)
    ∧ (15 < (onDv (fun d => d.setFld F.WNG_LASER_CMD_BUSY 15 1) understudied).d.nWings) ∧ (7 < 8) ∧ (1 = 1 ∧ (Instr.laserSwap fm 15
          0x0700000000000000) = Instr.laserSwap fm 15 (0x0700000000000000 : Word) ∨ 1 = 2 ∧ (Instr.laserSwap fm 15 0x0700000000000000) =
          Instr.swapFade fm 15 (0x0700000000000000 : Word)) ∧ (Reaches (onDv (fun d => d.setFld F.WNG_LASER_CMD_BUSY 15 1) understudied) fm
          RF.WNG_LASER_CMD 15 (setBits (0x0700000000000000 : Word) 63 60 1)) ∧ (bitsOf (0x0700000000000000 : Word) 59 56 = 7)
        ∧ ((onDv (fun d => d.setFld F.WNG_LASER_CMD_BUSY 15 1) understudied).d.fld F.WNG_LASER_CMD_BUSY 15 = 1
        ∨ (onDv (fun d => d.setFld F.WNG_LASER_CMD_BUSY 15 1) understudied).d.groupLaser 15 7 = none ∨ ∃ old, (onDv (fun d => d.setFld
          F.WNG_LASER_CMD_BUSY 15 1) understudied).d.groupLaser 15 7 = some old ∧ (onDv (fun d => d.setFld F.WNG_LASER_CMD_BUSY 15 1)
          understudied).d.laserState 15 old ≠ 2)
    ∧ (15 < (onDv (fun d => d.setFld F.WNG_LASER_CMD_BUSY 15 1) understudied).d.nWings) ∧ (7 < 8) ∧ (2 = 1 ∧ (Instr.swapFade fm 15 0x0700000000000000)
          = Instr.laserSwap fm 15 (0x0700000000000000 : Word) ∨ 2 = 2 ∧ (Instr.swapFade fm 15 0x0700000000000000) = Instr.swapFade fm 15
          (0x0700000000000000 : Word)) ∧ (Reaches (onDv (fun d => d.setFld F.WNG_LASER_CMD_BUSY 15 1) understudied) fm RF.WNG_LASER_CMD 15 (setBits
          (0x0700000000000000 : Word) 63 60 2)) ∧ (bitsOf (0x0700000000000000 : Word) 59 56 = 7) ∧ ((onDv (fun d => d.setFld F.WNG_LASER_CMD_BUSY 15
          1) understudied).d.fld F.WNG_LASER_CMD_BUSY 15 = 1 ∨ (onDv (fun d => d.setFld F.WNG_LASER_CMD_BUSY 15 1) understudied).d.groupLaser 15 7 =
          none ∨ ∃ old, (onDv (fun d => d.setFld F.WNG_LASER_CMD_BUSY 15 1) understudied).d.groupLaser 15 7 = some old
        ∧ (onDv (fun d => d.setFld F.WNG_LASER_CMD_BUSY 15 1) understudied).d.laserState 15 old ≠ 2)
    ∧ (15 < bst.d.nWings) ∧ (7 < 8) ∧ (1 = 1 ∧ (Instr.laserSwap fm 15 0x0700000000000000) = Instr.laserSwap fm 15 (0x0700000000000000 : Word)
        ∨ 1 = 2 ∧ (Instr.laserSwap fm 15 0x0700000000000000) = Instr.swapFade fm 15 (0x0700000000000000 : Word))
        ∧ (Reaches bst fm RF.WNG_LASER_CMD 15 (setBits (0x0700000000000000 : Word) 63 60 1)) ∧ (bitsOf (0x0700000000000000 : Word) 59 56 = 7)
        ∧ (bst.d.fld F.WNG_LASER_CMD_BUSY 15 = 1 ∨ bst.d.groupLaser 15 7 = none ∨ ∃ old, bst.d.groupLaser 15 7 = some old
        ∧ bst.d.laserState 15 old ≠ 2) := by
  repeat' first
    | decide +kernel
    | apply And.intro
    | exact Or.inr (Or.inl (by decide +kernel))
    | apply Reaches.mk

/-- Cases of clauses of LaserSwaps. -/
theorem witness_LaserSwaps_2 :
    (15 < (aLaser 15 7 1 bst).d.nWings) ∧ (7 < 8) ∧ (1 = 1 ∧ (Instr.laserSwap fm 15 0x0700000000000000) = Instr.laserSwap fm 15 (0x0700000000000000 :
          Word) ∨ 1 = 2 ∧ (Instr.laserSwap fm 15 0x0700000000000000) = Instr.swapFade fm 15 (0x0700000000000000 : Word))
        ∧ (Reaches (aLaser 15 7 1 bst) fm RF.WNG_LASER_CMD 15 (setBits (0x0700000000000000 : Word) 63 60 1)) ∧ (bitsOf (0x0700000000000000 : Word) 59
          56 = 7) ∧ ((aLaser 15 7 1 bst).d.fld F.WNG_LASER_CMD_BUSY 15 = 1 ∨ (aLaser 15 7 1 bst).d.groupLaser 15 7 = none
        ∨ ∃ old, (aLaser 15 7 1 bst).d.groupLaser 15 7 = some old ∧ (aLaser 15 7 1 bst).d.laserState 15 old ≠ 2)
    ∧ (15 < (swapping (swap 0 false)).d.nWings) ∧ (7 < 8) ∧ (SwapRuns (swapping (swap 0 false)) 15 7 (swap 0 false))
        ∧ ((swap 0 false).row = 0) ∧ ((swap 0 false).fade = false) ∧ (∀ l ∈ groupLanes 15 7, (swapping (swap 0 false)).d.egressEmpty l = true)
    ∧ (15 < (queued (swap 0 false)).d.nWings) ∧ (7 < 8) ∧ (SwapRuns (queued (swap 0 false)) 15 7 (swap 0 false))
        ∧ ((swap 0 false).row = 0) ∧ ((swap 0 false).fade = false) ∧ (∃ l ∈ groupLanes 15 7, (queued (swap 0 false)).d.egressEmpty l = false)
    ∧ (15 < (swapping (swap 0 true)).d.nWings) ∧ (7 < 8) ∧ (SwapRuns (swapping (swap 0 true)) 15 7 (swap 0 true))
        ∧ ((swap 0 true).row < 3) ∧ ((swap 0 true).fade = true)
    ∧ (15 < (swapping (swap 2 true)).d.nWings) ∧ (7 < 8) ∧ (SwapRuns (swapping (swap 2 true)) 15 7 (swap 2 true))
        ∧ ((swap 2 true).row < 3) ∧ ((swap 2 true).fade = true)
    ∧ (15 < (swapping (swap 1 false)).d.nWings) ∧ (7 < 8) ∧ (SwapRuns (swapping (swap 1 false)) 15 7 (swap 1 false))
        ∧ ((swap 1 false).row < 3) ∧ ((swap 1 false).fade = false) ∧ ((swap 1 false).row = 1)
    ∧ (15 < (swapping (swap 0 true)).d.nWings) ∧ (7 < 8) ∧ (SwapRuns (swapping (swap 0 true)) 15 7 (swap 0 true))
        ∧ ((swap 0 true).row < 3) ∧ ((swap 0 true).fade = true ∨ (swap 0 true).row = 1)
    ∧ (15 < (swapping (swap 1 false)).d.nWings) ∧ (7 < 8) ∧ (SwapRuns (swapping (swap 1 false)) 15 7 (swap 1 false))
        ∧ ((swap 1 false).row < 3) ∧ ((swap 1 false).fade = true ∨ (swap 1 false).row = 1) := by
  repeat' first
    | decide +kernel
    | apply And.intro
    | exact Or.inr (Or.inl (by decide +kernel))
    | apply Reaches.mk
    | apply SwapRuns.mk

/-- Cases of clauses of LaserSwaps. -/
theorem witness_LaserSwaps_3 :
    (15 < (swapping (swap 0 false)).d.nWings) ∧ (7 < 8) ∧ (SwapRuns (swapping (swap 0 false)) 15 7 (swap 0 false))
        ∧ ((swap 0 false).row < 3) ∧ ((swap 0 false).fade = false) ∧ ((swap 0 false).row = 0)
    ∧ (15 < (swapping (swap 3 false)).d.nWings) ∧ (7 < 8) ∧ (SwapRuns (swapping (swap 3 false)) 15 7 (swap 3 false))
        ∧ ((swap 3 false).row = 3) ∧ ((swap 3 false).fade = false) ∧ ((∃ l ∈ (swap 3 false).lanes, Retrained (swapping (swap 3 false)) l
        ∧ 2 ≤ (swapping (swap 3 false)).d.lstate l ∧ (swapping (swap 3 false)).d.lstate l ≠ 6) ∨ ∀ l ∈ (swap 3 false).lanes, ¬Retrained (swapping
          (swap 3 false)) l)
    ∧ (15 < (laneTrained 3 (swap 3 false)).d.nWings) ∧ (7 < 8) ∧ (SwapRuns (laneTrained 3 (swap 3 false)) 15 7 (swap 3 false))
        ∧ ((swap 3 false).row = 3) ∧ ((swap 3 false).fade = false) ∧ ((∃ l ∈ (swap 3 false).lanes, Retrained (laneTrained 3 (swap 3 false)) l
        ∧ 2 ≤ (laneTrained 3 (swap 3 false)).d.lstate l ∧ (laneTrained 3 (swap 3 false)).d.lstate l ≠ 6) ∨ ∀ l ∈ (swap 3 false).lanes, ¬Retrained
          (laneTrained 3 (swap 3 false)) l)
    ∧ (15 < (laneTrained 2 (swap 3 false)).d.nWings) ∧ (7 < 8) ∧ (SwapRuns (laneTrained 2 (swap 3 false)) 15 7 (swap 3 false))
        ∧ ((swap 3 false).row = 3) ∧ ((swap 3 false).fade = false) ∧ ((∃ l ∈ (swap 3 false).lanes, Retrained (laneTrained 2 (swap 3 false)) l
        ∧ 2 ≤ (laneTrained 2 (swap 3 false)).d.lstate l ∧ (laneTrained 2 (swap 3 false)).d.lstate l ≠ 6) ∨ ∀ l ∈ (swap 3 false).lanes, ¬Retrained
          (laneTrained 2 (swap 3 false)) l)
    ∧ (15 < (laneTrained 1 (swap 3 false)).d.nWings) ∧ (7 < 8) ∧ (SwapRuns (laneTrained 1 (swap 3 false)) 15 7 (swap 3 false))
        ∧ ((swap 3 false).row = 3) ∧ ((swap 3 false).fade = false) ∧ (∃ l ∈ (swap 3 false).lanes, Retrained (laneTrained 1 (swap 3 false)) l)
        ∧ (∀ l ∈ (swap 3 false).lanes, Retrained (laneTrained 1 (swap 3 false)) l → (laneTrained 1 (swap 3 false)).d.lstate l ≤ 1
        ∨ (laneTrained 1 (swap 3 false)).d.lstate l = 6)
    ∧ (15 < (laneTrained 6 (swap 3 false)).d.nWings) ∧ (7 < 8) ∧ (SwapRuns (laneTrained 6 (swap 3 false)) 15 7 (swap 3 false))
        ∧ ((swap 3 false).row = 3) ∧ ((swap 3 false).fade = false) ∧ (∃ l ∈ (swap 3 false).lanes, Retrained (laneTrained 6 (swap 3 false)) l)
        ∧ (∀ l ∈ (swap 3 false).lanes, Retrained (laneTrained 6 (swap 3 false)) l → (laneTrained 6 (swap 3 false)).d.lstate l ≤ 1
        ∨ (laneTrained 6 (swap 3 false)).d.lstate l = 6)
    ∧ (15 < (swapping (swap 3 true)).d.nWings) ∧ (7 < 8) ∧ (SwapRuns (swapping (swap 3 true)) 15 7 (swap 3 true))
        ∧ ((swap 3 true).row = 3) ∧ ((swap 3 true).fade = true)
    ∧ (15 < (aLaser 15 7 2 bst).d.nWings) ∧ (7 < 8) ∧ (7 < 10) ∧ ((aLaser 15 7 2 bst).d.laserState 15 7 = 2) ∧ ((aLaser 15 7 2 bst).d.fld
          F.WNG_LASER_GROUP (11 * 15 + 7) = 7) := by
  repeat' first
    | decide +kernel
    | apply And.intro
    | (unfold Retrained; decide +kernel)
    | exact Or.inr (Or.inl (by decide +kernel))
    | apply SwapRuns.mk

/-- Cases of clauses of LaserSwaps. -/
theorem witness_LaserSwaps_4 :
    (15 < (aLaser 15 7 4 (swapping (swap 0 true))).d.nWings) ∧ (7 < 8) ∧ (SwapRuns (aLaser 15 7 4 (swapping (swap 0 true))) 15 7 (swap 0 true))
        ∧ ((aLaser 15 7 4 (swapping (swap 0 true))).d.laserState 15 (swap 0 true).old = 4) ∧ ((aLaser 15 7 4 (swapping (swap 0 true))).d.fld
          F.WNG_LASER_GROUP (11 * 15 + (swap 0 true).old) = 7) ∧ ((swap 0 true).old < 10)
    ∧ (15 < (aLaser 15 10 2 bst).d.nWings) ∧ (7 < 8) ∧ ((aLaser 15 10 2 bst).d.laserState 15 10 = 2) := by
  repeat' first
    | decide +kernel
    | apply And.intro
    | exact Or.inr (Or.inl (by decide +kernel))
    | apply SwapRuns.mk

/-- The governor has parked lane 1020, whose egress drains; the lanes of group 7 are parked. -/
def parking : State := onDv (fun d => { d.setFld F.WNG_LANE_STAT_OSTATE (wngLane 1020) 3 with pwr := { d.pwr with parked := [1020] } }) bst
def idling : State := onDv (fun d => d.setFld F.WNG_LANE_STAT_OSTATE (wngLane 1020) 2) (aLaser 15 7 2 bst)

/-- Cases of clauses of WingLanesAndHeaters. -/
theorem witness_WingLanesAndHeaters_1 :
    (15 < parking.d.nWings) ∧ (1020 < parking.d.nLanes) ∧ (1020 ∈ parking.d.pwr.parked) ∧ (parking.d.ostate 1020 = 3)
        ∧ (parking.d.egressEmpty 1020 = true) ∧ ((parking.d.lane 1020).hbDue = false)
    ∧ (15 < idling.d.nWings) ∧ (7 < 10) ∧ (idling.d.fld F.WNG_LASER_GROUP (11 * 15 + 7) = 7) ∧ (idling.d.laserState 15 7 = 2)
        ∧ (∃ l ∈ groupLanes 15 7, idling.d.ostate l = 2) ∧ (∀ l ∈ groupLanes 15 7, idling.d.ostate l ≠ 1 ∧ idling.d.ostate l ≠ 3)
    ∧ (15 < (aLaser 15 7 1 bst).d.nWings) ∧ (7 < 10) ∧ ((aLaser 15 7 1 bst).d.fld F.WNG_LASER_GROUP (11 * 15 + 7) = 7)
        ∧ ((aLaser 15 7 1 bst).d.laserState 15 7 = 1) ∧ (7 < 8)
    ∧ (15 < bst.d.nWings) ∧ (bst.d.site (15 + 1) = 1) ∧ (63 < 64)
    ∧ (0 < bst.d.nWings) ∧ (bst.d.site (0 + 1) = 1) ∧ (0 = 0 ∨ 0 = bst.d.nWings / 2)
    ∧ (8 < bst.d.nWings) ∧ (bst.d.site (8 + 1) = 1) ∧ (8 = 0 ∨ 8 = bst.d.nWings / 2)
    ∧ (15 < bst.d.nWings) ∧ (bst.d.site (15 + 1) = 1) ∧ (15 ≠ 0) ∧ (15 ≠ bst.d.nWings / 2)
    ∧ (7 < bst.d.nWings) ∧ (bst.d.site (7 + 1) = 1) ∧ (7 ≠ 0) ∧ (7 ≠ bst.d.nWings / 2) := by
  repeat' first
    | decide +kernel

/-- Cases of clauses of WingLanesAndHeaters. -/
theorem witness_WingLanesAndHeaters_2 :
    (15 < bst.d.nWings) ∧ (bst.d.site (15 + 1) = 1) ∧ ((bst.d.wing 15).ffLost = false)
    ∧ (15 < (onDv (fun d => d.setWing 15 { ffLost := true }) bst).d.nWings) ∧ ((onDv (fun d => d.setWing 15 { ffLost := true }) bst).d.site (15 + 1) =
          1) ∧ (((onDv (fun d => d.setWing 15 { ffLost := true }) bst).d.wing 15).ffLost = true)
    ∧ (15 < bst.d.nWings) ∧ (bst.d.site (15 + 1) = 1) ∧ (127 < 128)
    ∧ (15 < bst.d.nWings) ∧ (bst.d.site (15 + 1) = 1) ∧ (0 < 128)
    ∧ (15 < (onDv (fun d => d.setWing 15 { clamped := [127] }) bst).d.nWings) ∧ (127 < 128) ∧ (127 ∈ ((onDv (fun d => d.setWing 15 { clamped := [127] })
          bst).d.wing 15).clamped)
    ∧ (15 < bst.d.nWings) ∧ (Reaches bst fm RF.WNG_CTL 15 (setBits (0 : Word) 60 60 1))
    ∧ (15 < (onDv (fun d => d.setFld F.WNG_CTL_XT_COMMIT 15 1) bst).d.nWings) ∧ ((onDv (fun d => d.setFld F.WNG_CTL_XT_COMMIT 15 1) bst).d.fld
          F.WNG_CTL_XT_COMMIT 15 = 1) := by
  repeat' first
    | decide +kernel
    | apply And.intro
    | exact Or.inl (by decide +kernel)
    | exact Or.inr (by decide +kernel)
    | apply Reaches.mk

/-- Lanes 48, 56 and 63 of Wing 15 are of trapdoor type; a map written, its STATE, and the map in use (outputs 0 to 7). -/
def traps (map st inUse : Nat) : State := onDv (fun d =>
  let d := [48, 63, 49].foldl (fun d l => d.setFld F.PRT_LINK_CTL_TYPE (64 * 15 + l) 3) d
  ((d.wr .WNG_TRAP_MAP 30 (BitVec.ofNat 64 map)).setFld F.WNG_TRAP_CTL_STATE 15 st).setWing 15 { trap := BitVec.ofNat 128 (inUse * 2 ^ 64) }) bst
/-- Output 0 takes its light from input 15, which receives so much. -/
def inputAt (dark : List Nat) (power : Nat) : State := onDv (fun d =>
  (d.setFld F.WNG_LANE_STAT_RX_POWER (65 * 15 + 63) power).setWing 15 { trap := BitVec.ofNat 128 (0x8F * 2 ^ 120), dark := dark }) bst

theorem circuit_mem {m : BitVec 128} {j i : Nat} (h : Circuit m j i) : (j, i) ∈ trapCircuits m := by
  have e : trapSrc m j = some i := by unfold trapSrc trapByte; rw [if_pos h.2.1, h.2.2]
  exact List.mem_filterMap.mpr ⟨j, List.mem_range.mpr h.1, by rw [e]; rfl⟩
theorem circuits_all {m : BitVec 128} {l : List (Nat × Nat)} {Q : Nat → Nat → Prop} (e : trapCircuits m = l) (h : ∀ x ∈ l, Q x.1 x.2) :
    ∀ j i, Circuit m j i → Q j i := fun j i c => h (j, i) (e ▸ circuit_mem c)
theorem circuits_apart {m : BitVec 128} {l : List (Nat × Nat)} (e : trapCircuits m = l) (h : ∀ x ∈ l, ∀ y ∈ l, x.2 = y.2 → x.1 = y.1) :
    ∀ j j' i, Circuit m j i → Circuit m j' i → j = j' := fun j j' i a b => h (j, i) (e ▸ circuit_mem a) (j', i) (e ▸ circuit_mem b) rfl
theorem sole {m : BitVec 128} {j i : Nat} (h : ∀ x ∈ trapCircuits m, x.2 = i → x.1 = j) : ∀ j', Circuit m j' i → j' = j :=
  fun j' c => h (j', i) (circuit_mem c) rfl

/-- Cases of clauses of Trapdoors. -/
theorem witness_Trapdoors_1 :
    (15 < (traps 0x8F80000000000000 0 0).d.nWings) ∧ (Reaches (traps 0x8F80000000000000 0 0) fm RF.WNG_TRAP_CTL 15 (0x8000000000000000 : Word))
        ∧ ((traps 0x8F80000000000000 0 0).d.fld F.WNG_TRAP_CTL_STATE 15 = 0) ∧ (bitsOf (0x8000000000000000 : Word) 63 63 = 1)
        ∧ (∀ (j i : ℕ), Circuit ((traps 0x8F80000000000000 0 0).d.trapMap 15) j i → IsTrap (traps 0x8F80000000000000 0 0) 15 j
        ∧ IsTrap (traps 0x8F80000000000000 0 0) 15 i) ∧ (∀ (j j' i : ℕ), Circuit ((traps 0x8F80000000000000 0 0).d.trapMap 15) j i
        → Circuit ((traps 0x8F80000000000000 0 0).d.trapMap 15) j' i → j = j')
    ∧ (15 < (traps 0x8F8E000000000000 0 0).d.nWings) ∧ (Reaches (traps 0x8F8E000000000000 0 0) fm RF.WNG_TRAP_CTL 15 (0x8000000000000000 : Word))
        ∧ ((traps 0x8F8E000000000000 0 0).d.fld F.WNG_TRAP_CTL_STATE 15 = 0) ∧ (bitsOf (0x8000000000000000 : Word) 63 63 = 1)
        ∧ (∃ j i, Circuit ((traps 0x8F8E000000000000 0 0).d.trapMap 15) j i ∧ ¬(IsTrap (traps 0x8F8E000000000000 0 0) 15 j
        ∧ IsTrap (traps 0x8F8E000000000000 0 0) 15 i))
    ∧ (15 < (traps 0x8F8F000000000000 0 0).d.nWings) ∧ (Reaches (traps 0x8F8F000000000000 0 0) fm RF.WNG_TRAP_CTL 15 (0x8000000000000000 : Word))
        ∧ ((traps 0x8F8F000000000000 0 0).d.fld F.WNG_TRAP_CTL_STATE 15 = 0) ∧ (bitsOf (0x8000000000000000 : Word) 63 63 = 1)
        ∧ (∀ (j i : ℕ), Circuit ((traps 0x8F8F000000000000 0 0).d.trapMap 15) j i → IsTrap (traps 0x8F8F000000000000 0 0) 15 j
        ∧ IsTrap (traps 0x8F8F000000000000 0 0) 15 i) ∧ (∃ j j' i, Circuit ((traps 0x8F8F000000000000 0 0).d.trapMap 15) j i
        ∧ Circuit ((traps 0x8F8F000000000000 0 0).d.trapMap 15) j' i ∧ j ≠ j')
    ∧ (15 < (traps 0x8F80000000000000 2 0).d.nWings) ∧ (Reaches (traps 0x8F80000000000000 2 0) fm RF.WNG_TRAP_CTL 15 (0x8000000000000000 : Word))
        ∧ ((traps 0x8F80000000000000 2 0).d.fld F.WNG_TRAP_CTL_STATE 15 ≠ 0 ∨ bitsOf (0x8000000000000000 : Word) 63 63 = 0)
    ∧ (15 < (traps 0x8F80000000000000 0 0).d.nWings) ∧ (Reaches (traps 0x8F80000000000000 0 0) fm RF.WNG_TRAP_CTL 15 (0 : Word))
        ∧ ((traps 0x8F80000000000000 0 0).d.fld F.WNG_TRAP_CTL_STATE 15 ≠ 0 ∨ bitsOf (0 : Word) 63 63 = 0)
    ∧ (15 < (traps 0x8F80000000000000 2 0).d.nWings) ∧ ((traps 0x8F80000000000000 2 0).d.fld F.WNG_TRAP_CTL_STATE 15 = 2)
    ∧ (15 < (inputAt [15] 100).d.nWings) ∧ (Circuit ((inputAt [15] 100).d.wing 15).trap 0 15) ∧ (∀ (j' : ℕ), Circuit ((inputAt [15] 100).d.wing
          15).trap j' 15 → j' = 0) ∧ (15 ∈ ((inputAt [15] 100).d.wing 15).dark ∨ ¬NoLight (inputAt [15] 100) 15 0 15)
    ∧ (15 < (inputAt [] 100).d.nWings) ∧ (Circuit ((inputAt [] 100).d.wing 15).trap 0 15) ∧ (∀ (j' : ℕ), Circuit ((inputAt [] 100).d.wing 15).trap j'
          15 → j' = 0) ∧ (15 ∈ ((inputAt [] 100).d.wing 15).dark ∨ ¬NoLight (inputAt [] 100) 15 0 15) := by
  repeat' first
    | decide +kernel
    | apply And.intro
    | exact circuits_all rfl (by unfold IsTrap; decide +kernel)
    | exact circuits_apart rfl (by decide +kernel)
    | exact ⟨1, 14, by unfold Circuit IsTrap; decide +kernel⟩
    | exact ⟨0, 1, 15, by unfold Circuit; decide +kernel⟩
    | exact sole (by decide +kernel)
    | exact Or.inr (by unfold NoLight InputDark; decide +kernel)
    | apply Reaches.mk

/-- Cases of clauses of Trapdoors. -/
theorem witness_Trapdoors_2 :
    (15 < (inputAt [] 0xA24).d.nWings) ∧ (Circuit ((inputAt [] 0xA24).d.wing 15).trap 0 15) ∧ (∀ (j' : ℕ), Circuit ((inputAt [] 0xA24).d.wing 15).trap
          j' 15 → j' = 0) ∧ (15 ∈ ((inputAt [] 0xA24).d.wing 15).dark ∨ ¬NoLight (inputAt [] 0xA24) 15 0 15)
    ∧ (15 < (inputAt [] 100).d.nWings) ∧ (Circuit ((inputAt [] 100).d.wing 15).trap 0 15) ∧ (∀ (j' : ℕ), Circuit ((inputAt [] 100).d.wing 15).trap j'
          15 → j' = 0) ∧ (15 ∉ ((inputAt [] 100).d.wing 15).dark ∨ NoLight (inputAt [] 100) 15 0 15 ∨ ¬InputLit (inputAt [] 100) 15 15)
    ∧ (15 < (inputAt [15] 0x800).d.nWings) ∧ (Circuit ((inputAt [15] 0x800).d.wing 15).trap 0 15) ∧ (∀ (j' : ℕ), Circuit ((inputAt [15] 0x800).d.wing
          15).trap j' 15 → j' = 0) ∧ (15 ∉ ((inputAt [15] 0x800).d.wing 15).dark ∨ NoLight (inputAt [15] 0x800) 15 0 15
        ∨ ¬InputLit (inputAt [15] 0x800) 15 15)
    ∧ (15 < (inputAt [15] 0xA24).d.nWings) ∧ (Circuit ((inputAt [15] 0xA24).d.wing 15).trap 0 15) ∧ (∀ (j' : ℕ), Circuit ((inputAt [15] 0xA24).d.wing
          15).trap j' 15 → j' = 0) ∧ (15 ∉ ((inputAt [15] 0xA24).d.wing 15).dark ∨ NoLight (inputAt [15] 0xA24) 15 0 15
        ∨ ¬InputLit (inputAt [15] 0xA24) 15 15)
    ∧ (15 < (inputAt [] 0x800).d.nWings) ∧ (Circuit ((inputAt [] 0x800).d.wing 15).trap 0 15) ∧ (∀ (j' : ℕ), Circuit ((inputAt [] 0x800).d.wing
          15).trap j' 15 → j' = 0) ∧ (15 ∉ ((inputAt [] 0x800).d.wing 15).dark) ∧ (NoLight (inputAt [] 0x800) 15 0 15)
    ∧ (15 < (inputAt [] 0xA23).d.nWings) ∧ (Circuit ((inputAt [] 0xA23).d.wing 15).trap 0 15) ∧ (∀ (j' : ℕ), Circuit ((inputAt [] 0xA23).d.wing
          15).trap j' 15 → j' = 0) ∧ (15 ∉ ((inputAt [] 0xA23).d.wing 15).dark) ∧ (NoLight (inputAt [] 0xA23) 15 0 15)
    ∧ (15 < (inputAt [15] 0xA25).d.nWings) ∧ (Circuit ((inputAt [15] 0xA25).d.wing 15).trap 0 15) ∧ (∀ (j' : ℕ), Circuit ((inputAt [15] 0xA25).d.wing
          15).trap j' 15 → j' = 0) ∧ (15 ∈ ((inputAt [15] 0xA25).d.wing 15).dark) ∧ (¬NoLight (inputAt [15] 0xA25) 15 0 15)
        ∧ (InputLit (inputAt [15] 0xA25) 15 15) := by
  repeat' first
    | decide +kernel
    | apply And.intro
    | exact circuits_apart rfl (by decide +kernel)
    | exact sole (by decide +kernel)
    | exact Or.inr (by unfold NoLight InputDark; decide +kernel)
    | exact Or.inr (Or.inl (by unfold NoLight InputDark; decide +kernel))
    | exact Or.inr (Or.inr (by unfold InputLit; decide +kernel))
    | (unfold NoLight InputDark; decide +kernel)
    | exact Or.inl (by decide +kernel)

/-! ## Time, repairs, rehearsal -/

/-- A PTP Sync of version 2 in the POD and the PTP domain of the servo, which runs. -/
def ptpMsg : Pkt :=
  let p := sent 0 80 0 1 0x00300001 (bytesOf 1 0 ++ bytesOf 1 2)
  { p with rw := BitVec.ofNat 32 (Config.ptpDomain % 256) }
theorem ptpMsg_domain : bitsOf ptpMsg.rw 7 0 = Config.ptpDomain % 256 := by
  show ((BitVec.ofNat 32 (Config.ptpDomain % 256)).toNat >>> 0) % 2 ^ (7 - 0 + 1) = _
  rw [BitVec.toNat_ofNat, Nat.shiftRight_zero]
  omega
def servoed : State := onDv (fun d => (d.setFld F.TMU_CTL_SERVO 0 1).setFld F.TMU_CTL_DOMAIN 0 0) (holding [ptpMsg] bst)
theorem ptpMsg_pod : bitsOf ptpMsg.rw 15 8 = servoed.d.fld F.TMU_CTL_DOMAIN 0 := by
  rw [show servoed.d.fld F.TMU_CTL_DOMAIN 0 = 0 by decide +kernel]
  show ((BitVec.ofNat 32 (Config.ptpDomain % 256)).toNat >>> 8) % 2 ^ (15 - 8 + 1) = _
  rw [BitVec.toNat_ofNat, Nat.shiftRight_eq_div_pow]
  omega
theorem holding_pkts (ps : List Pkt) (s : State) : (holding ps s).d.net.pkts = ps := rfl
theorem servoed_pkts : servoed.d.net.pkts = [ptpMsg] := rfl

/-- Cases of clauses of TimeUnit. -/
theorem witness_TimeUnit_1 :
    (Reaches bst fm RF.TMU_RATE 0 (5 : Word))
    ∧ (Reaches bst fm RF.TMU_OFFSET 0 (5 : Word))
    ∧ (Reaches bst fm RF.TMU_CTL 0 (0x8000000000000000 : Word)) ∧ (bitsOf (0x8000000000000000 : Word) 61 54 = bst.d.fld F.TMU_CTL_DOMAIN 0)
    ∧ (Reaches bst fm RF.TMU_CTL 0 (0x8040000000000000 : Word)) ∧ (bitsOf (0x8040000000000000 : Word) 61 54 ≠ bst.d.fld F.TMU_CTL_DOMAIN 0)
        ∧ (¬OrdersLive bst)
    ∧ (Reaches (onDv (fun d => { d.setFld F.PRT_RO_CTL_STATE 1023 1 with net := { d.net with ports := [(1023, { order := some ⟨[], 0⟩ })] } }) bst) fm
          RF.TMU_CTL 0 (0x8040000000000000 : Word)) ∧ (bitsOf (0x8040000000000000 : Word) 61 54 ≠ (onDv (fun d => { d.setFld F.PRT_RO_CTL_STATE 1023 1 with net := { d.net with ports := [(1023, { order := some ⟨[], 0⟩ })] } })
          bst).d.fld F.TMU_CTL_DOMAIN 0) ∧ (OrdersLive (onDv (fun d => { d.setFld F.PRT_RO_CTL_STATE 1023 1 with net := { d.net with ports := [(1023, { order := some ⟨[], 0⟩ })] } })
          bst))
    ∧ (Reaches (onDv (fun d => { d.setFld F.PRT_RO_CTL_STATE 0 2 with net := { d.net with ports := [(0, { pendingOrder := some ⟨[], 0⟩ })] } }) bst)
          fm RF.TMU_CTL 0 (0x8040000000000000 : Word)) ∧ (bitsOf (0x8040000000000000 : Word) 61 54 ≠ (onDv (fun d => { d.setFld F.PRT_RO_CTL_STATE 0 2 with net := { d.net with ports := [(0, { pendingOrder := some ⟨[], 0⟩ })] } })
          bst).d.fld F.TMU_CTL_DOMAIN 0) ∧ (OrdersLive (onDv (fun d => { d.setFld F.PRT_RO_CTL_STATE 0 2 with net := { d.net with ports := [(0, { pendingOrder := some ⟨[], 0⟩ })] } })
          bst))
    ∧ (bst.d.regRefused fm RF.TMU_NOW 0 none = none)
    ∧ ((onDv (fun d => d.setFld F.TMU_CTL_HOLD 0 0) bst).d.fld F.TMU_CTL_HOLD 0 = 0) := by
  repeat' first
    | with_reducible exact holding_pkts _ _
    | with_reducible exact servoed_pkts
    | with_reducible exact ptpMsg_domain
    | with_reducible exact ptpMsg_pod
    | decide +kernel
    | apply And.intro
    | (unfold OrdersLive; decide +kernel)
    | apply Reaches.mk

/-- Cases of clauses of TimeUnit. -/
theorem witness_TimeUnit_2 :
    ((onDv (fun d => d.setFld F.TMU_CTL_HOLD 0 1) bst).d.fld F.TMU_CTL_HOLD 0 ≠ 0)
    ∧ (AtFn (holding [ptpMsg] bst) ptpMsg 0 0 80)
    ∧ (AtFn servoed ptpMsg 0 0 80) ∧ (ServoTakes servoed ptpMsg 0) := by
  repeat' first
    | with_reducible exact holding_pkts _ _
    | with_reducible exact servoed_pkts
    | with_reducible exact ptpMsg_domain
    | with_reducible exact ptpMsg_pod
    | decide +kernel
    | apply And.intro
    | apply AtFn.mk
    | apply ServoTakes.mk

/-- An injection of a KIND into production 9 at a TARGET, announced; its register, enabled with a COUNT of 1; an SRAM unit that drains. -/
def inject (kind target : Nat) : Inject := { phase := 1, word := BitVec.ofNat 64 (kind * 2 ^ 60 + 9 * 2 ^ 48 + target * 2 ^ 24) }
def injecting (kind target phase : Nat) (s : State) : State := onDv (fun d => { d with rhs := [(15, { inject kind target with phase := phase })] }) s
def register (kind target : Nat) (s : State) : State := onDv (fun d => (d.wr .GLB_RHS 15 (inject kind target).word).setFld F.GLB_RHS_EN 15 1) s
def withCast : State := st (withEnt boot 4 5 castEntry)
def macroOut (spare : Nat) : State := onDv (fun d => { d with wrdSpare := spare, net := { d.net with draining := [(255, 7)] } }) bst

/-- Cases of clauses of RepairsAndRehearsal. -/
theorem witness_RepairsAndRehearsal_1 :
    (17 = 0 ∨ 17 ≤ 17 ∧ 17 ≤ 20) ∧ (1023 < 1024) ∧ (bst.d.overlay.length < 1024) ∧ (bst.d.rowSpares.get 0 (17 * 2 ^ 20 + 3) < 2)
    ∧ (0 = 0 ∨ 17 ≤ 0 ∧ 0 ≤ 20) ∧ (0 < 1024) ∧ (bst.d.overlay.length < 1024) ∧ (bst.d.rowSpares.get 0 (0 * 2 ^ 20 + 3) < 2)
    ∧ (20 = 0 ∨ 17 ≤ 20 ∧ 20 ≤ 20) ∧ (1023 < 1024) ∧ (bst.d.overlay.length < 1024) ∧ (bst.d.rowSpares.get 0 (20 * 2 ^ 20 + 3) < 2)
    ∧ (17 = 0 ∨ 17 ≤ 17 ∧ 17 ≤ 20) ∧ (1023 < 1024) ∧ ((onDv (fun d => { d with rowSpares := [(17 * 2 ^ 20 + 3, 2)] }) bst).d.overlay.length < 1024)
        ∧ (2 ≤ (onDv (fun d => { d with rowSpares := [(17 * 2 ^ 20 + 3, 2)] }) bst).d.rowSpares.get 0 (17 * 2 ^ 20 + 3))
    ∧ (255 < 256) ∧ (bst.d.net.draining.find 255 = none)
    ∧ (0 < 256) ∧ (bst.d.net.draining.find 0 = none)
    ∧ (255 < 256) ∧ ((holding [packet 17 1 (.atFn 1)] bst).d.net.draining.find 255 = none) ∧ (Calm (holding [packet 17 1 (.atFn 1)] bst))
        ∧ ((holding [packet 17 1 (.atFn 1)] bst).d.net.pkts = [(packet 17 1 (.atFn 1))]) ∧ (∀ (l : ℕ), ¬(holding [packet 17 1 (.atFn 1)] bst).d.isOpen
          l (packet 17 1 (.atFn 1)).id = true)
    ∧ (255 < 256) ∧ ((macroOut 4).d.net.draining.find 255 = some 7) := by
  repeat' first
    | decide +kernel
    | apply And.intro
    | exact fun _ => Bool.false_ne_true

/-- Cases of clauses of RepairsAndRehearsal. -/
theorem witness_RepairsAndRehearsal_2 :
    (255 < 256) ∧ ((macroOut 0).d.net.draining.find 255 = some 7) ∧ ((macroOut 0).d.wrdSpare = 0)
    ∧ (255 < 256) ∧ ((macroOut 4).d.net.draining.find 255 = some 7) ∧ ((macroOut 4).d.wrdSpare ≠ 0) ∧ ((macroOut 4).d.overlay.length < 1024)
    ∧ (15 < 16) ∧ (Reaches bst fm RF.GLB_RHS 15 (0x8000000000000100 : Word))
    ∧ (15 < 16) ∧ ((register 0 64 bst).d.fld F.GLB_RHS_EN 15 = 1) ∧ (Injection ((register 0 64 bst).d.rd RF.GLB_RHS 15) 0 9 64)
        ∧ ((register 0 64 bst).d.rhsBusy 15 = false) ∧ ((register 0 64 bst).d.rhsCannot ((register 0 64 bst).d.rd RF.GLB_RHS 15) = false)
    ∧ (15 < 16) ∧ ((register 3 0x400005 (withCast)).d.fld F.GLB_RHS_EN 15 = 1) ∧ (Injection ((register 3 0x400005 (withCast)).d.rd RF.GLB_RHS 15) 3 9
          0x400005) ∧ ((register 3 0x400005 (withCast)).d.rhsBusy 15 = false) ∧ ((register 3 0x400005 (withCast)).d.rhsCannot ((register 3 0x400005
          (withCast)).d.rd RF.GLB_RHS 15) = false)
    ∧ (15 < 16) ∧ ((register 1 0 bst).d.fld F.GLB_RHS_EN 15 = 1) ∧ (Injection ((register 1 0 bst).d.rd RF.GLB_RHS 15) 1 9 0)
        ∧ ((register 1 0 bst).d.rhsBusy 15 = true ∨ (register 1 0 bst).d.rhsCannot ((register 1 0 bst).d.rd RF.GLB_RHS 15) = true
        ∨ 1 = 1 ∧ (0 % 32 = 0 ∨ (register 1 0 bst).d.site (0 % 32) = 0) ∨ 1 = 3 ∧ (register 1 0 bst).d.ent (0 / 2 ^ 20) (0 % 2 ^ 20) = none)
    ∧ (15 < 16) ∧ ((register 3 5 bst).d.fld F.GLB_RHS_EN 15 = 1) ∧ (Injection ((register 3 5 bst).d.rd RF.GLB_RHS 15) 3 9 5)
        ∧ ((register 3 5 bst).d.rhsBusy 15 = true ∨ (register 3 5 bst).d.rhsCannot ((register 3 5 bst).d.rd RF.GLB_RHS 15) = true
        ∨ 3 = 1 ∧ (5 % 32 = 0 ∨ (register 3 5 bst).d.site (5 % 32) = 0) ∨ 3 = 3 ∧ (register 3 5 bst).d.ent (5 / 2 ^ 20) (5 % 2 ^ 20) = none)
    ∧ (15 < 16) ∧ ((injecting 0 64 1 (register 0 64 bst)).d.fld F.GLB_RHS_EN 15 = 1) ∧ (Injection ((injecting 0 64 1 (register 0 64 bst)).d.rd
          RF.GLB_RHS 15) 0 9 64) ∧ ((injecting 0 64 1 (register 0 64 bst)).d.rhsBusy 15 = true ∨ (injecting 0 64 1 (register 0 64 bst)).d.rhsCannot
          ((injecting 0 64 1 (register 0 64 bst)).d.rd RF.GLB_RHS 15) = true ∨ 0 = 1 ∧ (64 % 32 = 0 ∨ (injecting 0 64 1 (register 0 64 bst)).d.site
          (64 % 32) = 0) ∨ 0 = 3 ∧ (injecting 0 64 1 (register 0 64 bst)).d.ent (64 / 2 ^ 20) (64 % 2 ^ 20) = none) := by
  repeat' first
    | decide +kernel
    | apply And.intro
    | exact fun _ => Bool.false_ne_true
    | exact Or.inl (by decide +kernel)
    | exact Or.inr (Or.inl (by decide +kernel))
    | exact Or.inr (Or.inr (Or.inl (by decide +kernel)))
    | apply Reaches.mk
    | apply Injection.mk

/-- Cases of clauses of RepairsAndRehearsal. -/
theorem witness_RepairsAndRehearsal_3 :
    (15 < 16) ∧ ((injecting 4 3 1 (bst)).d.rhs.find 15 = some (inject 4 3)) ∧ ((inject 4 3).phase = 1) ∧ ((injecting 4 3 1 (bst)).d.rhsCannot (inject
          4 3).word = true)
    ∧ (Announced (injecting 0 64 1 (bst)) 15 (inject 0 64) 0)
    ∧ (Announced (injecting 1 2 1 (bst)) 15 (inject 1 2) 1)
    ∧ (Announced (injecting 2 247 1 (understudied)) 15 (inject 2 247) 2) ∧ (15 = bitsOf (inject 2 247).word 47 24 / 16 % 16)
        ∧ (7 = bitsOf (inject 2 247).word 47 24 % 8) ∧ ((injecting 2 247 1 (understudied)).d.groupLaser 15 7 = some 7)
        ∧ ((injecting 2 247 1 (understudied)).d.laserState 15 7 = 2) ∧ ((injecting 2 247 1 (understudied)).d.freeUnder 15 7 = some 8)
    ∧ (Announced (injecting 3 4194309 1 (withCast)) 15 (inject 3 0x400005) 3)
    ∧ (Announced (injecting 4 3 1 (atCue {} 0)) 15 (inject 4 3) 4) ∧ (3 = bitsOf (inject 4 3).word 47 24 % 4)
        ∧ ((injecting 4 3 1 (atCue {} 0)).d.rhsEngine (inject 4 3).word = some 63)
    ∧ (15 < 16) ∧ ((injecting 0 64 2 (bst)).d.rhs.find 15 = some ({ inject 0 64 with phase := 2 })) ∧ (({ inject 0 64 with phase := 2 }).phase = 2)
        ∧ (bitsOf ({ inject 0 64 with phase := 2 }).word 62 60 = 0) := by
  repeat' first
    | decide +kernel
    | apply And.intro
    | exact fun _ => Bool.false_ne_true
    | exact Or.inl (by decide +kernel)
    | exact Or.inr (Or.inl (by decide +kernel))
    | exact Or.inr (Or.inr (Or.inl (by decide +kernel)))
    | apply Announced.mk

/-! ## Power -/

/-- The governor at 1,000 W: LOOM_RATE, STEP, STEP_MIN, its target, calm ms and parked lanes. -/
def governing (rate step least : Nat) (target : Option Nat) (calm : Nat) (parked : List Nat) (s : State) : State := onDv (fun d =>
  { (((d.setFld F.PWR_GOV_LOOM_RATE 0 rate).setFld F.PWR_GOV_STEP 0 step).setFld F.PWR_GOV_STEP_MIN 0 least).setFld F.PWR_STAT_POWER 0 1000 with
    pwr := { d.pwr with target := target, calm := calm, parked := parked } }) s
/-- Lanes 100 and 165 lead to one neighbour, and serve. -/
def twoWays : State := onDv (fun d => [100, 165].foldl (fun d l => (d.setFld F.PRT_PEER_CA l 7).modLane l (fun x => { x with peerServing := true })) d)
  (link 165 1 3 (link 100 1 3 bst))
def caps (inst minute : Nat) : State := onDv (fun d => (((d.setFld F.PWR_CAP_INST_EN 0 1).setFld F.PWR_CAP_INST_CAP 0 inst).setFld F.PWR_CAP_MIN_EN 0 1).setFld F.PWR_CAP_MIN_CAP 0 minute) bst
/-- Readings of the 21 sites 0 to 20, and of the stacks. -/
def readings (a b : Nat) : List Nat := List.replicate 21 a ++ List.replicate 4 b

theorem not_over {s : State} (h : (match s.d.pwr.target with | some v => decide (v < s.d.fld F.PWR_STAT_POWER 0) | none => false) = false) : ¬ OverTarget s := by
  rintro ⟨v, e, q⟩
  rw [e] at h
  exact of_decide_eq_false h q
theorem late {ts : List Nat} (h : ∀ t ∈ ts.drop 21, t < 100) : ∀ i t, 21 ≤ i → ts[i]? = some t → t < 100 := fun i t hi e =>
  h t (List.mem_of_getElem? (i := i - 21) (by rw [List.getElem?_drop, show 21 + (i - 21) = i by omega]; exact e))

/-- Cases of clauses of PowerAndThermal. -/
theorem witness_PowerAndThermal_1 :
    (65535 < 65536)
    ∧ (0 < 65536)
    ∧ (Calm (governing 5 5 5 (some 999) 0 [] (bst))) ∧ (OverTarget (governing 5 5 5 (some 999) 0 [] (bst))) ∧ (4 < (governing 5 5 5 (some 999) 0 []
          (bst)).d.fld F.PWR_GOV_LOOM_RATE 0)
    ∧ (Calm (governing 4 4 5 (some 999) 0 [] (bst))) ∧ (OverTarget (governing 4 4 5 (some 999) 0 [] (bst))) ∧ ((governing 4 4 5 (some 999) 0 []
          (bst)).d.fld F.PWR_GOV_LOOM_RATE 0 ≤ 4) ∧ ((governing 4 4 5 (some 999) 0 [] (bst)).d.fld F.PWR_GOV_STEP 0 < (governing 4 4 5 (some 999) 0 []
          (bst)).d.fld F.PWR_GOV_STEP_MIN 0)
    ∧ (Calm (governing 4 5 5 (some 999) 0 [] (twoWays))) ∧ (OverTarget (governing 4 5 5 (some 999) 0 [] (twoWays)))
        ∧ ((governing 4 5 5 (some 999) 0 [] (twoWays)).d.fld F.PWR_GOV_LOOM_RATE 0 ≤ 4) ∧ ((governing 4 5 5 (some 999) 0 [] (twoWays)).d.fld
          F.PWR_GOV_STEP_MIN 0 ≤ (governing 4 5 5 (some 999) 0 [] (twoWays)).d.fld F.PWR_GOV_STEP 0) ∧ ((governing 4 5 5 (some 999) 0 []
          (twoWays)).d.parkable.head? = some 165)
    ∧ (Calm (governing 4 5 5 (some 999) 0 [] (bst))) ∧ (OverTarget (governing 4 5 5 (some 999) 0 [] (bst))) ∧ ((governing 4 5 5 (some 999) 0 []
          (bst)).d.fld F.PWR_GOV_LOOM_RATE 0 ≤ 4) ∧ ((governing 4 5 5 (some 999) 0 [] (bst)).d.fld F.PWR_GOV_STEP_MIN 0 ≤ (governing 4 5 5 (some 999)
          0 [] (bst)).d.fld F.PWR_GOV_STEP 0) ∧ ((governing 4 5 5 (some 999) 0 [] (bst)).d.parkable = [])
    ∧ (Calm (governing 4 5 5 (some 1000) 9 [] (bst))) ∧ (¬OverTarget (governing 4 5 5 (some 1000) 9 [] (bst)))
        ∧ ((governing 4 5 5 (some 1000) 9 [] (bst)).d.pwr.calm < 10)
    ∧ (Calm (governing 4 5 5 (none) 9 [] (bst))) ∧ (¬OverTarget (governing 4 5 5 (none) 9 [] (bst))) ∧ ((governing 4 5 5 (none) 9 [] (bst)).d.pwr.calm
          < 10) := by
  repeat' first
    | decide +kernel
    | apply And.intro
    | (unfold OverTarget; decide +kernel)

/-- Cases of clauses of PowerAndThermal. -/
theorem witness_PowerAndThermal_2 :
    (Calm (governing 4 5 5 (some 1000) 10 [100, 165] (onDv (fun d => (d.setFld F.WNG_LANE_STAT_OSTATE (wngLane 165) 2).setFld F.PWR_GOV_PARKED 0 1)
          bst))) ∧ (¬OverTarget (governing 4 5 5 (some 1000) 10 [100, 165] (onDv (fun d => (d.setFld F.WNG_LANE_STAT_OSTATE (wngLane 165) 2).setFld
          F.PWR_GOV_PARKED 0 1) bst))) ∧ (10 ≤ (governing 4 5 5 (some 1000) 10 [100, 165] (onDv (fun d => (d.setFld F.WNG_LANE_STAT_OSTATE (wngLane
          165) 2).setFld F.PWR_GOV_PARKED 0 1) bst)).d.pwr.calm) ∧ ((governing 4 5 5 (some 1000) 10 [100, 165] (onDv (fun d => (d.setFld
          F.WNG_LANE_STAT_OSTATE (wngLane 165) 2).setFld F.PWR_GOV_PARKED 0 1) bst)).d.pwr.parked.getLast? = some 165)
        ∧ ((governing 4 5 5 (some 1000) 10 [100, 165] (onDv (fun d => (d.setFld F.WNG_LANE_STAT_OSTATE (wngLane 165) 2).setFld F.PWR_GOV_PARKED 0 1)
          bst)).d.ostate 165 = 2) ∧ (1 ≤ (governing 4 5 5 (some 1000) 10 [100, 165] (onDv (fun d => (d.setFld F.WNG_LANE_STAT_OSTATE (wngLane 165)
          2).setFld F.PWR_GOV_PARKED 0 1) bst)).d.fld F.PWR_GOV_PARKED 0)
    ∧ (Calm (governing 4 5 5 (some 1000) 10 [165] (onDv (fun d => d.setFld F.WNG_LANE_STAT_OSTATE (wngLane 165) 3) bst)))
        ∧ (¬OverTarget (governing 4 5 5 (some 1000) 10 [165] (onDv (fun d => d.setFld F.WNG_LANE_STAT_OSTATE (wngLane 165) 3) bst)))
        ∧ (10 ≤ (governing 4 5 5 (some 1000) 10 [165] (onDv (fun d => d.setFld F.WNG_LANE_STAT_OSTATE (wngLane 165) 3) bst)).d.pwr.calm)
        ∧ ((governing 4 5 5 (some 1000) 10 [165] (onDv (fun d => d.setFld F.WNG_LANE_STAT_OSTATE (wngLane 165) 3) bst)).d.pwr.parked.getLast? = some
          165) ∧ ((governing 4 5 5 (some 1000) 10 [165] (onDv (fun d => d.setFld F.WNG_LANE_STAT_OSTATE (wngLane 165) 3) bst)).d.ostate 165 = 3)
        ∧ ((governing 4 5 5 (some 1000) 10 [165] (onDv (fun d => d.setFld F.WNG_LANE_STAT_OSTATE (wngLane 165) 3) bst)).d.swapOf (165 / 64) (165 % 64
          / 8) = none)
    ∧ (Calm (governing 4 3 5 (some 1000) 10 [] (bst))) ∧ (¬OverTarget (governing 4 3 5 (some 1000) 10 [] (bst)))
        ∧ (10 ≤ (governing 4 3 5 (some 1000) 10 [] (bst)).d.pwr.calm) ∧ ((governing 4 3 5 (some 1000) 10 [] (bst)).d.pwr.parked = [])
        ∧ (leastStep (governing 4 3 5 (some 1000) 10 [] (bst)) < (governing 4 3 5 (some 1000) 10 [] (bst)).d.fld F.PWR_GOV_STEP 0)
    ∧ (Calm (governing 15 2 5 (some 1000) 10 [] (bst))) ∧ (¬OverTarget (governing 15 2 5 (some 1000) 10 [] (bst)))
        ∧ (10 ≤ (governing 15 2 5 (some 1000) 10 [] (bst)).d.pwr.calm) ∧ ((governing 15 2 5 (some 1000) 10 [] (bst)).d.pwr.parked = [])
        ∧ ((governing 15 2 5 (some 1000) 10 [] (bst)).d.fld F.PWR_GOV_STEP 0 ≤ leastStep (governing 15 2 5 (some 1000) 10 [] (bst)))
        ∧ ((governing 15 2 5 (some 1000) 10 [] (bst)).d.fld F.PWR_GOV_LOOM_RATE 0 < 16)
    ∧ (OverTarget (governing 4 5 5 (some 999) 0 [] (bst))) ∧ ((governing 4 5 5 (some 999) 0 [] (bst)).d.fld F.PWR_STAT_UNMET 0 = 0)
        ∧ ((governing 4 5 5 (some 999) 0 [] (bst)).d.fld F.PWR_GOV_LOOM_RATE 0 ≤ 4) ∧ ((governing 4 5 5 (some 999) 0 [] (bst)).d.fld
          F.PWR_GOV_STEP_MIN 0 ≤ (governing 4 5 5 (some 999) 0 [] (bst)).d.fld F.PWR_GOV_STEP 0) ∧ ((governing 4 5 5 (some 999) 0 [] (bst)).d.parkable
          = [])
    ∧ (¬OverTarget (governing 4 5 5 (some 1000) 0 [] (bst)) ∨ (governing 4 5 5 (some 1000) 0 [] (bst)).d.fld F.PWR_STAT_UNMET 0 = 1
        ∨ 4 < (governing 4 5 5 (some 1000) 0 [] (bst)).d.fld F.PWR_GOV_LOOM_RATE 0 ∨ (governing 4 5 5 (some 1000) 0 [] (bst)).d.fld F.PWR_GOV_STEP 0 <
          (governing 4 5 5 (some 1000) 0 [] (bst)).d.fld F.PWR_GOV_STEP_MIN 0 ∨ (governing 4 5 5 (some 1000) 0 [] (bst)).d.parkable ≠ [])
    ∧ (¬OverTarget (governing 5 5 5 (some 999) 0 [] (bst)) ∨ (governing 5 5 5 (some 999) 0 [] (bst)).d.fld F.PWR_STAT_UNMET 0 = 1
        ∨ 4 < (governing 5 5 5 (some 999) 0 [] (bst)).d.fld F.PWR_GOV_LOOM_RATE 0 ∨ (governing 5 5 5 (some 999) 0 [] (bst)).d.fld F.PWR_GOV_STEP 0 <
          (governing 5 5 5 (some 999) 0 [] (bst)).d.fld F.PWR_GOV_STEP_MIN 0 ∨ (governing 5 5 5 (some 999) 0 [] (bst)).d.parkable ≠ [])
    ∧ (¬OverTarget (governing 4 4 5 (some 999) 0 [] (bst)) ∨ (governing 4 4 5 (some 999) 0 [] (bst)).d.fld F.PWR_STAT_UNMET 0 = 1
        ∨ 4 < (governing 4 4 5 (some 999) 0 [] (bst)).d.fld F.PWR_GOV_LOOM_RATE 0 ∨ (governing 4 4 5 (some 999) 0 [] (bst)).d.fld F.PWR_GOV_STEP 0 <
          (governing 4 4 5 (some 999) 0 [] (bst)).d.fld F.PWR_GOV_STEP_MIN 0 ∨ (governing 4 4 5 (some 999) 0 [] (bst)).d.parkable ≠ []) := by
  repeat' first
    | decide +kernel
    | apply And.intro
    | (unfold OverTarget; decide +kernel)

/-- Cases of clauses of PowerAndThermal. -/
theorem witness_PowerAndThermal_3 :
    (¬OverTarget (governing 4 5 5 (some 999) 0 [] (twoWays)) ∨ (governing 4 5 5 (some 999) 0 [] (twoWays)).d.fld F.PWR_STAT_UNMET 0 = 1
        ∨ 4 < (governing 4 5 5 (some 999) 0 [] (twoWays)).d.fld F.PWR_GOV_LOOM_RATE 0 ∨ (governing 4 5 5 (some 999) 0 [] (twoWays)).d.fld
          F.PWR_GOV_STEP 0 < (governing 4 5 5 (some 999) 0 [] (twoWays)).d.fld F.PWR_GOV_STEP_MIN 0 ∨ (governing 4 5 5 (some 999) 0 []
          (twoWays)).d.parkable ≠ [])
    ∧ (¬OverTarget (onDv (fun d => d.setFld F.PWR_STAT_UNMET 0 1) bst) ∨ (onDv (fun d => d.setFld F.PWR_STAT_UNMET 0 1) bst).d.fld F.PWR_STAT_UNMET 0
          = 1 ∨ 4 < (onDv (fun d => d.setFld F.PWR_STAT_UNMET 0 1) bst).d.fld F.PWR_GOV_LOOM_RATE 0 ∨ (onDv (fun d => d.setFld F.PWR_STAT_UNMET 0 1)
          bst).d.fld F.PWR_GOV_STEP 0 < (onDv (fun d => d.setFld F.PWR_STAT_UNMET 0 1) bst).d.fld F.PWR_GOV_STEP_MIN 0
        ∨ (onDv (fun d => d.setFld F.PWR_STAT_UNMET 0 1) bst).d.parkable ≠ [])
    ∧ (Reaches (caps 1000 900) fm RF.PWR_CAP_MIN 0 (0x80000000000003E9 : Word)) ∧ (bitOf (0x80000000000003E9 : Word) 63 = true)
        ∧ ((caps 1000 900).d.fld F.PWR_CAP_INST_EN 0 = 1) ∧ ((caps 1000 900).d.fld F.PWR_CAP_INST_CAP 0 < bitsOf (0x80000000000003E9 : Word) 15 0)
    ∧ (Reaches (caps 1000 900) fm RF.PWR_CAP_MIN 0 (0x80000000000003E8 : Word)) ∧ (bitOf (0x80000000000003E8 : Word) 63 = false
        ∨ (caps 1000 900).d.fld F.PWR_CAP_INST_EN 0 = 0 ∨ bitsOf (0x80000000000003E8 : Word) 15 0 ≤ (caps 1000 900).d.fld F.PWR_CAP_INST_CAP 0)
    ∧ (Reaches bst fm RF.PWR_CAP_MIN 0 (800 : Word)) ∧ (bitOf (800 : Word) 63 = false ∨ bst.d.fld F.PWR_CAP_INST_EN 0 = 0
        ∨ bitsOf (800 : Word) 15 0 ≤ bst.d.fld F.PWR_CAP_INST_CAP 0)
    ∧ (Reaches (caps 1000 900) fm RF.PWR_CAP_MIN 0 (1001 : Word)) ∧ (bitOf (1001 : Word) 63 = false ∨ (caps 1000 900).d.fld F.PWR_CAP_INST_EN 0 = 0
        ∨ bitsOf (1001 : Word) 15 0 ≤ (caps 1000 900).d.fld F.PWR_CAP_INST_CAP 0)
    ∧ (Reaches (caps 1000 900) fm RF.PWR_CAP_INST 0 (0x8000000000000383 : Word)) ∧ (bitOf (0x8000000000000383 : Word) 63 = true)
        ∧ ((caps 1000 900).d.fld F.PWR_CAP_MIN_EN 0 = 1) ∧ (bitsOf (0x8000000000000383 : Word) 15 0 < (caps 1000 900).d.fld F.PWR_CAP_MIN_CAP 0)
    ∧ (Reaches (caps 1000 900) fm RF.PWR_CAP_INST 0 (0x8000000000000384 : Word)) ∧ (bitOf (0x8000000000000384 : Word) 63 = false
        ∨ (caps 1000 900).d.fld F.PWR_CAP_MIN_EN 0 = 0 ∨ (caps 1000 900).d.fld F.PWR_CAP_MIN_CAP 0 ≤ bitsOf (0x8000000000000384 : Word) 15 0) := by
  repeat' first
    | decide +kernel
    | apply And.intro
    | (unfold OverTarget; decide +kernel)
    | exact not_over (by decide +kernel)
    | exact Or.inl (not_over (by decide +kernel))
    | exact late (by decide +kernel)
    | exact fun n a b => (by decide +kernel : ∀ n < 25, 1 ≤ n → bst.d.site n ≠ 0) n b a
    | exact Or.inr (by decide +kernel)
    | apply Reaches.mk

/-- Cases of clauses of PowerAndThermal. -/
theorem witness_PowerAndThermal_4 :
    (Reaches bst fm RF.PWR_CAP_INST 0 (1700 : Word)) ∧ (bitOf (1700 : Word) 63 = false ∨ bst.d.fld F.PWR_CAP_MIN_EN 0 = 0
        ∨ bst.d.fld F.PWR_CAP_MIN_CAP 0 ≤ bitsOf (1700 : Word) 15 0)
    ∧ (Reaches (caps 1000 900) fm RF.PWR_CAP_INST 0 (899 : Word)) ∧ (bitOf (899 : Word) 63 = false ∨ (caps 1000 900).d.fld F.PWR_CAP_MIN_EN 0 = 0
        ∨ (caps 1000 900).d.fld F.PWR_CAP_MIN_CAP 0 ≤ bitsOf (899 : Word) 15 0)
    ∧ (Sampled bst (readings 50 50)) ∧ (Calm bst) ∧ (∀ t ∈ (readings 50 50), t < 115) ∧ (∀ (i t : ℕ), 21 ≤ i → (readings 50 50)[i]? = some t
        → t < 100)
    ∧ (Sampled bst (readings 114 99)) ∧ (Calm bst) ∧ (∀ t ∈ (readings 114 99), t < 115) ∧ (∀ (i t : ℕ), 21 ≤ i
        → (readings 114 99)[i]? = some t → t < 100)
    ∧ (Sampled bst (readings 114 100)) ∧ (Calm bst) ∧ (∀ t ∈ (readings 114 100), t < 115) ∧ (21 ≤ 21) ∧ ((readings 114 100)[21]? = some 100)
        ∧ (100 ≤ 100) ∧ (bst.d.site 21 = 1)
    ∧ (Sampled bst (readings 114 114)) ∧ (Calm bst) ∧ (∀ t ∈ (readings 114 114), t < 115) ∧ (21 ≤ 24) ∧ ((readings 114 114)[24]? = some 114)
        ∧ (100 ≤ 114) ∧ (bst.d.site 24 = 1)
    ∧ (Sampled bst (readings 115 50)) ∧ (∃ t ∈ (readings 115 50), 115 ≤ t)
    ∧ (Sampled bst (readings 255 255)) ∧ (∃ t ∈ (readings 255 255), 115 ≤ t) := by
  repeat' first
    | decide +kernel
    | apply And.intro
    | exact not_over (by decide +kernel)
    | exact Or.inl (not_over (by decide +kernel))
    | exact late (by decide +kernel)
    | exact fun n a b => (by decide +kernel : ∀ n < 25, 1 ≤ n → bst.d.site n ≠ 0) n b a
    | exact Or.inr (by decide +kernel)
    | apply Reaches.mk
    | apply Sampled.mk

/-- Cases of clauses of PowerAndThermal. -/
theorem witness_PowerAndThermal_5 :
    ((onDv (fun d => d.setFld F.PWR_THERM_STAGE_TJ 0 105) bst).d.pwr.thermal = none) ∧ (105 ≤ (onDv (fun d => d.setFld F.PWR_THERM_STAGE_TJ 0 105)
          bst).d.fld F.PWR_THERM_STAGE_TJ 0 ∨ 105 ≤ (onDv (fun d => d.setFld F.PWR_THERM_STAGE_TJ 0 105) bst).d.fld F.PWR_THERM_LOOM_TJ 0
        ∨ 105 ≤ (onDv (fun d => d.setFld F.PWR_THERM_STAGE_TJ 0 105) bst).d.fld F.PWR_THERM_WING_TJ 0)
    ∧ ((onDv (fun d => d.setFld F.PWR_THERM_LOOM_TJ 0 105) bst).d.pwr.thermal = none) ∧ (105 ≤ (onDv (fun d => d.setFld F.PWR_THERM_LOOM_TJ 0 105)
          bst).d.fld F.PWR_THERM_STAGE_TJ 0 ∨ 105 ≤ (onDv (fun d => d.setFld F.PWR_THERM_LOOM_TJ 0 105) bst).d.fld F.PWR_THERM_LOOM_TJ 0
        ∨ 105 ≤ (onDv (fun d => d.setFld F.PWR_THERM_LOOM_TJ 0 105) bst).d.fld F.PWR_THERM_WING_TJ 0)
    ∧ ((onDv (fun d => d.setFld F.PWR_THERM_WING_TJ 0 105) bst).d.pwr.thermal = none) ∧ (105 ≤ (onDv (fun d => d.setFld F.PWR_THERM_WING_TJ 0 105)
          bst).d.fld F.PWR_THERM_STAGE_TJ 0 ∨ 105 ≤ (onDv (fun d => d.setFld F.PWR_THERM_WING_TJ 0 105) bst).d.fld F.PWR_THERM_LOOM_TJ 0
        ∨ 105 ≤ (onDv (fun d => d.setFld F.PWR_THERM_WING_TJ 0 105) bst).d.fld F.PWR_THERM_WING_TJ 0) := by
  repeat' first
    | decide +kernel

/-! ## Security and counters -/

/-- The owner key of slot 2, whose SEC_DBG_RESP signs nonce, GLB_ID, level 1, slot 2 and 100 minutes; `off` spoils the signature. -/
def signerKey : Nat := 930500786044392291682250744321660290192256208349828894926684491709379293801231417882938476468734982631905277907937707788970038155105992568033331880849823992911888421782932980731367841518007860344978444208210655660598060664662532418
def signature : Nat := 15859557533843567672395204899211351765881069704777688402711198331158818646649465969189024675465461682918825362866774
/-- A key and a signature in SEC_DBG_RESP, the key's hash in an owner slot, and a nonce. -/
def respond (key sign slot nonce : Nat) (s : State) : State := onDv (fun d =>
  let d := (List.range 12).foldl (fun d i => d.wr .SEC_DBG_RESP i (BitVec.ofNat 64 (key / 2 ^ (704 - 64 * i)))) d
  let d := (List.range 12).foldl (fun d i => d.wr .SEC_DBG_RESP (12 + i) (BitVec.ofNat 64 (sign / 2 ^ (320 - 64 * (i % 6))))) d
  { d with sec := { d.sec with nonce := some (BitVec.ofNat 256 nonce) },
           fuse := { d.fuse with ownerValid := 2 ^ slot, owners := d.fuse.owners.set slot (sha384 (bytesOf 96 key)) } }) s
def owned (spoilt : Nat) : State := onDv (fun d => { d with fuse := { d.fuse with ownerValid := 4 } }) (respond signerKey (signature + spoilt) 2 4 bst)
/-- The owner of slot 0 revokes it, and slot 2 is valid as well. -/
def revoking : State := onDv (fun d => { d with fuse := { d.fuse with ownerValid := 5 } }) (respond
  340452799468657012685424566387608039630187262331250256753168984157909929135872305063849492183305404031253703727102780435993427975448566365891950618258773338834341778740125748821741177513586639504047778182702738230037898498758481584
  18341725597221734809588731766681475891176668459097758117416662112368428031108229441144411998366336296834257172360936 0 1 bst)
/-- Debug is open at level 1 for no minutes, or for one. -/
def debugOpen : State := onDv (fun d => d.setFld F.SEC_STATE_DEBUG 0 1) bst
def debugOpenLate : State := onDv (fun d => { d with sec := { d.sec with minutes := 1 }, tmu := { d.tmu with frc := 60000000000 * 65536 - 1 } }) debugOpen

/-- Cases of clauses of SecurityCommands. -/
theorem witness_SecurityCommands_1 :
    (Reaches bst fm RF.SEC_EXT_CTL 0 (setBits (0x2000000000000000 : Word) 63 62 1))
    ∧ (LiesAt RF.SEC_EXT_CTL 0 (RF.addr .SEC_EXT_CTL 0)) ∧ (bst.d.prompter = true) ∧ (bst.d.regDown RF.SEC_EXT_CTL 0 = false)
        ∧ (¬(bitsOf (0 : Word) 63 62 = 1 ∧ 8 ≤ bitsOf (0 : Word) 61 58)) ∧ (¬(bitsOf (0 : Word) 63 62 = 2 ∧ isHousePort fm = true))
    ∧ (LiesAt RF.SEC_EXT_CTL 0 (RF.addr .SEC_EXT_CTL 0)) ∧ (bst.d.prompter = true) ∧ (bst.d.regDown RF.SEC_EXT_CTL 0 = false)
        ∧ (¬(bitsOf (0x5C00000000000000 : Word) 63 62 = 1 ∧ 8 ≤ bitsOf (0x5C00000000000000 : Word) 61 58)) ∧ (¬(bitsOf (0x5C00000000000000 : Word) 63
          62 = 2 ∧ isHousePort fm = true))
    ∧ (LiesAt RF.SEC_EXT_CTL 0 (RF.addr .SEC_EXT_CTL 0)) ∧ (bst.d.prompter = true) ∧ (bst.d.regDown RF.SEC_EXT_CTL 0 = false)
        ∧ (¬(bitsOf (0x8000000000000000 : Word) 63 62 = 1 ∧ 8 ≤ bitsOf (0x8000000000000000 : Word) 61 58)) ∧ (¬(bitsOf (0x8000000000000000 : Word) 63
          62 = 2 ∧ isHousePort (Master.inband 0x00300001) = true))
    ∧ (Reaches (onDv (fun d => d.setFld F.SEC_STATE_SVN 0 1) bst) fm RF.SEC_EXT_CTL 0 (setBits (0 : Word) 63 62 2))
        ∧ ((onDv (fun d => d.setFld F.SEC_STATE_SVN 0 1) bst).d.fuse.svnCount < (onDv (fun d => d.setFld F.SEC_STATE_SVN 0 1) bst).d.fld
          F.SEC_STATE_SVN 0)
    ∧ (Reaches bst fm RF.SEC_EXT_CTL 0 (setBits (0 : Word) 63 62 2)) ∧ (bst.d.fld F.SEC_STATE_SVN 0 ≤ bst.d.fuse.svnCount)
    ∧ (Reaches (onDv (fun d => { d.setFld F.SEC_STATE_SVN 0 1 with fuse := { d.fuse with svnCount := 1 } }) bst) fm RF.SEC_EXT_CTL 0 (setBits (0 :
          Word) 63 62 2)) ∧ ((onDv (fun d => { d.setFld F.SEC_STATE_SVN 0 1 with fuse := { d.fuse with svnCount := 1 } }) bst).d.fld F.SEC_STATE_SVN 0
          ≤ (onDv (fun d => { d.setFld F.SEC_STATE_SVN 0 1 with fuse := { d.fuse with svnCount := 1 } }) bst).d.fuse.svnCount)
    ∧ (Reaches bst fm RF.SEC_DBG_CTL 0 (setBits (0 : Word) 63 62 1)) := by
  repeat' first
    | decide +kernel
    | apply And.intro
    | exact fun h => absurd h.2.2 (by decide +kernel)
    | exact fun h => absurd h.2.1 (by decide +kernel)
    | exact fun h => absurd h.1 (by decide +kernel)
    | apply Reaches.mk

/-- Cases of clauses of SecurityCommands. -/
theorem witness_SecurityCommands_2 :
    (Submits (owned 0) fm (0x3819000000000000 : Word) 3 2 100) ∧ (¬LevelOpen (owned 0) 3 2)
    ∧ (Submits (onDv (fun d => d.setFld F.SEC_STATE_SECURITY 0 2) (owned 0)) fm (0x2819000000000000 : Word) 2 2 100)
        ∧ (¬LevelOpen (onDv (fun d => d.setFld F.SEC_STATE_SECURITY 0 2) (owned 0)) 2 2)
    ∧ (Submits (onDv (fun d => { d with sec := { d.sec with lockedOut := true } }) (owned 0)) fm (0x1819000000000000 : Word) 1 2 100)
        ∧ (LevelOpen (onDv (fun d => { d with sec := { d.sec with lockedOut := true } }) (owned 0)) 1 2) ∧ ((onDv (fun d => { d with sec := { d.sec with lockedOut := true } })
          (owned 0)).d.sec.lockedOut = true)
    ∧ (Submits bst fm (0x1819000000000000 : Word) 1 2 100) ∧ (LevelOpen bst 1 2) ∧ (bst.d.sec.lockedOut = false) ∧ (bst.d.sec.nonce = none)
    ∧ (Submits (owned 0) fm (0x1419000000000000 : Word) 1 1 100) ∧ (LevelOpen (owned 0) 1 1) ∧ ((owned 0).d.sec.lockedOut = false)
        ∧ ((owned 0).d.sec.nonce = some (BitVec.ofNat 256 4)) ∧ (¬OwnerKey (owned 0) 1)
    ∧ (Submits (owned 0) fm (0x1819400000000000 : Word) 1 2 101) ∧ (LevelOpen (owned 0) 1 2) ∧ ((owned 0).d.sec.lockedOut = false)
        ∧ ((owned 0).d.sec.nonce = some (BitVec.ofNat 256 4)) ∧ (OwnerKey (owned 0) 2) ∧ (¬OwnerSigned (owned 0) (BitVec.ofNat 256 4) 1 2 101)
    ∧ (Submits (owned 1) fm (0x1819000000000000 : Word) 1 2 100) ∧ (LevelOpen (owned 1) 1 2) ∧ ((owned 1).d.sec.lockedOut = false)
        ∧ ((owned 1).d.sec.nonce = some (BitVec.ofNat 256 4)) ∧ (OwnerKey (owned 1) 2) ∧ (¬OwnerSigned (owned 1) (BitVec.ofNat 256 4) 1 2 100)
    ∧ (Submits (owned 0) fm (0x1819000000000000 : Word) 1 2 100) ∧ (LevelOpen (owned 0) 1 2) ∧ ((owned 0).d.sec.lockedOut = false)
        ∧ ((owned 0).d.sec.nonce = some (BitVec.ofNat 256 4)) ∧ (OwnerKey (owned 0) 2) ∧ (OwnerSigned (owned 0) (BitVec.ofNat 256 4) 1 2 100)
        ∧ (1 ≠ 3) := by
  repeat' first
    | decide +kernel
    | apply And.intro
    | (unfold LevelOpen; decide +kernel)
    | (unfold OwnerKey; decide +kernel)
    | (unfold OwnerSigned; decide +kernel)
    | exact fun h => absurd h.2.2 (by decide +kernel)
    | exact fun h => absurd h.2.1 (by decide +kernel)
    | exact fun h => absurd h.1 (by decide +kernel)
    | apply Reaches.mk
    | apply Submits.mk

/-- Cases of clauses of SecurityCommands. -/
theorem witness_SecurityCommands_3 :
    (Submits revoking fm (0x3000400000000000 : Word) 3 0 1) ∧ (LevelOpen revoking 3 0) ∧ (revoking.d.sec.lockedOut = false)
        ∧ (revoking.d.sec.nonce = some (BitVec.ofNat 256 1)) ∧ (OwnerKey revoking 0) ∧ (OwnerSigned revoking (BitVec.ofNat 256 1) 3 0 1)
        ∧ (3 = 3)
    ∧ (Reaches debugOpen fm RF.SEC_DBG_CTL 0 (setBits (0 : Word) 63 62 3)) ∧ (debugOpen.d.fld F.SEC_STATE_DEBUG 0 ≠ 0)
    ∧ (Reaches bst fm RF.SEC_DBG_CTL 0 (setBits (0 : Word) 63 62 3)) ∧ (bst.d.fld F.SEC_STATE_DEBUG 0 = 0)
    ∧ (debugOpen.d.fld F.SEC_STATE_DEBUG 0 ≠ 0) ∧ (debugOpen.d.sec.minutes * 60000000000 * 65536 ≤ debugOpen.d.sinceFrc debugOpen.d.sec.openAt)
    ∧ (bst.d.fld F.SEC_STATE_DEBUG 0 = 0 ∨ bst.d.sinceFrc bst.d.sec.openAt < bst.d.sec.minutes * 60000000000 * 65536)
    ∧ (debugOpenLate.d.fld F.SEC_STATE_DEBUG 0 = 0 ∨ debugOpenLate.d.sinceFrc debugOpenLate.d.sec.openAt < debugOpenLate.d.sec.minutes * 60000000000 *
          65536) := by
  repeat' first
    | decide +kernel
    | apply And.intro
    | (unfold OwnerSigned; decide +kernel)
    | exact fun h => absurd h.2.2 (by decide +kernel)
    | exact fun h => absurd h.2.1 (by decide +kernel)
    | exact fun h => absurd h.1 (by decide +kernel)
    | apply Reaches.mk
    | apply Submits.mk

/-- The counters in a STATE; a cut at FRC `c`, with FRC at `f`; the snapshot ring, a record at hand; periodic snapshots. -/
def stateOf (n : Nat) : State := onDv (fun d => d.setFld F.CNT_FREEZE_STATE 0 n) bst
def cutAt (c f : Nat) : State := onDv (fun d => { d with cutDue := true, cutFrc := c, tmu := { d.tmu with frc := f } }) bst
def ring (wp rp : Nat) : State := onDv (fun d => (d.setFld F.CNT_SNAP_WP_PTR 0 wp).setFld F.CNT_SNAP_RP_PTR 0 rp) (stateOf 2)
def periodic (n : Nat) : State := onDv (fun d => d.setFld F.CNT_DMA_CTL_EN 0 1) (stateOf n)

/-- Cases of clauses of CounterCommands. -/
theorem witness_CounterCommands_1 :
    (Reaches bst fm RF.CNT_FREEZE 0 (setBits (0 : Word) 63 63 1)) ∧ (bst.d.cutState = 0) ∧ (bst.d.fld F.CNT_FREEZE_FREEZE 0 = 0)
    ∧ (Reaches (stateOf 1) fm RF.CNT_FREEZE 0 (setBits (0 : Word) 63 63 0)) ∧ (bitOf (0 : Word) 62 = false) ∧ ((stateOf 1).d.cutState = 1)
    ∧ (Reaches bst fm RF.CNT_FREEZE 0 (setBits (0 : Word) 63 63 0)) ∧ (bitOf (0 : Word) 62 = false) ∧ (bst.d.cutState = 0)
        ∧ (bst.d.fld F.CNT_FREEZE_SNAP 0 = 0)
    ∧ (Reaches (stateOf 2) fm RF.CNT_FREEZE 0 (setBits (0 : Word) 63 63 0)) ∧ (bitOf (0 : Word) 62 = false) ∧ ((stateOf 2).d.cutState = 2)
    ∧ (Reaches bst fm RF.CNT_FREEZE 0 (setBits (0 : Word) 62 62 1)) ∧ (bst.d.cutState = 0) ∧ (bst.d.fld F.CNT_FREEZE_SNAP 0 = 0)
    ∧ (Reaches (stateOf 1) fm RF.CNT_FREEZE 0 (setBits (0 : Word) 62 62 1)) ∧ ((stateOf 1).d.cutState = 1)
    ∧ (bst.d.cutPast = false)
    ∧ ((cutAt 100 99).d.cutPast = false) := by
  repeat' first
    | decide +kernel
    | apply And.intro
    | apply Reaches.mk

/-- Cases of clauses of CounterCommands. -/
theorem witness_CounterCommands_2 :
    ((cutAt 100 100).d.cutPast = true) ∧ ((cutAt 100 100).d.fld F.CNT_FREEZE_STATE 0 = 0)
    ∧ ((cutAt 100 101).d.cutPast = true) ∧ ((cutAt 100 101).d.fld F.CNT_FREEZE_STATE 0 = 0)
    ∧ (SnapDue (ring 0 0)) ∧ (recordSize (ring 0 0) < ringFree (ring 0 0))
    ∧ (SnapDue (ring 1000000 2000000)) ∧ (recordSize (ring 1000000 2000000) < ringFree (ring 1000000 2000000))
    ∧ (SnapDue (ring 1000000 1000064)) ∧ (ringFree (ring 1000000 1000064) ≤ recordSize (ring 1000000 1000064))
    ∧ (bst.d.cutState = 0)
    ∧ ((stateOf 1).d.cutState = 1)
    ∧ ((stateOf 2).d.cutState = 2) := by
  repeat' first
    | decide +kernel
    | apply And.intro
    | apply SnapDue.mk

/-- Cases of clauses of CounterCommands. -/
theorem witness_CounterCommands_3 :
    ((periodic 0).d.fld F.CNT_DMA_CTL_EN 0 = 1) ∧ ((periodic 0).d.cutState = 0) ∧ ((periodic 0).d.fld F.CNT_FREEZE_SNAP 0 = 0)
    ∧ ((periodic 1).d.fld F.CNT_DMA_CTL_EN 0 = 1) ∧ ((periodic 1).d.cutState ≠ 0) ∧ (bitOf ((periodic 1).d.rd RF.CNT_CHAIN 0) 2 = false)
    ∧ (1063 < 1064) ∧ (63 < 64) ∧ (Reaches bst fm RF.CNT_VAL (1063 * 64 + 63) (0 : Word)) := by
  repeat' first
    | decide +kernel
    | apply And.intro
    | apply Reaches.mk

/-- A case of each clause of HouseLinkNotices. -/
theorem witness_HouseLinkNotices :
    (1 < 2) ∧ (1 ∈ bst.d.houseUp)
    ∧ (1 < 2) ∧ (1 ∉ (onDv (fun d => { d with houseUp := [0] }) bst).d.houseUp) := by
  repeat' first
    | decide +kernel

/-- A case of each clause of ChainedCounters. -/
theorem witness_ChainedCounters :
    ((onDv (fun d => d.wr .CNT_CHAIN 0 0x80000000) bst).d.instOk 0 = true) ∧ ((onDv (fun d => d.wr .CNT_CHAIN 0 0x80000000) bst).d.cutState = 0)
        ∧ (31 < 32) ∧ (0xFFFFFFFFFFFF < 2 ^ 48) ∧ (bitOf ((onDv (fun d => d.wr .CNT_CHAIN 0 0x80000000) bst).d.rd RF.CNT_CHAIN 0) 31 = true)
    ∧ ((onDv (fun d => d.wr .CNT_CHAIN 0 0x7FFFFFFF) bst).d.instOk 0 = true) ∧ ((onDv (fun d => d.wr .CNT_CHAIN 0 0x7FFFFFFF) bst).d.cutState = 0)
        ∧ (31 < 32) ∧ (0xFFFFFFFFFFFF < 2 ^ 48) ∧ (bitOf ((onDv (fun d => d.wr .CNT_CHAIN 0 0x7FFFFFFF) bst).d.rd RF.CNT_CHAIN 0) 31 = false)
        ∧ (1 < 2)
    ∧ (bst.d.instOk 0 = true) ∧ (bst.d.cutState = 0) ∧ (0 < 32) ∧ (0xFFFFFFFFFFFF < 2 ^ 48) ∧ (bitOf (bst.d.rd RF.CNT_CHAIN 0) 0 = false) ∧ (0 < 2)
    ∧ (bst.d.instOk 0 = true) ∧ (bst.d.cutState = 0) ∧ (31 < 32) ∧ (0xFFFFFFFFFFFF < 2 ^ 48) ∧ (Calm bst) ∧ (LiesAt RF.CNT_CHAIN 0 (RF.addr .CNT_CHAIN
          0)) ∧ (Reaches bst fm RF.CNT_CHAIN 0 (0x80000000 : Word)) := by
  repeat' first
    | decide +kernel
    | apply And.intro
    | apply Reaches.mk

end Sys2Proof.Tests
end

section
/-! Seam links (R19, R27 to R32): what each operation of a link changes, and the statement about its commands. -/

namespace Sys2Proof.Machine
open Sys2Proof.Claims

/-! ## What a notice leaves, and how one that is raised stays in the relay -/

/-- What every element's step keeps, the whole pass keeps. -/
theorem Dev.each_keeps {α β : Type} (g : Dev → β) (f : Dev → α → Dev) (hf : ∀ d x, g (f d x) = g d) (l : List α) (d : Dev) :
    g (d.each l f) = g d := by
  induction l generalizing d with
  | nil => rfl
  | cons x l ih => exact (ih (f d x)).trans (hf d x)

namespace Dev.Soft

theorem seams {d d' : Dev} (h : d.Soft d') : d'.seams = d.seams := by have e := congrArg Dev.seams h.hard; exact e
theorem seamOut {d d' : Dev} (h : d.Soft d') : d'.seamOut = d.seamOut := by have e := congrArg Dev.seamOut h.hard; exact e
theorem overlay {d d' : Dev} (h : d.Soft d') : d'.overlay = d.overlay := by have e := congrArg Dev.overlay h.hard; exact e

end Dev.Soft

theorem Dev.soft_notice (d : Dev) (ty src prod data : Nat) : d.Soft (d.notice ty src prod data) :=
  (Dev.Soft.refl d).notice ty src prod data

@[simp] theorem Dev.notice_seams (d : Dev) (ty src prod data : Nat) : (d.notice ty src prod data).seams = d.seams :=
  (d.soft_notice ty src prod data).seams
@[simp] theorem Dev.notice_overlay (d : Dev) (ty src prod data : Nat) : (d.notice ty src prod data).overlay = d.overlay :=
  (d.soft_notice ty src prod data).overlay

theorem Dev.fld_notice (d : Dev) (ty src prod data : Nat) {f : Fld} (hf : f.rf.busy = false) (i : Nat) :
    (d.notice ty src prod data).fld f i = d.fld f i := (d.soft_notice ty src prod data).fld f i hf

/-- `d'` comes after `d`: the relay has only grown, and neither T nor the device's standing as to notices has moved. -/
structure Dev.Follows (d d' : Dev) : Prop where
  relay : d.relay <+: d'.relay
  tmu : d'.tmu = d.tmu
  rate : d'.rd .TMU_RATE 0 = d.rd .TMU_RATE 0
  security : d'.rd .SEC_STATE 0 = d.rd .SEC_STATE 0

namespace Dev.Follows

theorem refl (d : Dev) : d.Follows d := ⟨List.prefix_refl _, rfl, rfl, rfl⟩

theorem trans {a b c : Dev} (h : a.Follows b) (k : b.Follows c) : a.Follows c :=
  ⟨h.relay.trans k.relay, k.tmu.trans h.tmu, k.rate.trans h.rate, k.security.trans h.security⟩

/-- A change that keeps registers, fuses, relay and time unit. -/
theorem of_regs {d d' : Dev} (hr : d'.relay = d.relay) (ht : d'.tmu = d.tmu) (hg : d'.regs = d.regs) (hf : d'.fuse = d.fuse) :
    d.Follows d' :=
  ⟨hr ▸ List.prefix_refl _, ht, Dev.rd_of_regs hg hf _ _, Dev.rd_of_regs hg hf _ _⟩

theorem wr (d : Dev) {r : RF} (h1 : r ≠ .TMU_RATE) (h2 : r ≠ .SEC_STATE) (i : Nat) (w : Word) : d.Follows (d.wr r i w) :=
  ⟨List.prefix_refl _, rfl, Dev.rd_wr_of_ne _ _ _ _ _ _ fun e => h1 e.1.symm, Dev.rd_wr_of_ne _ _ _ _ _ _ fun e => h2 e.1.symm⟩

theorem setSeam (d : Dev) (s : Nat) (x : Seam) : d.Follows (d.setSeam s x) := of_regs rfl rfl rfl rfl
theorem seamTrain (d : Dev) (s : Nat) : d.Follows (d.seamTrain s) := of_regs rfl rfl rfl rfl

theorem each {α : Type} (f : Dev → α → Dev) (hf : ∀ d x, Dev.Follows d (f d x)) (l : List α) (d : Dev) : d.Follows (d.each l f) := by
  induction l generalizing d with
  | nil => exact refl d
  | cons x l ih => exact (hf d x).trans (ih _)

theorem timeNs {d d' : Dev} (h : d.Follows d') : d'.timeNs = d.timeNs := by
  have hr : d'.fld F.TMU_RATE_RATE 0 = d.fld F.TMU_RATE_RATE 0 := congrArg (bitsOf · _ _) h.rate
  unfold Dev.timeNs Dev.timeFull
  rw [h.tmu, hr]

end Dev.Follows

/-- A notice logged is the relay's last, with its bits. -/
theorem Dev.logNotice_relay (d : Dev) (bits : BitVec 128) (r : Option (BitVec 32)) :
    ∃ x : Relay, (d.logNotice bits r).relay = d.relay ++ [x] ∧ x.remote = r ∧ x.bits = bits := ⟨_, rfl, rfl, rfl⟩

/-- Outside RECOVERY a notice goes to the log (R315). -/
theorem Dev.notice_heard {d : Dev} (h : d.fld F.SEC_STATE_SECURITY 0 ≠ 2) (ty src prod data : Nat) :
    d.notice ty src prod data = d.logNotice (noticeBits ty (N.severity ty) src prod data d.timeNs) none := by
  unfold Dev.notice Dev.noticeSev
  rw [if_neg h]

theorem Dev.Follows.notice (d : Dev) (ty src prod data : Nat) : d.Follows (d.notice ty src prod data) := by
  have hs := d.soft_notice ty src prod data
  refine ⟨?_, hs.tmu, hs.regs _ _ rfl, hs.regs _ _ rfl⟩
  by_cases h : d.fld F.SEC_STATE_SECURITY 0 = 2
  · unfold Dev.notice Dev.noticeSev
    rw [if_pos h]
  · obtain ⟨x, hx, -, -⟩ := d.logNotice_relay (noticeBits ty (N.severity ty) src prod data d.timeNs) none
    rw [Dev.notice_heard h, hx]
    exact List.prefix_append _ _

/-- A notice raised on the way from `s` to `t` is one that the step has raised. -/
theorem Dev.Follows.raises {s t : State} {a : Dev} {ty src prod data : Nat} (h : s.d.Follows a)
    (ht : (a.notice ty src prod data).Follows t.d) (hs : Heard s) : Raises s t ty src prod data := by
  have ha : a.fld F.SEC_STATE_SECURITY 0 ≠ 2 := by
    have e : a.fld F.SEC_STATE_SECURITY 0 = s.d.fld F.SEC_STATE_SECURITY 0 := congrArg (bitsOf · _ _) h.security
    rw [e]; exact hs
  have htime : t.d.timeNs = a.timeNs := ((Dev.Follows.notice a ty src prod data).trans ht).timeNs
  obtain ⟨x, hx, hrem, hbits⟩ := a.logNotice_relay (noticeBits ty (N.severity ty) src prod data a.timeNs) none
  obtain ⟨before, hb⟩ := h.relay
  obtain ⟨after, haf⟩ := ht.relay
  rw [Dev.notice_heard ha, hx, ← hb] at haf
  exact ⟨before ++ [x] ++ after, by simp [← haf], x, by simp, hrem, by rw [hbits, htime]⟩

/-! ## What sending on a link leaves -/

/-- A device but for the links' own state and what they send. -/
def Dev.exceptSeams (d : Dev) : Dev := { d with seams := [], seamOut := [] }

section
variable {d d' : Dev} (h : d'.exceptSeams = d.exceptSeams)
include h

theorem Dev.fld_of_exceptSeams (f : Fld) (i : Nat) : d'.fld f i = d.fld f i := by
  have hr : d'.regs = d.regs := by have e := congrArg Dev.regs h; exact e
  have hf : d'.fuse = d.fuse := by have e := congrArg Dev.fuse h; exact e
  unfold Dev.fld
  rw [Dev.rd_of_regs hr hf]

theorem Dev.overlay_of_exceptSeams : d'.overlay = d.overlay := by have e := congrArg Dev.overlay h; exact e
theorem Dev.seamIn_of_exceptSeams : d'.seamIn = d.seamIn := by have e := congrArg Dev.seamIn h; exact e

theorem Dev.Follows.of_exceptSeams : d.Follows d' := by
  have hr : d'.relay = d.relay := by have e := congrArg Dev.relay h; exact e
  have ht : d'.tmu = d.tmu := by have e := congrArg Dev.tmu h; exact e
  have hg : d'.regs = d.regs := by have e := congrArg Dev.regs h; exact e
  have hf : d'.fuse = d.fuse := by have e := congrArg Dev.fuse h; exact e
  exact of_regs hr ht hg hf

end

/-- A link but for what its sending moves. -/
def Seam.inward (x : Seam) : Seam := { x with queue := [], txNext := 0, replay := [], used_ := [], turn := 0 }

@[simp] theorem Dev.seam_setSeam (d : Dev) (s : Nat) (x : Seam) : (d.setSeam s x).seam s = x := by
  simp [Dev.seam, Dev.setSeam]

@[simp] theorem Dev.seam_seamEmit (d : Dev) (s : Nat) (f : BitVec 1120) (j : Nat) : (d.seamEmit s f).seam j = d.seam j := rfl

theorem Dev.seam_congr {d d' : Dev} (h : d'.seams = d.seams) (s : Nat) : d'.seam s = d.seam s := by unfold Dev.seam; rw [h]

theorem Dev.seamData_inward (d : Dev) (s ch : Nat) : ((d.seamData s ch).seam s).inward = (d.seam s).inward := by
  simp [Dev.seamData, Seam.inward]

theorem Dev.seamDrain_keeps (n : Nat) (d : Dev) (s : Nat) :
    (Dev.seamDrain n d s).exceptSeams = d.exceptSeams ∧ ((Dev.seamDrain n d s).seam s).inward = (d.seam s).inward := by
  induction n generalizing d with
  | zero => exact ⟨rfl, rfl⟩
  | succ n ih =>
    unfold Dev.seamDrain
    split
    · split
      · next ch _ =>
        obtain ⟨hrest, hin⟩ := ih (d.seamData s ch)
        exact ⟨hrest, hin.trans (d.seamData_inward s ch)⟩
      · exact ⟨rfl, rfl⟩
    · exact ⟨rfl, rfl⟩

theorem Dev.seamPump_exceptSeams (d : Dev) (s : Nat) : (d.seamPump s).exceptSeams = d.exceptSeams := (Dev.seamDrain_keeps _ d s).1
theorem Dev.seamPump_inward (d : Dev) (s : Nat) : ((d.seamPump s).seam s).inward = (d.seam s).inward := (Dev.seamDrain_keeps _ d s).2

/-- Nothing waits, and nothing is sent. -/
theorem Dev.seamPump_of_empty {d : Dev} {s : Nat} (h : (d.seam s).queue = []) : d.seamPump s = d := by
  unfold Dev.seamPump
  rw [h]
  rfl

/-- All unacknowledged flits leave again, in order, and nothing else changes (R30). -/
theorem Dev.seamResend_eq (d : Dev) (s : Nat) : d.seamResend s =
    { d with seamOut := d.seamOut ++ (d.seam s).replay.map (fun x => (s, (d.seam s).flit 1 x.2.1 x.1 x.2.2)) } := by
  unfold Dev.seamResend
  generalize (d.seam s).replay = l
  induction l generalizing d with
  | nil => simp
  | cons x l ih =>
    rw [Dev.each_cons, ih]
    simp [Dev.seamEmit, Dev.seam]

theorem Dev.seamResume_exceptSeams (d : Dev) (s : Nat) : (d.seamResume s).exceptSeams = d.exceptSeams := by
  unfold Dev.seamResume
  rw [Dev.seamPump_exceptSeams, Dev.seamResend_eq]
  rfl

/-! ## What a link takes -/

theorem seamTotal_le (s : Nat) : seamTotal s ≤ 128 := by unfold seamTotal; split <;> omega
theorem seamFloor_lt_seamTotal (s : Nat) : seamFloor s < seamTotal s := by unfold seamFloor seamTotal; split <;> omega

theorem seamLive_iff (s : State) (site : Nat) : SeamLive s site ↔ 1 ≤ site ∧ site ≤ 20 ∧ s.d.seamUp site = true := by
  simp [SeamLive, Dev.seamUp, Dev.seamState]

theorem seamOk_of_kind {f : BitVec 1120} (hc : bitsOf f 31 0 = seamCrc f) (hk : seamFld f 63 60 < 5) : seamOk f = true := by
  simp [seamOk, hc, hk]

theorem seamOk_of_bad {f : BitVec 1120} (hc : bitsOf f 31 0 ≠ seamCrc f) : seamOk f = false := by simp [seamOk, hc]

/-- A link once it has read a good flit's ACK and credit total (R29, R30). -/
def Seam.informed (x : Seam) (f : BitVec 1120) : Seam :=
  Seam.heed { x with replay := (seamAck x.replay (seamFld f 43 32)).getD x.replay } f

/-- A link once it has taken the data flit that it expects (R29, R30). -/
def Seam.took (x : Seam) (f : BitVec 1120) : Seam :=
  { x with rxNext := (x.rxNext + 1) % 4096, waiting := false, crCh := seamFld f 59 56
           rel := x.rel.put (seamFld f 59 56) ((x.released (seamFld f 59 56) + 1) % 4096) }

theorem Dev.seamGood_data {f : BitVec 1120} (d : Dev) (s : Nat) (hk : seamFld f 63 60 = 1) :
    d.seamGood s f = ((d.setSeam s ((d.seam s).informed f)).seamTake s f).seamPump s := by
  simp only [Dev.seamGood, Seam.informed, hk]
  cases seamAck (d.seam s).replay (seamFld f 43 32) <;> rfl

theorem Dev.seamGood_replay {f : BitVec 1120} (d : Dev) (s : Nat) (hk : seamFld f 63 60 = 3) :
    d.seamGood s f = ((d.setSeam s ((d.seam s).informed f)).seamReplay s (seamFld f 43 32)).seamPump s := by
  simp only [Dev.seamGood, Seam.informed, hk]
  cases seamAck (d.seam s).replay (seamFld f 43 32) <;> rfl

theorem Dev.seamTake_next {d : Dev} {s : Nat} {f : BitVec 1120} (h : seamFld f 55 44 = (d.seam s).rxNext) :
    d.seamTake s f = Dev.seamEmit { d.setSeam s ((d.seam s).took f) with seamIn := d.seamIn ++ [(s, seamFld f 59 56, seamPayload f)] }
      s (((d.seam s).took f).flit 2 0 0 0) := by
  unfold Dev.seamTake
  rw [if_pos h]
  rfl

/-- A data flit already received is acknowledged again, and no more. -/
theorem Dev.seamTake_again {d : Dev} {s : Nat} {f : BitVec 1120} (h1 : 1 ≤ delta (d.seam s).rxNext (seamFld f 55 44) 12)
    (h2 : delta (d.seam s).rxNext (seamFld f 55 44) 12 ≤ 2048) : d.seamTake s f = d.seamEmit s ((d.seam s).flit 0 0 0 0) := by
  have hne : seamFld f 55 44 ≠ (d.seam s).rxNext := by
    intro e
    rw [← e] at h1
    unfold delta at h1
    omega
  unfold Dev.seamTake
  rw [if_neg hne, if_pos h2]

theorem Dev.seamAsk_seamOut (d : Dev) (s : Nat) : (d.seamAsk s).seamOut = d.seamOut ++ [(s, (d.seam s).flit 3 0 0 0)] := rfl
theorem Dev.seamAsk_rxNext (d : Dev) (s : Nat) : ((d.seamAsk s).seam s).rxNext = (d.seam s).rxNext := by simp [Dev.seamAsk]

/-- The Wing's counter of a link event, where the link is a Wing's, leaves the links. -/
theorem Dev.soft_countLink (d : Dev) (s c : Nat) : d.Soft (if s ≤ 16 then d.countWing (s - 1) c 1 else d) := by
  split
  · exact (Dev.Soft.refl d).countWing _ _ _
  · exact Dev.Soft.refl d

/-- A CRC failure asks for a replay from the last good SEQ, and takes nothing (R30). -/
theorem Dev.seamBad_asks (d : Dev) (s : Nat) : ((d.seamBad s).seam s).rxNext = (d.seam s).rxNext
    ∧ (d.seamBad s).seamOut = d.seamOut ++ [(s, (d.seam s).flit 3 0 0 0)] := by
  unfold Dev.seamBad
  extract_lets x d1 d2
  have hc : d1.Soft d2 := d1.soft_countLink s C.SEAM_CRC_FAIL
  have hx : d2.seam s = { d.seam s with bad := d.tally (d.seam s).bad } := (Dev.seam_congr hc.seams s).trans (d.seam_setSeam s _)
  rw [Dev.seamAsk_rxNext, Dev.seamAsk_seamOut, hc.seamOut, hx]
  exact ⟨rfl, rfl⟩

/-- A replay request has all unacknowledged flits leave again (R30). -/
theorem Dev.seamReplay_resends (d : Dev) (s ack : Nat) : ((d.seamReplay s ack).seam s).queue = (d.seam s).queue
    ∧ (d.seamReplay s ack).seamOut
      = d.seamOut ++ (d.seam s).replay.map (fun x => (s, (d.seam s).flit 1 x.2.1 x.1 x.2.2)) := by
  unfold Dev.seamReplay
  extract_lets x q d1 d2 d3
  have hc : d2.Soft d3 := d2.soft_countLink s C.SEAM_REPLAY
  have hx : d3.seam s = { x with runSeq := q, run := if x.runSeq = q then x.run + 1 else 1, farBad := d.tally x.farBad } :=
    (Dev.seam_congr hc.seams s).trans (d.seam_setSeam s _)
  rw [Dev.seamResend_eq]
  show (d3.seam s).queue = _ ∧ d3.seamOut ++ _ = _
  rw [hc.seamOut, hx]
  exact ⟨rfl, rfl⟩

/-! ## What training and faults of a site do (R19, R32) -/

theorem Dev.site_congr {d d' : Dev} (h : d'.rd .GLB_SITE_MAP 0 = d.rd .GLB_SITE_MAP 0) (n : Nat) : d'.site n = d.site n := by
  unfold Dev.site
  rw [h]

theorem Dev.site_setSite {n v : Nat} (d : Dev) (hn : n ≤ 24) (hv : v < 4) : (d.setSite n v).site n = v := by
  unfold Dev.site Dev.setSite
  rw [Dev.rd_wr_self, bitsOf_setBits _ _ _ _ (by omega) (by omega), show 2 * n + 1 - 2 * n + 1 = 2 by omega]
  exact Nat.mod_eq_of_lt hv

theorem Dev.site_notice (d : Dev) (ty src prod data n : Nat) : (d.notice ty src prod data).site n = d.site n :=
  Dev.site_congr ((d.soft_notice ty src prod data).regs _ _ rfl) n

theorem Dev.site_settle (d : Dev) (n : Nat) : d.settle.site n = d.site n :=
  Dev.site_congr ((Dev.Soft.refl d).settle.regs _ _ rfl) n

theorem Dev.site_faultSite {n : Nat} (d : Dev) (hn : n ≤ 24) : (d.faultSite n).site n = 3 := by
  unfold Dev.faultSite
  rw [Dev.site_notice]
  exact (Dev.site_congr (Dev.rd_wr_of_ne _ _ _ _ _ _ (by simp)) n).trans (d.site_setSite hn (by omega))

/-- A die whose reset begins shows RESET. -/
theorem Dev.site_dieReset {n : Nat} (d : Dev) (m : Mem) (cause : Nat) (hn : n ≤ 20) : (d.dieReset m n cause).site n = 2 := by
  unfold Dev.dieReset
  extract_lets d1 d2 d3
  have h3 : d3.site n = 2 := (Dev.site_congr (Dev.rd_of_regs rfl rfl _ _) n).trans (d1.site_setSite (by omega) (by omega))
  rw [if_neg (by omega), ← h3]
  apply Dev.site_congr
  rw [Dev.rd_setFld_of_ne _ _ _ _ _ _ (by simp [F.GLB_SEAM_STAT_BUNDLES_UP]),
    Dev.rd_setFld_of_ne _ _ _ _ _ _ (by simp [F.GLB_SEAM_STAT_STATE]), Dev.rd_setSeam]

/-- With too few bundles a die is reset the first time and FAULTED the second (R32). -/
theorem Dev.site_seamTooFew {n : Nat} (d : Dev) (m : Mem) (hn : n ≤ 20) :
    (d.seamTooFew m n).site n = if (d.seam n).retried = true then 3 else 2 := by
  unfold Dev.seamTooFew
  split
  · exact (Dev.site_congr (Dev.rd_of_regs rfl rfl _ _) n).trans (Dev.site_faultSite _ (by omega))
  · exact Dev.site_dieReset _ m 2 hn

/-- What leads to the DIE_FAULT notice of a site that goes FAULTED. -/
theorem Dev.Follows.fault (d : Dev) (s : Nat) : d.Follows ((d.setSite s 3).setDieRst s 0) :=
  (Dev.Follows.wr d (by simp) (by simp) _ _).trans (Dev.Follows.wr _ (by simp) (by simp) _ _)

/-! ## How a link opens (R32) -/

theorem Dev.Follows.setSeamStat {f : Fld} (hf : f.rf = .GLB_SEAM_STAT) (d : Dev) (i v : Nat) : d.Follows (d.setFld f i v) :=
  Dev.Follows.wr d (by simp [hf]) (by simp [hf]) _ _

theorem Dev.seamOpen_all {d : Dev} {s n : Nat} (h : seamTotal s ≤ n) :
    d.seamOpen s n = (d.setFld F.GLB_SEAM_STAT_BUNDLES_UP s (seamTotal s)).setFld F.GLB_SEAM_STAT_STATE s 2 := by
  unfold Dev.seamOpen
  rw [Nat.min_eq_right h]
  exact if_pos rfl

theorem Dev.seamOpen_some {d : Dev} {s n : Nat} (h : n < seamTotal s) :
    d.seamOpen s n = ((d.setFld F.GLB_SEAM_STAT_BUNDLES_UP s n).setFld F.GLB_SEAM_STAT_STATE s 4).notice
      N.SEAM_DEGRADED (Src.die s) 0 0 := by
  unfold Dev.seamOpen
  rw [Nat.min_eq_left h.le]
  exact if_neg h.ne

/-- The two fields of GLB_SEAM_STAT that opening a link writes. -/
theorem Dev.fld_setSeamStat (d : Dev) {s n v : Nat} (hn : n < 256) (hv : v < 16) :
    ((d.setFld F.GLB_SEAM_STAT_BUNDLES_UP s n).setFld F.GLB_SEAM_STAT_STATE s v).fld F.GLB_SEAM_STAT_STATE s = v
    ∧ ((d.setFld F.GLB_SEAM_STAT_BUNDLES_UP s n).setFld F.GLB_SEAM_STAT_STATE s v).fld F.GLB_SEAM_STAT_BUNDLES_UP s = n := by
  rw [Dev.fld_setFld_self _ _ _ _ (by decide) (by decide),
    Dev.fld_setFld_of_ne _ _ _ _ _ _ (by decide) (by decide) (.inr (.inl (by decide))),
    Dev.fld_setFld_self _ _ _ _ (by decide) (by decide)]
  exact ⟨Nat.mod_eq_of_lt hv, Nat.mod_eq_of_lt hn⟩

theorem Dev.fld_seamOpen (d : Dev) (s n : Nat) :
    (d.seamOpen s n).fld F.GLB_SEAM_STAT_STATE s = (if seamTotal s ≤ n then 2 else 4)
    ∧ (d.seamOpen s n).fld F.GLB_SEAM_STAT_BUNDLES_UP s = min n (seamTotal s) := by
  have ht := seamTotal_le s
  by_cases h : seamTotal s ≤ n
  · rw [Dev.seamOpen_all h, if_pos h, Nat.min_eq_right h]
    exact d.fld_setSeamStat (by omega) (by omega)
  · rw [Dev.seamOpen_some (by omega), if_neg h, Nat.min_eq_left (by omega), Dev.fld_notice _ _ _ _ _ rfl, Dev.fld_notice _ _ _ _ _ rfl]
    exact d.fld_setSeamStat (by omega) (by omega)

theorem Dev.Follows.seamOpening (d : Dev) (s n v : Nat) :
    d.Follows ((d.setFld F.GLB_SEAM_STAT_BUNDLES_UP s n).setFld F.GLB_SEAM_STAT_STATE s v) :=
  (Dev.Follows.setSeamStat rfl d s n).trans (Dev.Follows.setSeamStat rfl _ s v)

theorem Dev.Follows.seamOpen (d : Dev) (s n : Nat) : d.Follows (d.seamOpen s n) := by
  by_cases h : seamTotal s ≤ n
  · rw [Dev.seamOpen_all h]
    exact Dev.Follows.seamOpening d s _ 2
  · rw [Dev.seamOpen_some (by omega)]
    exact (Dev.Follows.seamOpening d s n 4).trans (Dev.Follows.notice _ _ _ _ _)

theorem Dev.seamOpen_overlay (d : Dev) (s n : Nat) : (d.seamOpen s n).overlay = d.overlay := by
  by_cases h : seamTotal s ≤ n
  · rw [Dev.seamOpen_all h]; rfl
  · rw [Dev.seamOpen_some (by omega)]; exact Dev.notice_overlay _ _ _ _ _

/-! ## What a repair records (R31, R295, R296) -/

section
variable (d : Dev) (n : Nat) (dig : BitVec 384)

@[simp] theorem Dev.extend_seams : (d.extend n dig).seams = d.seams := by
  unfold Dev.extend
  exact Dev.each_keeps Dev.seams _ (fun _ _ => Dev.wr_seams _ _ _ _) _ d

@[simp] theorem Dev.extend_overlay : (d.extend n dig).overlay = d.overlay := by
  unfold Dev.extend
  exact Dev.each_keeps Dev.overlay _ (fun _ _ => Dev.wr_overlay _ _ _ _) _ d

theorem Dev.rd_extend {r : RF} (hr : r ≠ .SEC_MEAS) (i : Nat) : (d.extend n dig).rd r i = d.rd r i := by
  unfold Dev.extend
  exact Dev.each_keeps (fun d => d.rd r i) _ (fun _ _ => Dev.rd_wr_of_ne _ _ _ _ _ _ fun e => hr e.1) _ d

theorem Dev.Follows.extend : d.Follows (d.extend n dig) := Dev.Follows.each _ (fun _ _ => Dev.Follows.wr _ (by simp) (by simp) _ _) _ d

end

/-- A repair stands in the overlay and, once the firmware is verified, is measured (R296). -/
def Dev.recorded (d : Dev) (r : Repair) : Dev :=
  if d.fld F.SEC_STATE_SECURITY 0 = 0 then { d with overlay := d.overlay ++ [r] }
  else Dev.extendRepair { d with overlay := d.overlay ++ [r] } r

theorem Dev.repaired_of_room {d : Dev} (h : d.overlay.length < 1024) (kind site unit spare : Nat) :
    d.repaired kind site unit spare = (d.recorded ⟨kind, site, unit, spare, d.timeNs % 2 ^ 32⟩).notice N.REPAIR (Src.die site) 0
      (Config.repairData kind site unit).toNat := by
  unfold Dev.repaired
  simp only [if_pos h]
  rfl

section
variable (d : Dev) (r : Repair)

theorem Dev.recorded_seams : (d.recorded r).seams = d.seams := by
  unfold Dev.recorded
  split
  · rfl
  · exact Dev.extend_seams _ _ _

theorem Dev.recorded_overlay : (d.recorded r).overlay = d.overlay ++ [r] := by
  unfold Dev.recorded
  split
  · rfl
  · exact Dev.extend_overlay _ _ _

theorem Dev.fld_recorded {f : Fld} (hf : f.rf ≠ .SEC_MEAS) (i : Nat) : (d.recorded r).fld f i = d.fld f i := by
  refine congrArg (bitsOf · f.hi f.lo) ?_
  unfold Dev.recorded
  split
  · exact Dev.rd_of_regs rfl rfl _ _
  · exact (Dev.rd_extend _ _ _ hf i).trans (Dev.rd_of_regs rfl rfl _ _)

theorem Dev.Follows.recorded : d.Follows (d.recorded r) := by
  unfold Dev.recorded
  split
  · exact Dev.Follows.of_regs rfl rfl rfl rfl
  · unfold Dev.extendRepair
    exact Dev.Follows.trans (b := { d with overlay := d.overlay ++ [r] }) (Dev.Follows.of_regs rfl rfl rfl rfl) (Dev.Follows.extend _ _ _)

end

/-! ## What becomes of one bundle (R31) -/

/-- `d'` is `d` with bundles of a link seen to: GLB_SEAM_STAT.BUNDLES_UP still stands, `lost` bundles have left the stripe, and
the overlay has gained the repairs `made`. -/
structure Dev.Mended (d d' : Dev) (s lost : Nat) (made : List Repair) : Prop where
  follows : d.Follows d'
  bundles : d'.fld F.GLB_SEAM_STAT_BUNDLES_UP s = d.fld F.GLB_SEAM_STAT_BUNDLES_UP s
  out : (d'.seam s).out.length = (d.seam s).out.length + lost
  overlay : d'.overlay = d.overlay ++ made

/-- The free understudy of a bundle replaces its one failed lane, and the overlay records it. -/
theorem Dev.repairBundle_understudy {d : Dev} {s b : Nat} (hb : b ∉ (d.seam s).out) (hu : b ∉ d.understudies s)
    (hroom : d.overlay.length < 1024) :
    ∃ time, d.Mended (d.repairBundle s b 1) s 0 [⟨2, s, b, b, time⟩] := by
  have e : d.repairBundle s b 1 = d.repaired 2 s b b := by
    unfold Dev.repairBundle
    simp [hb, hu, hroom]
  rw [e, Dev.repaired_of_room hroom]
  refine ⟨d.timeNs % 2 ^ 32, (Dev.Follows.recorded d _).trans (Dev.Follows.notice _ _ _ _ _), ?_, ?_, ?_⟩
  · rw [Dev.fld_notice _ _ _ _ _ rfl, Dev.fld_recorded _ _ (by decide)]
  · rw [Dev.seam_congr ((Dev.notice_seams _ _ _ _ _).trans (d.recorded_seams _))]
    rfl
  · rw [Dev.notice_overlay, Dev.recorded_overlay]

/-- A bundle with no free understudy, or with more failed lanes than one, leaves the stripe. -/
theorem Dev.repairBundle_out {d : Dev} {s b n : Nat} (hb : b ∉ (d.seam s).out) (hn : n ≠ 1 ∨ b ∈ d.understudies s) :
    d.Mended (d.repairBundle s b n) s 1 [] := by
  have e : d.repairBundle s b n = (d.setSeam s { d.seam s with out := (d.seam s).out ++ [b] }).notice N.REPAIR_EXHAUSTED
      (Src.die s) 0 (Config.repairData 2 s b).toNat := by
    unfold Dev.repairBundle Dev.exhausted
    rw [if_neg (by simpa using hb), if_pos (by simpa using hn)]
  rw [e]
  refine ⟨(Dev.Follows.setSeam d s _).trans (Dev.Follows.notice _ _ _ _ _), ?_, ?_, ?_⟩
  · rw [Dev.fld_notice _ _ _ _ _ rfl, Dev.fld_setSeam]
  · rw [Dev.seam_congr (Dev.notice_seams _ _ _ _ _), Dev.seam_setSeam]
    simp
  · rw [Dev.notice_overlay]
    simp

/-! ## The end of a repair (R31, R32) -/

/-- The bundles that a repair leaves are open, and replay resumes. -/
def Dev.reopened (d : Dev) (s n : Nat) : Dev := (d.seamOpen s n).seamResume s

theorem Dev.Follows.seamResume (d : Dev) (s : Nat) : d.Follows (d.seamResume s) :=
  Dev.Follows.of_exceptSeams (d.seamResume_exceptSeams s)

theorem Dev.fld_reopened (d : Dev) (s n : Nat) :
    (d.reopened s n).fld F.GLB_SEAM_STAT_STATE s = (if seamTotal s ≤ n then 2 else 4)
    ∧ (d.reopened s n).fld F.GLB_SEAM_STAT_BUNDLES_UP s = min n (seamTotal s) := by
  unfold Dev.reopened
  rw [Dev.fld_of_exceptSeams (Dev.seamResume_exceptSeams _ s), Dev.fld_of_exceptSeams (Dev.seamResume_exceptSeams _ s)]
  exact d.fld_seamOpen s n

theorem Dev.reopened_overlay (d : Dev) (s n : Nat) : (d.reopened s n).overlay = d.overlay :=
  (Dev.overlay_of_exceptSeams (Dev.seamResume_exceptSeams _ s)).trans (d.seamOpen_overlay s n)

theorem Dev.Follows.reopened (d : Dev) (s n : Nat) : d.Follows (d.reopened s n) :=
  (Dev.Follows.seamOpen d s n).trans (Dev.Follows.seamResume _ s)

/-- A link under repair, with all its bundles in the stripe so far. -/
structure Repairing (s : State) (site : Nat) : Prop where
  seam : 1 ≤ site ∧ site ≤ 20
  clock : s.d.tmu.refOk = true
  state : s.d.fld F.GLB_SEAM_STAT_STATE site = 3
  bundles : s.d.fld F.GLB_SEAM_STAT_BUNDLES_UP site = seamTotal site

section
variable {s : State} {site : Nat} (h : Repairing s site)
include h

/-- Where the check finds no failed lane, the link opens with all its bundles. -/
theorem exec_seamRepairDone_nil : exec (.seamRepairDone site []) s = .next { s with d := s.d.reopened site (seamTotal site) } := by
  obtain ⟨⟨h1, h2⟩, hclock, hstate, hbundles⟩ := h
  have hfloor := seamFloor_lt_seamTotal site
  have hunit : 1 ≤ site ∧ site < 21 := by omega
  have hup : ¬ seamTotal site < seamFloor site := by omega
  show execSeamRepairDone site [] s = _
  simp [execSeamRepairDone, hunit, Dev.seamState, hstate, hclock, hbundles, hup, Dev.reopened]

/-- Where the check finds failed lanes in one bundle only, the link opens with what is left. -/
theorem exec_seamRepairDone_replicate {b n lost : Nat} {made : List Repair} (hb : b < seamTotal site) (hn : n ≠ 0) (hl : lost ≤ 1)
    (hm : s.d.Mended (s.d.repairBundle site b n) site lost made) :
    exec (.seamRepairDone site (List.replicate n b)) s = .next { s with
      d := (((s.d.repairBundle site b n).seamTrain site).notice N.SEAM_REPAIR (Src.die site) 0 0).reopened site
        (seamTotal site - lost) } := by
  obtain ⟨⟨h1, h2⟩, hclock, hstate, hbundles⟩ := h
  have hfloor := seamFloor_lt_seamTotal site
  have hunit : 1 ≤ site ∧ site < 21 := by omega
  have hup : ¬ seamTotal site - lost < seamFloor site := by omega
  have hopen : ¬ (lost = 0 ∧ 0 < seamTotal site ∧ 0 < lost) := by omega
  show execSeamRepairDone site (List.replicate n b) s = _
  simp [execSeamRepairDone, hunit, Dev.seamState, hstate, hclock, hb, hn, List.replicate_dedup, hm.out, hm.bundles, hbundles, hup,
    hopen, Dev.reopened]

end

/-! ## The commands of a seam link -/

theorem Completes.mono {i : Instr} {s : State} {Q R : State → Prop} (h : Completes i s Q) (hqr : ∀ t, Q t → R t) :
    Completes i s R := by
  obtain ⟨t, ht, hq⟩ := h
  exact ⟨t, ht, hqr t hq⟩

/-- A link that opens with fewer bundles than it has raises SEAM_DEGRADED (R32). -/
theorem Dev.Follows.raises_degraded {s t : State} {d : Dev} {site n : Nat} (h : s.d.Follows d) (hn : n < seamTotal site)
    (ht : (d.seamOpen site n).Follows t.d) (hs : Heard s) : Raises s t N.SEAM_DEGRADED (Src.die site) 0 0 := by
  rw [Dev.seamOpen_some hn] at ht
  exact (h.trans (Dev.Follows.seamOpening d site n 4)).raises ht hs

/-- What SEAM_LINK_TRAINED does where the die may train. -/
theorem exec_seamLinkTrained {s : State} {site : Nat} (h : Trains s site) (siteId bundles : Nat) :
    exec (.seamLinkTrained site siteId bundles) s = .next { s with
      d := if siteId ≠ site then ((s.d.seamTrain site).faultSite site).notice N.STRAP_MISMATCH (Src.die site) 0 0
        else if bundles < seamFloor site then ((s.d.seamTrain site).seamTooFew s.mem site).settle
        else (s.d.seamTrain site).seamOpen site bundles } := by
  have hunit : 1 ≤ site ∧ site < 21 := by have := h.seam; omega
  have hleave : s.d.mayLeave site = true := by simp [Dev.mayLeave, h.reset, h.width, h.free]
  have hkept : s.d.loomKept site = true := by
    by_cases hl : 17 ≤ site
    · rcases h.code hl with hp | hp
      · simp [Dev.loomKept, hp]
      · simp [Dev.loomKept, hp]
    · simp [Dev.loomKept, hl]
  show execSeamLinkTrained site siteId bundles s = _
  simp [execSeamLinkTrained, hunit, hleave, hkept, h.prompter, h.clock, Dev.seamState, h.idle]

theorem seamLinkTrained_completes {s : State} {site : Nat} (h : Trains s site) (siteId bundles : Nat) :
    Completes (.seamLinkTrained site siteId bundles) s (fun t => Rest s t
        ∧ (siteId ≠ site → t.d.site site = 3 ∧ (Heard s → Raises s t 0x03 (8 * site) 0 0 ∧ Raises s t 0x02 (8 * site) 0 0))
        ∧ (siteId = site → bundlesLeast site ≤ bundles →
            t.d.fld F.GLB_SEAM_STAT_STATE site = (if bundlesOf site ≤ bundles then 2 else 4)
            ∧ t.d.fld F.GLB_SEAM_STAT_BUNDLES_UP site = min bundles (bundlesOf site)
            ∧ (bundles < bundlesOf site → Heard s → Raises s t 0x07 (8 * site) 0 0))
        ∧ (siteId = site → bundles < bundlesLeast site →
            t.d.site site = if (s.d.seam site).retried = true then 3 else 2)) := by
  have htrain := Dev.Follows.seamTrain s.d site
  refine ⟨_, exec_seamLinkTrained h siteId bundles, ⟨rfl, rfl⟩, ?wrongPort, ?opens, ?tooFew⟩
  case wrongPort =>
    intro hne
    simp only [if_pos hne]
    have hfault := htrain.trans (Dev.Follows.fault (s.d.seamTrain site) site)
    have hraised := Dev.Follows.notice ((s.d.seamTrain site).faultSite site) N.STRAP_MISMATCH (Src.die site) 0 0
    refine ⟨?_, fun hs => ⟨hfault.raises hraised hs, ?_⟩⟩
    · rw [Dev.site_notice]
      exact Dev.site_faultSite _ (by have := h.seam; omega)
    · exact (hfault.trans (Dev.Follows.notice _ _ _ _ _)).raises (Dev.Follows.refl _) hs
  case opens =>
    intro heq hmany
    have hnot : ¬ bundles < seamFloor site := Nat.not_lt.2 hmany
    simp only [if_neg (not_not.2 heq), if_neg hnot]
    obtain ⟨hstate, hup⟩ := (s.d.seamTrain site).fld_seamOpen site bundles
    exact ⟨hstate, hup, fun hfew hs => htrain.raises_degraded hfew (Dev.Follows.refl _) hs⟩
  case tooFew =>
    intro heq hfew
    have hlt : bundles < seamFloor site := hfew
    simp only [if_neg (not_not.2 heq), if_pos hlt]
    rw [Dev.site_settle]
    exact Dev.site_seamTooFew _ _ h.seam.2

/-- What SEAM_FLIT_ARRIVAL does while the reference is present. -/
theorem exec_seamFlitArrival {s : State} {site : Nat} (h : 1 ≤ site ∧ site ≤ 20) (hclock : s.d.tmu.refOk = true) (f : BitVec 1120) :
    exec (.seamFlitArrival site f) s = .next { s with
      d := if s.d.seamUp site then (if seamOk f then s.d.seamGood site f else s.d.seamBad site)
        else s.d.when (seamFld f 63 60 == 4 && seamOk f) (fun d => d.setSeam site ((d.seam site).heed f)) } := by
  have hunit : 1 ≤ site ∧ site < 21 := by omega
  show execSeamFlitArrival site f s = _
  simp [execSeamFlitArrival, hunit, hclock]

/-- The next data flit is delivered, and its credit released; where nothing waits, one acknowledgement leaves (R29, R30). -/
theorem Dev.seamGood_next {d : Dev} {site : Nat} {f : BitVec 1120} (hk : seamFld f 63 60 = 1)
    (hseq : seamFld f 55 44 = (d.seam site).rxNext) :
    ((d.seamGood site f).seam site).inward = (((d.seam site).informed f).took f).inward
    ∧ (d.seamGood site f).seamIn = d.seamIn ++ [(site, seamFld f 59 56, seamPayload f)]
    ∧ ((d.seam site).queue = [] →
        (d.seamGood site f).seamOut = d.seamOut ++ [(site, ((d.seamGood site f).seam site).flit 2 0 0 0)]) := by
  have hnext : seamFld f 55 44 = ((d.setSeam site ((d.seam site).informed f)).seam site).rxNext := by rw [Dev.seam_setSeam]; exact hseq
  rw [Dev.seamGood_data d site hk, Dev.seamTake_next hnext, Dev.seam_setSeam]
  set x := ((d.seam site).informed f).took f
  set d' := Dev.seamEmit _ site (x.flit 2 0 0 0)
  have hseam : d'.seam site = x := Dev.seam_setSeam _ _ _
  refine ⟨?_, Dev.seamIn_of_exceptSeams (d'.seamPump_exceptSeams site), fun hq => ?_⟩
  · rw [Dev.seamPump_inward, hseam]
  · have hempty : (d'.seam site).queue = [] := hseam ▸ hq
    rw [Dev.seamPump_of_empty hempty, hseam]
    rfl

/-- A data flit already received takes nothing anew. -/
theorem Dev.seamGood_again {d : Dev} {site : Nat} {f : BitVec 1120} (hk : seamFld f 63 60 = 1)
    (h1 : 1 ≤ delta (d.seam site).rxNext (seamFld f 55 44) 12) (h2 : delta (d.seam site).rxNext (seamFld f 55 44) 12 ≤ 2048) :
    ((d.seamGood site f).seam site).rxNext = (d.seam site).rxNext := by
  have hseam := d.seam_setSeam site ((d.seam site).informed f)
  rw [Dev.seamGood_data d site hk, Dev.seamTake_again (by rw [hseam]; exact h1) (by rw [hseam]; exact h2)]
  refine (congrArg Seam.rxNext (Dev.seamPump_inward _ _)).trans ?_
  rw [Dev.seam_seamEmit, hseam]
  rfl

/-- A replay request that acknowledges nothing new: all flits of the replay buffer leave again. -/
theorem Dev.seamGood_resends {d : Dev} {site : Nat} {f : BitVec 1120} (hk : seamFld f 63 60 = 3)
    (hack : seamAck (d.seam site).replay (seamFld f 43 32) = none) (hq : (d.seam site).queue = []) :
    (d.seamGood site f).seamOut
      = d.seamOut ++ (d.seam site).replay.map (fun x => (site, (d.seam site).flit 1 x.2.1 x.1 x.2.2)) := by
  have hinf : (d.seam site).informed f = (d.seam site).heed f := by
    unfold Seam.informed
    rw [hack]
    rfl
  obtain ⟨hqueue, hout⟩ := (d.setSeam site ((d.seam site).heed f)).seamReplay_resends site (seamFld f 43 32)
  rw [Dev.seam_setSeam] at hqueue hout
  rw [Dev.seamGood_replay d site hk, hinf, Dev.seamPump_of_empty (hqueue.trans hq), hout]
  rfl

theorem seamFlitArrival_live {s : State} {site : Nat} (h : SeamLive s site) (hclock : s.d.tmu.refOk = true) (f : BitVec 1120) :
    Completes (.seamFlitArrival site f) s (fun t => Rest s t
          ∧ (bitsOf f 31 0 = seamCrc f → seamFld f 63 60 = 1 → seamFld f 55 44 = (s.d.seam site).rxNext →
              (t.d.seam site).rxNext = ((s.d.seam site).rxNext + 1) % 4096
              ∧ (t.d.seam site).released (seamFld f 59 56) = ((s.d.seam site).released (seamFld f 59 56) + 1) % 4096
              ∧ t.d.seamIn = s.d.seamIn ++ [(site, seamFld f 59 56, f.extractLsb' 32 1024)]
              ∧ (t.d.seam site).granted (seamFld f 31 28) = seamFld f 27 16
              ∧ ((s.d.seam site).queue = [] → t.d.seamOut = s.d.seamOut ++ [(site, (t.d.seam site).flit 2 0 0 0)]))
          ∧ (bitsOf f 31 0 = seamCrc f → seamFld f 63 60 = 1 →
              1 ≤ delta (s.d.seam site).rxNext (seamFld f 55 44) 12 → delta (s.d.seam site).rxNext (seamFld f 55 44) 12 ≤ 2048 →
              (t.d.seam site).rxNext = (s.d.seam site).rxNext)
          ∧ (bitsOf f 31 0 ≠ seamCrc f →
              (t.d.seam site).rxNext = (s.d.seam site).rxNext
              ∧ t.d.seamOut = s.d.seamOut ++ [(site, (s.d.seam site).flit 3 0 0 0)])
          ∧ (bitsOf f 31 0 = seamCrc f → seamFld f 63 60 = 3 → seamAck (s.d.seam site).replay (seamFld f 43 32) = none →
              (s.d.seam site).queue = [] →
              t.d.seamOut = s.d.seamOut ++ (s.d.seam site).replay.map (fun x => (site, (s.d.seam site).flit 1 x.2.1 x.1 x.2.2)))) := by
  obtain ⟨h1, h20, hlive⟩ := (seamLive_iff s site).1 h
  have hexec := exec_seamFlitArrival ⟨h1, h20⟩ hclock f
  rw [if_pos hlive] at hexec
  refine ⟨_, hexec, ⟨rfl, rfl⟩, ?next, ?again, ?bad, ?replay⟩
  case next =>
    intro hc hk hseq
    simp only [if_pos (seamOk_of_kind hc (by omega))]
    obtain ⟨hin, hdelivered, hout⟩ := Dev.seamGood_next hk hseq
    refine ⟨congrArg Seam.rxNext hin, ?_, hdelivered, ?_, hout⟩
    · refine (congrArg (Seam.released · (seamFld f 59 56)) hin).trans ?_
      simp [Seam.inward, Seam.took, Seam.released, Seam.informed, Seam.heed]
    · refine (congrArg (Seam.granted · (seamFld f 31 28)) hin).trans ?_
      simp [Seam.inward, Seam.took, Seam.granted, Seam.informed, Seam.heed]
  case again =>
    intro hc hk hlo hhi
    simp only [if_pos (seamOk_of_kind hc (by omega))]
    exact Dev.seamGood_again hk hlo hhi
  case bad =>
    intro hc
    simp only [seamOk_of_bad hc]
    exact s.d.seamBad_asks site
  case replay =>
    intro hc hk hack hq
    simp only [if_pos (seamOk_of_kind hc (by omega))]
    exact Dev.seamGood_resends hk hack hq

/-- On a link that is not live only a good training flit counts: it advertises credit (R29). -/
theorem seamFlitArrival_notLive {s : State} {site : Nat} (h1 : 1 ≤ site) (h20 : site ≤ 20) (h : ¬ SeamLive s site)
    (hclock : s.d.tmu.refOk = true) (f : BitVec 1120) :
    Completes (.seamFlitArrival site f) s (fun t => Rest s t
          ∧ (bitsOf f 31 0 = seamCrc f → seamFld f 63 60 = 4 → (t.d.seam site).granted (seamFld f 31 28) = seamFld f 27 16)
          ∧ (bitsOf f 31 0 ≠ seamCrc f ∨ seamFld f 63 60 ≠ 4 → t = s)) := by
  have hdead : ¬ s.d.seamUp site = true := fun hup => h ((seamLive_iff s site).2 ⟨h1, h20, hup⟩)
  have hexec := exec_seamFlitArrival ⟨h1, h20⟩ hclock f
  rw [if_neg hdead] at hexec
  refine ⟨_, hexec, ⟨rfl, rfl⟩, fun hc hk => ?_, fun hno => ?_⟩
  · have htake : (seamFld f 63 60 == 4 && seamOk f) = true := by simp [hk, seamOk_of_kind hc (by omega)]
    simp only [htake, Dev.when_true, Dev.seam_setSeam]
    simp [Seam.granted, Seam.heed]
  · have hskip : (seamFld f 63 60 == 4 && seamOk f) = false := by
      rcases hno with hc | hk
      · simp [seamOk_of_bad hc]
      · simp [hk]
    simp only [hskip, Dev.when_false]

theorem seamRepairTrigger_completes {s : State} {site : Nat} (h : SeamLive s site)
    (hmust : (s.d.seam site).run ≥ 8 ∨ (s.d.seam site).asked ≥ 8 ∨ (s.d.seam site).bad.length > 64 ∨ (s.d.seam site).farBad.length > 64) :
    Completes (.seamRepairTrigger site) s (fun t =>
      t.d.fld F.GLB_SEAM_STAT_STATE site = 3 ∧ Only id s t (fun r i => r = .GLB_SEAM_STAT ∧ i = site)) := by
  obtain ⟨h1, h20, hlive⟩ := (seamLive_iff s site).1 h
  have hunit : 1 ≤ site ∧ site < 21 := by omega
  have hm : (s.d.seam site).mustRepair = true := by
    simp only [Seam.mustRepair, Bool.or_eq_true, decide_eq_true_eq]
    omega
  have hexec : exec (.seamRepairTrigger site) s = .next { s with d := s.d.setFld F.GLB_SEAM_STAT_STATE site 3 } := by
    show execSeamRepairTrigger site s = _
    simp [execSeamRepairTrigger, hunit, hlive, hm]
  refine ⟨_, hexec, Dev.fld_setFld_self _ _ _ _ (by decide) (by decide), ⟨rfl, rfl⟩, rfl, fun r i _ hr => ?_⟩
  exact Dev.rd_setFld_of_ne _ _ _ _ _ _ hr

/-! ## The end of a repair, as SEAM_REPAIR_DONE shows it -/

section
variable {s : State} {site : Nat} (h : Repairing s site)
include h

theorem seamRepairDone_nothingFailed :
    Completes (.seamRepairDone site []) s (fun t => Rest s t ∧ t.d.fld F.GLB_SEAM_STAT_STATE site = 2) :=
  ⟨_, exec_seamRepairDone_nil h, ⟨rfl, rfl⟩, (s.d.fld_reopened site (seamTotal site)).1.trans (if_pos le_rfl)⟩

theorem seamRepairDone_understudy {b : Nat} (hb : b < bundlesOf site) (hout : b ∉ (s.d.seam site).out)
    (hroom : s.d.overlay.length < 1024) (hu : b ∉ s.d.understudies site) :
    Completes (.seamRepairDone site [b]) s (fun t => Rest s t ∧ t.d.fld F.GLB_SEAM_STAT_STATE site = 2
      ∧ (∃ time, t.d.overlay = s.d.overlay ++ [⟨2, site, b, b, time⟩])
      ∧ (Heard s → Raises s t 0x06 (8 * site) 0 0)) := by
  obtain ⟨time, hm⟩ := Dev.repairBundle_understudy hout hu hroom
  refine ⟨_, exec_seamRepairDone_replicate h (n := 1) hb (by omega) (by omega) hm, ⟨rfl, rfl⟩, ?_, ⟨time, ?_⟩, ?_⟩
  · exact (Dev.fld_reopened _ site _).1.trans (if_pos le_rfl)
  · rw [Dev.reopened_overlay, Dev.notice_overlay]
    exact hm.overlay
  · exact (hm.follows.trans (Dev.Follows.seamTrain _ site)).raises (Dev.Follows.reopened _ _ _)

/-- A bundle whose understudy is taken, or with two failed lanes, leaves the link DEGRADED (R31, R32). -/
theorem seamRepairDone_bundleOut {b n : Nat} (hb : b < bundlesOf site) (hout : b ∉ (s.d.seam site).out) (hn : n ≠ 0)
    (hlost : n ≠ 1 ∨ b ∈ s.d.understudies site) :
    Completes (.seamRepairDone site (List.replicate n b)) s (fun t => Rest s t
      ∧ t.d.fld F.GLB_SEAM_STAT_STATE site = 4 ∧ t.d.fld F.GLB_SEAM_STAT_BUNDLES_UP site = bundlesOf site - 1
      ∧ t.d.overlay = s.d.overlay ∧ (Heard s → Raises s t 0x07 (8 * site) 0 0)) := by
  have hm := Dev.repairBundle_out hout hlost
  have hless : seamTotal site - 1 < seamTotal site := by have := seamFloor_lt_seamTotal site; omega
  refine ⟨_, exec_seamRepairDone_replicate h hb hn le_rfl hm, ⟨rfl, rfl⟩, ?_, ?_, ?_, ?_⟩
  · exact (Dev.fld_reopened _ site _).1.trans (if_neg (by omega))
  · exact (Dev.fld_reopened _ site _).2.trans (Nat.min_eq_left hless.le)
  · rw [Dev.reopened_overlay, Dev.notice_overlay]
    exact hm.overlay.trans (List.append_nil _)
  · exact ((hm.follows.trans (Dev.Follows.seamTrain _ site)).trans (Dev.Follows.notice _ _ _ _ _)).raises_degraded hless
      (Dev.Follows.seamResume _ site)

end

end Sys2Proof.Machine

namespace Sys2Proof.Claims
open Sys2Proof.Machine

/-- Settles O25: each command's outcome is a named device, and the clauses read off what its operations change. -/
theorem seamLinks : Obligations.SeamLinks := by
  intro s site
  refine ⟨fun siteId bundles h => seamLinkTrained_completes h siteId bundles, fun f h hclock => seamFlitArrival_live h hclock f,
    fun f h1 h20 h hclock => seamFlitArrival_notLive h1 h20 h hclock f, seamRepairTrigger_completes, ?repair⟩
  intro h1 h20 hclock hstate hbundles
  have h : Repairing s site := ⟨⟨h1, h20⟩, hclock, hstate, hbundles⟩
  refine ⟨seamRepairDone_nothingFailed h, fun b hb hout hroom => ⟨seamRepairDone_understudy h hb hout hroom, fun hu => ?_, ?_⟩⟩
  · exact seamRepairDone_bundleOut h (n := 1) hb hout (by omega) (.inr hu)
  · refine (seamRepairDone_bundleOut h (n := 2) hb hout (by omega) (.inl (by omega))).mono ?_
    rintro t ⟨hrest, -, hup, hoverlay, -⟩
    exact ⟨hrest, hup, hoverlay⟩

end Sys2Proof.Claims
end

section
/-! Strike, seal, launch and notices (R45, R287 to R294): what ending a packet, counting, logging and purging leave alone, the
packets that the device answers with, and the statement about these commands. -/

namespace Sys2Proof.Machine
open Sys2Proof.Claims

/-! ## What an operation leaves alone -/

/-- A field reads the same where the register words and the fuses are the same. -/
theorem Dev.fld_of_regs {d d' : Dev} (h : d'.regs = d.regs) (k : d'.fuse = d.fuse) (f : Fld) (i : Nat) : d'.fld f i = d.fld f i :=
  congrArg (bitsOf · _ _) (Dev.rd_of_regs h k _ _)

/-- `d'` is `d` but for what `hide` does not show and for register families that `may` names. -/
structure Dev.Within {α : Type} (hide : Dev → α) (may : RF → Bool) (d d' : Dev) : Prop where
  still : hide d' = hide d
  regs : ∀ r i, may r = false → d'.rd r i = d.rd r i

namespace Dev.Within
variable {α β : Type} {hide : Dev → α} {may : RF → Bool} {a b c d : Dev}

theorem refl (d : Dev) : Dev.Within hide may d d := ⟨rfl, fun _ _ _ => rfl⟩

theorem trans (h : Dev.Within hide may a b) (k : Dev.Within hide may b c) : Dev.Within hide may a c :=
  ⟨k.still.trans h.still, fun r i hr => (k.regs r i hr).trans (h.regs r i hr)⟩

/-- What shows less and lets more registers change holds too. -/
theorem mono {hide' : Dev → β} {may' : RF → Bool} (h : Dev.Within hide may a b) (hs : hide b = hide a → hide' b = hide' a)
    (hm : ∀ r, may' r = false → may r = false) : Dev.Within hide' may' a b :=
  ⟨hs h.still, fun r i hr => h.regs r i (hm r hr)⟩

theorem fld (h : Dev.Within hide may a b) (f : Fld) (i : Nat) (hf : may f.rf = false) : b.fld f i = a.fld f i :=
  congrArg (bitsOf · _ _) (h.regs _ _ hf)

theorem each {γ : Type} {f : Dev → γ → Dev} (h : Dev.Within hide may a d) (l : List γ)
    (hf : ∀ d x, Dev.Within hide may a d → Dev.Within hide may a (f d x)) : Dev.Within hide may a (d.each l f) := by
  induction l generalizing d with
  | nil => exact h
  | cons x l ih => exact ih (hf d x h)

end Dev.Within

/-! ## What counting and logging leave alone -/

/-- A device but for registers, the notice relay, the limits on notices, and pending counts. -/
def Dev.unlogged (d : Dev) : Dev := { d with regs := [], relay := [], limits := [], cntPend := [] }

/-- `d'` is `d` with events counted and notices logged. -/
def Dev.Logs (d d' : Dev) : Prop := Dev.Within Dev.unlogged RF.logging d d'

/-- The registers of the log with a notice in its next entry (R333). -/
def Dev.nlogWritten (d : Dev) (bits : BitVec 128) (remote : Option (BitVec 32)) : Dev :=
  let seq := d.fld F.GLB_NLOG_STAT_NEXT_SEQ 0
  ((((d.setFld F.GLB_NLOG_A_HIGH (seq % 4096) (bitsOf bits 127 64)).setFld F.GLB_NLOG_B_LOW (seq % 4096) (bitsOf bits 63 0)).setFld
    F.GLB_NLOG_C_SEQ (seq % 4096) seq).setFld F.GLB_NLOG_C_REMOTE (seq % 4096) (bit remote.isSome)).setFld
    F.GLB_NLOG_STAT_NEXT_SEQ 0 (seq + 1)

theorem Dev.logNotice_eq (d : Dev) (bits : BitVec 128) (remote : Option (BitVec 32)) :
    d.logNotice bits remote = { d.nlogWritten bits remote with
      relay := d.relay ++ [⟨d.fld F.GLB_NLOG_STAT_NEXT_SEQ 0, bits, remote,
        (d.nlogWritten bits remote).subscribers (bitsOf bits 119 118)⟩] } := rfl

namespace Dev.Logs
variable {a d d' : Dev}

/-- A change of the relay, the limits or the pending counts alone. -/
theorem of_regs (h : a.Logs d) (hs : d'.unlogged = d.unlogged) (hr : d'.regs = d.regs) (hf : d'.fuse = d.fuse) : a.Logs d' :=
  Dev.Within.trans h ⟨hs, fun r i _ => Dev.rd_of_regs hr hf r i⟩

theorem setRelay (h : a.Logs d) (l : List Relay) : a.Logs { d with relay := l } := h.of_regs rfl rfl rfl

theorem setFld (h : a.Logs d) {f : Fld} (hf : f.rf.logging = true) (i v : Nat) : a.Logs (d.setFld f i v) := by
  refine Dev.Within.trans h ⟨rfl, fun r j hr => Dev.rd_setFld_of_ne _ _ _ _ _ _ ?_⟩
  rintro ⟨rfl, -⟩
  simp [hf] at hr

theorem addCount (h : a.Logs d) (inst idx n : Nat) : a.Logs (d.addCount inst idx n) := by
  unfold Dev.addCount
  have hval : F.CNT_VAL_VALUE.rf.logging = true := rfl
  have hwrap : F.CNT_VAL_WRAP.rf.logging = true := rfl
  dsimp only
  split
  · exact h.setFld hval _ _
  · split
    · exact (h.setFld hval _ _).setFld hval _ _
    · exact (h.setFld hval _ _).setFld hwrap _ _

theorem count (h : a.Logs d) (inst idx n : Nat) : a.Logs (d.count inst idx n) := by
  unfold Dev.count
  repeat' split
  · exact h
  · exact h
  · exact h.addCount _ _ _
  · exact h.of_regs rfl rfl rfl

theorem countEv (h : a.Logs d) (inst ev n : Nat) (x : EvCtx) : a.Logs (d.countEv inst ev n x) := by
  refine Dev.Within.each h _ fun b j (hb : a.Logs b) => ?_
  split
  · exact hb.count _ _ _
  · exact hb

theorem discardAs (h : a.Logs d) (p : Pkt) (c : Nat) : a.Logs (d.discardAs p c) := by
  unfold Dev.discardAs
  split
  · exact h.count _ _ _
  · exact (h.count _ _ _).countEv _ _ _ _

theorem nlogWritten (h : a.Logs d) (bits : BitVec 128) (r : Option (BitVec 32)) : a.Logs (d.nlogWritten bits r) :=
  ((((h.setFld rfl _ _).setFld rfl _ _).setFld rfl _ _).setFld rfl _ _).setFld rfl _ _

theorem logNotice (h : a.Logs d) (bits : BitVec 128) (r : Option (BitVec 32)) : a.Logs (d.logNotice bits r) := by
  rw [Dev.logNotice_eq]
  exact (h.nlogWritten bits r).setRelay _

theorem notice (h : a.Logs d) (ty src prod data : Nat) : a.Logs (d.notice ty src prod data) := by
  unfold Dev.notice Dev.noticeSev
  split
  · exact h
  · exact h.logNotice _ _

theorem noticeLim (h : a.Logs d) (ty src prod data key : Nat) : a.Logs (d.noticeLim ty src prod data key) := by
  have hl : a.Logs { d with limits := d.limits.put (ty * 2 ^ 32 + key) d.tmu.total } := h.of_regs rfl rfl rfl
  unfold Dev.noticeLim
  dsimp only
  split
  · split
    · exact h
    · exact hl.notice _ _ _ _
  · exact hl.notice _ _ _ _

end Dev.Logs

/-! ## What the end of a packet leaves alone -/

/-- A device but for registers, buffers, the credit of lanes, and what lanes receive. -/
def Dev.sansCells (d : Dev) : Dev := { d with regs := [], net := { d.net with lanes := [], bufs := [], lvs := [] } }

/-- The one register family that freed cells change: what productions use. -/
def RF.counted (r : RF) : Bool := r == .WRD_PROD

/-- `d'` is `d` with cells freed. -/
def Dev.Frees (d d' : Dev) : Prop := Dev.Within Dev.sansCells RF.counted d d'

namespace Dev.Frees
variable {a d d' : Dev}

/-- A change that shows in no register and in nothing beside cells. -/
theorem of_regs (h : a.Frees d) (hs : d'.sansCells = d.sansCells) (hr : d'.regs = d.regs) : a.Frees d' := by
  have hf : d'.fuse = d.fuse := by have e := congrArg Dev.fuse hs; exact e
  exact Dev.Within.trans h ⟨hs, fun r i _ => Dev.rd_of_regs hr hf r i⟩

theorem subUsed (h : a.Frees d) (q n : Nat) : a.Frees (d.subUsed q n) := by
  refine Dev.Within.trans h ⟨rfl, fun r j hr => Dev.rd_setFld_of_ne _ _ _ _ _ _ ?_⟩
  rintro ⟨rfl, -⟩
  simp [RF.counted, F.WRD_PROD_USED] at hr

theorem setLv (h : a.Frees d) (k : Nat) (x : LaneVl) : a.Frees (d.setLv k x) := h.of_regs rfl rfl

theorem grant (h : a.Frees d) (k : Nat) : a.Frees (d.grant k) := by
  have hback : a.Frees (d.giveBack k) := by
    unfold Dev.giveBack
    dsimp only
    split
    · exact h
    · exact h.setLv _ _
  have hshared : a.Frees ((d.giveBack k).grantShared k) := by
    unfold Dev.grantShared
    dsimp only
    split
    · exact hback.setLv _ _
    · exact hback
  unfold Dev.grant
  split
  · exact hshared
  · exact h

theorem returnCells (h : a.Frees d) (b : Buf) (n : Nat) : a.Frees (d.returnCells b n) := by
  have hused : a.Frees (if b.pool = .coll ∨ b.pool = .collDue then d else d.whenSome b.prod (fun q d => d.subUsed q n)) := by
    split
    · exact h
    · cases b.prod with
      | none => exact h
      | some q => exact h.subUsed q n
  unfold Dev.returnCells
  dsimp only
  split
  · exact (hused.setLv _ _).grant _
  · exact (hused.setLv _ _).grant _
  · exact (hused.setLv _ _).grant _
  · exact hused
  · exact hused
  · exact hused

theorem freeBuf (h : a.Frees d) (id : Nat) : a.Frees (d.freeBuf id) := by
  unfold Dev.freeBuf
  split
  · exact h
  · split
    · exact h.of_regs rfl rfl
    · exact (h.of_regs (d' := { d with net := { d.net with bufs := d.net.bufs.erase id } }) rfl rfl).returnCells _ _

theorem trimBuf (h : a.Frees d) (id : Nat) : a.Frees (d.trimBuf id) := by
  unfold Dev.trimBuf
  split
  · exact h
  · next b _ =>
    split
    · exact (h.of_regs (d' := { d with net := { d.net with bufs := d.net.bufs.put id { b with cells := d.cellsNeeded id } } })
        rfl rfl).returnCells _ _
    · exact h

theorem dropPkt (h : a.Frees d) (id : Nat) : Dev.Frees (a.dropPkt id) (d.dropPkt id) :=
  ⟨congrArg (fun x => x.dropPkt id) h.still, fun r i hr => by
    rw [Dev.rd_dropPkt, Dev.rd_dropPkt]
    exact h.regs r i hr⟩

/-- A packet that ends is gone, and its cells are freed. -/
theorem endPkt {d : Dev} {id : Nat} {p : Pkt} (h : d.pkt id = some p) : Dev.Frees (d.dropPkt id) (d.endPkt id) := by
  unfold Dev.endPkt
  rw [h]
  have hself : d.Frees d := Dev.Within.refl d
  exact (((hself.freeBuf _).dropPkt id).trimBuf _).of_regs rfl rfl

end Dev.Frees

/-! ## Packets of the device's own -/

/-- With nothing to route, routing changes nothing. -/
theorem Dev.settle_of_empty {d : Dev} (h : d.net.outbox = []) : d.settle = d := by
  have hmade : d.sendMade = d := by
    have hnet : { d.net with outbox := [] } = d.net := by rw [← h]
    unfold Dev.sendMade
    rw [h, Dev.each_nil, hnet]
  unfold Dev.settle
  rw [hmade, hmade]

theorem Dev.ownFn_congr {d d' : Dev} (h : d'.rd .TBL_ROUTE_CTL 0 = d.rd .TBL_ROUTE_CTL 0) (fn : Nat) : d'.ownFn fn = d.ownFn fn := by
  have hca : d'.ownCa = d.ownCa := congrArg (bitsOf · _ _) h
  unfold Dev.ownFn
  rw [hca]

theorem Dev.ownFn_setFld (d : Dev) {f : Fld} (hf : f.rf ≠ .TBL_ROUTE_CTL) (i v fn : Nat) : (d.setFld f i v).ownFn fn = d.ownFn fn :=
  Dev.ownFn_congr (Dev.rd_setFld_of_ne _ _ _ _ _ _ fun e => hf e.1.symm) fn

section
variable (dst src : BitVec 32) (prod gen opc len tc : Nat)

theorem mkHdr_toNat : (mkHdr dst src prod gen opc len tc).toNat
    = dst.toNat * 2 ^ 96 + src.toNat * 2 ^ 64 + prod % 4096 * 2 ^ 52 + gen % 256 * 2 ^ 44
      + opc % 256 * 2 ^ 36 + len % 128 * 2 ^ 29 + tc % 8 * 2 ^ 24 := by
  have hd := dst.isLt
  have hs := src.isLt
  unfold mkHdr
  rw [BitVec.toNat_ofNat]
  omega

theorem mkHdr_dst : (mkHdr dst src prod gen opc len tc).extractLsb' 96 32 = dst := by
  apply BitVec.eq_of_toNat_eq
  rw [BitVec.extractLsb'_toNat, mkHdr_toNat, Nat.shiftRight_eq_div_pow]
  have hd := dst.isLt
  have hs := src.isLt
  omega

theorem mkHdr_src : (mkHdr dst src prod gen opc len tc).extractLsb' 64 32 = src := by
  apply BitVec.eq_of_toNat_eq
  rw [BitVec.extractLsb'_toNat, mkHdr_toNat, Nat.shiftRight_eq_div_pow]
  have hs := src.isLt
  omega

theorem mkHdr_prod : bitsOf (mkHdr dst src prod gen opc len tc) 63 52 = prod % 4096 := by
  unfold bitsOf
  rw [mkHdr_toNat, Nat.shiftRight_eq_div_pow]
  omega

theorem mkHdr_gen : bitsOf (mkHdr dst src prod gen opc len tc) 51 44 = gen % 256 := by
  unfold bitsOf
  rw [mkHdr_toNat, Nat.shiftRight_eq_div_pow]
  omega

theorem mkHdr_opc : bitsOf (mkHdr dst src prod gen opc len tc) 43 36 = opc % 256 := by
  unfold bitsOf
  rw [mkHdr_toNat, Nat.shiftRight_eq_div_pow]
  omega

theorem mkHdr_tc : bitsOf (mkHdr dst src prod gen opc len tc) 26 24 = tc % 8 := by
  unfold bitsOf
  rw [mkHdr_toNat, Nat.shiftRight_eq_div_pow]
  omega

end

theorem Pkt.prod_lt (p : Pkt) : p.prod < 4096 := bitsOf_lt _ _ _
theorem Pkt.gen_lt (p : Pkt) : p.gen < 256 := bitsOf_lt _ _ _
theorem Pkt.tc_lt (p : Pkt) : p.tc < 8 := bitsOf_lt _ _ _

/-- A management packet carries the fields that it is made of, cut to their widths. -/
theorem mgmtPkt_mgmt {s : State} {d : Dev} (h : d.ownFn 0 = s.d.ownFn 0) (dst : BitVec 32) (prod gen opc tc status : Nat)
    (bs : List Byte) (ho : opc < 256) (hs : status < 16) :
    Mgmt s (d.mgmtPkt dst prod gen opc tc status bs) dst (prod % 4096) (gen % 256) opc (tc % 8) status where
  dst := mkHdr_dst _ _ _ _ _ _ _
  src := (mkHdr_src _ _ _ _ _ _ _).trans h
  prod := mkHdr_prod _ _ _ _ _ _ _
  gen := mkHdr_gen _ _ _ _ _ _ _
  opc := (mkHdr_opc _ _ _ _ _ _ _).trans (Nat.mod_eq_of_lt ho)
  tc := mkHdr_tc _ _ _ _ _ _ _
  status := by
    show bitsOf (BitVec.ofNat 32 (status * 2 ^ 20)) 23 20 = status
    unfold bitsOf
    rw [BitVec.toNat_ofNat, Nat.shiftRight_eq_div_pow]
    omega
  vl := rfl

/-- The same for an answer to a packet, whose PROD, GEN and TC it takes over. -/
theorem mgmtPkt_answers {s : State} {d : Dev} (h : d.ownFn 0 = s.d.ownFn 0) (p : Pkt) {opc status : Nat} (bs : List Byte)
    (ho : opc < 256) (hs : status < 16) :
    Mgmt s (d.mgmtPkt p.src p.prod p.gen opc p.tc status bs) p.src p.prod p.gen opc p.tc status := by
  have hm := mgmtPkt_mgmt h p.src p.prod p.gen opc p.tc status bs ho hs
  rwa [Nat.mod_eq_of_lt p.prod_lt, Nat.mod_eq_of_lt p.gen_lt, Nat.mod_eq_of_lt p.tc_lt] at hm

/-! ## Payload bytes -/

theorem ofBytes_append (l r : List Byte) : ofBytes (l ++ r) = ofBytes l * 256 ^ r.length + ofBytes r := by
  conv_lhs => unfold ofBytes
  rw [List.foldl_append, ofBytes_foldl]
  rfl

/-- A number read over two stretches of bytes. -/
theorem bytesAt_add (bs : List Byte) (off m n : Nat) :
    bytesAt bs off (m + n) = bytesAt bs off m * 256 ^ n + bytesAt bs (off + m) n := by
  unfold bytesAt
  dsimp only
  rw [List.take_add, List.drop_drop, ofBytes_append]
  simp only [List.length_append, List.length_take, List.length_drop]
  rcases Nat.le_total m (bs.length - off) with hle | hle
  · rw [Nat.min_eq_left hle, Nat.sub_self, Nat.pow_zero, Nat.mul_one, Nat.add_mul, Nat.mul_assoc, ← Nat.pow_add]
    congr 3 <;> omega
  · have hnone : ((bs.drop (off + m)).take n) = [] := by
      rw [List.drop_eq_nil_of_le (by omega), List.take_nil]
    rw [hnone, Nat.min_eq_right hle, show bs.length - (off + m) = 0 by omega]
    simp only [Nat.min_zero, Nat.pow_zero, ofBytes_nil, Nat.zero_mul, Nat.add_zero, Nat.mul_one]
    rw [Nat.mul_assoc, ← Nat.pow_add]
    congr 2
    omega

/-- A stretch of a number's bytes. -/
theorem bytesAt_mid (bs : List Byte) (m n k : Nat) : bytesAt bs 0 (m + n + k) / 256 ^ k % 256 ^ n = bytesAt bs m n := by
  rw [bytesAt_add, bytesAt_add, Nat.zero_add, Nat.mul_comm _ (256 ^ k), Nat.mul_add_div (by positivity),
    Nat.div_eq_of_lt (bytesAt_lt _ _ _), Nat.add_zero, Nat.add_comm,
    Nat.add_mul_mod_self_right, Nat.mod_eq_of_lt (bytesAt_lt _ _ _)]

/-- Bits of the low part of a word in two parts. -/
theorem bitsOf_append {m n : Nat} (x : BitVec m) (y : BitVec n) {hi lo : Nat} (h : hi < n) (hl : lo ≤ hi) :
    bitsOf (x ++ y) hi lo = bitsOf y hi lo := by
  apply Nat.eq_of_testBit_eq
  intro i
  rw [testBit_bitsOf, testBit_bitsOf, BitVec.getLsbD_append]
  by_cases hi' : i < hi - lo + 1
  · have hlow : lo + i < n := by omega
    simp [hlow]
  · simp [hi']

theorem bitsOf_ofNat {w v : Nat} (h : v < 2 ^ w) (hi lo : Nat) : bitsOf (BitVec.ofNat w v) hi lo = v >>> lo % 2 ^ (hi - lo + 1) := by
  unfold bitsOf
  rw [BitVec.toNat_ofNat, Nat.mod_eq_of_lt h]

/-- A field of the head payload of a management packet is where its bytes put it. -/
theorem mgmtPkt_at (d : Dev) (dst : BitVec 32) (prod gen opc tc status : Nat) (bs : List Byte) {m n : Nat}
    (hn : 1 ≤ n) (h : m + n ≤ 40) : (d.mgmtPkt dst prod gen opc tc status bs).at (m + 4) n = bytesAt bs m n := by
  obtain ⟨k, hk⟩ : ∃ k, 40 = m + n + k := ⟨40 - m - n, by omega⟩
  have hlt : bytesAt bs 0 40 < 2 ^ 320 := (bytesAt_lt bs 0 40).trans_eq (by rw [show 320 = 8 * 40 by rfl, Nat.pow_mul])
  have hlo : 352 - 8 * (m + 4 + n) = 8 * k := by omega
  have hwidth : 351 - 8 * (m + 4) - 8 * k + 1 = 8 * n := by omega
  show bitsOf (BitVec.ofNat 32 (status * 2 ^ 20) ++ BitVec.ofNat 320 (bytesAt bs 0 40)) (351 - 8 * (m + 4)) (352 - 8 * (m + 4 + n)) = _
  rw [bitsOf_append _ _ (by omega) (by omega), hlo, bitsOf_ofNat hlt, hwidth, Nat.shiftRight_eq_div_pow, Nat.pow_mul, Nat.pow_mul, hk]
  exact bytesAt_mid bs m n k

/-- Bytes at the front of a list, and bytes past them. -/
theorem bytesAt_front (v : Nat) {n : Nat} (bs : List Byte) : bytesAt (bytesOf n v ++ bs) 0 n = ofBytes (bytesOf n v) := by
  unfold bytesAt
  simp

theorem bytesAt_past (v : Nat) {n : Nat} (bs : List Byte) (k : Nat) : bytesAt (bytesOf n v ++ bs) n k = bytesAt bs 0 k := by
  unfold bytesAt
  simp

theorem ofBytes_bytesOf (n v : Nat) : ofBytes (bytesOf n v) = v % 256 ^ n := by
  induction n with
  | zero => simp [bytesOf, Nat.mod_one]
  | succ n ih =>
    have hbyte : 2 ^ (8 * n) = 256 ^ n := by rw [Nat.pow_mul]
    rw [bytesOf, ofBytes_cons, ih, length_bytesOf, BitVec.toNat_ofNat, Nat.shiftRight_eq_div_pow, hbyte,
      show 256 ^ (n + 1) = 256 ^ n * 256 by rfl,
      Nat.mod_mul (x := v) (a := 256 ^ n), Nat.add_comm, Nat.mul_comm]

namespace Dev.Soft
variable {d d' : Dev}

theorem strikes (h : d.Soft d') : d'.strikes = d.strikes := by have e := congrArg Dev.strikes h.hard; exact e
theorem launches (h : d.Soft d') : d'.launches = d.launches := by have e := congrArg Dev.launches h.hard; exact e
theorem keys (h : d.Soft d') : d'.keys = d.keys := by have e := congrArg Dev.keys h.hard; exact e

end Dev.Soft

theorem Dev.soft_settle (d : Dev) : d.Soft d.settle := (Dev.Soft.refl d).settle

/-! ## A packet at a function of the device -/

section
variable {s : State} {p : Pkt} {fn vl opc : Nat} (h : AtFn s p fn vl opc)
include h

theorem pkt_of_atFn : s.d.pkt p.id = some p := by
  unfold Dev.pkt
  rw [h.only]
  simp

theorem frees_of_atFn : Dev.Frees (s.d.dropPkt p.id) (s.d.endPkt p.id) := Dev.Frees.endPkt (pkt_of_atFn h)

theorem rd_endPkt_of_atFn {r : RF} (hr : r ≠ .WRD_PROD) (i : Nat) : (s.d.endPkt p.id).rd r i = s.d.rd r i := by
  have hc : r.counted = false := by simpa [RF.counted] using hr
  exact ((frees_of_atFn h).regs r i hc).trans (Dev.rd_dropPkt _ _ _ _)

theorem fld_endPkt_of_atFn (f : Fld) (hf : f.rf ≠ .WRD_PROD) (i : Nat) : (s.d.endPkt p.id).fld f i = s.d.fld f i :=
  congrArg (bitsOf · _ _) (rd_endPkt_of_atFn h hf i)

theorem ownFn_endPkt_of_atFn (fn : Nat) : (s.d.endPkt p.id).ownFn fn = s.d.ownFn fn :=
  Dev.ownFn_congr (rd_endPkt_of_atFn h (by decide) 0) fn

/-- What is the same, cells and packets apart, with the packet ended. -/
theorem keeps_of_atFn {α : Type} (f : Dev → α) (hcells : ∀ d : Dev, f d.sansCells = f d) (hpkts : f (s.d.dropPkt p.id) = f s.d) :
    f (s.d.endPkt p.id) = f s.d := by
  rw [← hcells, (frees_of_atFn h).still, hcells, hpkts]

theorem pkts_endPkt_of_atFn : (s.d.endPkt p.id).net.pkts = [] := by
  have e := congrArg (fun d : Dev => d.net.pkts) (frees_of_atFn h).still
  refine e.trans ?_
  show s.d.net.pkts.filter _ = []
  rw [h.only]
  simp

theorem outbox_endPkt_of_atFn : (s.d.endPkt p.id).net.outbox = [] :=
  (keeps_of_atFn h (fun d => d.net.outbox) (fun _ => rfl) rfl).trans h.calm.1

end

/-- The whole packet of an opcode at FN 0x00 is there for its command. -/
theorem atMgmt_of_atFn {s : State} {p : Pkt} {opc : Nat} (h : AtFn s p 0 0 opc) : s.d.atMgmt p.id opc = some p := by
  unfold Dev.atMgmt
  rw [pkt_of_atFn h]
  simp [h.place, h.vl, h.opc, h.whole]

/-! ## Commands whose last part routes what they have made -/

section
variable {i : Instr} {s : State} {d : Dev}

/-- A command that makes the device `d` and then routes what that has made. -/
def MakesThenRoutes (i : Instr) (s : State) (d : Dev) : Prop :=
  made i s = .next { s with d := d } ∧ exec i s = sendOut (made i s)

variable (h : MakesThenRoutes i s d)
include h

theorem exec_of_makes : exec i s = .next { s with d := d.settle } := by
  rw [h.2, h.1]
  rfl

theorem completes_of_makes {Q : State → Prop} (hq : Q { s with d := d.settle }) : Completes i s Q := ⟨_, exec_of_makes h, hq⟩

/-- Where nothing is made, nothing is routed. -/
theorem completes_of_makesNothing (hout : d.net.outbox = []) {Q : State → Prop} (hq : Q { s with d := d }) : Completes i s Q :=
  completes_of_makes h (by rwa [Dev.settle_of_empty hout])

theorem sendsSome_of_makes {Q : Pkt → Prop} {q : Pkt} (hin : q ∈ d.net.outbox) (hq : Q q) : SendsSome i s Q :=
  ⟨q, ⟨_, h.1, exec_of_makes h, hin⟩, hq⟩

end

theorem Dev.mem_outbox_send (d : Dev) (p : Pkt) : p ∈ (d.send p).net.outbox := by simp [Dev.send]

/-! ## STRIKE and SEAL (R287, R288) -/

section
variable {s : State} {p : Pkt} {opc : Nat} (h : AtFn s p 0 0 opc)
include h

theorem prodState_endPkt_of_atFn (q : Nat) : (s.d.endPkt p.id).prodState q = s.d.fld F.GLB_PROD_STATE q :=
  fld_endPkt_of_atFn h _ (by decide) q

theorem prodGen_endPkt_of_atFn (q : Nat) : (s.d.endPkt p.id).prodGen q = s.d.fld F.GLB_PROD_GEN q :=
  fld_endPkt_of_atFn h _ (by decide) q

end

/-- The sender of a STRIKE joins those whom the production's purge will answer. -/
def Dev.joinStrike (d : Dev) (p : Pkt) : Dev :=
  { d with strikes := d.strikes.map (fun j => if j.prod = p.prod then { j with senders := j.senders ++ [(p.src, p.tc)] } else j) }

section
variable {s : State} {p : Pkt} (h : AtFn s p 0 0 0x73)
include h

section
variable (hs : p.at 4 1 % 2 = 0)
include hs

/-- STRIKE begins where no generation is live, at the live one, and at a newer one than that struck. -/
theorem strike_begins (hb : s.d.fld F.GLB_PROD_STATE p.prod = 0
      ∨ (s.d.fld F.GLB_PROD_STATE p.prod = 1 ∧ p.gen = s.d.fld F.GLB_PROD_GEN p.prod)
      ∨ (3 ≤ s.d.fld F.GLB_PROD_STATE p.prod ∧ p.gen ≠ s.d.fld F.GLB_PROD_GEN p.prod
          ∧ newer p.gen (s.d.fld F.GLB_PROD_GEN p.prod) 8 = true)) :
    MakesThenRoutes (.strike p.id) s ((s.d.endPkt p.id).beginStrike p.prod p.gen p.src p.tc) := by
  refine ⟨?_, rfl⟩
  show strikeMade p.id s = _
  simp only [strikeMade, onDev_eq, atMgmt_of_atFn h, Dev.whenSome_some, hs, beq_self_eq_true, Dev.when_true,
    prodState_endPkt_of_atFn h, prodGen_endPkt_of_atFn h]
  rcases hb with h0 | ⟨h1, hg⟩ | ⟨h3, hg, hn⟩
  · simp only [h0]
  · simp only [h1, if_pos hg]
  · obtain ⟨n, hst⟩ : ∃ n, s.d.fld F.GLB_PROD_STATE p.prod = n + 3 := ⟨_, (Nat.sub_add_cancel h3).symm⟩
    simp only [hst, if_neg hg, hn, if_true]

/-- STRIKE is answered at once where its generation is stale, and where the production is struck already. -/
theorem strike_answers {st : Nat}
    (ha : (s.d.fld F.GLB_PROD_STATE p.prod = 1 ∧ p.gen ≠ s.d.fld F.GLB_PROD_GEN p.prod ∧ st = St.GEN_STALE)
      ∨ (3 ≤ s.d.fld F.GLB_PROD_STATE p.prod ∧ p.gen = s.d.fld F.GLB_PROD_GEN p.prod ∧ st = St.OK)
      ∨ (3 ≤ s.d.fld F.GLB_PROD_STATE p.prod ∧ p.gen ≠ s.d.fld F.GLB_PROD_GEN p.prod
          ∧ newer p.gen (s.d.fld F.GLB_PROD_GEN p.prod) 8 = false ∧ st = St.GEN_STALE)) :
    MakesThenRoutes (.strike p.id) s ((s.d.endPkt p.id).strikeDone p.src p.tc p.prod p.gen st 0 0 0) := by
  refine ⟨?_, rfl⟩
  show strikeMade p.id s = _
  simp only [strikeMade, onDev_eq, atMgmt_of_atFn h, Dev.whenSome_some, hs, beq_self_eq_true, Dev.when_true,
    prodState_endPkt_of_atFn h, prodGen_endPkt_of_atFn h]
  rcases ha with ⟨h1, hg, rfl⟩ | ⟨h3, hg, rfl⟩ | ⟨h3, hg, hn, rfl⟩
  · simp only [h1, if_neg hg]
  · obtain ⟨n, hst⟩ : ∃ n, s.d.fld F.GLB_PROD_STATE p.prod = n + 3 := ⟨_, (Nat.sub_add_cancel h3).symm⟩
    simp only [hst, if_pos hg]
  · obtain ⟨n, hst⟩ : ∃ n, s.d.fld F.GLB_PROD_STATE p.prod = n + 3 := ⟨_, (Nat.sub_add_cancel h3).symm⟩
    simp [hst, if_neg hg, hn]

/-- A second STRIKE of the same generation joins the purge that runs. -/
theorem strike_joins (h2 : s.d.fld F.GLB_PROD_STATE p.prod = 2) (hg : p.gen = s.d.fld F.GLB_PROD_GEN p.prod) :
    MakesThenRoutes (.strike p.id) s ((s.d.endPkt p.id).joinStrike p) := by
  refine ⟨?_, rfl⟩
  show strikeMade p.id s = _
  simp only [strikeMade, onDev_eq, atMgmt_of_atFn h, Dev.whenSome_some, hs, beq_self_eq_true, Dev.when_true,
    prodState_endPkt_of_atFn h, prodGen_endPkt_of_atFn h, h2, if_pos hg]
  rfl

end
end

/-! ## Answers of a strike (R288) -/

/-- The STRIKE.DONE that a sender gets: its status, and whether the production is sealed. -/
theorem strikeDone_sends {i : Instr} {s : State} {d : Dev} {p : Pkt} {st sealed cells us : Nat}
    (h : MakesThenRoutes i s (d.strikeDone p.src p.tc p.prod p.gen st sealed cells us)) (hown : d.ownFn 0 = s.d.ownFn 0)
    (hst : st < 16) (hsealed : sealed < 256) :
    SendsSome i s (fun q => Mgmt s q p.src p.prod p.gen 0x74 p.tc st ∧ q.at 4 1 = sealed) := by
  refine sendsSome_of_makes h (Dev.mem_outbox_send _ _) ⟨mgmtPkt_answers hown p _ (by omega) hst, ?_⟩
  simp only [mgmtPkt_at (m := 0) d _ _ _ _ _ _ _ le_rfl (show 0 + 1 ≤ 40 by omega), List.append_assoc, bytesAt_front, ofBytes_bytesOf]
  omega

/-- A STRIKE or SEAL that is answered at once changes nothing but the packet path. -/
theorem soft_strikeDone (d : Dev) (p : Pkt) (st sealed cells us : Nat) :
    d.Soft ((d.endPkt p.id).strikeDone p.src p.tc p.prod p.gen st sealed cells us).settle :=
  (((Dev.Soft.refl d).endPkt p.id).send _).settle

section
variable {s : State} {p : Pkt} (h : AtFn s p 0 0 0x73)
include h

theorem strike_stale_completes (hs : p.at 4 1 % 2 = 0) (h1 : s.d.fld F.GLB_PROD_STATE p.prod = 1)
    (hg : p.gen ≠ s.d.fld F.GLB_PROD_GEN p.prod) :
    Completes (.strike p.id) s (fun t => t.d.fld F.GLB_PROD_STATE p.prod = 1 ∧ t.d.strikes = s.d.strikes) := by
  have hsoft := soft_strikeDone s.d p St.GEN_STALE 0 0 0
  exact completes_of_makes (strike_answers h hs (.inl ⟨h1, hg, rfl⟩)) ⟨(hsoft.fld _ _ rfl).trans h1, hsoft.strikes⟩

theorem strike_answer_sent (hs : p.at 4 1 % 2 = 0) {st : Nat} (hst : st < 16)
    (ha : (s.d.fld F.GLB_PROD_STATE p.prod = 1 ∧ p.gen ≠ s.d.fld F.GLB_PROD_GEN p.prod ∧ st = St.GEN_STALE)
      ∨ (3 ≤ s.d.fld F.GLB_PROD_STATE p.prod ∧ p.gen = s.d.fld F.GLB_PROD_GEN p.prod ∧ st = St.OK)
      ∨ (3 ≤ s.d.fld F.GLB_PROD_STATE p.prod ∧ p.gen ≠ s.d.fld F.GLB_PROD_GEN p.prod
          ∧ newer p.gen (s.d.fld F.GLB_PROD_GEN p.prod) 8 = false ∧ st = St.GEN_STALE)) :
    SendsSome (.strike p.id) s (fun q => Mgmt s q p.src p.prod p.gen 0x74 p.tc st) := by
  obtain ⟨q, hq, hm, -⟩ := strikeDone_sends (strike_answers h hs ha) (ownFn_endPkt_of_atFn h 0) hst (by omega)
  exact ⟨q, hq, hm⟩

theorem strike_joins_completes (hs : p.at 4 1 % 2 = 0) (h2 : s.d.fld F.GLB_PROD_STATE p.prod = 2)
    (hg : p.gen = s.d.fld F.GLB_PROD_GEN p.prod) :
    Completes (.strike p.id) s (fun t => t.d.net.pkts = [] ∧ t.d.fld F.GLB_PROD_STATE p.prod = 2
      ∧ t.d.strikes = s.d.strikes.map (fun j =>
          if j.prod = p.prod then { j with senders := j.senders ++ [(p.src, p.tc)] } else j)) := by
  have hstrikes : (s.d.endPkt p.id).strikes = s.d.strikes := keeps_of_atFn h Dev.strikes (fun _ => rfl) rfl
  refine completes_of_makesNothing (strike_joins h hs h2 hg) (outbox_endPkt_of_atFn h) ⟨pkts_endPkt_of_atFn h, ?_, ?_⟩
  · exact (fld_endPkt_of_atFn h F.GLB_PROD_STATE (by decide) p.prod).trans h2
  · exact congrArg (List.map _) hstrikes

/-- SEAL takes effect on a struck production of its generation (R287). -/
theorem seal_makes (hs : p.at 4 1 % 2 = 1) {ok : Bool}
    (hok : (decide (3 ≤ s.d.fld F.GLB_PROD_STATE p.prod) && p.gen == s.d.fld F.GLB_PROD_GEN p.prod) = ok) :
    MakesThenRoutes (.seal p.id) s ((if ok then (s.d.endPkt p.id).setFld F.GLB_PROD_STATE p.prod 4 else s.d.endPkt p.id).strikeDone
      p.src p.tc p.prod p.gen (if ok then St.OK else St.GEN_STALE) 1 0 0) := by
  refine ⟨?_, rfl⟩
  show sealMade p.id s = _
  simp only [sealMade, onDev_eq, atMgmt_of_atFn h, Dev.whenSome_some, hs, beq_self_eq_true, Dev.when_true,
    prodState_endPkt_of_atFn h, prodGen_endPkt_of_atFn h, hok]

theorem seal_struck (hs : p.at 4 1 % 2 = 1) (h3 : s.d.fld F.GLB_PROD_STATE p.prod = 3) (hg : p.gen = s.d.fld F.GLB_PROD_GEN p.prod) :
    Completes (.seal p.id) s (fun t => t.d.fld F.GLB_PROD_STATE p.prod = 4)
    ∧ SendsSome (.seal p.id) s (fun q => Mgmt s q p.src p.prod p.gen 0x74 p.tc 0 ∧ q.at 4 1 = 1) := by
  have hm := seal_makes h hs (ok := true) (by simp [h3, hg])
  constructor
  · refine completes_of_makes hm (((Dev.soft_settle _).fld _ _ rfl).trans ?_)
    exact Dev.fld_setFld_self _ _ _ _ (by decide) (by decide)
  · refine strikeDone_sends hm ?_ (by decide) (by omega)
    exact (Dev.ownFn_setFld _ (by decide) _ _ _).trans (ownFn_endPkt_of_atFn h 0)

theorem seal_notStruck (hs : p.at 4 1 % 2 = 1) (h3 : s.d.fld F.GLB_PROD_STATE p.prod < 3) :
    Completes (.seal p.id) s (fun t => Quiet s t)
    ∧ SendsSome (.seal p.id) s (fun q => Mgmt s q p.src p.prod p.gen 0x74 p.tc 3) := by
  have hm := seal_makes h hs (ok := false) (by simp [Nat.not_le.2 h3])
  refine ⟨completes_of_makes hm ⟨rfl, rfl, soft_strikeDone s.d p St.GEN_STALE 1 0 0⟩, ?_⟩
  obtain ⟨q, hq, hmgmt, -⟩ := strikeDone_sends hm (ownFn_endPkt_of_atFn h 0) (by decide) (by omega)
  exact ⟨q, hq, hmgmt⟩

end

/-! ## The end of a purge (R288) -/

/-- Packets made one for each element of a list stay in the outbox, each as some device with the same registers made it. -/
theorem Dev.mem_outbox_each {α : Type} (g : Dev → α → Pkt) {x : α} {l : List α} (hx : x ∈ l) (d : Dev) :
    ∃ d' : Dev, d'.regs = d.regs ∧ d'.fuse = d.fuse ∧ g d' x ∈ (d.each l (fun d x => d.send (g d x))).net.outbox := by
  have hgrow : ∀ (l : List α) (d : Dev), d.net.outbox ⊆ (d.each l (fun d x => d.send (g d x))).net.outbox := by
    intro l
    induction l with
    | nil => exact fun d => List.Subset.refl _
    | cons y l ih => exact fun d => List.Subset.trans (List.subset_append_left _ _) (ih (d.send (g d y)))
  induction l generalizing d with
  | nil => cases hx
  | cons y l ih =>
    rcases List.mem_cons.1 hx with rfl | hx
    · exact ⟨d, rfl, rfl, hgrow l _ (Dev.mem_outbox_send _ _)⟩
    · exact ih hx (d.send (g d y))

/-- The device with a production's purge done, before its senders are answered. -/
def Dev.struck (d : Dev) (prod : Nat) : Dev :=
  { d.setFld F.GLB_PROD_STATE prod 3 with strikes := d.strikes.filter (fun j => j.prod ≠ prod) }

theorem strikePurgeDone_makes {s : State} {prod : Nat} {j : StrikeJob} (hj : s.d.strikes.find? (fun y => y.prod == prod) = some j)
    (hp : s.d.prodPkts prod = []) :
    MakesThenRoutes (.strikePurgeDone prod) s ((s.d.struck prod).each j.senders (fun d x =>
      d.strikeDone x.1 x.2 prod j.gen St.OK 0 j.cells (d.since j.at_ / 65536000))) := by
  refine ⟨?_, rfl⟩
  show strikePurgeDoneMade prod s = _
  simp only [strikePurgeDoneMade, onDev_eq, hj, Dev.whenSome_some, hp, List.isEmpty_nil, Dev.when_true]
  rfl

theorem strikePurgeDone_completes {s : State} {prod : Nat} {j : StrikeJob}
    (hj : s.d.strikes.find? (fun y => y.prod == prod) = some j) (hp : s.d.prodPkts prod = []) :
    Completes (.strikePurgeDone prod) s (fun t => t.d.fld F.GLB_PROD_STATE prod = 3 ∧ ∀ y ∈ t.d.strikes, y.prod ≠ prod) := by
  have hsoft := (((Dev.Soft.refl (s.d.struck prod)).each j.senders (f := fun d x =>
    d.strikeDone x.1 x.2 prod j.gen St.OK 0 j.cells (d.since j.at_ / 65536000)) fun _ _ _ hb => hb.send _).settle)
  refine completes_of_makes (strikePurgeDone_makes hj hp) ⟨(hsoft.fld _ _ rfl).trans ?_, fun y hy => ?_⟩
  · exact Dev.fld_setFld_self _ _ _ _ (by decide) (by decide)
  · have hmem : y ∈ (s.d.struck prod).strikes := by
      rw [← hsoft.strikes]
      exact hy
    simpa using (List.mem_filter.1 hmem).2

theorem strikePurgeDone_answers {s : State} {prod : Nat} {j : StrikeJob} {x : BitVec 32 × Nat} (hprod : prod < 4096)
    (hj : s.d.strikes.find? (fun y => y.prod == prod) = some j) (hp : s.d.prodPkts prod = []) (hx : x ∈ j.senders) :
    SendsSome (.strikePurgeDone prod) s (fun q => Mgmt s q x.1 prod (j.gen % 256) 0x74 (x.2 % 8) 0 ∧ q.at 4 1 = 0) := by
  obtain ⟨d, hregs, hfuse, hmem⟩ := Dev.mem_outbox_each (fun d x => d.mgmtPkt x.1 prod j.gen 0x74 x.2 St.OK
    (bytesOf 1 0 ++ bytesOf 3 0 ++ bytesOf 4 j.cells ++ bytesOf 4 (d.since j.at_ / 65536000))) hx (s.d.struck prod)
  refine sendsSome_of_makes (strikePurgeDone_makes hj hp) hmem ⟨?_, ?_⟩
  · have hown : d.ownFn 0 = s.d.ownFn 0 :=
      (Dev.ownFn_congr (Dev.rd_of_regs hregs hfuse _ _) 0).trans (Dev.ownFn_setFld s.d (by decide) prod 3 0)
    have hm := mgmtPkt_mgmt hown x.1 prod j.gen 0x74 x.2 St.OK
      (bytesOf 1 0 ++ bytesOf 3 0 ++ bytesOf 4 j.cells ++ bytesOf 4 (d.since j.at_ / 65536000)) (by omega) (by decide)
    rwa [Nat.mod_eq_of_lt hprod] at hm
  · simp only [mgmtPkt_at (m := 0) d _ _ _ _ _ _ _ le_rfl (show 0 + 1 ≤ 40 by omega), List.append_assoc, bytesAt_front, ofBytes_bytesOf]
    rfl

/-! ## LAUNCH and its replies (R292 to R294) -/

theorem sendsSome_mono {i : Instr} {s : State} {Q R : Pkt → Prop} (h : SendsSome i s Q) (hr : ∀ q, Q q → R q) : SendsSome i s R := by
  obtain ⟨q, hq, hQ⟩ := h
  exact ⟨q, hq, hr q hQ⟩

/-- The LAUNCH.REPLY that a parent gets: its status, how many entries are missing, and the TAG. -/
theorem launchReply_sends {i : Instr} {s : State} {d : Dev} {dst : BitVec 32} {tc prod gen tag st : Nat} {missing : List (Nat × Nat)}
    (h : MakesThenRoutes i s (d.launchReply dst tc prod gen tag st missing)) (hown : d.ownFn 0 = s.d.ownFn 0) (hst : st < 16) :
    SendsSome i s (fun q => Mgmt s q dst (prod % 4096) (gen % 256) 0x76 (tc % 8) st
      ∧ q.at 4 2 = missing.length % 65536 ∧ q.at 6 2 = tag % 65536) := by
  refine sendsSome_of_makes h (Dev.mem_outbox_send _ _) ⟨mgmtPkt_mgmt hown _ _ _ _ _ _ _ (by omega) hst, ?_, ?_⟩
  · simp only [mgmtPkt_at (m := 0) d _ _ _ _ _ _ _ one_le_two (show 0 + 2 ≤ 40 by omega), List.append_assoc,
      bytesAt_front, ofBytes_bytesOf]
    norm_num
  · simp only [mgmtPkt_at (m := 2) d _ _ _ _ _ _ _ one_le_two (show 2 + 2 ≤ 40 by omega), List.append_assoc, bytesAt_past,
      bytesAt_front, ofBytes_bytesOf]
    norm_num

/-- The same for an answer to a LAUNCH, whose PROD, GEN and TC it takes over. -/
theorem launchReply_answers {i : Instr} {s : State} {d : Dev} {p : Pkt} {tag st : Nat} {missing : List (Nat × Nat)}
    (h : MakesThenRoutes i s (d.launchReply p.src p.tc p.prod p.gen tag st missing)) (hown : d.ownFn 0 = s.d.ownFn 0) (hst : st < 16) :
    SendsSome i s (fun q => Mgmt s q p.src p.prod p.gen 0x76 p.tc st
      ∧ q.at 4 2 = missing.length % 65536 ∧ q.at 6 2 = tag % 65536) := by
  have hs := launchReply_sends h hown hst
  rwa [Nat.mod_eq_of_lt p.prod_lt, Nat.mod_eq_of_lt p.gen_lt, Nat.mod_eq_of_lt p.tc_lt] at hs

/-- A tree of more than this device has a child. -/
theorem subTrees_heads_ne_nil {n : Nat} {t : List (Nat × Nat)} (hn : n ≠ 0) (ht : t ≠ []) :
    (subTrees n t).filterMap List.head? ≠ [] := by
  cases n with
  | zero => exact absurd rfl hn
  | succ n =>
    cases t with
    | nil => exact absurd rfl ht
    | cons e l =>
      obtain ⟨m, hm⟩ : ∃ m, max 1 e.2 = m + 1 := ⟨max 1 e.2 - 1, by omega⟩
      simp [subTrees, hm]

/-- The children of a LAUNCH, each with its sub-list, and the device that has taken the launch. -/
def Pkt.launchKids (p : Pkt) : List (List (Nat × Nat)) :=
  subTrees (p.tree 112 (p.at 8 2 % 512)).length ((p.tree 112 (p.at 8 2 % 512)).drop 1)

def Dev.launched (d : Dev) (p : Pkt) : Dev :=
  { ((d.setFld F.GLB_PROD_STATE p.prod 1).setFld F.GLB_PROD_GEN p.prod p.gen).setFld F.GLB_PROD_LAUNCHER p.prod (p.at 4 4) with
    keys := d.keys.put p.prod (BitVec.ofNat 768 (ofBytes (p.bytesFrom 16 96))) }

/-- The LAUNCH that a child gets. -/
def Dev.childLaunch (d : Dev) (p : Pkt) (k : List (Nat × Nat)) (e : Nat × Nat) : Pkt :=
  d.mgmtPkt (BitVec.ofNat 32 (e.1 / 256 * 256)) p.prod p.gen 0x75 p.tc 0
    (p.bytesFrom 4 4 ++ bytesOf 2 k.length ++ bytesOf 2 (p.at 10 2) ++ bytesOf 2 (p.at 12 2 - 50) ++ bytesOf 2 0 ++ p.bytesFrom 16 96
      ++ treeBytes k)

/-- The replies that a device awaits once it has sent its children their LAUNCHes. -/
def Dev.launchJob (d : Dev) (p : Pkt) : LaunchJob :=
  LaunchJob.mk p.prod p.gen p.src p.tc (p.at 10 2) (p.at 12 2) d.tmu.total (p.launchKids.filterMap List.head?) []

/-- A device that has taken a launch: it answers at once where it has no children or no time, or sends its children theirs. -/
def Dev.spread (d : Dev) (p : Pkt) : Dev :=
  if p.launchKids.isEmpty then d.launchReply p.src p.tc p.prod p.gen (p.at 10 2) St.OK []
  else if p.at 12 2 < 75 then d.launchReply p.src p.tc p.prod p.gen (p.at 10 2) St.TIMEOUT (p.launchKids.filterMap List.head?)
  else
    let d' := d.each p.launchKids (fun d k => d.whenSome k.head? fun e d => d.send (d.childLaunch p k e))
    { d' with launches := d'.launches ++ [d'.launchJob p] }

section
variable {s : State} {p : Pkt} (h : AtFn s p 0 0 0x75)
include h

theorem launchRefused_endPkt (t : List (Nat × Nat)) : (s.d.endPkt p.id).launchRefused p t = s.d.launchRefused p t := by
  have htree : (s.d.endPkt p.id).treeOk t = s.d.treeOk t := by
    have hca : (s.d.endPkt p.id).ownCa = s.d.ownCa := fld_endPkt_of_atFn h _ (by decide) 0
    unfold Dev.treeOk
    rw [hca]
  unfold Dev.launchRefused
  rw [prodState_endPkt_of_atFn h, prodGen_endPkt_of_atFn h, htree]
  rfl

theorem launch_refused_makes {st : Nat} (hst : s.d.launchRefused p (p.tree 112 (p.at 8 2 % 512)) = some st) :
    MakesThenRoutes (.launch p.id) s
      ((s.d.endPkt p.id).launchReply p.src p.tc p.prod p.gen (p.at 10 2) st (p.tree 112 1)) := by
  refine ⟨?_, rfl⟩
  show launchMade p.id s = _
  simp only [launchMade, onDev_eq, atMgmt_of_atFn h, Dev.whenSome_some, launchRefused_endPkt h, hst]

theorem launch_makes (hst : s.d.launchRefused p (p.tree 112 (p.at 8 2 % 512)) = none) :
    MakesThenRoutes (.launch p.id) s (((s.d.endPkt p.id).launched p).spread p) := by
  refine ⟨?_, rfl⟩
  show launchMade p.id s = _
  simp only [launchMade, onDev_eq, atMgmt_of_atFn h, Dev.whenSome_some, launchRefused_endPkt h, hst]
  rfl

end

/-- The statuses of R60 that refuse a LAUNCH. -/
theorem launchRefused_lt {d : Dev} {p : Pkt} {t : List (Nat × Nat)} {st : Nat} (h : d.launchRefused p t = some st) : st < 16 := by
  have hcases : st = St.GEN_STALE ∨ st = St.STRUCK ∨ st = St.UNSUPPORTED := by
    unfold Dev.launchRefused at h
    dsimp only at h
    repeat' split at h
    all_goals simp_all [Option.orElse]
  rcases hcases with rfl | rfl | rfl <;> decide

@[simp] theorem length_tree (p : Pkt) (off n : Nat) : (p.tree off n).length = n := by simp [Pkt.tree]

theorem launchKids_of_leaf {p : Pkt} (h : p.at 8 2 % 512 = 1) : p.launchKids = [] := by
  have hnone : (p.tree 112 1).drop 1 = [] := List.drop_eq_nil_of_le (by simp)
  unfold Pkt.launchKids
  rw [h, hnone, length_tree]
  rfl

theorem launchKids_heads_ne_nil {p : Pkt} (h : 2 ≤ p.at 8 2 % 512) : p.launchKids.filterMap List.head? ≠ [] := by
  refine subTrees_heads_ne_nil (by rw [length_tree]; omega) fun hnil => ?_
  have hlen := congrArg List.length hnil
  rw [List.length_drop, length_tree, List.length_nil] at hlen
  omega

/-- Answering and sending children their LAUNCHes keeps all but what waits to be routed and the replies awaited. -/
theorem Dev.childLaunches_keep {β : Type} (g : Dev → β) (hsend : ∀ d q, g (d.send q) = g d) (d : Dev) (p : Pkt) :
    g (d.each p.launchKids (fun d k => d.whenSome k.head? fun e d => d.send (d.childLaunch p k e))) = g d := by
  refine Dev.each_keeps g _ (fun d k => ?_) _ d
  cases k.head? with
  | none => rfl
  | some e => exact hsend _ _

theorem Dev.spread_keeps {β : Type} (g : Dev → β) (hsend : ∀ d q, g (d.send q) = g d) (hl : ∀ (d : Dev) l, g { d with launches := l } = g d)
    (d : Dev) (p : Pkt) : g (d.spread p) = g d := by
  unfold Dev.spread
  split
  · exact hsend _ _
  · split
    · exact hsend _ _
    · exact (hl _ _).trans (Dev.childLaunches_keep g hsend d p)

theorem Dev.spread_leaf {p : Pkt} (h : p.at 8 2 % 512 = 1) (d : Dev) :
    d.spread p = d.launchReply p.src p.tc p.prod p.gen (p.at 10 2) St.OK [] := by
  unfold Dev.spread
  rw [launchKids_of_leaf h]
  rfl

theorem Dev.spread_launches {p : Pkt} (hn : 2 ≤ p.at 8 2 % 512) (hb : 75 ≤ p.at 12 2) (d : Dev) :
    (d.spread p).launches = d.launches ++ [d.launchJob p] := by
  have hkids : ¬ p.launchKids.isEmpty = true := fun hnil =>
    launchKids_heads_ne_nil hn (by rw [List.isEmpty_iff.1 hnil]; rfl)
  have hl := Dev.childLaunches_keep Dev.launches (fun _ _ => rfl) d p
  have ht := Dev.childLaunches_keep Dev.tmu (fun _ _ => rfl) d p
  unfold Dev.spread
  rw [if_neg hkids, if_neg (Nat.not_lt.2 hb)]
  dsimp only
  unfold Dev.launchJob
  rw [hl, ht]

/-- A device that has taken a launch shows the production LIVE under its generation and launcher (R293). -/
theorem Dev.launched_flds (d : Dev) (p : Pkt) : (d.launched p).fld F.GLB_PROD_STATE p.prod = 1
    ∧ (d.launched p).fld F.GLB_PROD_GEN p.prod = p.gen ∧ (d.launched p).fld F.GLB_PROD_LAUNCHER p.prod = p.at 4 4 := by
  set d1 := d.setFld F.GLB_PROD_STATE p.prod 1
  set d2 := d1.setFld F.GLB_PROD_GEN p.prod p.gen
  have hstate : d1.fld F.GLB_PROD_STATE p.prod = 1 := Dev.fld_setFld_self _ _ _ _ (by decide) (by decide)
  have hgen : d2.fld F.GLB_PROD_GEN p.prod = p.gen :=
    (Dev.fld_setFld_self _ _ _ _ (by decide) (by decide)).trans (Nat.mod_eq_of_lt p.gen_lt)
  have hlauncher : (d2.setFld F.GLB_PROD_LAUNCHER p.prod (p.at 4 4)).fld F.GLB_PROD_LAUNCHER p.prod = p.at 4 4 :=
    (Dev.fld_setFld_self _ _ _ _ (by decide) (by decide)).trans (Nat.mod_eq_of_lt (bitsOf_lt _ _ _))
  have hfld : ∀ f, (d.launched p).fld f p.prod = (d2.setFld F.GLB_PROD_LAUNCHER p.prod (p.at 4 4)).fld f p.prod :=
    fun f => Dev.fld_of_regs rfl rfl f p.prod
  refine ⟨(hfld _).trans ?_, (hfld _).trans ?_, (hfld _).trans hlauncher⟩
  · refine (Dev.fld_setFld_of_ne d2 _ _ _ _ _ (by decide) (by decide) (.inr (by decide))).trans ?_
    exact (Dev.fld_setFld_of_ne d1 _ _ _ _ _ (by decide) (by decide) (.inr (by decide))).trans hstate
  · exact (Dev.fld_setFld_of_ne d2 _ _ _ _ _ (by decide) (by decide) (.inr (by decide))).trans hgen

section
variable {s : State} {p : Pkt} (h : AtFn s p 0 0 0x75)
include h

theorem launch_completes (hst : s.d.launchRefused p (p.tree 112 (p.at 8 2 % 512)) = none) :
    Completes (.launch p.id) s (fun t => t.d.fld F.GLB_PROD_STATE p.prod = 1 ∧ t.d.fld F.GLB_PROD_GEN p.prod = p.gen
      ∧ t.d.fld F.GLB_PROD_LAUNCHER p.prod = p.at 4 4
      ∧ t.d.keys.find p.prod = some (BitVec.ofNat 768 (ofBytes (p.bytesFrom 16 96)))
      ∧ (p.at 8 2 % 512 = 1 → t.d.launches = s.d.launches)
      ∧ (2 ≤ p.at 8 2 % 512 → 75 ≤ p.at 12 2 → ∃ j, t.d.launches = s.d.launches ++ [j] ∧ j.prod = p.prod ∧ j.tag = p.at 10 2
          ∧ j.parent = p.src ∧ j.kids ≠ [] ∧ j.missing = [])) := by
  set d := (s.d.endPkt p.id).launched p with hd
  have hsoft := Dev.soft_settle (d.spread p)
  have hfld : ∀ f i, f.rf.busy = false → (d.spread p).settle.fld f i = d.fld f i := by
    intro f i hf
    have hregs := Dev.spread_keeps Dev.regs (fun _ _ => rfl) (fun _ _ => rfl) d p
    have hfuse := Dev.spread_keeps Dev.fuse (fun _ _ => rfl) (fun _ _ => rfl) d p
    exact (hsoft.fld f i hf).trans (Dev.fld_of_regs hregs hfuse f i)
  have hkeys : (d.spread p).settle.keys = d.keys :=
    hsoft.keys.trans (Dev.spread_keeps Dev.keys (fun _ _ => rfl) (fun _ _ => rfl) d p)
  have hlaunches : d.launches = s.d.launches := keeps_of_atFn h Dev.launches (fun _ => rfl) rfl
  obtain ⟨hstate, hgen, hlauncher⟩ := (s.d.endPkt p.id).launched_flds p
  refine completes_of_makes (launch_makes h hst) ⟨(hfld _ _ rfl).trans hstate, (hfld _ _ rfl).trans hgen,
    (hfld _ _ rfl).trans hlauncher, ?key, fun hn => ?leaf, fun hn hb => ⟨d.launchJob p, ?tree, rfl, rfl, rfl, ?_, rfl⟩⟩
  case key =>
    show (d.spread p).settle.keys.find p.prod = _
    rw [hkeys, hd, Dev.launched, NMap.find_put, if_pos rfl]
  case leaf =>
    refine hsoft.launches.trans ?_
    rw [Dev.spread_leaf hn]
    exact hlaunches
  case tree =>
    refine hsoft.launches.trans ?_
    rw [Dev.spread_launches hn hb, hlaunches]
  exact launchKids_heads_ne_nil hn

/-- A leaf of the tree answers its parent at once. -/
theorem launch_leaf_answers (hst : s.d.launchRefused p (p.tree 112 (p.at 8 2 % 512)) = none) (hn : p.at 8 2 % 512 = 1) :
    SendsSome (.launch p.id) s (fun q => Mgmt s q p.src p.prod p.gen 0x76 p.tc 0 ∧ q.at 4 2 = 0 ∧ q.at 6 2 = p.at 10 2) := by
  have hm := launch_makes h hst
  rw [Dev.spread_leaf hn] at hm
  have hown : ((s.d.endPkt p.id).launched p).ownFn 0 = s.d.ownFn 0 := by
    refine Eq.trans ?_ (ownFn_endPkt_of_atFn h 0)
    refine (Dev.ownFn_setFld _ (f := F.GLB_PROD_LAUNCHER) (by decide) p.prod (p.at 4 4) 0).trans ?_
    exact (Dev.ownFn_setFld _ (by decide) _ _ _).trans (Dev.ownFn_setFld _ (by decide) _ _ _)
  refine sendsSome_mono (launchReply_answers hm hown (by decide)) ?_
  rintro q ⟨hmgmt, hcount, htag⟩
  exact ⟨hmgmt, hcount, htag.trans (Nat.mod_eq_of_lt (bitsOf_lt _ _ _))⟩

theorem launch_refused {st : Nat} (hst : s.d.launchRefused p (p.tree 112 (p.at 8 2 % 512)) = some st) :
    Completes (.launch p.id) s (fun t => Quiet s t)
    ∧ SendsSome (.launch p.id) s (fun q => Mgmt s q p.src p.prod p.gen 0x76 p.tc st) := by
  have hm := launch_refused_makes h hst
  refine ⟨completes_of_makes hm ⟨rfl, rfl, (((Dev.Soft.refl s.d).endPkt p.id).send _).settle⟩, ?_⟩
  exact sendsSome_mono (launchReply_answers hm (ownFn_endPkt_of_atFn h 0) (launchRefused_lt hst)) fun q hq => hq.1

end

/-! ## What a counter reads once it has counted (R341) -/

theorem Dev.fld_addCount_value {d : Dev} {inst idx : Nat} (hc : bitOf (d.rd .CNT_CHAIN inst) (idx / 2) = false) (n : Nat) :
    (d.addCount inst idx n).fld F.CNT_VAL_VALUE (cntIdx inst idx) = (d.fld F.CNT_VAL_VALUE (cntIdx inst idx) + n) % 2 ^ 48 := by
  have hself : ∀ v, (d.setFld F.CNT_VAL_VALUE (cntIdx inst idx) v).fld F.CNT_VAL_VALUE (cntIdx inst idx) = v % 2 ^ 48 :=
    fun v => Dev.fld_setFld_self _ _ _ _ (by decide) (by decide)
  unfold Dev.addCount
  dsimp only
  split
  · exact hself _
  · rw [if_neg (by simp [hc])]
    exact (Dev.fld_setFld_of_ne _ _ _ _ _ _ (by decide) (by decide) (.inr (by decide))).trans (hself _)

theorem Dev.fld_count_value {d : Dev} {inst idx : Nat} (hi : d.instOk inst = true) (hs : d.cutState = 0)
    (hc : bitOf (d.rd .CNT_CHAIN inst) (idx / 2) = false) (n : Nat) :
    (d.count inst idx n).fld F.CNT_VAL_VALUE (cntIdx inst idx) = (d.fld F.CNT_VAL_VALUE (cntIdx inst idx) + n) % 2 ^ 48 := by
  unfold Dev.count
  rw [if_neg (by simp [hi]), if_neg (by simp [hc]), if_pos hs]
  exact Dev.fld_addCount_value hc n

/-- A counter keeps its value while one of a higher index of the same unit counts. -/
theorem Dev.fld_count_of_lt (d : Dev) {inst idx k : Nat} (h : idx < k) (n : Nat) :
    (d.count inst k n).fld F.CNT_VAL_VALUE (cntIdx inst idx) = d.fld F.CNT_VAL_VALUE (cntIdx inst idx) := by
  have hset : ∀ (d : Dev) (f : Fld) (j v : Nat), f.lo ≤ f.hi → k ≤ j →
      (d.setFld f (cntIdx inst j) v).fld F.CNT_VAL_VALUE (cntIdx inst idx) = d.fld F.CNT_VAL_VALUE (cntIdx inst idx) := by
    intro d f j v hf hj
    refine Dev.fld_setFld_of_ne _ _ _ _ _ _ hf (by decide) (.inl fun e => ?_)
    have hidx := e.2
    unfold cntIdx at hidx
    omega
  unfold Dev.count
  split
  · rfl
  · split
    · rfl
    · split
      · unfold Dev.addCount
        dsimp only
        split
        · exact hset _ _ _ _ (by decide) le_rfl
        · split
          · exact (hset _ _ _ _ (by decide) (Nat.le_succ k)).trans (hset _ _ _ _ (by decide) le_rfl)
          · exact (hset _ _ _ _ (by decide) le_rfl).trans (hset _ _ _ _ (by decide) le_rfl)
      · exact Dev.fld_of_regs rfl rfl _ _

/-- The programmable counters stand above the named ones. -/
theorem Dev.fld_countEv_of_lt (d : Dev) {inst idx : Nat} (h : idx < 48) (ev n : Nat) (x : EvCtx) :
    (d.countEv inst ev n x).fld F.CNT_VAL_VALUE (cntIdx inst idx) = d.fld F.CNT_VAL_VALUE (cntIdx inst idx) := by
  refine Dev.each_keeps (fun d => d.fld F.CNT_VAL_VALUE (cntIdx inst idx)) _ (fun d j => ?_) _ d
  split
  · exact d.fld_count_of_lt (by omega) n
  · rfl

/-! ## LAUNCH.REPLY (R294) -/

/-- The reply fits a launch: its TAG, in time, and from a child that is awaited. -/
def Dev.replyFits (d : Dev) (p : Pkt) (j : LaunchJob) : Bool :=
  j.tag == p.at 6 2 && decide (d.since j.at_ < (j.budget - 25) * 65536000) && j.kids.any (fun k => k.1 / 256 == p.at 8 4 / 256)

section
variable {s : State} {p : Pkt} {fn vl opc : Nat} (h : AtFn s p fn vl opc)
include h

/-- A counter of the whole device counts as the packet ends. -/
theorem counts_endPkt_of_atFn {t : State} {c : Nat} (ht : t.d = (s.d.endPkt p.id).countGlb c) : Counts s t 0 c 1 := by
  intro hi hs hc
  have hchain : (s.d.endPkt p.id).rd .CNT_CHAIN 0 = s.d.rd .CNT_CHAIN 0 := rd_endPkt_of_atFn h (by decide) 0
  have hval : (s.d.endPkt p.id).fld F.CNT_VAL_VALUE (cntIdx 0 c) = s.d.fld F.CNT_VAL_VALUE (cntIdx 0 c) :=
    fld_endPkt_of_atFn h _ (by decide) _
  have hfuse : (s.d.endPkt p.id).fuse = s.d.fuse := keeps_of_atFn h Dev.fuse (fun _ => rfl) rfl
  have hok : (s.d.endPkt p.id).instOk 0 = true := by
    rw [← hi]
    unfold Dev.instOk Dev.nLanes Dev.nWings
    rw [hfuse]
  have hcut : (s.d.endPkt p.id).cutState = 0 := by
    have hpast : (s.d.endPkt p.id).cutPast = s.d.cutPast := keeps_of_atFn h Dev.cutPast (fun _ => rfl) rfl
    rw [← hs]
    unfold Dev.cutState Dev.flag
    rw [hpast, fld_endPkt_of_atFn h _ (by decide) 0, fld_endPkt_of_atFn h _ (by decide) 0]
  rw [ht]
  exact (Dev.fld_count_value hok hcut (hchain ▸ hc) 1).trans (by rw [hval]; rfl)

end

section
variable {s : State} {p : Pkt} (h : AtFn s p 0 0 0x76)
include h

theorem exec_launchReply_late (hno : s.d.launches.find? (s.d.replyFits p) = none) :
    exec (.launchReply p.id) s = .next { s with d := (s.d.endPkt p.id).countGlb C.LAUNCH_LATE_REPLY } := by
  have hl : (s.d.endPkt p.id).launches = s.d.launches := keeps_of_atFn h Dev.launches (fun _ => rfl) rfl
  have hf : s.d.launches.find? ((s.d.endPkt p.id).replyFits p) = none := by
    rw [keeps_of_atFn h (fun d => d.replyFits p) (fun _ => rfl) rfl]
    exact hno
  unfold Dev.replyFits at hf
  show execLaunchReply p.id s = _
  simp only [execLaunchReply, onDev_eq, atMgmt_of_atFn h, Dev.whenSome_some, hl, hf]

theorem launchReply_late (hno : s.d.launches.find? (s.d.replyFits p) = none) :
    Completes (.launchReply p.id) s (fun t => t.d.net.pkts = [] ∧ t.d.launches = s.d.launches ∧ Counts s t 0 4 1) := by
  have hself : (s.d.endPkt p.id).Logs (s.d.endPkt p.id) := Dev.Within.refl _
  have hstill := (hself.count 0 C.LAUNCH_LATE_REPLY 1).still
  have hpkts := congrArg (fun d : Dev => d.net.pkts) hstill
  have hlaunches := congrArg Dev.launches hstill
  refine ⟨_, exec_launchReply_late h hno, hpkts.trans (pkts_endPkt_of_atFn h), ?_, counts_endPkt_of_atFn h rfl⟩
  exact hlaunches.trans (keeps_of_atFn h Dev.launches (fun _ => rfl) rfl)

/-- The awaited child's reply: the child is awaited no more, and what it misses is missing. -/
theorem launchReply_taken {j : LaunchJob} {ca sub : Nat} (hl : s.d.launches = [j]) (htag : j.tag = p.at 6 2)
    (hin : s.d.since j.at_ < (j.budget - 25) * 65536000) (hk : j.kids = [(ca, sub)]) (hca : ca / 256 = p.at 8 4 / 256) :
    Completes (.launchReply p.id) s (fun t => t.d.net.pkts = []
      ∧ t.d.launches = [{ j with kids := [], missing := j.missing ++ p.tree 16 (p.at 4 2 % 512) }]) := by
  have hl' : (s.d.endPkt p.id).launches = [j] := (keeps_of_atFn h Dev.launches (fun _ => rfl) rfl).trans hl
  have hfit : (s.d.endPkt p.id).replyFits p j = true := by
    have hsince : (s.d.endPkt p.id).since j.at_ = s.d.since j.at_ := keeps_of_atFn h (fun d => d.since j.at_) (fun _ => rfl) rfl
    simp [Dev.replyFits, htag, hsince, hin, hk, hca]
  have hfind : [j].find? ((s.d.endPkt p.id).replyFits p) = some j := by simp [hfit]
  unfold Dev.replyFits at hfind
  have hexec : exec (.launchReply p.id) s = .next { s with d := { s.d.endPkt p.id with
      launches := [{ j with kids := [], missing := j.missing ++ p.tree 16 (p.at 4 2 % 512) }] } } := by
    show execLaunchReply p.id s = _
    simp only [execLaunchReply, onDev_eq, atMgmt_of_atFn h, Dev.whenSome_some, hl', hfind]
    simp [hk, hca]
  exact ⟨_, hexec, pkts_endPkt_of_atFn h, rfl⟩

end

/-! ## The deadline of a launch (R293, R294) -/

/-- A production's replies are due: all are in, or their time has passed. -/
def Dev.repliesDue (d : Dev) (prod : Nat) (j : LaunchJob) : Bool :=
  j.prod == prod && (j.kids.isEmpty || decide ((j.budget - 25) * 65536000 ≤ d.since j.at_))

section
variable {s : State} {prod : Nat} {j : LaunchJob} (hl : s.d.launches = [j])
include hl

theorem launchReplyDeadline_makes (hdue : s.d.repliesDue prod j = true) :
    MakesThenRoutes (.launchReplyDeadline prod) s (Dev.launchReply { s.d with launches := [] } j.parent j.tc j.prod j.gen j.tag
      (if ((j.kids ++ j.missing).take 509).isEmpty then St.OK else St.POISON) ((j.kids ++ j.missing).take 509)) := by
  have hfind : [j].find? (s.d.repliesDue prod) = some j := by simp [hdue]
  unfold Dev.repliesDue at hfind
  refine ⟨?_, rfl⟩
  show launchReplyDeadlineMade prod s = _
  simp only [launchReplyDeadlineMade, onDev_eq, hl, hfind, Dev.whenSome_some]
  simp

/-- Where replies are due the launch is over, and its parent is answered. -/
theorem launchReplyDeadline_due (hprod : prod < 4096) (hj : j.prod = prod) (hdue : s.d.repliesDue prod j = true) {st : Nat}
    (hst : (if ((j.kids ++ j.missing).take 509).isEmpty then St.OK else St.POISON) = st) (hlt : st < 16) :
    Completes (.launchReplyDeadline prod) s (fun t => t.d.launches = [])
    ∧ SendsSome (.launchReplyDeadline prod) s (fun q => Mgmt s q j.parent prod (j.gen % 256) 0x76 (j.tc % 8) st
        ∧ q.at 6 2 = j.tag % 65536) := by
  have hm := launchReplyDeadline_makes hl hdue
  rw [hst] at hm
  refine ⟨completes_of_makes hm (Dev.soft_settle _).launches, ?_⟩
  refine sendsSome_mono (launchReply_sends hm rfl hlt) ?_
  rintro q ⟨hmgmt, -, htag⟩
  rw [hj, Nat.mod_eq_of_lt hprod] at hmgmt
  exact ⟨hmgmt, htag⟩

theorem launchReplyDeadline_early (hc : Calm s) (hdue : s.d.repliesDue prod j = false) :
    Completes (.launchReplyDeadline prod) s (fun t => t = s) := by
  have hfind : [j].find? (s.d.repliesDue prod) = none := by simp [hdue]
  unfold Dev.repliesDue at hfind
  have hm : MakesThenRoutes (.launchReplyDeadline prod) s s.d := by
    refine ⟨?_, rfl⟩
    show launchReplyDeadlineMade prod s = _
    simp only [launchReplyDeadlineMade, onDev_eq, hl, hfind, Dev.whenSome_none]
  exact completes_of_makesNothing hm hc.1 rfl

end

/-! ## NOTICE (R45, R49, R333) -/

/-- A packet at a function is there still where packets are as they were. -/
theorem atFn_of_net {s : State} {p : Pkt} {fn vl opc : Nat} (h : AtFn s p fn vl opc) {d : Dev} (hn : d.net = s.d.net) :
    AtFn { s with d := d } p fn vl opc :=
  ⟨⟨hn ▸ h.calm.1, hn ▸ h.calm.2⟩, hn ▸ h.only, h.place, h.vl, h.opc, h.whole⟩

theorem Dev.net_discardAs (d : Dev) (p : Pkt) (c : Nat) : (d.discardAs p c).net = d.net := by
  have hself : d.Logs d := Dev.Within.refl d
  have e := congrArg Dev.net (hself.discardAs p c).still
  exact e

theorem Dev.relay_count (d : Dev) (inst idx n : Nat) : (d.count inst idx n).relay = d.relay := by
  unfold Dev.count Dev.addCount
  dsimp only
  repeat' split
  all_goals rfl

theorem Dev.relay_discardAs (d : Dev) (p : Pkt) (c : Nat) : (d.discardAs p c).relay = d.relay := by
  unfold Dev.discardAs
  split
  · exact d.relay_count _ _ _
  · refine Eq.trans ?_ (d.relay_count (16 + p.inl) c 1)
    refine Dev.each_keeps Dev.relay _ (fun d j => ?_) _ _
    split
    · exact d.relay_count _ _ _
    · rfl

/-- The log's next entry, its mark of a notice from outside, and the SEQ after it. -/
theorem Dev.logNotice_flds (d : Dev) (bits : BitVec 128) (src : BitVec 32) :
    (d.logNotice bits (some src)).fld F.GLB_NLOG_STAT_NEXT_SEQ 0 = (d.fld F.GLB_NLOG_STAT_NEXT_SEQ 0 + 1) % 2 ^ 32
    ∧ (d.logNotice bits (some src)).fld F.GLB_NLOG_C_REMOTE (d.fld F.GLB_NLOG_STAT_NEXT_SEQ 0 % 4096) = 1 := by
  have hfld : ∀ f i, (d.logNotice bits (some src)).fld f i = (d.nlogWritten bits (some src)).fld f i := fun f i => by
    rw [Dev.logNotice_eq]
    exact Dev.fld_of_regs rfl rfl f i
  refine ⟨(hfld _ _).trans (Dev.fld_setFld_self _ _ _ _ (by decide) (by decide)), (hfld _ _).trans ?_⟩
  refine (Dev.fld_setFld_of_ne _ F.GLB_NLOG_STAT_NEXT_SEQ _ _ _ _ (by decide) (by decide)
    (.inl fun e => absurd e.1 (by decide))).trans ?_
  exact Dev.fld_setFld_self _ _ _ _ (by decide) (by decide)

theorem Dev.mem_subscribers (d : Dev) (sev n : Nat) :
    n ∈ d.subscribers sev ↔ n < 8 ∧ d.fld F.GLB_SUB_VALID n = 1 ∧ d.fld F.GLB_SUB_MIN_SEV n ≤ sev := by
  simp [Dev.subscribers, Dev.flag]

/-- SEVERITY of the notice that a NOTICE packet carries (R55). -/
theorem severity_of_pkt (p : Pkt) : bitsOf (BitVec.ofNat 128 (p.at 4 16)) 119 118 = p.at 5 1 / 64 := by
  unfold Pkt.at bitsOf
  rw [BitVec.toNat_ofNat]
  simp only [Nat.shiftRight_eq_div_pow]
  omega

/-- A notice from outside waits for the relay as its packet carries it. -/
theorem Dev.logNotice_taken (d : Dev) (p : Pkt) :
    ∃ subs, (d.logNotice (BitVec.ofNat 128 (p.at 4 16)) (some p.src)).relay
        = d.relay ++ [⟨d.fld F.GLB_NLOG_STAT_NEXT_SEQ 0, BitVec.ofNat 128 (p.at 4 16), some p.src, subs⟩]
      ∧ ∀ n, n ∈ subs ↔ n < 8 ∧ d.fld F.GLB_SUB_VALID n = 1 ∧ d.fld F.GLB_SUB_MIN_SEV n ≤ p.at 5 1 / 64 := by
  have hself : d.Logs d := Dev.Within.refl d
  have hlog := hself.nlogWritten (BitVec.ofNat 128 (p.at 4 16)) (some p.src)
  rw [Dev.logNotice_eq]
  refine ⟨_, rfl, fun n => ?_⟩
  rw [Dev.mem_subscribers, severity_of_pkt, hlog.fld F.GLB_SUB_VALID n rfl, hlog.fld F.GLB_SUB_MIN_SEV n rfl]

section
variable {s : State} {p : Pkt} {fn : Nat} (h : AtFn s p fn 0 0x62)
include h

/-- What NOTICE makes of the device, where the packet ends and nothing is routed. -/
theorem exec_notice {d : Dev} (hn : d.net = s.d.net)
    (hd : (if fn = 0xFF ∨ s.d.housePriv p.src then s.d.logNotice (BitVec.ofNat 128 (p.at 4 16)) (some p.src)
      else s.d.discardAs p C.NOTICE_REFUSED) = d) :
    exec (.notice p.id) s = .next { s with d := d.endPkt p.id } := by
  show execNotice p.id s = _
  simp only [execNotice, onDev_eq, pkt_of_atFn h, Dev.whenSome_some, h.place, h.vl, h.opc, h.whole, beq_self_eq_true, Bool.and_true,
    Dev.when_true, hd]
  rw [Dev.settle_of_empty (outbox_endPkt_of_atFn (atFn_of_net h hn))]

theorem notice_logged (hok : fn = 0xFF ∨ s.d.housePriv p.src = true) :
    Completes (.notice p.id) s (fun t => Quiet s t ∧ t.d.net.pkts = []
      ∧ t.d.fld F.GLB_NLOG_STAT_NEXT_SEQ 0 = (s.d.fld F.GLB_NLOG_STAT_NEXT_SEQ 0 + 1) % 2 ^ 32
      ∧ t.d.fld F.GLB_NLOG_C_REMOTE (s.d.fld F.GLB_NLOG_STAT_NEXT_SEQ 0 % 4096) = 1
      ∧ Taken s t p) := by
  set d := s.d.logNotice (BitVec.ofNat 128 (p.at 4 16)) (some p.src) with hd
  have hat : AtFn { s with d := d } p fn 0 0x62 := atFn_of_net h rfl
  have hrelay : (d.endPkt p.id).relay = d.relay := keeps_of_atFn hat Dev.relay (fun _ => rfl) rfl
  obtain ⟨hseq, hremote⟩ := s.d.logNotice_flds (BitVec.ofNat 128 (p.at 4 16)) p.src
  obtain ⟨subs, htaken, hsubs⟩ := s.d.logNotice_taken p
  refine ⟨_, exec_notice h (d := d) rfl (if_pos hok), ⟨rfl, rfl, ((Dev.Soft.refl s.d).logNotice _ _).endPkt p.id⟩,
    pkts_endPkt_of_atFn hat, ?_, ?_, ⟨subs, hrelay.trans htaken, hsubs⟩⟩
  · exact (fld_endPkt_of_atFn hat F.GLB_NLOG_STAT_NEXT_SEQ (by decide) 0).trans hseq
  · exact (fld_endPkt_of_atFn hat F.GLB_NLOG_C_REMOTE (by decide) _).trans hremote

theorem notice_refused (hfn : fn ≠ 0xFF) (hpriv : s.d.housePriv p.src = false) (hin : p.internal = false) :
    Completes (.notice p.id) s (fun t => Quiet s t ∧ t.d.net.pkts = []
      ∧ t.d.relay = s.d.relay ∧ Counts s t (16 + p.inl) 33 1) := by
  set d := s.d.discardAs p C.NOTICE_REFUSED with hd
  have hnet : d.net = s.d.net := s.d.net_discardAs p _
  have hat : AtFn { s with d := d } p fn 0 0x62 := atFn_of_net h hnet
  have hrelay : (d.endPkt p.id).relay = d.relay := keeps_of_atFn hat Dev.relay (fun _ => rfl) rfl
  refine ⟨_, exec_notice h hnet (if_neg (by simp [hfn, hpriv])), ⟨rfl, rfl, ((Dev.Soft.refl s.d).discardAs _ _).endPkt p.id⟩,
    pkts_endPkt_of_atFn hat, hrelay.trans (s.d.relay_discardAs p _), fun hi hs hc => ?_⟩
  refine (fld_endPkt_of_atFn hat F.CNT_VAL_VALUE (by decide) _).trans ?_
  have hport : d = (s.d.count (16 + p.inl) 33 1).countEv (16 + p.inl) 5 1 p.ctx := by
    rw [hd, Dev.discardAs, hin]
    rfl
  show d.fld _ (cntIdx (16 + p.inl) 33) = _
  rw [hport, Dev.fld_countEv_of_lt _ (by omega), Dev.fld_count_value hi hs hc]
  rfl

end

/-! ## What a purge leaves alone beside tables and Looms (R288) -/

/-- A device but for registers, logs, ports, flows, the ledger and contexts, and of the Looms their images alone. -/
def Dev.apart (d : Dev) : Dev × (Nat → NMap Image) :=
  ({ d.unlogged with looms := [], net := { d.net with ports := [], flows := [], ledger := [], ctxs := [] } },
    fun k => (d.loom k).images)

/-- `d'` is `d` with rates, flows and logs changed: packets, tables, images and the productions' own registers stay. -/
def Dev.Aside (d d' : Dev) : Prop := Dev.Within Dev.apart (· != .GLB_PROD) d d'

theorem Dev.Logs.aside {d d' : Dev} (h : d.Logs d') : d.Aside d' := by
  refine Dev.Within.mono h (fun hs => ?_) fun r hr => ?_
  · have himages : ∀ k, (d'.loom k).images = (d.loom k).images := fun k => by
      have e := congrArg (fun x : Dev => (x.loom k).images) hs
      exact e
    have hdev := congrArg (fun x : Dev =>
      { x with looms := [], net := { x.net with ports := [], flows := [], ledger := [], ctxs := [] } }) hs
    exact Prod.ext hdev (funext himages)
  · rw [bne_eq_false_iff_eq.1 hr]
    rfl

namespace Dev.Aside
variable {a d d' : Dev}

theorem refl (d : Dev) : d.Aside d := Dev.Within.refl d

/-- A change that no register and nothing else beside rates, flows and logs shows. -/
theorem of_regs (h : a.Aside d) (hs : d'.apart = d.apart) (hr : d'.regs = d.regs) : a.Aside d' := by
  have hf : d'.fuse = d.fuse := by have e := congrArg (fun x : Dev × (Nat → NMap Image) => x.1.fuse) hs; exact e
  exact Dev.Within.trans h ⟨hs, fun r i _ => Dev.rd_of_regs hr hf r i⟩

theorem logs (h : a.Aside d) (hl : d.Logs d') : a.Aside d' := Dev.Within.trans h hl.aside

theorem each {γ : Type} {f : Dev → γ → Dev} (h : a.Aside d) (l : List γ) (hf : ∀ d x, a.Aside d → a.Aside (f d x)) :
    a.Aside (d.each l f) := Dev.Within.each h l hf

theorem wr (h : a.Aside d) {r : RF} (hr : r ≠ .GLB_PROD) (i : Nat) (w : Word) : a.Aside (d.wr r i w) := by
  refine Dev.Within.trans h ⟨rfl, fun r' j hr' => Dev.rd_wr_of_ne _ _ _ _ _ _ ?_⟩
  rintro ⟨rfl, -⟩
  exact hr (bne_eq_false_iff_eq.1 hr')

theorem setFld (h : a.Aside d) {f : Fld} (hf : f.rf ≠ .GLB_PROD) (i v : Nat) : a.Aside (d.setFld f i v) := h.wr hf i _

theorem modPort (h : a.Aside d) (l : Nat) (f : Port → Port) : a.Aside (d.modPort l f) := h.of_regs rfl rfl

theorem modLoom (h : a.Aside d) (k : Nat) {f : Loom → Loom} (hf : ∀ x, (f x).images = x.images) : a.Aside (d.modLoom k f) := by
  refine h.of_regs (Prod.ext rfl (funext fun j => ?_)) rfl
  show ((d.setLoom k (f (d.loom k))).loom j).images = (d.loom j).images
  rw [Dev.loom_setLoom]
  split
  · next e => rw [hf, e]
  · rfl

theorem notice (h : a.Aside d) (ty src prod data : Nat) : a.Aside (d.notice ty src prod data) :=
  h.logs (Dev.Logs.notice (Dev.Within.refl d) _ _ _ _)

theorem guarantee (h : a.Aside d) (t prod cls tier res idx granted committed : Nat) :
    a.Aside (d.guarantee t prod cls tier res idx granted committed) :=
  h.logs (Dev.Logs.noticeLim (Dev.Within.refl d) _ _ _ _ _)

theorem guaranteeMove (h : a.Aside d) (prod cls tier res idx was old granted new : Nat) :
    a.Aside (d.guaranteeMove prod cls tier res idx was old granted new) := by
  unfold Dev.guaranteeMove
  split
  · exact h.guarantee _ _ _ _ _ _ _ _
  · split
    · exact h.guarantee _ _ _ _ _ _ _ _
    · exact h

theorem guaranteeChange (h : a.Aside d) (prod cls tier res idx was granted committed : Nat) :
    a.Aside (d.guaranteeChange prod cls tier res idx was granted committed) := h.guaranteeMove _ _ _ _ _ _ _ _ _

/-! ### Rates and running orders -/

theorem setBucket (h : a.Aside d) (l : Nat) (i : BucketId) (b : Bucket) : a.Aside (d.setBucket l i b) := h.modPort _ _

theorem bRerate (h : a.Aside d) (l : Nat) (is : List BucketId) {f : Dev → Dev} (hf : ∀ d, a.Aside d → a.Aside (f d)) :
    a.Aside (d.bRerate l is f) := by
  unfold Dev.bRerate
  refine each (hf _ (h.each _ fun d i hd => ?_)) _ fun d i hd => ?_
  · split
    · exact hd
    · exact hd.setBucket _ _ _
  · split
    · exact hd.setBucket _ _ _
    · split
      · exact hd.setBucket _ _ _
      · exact hd

theorem recommit (h : a.Aside d) (l : Nat) : a.Aside (d.recommit l) := h.setFld (by decide) _ _

theorem wrQrate (h : a.Aside d) (l q : Nat) (w : Word) : a.Aside (d.wrQrate l q w) := by
  unfold Dev.wrQrate
  extract_lets i old new ms vlOk fits
  split
  · exact (h.setFld (f := F.PRT_SCHED_REFUSED) (by decide) _ _).notice _ _ _ _
  · rename_i d1 g was d2 _
    have hrate : a.Aside d1 := h.bRerate _ _ fun d hd => hd.wr (by decide) _ _
    have hown : a.Aside d2 := (hrate.setFld (f := F.PRT_QOWN_GRANTED) (by decide) _ _).setFld (by decide) _ _
    exact (hown.guaranteeMove _ _ _ _ _ _ _ _ _).recommit _

theorem roStopNow (h : a.Aside d) (l : Nat) : a.Aside (d.roStopNow l) :=
  (((((h.modPort _ _).setFld (by decide) _ _).setFld (by decide) _ _).setFld (by decide) _ _).setFld (by decide) _ _).recommit _

theorem roState (h : a.Aside d) (l : Nat) : a.Aside (d.roState l) := h.setFld (by decide) _ _

theorem purgeRates (h : a.Aside d) (q : Nat) : a.Aside (d.purgeRates q) := by
  unfold Dev.purgeRates
  refine each (h.each _ fun d i hd => ?_) _ fun d i hd => ?_
  · split
    · exact hd.wrQrate _ _ _
    · exact hd
  · split
    · exact ((hd.setFld (by decide) _ _).roStopNow _).roState _
    · exact hd

theorem recomputePort (h : a.Aside d) (l : Nat) : a.Aside (d.recomputePort l) := by
  unfold Dev.recomputePort
  extract_lets p
  split
  extract_lets g7 left gc left' gm d1 d2 d3
  have hport : a.Aside d1 := h.modPort _ _
  have hcoll : a.Aside d3 := (hport.guaranteeChange _ _ _ _ _ _ _ _).each _ fun d x hd => hd.guaranteeChange _ _ _ _ _ _ _ _
  refine hcoll.each _ fun d x hd => ?_
  exact ((hd.setFld (f := F.PRT_QOWN_GRANTED) (by decide) _ _).setFld
    (f := F.PRT_QOWN_BREACHED) (by decide) _ _).guaranteeChange _ _ _ _ _ _ _ _

theorem reserveLane (h : a.Aside d) (prod lane : Nat) : a.Aside (d.reserveLane prod lane) := by
  unfold Dev.reserveLane
  extract_lets p was new
  split
  · exact h
  · rename_i g broken d1 d2 _
    have hrate : a.Aside d1 := h.bRerate _ _ fun d hd => (hd.modPort _ _).setFld (f := F.PRT_SCHED_COLL_RATE) (by decide) _ _
    have hmoved : a.Aside d2 := (hrate.recommit _).guaranteeMove _ _ _ _ _ _ _ _ _
    split
    · exact hmoved.recomputePort _
    · exact hmoved

theorem reserveAll (h : a.Aside d) (k prod : Nat) (lanes : List Nat) : a.Aside (d.reserveAll k prod lanes) := by
  unfold Dev.reserveAll
  extract_lets d1 d2 full
  have hpool : a.Aside d1 := h.setFld (by decide) _ _
  have hlanes : a.Aside d2 := hpool.each _ fun d l hd => hd.reserveLane _ _
  split
  · exact hlanes
  · extract_lets d3
    have hgrants : a.Aside d3 := hlanes.modLoom _ fun _ => rfl
    split
    · exact hgrants.guarantee _ _ _ _ _ _ _ _
    · exact hgrants

/-! ### Flows and contexts, where no packet is held -/

theorem setFlow (h : a.Aside d) (f : Flow) : a.Aside (d.setFlow f) := h.of_regs rfl rfl

theorem modCtx (h : a.Aside d) (k : CtxKey) (f : Ctx → Ctx) : a.Aside (d.modCtx k f) := h.of_regs rfl rfl

theorem setLedger (h : a.Aside d) (l : List Led) : a.Aside { d with net := { d.net with ledger := l } } := h.of_regs rfl rfl

theorem ledgerDrop (h : a.Aside d) (l : Led) : a.Aside (d.ledgerDrop l) := by
  unfold Dev.ledgerDrop Dev.noteLedger
  exact (((h.setFlow _).setLedger _).setFld (f := F.MEM_LEDGER_IN_USE) (by decide) _ _).setFld
    (f := F.MEM_LEDGER_HIGH) (by decide) _ _

theorem pkts (h : a.Aside d) : d.net.pkts = a.net.pkts := by
  have e := congrArg (fun x : Dev × (Nat → NMap Image) => x.1.net.pkts) h.still
  exact e

/-- A context without held packets only learns that its slot is empty. -/
theorem runCtx (h : a.Aside d) (hp : a.net.pkts = []) (k : CtxKey) : a.Aside (d.runCtx k) := by
  have hheld : d.heldOf k = [] := by
    unfold Dev.heldOf
    rw [h.pkts, hp]
    rfl
  unfold Dev.runCtx
  rw [hheld]
  unfold Dev.advance
  split
  · exact h
  · split
    · exact h
    · rw [hheld]
      exact h.modCtx _ _

theorem rsqRetry (h : a.Aside d) (hp : a.net.pkts = []) : a.Aside d.rsqRetry := by
  unfold Dev.rsqRetry
  rw [h.pkts, hp]
  exact h

theorem retryFlow (h : a.Aside d) (hp : a.net.pkts = []) (src dst : BitVec 32) : a.Aside (d.retryFlow src dst) := by
  have hctx : a.Aside ((d.runCtx ⟨src, dst, 1, true⟩).runCtx ⟨src, dst, 1, false⟩) := (h.runCtx hp _).runCtx hp _
  refine rsqRetry ?_ hp
  unfold Dev.retryFull
  split
  · exact hctx
  · exact hctx.each _ fun d c hd => hd.runCtx hp _

/-- With no packet on VL1 to VL7, a purge of packets settles the ledger and its flows. -/
theorem purgePackets (h : a.Aside d) (hp : a.net.pkts = []) (q : Nat) : a.Aside (d.purgePackets q) := by
  have hnone : d.prodPkts q = [] := by
    unfold Dev.prodPkts
    rw [h.pkts, hp]
    rfl
  unfold Dev.purgePackets
  extract_lets ps keys d1 leds d2 flows d3 d4
  have hps : ps = [] := hnone
  have hkeys : keys = [] := by simp [keys, hps]
  have h1 : a.Aside d1 := by
    simp only [d1, hps, Dev.each_nil]
    exact h
  have h2 : a.Aside d2 := h1.each _ fun d l hd => hd.ledgerDrop l
  have h3 : a.Aside d3 := h2.each _ fun d f hd => by
    split
    · exact hd
    · exact hd.setFlow _
  have h4 : a.Aside d4 := by
    simp only [d4, hkeys, List.dedup_nil, Dev.each_nil]
    exact h3
  exact (h4.each _ fun d f hd => hd.retryFlow hp _ _).rsqRetry hp

end Dev.Aside

/-! ## What a purge drops from the tables -/

theorem NMap.mem_of_find {α : Type} {k : Nat} {v : α} : ∀ {m : NMap α}, m.find k = some v → (k, v) ∈ m
  | [], h => by cases h
  | (j, w) :: m, h => by
    unfold NMap.find at h
    split at h
    · next e =>
      obtain rfl : w = v := Option.some.inj h
      exact e ▸ List.mem_cons_self
    · exact List.mem_cons_of_mem _ (NMap.mem_of_find h)

theorem Dev.mem_entries {d : Dev} {t i : Nat} {e : BitVec 512} (hi : i < 2 ^ 20) (h : d.ent t i = some e) : (i, e) ∈ d.entries t := by
  have hkey : tblKey t i / 2 ^ 20 = t ∧ tblKey t i % 2 ^ 20 = i := by unfold tblKey; omega
  refine List.mem_filterMap.2 ⟨_, NMap.mem_of_find h, ?_⟩
  rw [if_pos hkey.1, hkey.2]

/-- Every entry of `d'` is one of `d`. -/
def Dev.Sheds (d d' : Dev) : Prop := ∀ t i e, d'.ent t i = some e → d.ent t i = some e

theorem Dev.Sheds.trans {a b c : Dev} (h : a.Sheds b) (k : b.Sheds c) : a.Sheds c := fun t i e he => h t i e (k t i e he)

theorem Dev.Sheds.each {α : Type} {f : Dev → α → Dev} (hf : ∀ d x, Dev.Sheds d (f d x)) (l : List α) (d : Dev) :
    d.Sheds (d.each l f) := by
  induction l generalizing d with
  | nil => exact fun _ _ _ he => he
  | cons x l ih => exact (hf d x).trans (ih (f d x))

/-- A step drops one entry of the tables, and changes no other. -/
def Dev.Drops (d d' : Dev) (t i : Nat) : Prop := d'.tab.ent = d.tab.ent.erase (tblKey t i)

theorem Dev.drops_dropEnt (d : Dev) (t i : Nat) : d.Drops (d.dropEnt t i) t i := rfl

theorem Dev.Drops.gone {d d' : Dev} {t i : Nat} (h : d.Drops d' t i) : d'.ent t i = none := by
  unfold Dev.ent
  rw [h, NMap.find_erase, if_pos rfl]

theorem Dev.Drops.sheds {d d' : Dev} {t i : Nat} (h : d.Drops d' t i) : d.Sheds d' := by
  intro t' i' e he
  unfold Dev.ent at he
  rw [h, NMap.find_erase] at he
  split at he
  · cases he
  · exact he

/-- A pass that drops a table's entries of a production leaves none of them. -/
theorem Dev.prod_ne_of_pass {d : Dev} {t q : Nat} {prodOf : BitVec 512 → Nat} {f : Dev → Nat × BitVec 512 → Dev}
    (hf : ∀ d x, Dev.Drops d (f d x) t x.1) {i : Nat} {e : BitVec 512} (hi : i < 2 ^ 20)
    (he : (d.each ((d.entries t).filter (fun x => prodOf x.2 == q)) f).ent t i = some e) : prodOf e ≠ q := by
  intro hq
  have hsheds : ∀ (l : List (Nat × BitVec 512)) d, Dev.Sheds d (d.each l f) := Dev.Sheds.each fun d x => (hf d x).sheds
  have hmem : (i, e) ∈ (d.entries t).filter (fun x => prodOf x.2 == q) :=
    List.mem_filter.2 ⟨Dev.mem_entries hi (hsheds _ d t i e he), by simp [hq]⟩
  have hgone : ∀ (l : List (Nat × BitVec 512)) (d : Dev), (i, e) ∈ l → (d.each l f).ent t i = none := by
    intro l
    induction l with
    | nil => exact fun d hx => absurd hx List.not_mem_nil
    | cons x l ih =>
      intro d hx
      rcases List.mem_cons.1 hx with rfl | hx
      · refine Option.eq_none_iff_forall_ne_some.2 fun e' he' => ?_
        have hback := hsheds l _ t i e' he'
        rw [(hf d (i, e)).gone] at hback
        cases hback
      · exact ih (f d x) hx
  rw [hgone _ d hmem] at he
  cases he

/-- A device but for registers, the tables and the dead marks of end points. -/
def Dev.sansTables (d : Dev) : Dev := { d with regs := [], tab := {}, net := { d.net with deads := [] } }

/-- The one register family that a purge of the tables changes: what a port has learned. -/
def RF.learning (r : RF) : Bool := r == .PRT_LEARN

/-- A learned entry leaves the count of its port alone changed. -/
theorem Dev.within_unlearn (d : Dev) (i : Nat) : Dev.Within Dev.sansTables RF.learning d (d.unlearn i) := by
  unfold Dev.unlearn
  split
  · split
    · exact Dev.Within.refl d
    · refine ⟨rfl, fun r j hr => Dev.rd_setFld_of_ne _ _ _ _ _ _ ?_⟩
      rintro ⟨rfl, -⟩
      simp [RF.learning, F.PRT_LEARN_LEARNED] at hr
  · exact Dev.Within.refl d

theorem Dev.tab_unlearn (d : Dev) (i : Nat) : (d.unlearn i).tab = d.tab := by
  unfold Dev.unlearn
  split
  · split
    · rfl
    · rfl
  · rfl

section
variable (d : Dev) (q : Nat)

/-- A swatch of a struck production goes, with its move and its membership index. -/
def Dev.dropSwatch (d : Dev) (i : Nat) : Dev :=
  { d.dropEnt 3 i with tab := { (d.dropEnt 3 i).tab with moves := d.tab.moves.erase i, members := d.tab.members.erase i } }

theorem Dev.drops_dropSwatch (d : Dev) (i : Nat) : d.Drops (d.dropSwatch i) 3 i := rfl

def Dev.sansSwatches (d : Dev) (q : Nat) : Dev :=
  d.each ((d.entries 3).filter (fun x => swProd x.2 == q)) (fun d x => d.dropSwatch x.1)

def Dev.sansDeads (d : Dev) (q : Nat) : Dev := d.setDeads (d.net.deads.filter (fun x => x.prod ≠ q))

def Dev.sansCasts (d : Dev) (q : Nat) : Dev :=
  d.each ((d.entries 4).filter (fun x => castProd x.2 == q)) (fun d x => d.dropEnt 4 x.1)

def Dev.sansLearned (d : Dev) (q : Nat) : Dev :=
  d.each ((d.entries 1).filter (fun x => exKeyOf x.2 / 2 ^ 60 == q && !exStatic x.2)) (fun d x => (d.unlearn x.1).dropEnt 1 x.1)

/-- A purge of the tables goes table by table. -/
theorem Dev.purgeTables_eq : d.purgeTables q = (((d.sansSwatches q).sansDeads q).sansCasts q).sansLearned q := rfl

theorem Dev.within_purgeTables : Dev.Within Dev.sansTables RF.learning d (d.purgeTables q) := by
  have hdrop : ∀ (d : Dev) (t i : Nat), Dev.Within Dev.sansTables RF.learning d (d.dropEnt t i) :=
    fun d t i => ⟨rfl, fun r j _ => Dev.rd_of_regs rfl rfl r j⟩
  have hswatch : ∀ d i, Dev.Within Dev.sansTables RF.learning d (Dev.dropSwatch d i) :=
    fun d i => ⟨rfl, fun r j _ => Dev.rd_of_regs rfl rfl r j⟩
  have h1 : Dev.Within Dev.sansTables RF.learning d (d.sansSwatches q) :=
    (Dev.Within.refl d).each _ fun d' x h => h.trans (hswatch d' x.1)
  have h2 : Dev.Within Dev.sansTables RF.learning d ((d.sansSwatches q).sansDeads q) :=
    h1.trans ⟨rfl, fun r j _ => Dev.rd_of_regs rfl rfl r j⟩
  have h3 : Dev.Within Dev.sansTables RF.learning d (((d.sansSwatches q).sansDeads q).sansCasts q) :=
    h2.each _ fun d' x h => h.trans (hdrop d' 4 x.1)
  rw [Dev.purgeTables_eq]
  exact h3.each _ fun d' x h => (h.trans (d'.within_unlearn x.1)).trans (hdrop _ 1 x.1)

theorem Dev.sheds_sansLearned : d.Sheds (d.sansLearned q) := by
  refine Dev.Sheds.each (fun d x => ?_) _ d
  have hsheds := ((d.unlearn x.1).drops_dropEnt 1 x.1).sheds
  unfold Dev.Sheds Dev.ent at hsheds
  rwa [Dev.tab_unlearn] at hsheds

theorem Dev.sheds_sansCasts : d.Sheds (d.sansCasts q) := by
  refine Dev.Sheds.each (fun d x => ?_) _ d
  exact (d.drops_dropEnt 4 x.1).sheds

/-- No swatch of a purged production is left, and no cast. -/
theorem Dev.purgeTables_swatches {i : Nat} {e : BitVec 512} (hi : i < 2 ^ 20) (he : (d.purgeTables q).ent 3 i = some e) :
    swProd e ≠ q := by
  have hkept : (d.sansSwatches q).ent 3 i = some e :=
    Dev.sheds_sansCasts ((d.sansSwatches q).sansDeads q) q _ _ _ (Dev.sheds_sansLearned _ q _ _ _ he)
  exact Dev.prod_ne_of_pass (fun d x => d.drops_dropSwatch x.1) hi hkept

theorem Dev.purgeTables_casts {i : Nat} {e : BitVec 512} (hi : i < 2 ^ 20) (he : (d.purgeTables q).ent 4 i = some e) :
    castProd e ≠ q :=
  Dev.prod_ne_of_pass (fun d x => d.drops_dropEnt 4 x.1) hi (Dev.sheds_sansLearned _ q _ _ _ he)

end

/-! ## STRIKING begins (R288) -/

namespace Dev.Aside
variable {d d' : Dev} (h : d.Aside d')
include h

theorem outbox : d'.net.outbox = d.net.outbox := by
  have e := congrArg (fun x : Dev × (Nat → NMap Image) => x.1.net.outbox) h.still
  exact e

theorem strikes : d'.strikes = d.strikes := by
  have e := congrArg (fun x : Dev × (Nat → NMap Image) => x.1.strikes) h.still
  exact e

theorem tab : d'.tab = d.tab := by
  have e := congrArg (fun x : Dev × (Nat → NMap Image) => x.1.tab) h.still
  exact e

theorem images (k : Nat) : (d'.loom k).images = (d.loom k).images := by
  have e := congrArg (fun x : Dev × (Nat → NMap Image) => x.2 k) h.still
  exact e

end Dev.Aside

theorem Dev.outbox_of_sansTables {d d' : Dev} (h : d'.sansTables = d.sansTables) : d'.net.outbox = d.net.outbox := by
  have e := congrArg (fun x : Dev => x.net.outbox) h
  exact e

theorem Dev.strikes_of_sansTables {d d' : Dev} (h : d'.sansTables = d.sansTables) : d'.strikes = d.strikes := by
  have e := congrArg Dev.strikes h
  exact e

/-- A device whose Looms have let go of a production. -/
def Dev.loomsLetGo (d : Dev) (q : Nat) : Dev := { d with looms := d.looms.map (fun x => (x.1, x.2.purge q)) }

theorem Dev.aside_purgeLooms (d : Dev) (q : Nat) : (d.loomsLetGo q).Aside (d.purgeLooms q) := by
  unfold Dev.purgeLooms
  exact (Dev.Aside.refl (d.loomsLetGo q)).each _ fun d k hd => hd.reserveAll _ _ _

theorem Dev.loom_loomsLetGo (d : Dev) (q k : Nat) : (d.loomsLetGo q).loom k = (d.loom k).purge q :=
  NMap.get_map (fun x : Loom => x.purge q) d.looms ({} : Loom) rfl k

/-- Before the purge of the Looms, and after it and that of the rates. -/
def Dev.tablesPurged (d : Dev) (q : Nat) : Dev := (d.purgePackets q).purgeTables q

def Dev.ratesPurged (d : Dev) (q : Nat) : Dev := ((d.tablesPurged q).purgeLooms q).purgeRates q

/-- A production's last traces beside its STATE and GEN go: its name on buffers, its use of cells, its launcher and its key. -/
def Dev.forgetProd (d : Dev) (q : Nat) : Dev :=
  { (Dev.setFld { d with net := { d.net with bufs := d.net.bufs.map (fun (b : Nat × Buf) =>
          if b.2.prod = some q then (b.1, { b.2 with prod := none }) else b) } }
      F.WRD_PROD_USED q 0).setFld F.GLB_PROD_LAUNCHER q 0 with keys := d.keys.erase q }

theorem Dev.purge_eq (d : Dev) (q : Nat) : d.purge q = (d.ratesPurged q).forgetProd q := by
  unfold Dev.purge Dev.ratesPurged Dev.tablesPurged
  generalize (((d.purgePackets q).purgeTables q).purgeLooms q).purgeRates q = x
  rfl

section
variable (d : Dev) (q : Nat)

@[simp] theorem Dev.loomsLetGo_outbox : (d.loomsLetGo q).net.outbox = d.net.outbox := rfl
@[simp] theorem Dev.loomsLetGo_strikes : (d.loomsLetGo q).strikes = d.strikes := rfl
@[simp] theorem Dev.loomsLetGo_tab : (d.loomsLetGo q).tab = d.tab := rfl
@[simp] theorem Dev.loomsLetGo_rd (r : RF) (i : Nat) : (d.loomsLetGo q).rd r i = d.rd r i := Dev.rd_of_regs rfl rfl r i

@[simp] theorem Dev.forgetProd_outbox : (d.forgetProd q).net.outbox = d.net.outbox := rfl
@[simp] theorem Dev.forgetProd_strikes : (d.forgetProd q).strikes = d.strikes := rfl
@[simp] theorem Dev.forgetProd_tab : (d.forgetProd q).tab = d.tab := rfl
@[simp] theorem Dev.forgetProd_loom (k : Nat) : (d.forgetProd q).loom k = d.loom k := rfl

/-- STATE and GEN stand beside the launcher that goes. -/
theorem Dev.forgetProd_fld {f : Fld} (hf : f.rf = .GLB_PROD) (hw : f.lo ≤ f.hi) (hlo : 52 < f.lo) (i : Nat) :
    (d.forgetProd q).fld f i = d.fld f i := by
  refine (Dev.fld_setFld_of_ne _ F.GLB_PROD_LAUNCHER f q i 0 (by decide) hw (.inr (.inr hlo))).trans ?_
  refine (Dev.fld_setFld_of_ne _ F.WRD_PROD_USED f q i 0 (by decide) hw
    (.inl fun e => absurd (hf.symm.trans e.1) (by decide))).trans ?_
  exact Dev.fld_of_regs rfl rfl _ _

/-- A production that is forgotten holds no cells, no launcher and no key. -/
theorem Dev.forgetProd_used : (d.forgetProd q).fld F.WRD_PROD_USED q = 0 ∧ (d.forgetProd q).fld F.GLB_PROD_LAUNCHER q = 0
    ∧ (d.forgetProd q).keys.find q = none := by
  refine ⟨?_, Dev.fld_setFld_self _ F.GLB_PROD_LAUNCHER q 0 (by decide) (by decide), ?_⟩
  · refine (Dev.fld_setFld_of_ne _ F.GLB_PROD_LAUNCHER F.WRD_PROD_USED q q 0 (by decide) (by decide)
      (.inl fun e => absurd e.1 (by decide))).trans ?_
    exact Dev.fld_setFld_self _ _ _ _ (by decide) (by decide)
  · show (d.keys.erase q).find q = none
    rw [NMap.find_erase, if_pos rfl]

theorem Dev.aside_ratesPurged : ((d.tablesPurged q).loomsLetGo q).Aside (d.ratesPurged q) := (Dev.aside_purgeLooms _ q).purgeRates q

theorem Dev.purge_tab : (d.purge q).tab = (d.tablesPurged q).tab := by
  rw [Dev.purge_eq, Dev.forgetProd_tab, (d.aside_ratesPurged q).tab, Dev.loomsLetGo_tab]

end

theorem Dev.ent_of_tab {d d' : Dev} (h : d'.tab = d.tab) (t i : Nat) : d'.ent t i = d.ent t i := by
  unfold Dev.ent
  rw [h]

theorem Loom.purge_images (x : Loom) (q : Nat) : (x.purge q).images = x.images.filter (fun i => i.2.prod ≠ q) := rfl

/-- No swatch, cast or image of a purged production is left. -/
theorem Dev.purge_swatches {d : Dev} {q i : Nat} {e : BitVec 512} (hi : i < 2 ^ 20) (he : (d.purge q).ent 3 i = some e) :
    swProd e ≠ q := by
  rw [Dev.ent_of_tab (d.purge_tab q)] at he
  exact Dev.purgeTables_swatches (d.purgePackets q) q hi he

theorem Dev.purge_casts {d : Dev} {q i : Nat} {e : BitVec 512} (hi : i < 2 ^ 20) (he : (d.purge q).ent 4 i = some e) :
    castProd e ≠ q := by
  rw [Dev.ent_of_tab (d.purge_tab q)] at he
  exact Dev.purgeTables_casts (d.purgePackets q) q hi he

theorem Dev.purge_images {d : Dev} {q k x : Nat} {i : Image} (hx : (x, i) ∈ ((d.purge q).loom k).images) : i.prod ≠ q := by
  rw [Dev.purge_eq, Dev.forgetProd_loom, (d.aside_ratesPurged q).images, Dev.loom_loomsLetGo, Loom.purge_images] at hx
  simpa using (List.mem_filter.1 hx).2

section
variable {d : Dev} (hp : d.net.pkts = []) (q : Nat)
include hp

theorem Dev.tablesPurged_outbox : (d.tablesPurged q).net.outbox = d.net.outbox := by
  unfold Dev.tablesPurged
  rw [Dev.outbox_of_sansTables ((d.purgePackets q).within_purgeTables q).still, ((Dev.Aside.refl d).purgePackets hp q).outbox]

theorem Dev.tablesPurged_strikes : (d.tablesPurged q).strikes = d.strikes := by
  unfold Dev.tablesPurged
  rw [Dev.strikes_of_sansTables ((d.purgePackets q).within_purgeTables q).still, ((Dev.Aside.refl d).purgePackets hp q).strikes]

theorem Dev.tablesPurged_prod (i : Nat) : (d.tablesPurged q).rd .GLB_PROD i = d.rd .GLB_PROD i := by
  unfold Dev.tablesPurged
  rw [((d.purgePackets q).within_purgeTables q).regs .GLB_PROD i rfl, ((Dev.Aside.refl d).purgePackets hp q).regs .GLB_PROD i rfl]

/-- A device without packets purges in silence. -/
theorem Dev.purge_outbox : (d.purge q).net.outbox = d.net.outbox := by
  rw [Dev.purge_eq, Dev.forgetProd_outbox, (d.aside_ratesPurged q).outbox, Dev.loomsLetGo_outbox, Dev.tablesPurged_outbox hp]

theorem Dev.purge_strikes : (d.purge q).strikes = d.strikes := by
  rw [Dev.purge_eq, Dev.forgetProd_strikes, (d.aside_ratesPurged q).strikes, Dev.loomsLetGo_strikes, Dev.tablesPurged_strikes hp]

/-- STATE and GEN stand over a purge. -/
theorem Dev.purge_prodFld {f : Fld} (hf : f.rf = .GLB_PROD) (hw : f.lo ≤ f.hi) (hlo : 52 < f.lo) (i : Nat) :
    (d.purge q).fld f i = d.fld f i := by
  rw [Dev.purge_eq, Dev.forgetProd_fld _ q hf hw hlo]
  unfold Dev.fld
  rw [hf, (d.aside_ratesPurged q).regs _ i rfl, Dev.loomsLetGo_rd, Dev.tablesPurged_prod hp]

end

/-- The device that a purge starts from: STRIKING, with a job for the sender. -/
def Dev.strikeStarted (d : Dev) (q gen : Nat) (src : BitVec 32) (tc : Nat) : Dev :=
  { (d.setFld F.GLB_PROD_STATE q 2).setFld F.GLB_PROD_GEN q gen with
    strikes := d.strikes.filter (fun j => j.prod ≠ q)
      ++ [⟨q, gen, d.tmu.total, d.cellsOf ((d.prodPkts q).map (fun p => p.buf)).dedup, [(src, tc)]⟩] }

theorem Dev.beginStrike_eq (d : Dev) (q gen : Nat) (src : BitVec 32) (tc : Nat) :
    d.beginStrike q gen src tc = (d.strikeStarted q gen src tc).purge q := by
  unfold Dev.beginStrike Dev.strikeStarted
  rfl

/-- STRIKING begins with the packet of the STRIKE ended. -/
theorem striking_of_begins {s : State} {p : Pkt} (h : AtFn s p 0 0 0x73)
    (hm : MakesThenRoutes (.strike p.id) s ((s.d.endPkt p.id).beginStrike p.prod p.gen p.src p.tc)) :
    Completes (.strike p.id) s (fun t => Striking s t p) := by
  rw [Dev.beginStrike_eq] at hm
  set d := (s.d.endPkt p.id).strikeStarted p.prod p.gen p.src p.tc
  have hpkts : d.net.pkts = [] := pkts_endPkt_of_atFn h
  have hout : (d.purge p.prod).net.outbox = [] := (Dev.purge_outbox hpkts _).trans (outbox_endPkt_of_atFn h)
  have hgen : d.fld F.GLB_PROD_GEN p.prod = p.gen :=
    (Dev.fld_setFld_self _ F.GLB_PROD_GEN _ _ (by decide) (by decide)).trans (Nat.mod_eq_of_lt p.gen_lt)
  have hstate : d.fld F.GLB_PROD_STATE p.prod = 2 :=
    (Dev.fld_setFld_of_ne _ F.GLB_PROD_GEN F.GLB_PROD_STATE _ _ _ (by decide) (by decide) (.inr (by decide))).trans
      (Dev.fld_setFld_self _ _ _ _ (by decide) (by decide))
  have hjob : ∃ j ∈ (d.purge p.prod).strikes, j.prod = p.prod ∧ j.gen = p.gen ∧ j.senders = [(p.src, p.tc)] := by
    rw [Dev.purge_strikes hpkts]
    exact ⟨_, List.mem_append_right _ List.mem_cons_self, rfl, rfl, rfl⟩
  refine completes_of_makesNothing hm hout ?_
  exact {
    state := (Dev.purge_prodFld hpkts _ rfl (by decide) (by decide) _).trans hstate
    gen := (Dev.purge_prodFld hpkts _ rfl (by decide) (by decide) _).trans hgen
    job := hjob
    swatches := fun _ _ => Dev.purge_swatches
    casts := fun _ _ => Dev.purge_casts
    images := fun _ _ _ => Dev.purge_images
    used := Dev.purge_eq d p.prod ▸ Dev.forgetProd_used _ _ }

end Sys2Proof.Machine

namespace Sys2Proof.Claims
open Sys2Proof.Machine

/-- Settles O40: each command's outcome is a named device that its packets are then routed from; a STRIKE purges a device without
packets, which sends nothing, so STRIKING stands as the purge leaves it. -/
theorem productionCommands : Obligations.ProductionCommands := by
  intro s p
  refine ⟨fun h hs => ?strike, fun h hs => ?sealed, ?purged, fun h => ⟨fun hst => ?launched, fun st hst => launch_refused h hst⟩,
    fun h => ?reply, ?deadline, fun h => notice_logged h (.inl rfl), fun fn h hfn => ⟨fun hpriv => ?heard, fun hpriv hin => ?refused⟩⟩
  case strike =>
    refine ⟨fun h1 hg => striking_of_begins h (strike_begins h hs (.inr (.inl ⟨h1, hg⟩))),
      fun h0 => striking_of_begins h (strike_begins h hs (.inl h0)), fun h1 hg => ?_, fun h2 hg => strike_joins_completes h hs h2 hg,
      fun h3 hg => strike_answer_sent h hs (by decide) (.inr (.inl ⟨h3, hg, rfl⟩)), fun h3 hg => ⟨fun hn => ?_, fun hn => ?_⟩⟩
    · exact ⟨strike_stale_completes h hs h1 hg, strike_answer_sent h hs (by decide) (.inl ⟨h1, hg, rfl⟩)⟩
    · exact striking_of_begins h (strike_begins h hs (.inr (.inr ⟨h3, hg, hn⟩)))
    · exact strike_answer_sent h hs (by decide) (.inr (.inr ⟨h3, hg, hn, rfl⟩))
  case sealed => exact ⟨fun h3 hg => seal_struck h hs h3 hg, fun h3 => seal_notStruck h hs h3⟩
  case purged =>
    intro prod j x hprod _ hj hp hx
    exact ⟨strikePurgeDone_completes hj hp, strikePurgeDone_answers hprod hj hp hx⟩
  case launched => exact ⟨launch_completes h hst, fun hn => launch_leaf_answers h hst hn⟩
  case reply =>
    refine ⟨fun hno => launchReply_late h ?_, fun j hl hlate => ?_,
      fun j ca sub hl htag hin hk hca => launchReply_taken h hl htag hin hk hca⟩
    · exact List.find?_eq_none.2 fun j hj => by simp [Dev.replyFits, hno j hj]
    · have hnone : s.d.launches.find? (s.d.replyFits p) = none := by
        rw [hl]
        simp [Dev.replyFits, Nat.not_lt.2 hlate]
      exact hl ▸ launchReply_late h hnone
  case deadline =>
    intro prod j hc hl hj hprod
    refine ⟨fun hk hmiss => ?_, fun hk _ hlate => ?_, fun hk hearly => ?_⟩
    · have hdue : s.d.repliesDue prod j = true := by simp [Dev.repliesDue, hj, hk]
      exact launchReplyDeadline_due hl hprod hj hdue (st := St.OK) (by simp [hk, hmiss]) (by decide)
    · have hdue : s.d.repliesDue prod j = true := by simp [Dev.repliesDue, hj, hlate]
      obtain ⟨hdone, hsent⟩ := launchReplyDeadline_due hl hprod hj hdue (st := St.POISON) (by simp [hk]) (by decide)
      exact ⟨hdone, sendsSome_mono hsent fun q hq => hq.1⟩
    · have hdue : s.d.repliesDue prod j = false := by simp [Dev.repliesDue, hk, Nat.not_le.2 hearly]
      exact launchReplyDeadline_early hl hc hdue
  case heard =>
    refine (notice_logged h (.inr hpriv)).mono ?_
    rintro t ⟨hquiet, hpkts, -, -, htaken⟩
    exact ⟨hquiet, hpkts, htaken⟩
  case refused => exact notice_refused h hfn hpriv hin

end Sys2Proof.Claims
end

section
/-! What the packet path leaves of a lane's credit: the flits that peers have charged (R254). -/

namespace Sys2Proof.Machine
open Sys2Proof.Claims

/-! ## What a lane's peer has charged -/

/-- The flits that a peer has charged on a lane and VL, of normal and of detour credit (R254). -/
def Dev.received (d : Dev) (k : Nat) : Nat × Nat := ((d.lv k).nRx, (d.lv k).dRx)

theorem Dev.received_congr {d d' : Dev} (h : d'.net.lvs = d.net.lvs) : d'.received = d.received := by
  unfold Dev.received Dev.lv; rw [h]

/-- An update of a lane-VL that keeps what its peer has charged. -/
theorem Dev.received_setLv {d : Dev} {k : Nat} {x : LaneVl} (h : (x.nRx, x.dRx) = d.received k) :
    (d.setLv k x).received = d.received := by
  funext j
  simp only [Dev.received, Dev.lv, Dev.setLv, NMap.get_put] at h ⊢
  split
  · next e => rw [e, h]
  · rfl

theorem Dev.Logs.refl (d : Dev) : d.Logs d := Dev.Within.refl d

theorem Dev.Logs.received {d d' : Dev} (h : d.Logs d') : d'.received = d.received :=
  Dev.received_congr (by have e := congrArg (fun x => x.net.lvs) h.still; exact e)

section
variable (d : Dev)

/-! ### Counters, notices, and single updates -/

@[simp] theorem Dev.received_count (i c n : Nat) : (d.count i c n).received = d.received := ((Dev.Logs.refl d).count _ _ _).received
@[simp] theorem Dev.received_countEv (i e n : Nat) (x : EvCtx) : (d.countEv i e n x).received = d.received :=
  ((Dev.Logs.refl d).countEv _ _ _ _).received
@[simp] theorem Dev.received_countGlb (c : Nat) : (d.countGlb c).received = d.received := d.received_count _ _ _
@[simp] theorem Dev.received_countTbl (c : Nat) : (d.countTbl c).received = d.received := d.received_count _ _ _
@[simp] theorem Dev.received_countWrd (c : Nat) : (d.countWrd c).received = d.received := d.received_count _ _ _
@[simp] theorem Dev.received_countMem (c : Nat) : (d.countMem c).received = d.received := d.received_count _ _ _
@[simp] theorem Dev.received_countPort (l c : Nat) : (d.countPort l c).received = d.received := d.received_count _ _ _
@[simp] theorem Dev.received_noticeLim (t src prod data key : Nat) : (d.noticeLim t src prod data key).received = d.received :=
  ((Dev.Logs.refl d).noticeLim _ _ _ _ _).received
@[simp] theorem Dev.received_discardAs (p : Pkt) (c : Nat) : (d.discardAs p c).received = d.received :=
  ((Dev.Logs.refl d).discardAs _ _).received
@[simp] theorem Dev.received_discardOther (p : Pkt) : (d.discardOther p).received = d.received := by
  unfold Dev.discardOther; split <;> simp
@[simp] theorem Dev.received_countDrop (p : Pkt) : (d.countDrop p).received = d.received := by
  unfold Dev.countDrop; split <;> simp

@[simp] theorem Dev.received_setFld (f : Fld) (i v : Nat) : (d.setFld f i v).received = d.received := rfl
@[simp] theorem Dev.received_addUsed (p n : Nat) : (d.addUsed p n).received = d.received := rfl
@[simp] theorem Dev.received_subUsed (p n : Nat) : (d.subUsed p n).received = d.received := rfl
@[simp] theorem Dev.received_setLane (l : Nat) (x : Lane) : (d.setLane l x).received = d.received := rfl
@[simp] theorem Dev.received_modLane (l : Nat) (f : Lane → Lane) : (d.modLane l f).received = d.received := rfl
@[simp] theorem Dev.received_modPkt (id : Nat) (f : Pkt → Pkt) : (d.modPkt id f).received = d.received := rfl
@[simp] theorem Dev.received_dropPkt (id : Nat) : (d.dropPkt id).received = d.received := rfl
@[simp] theorem Dev.received_addPkt (p : Pkt) : (d.addPkt p).2.received = d.received := rfl
@[simp] theorem Dev.received_pushPkt (p : Pkt) (pl : Place) : (d.pushPkt p pl).received = d.received := rfl
@[simp] theorem Dev.received_addBuf (b : Buf) : (d.addBuf b).2.received = d.received := rfl
@[simp] theorem Dev.received_forgetRx (id : Nat) : (d.forgetRx id).received = d.received := rfl
@[simp] theorem Dev.received_send (p : Pkt) : (d.send p).received = d.received := rfl
@[simp] theorem Dev.received_moveTo (id : Nat) (pl : Place) : (d.moveTo id pl).received = d.received := rfl
@[simp] theorem Dev.received_modCtx (k : CtxKey) (f : Ctx → Ctx) : (d.modCtx k f).received = d.received := rfl
@[simp] theorem Dev.received_addCtx (c : Ctx) : (d.addCtx c).received = d.received := rfl
@[simp] theorem Dev.received_setFlow (f : Flow) : (d.setFlow f).received = d.received := rfl
@[simp] theorem Dev.received_ledgerAdd (p : Pkt) : (d.ledgerAdd p).received = d.received := rfl
@[simp] theorem Dev.received_ledgerDrop (l : Led) : (d.ledgerDrop l).received = d.received := rfl
@[simp] theorem Dev.received_countPoison (c : BitVec 32) (p : Nat) : (d.countPoison c p).received = d.received := rfl
@[simp] theorem Dev.received_setOrigins (l : List Origin) : (d.setOrigins l).received = d.received := rfl
@[simp] theorem Dev.received_raiseErr (s t : BitVec 32) (st : Nat) (w : Bool) : (d.raiseErr s t st w).received = d.received := by
  unfold Dev.raiseErr; dsimp only; split <;> rfl

/-! ### Cells and credit -/

@[simp] theorem Dev.received_giveBack (k : Nat) : (d.giveBack k).received = d.received := by
  unfold Dev.giveBack; dsimp only; split
  · rfl
  · exact Dev.received_setLv rfl

@[simp] theorem Dev.received_grantShared (k : Nat) : (d.grantShared k).received = d.received := by
  unfold Dev.grantShared; dsimp only; split
  · exact Dev.received_setLv rfl
  · rfl

@[simp] theorem Dev.received_grant (k : Nat) : (d.grant k).received = d.received := by
  unfold Dev.grant; split <;> simp

@[simp] theorem Dev.received_chargeLane (k : Nat) (o : Bool) (p : Pkt) : (d.chargeLane k o p).2.received = d.received := by
  unfold Dev.chargeLane; dsimp only
  split
  · exact Dev.received_setLv rfl
  · split
    · exact Dev.received_setLv rfl
    · unfold Dev.when; split <;> simp <;> exact Dev.received_setLv rfl

@[simp] theorem Dev.received_returnCells (b : Buf) (n : Nat) : (d.returnCells b n).received = d.received := by
  have hused : (if b.pool = .coll ∨ b.pool = .collDue then d else d.whenSome b.prod (fun q d => d.subUsed q n)).received
      = d.received := by
    cases b.prod <;> split <;> simp
  unfold Dev.returnCells
  dsimp only
  split
  case h_1 | h_2 | h_3 =>
    rw [Dev.received_grant]
    refine Eq.trans ?_ hused
    exact Dev.received_setLv rfl
  all_goals exact hused

@[simp] theorem Dev.received_freeBuf (id : Nat) : (d.freeBuf id).received = d.received := by
  unfold Dev.freeBuf
  split
  · rfl
  · split
    · rfl
    · exact Dev.received_returnCells _ _ _

@[simp] theorem Dev.received_trimBuf (id : Nat) : (d.trimBuf id).received = d.received := by
  unfold Dev.trimBuf
  split
  · rfl
  · split
    · exact Dev.received_returnCells _ _ _
    · rfl

@[simp] theorem Dev.received_endPkt (id : Nat) : (d.endPkt id).received = d.received := by
  unfold Dev.endPkt; split <;> simp

theorem Dev.received_refuseReq (p : Pkt) (st : Nat) {drop : Dev → Dev} (hd : (drop d).received = d.received) :
    (d.refuseReq p st drop).received = d.received := by
  unfold Dev.refuseReq; split <;> simp [hd]

theorem Dev.received_refuse (p : Pkt) (st : Nat) {drop : Dev → Dev} (hd : ∀ d : Dev, (drop d).received = d.received) :
    (d.refuse p st drop).received = d.received := by
  unfold Dev.refuse; dsimp only; split
  · simp
  · split <;> simp [hd]

@[simp] theorem Dev.received_refuseGen (p : Pkt) (st : Nat) : (d.refuseGen p st).received = d.received := by
  have hstale : ∀ d : Dev, (d.countStale p).received = d.received := fun d => by
    unfold Dev.countStale; repeat' split
    all_goals simp
  unfold Dev.refuseGen; dsimp only
  rw [Dev.received_refuse _ _ _ (fun d => by split <;> simp)]
  split <;> simp [hstale]

theorem Dev.received_chargeSource {k : Nat} {p : Pkt} {x : Nat × Dev} (h : d.chargeSource k p = some x) :
    x.2.received = d.received := by
  unfold Dev.chargeSource at h; dsimp only at h
  split at h
  · cases h; exact Dev.received_setLv rfl
  · split at h
    · cases h; unfold Dev.when; split <;> simp <;> exact Dev.received_setLv rfl
    · cases h

theorem Dev.received_chargeColl {id : Nat} {x : Dev} (h : d.chargeColl id = some x) : x.received = d.received := by
  unfold Dev.chargeColl at h
  split at h
  · cases h; rfl
  · split at h
    · cases h; rfl
    · split at h
      · cases h; rfl
      · cases h

/-! ### Resequencing -/

@[simp] theorem Dev.received_completeReq (p : Pkt) (st l : Nat) : (d.completeReq p st l).received = d.received := by
  unfold Dev.completeReq; dsimp only; split <;> simp

@[simp] theorem Dev.received_letGo (p : Pkt) (l : Nat) : (d.letGo p l).received = d.received := by
  unfold Dev.letGo; repeat' split
  all_goals simp

@[simp] theorem Dev.received_countMark (p : Pkt) (l m : Nat) : (d.countMark p l m).received = d.received := by
  unfold Dev.countMark; dsimp only; repeat' split
  all_goals simp

theorem Dev.received_deliver1 {c : Ctx} {p : Pkt} {x : Dev} (h : d.deliver1 c p = some x) : x.received = d.received := by
  unfold Dev.deliver1 at h; dsimp only at h
  repeat' split at h
  all_goals cases h
  all_goals simp

end

theorem Dev.received_advance (n : Nat) : ∀ (d : Dev) (k : CtxKey), (Dev.advance n d k).received = d.received := by
  induction n with
  | zero => intro d k; rfl
  | succ n ih =>
    intro d k
    unfold Dev.advance
    split
    · rfl
    · split
      · rfl
      · split
        · simp
        · split
          · next hd => rw [ih]; exact (Dev.received_modCtx _ _ _).trans (d.received_deliver1 hd)
          · dsimp only; split <;> simp

section
variable (d : Dev)

@[simp] theorem Dev.received_runCtx (k : CtxKey) : (d.runCtx k).received = d.received := Dev.received_advance _ d k

theorem Dev.received_gapReport {c : Ctx} {p : Pkt} {f n : Nat} {x : Dev} (h : d.gapReport c p f n = some x) :
    x.received = d.received := by
  unfold Dev.gapReport at h; dsimp only at h
  split at h
  · cases h; rfl
  · obtain ⟨y, hy, rfl⟩ := Option.map_eq_some_iff.1 h
    simp [d.received_chargeSource hy]

theorem Dev.received_skipGap {c : Ctx} {p : Pkt} {n : Nat} {x : Dev} (h : d.skipGap c p n = some x) : x.received = d.received := by
  unfold Dev.skipGap at h; dsimp only at h
  split at h
  · exact d.received_gapReport h
  · cases h; split <;> simp

theorem Dev.received_skipTo {c : Ctx} {p : Pkt} {x : Dev} (h : d.skipTo c p = some x) : x.received = d.received := by
  unfold Dev.skipTo at h
  split at h
  · cases h; rfl
  · exact d.received_skipGap h

/-- A change made where a value is present keeps what each such change keeps. -/
theorem Dev.whenSome_keeps {α β : Type} (g : Dev → β) (d : Dev) (o : Option α) {f : α → Dev → Dev}
    (hf : ∀ x, o = some x → g (f x d) = g d) : g (d.whenSome o f) = g d := by
  cases o with
  | none => rfl
  | some x => exact hf x rfl

@[simp] theorem Dev.received_expireGap (k : CtxKey) : (d.expireGap k).received = d.received := by
  unfold Dev.expireGap
  refine Dev.whenSome_keeps Dev.received d _ fun c _ => ?_
  cases d.lowestHeld c with
  | none => rfl
  | some p => exact Dev.whenSome_keeps Dev.received d _ fun x hx => by simp [d.received_skipTo hx]

@[simp] theorem Dev.received_lateOrDup (c : Ctx) (p : Pkt) : (d.lateOrDup c p).received = d.received := by
  unfold Dev.lateOrDup; repeat' split
  all_goals simp

end

theorem Dev.received_overrunTo (n : Nat) : ∀ (d : Dev) (k : CtxKey) (p : Pkt) (u : Nat),
    (Dev.overrunTo n d k p u).received = d.received := by
  induction n with
  | zero => intro d k p u; rfl
  | succ n ih =>
    intro d k p u
    have hskip : ∀ (c : Ctx) (q : Pkt) (m : Nat) (f : Ctx → Ctx),
        (d.whenSome (d.skipGap c q m) (fun x _ => x.modCtx k f)).received = d.received := fun c q m f =>
      Dev.whenSome_keeps Dev.received d _ fun x hx => (x.received_modCtx _ _).trans (d.received_skipGap hx)
    unfold Dev.overrunTo
    split
    · rfl
    · split
      · rfl
      · split
        · rfl
        · split
          · split
            · rw [ih, d.received_expireGap]
            · exact hskip _ _ _ _
          · exact hskip _ _ _ _

section
variable (d : Dev)

@[simp] theorem Dev.received_rsqFeed (c : Ctx) (p : Pkt) (l q : Nat) : (d.rsqFeed c p l q).received = d.received := by
  unfold Dev.rsqFeed; dsimp only
  repeat' split
  all_goals simp [Dev.received_overrunTo]

@[simp] theorem Dev.received_rsqNumber (c : Ctx) (p : Pkt) : (d.rsqNumber c p).received = d.received := by
  unfold Dev.rsqNumber; split <;> simp

@[simp] theorem Dev.received_rsqOpen (p : Pkt) (l q : Nat) : (d.rsqOpen p l q).received = d.received := by
  unfold Dev.rsqOpen; dsimp only; split <;> simp

@[simp] theorem Dev.received_rsqJoin (c : Ctx) (p : Pkt) (l q : Nat) : (d.rsqJoin c p l q).received = d.received := by
  unfold Dev.rsqJoin; dsimp only; split <;> simp

@[simp] theorem Dev.received_rsqPlace (id l q : Nat) : (d.rsqPlace id l q).received = d.received := by
  unfold Dev.rsqPlace; repeat' split
  all_goals simp

@[simp] theorem Dev.received_rsqRetry : d.rsqRetry.received = d.received := by
  refine Dev.each_keeps Dev.received _ (fun d x => ?_) _ d
  repeat' split
  all_goals simp

@[simp] theorem Dev.received_retryFlow (s t : BitVec 32) : (d.retryFlow s t).received = d.received := by
  have hfull : ∀ d : Dev, d.retryFull.received = d.received := fun d => by
    unfold Dev.retryFull; split
    · rfl
    · exact Dev.each_keeps Dev.received _ (fun d c => d.received_runCtx _) _ d
  unfold Dev.retryFlow
  simp [hfull]

/-! ### Routing -/

@[simp] theorem Dev.received_noteParity (t i : Nat) : (d.noteParity t i).received = d.received := by simp [Dev.noteParity]

@[simp] theorem Dev.received_look (t i : Nat) : (d.look t i).2.received = d.received := by
  unfold Dev.look; repeat' split
  all_goals simp

@[simp] theorem Dev.received_tcamCoord (p t : Nat) : (d.tcamCoord p t).2.received = d.received :=
  Dev.each_keeps Dev.received _ (fun d _ => d.received_noteParity _ _) _ d

@[simp] theorem Dev.received_select (p : Pkt) (s : Nat) (o : Bool) : (d.select p s o).2.received = d.received := by
  have hcheck : ∀ ms, ((d.members s).2.checkSpray s ms).received = d.received := fun ms => by
    refine (Dev.each_keeps Dev.received _ (fun d m => ?_) _ _).trans ?_
    · repeat' split
      all_goals simp
    · simp [Dev.members]
  unfold Dev.select; dsimp only
  repeat' split
  all_goals exact hcheck _

theorem Dev.received_assignPsn {p : Pkt} {x : Nat × Dev} (h : d.assignPsn p = some x) : x.2.received = d.received := by
  unfold Dev.assignPsn at h; dsimp only at h
  repeat' split at h
  all_goals cases h
  all_goals rfl

@[simp] theorem Dev.received_enqueue (id l : Nat) : (d.enqueue id l).received = d.received := by
  have hmark : ∀ p, (d.markPkt p l).received = d.received := fun p => by simp [Dev.markPkt]
  unfold Dev.enqueue; dsimp only; repeat' split
  all_goals simp [hmark]

@[simp] theorem Dev.received_refuseRoute (p : Pkt) (c s : Nat) : (d.refuseRoute p c s).received = d.received := by
  have hnote : ∀ x, (d.noteRoute p c x).received = d.received := fun x => by unfold Dev.noteRoute; split <;> simp
  unfold Dev.refuseRoute; split
  · simp
  · rw [Dev.received_refuse _ _ _ (fun d => d.received_discardAs _ _), hnote]

@[simp] theorem Dev.received_unsupported (p : Pkt) : (d.unsupported p).received = d.received :=
  Dev.received_refuse _ _ _ (fun d => d.received_discardOther _)

@[simp] theorem Dev.received_toLocal (p : Pkt) : (d.toLocal p).received = d.received := by
  unfold Dev.toLocal
  generalize bitsOf p.dst 7 0 = fn
  dsimp only
  repeat' split
  · simp
  · unfold Dev.toBolt; repeat' split
    all_goals simp
  · unfold Dev.toLoom; repeat' split
    all_goals simp
  · unfold Dev.toPrompter; repeat' split
    all_goals simp
  · simp
  · exact Dev.received_refuseReq _ _ _ (d.received_discardAs _ _)

@[simp] theorem Dev.received_routeSet (p : Pkt) : (d.routeSet p).2.received = d.received := by
  have hentry : ∀ (d : Dev) t n v s, (d.routeEntry t n v s).2.received = d.received := fun d t n v s => by
    unfold Dev.routeEntry; repeat' split
    all_goals simp
  have harith : ∀ d : Dev, (d.arithmetic p.dst.toNat).2.received = d.received := fun d => by
    unfold Dev.arithmetic; repeat' split
    all_goals simp [hentry]
  have htcam := d.received_tcamCoord p.prod p.dst.toNat
  unfold Dev.routeSet
  split
  · next e => rw [e] at htcam; split <;> exact htcam
  · next d1 e =>
    rw [e] at htcam
    have h1 := harith d1
    split
    · next e1 => rw [e1] at h1; exact h1.trans htcam
    · next e1 => rw [e1] at h1; exact h1.trans htcam

theorem Dev.received_chargeOut {p : Pkt} {x : Nat × Dev} (h : d.chargeOut p = some x) : x.2.received = d.received := by
  unfold Dev.chargeOut at h
  split at h
  · exact d.received_chargeSource h
  · obtain ⟨y, hy, rfl⟩ := Option.map_eq_some_iff.1 h
    exact d.received_chargeColl hy

@[simp] theorem Dev.received_takeLane (p : Pkt) (l n : Nat) (o : Bool) : (d.takeLane p l n o).received = d.received := by
  unfold Dev.takeLane
  split
  · unfold Dev.stallPkt; split <;> simp
  · next x hx =>
    have hnum : x.2.received = d.received := by
      unfold Dev.numberPkt at hx
      split at hx
      · obtain ⟨y, hy, rfl⟩ := Option.map_eq_some_iff.1 hx
        exact d.received_assignPsn hy
      · cases hx; rfl
    dsimp only
    split
    · rfl
    · next y hy =>
      simp [Dev.received_chargeOut _ hy, hnum]

@[simp] theorem Dev.received_proceed (p : Pkt) (r : Route) : (d.proceed p r).received = d.received := by
  unfold Dev.proceed
  split
  · rfl
  · split
    · simp
    · next s o =>
      have h := d.received_select p s o
      split
      · next e => rw [e] at h; simpa using h
      · next e => rw [e] at h; exact h
      · next e => rw [e] at h; simpa using h

@[simp] theorem Dev.received_routed (p : Pkt) (r : Route) : (d.routed p r).received = d.received := by simp [Dev.routed]

@[simp] theorem Dev.received_forward (id : Nat) : (d.forward id).received = d.received := by
  unfold Dev.forward
  split
  · rfl
  · next p _ =>
    split
    · simp
    · split
      · simp
      · split
        · simp
        · have h := d.received_routeSet p
          split
          · next e => rw [e] at h; simpa using h
          · next e => rw [e] at h; simpa using h

@[simp] theorem Dev.received_settle : d.settle.received = d.received := by
  have hmade : ∀ d : Dev, d.sendMade.received = d.received := fun d =>
    (Dev.each_keeps Dev.received _ (fun d p => by simp) _ _)
  unfold Dev.settle
  rw [hmade, hmade]

end
end Sys2Proof.Machine
end

section
/-! Flits on a lane whose link runs: taken or refused, and a head's arrival in its cases (R37, R62, R254, R255). -/

namespace Sys2Proof.Machine
open Sys2Proof.Claims

/-! ## Flits on a lane whose link runs -/

@[simp] theorem Dev.lane_setLane (d : Dev) (l : Nat) (x : Lane) (j : Nat) : (d.setLane l x).lane j = if j = l then x else d.lane j := by
  simp [Dev.lane, Dev.setLane]

@[simp] theorem Dev.lane_modLane (d : Dev) (l : Nat) (f : Lane → Lane) (j : Nat) :
    (d.modLane l f).lane j = if j = l then f (d.lane l) else d.lane j := d.lane_setLane _ _ _

theorem Dev.lane_congr {d d' : Dev} (h : d'.net.lanes = d.net.lanes) (l : Nat) : d'.lane l = d.lane l := by unfold Dev.lane; rw [h]

/-- With no end point to declare dead, nothing is declared. -/
theorem Dev.declareDue_of_empty {d : Dev} (h : d.net.endsDown = []) (m : Mem) : d.declareDue m = d := by
  have hnet : { d.net with endsDown := [] } = d.net := by rw [← h]
  unfold Dev.declareDue
  rw [h, Dev.each_nil, hnet]

/-- Nothing waits to be routed, and no end point to be declared dead. -/
def Dev.Idle (d : Dev) : Prop := d.net.outbox = [] ∧ d.net.endsDown = []

theorem Dev.Idle.settled {d : Dev} (h : d.Idle) (m : Mem) : d.settle.declareDue m = d := by
  rw [Dev.settle_of_empty h.1, Dev.declareDue_of_empty h.2]

section
variable {s : State} {lane : Nat} (h : LinkTakes s lane)
include h

theorem linkRuns_of_takes : s.d.linkRuns lane = true := by
  have hstate := h.state
  simp only [List.mem_cons, List.not_mem_nil, or_false] at hstate
  simp only [Dev.linkRuns, h.reference, h.native, Bool.true_and, decide_true, Bool.or_eq_true, beq_iff_eq]
  omega

theorem exec_headFlitArrival {f : Flit} (ht : fcwType f = 1) :
    exec (.headFlitArrival lane f) s = .next { s with d := (s.d.headArrival lane f).settle.declareDue s.mem } := by
  show execHeadFlitArrival lane f s = _
  simp [execHeadFlitArrival, h.present, linkRuns_of_takes h, ht]

theorem exec_bodyFlitArrival {f : Flit} (ht : 2 ≤ fcwType f) :
    exec (.bodyFlitArrival lane f) s = .next { s with d := (s.d.bodyArrival lane f).settle } := by
  show execBodyFlitArrival lane f s = _
  simp [execBodyFlitArrival, h.present, linkRuns_of_takes h, ht]

end

/-- A numbered flit that is bad or not the next expected: a replay is asked for (R255). -/
theorem Dev.takeNumbered_refused {d : Dev} {l : Nat} {f : Flit} (h : ¬ ((crcGood f = true ∨ isStomp f = true) ∧ fcwRseq f = (d.lane l).rxNext))
    (c : EvCtx) : d.takeNumbered l f c = (false, d.setLane l { d.lane l with replayReq := true }) := by
  unfold Dev.takeNumbered
  rw [if_neg h]

/-- The link once it has taken the numbered flit that it expected (R255). -/
def Lane.took (x : Lane) : Lane := { x with rxNext := (x.rxNext + 1) % 2048, replayReq := false }

/-- The device once a lane has taken a numbered flit, counted by the facts of its packet. -/
def Dev.taken (d : Dev) (l : Nat) (c : EvCtx) : Dev := ((d.setLane l (d.lane l).took).countPort l C.RX_FLIT).countEv (16 + l) 1 1 c

theorem Dev.takeNumbered_next {d : Dev} {l : Nat} {f : Flit} (hc : crcGood f = true) (hr : fcwRseq f = (d.lane l).rxNext) (c : EvCtx) :
    d.takeNumbered l f c = (true, d.taken l c) := by
  unfold Dev.takeNumbered
  rw [if_pos ⟨.inl hc, hr⟩]
  rfl

/-! ## A head flit -/

/-- The packet that a head flit opens on a lane. -/
def Dev.headOf (d : Dev) (l : Nat) (f : Flit) : Pkt := (pktOfHead l f).withFa (d.ltype l == 0)

/-- The device once a lane has taken a head flit, before its packet's credit is judged. -/
def Dev.headTaken (d : Dev) (l : Nat) (f : Flit) : Dev :=
  (((d.taken l (d.headOf l f).ctx).countPort l C.RX_PKT).countEv (16 + l) 0 1 (d.headOf l f).ctx).modLane l
    (fun x => x.newHead (d.headOf l f) (isStomp f))

/-- Credit that a lane-VL's peer has left, in flits (R254). -/
def LaneVl.credit (x : LaneVl) (onDet : Bool) : Nat :=
  if onDet then (x.dGrant + 2 ^ 24 - x.dRx) % 2 ^ 24 else (x.nGrant + 2 ^ 24 - x.nRx) % 2 ^ 24

/-- A lane-VL whose peer has charged `n` flits more. -/
def LaneVl.charged (x : LaneVl) (onDet : Bool) (n : Nat) : LaneVl :=
  if onDet then { x with dRx := (x.dRx + n) % 2 ^ 24 } else { x with nRx := (x.nRx + n) % 2 ^ 24 }

/-- A packet whose credit has been taken gets its cells and its name, and meets the checks of its lane (R59, R101, R104). -/
def Dev.headCells (d : Dev) (l : Nat) (f : Flit) (p : Pkt) : Dev :=
  let c := d.chargeLane (lvKey l p.vl) (d.onDetour l p.vl p.detour) p
  let a := c.2.addPkt { d.quotaMark p with buf := c.1, bad := isStomp f }
  (a.2.grant (lvKey l p.vl)).headChecks l f { p with id := a.1 } a.1

theorem Dev.headArrival_refused {d : Dev} {l : Nat} {f : Flit}
    (h : ¬ ((crcGood f = true ∨ isStomp f = true) ∧ fcwRseq f = (d.lane l).rxNext)) :
    d.headArrival l f = d.setLane l { d.lane l with replayReq := true } := by
  unfold Dev.headArrival
  simp only [Dev.takeNumbered_refused h]

/-- What becomes of a head that its lane takes: link-local, without credit, or charged (R49, R62, R254). -/
theorem Dev.headArrival_next {d : Dev} {l : Nat} {f : Flit} (hc : crcGood f = true) (hr : fcwRseq f = (d.lane l).rxNext) :
    d.headArrival l f =
      let p := d.headOf l f
      let d1 := d.headTaken l f
      let onDet := d1.onDetour l p.vl p.detour
      let x := d1.lv (lvKey l p.vl)
      if p.vl = 0 ∧ (p.opc = 0x70 ∨ p.opc = 0x71) then d1.linkLocalHead l f p
      else if x.credit onDet < p.credit then (d1.countPort l C.CREDIT_OVERRUN).laneFail l 5
      else (d1.setLv (lvKey l p.vl) (x.charged onDet p.credit)).headCells l f p := by
  unfold Dev.headArrival
  simp only [Dev.takeNumbered_next hc hr]
  rfl

theorem Dev.bodyArrival_refused {d : Dev} {l : Nat} {f : Flit}
    (h : ¬ ((crcGood f = true ∨ isStomp f = true) ∧ fcwRseq f = (d.lane l).rxNext)) :
    d.bodyArrival l f = d.setLane l { d.lane l with replayReq := true } := by
  unfold Dev.bodyArrival
  rw [Dev.takeNumbered_refused h]

theorem not_stomp_of_good {f : Flit} (h : crcGood f = true) : isStomp f = false := by
  simp only [crcGood, isStomp, beq_iff_eq, beq_eq_false_iff_ne] at h ⊢
  omega

end Sys2Proof.Machine

namespace Sys2Proof.Claims
open Sys2Proof.Machine

/-- Settles O28: the refused flit leaves a lane's request for a replay alone, and nothing waits to be routed or declared after it. -/
theorem replayRequest : Obligations.ReplayRequest := by
  intro s lane f h hcalm hbad
  have hidle : (s.d.setLane lane { s.d.lane lane with replayReq := true }).Idle := hcalm
  refine ⟨fun ht => ?_, fun ht => ?_⟩
  · rw [exec_headFlitArrival h ht, Dev.headArrival_refused hbad, hidle.settled]
  · rw [exec_bodyFlitArrival h ht, Dev.bodyArrival_refused hbad, Dev.settle_of_empty hidle.1]

end Sys2Proof.Claims
end

section
/-! What a packet that arrives leaves alone: the credit that peers have charged, lanes but for what they receive, and every register
but counters, the notice log and amounts in use. -/

namespace Sys2Proof.Machine
open Sys2Proof.Claims

/-- `d'` comes after `d` on the path of a packet that arrives (R59, R62, R124). -/
structure Dev.Carries (d d' : Dev) : Prop where
  lane : ∀ l, (d'.lane l).still = (d.lane l).still
  regs : ∀ r i, r.busy = false → d'.rd r i = d.rd r i
  received : d'.received = d.received

theorem Dev.Soft.dropRest {a d : Dev} (h : a.Soft d) (l v len : Nat) : a.Soft (d.dropRest l v len) := by
  unfold Dev.dropRest
  split
  · exact h
  · refine h.of_lanes rfl rfl fun j => ?_
    rw [Dev.lane_modLane]
    split
    · next e => subst e; split <;> rfl
    · rfl

theorem Dev.Soft.setRx {a d : Dev} (h : a.Soft d) (l v : Nat) (o : Option Nat) : a.Soft (d.modLane l (fun x => x.setRx v o)) := by
  refine h.of_lanes rfl rfl fun j => ?_
  rw [Dev.lane_modLane]
  split
  · next e => subst e; unfold Lane.setRx; split <;> rfl
  · rfl

@[simp] theorem Dev.received_dropRest (d : Dev) (l v len : Nat) : (d.dropRest l v len).received = d.received := by
  unfold Dev.dropRest; split <;> rfl

namespace Dev.Carries
variable {a d d' : Dev}

theorem refl (d : Dev) : d.Carries d := ⟨fun _ => rfl, fun _ _ _ => rfl, rfl⟩

theorem trans {b c : Dev} (h : a.Carries b) (k : b.Carries c) : a.Carries c :=
  ⟨fun l => (k.lane l).trans (h.lane l), fun r i hr => (k.regs r i hr).trans (h.regs r i hr), k.received.trans h.received⟩

/-- A step of the packet path that keeps what peers have charged. -/
theorem soft (h : a.Carries d) (hs : d.Soft d') (hr : d'.received = d.received) : a.Carries d' :=
  h.trans ⟨hs.lane, hs.regs, hr⟩

/-- A change of neither registers nor lanes nor credit. -/
theorem of_eq (h : a.Carries d) (hr : d'.regs = d.regs) (hf : d'.fuse = d.fuse) (hl : d'.net.lanes = d.net.lanes)
    (hv : d'.net.lvs = d.net.lvs) : a.Carries d' :=
  h.trans ⟨fun l => by rw [Dev.lane_congr hl], fun r i _ => Dev.rd_of_regs hr hf r i, Dev.received_congr hv⟩

theorem each {α : Type} {f : Dev → α → Dev} (h : a.Carries d) (l : List α) (hf : ∀ d x, a.Carries d → a.Carries (f d x)) :
    a.Carries (d.each l f) := by
  induction l generalizing d with
  | nil => exact h
  | cons x l ih => exact ih (hf d x h)

theorem fld (h : d.Carries d') (f : Fld) (i : Nat) (hb : f.rf.busy = false) : d'.fld f i = d.fld f i :=
  congrArg (bitsOf · _ _) (h.regs _ _ hb)

/-! ### Counters, notices, packets -/

theorem countPort (h : a.Carries d) (l c : Nat) : a.Carries (d.countPort l c) := h.soft ((Dev.Soft.refl d).countPort l c) (by simp)
theorem countMem (h : a.Carries d) (c : Nat) : a.Carries (d.countMem c) := h.soft ((Dev.Soft.refl d).countMem c) (by simp)
theorem countTbl (h : a.Carries d) (c : Nat) : a.Carries (d.countTbl c) := h.soft ((Dev.Soft.refl d).countTbl c) (by simp)
theorem countEv (h : a.Carries d) (i e n : Nat) (x : EvCtx) : a.Carries (d.countEv i e n x) :=
  h.soft ((Dev.Soft.refl d).countEv i e n x) (by simp)
theorem noticeLim (h : a.Carries d) (t src prod data key : Nat) : a.Carries (d.noticeLim t src prod data key) :=
  h.soft ((Dev.Soft.refl d).noticeLim _ _ _ _ _) (by simp)
theorem countDrop (h : a.Carries d) (p : Pkt) : a.Carries (d.countDrop p) := h.soft ((Dev.Soft.refl d).countDrop p) (by simp)
theorem discardAs (h : a.Carries d) (p : Pkt) (c : Nat) : a.Carries (d.discardAs p c) :=
  h.soft ((Dev.Soft.refl d).discardAs p c) (by simp)
theorem discardOther (h : a.Carries d) (p : Pkt) : a.Carries (d.discardOther p) := h.soft ((Dev.Soft.refl d).discardOther p) (by simp)
theorem noteParity (h : a.Carries d) (t i : Nat) : a.Carries (d.noteParity t i) := h.soft ((Dev.Soft.refl d).noteParity t i) (by simp)
theorem look (h : a.Carries d) (t i : Nat) : a.Carries (d.look t i).2 := h.soft ((Dev.Soft.refl d).look t i) (by simp)
theorem modPkt (h : a.Carries d) (id : Nat) (f : Pkt → Pkt) : a.Carries (d.modPkt id f) := h.of_eq rfl rfl rfl rfl
theorem send (h : a.Carries d) (p : Pkt) : a.Carries (d.send p) := h.of_eq rfl rfl rfl rfl
theorem addPkt (h : a.Carries d) (p : Pkt) : a.Carries (d.addPkt p).2 := h.of_eq rfl rfl rfl rfl
theorem grant (h : a.Carries d) (k : Nat) : a.Carries (d.grant k) := h.soft ((Dev.Soft.refl d).grant k) (by simp)
theorem chargeLane (h : a.Carries d) (k : Nat) (o : Bool) (p : Pkt) : a.Carries (d.chargeLane k o p).2 :=
  h.soft ((Dev.Soft.refl d).chargeLane k o p) (by simp)
theorem trimBuf (h : a.Carries d) (id : Nat) : a.Carries (d.trimBuf id) := h.soft ((Dev.Soft.refl d).trimBuf id) (by simp)
theorem endPkt (h : a.Carries d) (id : Nat) : a.Carries (d.endPkt id) := h.soft ((Dev.Soft.refl d).endPkt id) (by simp)
theorem dropRest (h : a.Carries d) (l v len : Nat) : a.Carries (d.dropRest l v len) :=
  h.soft ((Dev.Soft.refl d).dropRest l v len) (by simp)
theorem setRx (h : a.Carries d) (l v : Nat) (o : Option Nat) : a.Carries (d.modLane l (fun x => x.setRx v o)) :=
  h.soft ((Dev.Soft.refl d).setRx l v o) rfl
theorem forward (h : a.Carries d) (id : Nat) : a.Carries (d.forward id) := h.soft ((Dev.Soft.refl d).forward id) (by simp)
theorem settle (h : a.Carries d) : a.Carries d.settle := h.soft (Dev.Soft.refl d).settle (by simp)
theorem retryFlow (h : a.Carries d) (s t : BitVec 32) : a.Carries (d.retryFlow s t) :=
  h.soft ((Dev.Soft.refl d).retryFlow s t) (by simp)
theorem ledgerDrop (h : a.Carries d) (l : Led) : a.Carries (d.ledgerDrop l) := h.soft ((Dev.Soft.refl d).ledgerDrop l) rfl
theorem raiseErr (h : a.Carries d) (s t : BitVec 32) (st : Nat) (w : Bool) : a.Carries (d.raiseErr s t st w) :=
  h.soft ((Dev.Soft.refl d).raiseErr s t st w) (by simp)
theorem refuseGen (h : a.Carries d) (p : Pkt) (st : Nat) : a.Carries (d.refuseGen p st) :=
  h.soft ((Dev.Soft.refl d).refuseGen p st) (by simp)

/-- A refusal, whatever its discard does beside it. -/
theorem refuse (h : a.Carries d) (p : Pkt) (st : Nat) {drop : Dev → Dev} (hd : a.Carries (drop d)) : a.Carries (d.refuse p st drop) := by
  unfold Dev.refuse
  refine endPkt ?_ _
  split
  · exact ((h.send _).countEv _ _ _ _).countDrop _
  · split
    · exact (h.send _).countDrop _
    · exact hd

theorem refuseReq (h : a.Carries d) (p : Pkt) (st : Nat) {drop : Dev → Dev} (hd : a.Carries (drop d)) :
    a.Carries (d.refuseReq p st drop) := by
  unfold Dev.refuseReq
  refine endPkt ?_ _
  split
  · exact ((h.send _).countEv _ _ _ _).countDrop _
  · exact hd

theorem declareDue (h : a.Carries d) (m : Mem) : a.Carries (d.declareDue m) :=
  (h.of_eq (d' := { d with net := { d.net with endsDown := [] } }) rfl rfl rfl rfl).each _ fun _ _ h => h.of_eq rfl rfl rfl rfl

/-! ### Packets cut short (R39, R349) -/

theorem lateReq (h : a.Carries d) (p : Pkt) (src : Nat) : a.Carries (d.lateReq p src) := by
  unfold Dev.lateReq
  split
  · exact ((((h.ledgerDrop _).raiseErr _ _ _ _).send _).countEv _ _ _ _).retryFlow _ _
  · exact h

theorem unlist (h : a.Carries d) (p : Pkt) : a.Carries (d.unlist p) := by
  unfold Dev.unlist
  split
  · exact (h.ledgerDrop _).retryFlow _ _
  · exact h

theorem stompAs (h : a.Carries d) (id : Nat) {count : Dev → Pkt → Dev} (hc : ∀ d p, a.Carries d → a.Carries (count d p)) :
    a.Carries (d.stompAs id count) := by
  have hbad := h.modPkt id (fun p => { p with bad := true, whole := true })
  unfold Dev.stompAs
  dsimp only
  split
  · exact hbad
  · split
    · exact hbad
    · exact hbad
    · split
      · exact hbad.lateReq _ _
      · split
        · refine endPkt ?_ _
          split
          · exact hbad.lateReq _ _
          · exact (hc _ _ hbad).unlist _
        · split
          · exact hbad
          · exact (hc _ _ hbad).endPkt _
    · exact (hbad.lateReq _ _).endPkt _
    · exact hbad.endPkt _
    · exact (hc _ _ hbad).endPkt _

theorem stompPkt (h : a.Carries d) (id : Nat) : a.Carries (d.stompPkt id) := h.stompAs id fun _ p h => h.discardOther p

theorem drainPkt (h : a.Carries d) (id : Nat) : a.Carries (d.drainPkt id) := by
  unfold Dev.drainPkt
  split
  · exact h
  · split
    · exact h.endPkt _
    · exact (h.modPkt _ _).trimBuf _

theorem whenSome {α : Type} (h : a.Carries d) (o : Option α) {f : α → Dev → Dev} (hf : ∀ x, a.Carries (f x d)) :
    a.Carries (d.whenSome o f) := by
  cases o with
  | none => exact h
  | some x => exact hf x

theorem cutReceive (h : a.Carries d) (l : Nat) : a.Carries (d.cutReceive l) := by
  have hlow := h.whenSome (d.lane l).rxLow (f := fun i d => d.stompPkt i) fun i => h.stompPkt i
  exact hlow.whenSome _ (f := fun i d => d.stompPkt i) fun i => hlow.stompPkt i

theorem cutSend (h : a.Carries d) (l : Nat) : a.Carries (d.cutSend l) := by
  have hlow := h.whenSome (d.lane l).txLow (f := fun i d => d.drainPkt i) fun i => h.drainPkt i
  exact hlow.whenSome _ (f := fun i d => d.drainPkt i) fun i => hlow.drainPkt i

theorem dropQueued (h : a.Carries d) (l : Nat) : a.Carries (d.dropQueued l) :=
  h.each _ fun _ p h => (h.discardOther p).endPkt _

/-! ### The checks of an ingress (R57, R59, R124, R209) -/

theorem noteBadHeader (h : a.Carries d) (p : Pkt) : a.Carries (d.noteBadHeader p) := (h.countPort _ _).noticeLim _ _ _ _ _

theorem headOverOpen (h : a.Carries d) (l : Nat) (p : Pkt) (o : Nat) : a.Carries (d.headOverOpen l p o) := by
  have hframe : a.Carries (d.noteFraming l p.vl 1 p.ctx) := ((h.countPort _ _).countEv _ _ _ _).noticeLim _ _ _ _ _
  exact ((hframe.whenSome _ fun q => hframe.countDrop q).setRx l p.vl none).stompAs o fun _ _ h => h

theorem refuseHead (h : a.Carries d) (l : Nat) (f : Flit) (p : Pkt) (id : Nat) : a.Carries (d.refuseHead l f p id) := by
  unfold Dev.refuseHead
  dsimp only
  split
  · exact h.endPkt _
  · exact (h.endPkt _).dropRest _ _ _

theorem stompedHead (h : a.Carries d) (p : Pkt) (id : Nat) : a.Carries (d.stompedHead p id) := by
  unfold Dev.stompedHead
  split
  · exact (h.forward _).stompPkt _
  · exact (h.discardOther _).endPkt _

theorem openRx (h : a.Carries d) (l v id len : Nat) : a.Carries (d.openRx l v id len) := by
  unfold Dev.openRx
  split
  · exact h
  · split
    · exact h.setRx _ _ _
    · exact h.dropRest _ _ _

theorem police (h : a.Carries d) (port v tc bytes : Nat) : a.Carries (d.police port v tc bytes).2 := by
  unfold Dev.police
  extract_lets pre k idx
  have hlook := h.look 5 idx
  split
  · split
    · next e => rw [e] at hlook; exact hlook.countTbl _
    · next e => rw [e] at hlook; exact hlook.of_eq rfl rfl rfl rfl
  · exact h

theorem policeDrop (h : a.Carries d) (p : Pkt) : a.Carries (d.policeDrop p) := h.refuse _ _ ((h.countPort _ _).countEv _ _ _ _)

theorem swatchCheck (h : a.Carries d) (p : Pkt) : a.Carries (d.swatchCheck p).2 := by
  have hat : a.Carries (d.swatchAt p.prod p.addr).2 := by
    unfold Dev.swatchAt
    dsimp only
    split
    · exact h
    · split
      · exact h.noteParity _ _
      · exact h
  unfold Dev.swatchCheck
  split
  · exact h
  · split
    · next e => rw [e] at hat; exact hat
    · next e =>
      rw [e] at hat
      repeat' split
      all_goals exact hat

theorem admitPkt (h : a.Carries d) (p : Pkt) (ep : Bool) : a.Carries (d.admitPkt p ep) := by
  unfold Dev.admitPkt
  split
  · exact h.modPkt _ _
  · split
    · have hcheck := (((h.countMem C.REQ_CHECKED).countEv 3 8 1 p.ctx).countEv 3 9 (ceilDiv p.extent 64) p.ctx).swatchCheck p
      dsimp only
      split
      · next e => rw [e] at hcheck; exact hcheck.refuse _ _ hcheck
      · next e =>
        rw [e] at hcheck
        split
        · exact hcheck.modPkt _ _
        · exact (hcheck.modPkt _ _).forward _
    · exact h.forward _

theorem ingressChecks (h : a.Carries d) (p : Pkt) (ep : Bool) (act : Nat) : a.Carries (d.ingressChecks p ep act) := by
  unfold Dev.ingressChecks
  dsimp only
  split
  · exact (h.discardAs _ _).endPkt _
  · split
    · exact h.refuseGen _ _
    · split
      · exact h.policeDrop _
      · exact h.admitPkt _ _

theorem ingress (h : a.Carries d) (id : Nat) : a.Carries (d.ingress id) := by
  unfold Dev.ingress
  split
  · exact h
  · dsimp only
    split
    · exact ((h.noticeLim _ _ _ _ _).discardAs _ _).endPkt _
    · split
      · exact (h.discardOther _).endPkt _
      · exact ((h.police _ _ _ _).modPkt _ _).ingressChecks _ _ _

theorem headChecks (h : a.Carries d) (l : Nat) (f : Flit) (p : Pkt) (id : Nat) : a.Carries (d.headChecks l f p id) := by
  unfold Dev.headChecks
  split
  · exact (h.discardAs _ _).refuseHead _ _ _ _
  · split
    · exact (h.discardAs _ _).refuseHead _ _ _ _
    · split
      · exact h.stompedHead _ _
      · split
        · exact (h.headOverOpen _ _ _).refuseHead _ _ _ _
        · refine openRx ?_ _ _ _ _
          split
          · exact ((h.noteBadHeader _).countDrop _).endPkt _
          · split
            · exact (h.noteBadHeader _).refuseReq _ _ ((h.noteBadHeader _).countDrop _)
            · exact h.ingress _

theorem headCells (h : a.Carries d) (l : Nat) (f : Flit) (p : Pkt) : a.Carries (d.headCells l f p) :=
  (((h.chargeLane _ _ _).addPkt _).grant _).headChecks _ _ _ _

end Dev.Carries

end Sys2Proof.Machine
end

section
/-! A head flit's fields, and what becomes of a head with credit, without it, or link-local (R37, R40, R49, R62, R254). -/

namespace Sys2Proof.Machine
open Sys2Proof.Claims

/-! ## The fields of a head flit -/

/-- A field of a field. -/
theorem bitsOf_ofNat_bitsOf {m : Nat} (f : BitVec m) {n hi lo h l : Nat} (hl : l ≤ h) (hn : h < n) (hh : lo + h ≤ hi) :
    bitsOf (BitVec.ofNat n (bitsOf f hi lo)) h l = bitsOf f (lo + h) (lo + l) := by
  apply Nat.eq_of_testBit_eq
  intro i
  rw [testBit_bitsOf, testBit_bitsOf, BitVec.getLsbD_ofNat, testBit_bitsOf, show lo + h - (lo + l) = h - l by omega, Nat.add_assoc]
  by_cases hi' : i < h - l + 1
  · simp [hi', show l + i < n by omega, show l + i < hi - lo + 1 by omega]
  · simp [hi']

/-- One bit of a field. -/
theorem bitOf_ofNat_bitsOf {m : Nat} (f : BitVec m) {n hi lo i : Nat} (hn : i < n) (hh : lo + i ≤ hi) :
    bitOf (BitVec.ofNat n (bitsOf f hi lo)) i = bitOf f (lo + i) := by
  unfold bitOf
  rw [BitVec.getLsbD_ofNat, testBit_bitsOf]
  simp [hn, show i < hi - lo + 1 by omega]

/-- Two fields side by side are one. -/
theorem ofNat_bitsOf_append {m : Nat} (f : BitVec m) (a b lo : Nat) (ha : 0 < a) (hb : 0 < b) :
    BitVec.ofNat a (bitsOf f (lo + b + a - 1) (lo + b)) ++ BitVec.ofNat b (bitsOf f (lo + b - 1) lo)
      = BitVec.ofNat (a + b) (bitsOf f (lo + b + a - 1) lo) := by
  apply BitVec.eq_of_getLsbD_eq
  intro i hi
  rw [BitVec.getLsbD_append]
  simp only [BitVec.getLsbD_ofNat, testBit_bitsOf]
  by_cases h : i < b
  · simp [h, hi, show i < lo + b - 1 - lo + 1 by omega, show i < lo + b + a - 1 - lo + 1 by omega]
  · simp [h, hi, show i - b < a by omega, show i - b < lo + b + a - 1 - (lo + b) + 1 by omega,
      show i < lo + b + a - 1 - lo + 1 by omega, show lo + b + (i - b) = lo + i by omega]

section
variable (d : Dev) (l : Nat) (f : Flit)

/-- Of the packet that a head opens only FA depends on the lane's end point. -/
theorem Dev.headOf_eq : ∃ fa, d.headOf l f = { pktOfHead l f with fa := fa } := by
  unfold Dev.headOf Pkt.withFa
  split
  · exact ⟨_, rfl⟩
  · exact ⟨_, rfl⟩

theorem Dev.headOf_vl : (d.headOf l f).vl = fcwVl f := by obtain ⟨fa, e⟩ := d.headOf_eq l f; rw [e]; rfl
theorem Dev.headOf_inl : (d.headOf l f).inl = l := by obtain ⟨fa, e⟩ := d.headOf_eq l f; rw [e]; rfl

theorem Dev.headOf_hdr : (d.headOf l f).hdr = BitVec.ofNat 128 (bitsOf f 495 368) := by
  obtain ⟨fa, e⟩ := d.headOf_eq l f
  rw [e]
  rfl

theorem Dev.headOf_rw : (d.headOf l f).rw = BitVec.ofNat 32 (bitsOf f 367 336) := by
  obtain ⟨fa, e⟩ := d.headOf_eq l f
  rw [e]
  rfl

theorem Dev.headOf_opc : (d.headOf l f).opc = headOpc f := by
  unfold Pkt.opc
  rw [Dev.headOf_hdr]
  exact bitsOf_ofNat_bitsOf f (by omega) (by omega) (by omega)

theorem Dev.headOf_len : (d.headOf l f).len = headLen f := by
  unfold Pkt.len
  rw [Dev.headOf_hdr]
  exact bitsOf_ofNat_bitsOf f (by omega) (by omega) (by omega)

theorem Dev.headOf_detour : (d.headOf l f).detour = headDetour f := by
  unfold Pkt.detour
  rw [Dev.headOf_rw]
  exact bitOf_ofNat_bitsOf f (by omega) (by omega)

theorem Dev.headOf_credit : (d.headOf l f).credit = headCredit f := by
  unfold Pkt.credit Pkt.cells Pkt.flits ceilDiv headCredit
  rw [Dev.headOf_len]
  omega

/-- The route word and the payload of a head, as the link-local message that it brings. -/
theorem Dev.headOf_payload : (d.headOf l f).rw ++ (d.headOf l f).pay = BitVec.ofNat 352 (bitsOf f 367 16) := by
  obtain ⟨fa, e⟩ := d.headOf_eq l f
  rw [e]
  exact ofNat_bitsOf_append f 32 320 16 (by omega) (by omega)

theorem Dev.headOf_local : (d.headOf l f).vl = 0 ∧ ((d.headOf l f).opc = 0x70 ∨ (d.headOf l f).opc = 0x71) ↔ ¬ Routable f := by
  rw [Dev.headOf_vl, Dev.headOf_opc]
  exact not_not.symm

end

/-! ## What a taken flit leaves alone -/

theorem Dev.Logs.net {d d' : Dev} (h : d.Logs d') : d'.net = d.net := by have e := congrArg Dev.net h.still; exact e
theorem Dev.Logs.fuse {d d' : Dev} (h : d.Logs d') : d'.fuse = d.fuse := by have e := congrArg Dev.fuse h.still; exact e
theorem Dev.Logs.cutPast {d d' : Dev} (h : d.Logs d') : d'.cutPast = d.cutPast := by have e := congrArg Dev.cutPast h.still; exact e

theorem RF.logging_of_not_busy {r : RF} (h : r.busy = false) : r.logging = false := by cases r <;> simp_all [RF.busy, RF.logging]

theorem Dev.taken_logs (d : Dev) (l : Nat) (c : EvCtx) : (d.setLane l (d.lane l).took).Logs (d.taken l c) :=
  ((Dev.Logs.refl _).count _ _ _).countEv _ _ _ _

section
variable (d : Dev) (l : Nat) (f : Flit)

/-- A lane once it has taken a head flit. -/
def Dev.laneTaken : Lane := (d.lane l).took.newHead (d.headOf l f) (isStomp f)

/-- A head taken changes its lane alone, beside counters. -/
theorem Dev.headTaken_logs : ∃ d0 : Dev, (d.setLane l (d.lane l).took).Logs d0 ∧ d.headTaken l f = d0.setLane l (d.laneTaken l f) := by
  have hlogs : (d.setLane l (d.lane l).took).Logs
      (((d.taken l (d.headOf l f).ctx).countPort l C.RX_PKT).countEv (16 + l) 0 1 (d.headOf l f).ctx) :=
    ((d.taken_logs l _).count _ _ _).countEv _ _ _ _
  refine ⟨_, hlogs, ?_⟩
  unfold Dev.headTaken Dev.modLane Dev.laneTaken
  rw [Dev.lane_congr (congrArg Net.lanes hlogs.net), Dev.lane_setLane, if_pos rfl]

theorem Dev.lane_headTaken : (d.headTaken l f).lane l = d.laneTaken l f := by
  obtain ⟨d0, -, e⟩ := d.headTaken_logs l f
  rw [e, Dev.lane_setLane, if_pos rfl]

theorem Dev.lvs_headTaken : (d.headTaken l f).net.lvs = d.net.lvs := by
  obtain ⟨d0, hlogs, e⟩ := d.headTaken_logs l f
  have hlvs : d0.net.lvs = d.net.lvs := by rw [hlogs.net]; rfl
  rw [e]
  exact hlvs

theorem Dev.idle_headTaken {d : Dev} (h : d.Idle) : (d.headTaken l f).Idle := by
  obtain ⟨d0, hlogs, e⟩ := d.headTaken_logs l f
  have hout : d0.net.outbox = d.net.outbox := by rw [hlogs.net]; rfl
  have hends : d0.net.endsDown = d.net.endsDown := by rw [hlogs.net]; rfl
  rw [e]
  exact ⟨hout.trans h.1, hends.trans h.2⟩

theorem Dev.rd_headTaken {r : RF} (hr : r.logging = false) (i : Nat) : (d.headTaken l f).rd r i = d.rd r i := by
  obtain ⟨d0, hlogs, e⟩ := d.headTaken_logs l f
  rw [e, Dev.rd_setLane, hlogs.regs r i hr, Dev.rd_setLane]

theorem Dev.fld_headTaken {g : Fld} (hg : g.rf.logging = false) (i : Nat) : (d.headTaken l f).fld g i = d.fld g i :=
  congrArg (bitsOf · _ _) (d.rd_headTaken l f hg i)

theorem Dev.laneTaken_keeps : (d.laneTaken l f).rxNext = ((d.lane l).rxNext + 1) % 2048 ∧ (d.laneTaken l f).replayReq = false
    ∧ (d.laneTaken l f).linkRx = (d.lane l).linkRx ∧ (d.laneTaken l f).rxLow = (d.lane l).rxLow
    ∧ (d.laneTaken l f).wasType = (d.lane l).wasType := by
  unfold Dev.laneTaken Lane.newHead Lane.took
  split <;> exact ⟨rfl, rfl, rfl, rfl, rfl⟩

theorem Dev.ltype_headTaken : (d.headTaken l f).ltype l = d.ltype l := by
  obtain ⟨-, -, -, -, hwas⟩ := d.laneTaken_keeps l f
  unfold Dev.ltype
  rw [Dev.lane_headTaken, hwas, Dev.fld_headTaken d l f (by decide)]

end

/-! ## A head with credit -/

/-- The credit that judges a head: detour credit or normal credit. -/
theorem onDetour_iff (s : State) (lane : Nat) (f : Flit) :
    (s.d.headTaken lane f).onDetour lane (fcwVl f) (headDetour f) = true ↔ OnDetour s lane f := by
  unfold Dev.onDetour OnDetour
  rw [Dev.ltype_headTaken]
  simp [and_assoc]

theorem took_of_still {s t : State} {lane : Nat} {f : Flit} (h : (t.d.lane lane).still = (s.d.laneTaken lane f).still) :
    Took s t lane := by
  obtain ⟨hnext, hreq, -⟩ := s.d.laneTaken_keeps lane f
  have e1 : (t.d.lane lane).rxNext = (s.d.laneTaken lane f).rxNext := by have e := congrArg Lane.rxNext h; exact e
  have e2 : (t.d.lane lane).replayReq = (s.d.laneTaken lane f).replayReq := by have e := congrArg Lane.replayReq h; exact e
  exact ⟨e1.trans hnext, e2.trans hreq⟩

section
variable {s : State} {lane : Nat} {f : Flit} (h : LinkTakes s lane) (ht : fcwType f = 1) (hg : NextGood s lane f)
include h ht hg

/-- A head with credit is taken, its packet's credit is charged, and what follows leaves both alone. -/
theorem headFlit_charged (hr : Routable f) {onDet : Bool}
    (hdet : (s.d.headTaken lane f).onDetour lane (fcwVl f) (headDetour f) = onDet)
    (hcredit : headCredit f ≤ (s.d.lv (8 * lane + fcwVl f)).credit onDet) :
    Completes (.headFlitArrival lane f) s (fun t => Rest s t ∧ Took s t lane ∧ (∀ r i, r.busy = false → t.d.rd r i = s.d.rd r i)
      ∧ ((t.d.lv (8 * lane + fcwVl f)).nRx, (t.d.lv (8 * lane + fcwVl f)).dRx)
        = (((s.d.lv (8 * lane + fcwVl f)).charged onDet (headCredit f)).nRx, ((s.d.lv (8 * lane + fcwVl f)).charged onDet (headCredit f)).dRx)) := by
  set p := s.d.headOf lane f
  set d1 := s.d.headTaken lane f
  set k := 8 * lane + fcwVl f
  have hlv : d1.lv k = s.d.lv k := by unfold Dev.lv; rw [s.d.lvs_headTaken]
  have harr : s.d.headArrival lane f = (d1.setLv k ((s.d.lv k).charged onDet (headCredit f))).headCells lane f p := by
    rw [Dev.headArrival_next hg.1 hg.2]
    dsimp only
    rw [if_neg (fun e => (s.d.headOf_local lane f).1 e hr), Dev.headOf_vl, Dev.headOf_credit, Dev.headOf_detour, hdet]
    rw [show lvKey lane (fcwVl f) = k from rfl, hlv, if_neg (Nat.not_lt.2 hcredit)]
  have hc := (((Dev.Carries.refl (d1.setLv k ((s.d.lv k).charged onDet (headCredit f)))).headCells lane f p).settle).declareDue s.mem
  refine ⟨_, exec_headFlitArrival h ht, ⟨rfl, rfl⟩, took_of_still (f := f) ?_, fun r i hb => ?_, ?_⟩
  · rw [harr]
    exact (hc.lane lane).trans (congrArg Lane.still (s.d.lane_headTaken lane f))
  · rw [harr, hc.regs r i hb, Dev.rd_setLv]
    exact s.d.rd_headTaken lane f (RF.logging_of_not_busy hb) i
  · rw [harr]
    refine (congrFun hc.received k).trans ?_
    simp [Dev.received, Dev.lv, Dev.setLv]

end
end Sys2Proof.Machine
end

section
/-! A head without credit fails its lane (R254, R265, R349); link-local heads (R49, R59). -/

namespace Sys2Proof.Machine
open Sys2Proof.Claims

/-! ## A lane that fails (R265, R349) -/

/-- Every register reads as before, but for counters, the notice log and amounts in use. -/
def Dev.RegsKept (d d' : Dev) : Prop := ∀ r i, r.busy = false → d'.rd r i = d.rd r i

namespace Dev.RegsKept

theorem trans {a b c : Dev} (h : a.RegsKept b) (k : b.RegsKept c) : a.RegsKept c := fun r i hr => (k r i hr).trans (h r i hr)

theorem of_regs {d d' : Dev} (hr : d'.regs = d.regs) (hf : d'.fuse = d.fuse) : d.RegsKept d' := fun r i _ => Dev.rd_of_regs hr hf r i

theorem fld {d d' : Dev} (h : d.RegsKept d') {f : Fld} (hf : f.rf.busy = false) (i : Nat) : d'.fld f i = d.fld f i :=
  congrArg (bitsOf · _ _) (h _ _ hf)

theorem leaveService (d : Dev) (l : Nat) : d.RegsKept (d.leaveService l) := by
  have hcut : d.RegsKept (((d.cutReceive l).cutSend l).dropQueued l) := (((Dev.Carries.refl d).cutReceive l).cutSend l).dropQueued l |>.regs
  have hclose : ∀ d : Dev, d.RegsKept (d.closeCredit l) := fun d r i _ =>
    Dev.each_keeps (fun d => d.rd r i) _ (fun d v => Dev.rd_setLv _ _ _ _ _) _ _
  exact (hcut.trans (hclose _)).trans (of_regs rfl rfl)

/-- Noting the sets that a change leaves without a lane changes no register beside it (R77). -/
theorem noteLost (d : Dev) (f : Dev → Dev) : (f d).RegsKept (d.noteLost f) := of_regs rfl rfl

end Dev.RegsKept

/-- The state that a lane takes, and what else its status register shows (R251). -/
theorem Dev.fld_setState (d : Dev) (l : Nat) {st : Nat} (hst : st < 16) : (d.setState l st).fld F.PRT_LINK_STAT_STATE l = st
    ∧ (d.setState l st).fld F.PRT_LINK_STAT_CAUSE l = d.fld F.PRT_LINK_STAT_CAUSE l := by
  have hself : (d.setFld F.PRT_LINK_STAT_STATE l st).fld F.PRT_LINK_STAT_STATE l = st :=
    (Dev.fld_setFld_self _ _ _ _ (by decide) (by decide)).trans (Nat.mod_eq_of_lt hst)
  have hcause : (d.setFld F.PRT_LINK_STAT_STATE l st).fld F.PRT_LINK_STAT_CAUSE l = d.fld F.PRT_LINK_STAT_CAUSE l :=
    Dev.fld_setFld_of_ne _ _ _ _ _ _ (by decide) (by decide) (.inr (by decide))
  have hretrain : ∀ (d : Dev) (g : Fld) (i v : Nat), g.rf = .PRT_LINK_STAT →
      (d.setFld F.WNG_LANE_CTL_RETRAIN i v).fld g l = d.fld g l := fun d g i v hg =>
    congrArg (bitsOf · _ _) (Dev.rd_setFld_of_ne _ _ _ _ _ _ (by rintro ⟨e, -⟩; rw [hg] at e; cases e))
  unfold Dev.setState
  dsimp only
  split
  · exact ⟨hself, hcause⟩
  · exact ⟨(hretrain _ _ _ _ rfl).trans hself, (hretrain _ _ _ _ rfl).trans hcause⟩

/-- A lane out of UP: its state and the cause of the exit (R250, R265). -/
theorem Dev.fld_exitUp (d : Dev) (l : Nat) {cause dest : Nat} (hc : cause < 16) (hd : dest < 16) :
    (d.exitUp l cause dest).fld F.PRT_LINK_STAT_STATE l = dest ∧ (d.exitUp l cause dest).fld F.PRT_LINK_STAT_CAUSE l = cause := by
  obtain ⟨hstate, hkept⟩ := (d.setFld F.PRT_LINK_STAT_CAUSE l cause).fld_setState l hd
  have hcause := hkept.trans ((Dev.fld_setFld_self d F.PRT_LINK_STAT_CAUSE l cause (by decide) (by decide)).trans (Nat.mod_eq_of_lt hc))
  have hdowns : ∀ (d : Dev) (g : Fld) (n : Nat), g.lo ≤ g.hi → F.PRT_LINK_STAT_DOWNS.hi < g.lo →
      (d.bumpSat F.PRT_LINK_STAT_DOWNS l n).fld g l = d.fld g l := fun d g n hg hlo =>
    Dev.fld_setFld_of_ne _ _ _ _ _ _ (by decide) hg (.inr (.inr hlo))
  have href : ∀ (d : Dev) (g : Fld), g.rf = .PRT_LINK_STAT → (d.refLaneDown l).fld g l = d.fld g l := by
    intro d g hg
    unfold Dev.refLaneDown
    split
    · rw [Dev.fld_notice _ _ _ _ _ (by rw [hg]; rfl)]
      exact congrArg (bitsOf · _ _) (Dev.rd_setFld_of_ne _ _ _ _ _ _ (by rintro ⟨e, -⟩; rw [hg] at e; cases e))
    · rfl
  unfold Dev.exitUp
  dsimp only
  split
  · rw [href _ _ rfl, href _ _ rfl, Dev.fld_notice _ _ _ _ _ rfl, Dev.fld_notice _ _ _ _ _ rfl, hdowns _ _ _ (by decide) (by decide),
      hdowns _ _ _ (by decide) (by decide)]
    exact ⟨hstate, hcause⟩
  · exact ⟨hstate, hcause⟩

/-- A lane in UP, MISCAST or QUARANTINED goes FAILED, with its cause (R251, R265). -/
theorem Dev.fld_laneFail {d : Dev} {l cause : Nat} (hc : cause < 16) (hup : 3 ≤ d.lstate l ∧ d.lstate l ≤ 5) :
    (d.laneFail l cause).fld F.PRT_LINK_STAT_STATE l = 6 ∧ (d.laneFail l cause).fld F.PRT_LINK_STAT_CAUSE l = cause := by
  have hstop : (d.exitUp l cause 6).RegsKept (d.laneStop l cause) := by
    unfold Dev.laneStop
    rw [if_pos hup]
    exact (Dev.RegsKept.leaveService (d.exitUp l cause 6) l).trans (Dev.RegsKept.noteLost d fun d => (d.exitUp l cause 6).leaveService l)
  have hfail : (d.laneStop l cause).RegsKept (d.laneFail l cause) := by
    unfold Dev.laneFail Dev.endLost
    dsimp only
    repeat' split
    all_goals exact Dev.RegsKept.of_regs rfl rfl
  obtain ⟨hstate, hcause⟩ := d.fld_exitUp l hc (dest := 6) (by omega)
  have hkept := hstop.trans hfail
  exact ⟨(hkept.fld (by decide) l).trans hstate, (hkept.fld (by decide) l).trans hcause⟩

section
variable {s : State} {lane : Nat} {f : Flit} (h : LinkTakes s lane) (ht : fcwType f = 1) (hg : NextGood s lane f)
include h ht hg

/-- A head without credit fails its lane (R254). -/
theorem headFlit_overrun (hr : Routable f) {onDet : Bool} (hdet : (s.d.headTaken lane f).onDetour lane (fcwVl f) (headDetour f) = onDet)
    (hcredit : (s.d.lv (8 * lane + fcwVl f)).credit onDet < headCredit f) (hup : 3 ≤ s.d.lstate lane) :
    Completes (.headFlitArrival lane f) s (fun t => Rest s t ∧ t.d.lstate lane = 6 ∧ t.d.fld F.PRT_LINK_STAT_CAUSE lane = 5) := by
  set d1 := s.d.headTaken lane f
  have hlv : d1.lv (8 * lane + fcwVl f) = s.d.lv (8 * lane + fcwVl f) := by unfold Dev.lv; rw [s.d.lvs_headTaken]
  have harr : s.d.headArrival lane f = (d1.countPort lane C.CREDIT_OVERRUN).laneFail lane 5 := by
    rw [Dev.headArrival_next hg.1 hg.2]
    dsimp only
    rw [if_neg (fun e => (s.d.headOf_local lane f).1 e hr), Dev.headOf_vl, Dev.headOf_credit, Dev.headOf_detour, hdet]
    rw [show lvKey lane (fcwVl f) = 8 * lane + fcwVl f from rfl, hlv, if_pos hcredit]
  have hlive : (d1.countPort lane C.CREDIT_OVERRUN).lstate lane = s.d.lstate lane :=
    (((Dev.Soft.refl d1).countPort lane C.CREDIT_OVERRUN).fld _ _ (by decide)).trans (s.d.fld_headTaken lane f (by decide) lane)
  have hle : s.d.lstate lane ≤ 5 := by
    have hstate := h.state
    simp only [List.mem_cons, List.not_mem_nil, or_false] at hstate
    omega
  obtain ⟨hstate, hcause⟩ := Dev.fld_laneFail (d := d1.countPort lane C.CREDIT_OVERRUN) (l := lane) (cause := 5) (by omega)
    (by rw [hlive]; exact ⟨hup, hle⟩)
  have hafter := ((Dev.Carries.refl ((d1.countPort lane C.CREDIT_OVERRUN).laneFail lane 5)).settle).declareDue s.mem
  refine ⟨_, exec_headFlitArrival h ht, ⟨rfl, rfl⟩, ?_, ?_⟩
  · rw [harr]
    exact (hafter.fld _ _ (by decide)).trans hstate
  · rw [harr]
    exact (hafter.fld _ _ (by decide)).trans hcause

end

/-! ## Link-local heads (R49, R59) -/

/-- What is still to come of a packet on VL0 to VL6 is dropped. -/
theorem Dev.dropRest_low {d : Dev} {l v len : Nat} (hv : v ≠ 7) (hlen : len ≠ 0) :
    d.dropRest l v len = d.modLane l (fun x => { x with dropLow := true }) := by
  unfold Dev.dropRest
  rw [if_neg hlen]
  simp only [if_neg hv]

/-- A discard up to the tail changes what the lane receives, and nothing beside its lane. -/
theorem Dev.dropRest_keeps (d : Dev) (l v len : Nat) : (d.dropRest l v len).net.lvs = d.net.lvs
    ∧ (d.dropRest l v len).net.outbox = d.net.outbox ∧ (d.dropRest l v len).net.endsDown = d.net.endsDown
    ∧ ((d.dropRest l v len).lane l).linkRx = (d.lane l).linkRx := by
  unfold Dev.dropRest
  split
  · exact ⟨rfl, rfl, rfl, rfl⟩
  · refine ⟨rfl, rfl, rfl, ?_⟩
    rw [Dev.lane_modLane, if_pos rfl]
    split <;> rfl

section
variable {d : Dev} {l : Nat} {f : Flit} {p : Pkt} (hs : isStomp f = false) (hrx : (d.lane l).rxLow = none)
include hs hrx

theorem Dev.linkLocalHead_long (hlen : 69 < p.len) :
    d.linkLocalHead l f p = ((d.noteBadHeader p).countDrop p).dropRest l p.vl p.len := by
  simp [Dev.linkLocalHead, hs, hrx, hlen]

theorem Dev.linkLocalHead_taken (hlen : p.len ≤ 69) :
    d.linkLocalHead l f p
      = (d.modLane l (fun x => { x with linkRx := x.linkRx ++ [⟨p.opc == 0x71, p.rw ++ p.pay⟩] })).dropRest l p.vl p.len := by
  simp [Dev.linkLocalHead, hs, hrx, Nat.not_lt.2 hlen]

end

/-! ## What a named counter of a unit reads -/

theorem Dev.Logs.noteBadHeader {a d : Dev} (h : a.Logs d) (p : Pkt) : a.Logs (d.noteBadHeader p) := (h.count _ _ _).noticeLim _ _ _ _ _

theorem Dev.Logs.countDrop {a d : Dev} (h : a.Logs d) (p : Pkt) : a.Logs (d.countDrop p) := by
  unfold Dev.countDrop
  split
  · exact h
  · exact h.countEv _ _ _ _

theorem Dev.instOk_congr {d d' : Dev} (h : d'.fuse = d.fuse) (i : Nat) : d'.instOk i = d.instOk i := by
  unfold Dev.instOk Dev.nLanes Dev.nWings
  rw [h]

theorem Dev.cutState_congr {d d' : Dev} (hp : d'.cutPast = d.cutPast) (hr : d'.rd .CNT_FREEZE 0 = d.rd .CNT_FREEZE 0) :
    d'.cutState = d.cutState := by
  have hst : d'.fld F.CNT_FREEZE_STATE 0 = d.fld F.CNT_FREEZE_STATE 0 := congrArg (bitsOf · _ _) hr
  have hsnap : d'.fld F.CNT_FREEZE_SNAP 0 = d.fld F.CNT_FREEZE_SNAP 0 := congrArg (bitsOf · _ _) hr
  unfold Dev.cutState Dev.flag
  rw [hp, hst, hsnap]

/-- A counter keeps its value while one below it counts, but for the next below, which may carry into it. -/
theorem Dev.fld_count_of_gt (d : Dev) {inst idx k : Nat} (h : k + 1 < idx) (n : Nat) :
    (d.count inst k n).fld F.CNT_VAL_VALUE (cntIdx inst idx) = d.fld F.CNT_VAL_VALUE (cntIdx inst idx) := by
  have hset : ∀ (d : Dev) (f : Fld) (j v : Nat), f.lo ≤ f.hi → j < idx →
      (d.setFld f (cntIdx inst j) v).fld F.CNT_VAL_VALUE (cntIdx inst idx) = d.fld F.CNT_VAL_VALUE (cntIdx inst idx) := by
    intro d f j v hf hj
    refine Dev.fld_setFld_of_ne _ _ _ _ _ _ hf (by decide) (.inl fun e => ?_)
    have hidx := e.2
    unfold cntIdx at hidx
    omega
  have hk : k < idx := Nat.lt_of_succ_lt h
  unfold Dev.count
  split
  · rfl
  · split
    · rfl
    · split
      · unfold Dev.addCount
        dsimp only
        split
        · exact hset _ _ _ _ (by decide) hk
        · split
          · exact (hset _ _ _ _ (by decide) h).trans (hset _ _ _ _ (by decide) hk)
          · exact (hset _ _ _ _ (by decide) hk).trans (hset _ _ _ _ (by decide) hk)
      · exact Dev.fld_of_regs rfl rfl _ _

/-- A notice leaves the counters. -/
theorem Dev.fld_noticeLim_count (d : Dev) (t src prod data key i : Nat) :
    (d.noticeLim t src prod data key).fld F.CNT_VAL_VALUE i = d.fld F.CNT_VAL_VALUE i := by
  have hset : ∀ (d : Dev) (g : Fld) (j v : Nat), g.rf ≠ .CNT_VAL → (d.setFld g j v).rd .CNT_VAL i = d.rd .CNT_VAL i :=
    fun d g j v hg => Dev.rd_setFld_of_ne _ _ _ _ _ _ fun e => hg e.1.symm
  have hlog : ∀ (d : Dev) (bits : BitVec 128) (r : Option (BitVec 32)), (d.logNotice bits r).rd .CNT_VAL i = d.rd .CNT_VAL i := by
    intro d bits r
    rw [Dev.logNotice_eq]
    show (d.nlogWritten bits r).rd .CNT_VAL i = _
    unfold Dev.nlogWritten
    dsimp only
    rw [hset, hset, hset, hset, hset] <;> decide
  have hnotice : ∀ d : Dev, (d.notice t src prod data).rd .CNT_VAL i = d.rd .CNT_VAL i := by
    intro d
    unfold Dev.notice Dev.noticeSev
    split
    · rfl
    · exact hlog _ _ _
  refine congrArg (bitsOf · _ _) ?_
  unfold Dev.noticeLim
  dsimp only
  split
  · split
    · rfl
    · exact (hnotice _).trans (Dev.rd_of_regs rfl rfl _ _)
  · exact (hnotice _).trans (Dev.rd_of_regs rfl rfl _ _)

/-- A head that is taken counts in RX_FLIT and RX_PKT, and in no other named counter. -/
theorem Dev.fld_headTaken_count (d : Dev) (l : Nat) (f : Flit) {c : Nat} (h1 : C.RX_PKT + 1 < c) (h2 : c < 48) :
    (d.headTaken l f).fld F.CNT_VAL_VALUE (cntIdx (16 + l) c) = d.fld F.CNT_VAL_VALUE (cntIdx (16 + l) c) := by
  have h0 : C.RX_FLIT + 1 < c := lt_trans (by decide) h1
  unfold Dev.headTaken Dev.taken Dev.countPort
  rw [Dev.fld_modLane, Dev.fld_countEv_of_lt _ h2, Dev.fld_count_of_gt _ h1, Dev.fld_countEv_of_lt _ h2, Dev.fld_count_of_gt _ h0,
    Dev.fld_setLane]

theorem Dev.cutState_headTaken (d : Dev) (l : Nat) (f : Flit) : (d.headTaken l f).cutState = d.cutState := by
  obtain ⟨d0, hlogs, e⟩ := d.headTaken_logs l f
  have hpast : (d.headTaken l f).cutPast = d.cutPast := by rw [e]; exact hlogs.cutPast
  exact Dev.cutState_congr hpast (d.rd_headTaken l f rfl 0)

theorem Dev.instOk_headTaken (d : Dev) (l : Nat) (f : Flit) (i : Nat) : (d.headTaken l f).instOk i = d.instOk i := by
  obtain ⟨d0, hlogs, e⟩ := d.headTaken_logs l f
  have hfuse : (d.headTaken l f).fuse = d.fuse := by rw [e]; exact hlogs.fuse
  exact Dev.instOk_congr hfuse i

section
variable {s : State} {lane : Nat} {f : Flit} (h : LinkTakes s lane) (hcalm : Calm s) (ht : fcwType f = 1) (hg : NextGood s lane f)
  (hr : ¬ Routable f) (hrx : (s.d.lane lane).rxLow = none)
include h hcalm ht hg hr hrx

omit h hcalm ht hrx in
theorem headArrival_linkLocal : s.d.headArrival lane f = (s.d.headTaken lane f).linkLocalHead lane f (s.d.headOf lane f) := by
  rw [Dev.headArrival_next hg.1 hg.2]
  exact if_pos ((s.d.headOf_local lane f).2 hr)

omit h hcalm ht hg hr in
theorem rxLow_headTaken : ((s.d.headTaken lane f).lane lane).rxLow = none := by
  obtain ⟨-, -, -, hlow, -⟩ := s.d.laneTaken_keeps lane f
  rw [Dev.lane_headTaken, hlow, hrx]

/-- A link-local head that is too long is a bad header, and dropped up to its tail (R59). -/
theorem headFlit_linkLocal_long (hlen : 69 < headLen f) :
    Completes (.headFlitArrival lane f) s (fun t => Took s t lane ∧ t.d.net.lvs = s.d.net.lvs
      ∧ (t.d.lane lane).linkRx = (s.d.lane lane).linkRx ∧ (t.d.lane lane).dropLow = true ∧ Counts s t (16 + lane) C.BAD_HEADER 1) := by
  set p := s.d.headOf lane f
  set d1 := s.d.headTaken lane f
  set d2 := (d1.noteBadHeader p).countDrop p
  have hlogs : d1.Logs d2 := ((Dev.Logs.refl d1).noteBadHeader p).countDrop p
  have hplen : 69 < p.len := by rw [s.d.headOf_len]; exact hlen
  have harr : s.d.headArrival lane f = d2.modLane lane (fun x => { x with dropLow := true }) := by
    have hvl : p.vl ≠ 7 := by rw [((s.d.headOf_local lane f).2 hr).1]; decide
    rw [headArrival_linkLocal hg hr, Dev.linkLocalHead_long (not_stomp_of_good hg.1) (rxLow_headTaken hrx) hplen,
      Dev.dropRest_low hvl (by omega)]
  have hidle : (d2.modLane lane (fun x => { x with dropLow := true })).Idle := by
    have hd2 : d2.Idle := by unfold Dev.Idle; rw [hlogs.net]; exact s.d.idle_headTaken lane f hcalm
    exact hd2
  have hlane : d2.lane lane = s.d.laneTaken lane f := by
    rw [Dev.lane_congr (congrArg Net.lanes hlogs.net)]
    exact s.d.lane_headTaken lane f
  have hmod : (d2.modLane lane (fun x => { x with dropLow := true })).lane lane = { s.d.laneTaken lane f with dropLow := true } := by
    rw [Dev.lane_modLane, if_pos rfl, hlane]
  obtain ⟨hnext, hreq, hlink, -⟩ := s.d.laneTaken_keeps lane f
  refine ⟨_, exec_headFlitArrival h ht, ?_⟩
  rw [harr, hidle.settled]
  refine ⟨⟨(congrArg Lane.rxNext hmod).trans hnext, (congrArg Lane.replayReq hmod).trans hreq⟩, ?_, ?_, ?_, fun hok hcut hchain => ?_⟩
  · exact (congrArg Net.lvs hlogs.net).trans (s.d.lvs_headTaken lane f)
  · exact (congrArg Lane.linkRx hmod).trans hlink
  · exact congrArg Lane.dropLow hmod
  · have hvalue : d2.fld F.CNT_VAL_VALUE (cntIdx (16 + lane) C.BAD_HEADER)
        = (d1.count (16 + lane) C.BAD_HEADER 1).fld F.CNT_VAL_VALUE (cntIdx (16 + lane) C.BAD_HEADER) := by
      have hdrop : ∀ d : Dev, (d.countDrop p).fld F.CNT_VAL_VALUE (cntIdx (16 + lane) C.BAD_HEADER)
          = d.fld F.CNT_VAL_VALUE (cntIdx (16 + lane) C.BAD_HEADER) := fun d => by
        unfold Dev.countDrop
        split
        · rfl
        · rw [s.d.headOf_inl, Dev.fld_countEv_of_lt _ (by decide)]
      rw [hdrop]
      unfold Dev.noteBadHeader Dev.countPort
      rw [Dev.fld_noticeLim_count, s.d.headOf_inl]
    have hchain1 : bitOf (d1.rd .CNT_CHAIN (16 + lane)) (C.BAD_HEADER / 2) = false := by
      rw [s.d.rd_headTaken lane f rfl]; exact hchain
    calc (d2.modLane lane (fun x => { x with dropLow := true })).fld F.CNT_VAL_VALUE (cntIdx (16 + lane) C.BAD_HEADER)
        = d2.fld F.CNT_VAL_VALUE (cntIdx (16 + lane) C.BAD_HEADER) := Dev.fld_modLane _ _ _ _ _
      _ = (d1.count (16 + lane) C.BAD_HEADER 1).fld F.CNT_VAL_VALUE (cntIdx (16 + lane) C.BAD_HEADER) := hvalue
      _ = (d1.fld F.CNT_VAL_VALUE (cntIdx (16 + lane) C.BAD_HEADER) + 1) % 2 ^ 48 :=
        Dev.fld_count_value ((s.d.instOk_headTaken lane f _).trans hok) ((s.d.cutState_headTaken lane f).trans hcut) hchain1 1
      _ = (s.d.fld F.CNT_VAL_VALUE (cntIdx (16 + lane) C.BAD_HEADER) + 1) % 2 ^ 48 := by
        rw [s.d.fld_headTaken_count lane f (by decide) (by decide)]

/-- A link-local head is taken for the link's own use (R49). -/
theorem headFlit_linkLocal_taken (hlen : headLen f ≤ 69) :
    Completes (.headFlitArrival lane f) s (fun t => Took s t lane ∧ t.d.net.lvs = s.d.net.lvs
      ∧ (t.d.lane lane).linkRx = (s.d.lane lane).linkRx ++ [⟨headOpc f == 0x71, BitVec.ofNat 352 (bitsOf f 367 16)⟩]) := by
  set p := s.d.headOf lane f
  set d1 := s.d.headTaken lane f
  set d2 := d1.modLane lane (fun x => { x with linkRx := x.linkRx ++ [⟨p.opc == 0x71, p.rw ++ p.pay⟩] })
  have hplen : p.len ≤ 69 := by rw [s.d.headOf_len]; exact hlen
  have harr : s.d.headArrival lane f = d2.dropRest lane p.vl p.len := by
    rw [headArrival_linkLocal hg hr, Dev.linkLocalHead_taken (not_stomp_of_good hg.1) (rxLow_headTaken hrx) hplen]
  obtain ⟨hlvs, hout, hends, hlink⟩ := d2.dropRest_keeps lane p.vl p.len
  obtain ⟨hout1, hends1⟩ := s.d.idle_headTaken lane f hcalm
  have hidle : (d2.dropRest lane p.vl p.len).Idle := ⟨hout.trans hout1, hends.trans hends1⟩
  have hlane : d2.lane lane = { s.d.laneTaken lane f with
      linkRx := (s.d.laneTaken lane f).linkRx ++ [⟨p.opc == 0x71, p.rw ++ p.pay⟩] } := by
    rw [Dev.lane_modLane, if_pos rfl, s.d.lane_headTaken]
  obtain ⟨hnext, hreq, hlinkRx, -⟩ := s.d.laneTaken_keeps lane f
  have hstill := (((Dev.Soft.refl d2).dropRest lane p.vl p.len).lane lane)
  rw [hlane] at hstill hlink
  have e1 : ((d2.dropRest lane p.vl p.len).lane lane).rxNext = (s.d.laneTaken lane f).rxNext := by
    have e := congrArg Lane.rxNext hstill; exact e
  have e2 : ((d2.dropRest lane p.vl p.len).lane lane).replayReq = (s.d.laneTaken lane f).replayReq := by
    have e := congrArg Lane.replayReq hstill; exact e
  refine ⟨_, exec_headFlitArrival h ht, ?_⟩
  rw [harr, hidle.settled]
  refine ⟨⟨e1.trans hnext, e2.trans hreq⟩, hlvs.trans (s.d.lvs_headTaken lane f), hlink.trans ?_⟩
  show (s.d.laneTaken lane f).linkRx ++ [⟨p.opc == 0x71, p.rw ++ p.pay⟩] = _
  rw [hlinkRx, s.d.headOf_opc, s.d.headOf_payload]

end

end Sys2Proof.Machine
end

section
/-! Body and tail flits (R38, R39, R59). -/

namespace Sys2Proof.Machine
open Sys2Proof.Claims

/-- A packet read after a change of one by its name. -/
theorem Dev.pkt_modPkt (d : Dev) (id : Nat) {f : Pkt → Pkt} (hf : ∀ p, (f p).id = p.id) (i : Nat) :
    (d.modPkt id f).pkt i = (d.pkt i).map (fun p => if p.id = id then f p else p) := by
  unfold Dev.pkt Dev.modPkt
  rw [List.find?_map]
  congr 2
  funext p
  simp only [Function.comp]
  split <;> simp [hf]

theorem Dev.id_of_pkt {d : Dev} {i : Nat} {p : Pkt} (h : d.pkt i = some p) : p.id = i := by
  simpa using List.find?_some h

/-- The packet of a name is named so, after a change of it too. -/
theorem Dev.pkt_modPkt_self {d : Dev} {i : Nat} {p : Pkt} (h : d.pkt i = some p) {f : Pkt → Pkt} (hf : ∀ p, (f p).id = p.id) :
    (d.modPkt p.id f).pkt i = some (f p) := by
  rw [Dev.pkt_modPkt d _ hf, h]
  simp

theorem Dev.lane_taken (d : Dev) (l : Nat) (c : EvCtx) : (d.taken l c).lane l = (d.lane l).took := by
  rw [Dev.lane_congr (congrArg Net.lanes (d.taken_logs l c).net), Dev.lane_setLane, if_pos rfl]

/-- The half of a link on which a VL's packets arrive is open for a packet, and drops nothing (R38). -/
def Lane.Receives (x : Lane) (v i : Nat) : Prop := x.rxOpen v = some i ∧ (if v = 7 then x.dropHigh else x.dropLow) = false

/-- A packet that takes what it expects on its VL. -/
structure Pkt.Awaits (p : Pkt) (v : Nat) (tail : Bool) : Prop where
  place : p.place ≠ .drain
  vl : p.vlIn = v
  len : p.body.length + 1 = p.len ↔ tail = true

/-- The device once a body or tail flit has joined its packet. -/
def Dev.joined (d : Dev) (l v : Nat) (p : Pkt) (f : Flit) (tail : Bool) : Dev :=
  let d1 := d.modPkt p.id (fun p => { p with body := p.body ++ [BitVec.ofNat 480 (bitsOf f 495 16)], whole := tail })
  if tail then d1.modLane l (fun x => x.setRx v none) else d1

section
variable {d : Dev} {l i : Nat} {f : Flit} {p : Pkt}

/-- A good body or tail flit joins the packet that awaits it. -/
theorem Dev.bodyArrival_joins (hc : crcGood f = true) (hr : fcwRseq f = (d.lane l).rxNext) (hrx : (d.lane l).Receives (fcwVl f) i)
    (hp : d.pkt i = some p) (hw : p.Awaits (fcwVl f) (fcwType f == 3)) :
    d.bodyArrival l f = (d.taken l (d.flitCtx l (fcwVl f))).joined l (fcwVl f) p f (fcwType f == 3) := by
  obtain ⟨hopen, hdrop⟩ := hrx
  have hlogs := d.taken_logs l (d.flitCtx l (fcwVl f))
  have hlane := d.lane_taken l (d.flitCtx l (fcwVl f))
  have hpkt : (d.taken l (d.flitCtx l (fcwVl f))).pkt i = some p := by
    unfold Dev.pkt
    rw [hlogs.net]
    exact hp
  have hdrop1 : (if fcwVl f = 7 then (d.lane l).took.dropHigh else (d.lane l).took.dropLow) = false := hdrop
  have hopen1 : (d.lane l).took.rxOpen (fcwVl f) = some i := hopen
  have hlen : ¬ (p.body.length + 1 = p.len) ≠ ((fcwType f == 3) = true) := fun e => e (propext hw.len)
  unfold Dev.bodyArrival
  simp only [Dev.takeNumbered_next hc hr, hlane, hdrop1, not_stomp_of_good hc, hopen1, Option.bind_some, hpkt]
  rw [if_neg (by simp), if_neg (by simp), if_neg (not_not.2 hw.vl), if_neg hlen]
  exact if_neg hw.place

end

section
variable {s : State} {lane i : Nat} {f : Flit} {p : Pkt} (h : LinkTakes s lane) (hcalm : Calm s) (ht : 2 ≤ fcwType f)
  (hg : NextGood s lane f) (hrx : (s.d.lane lane).Receives (fcwVl f) i) (hp : s.d.pkt i = some p)
  (hw : p.Awaits (fcwVl f) (fcwType f == 3))
include h hcalm ht hg hrx hp hw

theorem bodyFlit_joins : Completes (.bodyFlitArrival lane f) s (fun t => Took s t lane
    ∧ t.d.pkt i = some { p with body := p.body ++ [BitVec.ofNat 480 (bitsOf f 495 16)], whole := fcwType f == 3 }
    ∧ (fcwType f = 3 → (t.d.lane lane).rxOpen (fcwVl f) = none)) := by
  set v := fcwVl f
  set d1 := s.d.taken lane (s.d.flitCtx lane v)
  set d2 := d1.modPkt p.id (fun p => { p with body := p.body ++ [BitVec.ofNat 480 (bitsOf f 495 16)], whole := fcwType f == 3 })
  have hlogs : (s.d.setLane lane (s.d.lane lane).took).Logs d1 := s.d.taken_logs lane _
  have hpkt : d2.pkt i = some { p with body := p.body ++ [BitVec.ofNat 480 (bitsOf f 495 16)], whole := fcwType f == 3 } := by
    have hp1 : d1.pkt i = some p := by unfold Dev.pkt; rw [hlogs.net]; exact hp
    exact Dev.pkt_modPkt_self hp1 fun _ => rfl
  have hlane : d2.lane lane = (s.d.lane lane).took := s.d.lane_taken lane _
  have hout : d1.net.outbox = [] := (congrArg Net.outbox hlogs.net).trans hcalm.1
  have hexec : exec (.bodyFlitArrival lane f) s = .next { s with d := d1.joined lane v p f (fcwType f == 3) } := by
    have hout3 : (d1.joined lane v p f (fcwType f == 3)).net.outbox = [] := by
      unfold Dev.joined
      dsimp only
      split <;> exact hout
    rw [exec_bodyFlitArrival h ht, Dev.bodyArrival_joins hg.1 hg.2 hrx hp hw, Dev.settle_of_empty hout3]
  refine ⟨_, hexec, ?_⟩
  by_cases htail : fcwType f = 3
  · have hj : d1.joined lane v p f (fcwType f == 3) = d2.modLane lane (fun x => x.setRx v none) := if_pos (by simp [htail])
    have hmod : (d2.modLane lane (fun x => x.setRx v none)).lane lane = (s.d.lane lane).took.setRx v none := by
      rw [Dev.lane_modLane, if_pos rfl, hlane]
    rw [hj]
    show ((_ : Lane).rxNext = _ ∧ (_ : Lane).replayReq = _) ∧ _ ∧ (_ → (_ : Lane).rxOpen v = none)
    rw [hmod]
    refine ⟨?_, hpkt, fun _ => ?_⟩
    · unfold Lane.setRx; split <;> exact ⟨rfl, rfl⟩
    · unfold Lane.setRx Lane.rxOpen; split <;> rfl
  · have hj : d1.joined lane v p f (fcwType f == 3) = d2 := if_neg (by simp [htail])
    rw [hj]
    exact ⟨⟨congrArg Lane.rxNext hlane, congrArg Lane.replayReq hlane⟩, hpkt, fun e => absurd e htail⟩

end

end Sys2Proof.Machine
end

section
/-! Idle flits: credit totals, the margin report and the acknowledgement (R232, R235, R236, R253 to R255). -/

namespace Sys2Proof.Machine
open Sys2Proof.Claims

/-! ## What the loops of the lasers leave alone (R234 to R239) -/

/-- `d'` is `d` with lasers steered: packets, lanes and credit stay, and so does every margin reported from the far end. -/
structure Dev.Steers (d d' : Dev) : Prop where
  net : { d'.net with downLost := [] } = { d.net with downLost := [] }
  margin : ∀ i, d'.fld F.WNG_LANE_STAT_FAR_MARGIN i = d.fld F.WNG_LANE_STAT_FAR_MARGIN i

namespace Dev.Steers
variable {a d d' : Dev}

theorem refl (d : Dev) : d.Steers d := ⟨rfl, fun _ => rfl⟩

theorem trans {b c : Dev} (h : a.Steers b) (k : b.Steers c) : a.Steers c :=
  ⟨k.net.trans h.net, fun i => (k.margin i).trans (h.margin i)⟩

theorem of_regs (h : a.Steers d) (hn : { d'.net with downLost := [] } = { d.net with downLost := [] }) (hr : d'.regs = d.regs)
    (hf : d'.fuse = d.fuse) : a.Steers d' :=
  h.trans ⟨hn, fun _ => Dev.fld_of_regs hr hf _ _⟩

/-- A field is set that is not the margin of a lane. -/
theorem setFld (h : a.Steers d) {g : Fld} (hg : g.rf ≠ .WNG_LANE_STAT ∨ 47 < g.lo) (hw : g.lo ≤ g.hi) (i v : Nat) : a.Steers (d.setFld g i v) := by
  refine h.trans ⟨rfl, fun j => Dev.fld_setFld_of_ne _ _ _ _ _ _ hw (by decide) ?_⟩
  rcases hg with hrf | hlo
  · exact .inl fun e => hrf e.1.symm
  · exact .inr (.inl hlo)

theorem logs (h : a.Steers d) (hl : d.Logs d') : a.Steers d' :=
  h.trans ⟨by rw [hl.net], fun i => congrArg (bitsOf · _ _) (hl.regs _ i rfl)⟩

theorem notice (h : a.Steers d) (t src prod data : Nat) : a.Steers (d.notice t src prod data) := h.logs ((Dev.Logs.refl d).notice _ _ _ _)
theorem modWing (h : a.Steers d) (w : Nat) (f : Wing → Wing) : a.Steers (d.modWing w f) := h.of_regs rfl rfl rfl
theorem setSwap (h : a.Steers d) (w g : Nat) (o : Option Swap) : a.Steers (d.setSwap w g o) := h.modWing _ _
theorem setOstate (h : a.Steers d) (l o : Nat) : a.Steers (d.setOstate l o) := h.setFld (.inr (by decide)) (by decide) _ _

theorem each {α : Type} {f : Dev → α → Dev} (h : a.Steers d) (l : List α) (hf : ∀ d x, a.Steers d → a.Steers (f d x)) :
    a.Steers (d.each l f) := by
  induction l generalizing d with
  | nil => exact h
  | cons x l ih => exact ih (hf d x h)

theorem noteLost {f : Dev → Dev} (h : a.Steers (f d)) : a.Steers (d.noteLost f) := h.of_regs rfl rfl rfl

theorem setLaser (h : a.Steers d) (w k st : Nat) : a.Steers (d.setLaser w k st) := by
  have hbank : ∀ i, a.Steers (d.bankHours i) := fun i => by
    unfold Dev.bankHours
    split
    · exact h
    · exact h.of_regs rfl rfl rfl
  unfold Dev.setLaser
  extract_lets i d1 d2
  have h1 : a.Steers d1 := by
    show a.Steers (if st ≠ 2 then _ else _)
    split
    · exact hbank i
    · split
      · exact h.of_regs rfl rfl rfl
      · exact h
  have h2 : a.Steers d2 := by
    show a.Steers (if _ then _ else _)
    split
    · exact h1.setFld (.inl (by decide)) (by decide) _ _
    · exact h1
  exact h2.setFld (.inl (by decide)) (by decide) _ _

theorem eolWarn (h : a.Steers d) (w k : Nat) : a.Steers (d.eolWarn w k) := by
  unfold Dev.eolWarn
  split
  · exact (h.setFld (.inl (by decide)) (by decide) _ _).notice _ _ _ _
  · exact h

theorem beginSwap (h : a.Steers d) (w g old u : Nat) (byCmd fadeOnly down : Bool) (ls : List Nat) :
    a.Steers (d.beginSwap w g old u byCmd fadeOnly down ls) := by
  unfold Dev.beginSwap
  extract_lets drain x d1 d2 d3 d4
  have h1 : a.Steers d1 := h.setLaser _ _ _
  have h2 : a.Steers d2 := by
    show a.Steers (if _ then _ else _)
    split
    · exact h1.setLaser _ _ _
    · exact h1
  have h4 : a.Steers d4 := (h2.setSwap w g (some x)).notice _ _ _ _
  split
  · exact noteLost (h4.each _ fun _ l h => h.setOstate l 3)
  · split
    · exact h4
    · refine h4.each _ fun d l h => ?_
      split
      · exact h.setOstate l 1
      · exact h

theorem autoSwap (h : a.Steers d) (w g old : Nat) (down : Bool) (ls : List Nat) : a.Steers (d.autoSwap w g old down ls) := by
  unfold Dev.autoSwap
  split
  · exact h
  · split
    · exact (h.notice _ _ _ _).notice _ _ _ _
    · exact h.beginSwap _ _ _ _ _ _ _ _

theorem ageing (h : a.Steers d) (w g k : Nat) (hold : Bool) : a.Steers (d.ageing w g k hold) := by
  have hfree : a.Steers d.freeNat.2 := h.of_regs rfl rfl rfl
  have hbias : ∀ b, a.Steers (((d.freeNat.2.setFld F.WNG_LASER_BIAS (lasIdx w k) (b / 2)).modWing w
      (fun y => { y with bias := y.bias.put k b })).eolWarn w k) := fun b =>
    ((hfree.setFld (.inl (by decide)) (by decide) _ _).modWing _ _).eolWarn _ _
  unfold Dev.ageing
  dsimp only
  generalize (if hold = true then (_ : Nat) else _) = b
  split
  · exact (hbias _).autoSwap _ _ _ _ _
  · exact hbias _

theorem laneLow (h : a.Steers d) (l v margin : Nat) : a.Steers (d.laneLow l v margin) := by
  unfold Dev.laneLow
  dsimp only
  split
  · split
    · exact h
    · exact (h.modWing _ _).notice _ _ _ _
  · exact h.modWing _ _

theorem marginLow (h : a.Steers d) (w g k margin : Nat) : a.Steers (d.marginLow w g k margin) := by
  unfold Dev.marginLow
  extract_lets n d1
  split
  · exact (h.modWing _ _).autoSwap _ _ _ _ _
  · exact h.modWing _ _

theorem marginReport (d : Dev) (l v : Nat) :
    ((d.setFld F.WNG_LANE_STAT_FAR_MARGIN (wngLane l) v).modLane l (fun x => { x with farValid := true })).Steers (d.marginReport l v) := by
  unfold Dev.marginReport
  extract_lets w g d1
  cases hk : d1.groupLaser w g with
  | none => exact refl d1
  | some k =>
    show d1.Steers _
    rw [Dev.whenSome_some]
    extract_lets lit m d2
    have h2 : d1.Steers d2 := by
      show d1.Steers (if _ then _ else _)
      split
      · exact refl d1
      · exact (refl d1).setFld (.inl (by decide)) (by decide) _ _
    unfold Dev.when
    split
    · have h3 := h2.ageing w g k (decide (lit.length < 2))
      dsimp only
      split
      · exact h3
      · exact (h3.laneLow _ _ _).marginLow _ _ _ _
    · exact h2

end Dev.Steers

/-! ## Credit totals -/

/-- A lane-VL that has taken an idle flit's totals (R253). -/
def LaneVl.Totals (f : Flit) (v : Nat) (x : LaneVl) : Prop := x.nTot = idleN f v ∧ (1 ≤ v → v ≤ 6 → x.dTot = idleD f v)

/-- A lane-VL takes an idle flit's totals (R253). -/
def LaneVl.withTotals (f : Flit) (v : Nat) (x : LaneVl) : LaneVl :=
  let x := { x with nTot := idleN f v }
  if 1 ≤ v ∧ v ≤ 6 then { x with dTot := idleD f v } else x

theorem LaneVl.totals_withTotals (f : Flit) (v : Nat) (x : LaneVl) : (x.withTotals f v).Totals f v := by
  unfold LaneVl.withTotals LaneVl.Totals
  dsimp only
  split
  · exact ⟨rfl, fun _ _ => rfl⟩
  · next hv => exact ⟨rfl, fun h1 h6 => absurd ⟨h1, h6⟩ hv⟩

/-- A lane's totals, VL by VL. -/
def Dev.withTotals (d : Dev) (l : Nat) (f : Flit) (vs : List Nat) : Dev :=
  d.each vs (fun d v => d.modLv (lvKey l v) (LaneVl.withTotals f v))

theorem Dev.withTotals_cons (d : Dev) (l : Nat) (f : Flit) (v : Nat) (vs : List Nat) :
    d.withTotals l f (v :: vs) = (d.modLv (lvKey l v) (LaneVl.withTotals f v)).withTotals l f vs := rfl

theorem Dev.lv_modLv (d : Dev) (k j : Nat) (g : LaneVl → LaneVl) : (d.modLv k g).lv j = if j = k then g (d.lv k) else d.lv j := by
  simp [Dev.lv, Dev.modLv, Dev.setLv]

theorem Dev.lv_withTotals_of_totals {l : Nat} {f : Flit} {v : Nat} (vs : List Nat) {d : Dev} (h : (d.lv (lvKey l v)).Totals f v) :
    ((d.withTotals l f vs).lv (lvKey l v)).Totals f v := by
  induction vs generalizing d with
  | nil => exact h
  | cons u vs ih =>
    rw [Dev.withTotals_cons]
    refine ih ?_
    rw [Dev.lv_modLv]
    split
    · next e =>
      obtain rfl : v = u := by unfold lvKey at e; omega
      exact LaneVl.totals_withTotals _ _ _
    · exact h

theorem Dev.lv_withTotals {l : Nat} {f : Flit} {v : Nat} {vs : List Nat} (hv : v ∈ vs) (d : Dev) :
    ((d.withTotals l f vs).lv (lvKey l v)).Totals f v := by
  induction vs generalizing d with
  | nil => cases hv
  | cons u vs ih =>
    rw [Dev.withTotals_cons]
    obtain rfl | hv := List.mem_cons.1 hv
    · refine Dev.lv_withTotals_of_totals vs ?_
      rw [Dev.lv_modLv, if_pos rfl]
      exact LaneVl.totals_withTotals _ _ _
    · exact ih hv _

theorem Dev.withTotals_lvs (l : Nat) (f : Flit) (vs : List Nat) (d : Dev) :
    ∃ lvs, d.withTotals l f vs = { d with net := { d.net with lvs := lvs } } := by
  induction vs generalizing d with
  | nil => exact ⟨_, rfl⟩
  | cons u vs ih =>
    obtain ⟨lvs, e⟩ := ih (d.modLv (lvKey l u) (LaneVl.withTotals f u))
    exact ⟨lvs, e⟩

/-! ## Acknowledgement (R255) -/

/-- A lane that has taken an acknowledgement. -/
def Lane.acking (x : Lane) (a : Nat) : Lane := match ackThrough x.replay a with | some r => { x with replay := r, acked := a } | none => x

theorem Lane.acking_peerServing (x : Lane) (a : Nat) : (x.acking a).peerServing = x.peerServing := by
  unfold Lane.acking; split <;> rfl

theorem Lane.acking_replay {x : Lane} {a : Nat} {r : List (Nat × Flit)} (h : ackThrough x.replay a = some r) : (x.acking a).replay = r := by
  unfold Lane.acking; rw [h]

/-- An acknowledgement without a request for a replay: the flits through it go, and the round trip is judged. -/
theorem Dev.takeAck_of_no_replay {f : Flit} (h : idleReplay f = false) (d : Dev) (l : Nat) :
    d.takeAck l f = d.setLane l ((d.lane l).acking (idleAck f))
    ∨ ∃ v, d.takeAck l f = ((d.setLane l ((d.lane l).acking (idleAck f))).setFld F.PRT_LINK_STAT_RTT l v).modLane l
        (fun x => { x with rttFrom := none }) := by
  unfold Dev.takeAck
  extract_lets x a y d1 d2 d3
  rw [if_neg (by simp [h])]
  show d2 = d1 ∨ ∃ v, d2 = (d1.setFld F.PRT_LINK_STAT_RTT l v).modLane l (fun x => { x with rttFrom := none })
  unfold d2
  split
  · split
    · exact .inr ⟨_, rfl⟩
    · exact .inl rfl
  · exact .inl rfl

/-! ## What an idle flit gives -/

/-- A device whose lane has taken an idle flit's serving bit and totals. -/
structure Dev.IdleTaken (d : Dev) (l : Nat) (f : Flit) : Prop where
  idle : d.Idle
  serving : (d.lane l).peerServing = idleServing f
  totals : ∀ v, v < 8 → (d.lv (lvKey l v)).Totals f v

/-- The device once a lane has taken an idle flit's serving bit and totals. -/
def Dev.idleNoted (d : Dev) (l : Nat) (f : Flit) : Dev :=
  (d.noteLost (fun d => d.modLane l (fun x => { x with peerServing := idleServing f }))).withTotals l f (List.range 8)

/-- The device once a lane has taken an idle flit's margin report, if it brings one. -/
def Dev.idleMargin (d : Dev) (l : Nat) (f : Flit) : Dev := if idleMarginValid f then d.marginReport l (Machine.idleMargin f) else d

/-- Totals change credit alone, and serving its lane and the sets that lost their last member. -/
theorem Dev.idleNoted_eq (d : Dev) (l : Nat) (f : Flit) : ∃ lvs lost, d.idleNoted l f =
    let d1 := d.modLane l (fun x => { x with peerServing := idleServing f })
    { d1 with net := { d1.net with lvs := lvs, downLost := lost } } := by
  obtain ⟨lvs, e⟩ := Dev.withTotals_lvs l f (List.range 8) (d.noteLost (fun d => d.modLane l (fun x => { x with peerServing := idleServing f })))
  exact ⟨lvs, _, e⟩

theorem Dev.idleNoted_lane (d : Dev) (l : Nat) (f : Flit) :
    (d.idleNoted l f).lane l = { d.lane l with peerServing := idleServing f } := by
  obtain ⟨lvs, lost, e⟩ := d.idleNoted_eq l f
  rw [e]
  exact (d.lane_modLane l (fun x => { x with peerServing := idleServing f }) l).trans (if_pos rfl)

theorem Dev.idleTaken_idleNoted {d : Dev} (h : d.Idle) (l : Nat) (f : Flit) : (d.idleNoted l f).IdleTaken l f where
  idle := by
    obtain ⟨lvs, lost, e⟩ := d.idleNoted_eq l f
    rw [e]
    exact h
  serving := by rw [Dev.idleNoted_lane]
  totals v hv := Dev.lv_withTotals (List.mem_range.2 hv) _

/-- What is steered afterwards leaves an idle flit's facts alone. -/
theorem Dev.Steers.lane {d d' : Dev} (h : d.Steers d') (l : Nat) : d'.lane l = d.lane l :=
  Dev.lane_congr (by have e := congrArg Net.lanes h.net; exact e) l

theorem Dev.IdleTaken.steers {d d' : Dev} {l : Nat} {f : Flit} (h : d.IdleTaken l f) (k : d.Steers d') : d'.IdleTaken l f where
  idle := by
    have hout : d'.net.outbox = d.net.outbox := by have e := congrArg Net.outbox k.net; exact e
    have hends : d'.net.endsDown = d.net.endsDown := by have e := congrArg Net.endsDown k.net; exact e
    exact ⟨hout.trans h.idle.1, hends.trans h.idle.2⟩
  serving := by rw [k.lane]; exact h.serving
  totals v hv := by
    have hlvs : d'.net.lvs = d.net.lvs := by have e := congrArg Net.lvs k.net; exact e
    have e : d'.lv (lvKey l v) = d.lv (lvKey l v) := by unfold Dev.lv; rw [hlvs]
    rw [e]
    exact h.totals v hv

theorem Dev.IdleTaken.setFld {d : Dev} {l : Nat} {f : Flit} (h : d.IdleTaken l f) (g : Fld) (i v : Nat) : (d.setFld g i v).IdleTaken l f :=
  ⟨h.idle, h.serving, h.totals⟩

theorem Dev.IdleTaken.setLane {d : Dev} {l : Nat} {f : Flit} (h : d.IdleTaken l f) {x : Lane} (hx : x.peerServing = (d.lane l).peerServing) :
    (d.setLane l x).IdleTaken l f :=
  ⟨h.idle, by rw [Dev.lane_setLane, if_pos rfl, hx]; exact h.serving, h.totals⟩

/-- A margin report keeps the totals, the serving bit and the flits that wait for an acknowledgement, and is read back. -/
theorem Dev.idleMargin_spec {d : Dev} {l : Nat} {f : Flit} (h : d.IdleTaken l f) :
    (d.idleMargin l f).IdleTaken l f ∧ ((d.idleMargin l f).lane l).replay = (d.lane l).replay
    ∧ (idleMarginValid f = true → (d.idleMargin l f).fld F.WNG_LANE_STAT_FAR_MARGIN (wngLane l) = Machine.idleMargin f) := by
  unfold Dev.idleMargin
  split
  · set v := Machine.idleMargin f
    have hs := Dev.Steers.marginReport d l v
    have hset : ((d.setFld F.WNG_LANE_STAT_FAR_MARGIN (wngLane l) v).modLane l (fun x => { x with farValid := true })).IdleTaken l f :=
      (h.setFld _ _ _).setLane rfl
    refine ⟨hset.steers hs, ?_, fun _ => ?_⟩
    · rw [hs.lane, Dev.lane_modLane, if_pos rfl]
      rfl
    · rw [hs.margin]
      exact (Dev.fld_setFld_self d _ _ _ (by decide) (by decide)).trans (Nat.mod_eq_of_lt (bitsOf_lt f 137 128))
  · next hv => exact ⟨h, rfl, fun e => absurd e hv⟩

/-- An acknowledgement keeps the totals, the serving bit and the margins, and the flits through it go. -/
theorem Dev.takeAck_spec {d : Dev} {l : Nat} {f : Flit} (h : d.IdleTaken l f) (hr : idleReplay f = false) :
    (d.takeAck l f).IdleTaken l f
    ∧ (∀ i, (d.takeAck l f).fld F.WNG_LANE_STAT_FAR_MARGIN i = d.fld F.WNG_LANE_STAT_FAR_MARGIN i)
    ∧ (∀ r, ackThrough (d.lane l).replay (idleAck f) = some r → ((d.takeAck l f).lane l).replay = r) := by
  have hack := h.setLane ((d.lane l).acking_peerServing (idleAck f))
  obtain e | ⟨v, e⟩ := Dev.takeAck_of_no_replay hr d l
  · rw [e]
    refine ⟨hack, fun _ => rfl, fun r hrep => ?_⟩
    rw [Dev.lane_setLane, if_pos rfl]
    exact Lane.acking_replay hrep
  · rw [e]
    refine ⟨(hack.setFld _ _ _).setLane rfl, fun i => ?_, fun r hrep => ?_⟩
    · exact Dev.fld_setFld_of_ne _ _ _ _ _ _ (by decide) (by decide) (.inl fun e => absurd e.1 (by decide))
    · have hlane : (d.setLane l ((d.lane l).acking (idleAck f))).lane l = (d.lane l).acking (idleAck f) :=
        (d.lane_setLane l _ l).trans (if_pos rfl)
      rw [Dev.lane_modLane, if_pos rfl]
      exact (congrArg Lane.replay hlane).trans (Lane.acking_replay hrep)

section
variable {s : State} {lane : Nat} {f : Flit} (h : LinkTakes s lane) (hcalm : Calm s) (ht : fcwType f = 0) (hc : crcGood f = true)
include h ht hc

theorem exec_idleFlitArrival : exec (.idleFlitArrival lane f) s =
    .next { s with d := ((((s.d.idleNoted lane f).idleMargin lane f).takeAck lane f).settle).declareDue s.mem } := by
  show execIdleFlitArrival lane f s = _
  simp only [execIdleFlitArrival, h.present, linkRuns_of_takes h, ht, hc, decide_true, beq_self_eq_true, Bool.and_self,
    ifUnit_true, onDevM_eq, Dev.when_true]
  rfl

include hcalm

theorem idleFlit_gives (hr : bitOf f 494 = false) : Completes (.idleFlitArrival lane f) s (fun t => Rest s t
    ∧ (t.d.lane lane).peerServing = idleServing f ∧ (∀ v, v < 8 → (t.d.lv (lvKey lane v)).Totals f v)
    ∧ (idleMarginValid f = true → t.d.fld F.WNG_LANE_STAT_FAR_MARGIN (wngLane lane) = Machine.idleMargin f)
    ∧ (∀ r, ackThrough (s.d.lane lane).replay (idleAck f) = some r → (t.d.lane lane).replay = r)) := by
  have hnoted := Dev.idleTaken_idleNoted (d := s.d) hcalm lane f
  obtain ⟨hmargin, hreplay, hread⟩ := Dev.idleMargin_spec hnoted
  obtain ⟨htaken, hkept, hthrough⟩ := Dev.takeAck_spec hmargin hr
  refine ⟨_, exec_idleFlitArrival h ht hc, ⟨rfl, rfl⟩, ?_⟩
  rw [htaken.idle.settled]
  refine ⟨htaken.serving, htaken.totals, fun hv => (hkept _).trans (hread hv), fun r hrep => hthrough r ?_⟩
  rw [hreplay, Dev.idleNoted_lane]
  exact hrep

end

end Sys2Proof.Machine
end

section
/-! The flits that a lane sends: the seal of an idle flit, and what a boundary keeps (R31, R39, R120, R253, R255). -/

namespace Sys2Proof.Machine
open Sys2Proof.Claims

/-! ## The seal of a flit (R39) -/

theorem crcBit_lt (w poly c : Nat) (b : Bool) (h : poly < 2 ^ w) : crcBit w poly c b < 2 ^ w := by
  have hs : c * 2 % 2 ^ w < 2 ^ w := Nat.mod_lt _ (Nat.two_pow_pos w)
  unfold crcBit
  dsimp only
  split
  · exact Nat.xor_lt_two_pow hs h
  · exact hs

/-- A CRC-16 has 16 bits. -/
theorem crc16_lt (bs : List Byte) : crc16 bs < 2 ^ 16 := by
  have hfold : ∀ (bs : List Byte) (c : Nat), c < 2 ^ 16 → bs.foldl (crcByte 16 0x8BB7) c < 2 ^ 16 := by
    intro bs
    induction bs with
    | nil => exact fun c hc => hc
    | cons b bs ih => exact fun c _ => ih _ (crcBit_lt 16 _ _ _ (by decide))
  exact hfold bs _ (by decide)

section
variable {v : Nat} (h : v < 2 ^ 496)
include h

theorem toNat_sealFlit : (sealFlit v).toNat = v * 65536 + crc16 (bytesOf 62 v) := by
  have hc := crc16_lt (bytesOf 62 v)
  unfold sealFlit
  rw [BitVec.toNat_ofNat]
  exact Nat.mod_eq_of_lt (by omega)

/-- A sealed flit is good. -/
theorem crcGood_sealFlit : crcGood (sealFlit v) = true := by
  have hc := crc16_lt (bytesOf 62 v)
  have hbody : (v * 65536 + crc16 (bytesOf 62 v)) >>> 16 = v := by rw [Nat.shiftRight_eq_div_pow]; omega
  unfold crcGood flitCrc bitsOf
  rw [toNat_sealFlit h, hbody, Nat.shiftRight_zero, beq_iff_eq]
  omega

end

theorem toNat_sealFlit_lt {v n : Nat} (h : v < 2 ^ n) (hn : n ≤ 496) : (sealFlit v).toNat < 2 ^ (n + 16) := by
  have hc := crc16_lt (bytesOf 62 v)
  have hle : 2 ^ n ≤ 2 ^ 496 := by gcongr; decide
  rw [toNat_sealFlit (lt_of_lt_of_le h hle), Nat.pow_add]
  omega

/-- The body of an idle flit leaves TYPE 0. -/
theorem flitBody_idle_lt (rest : Nat) : flitBody 0 0 0 rest < 2 ^ 480 := by
  unfold flitBody
  omega

theorem idleFlit_good (d : Dev) (l : Nat) : fcwType (d.idleFlit l) = 0 ∧ crcGood (d.idleFlit l) = true := by
  unfold Dev.idleFlit
  extract_lets x serving n dc ctl mar
  have hlt := flitBody_idle_lt (ctl * 2 ^ 464 + n * 2 ^ 272 + dc * 2 ^ 128 + mar * 2 ^ 112)
  generalize flitBody 0 0 0 (ctl * 2 ^ 464 + n * 2 ^ 272 + dc * 2 ^ 128 + mar * 2 ^ 112) = v at hlt
  have hle : 2 ^ 480 ≤ 2 ^ 496 := by gcongr <;> decide
  have hv : v < 2 ^ 496 := lt_of_lt_of_le hlt hle
  refine ⟨?_, crcGood_sealFlit hv⟩
  have hlow := toNat_sealFlit_lt hlt (by decide)
  have hle' : 2 ^ (480 + 16) ≤ 2 ^ 510 := by gcongr <;> decide
  have htop : (sealFlit v).toNat < 2 ^ 510 := lt_of_lt_of_le hlow hle'
  unfold fcwType bitsOf
  rw [Nat.shiftRight_eq_zero _ _ htop, Nat.zero_mod]

/-! ## What a lane purges before a boundary (R274) -/

theorem Dev.pkt_congr {d d' : Dev} (h : d'.net.pkts = d.net.pkts) (i : Nat) : d'.pkt i = d.pkt i := by unfold Dev.pkt; rw [h]

theorem Dev.pkt_dropPkt_of_ne (d : Dev) {i j : Nat} (h : j ≠ i) : (d.dropPkt i).pkt j = d.pkt j := by
  unfold Dev.pkt Dev.dropPkt
  rw [List.find?_filter]
  congr 1
  funext p
  by_cases hp : p.id = j
  · simp [hp, h]
  · simp [hp]

theorem Dev.pkt_endPkt_of_ne (d : Dev) {i j : Nat} (h : j ≠ i) : (d.endPkt i).pkt j = d.pkt j := by
  cases hp : d.pkt i with
  | none => unfold Dev.endPkt; rw [hp]
  | some p =>
    have hpkts : (d.endPkt i).net.pkts = (d.dropPkt i).net.pkts := by
      have e := congrArg (fun x : Dev => x.net.pkts) (Dev.Frees.endPkt hp).still
      exact e
    rw [Dev.pkt_congr hpkts, Dev.pkt_dropPkt_of_ne d h]

/-- A queued PTP message that R274 discards goes, and another packet stays. -/
def Dev.ptpDiscard (d : Dev) (p : Pkt) : Dev :=
  match d.ptpDrop p with
  | some c => (d.countTmu c).endPkt p.id
  | none => d

theorem Dev.Soft.ptpDiscard {a d : Dev} (h : a.Soft d) (p : Pkt) : a.Soft (d.ptpDiscard p) := by
  unfold Dev.ptpDiscard
  split
  · exact (h.countTmu _).endPkt _
  · exact h

theorem Dev.pkt_ptpDiscard_of_ne (d : Dev) (p : Pkt) {i : Nat} (h : i ≠ p.id) : (d.ptpDiscard p).pkt i = d.pkt i := by
  unfold Dev.ptpDiscard
  split
  · next c _ =>
    rw [Dev.pkt_endPkt_of_ne _ h]
    exact Dev.pkt_congr (congrArg Net.pkts ((Dev.Logs.refl d).count _ _ _).net) i
  · rfl

theorem Dev.pkt_ptpDiscards {i : Nat} (ps : List Pkt) (h : ∀ p ∈ ps, i ≠ p.id) (d : Dev) : (d.each ps Dev.ptpDiscard).pkt i = d.pkt i := by
  induction ps generalizing d with
  | nil => rfl
  | cons p ps ih =>
    obtain ⟨hp, hps⟩ := List.forall_mem_cons.1 h
    exact (ih hps (d.ptpDiscard p)).trans (d.pkt_ptpDiscard_of_ne p hp)

theorem Dev.ptpPurge_soft (d : Dev) (l : Nat) : d.Soft (d.ptpPurge l) :=
  (Dev.Soft.refl d).each _ fun _ _ p hb => hb.ptpDiscard p

/-- An open packet is not purged. -/
theorem Dev.pkt_ptpPurge {d : Dev} {l i : Nat} (h : d.isOpen l i = true) : (d.ptpPurge l).pkt i = d.pkt i := by
  refine Dev.pkt_ptpDiscards _ (fun p hp e => ?_) d
  have hopen := (List.mem_filter.1 hp).2
  rw [← e, h] at hopen
  simp at hopen

end Sys2Proof.Machine
end

section
/-! The packets that a lane's scheduler picks from (R105, R114, R120 to R122). -/

namespace Sys2Proof.Machine
open Sys2Proof.Claims

/-! ## A packet that the scheduler picks is one of the device (R120 to R122) -/

/-- A fold that keeps its choice or takes the element at hand ends with one that it met. -/
theorem mem_of_foldl_pick {α : Type} {f : Option α → α → Option α} (hf : ∀ o x, f o x = o ∨ f o x = some x) {y : α} :
    ∀ (xs : List α) (o : Option α), xs.foldl f o = some y → o = some y ∨ y ∈ xs := by
  intro xs
  induction xs with
  | nil => exact fun o h => .inl h
  | cons x xs ih =>
    intro o h
    obtain ho | hm := ih _ h
    · obtain e | e := hf o x
      · exact .inl (e.symm.trans ho)
      · exact .inr (List.mem_cons.2 (.inl (Option.some.inj (ho.symm.trans e))))
    · exact .inr (List.mem_cons_of_mem _ hm)

section
variable {d : Dev} {l q v : Nat} {p : Pkt}

theorem Dev.mem_of_queueFront (h : d.queueFront l q = some p) : p ∈ d.net.pkts := by
  unfold Dev.queueFront at h
  refine (mem_of_foldl_pick (fun o x => ?_) _ _ h).elim nofun fun hm => (List.mem_filter.1 hm).1
  cases o with
  | none => exact .inr rfl
  | some y =>
    dsimp only
    split
    · exact .inr rfl
    · exact .inl rfl

theorem Dev.mem_of_ready (h : d.ready l q = some p) : p ∈ d.net.pkts := by
  unfold Dev.ready at h
  split at h
  · cases h
  · next r hr =>
    dsimp only at h
    split at h
    · cases h
      exact Dev.mem_of_queueFront hr
    · cases h

theorem Dev.mem_of_sideReady (h : d.sideReady l v = some p) : p ∈ d.net.pkts := by
  unfold Dev.sideReady at h
  split at h
  · cases h
  · next r hr =>
    split at h
    · cases h
      exact Dev.mem_of_queueFront hr
    · cases h

theorem Dev.substitute_mem (h : p ∈ d.net.pkts) (l v : Nat) : d.substitute l v p ∈ d.net.pkts := by
  unfold Dev.substitute
  cases hs : d.sideReady l v with
  | none => exact h
  | some r => exact Dev.mem_of_sideReady hs

theorem Dev.mem_of_commitCands {x : Nat × Nat × Nat × Pkt} (h : x ∈ d.commitCands l) : x.2.2.2 ∈ d.net.pkts := by
  unfold Dev.commitCands at h
  obtain hq | hc := List.mem_append.1 h
  · obtain ⟨q, -, hq⟩ := List.mem_filterMap.1 hq
    split at hq
    · cases hq
    · obtain ⟨r, hr, rfl⟩ := Option.map_eq_some_iff.1 hq
      exact Dev.mem_of_ready hr
  · split at hc
    · cases hc
    · split at hc
      · next y hy =>
        obtain ⟨q, -, hq⟩ := List.exists_of_findSome?_eq_some hy
        obtain ⟨r, hr, rfl⟩ := Option.map_eq_some_iff.1 hq
        obtain rfl := List.mem_singleton.1 hc
        exact Dev.mem_of_ready hr
      · cases hc

theorem Dev.mem_of_commitmentPass {k : Pick} (h : d.commitmentPass l = some k) : k.p ∈ d.net.pkts := by
  obtain ⟨x, hx, rfl⟩ := Option.map_eq_some_iff.1 h
  refine Dev.substitute_mem ?_ _ _
  refine (mem_of_foldl_pick (fun o x => ?_) _ _ hx).elim nofun Dev.mem_of_commitCands
  cases o with
  | none => exact .inr rfl
  | some y =>
    dsimp only
    split
    · exact .inr rfl
    · exact .inl rfl

theorem Dev.mem_of_queuePick (n : Nat) (x : Port) (h : (d.queuePick l v n x).1 = some (q, p)) : p ∈ d.net.pkts := by
  induction n generalizing x with
  | zero => cases h
  | succ n ih =>
    unfold Dev.queuePick at h
    dsimp only at h
    split at h
    · split at h
      · next r hr =>
        split at h
        · cases h
          obtain ⟨r, hready, rfl⟩ := Option.map_eq_some_iff.1 hr
          exact Dev.substitute_mem (Dev.mem_of_ready hready) _ _
        · exact ih _ h
      · exact ih _ h
    · split at h
      · exact ih _ h
      · exact ih _ h

theorem Dev.mem_of_groupNext {x : Port} {k : Pick} (h : (d.groupNext l v x).1 = some k) : k.p ∈ d.net.pkts := by
  unfold Dev.groupNext at h
  split at h
  · next q p y e =>
    cases h
    exact Dev.mem_of_queuePick 20 x (congrArg Prod.fst e)
  · obtain ⟨r, hr, rfl⟩ := Option.map_eq_some_iff.1 h
    exact Dev.mem_of_sideReady hr

theorem Dev.mem_of_excessPass {k : Pick} (n : Nat) (x : Port) (h : (d.excessPass l n x).1 = some k) : k.p ∈ d.net.pkts := by
  induction n generalizing x with
  | zero => cases h
  | succ n ih =>
    unfold Dev.excessPass at h
    dsimp only at h
    split at h
    · split at h
      · next k' y e =>
        split at h
        · cases h
          exact Dev.mem_of_groupNext (congrArg Prod.fst e)
        · exact ih _ h
      · exact ih _ h
    · split at h
      · exact ih _ h
      · exact ih _ h

theorem Dev.mem_of_timedReady {k : Pick} (h : d.timedReady l = some k) : k.p ∈ d.net.pkts := by
  obtain ⟨q, -, hq⟩ := List.exists_of_findSome?_eq_some h
  obtain ⟨r, hr, rfl⟩ := Option.map_eq_some_iff.1 hq
  exact Dev.mem_of_ready hr

end

/-- What the scheduler picks is one of the device's packets, and picking changes a port alone. -/
theorem Dev.nextPacket_spec (d : Dev) (l : Nat) : (∀ k, (d.nextPacket l).1 = some k → k.p ∈ d.net.pkts)
    ∧ (d.nextPacket l).2.net.pkts = d.net.pkts ∧ (d.nextPacket l).2.out = d.out := by
  unfold Dev.nextPacket
  split
  · next q p hq =>
    refine ⟨fun k hk => ?_, rfl, rfl⟩
    obtain ⟨r, -, hr⟩ := List.exists_of_findSome?_eq_some hq
    obtain ⟨p', hp', e⟩ := Option.map_eq_some_iff.1 hr
    cases e
    cases hk
    exact Dev.mem_of_ready hp'
  · split
    · next k hk =>
      exact ⟨fun k' e => Option.some.inj e ▸ Dev.mem_of_commitmentPass hk, rfl, rfl⟩
    · exact ⟨fun k hk => Dev.mem_of_excessPass 20 _ hk, rfl, rfl⟩

end Sys2Proof.Machine
end

section
/-! What leaves a lane at a boundary: a numbered flit, an idle flit, or a flit sent again (R31, R39, R120, R253, R255). -/

namespace Sys2Proof.Machine
open Sys2Proof.Claims

/-! ## Sending one flit -/

/-- One flit has left on a lane, and nothing else has left the device. -/
def Dev.Sends (l : Nat) (d d' : Dev) : Prop := ∃ g, d'.out = d.out ++ [.flit l g]

theorem Dev.Sends.of_out {l : Nat} {a d d' : Dev} (h : d.Sends l d') (e : d.out = a.out) : a.Sends l d' := by
  obtain ⟨g, hg⟩ := h
  exact ⟨g, e ▸ hg⟩

theorem Dev.Sends.soft {l : Nat} {a d d' : Dev} (h : a.Sends l d) (k : d.Soft d') : a.Sends l d' := by
  obtain ⟨g, hg⟩ := h
  exact ⟨g, k.out.trans hg⟩

theorem Dev.Logs.out {d d' : Dev} (h : d.Logs d') : d'.out = d.out := by have e := congrArg Dev.out h.still; exact e

theorem Dev.seamSend_out (d : Dev) (l vl : Nat) (f : Flit) : (d.seamSend l vl f).out = d.out := by
  have e := congrArg Dev.out (Dev.seamPump_exceptSeams
    (d.setSeam (wingSite (l / 64)) { d.seam (wingSite (l / 64)) with queue := (d.seam (wingSite (l / 64))).queue ++ [(vl, f)] }) (wingSite (l / 64)))
  exact e

theorem Dev.emitNumbered_sends (d : Dev) (l ty vl rest : Nat) (stomp : Bool) (c : EvCtx) : d.Sends l (d.emitNumbered l ty vl rest stomp c) := by
  unfold Dev.emitNumbered
  extract_lets x v f d1
  have hlogs : ((d1.seamSend l vl f).emitOut (.flit l f)).Logs
      ((((d1.seamSend l vl f).emitOut (.flit l f)).countPort l C.TX_FLIT).countEv (16 + l) 3 1 c) :=
    ((Dev.Logs.refl _).count _ _ _).countEv _ _ _ _
  refine ⟨f, hlogs.out.trans ?_⟩
  show (d1.seamSend l vl f).out ++ _ = _
  rw [Dev.seamSend_out]
  rfl

theorem Dev.grants_soft (d : Dev) (l : Nat) : d.Soft (d.each (List.range 8) (fun d v => d.grant (lvKey l v))) :=
  (Dev.Soft.refl d).each _ fun _ _ _ hb => hb.grant _

/-- An idle flit leaves, sealed, and the count of flits since starts over. -/
theorem Dev.emitIdle_sends (d : Dev) (l : Nat) : ((d.emitIdle l).lane l).sinceIdle = 0
    ∧ ∃ g, (d.emitIdle l).out = d.out ++ [.flit l g] ∧ fcwType g = 0 ∧ crcGood g = true := by
  unfold Dev.emitIdle
  extract_lets d1
  have hout : d1.out = d.out := (d.grants_soft l).out
  have hlane : (d1.modLane l (fun x => { x with sinceIdle := 0 })).lane l = { d1.lane l with sinceIdle := 0 } :=
    (d1.lane_modLane l _ l).trans (if_pos rfl)
  refine ⟨congrArg Lane.sinceIdle hlane, d1.idleFlit l, ?_, idleFlit_good d1 l⟩
  show d1.out ++ _ = _
  rw [hout]

theorem Dev.emitIdle_sends_one (d : Dev) (l : Nat) : d.Sends l (d.emitIdle l) := by
  obtain ⟨-, g, hout, -⟩ := d.emitIdle_sends l
  exact ⟨g, hout⟩

theorem Dev.Sends.finishSend {l : Nat} {a d : Dev} (h : a.Sends l d) (p : Pkt) : a.Sends l (d.finishSend l p) := by
  obtain ⟨g, hg⟩ := h
  have hend : (d.modLane l (fun x => if p.vl = 7 then { x with txHigh := none } else { x with txLow := none })).Soft (d.finishSend l p) :=
    (Dev.Soft.refl _).endPkt _
  exact ⟨g, hend.out.trans hg⟩

theorem Dev.sendLinkLocal_sends (d : Dev) (l : Nat) : d.Sends l (d.sendLinkLocal l) := by
  unfold Dev.sendLinkLocal
  extract_lets x hb d1
  obtain ⟨g, hg⟩ := d.emitNumbered_sends l 1 0 (d.linkLocal l hb).headBytes false (d.linkLocal l hb).ctx
  have hlogs : d1.Logs ((d1.countPort l C.TX_PKT).countEv (16 + l) 2 1 (d1.linkLocal l hb).ctx) :=
    ((Dev.Logs.refl _).count _ _ _).countEv _ _ _ _
  exact ⟨g, hlogs.out.trans hg⟩

/-! ## The next flit of an open packet (R39, R106, R274) -/

/-- A packet with the same name, and with as many flits come and sent. -/
structure Pkt.Alike (p q : Pkt) : Prop where
  id : q.id = p.id
  sent : q.sent = p.sent
  body : q.body.length = p.body.length

theorem length_splitBody (n : Nat) (bs : List Byte) : (splitBody n bs).length = n := by
  induction n generalizing bs with
  | zero => rfl
  | succ n ih => exact congrArg (· + 1) (ih _)

theorem Pkt.Alike.setBytes {p q : Pkt} (h : p.Alike q) (off : Nat) (bs : List Byte) : p.Alike (q.setBytes off bs) :=
  ⟨h.id, h.sent, (length_splitBody _ _).trans h.body⟩

theorem Dev.correct_alike (d : Dev) (p : Pkt) : p.Alike (d.correct p) := by
  have hself : p.Alike p := ⟨rfl, rfl, rfl⟩
  unfold Dev.correct
  split
  · exact ⟨rfl, rfl, rfl⟩
  · next a _ =>
    extract_lets old new q r
    have hq : p.Alike q := hself.setBytes _ _
    have hr : p.Alike r := by
      show p.Alike (match a.udp with | none => q | some u => _)
      split
      · exact hq
      · exact hq.setBytes _ _
    exact ⟨hr.id, hr.sent, hr.body⟩

/-- A packet read after a change of it by its name. -/
theorem Dev.pkt_modPkt_named {d : Dev} {i : Nat} {p : Pkt} (h : d.pkt i = some p) {f : Pkt → Pkt} (hf : ∀ q, q.id = i → (f q).id = i) :
    (d.modPkt i f).pkt i = some (f p) := by
  have hid := Dev.id_of_pkt h
  unfold Dev.pkt Dev.modPkt at *
  have hpred : ((fun p : Pkt => p.id == i) ∘ fun p => if p.id = i then f p else p) = fun p => p.id == i := by
    funext q
    simp only [Function.comp]
    split
    · next e => simp [hf q e, e]
    · rfl
  rw [List.find?_map, hpred, h, Option.map_some, if_pos hid]

/-- A correction of a packet sends nothing, and leaves it as many flits. -/
theorem Dev.ptpRewrite_spec {d : Dev} {p q : Pkt} (h : d.pkt p.id = some q) (ha : p.Alike q) :
    (d.ptpRewrite p).out = d.out ∧ ∃ r, (d.ptpRewrite p).pkt p.id = some r ∧ p.Alike r := by
  have hdone : (d.modPkt p.id (fun p => { p with ptpDone := true })).pkt p.id = some { q with ptpDone := true } :=
    Dev.pkt_modPkt_named h fun _ e => e
  have hcorrect : (d.modPkt p.id (fun _ => d.correct p)).pkt p.id = some (d.correct p) :=
    Dev.pkt_modPkt_named h fun _ _ => (d.correct_alike p).id
  have hlogs : (d.modPkt p.id (fun _ => d.correct p)).Logs ((d.modPkt p.id (fun _ => d.correct p)).countTmu C.PTP_CORRECTED) :=
    (Dev.Logs.refl _).count _ _ _
  unfold Dev.ptpRewrite
  split
  · exact ⟨rfl, q, h, ha⟩
  · split
    · split
      · exact ⟨hlogs.out, d.correct p, (Dev.pkt_congr (congrArg Net.pkts hlogs.net) p.id).trans hcorrect, d.correct_alike p⟩
      · exact ⟨rfl, _, hdone, ha.id, ha.sent, ha.body⟩
    · exact ⟨rfl, _, hdone, ha.id, ha.sent, ha.body⟩

/-- The next flit of an open packet whose head has left leaves once it has come. -/
theorem Dev.sendNext_sends {d : Dev} {p : Pkt} (l : Nat) (h : d.pkt p.id = some p) (hs : 1 ≤ p.sent) (hn : p.nextHere = true) :
    d.Sends l (d.sendNext l p) := by
  unfold Dev.sendNext
  split
  · exact (d.emitNumbered_sends _ _ _ _ _ _).finishSend p
  · next hbad =>
    split
    · next c _ =>
      have hout : (d.countTmu c).out = d.out := ((Dev.Logs.refl d).count _ _ _).out
      exact (((d.countTmu c).emitNumbered_sends _ _ _ _ _ _).finishSend p).of_out hout
    · have hstep : (if p.opc = 0x01 then d.ptpRewrite p else d).out = d.out
          ∧ ∃ q, (if p.opc = 0x01 then d.ptpRewrite p else d).pkt p.id = some q ∧ p.Alike q := by
        split
        · exact Dev.ptpRewrite_spec h ⟨rfl, rfl, rfl⟩
        · exact ⟨rfl, p, h, rfl, rfl, rfl⟩
      generalize (if p.opc = 0x01 then d.ptpRewrite p else d) = d1 at hstep ⊢
      obtain ⟨hout, q, hq, ha⟩ := hstep
      have hlt : q.sent - 1 < q.body.length := by
        have hcome : p.sent ≤ p.body.length := by
          simp only [Pkt.nextHere, hbad, Bool.false_or, Bool.and_eq_true, decide_eq_true_eq] at hn
          exact hn.1
        rw [ha.sent, ha.body]
        omega
      refine Dev.Sends.of_out ?_ hout
      simp only [hq, List.getElem?_eq_getElem hlt]
      split
      · exact (d1.emitNumbered_sends _ _ _ _ _ _).finishSend q
      · exact (d1.emitNumbered_sends _ _ _ _ _ _).soft (((Dev.Soft.refl _).modPkt _ _).trimBuf _)

/-! ## A packet opens (R100, R105, R120, R220, R270, R275) -/

/-- Nothing leaves the device, and a name still has its packet. -/
structure Dev.Holds (i : Nat) (d d' : Dev) : Prop where
  out : d'.out = d.out
  pkt : (d.pkt i).isSome = true → (d'.pkt i).isSome = true

namespace Dev.Holds
variable {i : Nat} {a d d' : Dev}

theorem refl (d : Dev) : d.Holds i d := ⟨rfl, id⟩

theorem of_pkts (h : a.Holds i d) (ho : d'.out = d.out) (hp : d'.net.pkts = d.net.pkts) : a.Holds i d' :=
  ⟨ho.trans h.out, fun hi => by rw [Dev.pkt_congr hp]; exact h.pkt hi⟩

theorem logs (h : a.Holds i d) (hl : d.Logs d') : a.Holds i d' := h.of_pkts hl.out (congrArg Net.pkts hl.net)

theorem count (h : a.Holds i d) (k c n : Nat) : a.Holds i (d.count k c n) := h.logs ((Dev.Logs.refl d).count _ _ _)
theorem countEv (h : a.Holds i d) (k e n : Nat) (x : EvCtx) : a.Holds i (d.countEv k e n x) := h.logs ((Dev.Logs.refl d).countEv _ _ _ _)
theorem modLv (h : a.Holds i d) (k : Nat) (f : LaneVl → LaneVl) : a.Holds i (d.modLv k f) := h.of_pkts rfl rfl
theorem modPort (h : a.Holds i d) (l : Nat) (f : Port → Port) : a.Holds i (d.modPort l f) := h.of_pkts rfl rfl

theorem modPkt (h : a.Holds i d) {f : Pkt → Pkt} (hf : ∀ q, q.id = i → (f q).id = i) : a.Holds i (d.modPkt i f) := by
  refine ⟨h.out, fun hi => ?_⟩
  obtain ⟨p, hp⟩ := Option.isSome_iff_exists.1 (h.pkt hi)
  rw [Dev.pkt_modPkt_named hp hf]
  rfl

theorem bCharge (h : a.Holds i d) (l : Nat) (b : BucketId) (n : Nat) : a.Holds i (d.bCharge l b n) := by
  unfold Dev.bCharge
  split
  · exact h
  · exact h.modPort _ _

theorem chargePick (h : a.Holds i d) (l : Nat) (k : Pick) : a.Holds i (d.chargePick l k) := by
  unfold Dev.chargePick
  extract_lets n d1
  have h1 : a.Holds i d1 := by
    show a.Holds i (match k.q with | none => d | some q => _)
    split
    · exact h
    · dsimp only
      split
      · exact ((h.bCharge _ _ _).bCharge _ _ _).bCharge _ _ _
      · exact (h.bCharge _ _ _).bCharge _ _ _
  split
  · exact h1
  · exact h1.modPort _ _

theorem xferDone (h : a.Holds i d) (p : Pkt) : a.Holds i (d.xferDone p) := by
  unfold Dev.xferDone
  split
  · exact h.count _ _ _
  · dsimp only
    split
    · exact h.of_pkts rfl rfl
    · exact h.of_pkts rfl rfl

theorem headLeaves (h : a.Holds i d) (l : Nat) {k : Pick} (hk : k.p.id = i) : a.Holds i (d.headLeaves l k) := by
  unfold Dev.headLeaves
  extract_lets p det d1 d2 d3 d4 tmu d5
  have h1 : a.Holds i d1 := h.modLv _ _
  have h2 : a.Holds i d2 := by
    show a.Holds i (if _ then _ else _)
    split
    · exact h1.modPort _ _
    · exact h1
  have h3 : a.Holds i d3 := by
    show a.Holds i (if _ then _ else _)
    split
    · exact h2.xferDone _
    · exact h2
  have h4 : a.Holds i d4 := by
    subst hk
    exact h3.modPkt fun _ e => e
  have h5 : a.Holds i d5 := by
    show a.Holds i (if _ then _ else _)
    split
    · exact h4.of_pkts rfl rfl
    · exact h4
  exact ((h5.chargePick _ _).count _ _ _).countEv _ _ _ _

theorem ptpKnownRewrite (h : a.Holds i d) : a.Holds i (d.ptpKnownRewrite i) := by
  unfold Dev.ptpKnownRewrite
  split
  · exact h
  · next p hp =>
    split
    · obtain rfl := Dev.id_of_pkt hp
      obtain ⟨hout, q, hq, -⟩ := Dev.ptpRewrite_spec hp ⟨rfl, rfl, rfl⟩
      exact ⟨hout.trans h.out, fun _ => by rw [hq]; rfl⟩
    · exact h

end Dev.Holds

theorem Dev.sendHead_sends (d : Dev) (l : Nat) (p : Pkt) : d.Sends l (d.sendHead l p) := by
  obtain ⟨g, hg⟩ := d.emitNumbered_sends l 1 p.vl p.headBytes (p.bad && p.len == 0) p.ctx
  have hopen : d.Sends l ((d.emitNumbered l 1 p.vl p.headBytes (p.bad && p.len == 0) p.ctx).setOpen l p) := ⟨g, hg⟩
  unfold Dev.sendHead
  dsimp only
  split
  · exact hopen.finishSend p
  · exact hopen.soft ((Dev.Soft.refl _).trimBuf _)

theorem Dev.isSome_pkt_of_mem {d : Dev} {p : Pkt} (h : p ∈ d.net.pkts) : (d.pkt p.id).isSome = true :=
  List.find?_isSome.2 ⟨p, h, beq_self_eq_true _⟩

/-- The head of a packet of the device leaves when it opens. -/
theorem Dev.openPkt_sends {d : Dev} {k : Pick} (l : Nat) (h : k.p ∈ d.net.pkts) : d.Sends l (d.openPkt l k) := by
  have hkeeps : d.Holds k.p.id ((d.headLeaves l k).ptpKnownRewrite k.p.id) := ((Dev.Holds.refl d).headLeaves l rfl).ptpKnownRewrite
  obtain ⟨p, hp⟩ := Option.isSome_iff_exists.1 (hkeeps.pkt (Dev.isSome_pkt_of_mem h))
  unfold Dev.openPkt
  dsimp only
  rw [hp, Dev.whenSome_some]
  exact (Dev.sendHead_sends _ l p).of_out hkeeps.out

/-! ## One flit boundary (R31, R120, R253, R255) -/

/-- The packet open on a half of a lane has sent its head. -/
def Dev.Headed (d : Dev) (l : Nat) : Prop :=
  ∀ i p, (d.lane l).txLow = some i ∨ (d.lane l).txHigh = some i → d.pkt i = some p → 1 ≤ p.sent

theorem Dev.boundary_idle {d : Dev} {l : Nat} (h : 255 ≤ (d.lane l).sinceIdle ∨ d.seamState (wingSite (l / 64)) = 3) :
    d.boundary l = d.emitIdle l := if_pos h

theorem Dev.boundary_resend {d : Dev} {l : Nat} (h : ¬ (255 ≤ (d.lane l).sinceIdle ∨ d.seamState (wingSite (l / 64)) = 3))
    {f : Flit} {fs : List Flit} (hr : (d.lane l).resend = f :: fs) :
    d.boundary l = (d.setLane l { d.lane l with resend := fs, sinceIdle := (d.lane l).sinceIdle + 1 }).emitOut (.flit l f) := by
  unfold Dev.boundary
  dsimp only
  rw [if_neg h, hr]

/-- A boundary sends the next flit of a packet of a name. -/
theorem Dev.sendNext_sends_named {d : Dev} {l i : Nat} {p : Pkt} (h : d.Headed l) (hi : (d.lane l).txLow = some i ∨ (d.lane l).txHigh = some i)
    (hp : d.pkt i = some p) (hn : p.nextHere = true) : d.Sends l (d.sendNext l p) := by
  have hs := h i p hi hp
  obtain rfl := Dev.id_of_pkt hp
  exact Dev.sendNext_sends l hp hs hn

/-- What the scheduler picks opens, and where it picks nothing an idle flit leaves. -/
theorem Dev.nextPacket_sends (d : Dev) (l : Nat) :
    d.Sends l (match d.nextPacket l with | (some k, d) => d.openPkt l k | (none, d) => d.emitIdle l) := by
  obtain ⟨hmem, hpkts, hout⟩ := d.nextPacket_spec l
  split
  · next k d' e =>
    rw [e] at hmem hpkts hout
    exact (Dev.openPkt_sends l (hpkts ▸ hmem k rfl)).of_out hout
  · next d' e =>
    rw [e] at hout
    exact (d'.emitIdle_sends_one l).of_out hout

/-- Each branch of a boundary sends one flit. -/
theorem Dev.boundary_sends {d : Dev} {l : Nat} (h : d.Headed l) : d.Sends l (d.boundary l) := by
  have hidle := d.emitIdle_sends_one l
  unfold Dev.boundary
  extract_lets x high low sendLow
  have hlow : d.Sends l (sendLow d) := by
    unfold sendLow
    cases hl : low with
    | some p =>
      obtain ⟨i, hi, hp⟩ := Option.bind_eq_some_iff.1 hl
      dsimp only
      split
      · next hn => exact Dev.sendNext_sends_named h (.inl hi) hp hn
      · exact hidle
    | none =>
      dsimp only
      split
      · exact d.sendLinkLocal_sends l
      · split
        · exact d.nextPacket_sends l
        · exact hidle
  split
  · exact hidle
  · split
    · exact ⟨_, rfl⟩
    · split
      · exact hidle
      · cases hh : high with
        | some p =>
          obtain ⟨i, hi, hp⟩ := Option.bind_eq_some_iff.1 hh
          dsimp only
          split
          · next hn => exact Dev.sendNext_sends_named h (.inr hi) hp hn
          · exact hlow
        | none =>
          dsimp only
          split
          · next k hk =>
            split at hk
            · exact Dev.openPkt_sends l (Dev.mem_of_timedReady hk)
            · cases hk
          · exact hlow

end Sys2Proof.Machine
end

section
/-! TRANSMIT_FLIT: a boundary with the purge before it, and routing and PFC after it (R98, R120, R274). -/

namespace Sys2Proof.Machine
open Sys2Proof.Claims

/-! ## PFC (R98) -/

/-- Only XOFF and XON of border ports have left, and a lane's count of flits and what it sends again stay. -/
structure Dev.Paused (l : Nat) (d d' : Dev) : Prop where
  out : ∃ os, d'.out = d.out ++ os ∧ ∀ o ∈ os, ∃ port pri off, o = .pfc port pri off
  sinceIdle : (d'.lane l).sinceIdle = (d.lane l).sinceIdle
  resend : (d'.lane l).resend = (d.lane l).resend

namespace Dev.Paused
variable {l : Nat} {a d : Dev}

theorem refl (d : Dev) : d.Paused l d := ⟨⟨[], (List.append_nil _).symm, List.forall_mem_nil _⟩, rfl, rfl⟩

/-- A priority of a port is paused, or goes on. -/
theorem pause (h : a.Paused l d) (port pri v : Nat) (off : Bool) :
    a.Paused l ((d.modLane port (fun x => { x with xoff := setBits x.xoff pri pri v })).emitOut (.pfc port pri off)) := by
  obtain ⟨⟨os, hos, hpfc⟩, hidle, hresend⟩ := h
  set d1 := d.modLane port (fun x => { x with xoff := setBits x.xoff pri pri v })
  have hlane : (d1.lane l).sinceIdle = (d.lane l).sinceIdle ∧ (d1.lane l).resend = (d.lane l).resend := by
    rw [Dev.lane_modLane]
    split
    · next e => subst e; exact ⟨rfl, rfl⟩
    · exact ⟨rfl, rfl⟩
  refine ⟨⟨os ++ [.pfc port pri off], ?_, fun o ho => ?_⟩, hlane.1.trans hidle, hlane.2.trans hresend⟩
  · show d.out ++ _ = _
    rw [hos, List.append_assoc]
  · obtain ho | ho := List.mem_append.1 ho
    · exact hpfc o ho
    · exact ⟨port, pri, off, List.mem_singleton.1 ho⟩

theorem each {α : Type} {f : Dev → α → Dev} (h : a.Paused l d) (xs : List α) (hf : ∀ d x, a.Paused l d → a.Paused l (f d x)) :
    a.Paused l (d.each xs f) := by
  induction xs generalizing d with
  | nil => exact h
  | cons x xs ih => exact ih (hf d x h)

theorem pfcPort (h : a.Paused l d) (port : Nat) : a.Paused l (d.pfcPort port) := by
  unfold Dev.pfcPort
  split
  · refine h.each _ fun d pri h => ?_
    dsimp only
    split
    · exact h.pause _ _ _ _
    · split
      · exact h.pause _ _ _ _
      · exact h
  · exact h

theorem pfcAll (d : Dev) : d.Paused l d.pfcAll := (refl d).each _ fun _ _ h => h.pfcPort _

end Dev.Paused

/-! ## TRANSMIT_FLIT -/

theorem Dev.Soft.sinceIdle {d d' : Dev} (h : d.Soft d') (l : Nat) : (d'.lane l).sinceIdle = (d.lane l).sinceIdle := by
  have e := congrArg Lane.sinceIdle (h.lane l); exact e
theorem Dev.Soft.resend {d d' : Dev} (h : d.Soft d') (l : Nat) : (d'.lane l).resend = (d.lane l).resend := by
  have e := congrArg Lane.resend (h.lane l); exact e

/-- The purge leaves the packets open on a lane as they are. -/
theorem Dev.Headed.ptpPurge {d : Dev} {l : Nat} (h : d.Headed l) : (d.ptpPurge l).Headed l := by
  intro i p hi hp
  have hlane := (d.ptpPurge_soft l).lane l
  have hlow : ((d.ptpPurge l).lane l).txLow = (d.lane l).txLow := by have e := congrArg Lane.txLow hlane; exact e
  have hhigh : ((d.ptpPurge l).lane l).txHigh = (d.lane l).txHigh := by have e := congrArg Lane.txHigh hlane; exact e
  rw [hlow, hhigh] at hi
  have hopen : d.isOpen l i = true := by simpa [Dev.isOpen] using hi
  exact h i p hi ((Dev.pkt_ptpPurge hopen).symm.trans hp)

/-- What has left a device, and where a lane stands, once a boundary has been and what it freed has been routed. -/
theorem Dev.boundary_then {d : Dev} {l : Nat} :
    ∃ os, (d.boundary l).settle.pfcAll.out = (d.boundary l).out ++ os ∧ (∀ o ∈ os, ∃ port pri off, o = .pfc port pri off)
      ∧ ((d.boundary l).settle.pfcAll.lane l).sinceIdle = ((d.boundary l).lane l).sinceIdle
      ∧ ((d.boundary l).settle.pfcAll.lane l).resend = ((d.boundary l).lane l).resend := by
  have hsettle := (Dev.Soft.refl (d.boundary l)).settle
  obtain ⟨⟨os, hos, hpfc⟩, hidle, hresend⟩ := Dev.Paused.pfcAll (l := l) (d.boundary l).settle
  exact ⟨os, hsettle.out ▸ hos, hpfc, hidle.trans (hsettle.sinceIdle l), hresend.trans (hsettle.resend l)⟩

section
variable {s : State} {lane : Nat} (h : LinkTakes s lane) (hm : (s.d.lane lane).muted = false)
include h hm

theorem exec_transmitFlit : exec (.transmitFlit lane) s =
    .next { s with d := ((s.d.ptpPurge lane).boundary lane).settle.pfcAll } := by
  have hborder : s.d.ltype lane ≠ 2 := by have := h.native; omega
  show execTransmitFlit lane s = _
  simp only [execTransmitFlit, h.present, hborder, linkRuns_of_takes h, hm, if_false, decide_true, Bool.not_false, Bool.and_self,
    ifUnit_true, onDev_eq, Dev.when_true]

/-- One flit leaves, an idle one where it is due, else the next of those that are sent again. -/
theorem transmitFlit_sends (hh : s.d.Headed lane) : Completes (.transmitFlit lane) s (fun t => Rest s t ∧ ∃ g l,
    t.d.out = s.d.out ++ .flit lane g :: l ∧ (∀ x ∈ l, ∃ port pri off, x = .pfc port pri off)
    ∧ (255 ≤ (s.d.lane lane).sinceIdle ∨ s.d.seamState (wingSite (lane / 64)) = 3 →
        fcwType g = 0 ∧ crcGood g = true ∧ (t.d.lane lane).sinceIdle = 0)
    ∧ (∀ h r, ¬ (255 ≤ (s.d.lane lane).sinceIdle ∨ s.d.seamState (wingSite (lane / 64)) = 3) → (s.d.lane lane).resend = h :: r →
        g = h ∧ (t.d.lane lane).resend = r)) := by
  set d := s.d.ptpPurge lane
  have hpurge : s.d.Soft d := s.d.ptpPurge_soft lane
  have hseam : d.seamState (wingSite (lane / 64)) = s.d.seamState (wingSite (lane / 64)) := hpurge.fld _ _ rfl
  obtain ⟨os, hos, hpfc, hidle, hresend⟩ := Dev.boundary_then (d := d) (l := lane)
  refine ⟨_, exec_transmitFlit h hm, ⟨rfl, rfl⟩, ?_⟩
  rw [← hpurge.out, ← hpurge.sinceIdle, ← hpurge.resend, ← hseam]
  show ∃ g l, (d.boundary lane).settle.pfcAll.out = _ ∧ _ ∧ (_ → _ ∧ _ ∧ ((d.boundary lane).settle.pfcAll.lane lane).sinceIdle = 0)
    ∧ ∀ h r, _ → _ → _ ∧ ((d.boundary lane).settle.pfcAll.lane lane).resend = r
  rw [hos, hidle, hresend]
  by_cases hdue : 255 ≤ (d.lane lane).sinceIdle ∨ d.seamState (wingSite (lane / 64)) = 3
  · obtain ⟨hzero, g, hout, htype, hgood⟩ := d.emitIdle_sends lane
    rw [Dev.boundary_idle hdue, hout]
    exact ⟨g, os, List.append_assoc _ _ _, hpfc, fun _ => ⟨htype, hgood, hzero⟩, fun _ _ hno _ => absurd hdue hno⟩
  · cases hr : (d.lane lane).resend with
    | nil =>
      obtain ⟨g, hout⟩ := Dev.boundary_sends hh.ptpPurge
      exact ⟨g, os, by rw [hout]; exact List.append_assoc _ _ _, hpfc, fun hno => absurd hno hdue, fun _ _ _ e => nomatch e⟩
    | cons f fs =>
      rw [Dev.boundary_resend hdue hr]
      refine ⟨f, os, List.append_assoc _ _ _, hpfc, fun hno => absurd hno hdue, fun h r _ e => ?_⟩
      obtain ⟨rfl, rfl⟩ := List.cons.inj e
      exact ⟨rfl, congrArg Lane.resend ((d.lane_setLane lane _ lane).trans (if_pos rfl))⟩

end

end Sys2Proof.Machine
end

section
/-! The flits of a lane: the clauses of FlitCommands put together. -/

namespace Sys2Proof.Machine

section
variable (x : LaneVl) (n : Nat)

theorem LaneVl.credit_normal : x.credit false = (x.nGrant + 2 ^ 24 - x.nRx) % 2 ^ 24 := if_neg Bool.false_ne_true
theorem LaneVl.credit_detour : x.credit true = (x.dGrant + 2 ^ 24 - x.dRx) % 2 ^ 24 := if_pos rfl
theorem LaneVl.nRx_charged : (x.charged false n).nRx = (x.nRx + n) % 2 ^ 24 := by
  unfold LaneVl.charged
  rw [if_neg Bool.false_ne_true]
theorem LaneVl.dRx_charged : (x.charged true n).dRx = (x.dRx + n) % 2 ^ 24 := by
  unfold LaneVl.charged
  rw [if_pos rfl]

end

end Sys2Proof.Machine

namespace Sys2Proof.Claims
open Sys2Proof.Machine

/-- The half of a link that a body flit's VL uses, as the statement writes it. -/
theorem receives_of_half {x : Lane} {v i : Nat}
    (hrx : if v = 7 then x.rxHigh = some i ∧ x.dropHigh = false
      else x.rxLow = some i ∧ x.dropLow = false) : x.Receives v i := by
  unfold Lane.Receives Lane.rxOpen
  split at hrx
  · next e => simpa [e] using hrx
  · next e => simpa [e] using hrx

/-- Settles O29: a head's clauses by what its lane has once it took the flit, a body's by the packet that awaits it, an idle flit's
by what steering lasers leaves alone, and a boundary's by the one flit that each of its branches sends. -/
theorem flitCommands : Obligations.FlitCommands := by
  intro s lane f h hcalm
  refine ⟨fun ht hg hr => ?_, fun ht hg hr hrx hlen => ?_, fun ht hg hr hrx hlen => ?_, fun i p ht hg hrx hp hplace hvl hlen => ?_,
    fun ht hc hr => ?_, fun hm hsent => ?_⟩
  · have hnormal (hdet : ¬ OnDetour s lane f) : (s.d.headTaken lane f).onDetour lane (fcwVl f) (headDetour f) = false :=
      Bool.eq_false_iff.2 fun e => hdet ((onDetour_iff s lane f).1 e)
    refine ⟨fun hdet hcredit => ?_, fun hdet hcredit => ?_, fun hdet hcredit hup => ?_⟩
    · rw [← LaneVl.credit_normal] at hcredit
      refine (headFlit_charged h ht hg hr (hnormal hdet) hcredit).mono fun t ⟨hrest, htook, hregs, hpair⟩ => ?_
      exact ⟨hrest, htook, hregs, (congrArg Prod.fst hpair).trans (LaneVl.nRx_charged _ _)⟩
    · rw [← LaneVl.credit_detour] at hcredit
      refine (headFlit_charged h ht hg hr ((onDetour_iff s lane f).2 hdet) hcredit).mono fun t ⟨hrest, htook, hregs, hpair⟩ => ?_
      exact ⟨hrest, htook, hregs, (congrArg Prod.snd hpair).trans (LaneVl.dRx_charged _ _)⟩
    · rw [← LaneVl.credit_normal] at hcredit
      exact headFlit_overrun h ht hg hr (hnormal hdet) hcredit hup
  · exact headFlit_linkLocal_long h hcalm ht hg hr hrx hlen
  · exact headFlit_linkLocal_taken h hcalm ht hg hr hrx hlen
  · have hw : p.Awaits (fcwVl f) (fcwType f == 3) := ⟨hplace, hvl, hlen.trans beq_iff_eq.symm⟩
    exact bodyFlit_joins h hcalm ht hg (receives_of_half hrx) hp hw
  · refine (idleFlit_gives h hcalm ht hc hr).mono fun t ⟨hrest, hserving, htotals, hmargin, hack⟩ => ?_
    exact ⟨hrest, hserving, fun v hv => (htotals v hv).1, fun v h1 h6 => (htotals v (by omega)).2 h1 h6, hmargin, hack⟩
  · refine (transmitFlit_sends h hm hsent).mono fun t ⟨hrest, g, l, hout, hpfc, hidle, hresend⟩ => ?_
    exact ⟨hrest, g, l, hout, hpfc, hidle, fun x r hcount hseam hr => hresend x r (fun hdue => hdue.elim (by omega) hseam) hr⟩

end Sys2Proof.Claims
end

section
/-! The MAC table of border Ethernet (R88, R96): what an exact-match entry's fields read once written, what a pass that unlearns
entries leaves, and the commands that age and flush the table. -/

namespace Sys2Proof.Machine
open Sys2Proof.Claims

/-! ## Fields of an entry -/

section
variable (e : BitVec 512) {n hi lo : Nat} (v : Nat)

theorem dataOf_setData (hn : n ≤ 7) (hl : lo ≤ hi) (hh : hi < 64) : dataOf (setData e n hi lo v) n hi lo = v % 2 ^ (hi - lo + 1) := by
  unfold dataOf setData
  rw [bitsOf_setBits _ _ _ _ (by omega) (by omega), show 448 - 64 * n + hi - (448 - 64 * n + lo) = hi - lo by omega]

/-- A field of another word, or one that does not overlap, keeps its value. -/
theorem dataOf_setData_of_disjoint {n' hi' lo' : Nat} (hl : lo ≤ hi) (hl' : lo' ≤ hi')
    (h : 448 - 64 * n' + hi' < 448 - 64 * n + lo ∨ 448 - 64 * n + hi < 448 - 64 * n' + lo') :
    dataOf (setData e n hi lo v) n' hi' lo' = dataOf e n' hi' lo' :=
  bitsOf_setBits_of_disjoint _ _ _ _ _ _ (by omega) (by omega) h

end

/-- An entry that has aged once keeps its key. -/
theorem exAge_aged (e : BitVec 512) : exAge (setData e 3 7 0 1) = 1 := dataOf_setData e 1 (by omega) (by omega) (by omega)

theorem exKeyOf_aged (e : BitVec 512) : exKeyOf (setData e 3 7 0 1) = exKeyOf e := by
  unfold exKeyOf
  rw [dataOf_setData_of_disjoint e 1 (by omega) (by omega) (by omega), dataOf_setData_of_disjoint e 1 (by omega) (by omega) (by omega)]

/-- A learned entry has the key and the lane that it is made for, is local, and is not static. -/
theorem learnedEntry_fields {key l : Nat} (hk : key < 2 ^ 72) (hl : l < 1024) : exKeyOf (learnedEntry key l) = key
    ∧ exLane (learnedEntry key l) = l ∧ exKind (learnedEntry key l) = 0 ∧ exStatic (learnedEntry key l) = false := by
  have hzero : ∀ n hi lo, dataOf 0 n hi lo = 0 := fun n hi lo => by
    apply Nat.eq_of_testBit_eq
    intro i
    rw [dataOf, testBit_bitsOf]
    simp
  refine ⟨?_, ?_, ?_, ?_⟩
  · unfold exKeyOf learnedEntry
    rw [dataOf_setData_of_disjoint _ _ (by omega) (by omega) (by omega), dataOf_setData_of_disjoint _ _ (by omega) (by omega) (by omega),
      dataOf_setData _ _ (by omega) (by omega) (by omega), dataOf_setData_of_disjoint _ _ (by omega) (by omega) (by omega),
      dataOf_setData _ _ (by omega) (by omega) (by omega)]
    omega
  · unfold exLane learnedEntry
    rw [dataOf_setData _ _ (by omega) (by omega) (by omega)]
    omega
  · unfold exKind learnedEntry
    rw [dataOf_setData_of_disjoint _ _ (by omega) (by omega) (by omega), dataOf_setData_of_disjoint _ _ (by omega) (by omega) (by omega),
      dataOf_setData_of_disjoint _ _ (by omega) (by omega) (by omega), hzero]
  · unfold exStatic learnedEntry
    rw [dataOf_setData_of_disjoint _ _ (by omega) (by omega) (by omega), dataOf_setData_of_disjoint _ _ (by omega) (by omega) (by omega),
      dataOf_setData_of_disjoint _ _ (by omega) (by omega) (by omega), hzero]
    rfl

theorem exKey_lt (dom vid mac : Nat) : exKey dom vid mac < 2 ^ 72 := by unfold exKey; omega

/-! ## Entries of a table -/

theorem NMap.find_of_mem {α : Type} {k : Nat} {v : α} : ∀ {m : NMap α}, m.sorted = true → (k, v) ∈ m → m.find k = some v
  | [], _, h => absurd h List.not_mem_nil
  | (j, w) :: m, hs, h => by
    obtain ⟨habove, hm⟩ := (NMap.sorted_cons j w m).1 hs
    have hlater : ∀ {m : NMap α}, m.above j → (k, v) ∈ m → k ≠ j := by
      intro m
      induction m with
      | nil => exact fun _ hx => absurd hx List.not_mem_nil
      | cons c m ih =>
        intro hab hx
        rcases List.mem_cons.1 hx with rfl | hx
        · exact Nat.ne_of_gt hab.1
        · exact ih hab.2 hx
    unfold NMap.find
    rcases List.mem_cons.1 h with e | h
    · obtain ⟨rfl, rfl⟩ := Prod.mk.inj e
      exact if_pos rfl
    · rw [if_neg (hlater habove h)]
      exact NMap.find_of_mem hm h

/-- In a sorted table what is listed is what stands at its index. -/
theorem Dev.ent_of_mem_entries {d : Dev} (hs : NMap.sorted d.tab.ent = true) {t : Nat} {x : Nat × BitVec 512} (h : x ∈ d.entries t) :
    d.ent t x.1 = some x.2 := by
  obtain ⟨y, hy, hx⟩ := List.mem_filterMap.1 h
  split at hx
  · next ht =>
    obtain rfl := Option.some.inj hx
    have hkey : tblKey t (y.1 % 2 ^ 20) = y.1 := by unfold tblKey; omega
    show d.tab.ent.find (tblKey t (y.1 % 2 ^ 20)) = _
    rw [hkey]
    exact NMap.find_of_mem hs hy
  · cases hx

theorem tblKey_inj {t i j : Nat} : tblKey t i = tblKey t j ↔ i = j := by unfold tblKey; omega

theorem Dev.ent_dropEnt (d : Dev) (t i j : Nat) : (d.dropEnt t i).ent t j = if j = i then none else d.ent t j := by
  unfold Dev.ent Dev.dropEnt
  rw [NMap.find_erase]
  simp only [tblKey_inj]

theorem Dev.ent_setEnt (d : Dev) (t i j : Nat) (e : BitVec 512) : (d.setEnt t i e).ent t j = if j = i then some e else d.ent t j := by
  unfold Dev.ent Dev.setEnt
  rw [NMap.find_put]
  simp only [tblKey_inj]

/-- A write of one entry shows in the tables and what they hold in Bolt memory alone. -/
theorem only_setEnt {s t : State} {i : Nat} {e : BitVec 512} (hp : t.pending = s.pending) (hm : t.mem = s.mem)
    (ht : t.d = s.d.setEnt 1 i e) : Only noTab s t (fun _ _ => False) :=
  ⟨⟨hp, hm⟩, by rw [ht]; rfl, fun r j _ _ => by rw [ht]; exact Dev.rd_of_regs rfl rfl r j⟩

/-! ## Entries that are unlearned -/

/-- A learned entry leaves the table, and its port's count (R96). -/
def Dev.unlearnDrop (d : Dev) (i : Nat) : Dev := (d.unlearn i).dropEnt 1 i

theorem Dev.ent_unlearnDrop (d : Dev) (i j : Nat) : (d.unlearnDrop i).ent 1 j = if j = i then none else d.ent 1 j := by
  unfold Dev.unlearnDrop
  rw [Dev.ent_dropEnt, Dev.ent_of_tab (d.tab_unlearn i)]

/-- A pass over the entries of one port: those are gone, and nothing but the tables and that port's count has changed. -/
structure Dev.Unlearns (port : Nat) (gone : List Nat) (d d' : Dev) : Prop where
  still : noTab d'.still = noTab d.still
  regs : ∀ r j, ¬ (r = .PRT_LEARN ∧ j = port) → d'.rd r j = d.rd r j
  ent : ∀ j, d'.ent 1 j = if j ∈ gone then none else d.ent 1 j

theorem Dev.unlearns_unlearnDrop {d : Dev} {port i : Nat} (h : ∀ e, d.ent 1 i = some e → exLane e = port) :
    d.Unlearns port [i] (d.unlearnDrop i) where
  still := by
    unfold Dev.unlearnDrop Dev.unlearn
    split
    · split
      · rfl
      · rfl
    · rfl
  regs r j hr := by
    have hdrop : (d.unlearnDrop i).rd r j = (d.unlearn i).rd r j := Dev.rd_of_regs rfl rfl r j
    rw [hdrop]
    unfold Dev.unlearn
    split
    · next e he =>
      split
      · rfl
      · exact Dev.rd_setFld_of_ne _ _ _ _ _ _ fun hj => hr ⟨hj.1, hj.2.trans (h e he)⟩
    · rfl
  ent j := by rw [Dev.ent_unlearnDrop]; simp

theorem Dev.unlearns_each {port : Nat} (l : List (Nat × BitVec 512)) : ∀ {d : Dev},
    (∀ x ∈ l, ∀ e, d.ent 1 x.1 = some e → exLane e = port) →
    d.Unlearns port (l.map (·.1)) (d.each l (fun d x => d.unlearnDrop x.1)) := by
  induction l with
  | nil => exact fun _ => ⟨rfl, fun _ _ _ => rfl, fun j => (if_neg List.not_mem_nil).symm⟩
  | cons x l ih =>
    intro d h
    obtain ⟨hstill, hregs, hent⟩ := Dev.unlearns_unlearnDrop (h x List.mem_cons_self)
    have hl : ∀ y ∈ l, ∀ e, (d.unlearnDrop x.1).ent 1 y.1 = some e → exLane e = port := by
      intro y hy e he
      rw [hent] at he
      split at he
      · cases he
      · exact h y (List.mem_cons_of_mem x hy) e he
    obtain ⟨kstill, kregs, kent⟩ := ih hl
    refine ⟨kstill.trans hstill, fun r j hr => (kregs r j hr).trans (hregs r j hr), fun j => (kent j).trans ?_⟩
    rw [hent]
    by_cases hj : j = x.1 <;> by_cases hl : j ∈ l.map (·.1) <;> simp [hj, hl]

/-! ## MAC_AGE_TICK and MAC_FLUSH (R82, R96) -/

theorem hwWrite_held {s : State} (h : s.d.tab.cmd ≠ none) (w : HwWrite) : hwWrite w (s.d, s.mem) = (s.d.holdBack w, s.mem) :=
  if_pos (Option.isSome_iff_ne_none.2 h)

theorem hwWrite_runs {s : State} (h : s.d.tab.cmd = none) (w : HwWrite) : hwWrite w (s.d, s.mem) = hwRun [] w (s.d, s.mem) := by
  unfold hwWrite
  rw [h]
  rfl

theorem macAgeTick_heldBack {s : State} (h : s.d.tab.cmd ≠ none) : HeldBack s .macAgeTick .age := by
  show onBoth s (hwWrite .age) = _
  rw [onBoth_eq, hwWrite_held h]
  rfl

section
variable {s : State} (h : s.d.tab.cmd = none)
include h

theorem exec_macAgeTick : exec .macAgeTick s = .next { s with d := s.d.ageTick [] } := by
  show onBoth s (hwWrite .age) = _
  rw [onBoth_eq, hwWrite_runs h]
  rfl

variable (hage : s.d.fld F.TBL_LEARN_CTL_AGE_TIME 0 ≠ 0)
include hage

/-- Static entries do not age. -/
theorem macAgeTick_static (hstatic : ∀ x ∈ s.d.entries 1, exStatic x.2 = true) : Completes .macAgeTick s (fun t => t = s) := by
  refine ⟨_, exec_macAgeTick h, ?_⟩
  have hnone : (s.d.entries 1).filter (fun x => !exStatic x.2 && !([] : List Nat).contains (tblKey 1 x.1)) = [] :=
    List.filter_eq_nil_iff.2 fun x hx => by simp [hstatic x hx]
  unfold Dev.ageTick
  rw [if_neg hage, hnone]
  rfl

variable {i : Nat} {e : BitVec 512} (hent : s.d.tab.ent = [(2 ^ 20 + i, e)]) (hi : i < 2 ^ 20) (hlearned : exStatic e = false)
include hent hi hlearned

/-- The one learned entry leaves the second time, and ages the first. -/
theorem exec_macAgeTick_one : exec .macAgeTick s = .next { s with
    d := if 1 ≤ exAge e then s.d.unlearnDrop i else s.d.setEnt 1 i (setData e 3 7 0 1) } := by
  have hentries : s.d.entries 1 = [(i, e)] := by
    unfold Dev.entries
    rw [hent]
    have hkey : (2 ^ 20 + i) / 2 ^ 20 = 1 ∧ (2 ^ 20 + i) % 2 ^ 20 = i := by omega
    simp only [List.filterMap_cons, if_pos hkey.1, hkey.2, List.filterMap_nil]
  rw [exec_macAgeTick h]
  unfold Dev.ageTick
  rw [if_neg hage, hentries]
  simp [hlearned, Dev.unlearnDrop]

theorem macAgeTick_ages (h0 : exAge e = 0) : Completes .macAgeTick s (fun t =>
    (∃ e', t.d.ent 1 i = some e' ∧ exAge e' = 1 ∧ exKeyOf e' = exKeyOf e) ∧ Only noTab s t (fun _ _ => False)) := by
  have hexec := exec_macAgeTick_one h hage hent hi hlearned
  rw [if_neg (by omega)] at hexec
  exact ⟨_, hexec, ⟨_, (s.d.ent_setEnt 1 i i _).trans (if_pos rfl), exAge_aged e, exKeyOf_aged e⟩, only_setEnt rfl rfl rfl⟩

theorem macAgeTick_drops (h1 : 1 ≤ exAge e) : Completes .macAgeTick s (fun t => t.d.ent 1 i = none
    ∧ t.d.fld F.PRT_LEARN_LEARNED (exLane e) = s.d.fld F.PRT_LEARN_LEARNED (exLane e) - 1
    ∧ Only noTab s t (fun r j => r = .PRT_LEARN ∧ j = exLane e)) := by
  have hexec := exec_macAgeTick_one h hage hent hi hlearned
  rw [if_pos h1] at hexec
  have hfound : s.d.ent 1 i = some e := by
    unfold Dev.ent tblKey
    rw [hent]
    simp [NMap.find]
  obtain ⟨hstill, hregs, hgone⟩ := Dev.unlearns_unlearnDrop (d := s.d) (port := exLane e) (i := i) (fun e' he => by
    rw [hfound] at he
    rw [Option.some.inj he])
  have hlt : s.d.fld F.PRT_LEARN_LEARNED (exLane e) < 2 ^ 20 := bitsOf_lt _ _ _
  refine ⟨_, hexec, (hgone i).trans (if_pos List.mem_cons_self), ?_, ⟨rfl, rfl⟩, hstill, fun r j _ hr => hregs r j hr⟩
  show (s.d.unlearnDrop i).fld F.PRT_LEARN_LEARNED (exLane e) = _
  unfold Dev.unlearnDrop Dev.unlearn
  rw [hfound]
  dsimp only
  rw [if_neg (by simp [hlearned])]
  refine (Dev.fld_of_regs rfl rfl _ _).trans ((Dev.fld_setFld_self _ _ _ _ (by decide) (by decide)).trans ?_)
  exact Nat.mod_eq_of_lt (by show _ < 2 ^ 20; omega)

end

section
variable {s : State} {port : Nat} (hport : port < s.d.nLanes)
include hport

/-- A border port that is UP, and has been since its entries were last flushed, keeps them. -/
theorem macFlush_up (hup : s.d.borderUp port = true) (hflush : port ∉ s.d.tab.flush) : Completes (.macFlush port) s (fun t => t = s) := by
  refine ⟨s, ?_, rfl⟩
  show execMacFlush port s = _
  simp [execMacFlush, hport, hup, hflush]

variable (hdue : s.d.borderUp port = false ∨ port ∈ s.d.tab.flush)
include hdue

theorem exec_macFlush : exec (.macFlush port) s = onBoth s (hwWrite (.flush port)) := by
  have hnot : ¬ (s.d.borderUp port = true ∧ (!s.d.tab.flush.contains port) = true) := by
    rcases hdue with h | h
    · simp [h]
    · simp [h]
  show execMacFlush port s = _
  unfold execMacFlush
  rw [decide_eq_true hport, ifUnit_true, onBoth_eq, onBoth_eq]
  dsimp only
  rw [if_neg hnot]

theorem macFlush_heldBack (hcmd : s.d.tab.cmd ≠ none) : HeldBack s (.macFlush port) (.flush port) := by
  unfold HeldBack
  rw [exec_macFlush hport hdue, onBoth_eq, hwWrite_held hcmd]
  rfl

theorem macFlush_completes (hcmd : s.d.tab.cmd = none) (hs : NMap.sorted s.d.tab.ent = true) :
    Completes (.macFlush port) s (fun t => port ∉ t.d.tab.flush ∧ Only noTab s t (fun r j => r = .PRT_LEARN ∧ j = port)
      ∧ ∀ i, i < 2 ^ 20 → ∀ e, s.d.ent 1 i = some e →
        (exStatic e = true ∨ exLane e ≠ port → t.d.ent 1 i = some e)
        ∧ (exStatic e = false → exLane e = port → t.d.ent 1 i = none)) := by
  set l := (s.d.entries 1).filter (fun x => !exStatic x.2 && exLane x.2 == port && !([] : List Nat).contains (tblKey 1 x.1)) with hl
  have hmem : ∀ x, x ∈ l ↔ x ∈ s.d.entries 1 ∧ exStatic x.2 = false ∧ exLane x.2 = port := fun x => by simp [hl]
  have hat : ∀ x ∈ l, s.d.ent 1 x.1 = some x.2 := fun x hx => Dev.ent_of_mem_entries hs ((hmem x).1 hx).1
  obtain ⟨hstill, hregs, hent⟩ := Dev.unlearns_each (port := port) l (d := s.d) fun x hx e he => by
    rw [hat x hx] at he
    rw [← Option.some.inj he]
    exact ((hmem x).1 hx).2.2
  have hexec : exec (.macFlush port) s = .next { s with d := s.d.flushPort port [] } := by
    rw [exec_macFlush hport hdue, onBoth_eq, hwWrite_runs hcmd]
    rfl
  refine ⟨_, hexec, ?_, ⟨⟨rfl, rfl⟩, hstill, fun r j _ hr => (Dev.rd_of_regs rfl rfl r j).trans (hregs r j hr)⟩, fun i hi e he => ?_⟩
  · show port ∉ List.filter _ _
    simp
  · have hentry : (s.d.flushPort port []).ent 1 i = if i ∈ l.map (·.1) then none else s.d.ent 1 i := hent i
    have hiff : i ∈ l.map (·.1) ↔ exStatic e = false ∧ exLane e = port := by
      constructor
      · intro hin
        obtain ⟨x, hx, rfl⟩ := List.mem_map.1 hin
        rw [hat x hx] at he
        obtain rfl := Option.some.inj he
        exact ((hmem x).1 hx).2
      · exact fun hboth => List.mem_map.2 ⟨(i, e), (hmem _).2 ⟨Dev.mem_entries hi he, hboth⟩, rfl⟩
    refine ⟨fun hkeep => ?_, fun hdyn hlane => hentry.trans (if_pos (hiff.2 ⟨hdyn, hlane⟩))⟩
    refine (hentry.trans (if_neg fun hin => ?_)).trans he
    obtain ⟨hdyn, hlane⟩ := hiff.1 hin
    rcases hkeep with hst | hne
    · simp [hdyn] at hst
    · exact hne hlane

end

end Sys2Proof.Machine
end

section
/-! Frames that go no further than a border port, and its configuration (R93, R94): bad frames and PFC, and PRT_BORDER. -/

namespace Sys2Proof.Machine
open Sys2Proof.Claims

/-! ## What counting leaves, and what a named counter reads -/

/-- A named counter has counted, where what came before was counting and logging that left its value. -/
theorem counts_of_logs {s t : State} {d : Dev} {inst idx n : Nat} (h : s.d.Logs d)
    (hval : d.fld F.CNT_VAL_VALUE (cntIdx inst idx) = s.d.fld F.CNT_VAL_VALUE (cntIdx inst idx))
    (ht : t.d.fld F.CNT_VAL_VALUE (cntIdx inst idx) = (d.count inst idx n).fld F.CNT_VAL_VALUE (cntIdx inst idx)) :
    Counts s t inst idx n := by
  intro hi hs hc
  have hok : d.instOk inst = true := (Dev.instOk_congr h.fuse inst).trans hi
  have hcut : d.cutState = 0 := (Dev.cutState_congr h.cutPast (h.regs _ _ rfl)).trans hs
  have hchain : bitOf (d.rd .CNT_CHAIN inst) (idx / 2) = false := by rw [h.regs _ _ rfl]; exact hc
  exact ht.trans ((Dev.fld_count_value hok hcut hchain n).trans (by rw [hval]; rfl))

section
variable (d : Dev) (l : Nat) (f : List Byte)

theorem Dev.logs_dropFrame (c : Nat) : d.Logs (d.dropFrame l c f) := ((Dev.Logs.refl d).count _ _ _).countEv _ _ _ _
theorem Dev.logs_frameIn : d.Logs (d.frameIn l f) := ((Dev.Logs.refl d).count _ _ _).countEv _ _ _ _

theorem Dev.soft_dropFrame (c : Nat) : d.Soft (d.dropFrame l c f) := ((Dev.Soft.refl d).count _ _ _).countEv _ _ _ _
theorem Dev.soft_frameIn : d.Soft (d.frameIn l f) := ((Dev.Soft.refl d).count _ _ _).countEv _ _ _ _

theorem Dev.fld_dropFrame_count {c : Nat} (hc : c < 48) : (d.dropFrame l c f).fld F.CNT_VAL_VALUE (cntIdx (16 + l) c)
    = (d.count (16 + l) c 1).fld F.CNT_VAL_VALUE (cntIdx (16 + l) c) := Dev.fld_countEv_of_lt _ hc _ _ _

/-- A frame received counts in RX_PKT, and in no named counter above the next. -/
theorem Dev.fld_frameIn_count {c : Nat} (h1 : C.RX_PKT + 1 < c) (h2 : c < 48) :
    (d.frameIn l f).fld F.CNT_VAL_VALUE (cntIdx (16 + l) c) = d.fld F.CNT_VAL_VALUE (cntIdx (16 + l) c) :=
  (Dev.fld_countEv_of_lt _ h2 _ _ _).trans (Dev.fld_count_of_gt _ h1 _)

end

/-! ## Frames that end at the port (R94) -/

section
variable {s : State} {port : Nat} {f : List Byte} (hport : port < s.d.nLanes) (hup : s.d.borderUp port = true)
  (hclock : s.d.tmu.refOk = true)
include hport

theorem exec_borderFrameArrival : exec (.borderFrameArrival port f) s = .next { s with
    d := (borderFrame port f (s.d, s.mem)).1, mem := (borderFrame port f (s.d, s.mem)).2 } := by
  show execBorderFrameArrival port f s = _
  unfold execBorderFrameArrival
  rw [decide_eq_true hport, ifUnit_true, onBoth_eq]

include hup hclock

/-- What BORDER_PFC_ARRIVAL does at a border port that is UP. -/
theorem exec_borderPfcArrival : exec (.borderPfcArrival port f) s = .next { s with
    d := if frameGood f then (if bytesAt f 12 2 = 0x8808 then (s.d.frameIn port f).macControl port f else s.d)
      else s.d.dropFrame port C.BORDER_BAD_FRAME f } := by
  show execBorderPfcArrival port f s = _
  unfold execBorderPfcArrival
  rw [decide_eq_true hport, ifUnit_true, onDev_eq, if_neg (by simp [hup, hclock])]
  cases frameGood f
  · rfl
  · rfl

/-- A bad frame is counted, and leaves nothing else. -/
theorem badFrame_completes (hbad : frameGood f = false) :
    Completes (.borderFrameArrival port f) s (fun t => Quiet s t ∧ t.d.net = s.d.net ∧ Counts s t (16 + port) 34 1)
    ∧ Completes (.borderPfcArrival port f) s (fun t => Quiet s t ∧ t.d.net = s.d.net ∧ Counts s t (16 + port) 34 1) := by
  have hframe : borderFrame port f (s.d, s.mem) = (s.d.dropFrame port C.BORDER_BAD_FRAME f, s.mem) := by
    unfold borderFrame
    dsimp only
    rw [if_neg (by simp [hup, hclock]), if_pos (by simp [hbad])]
  have hgoal : ∀ t : State, t = { s with d := s.d.dropFrame port C.BORDER_BAD_FRAME f } →
      Quiet s t ∧ t.d.net = s.d.net ∧ Counts s t (16 + port) 34 1 := by
    rintro t rfl
    exact ⟨⟨rfl, rfl, s.d.soft_dropFrame port f _⟩, (s.d.logs_dropFrame port f _).net,
      counts_of_logs (Dev.Logs.refl s.d) rfl (Dev.fld_dropFrame_count _ _ _ (by decide))⟩
  have hexec := exec_borderFrameArrival hport (f := f)
  have hpfc := exec_borderPfcArrival hport hup hclock (f := f)
  rw [hframe] at hexec
  rw [hbad, if_neg Bool.false_ne_true] at hpfc
  exact ⟨⟨_, hexec, hgoal _ rfl⟩, ⟨_, hpfc, hgoal _ rfl⟩⟩

end

/-- A pass that puts a value at the keys below a bound that a test picks. -/
theorem NMap.get_foldl_put {α : Type} (c : Nat → Prop) [DecidablePred c] (v : Nat → α) (z : α) (m : NMap α) (n k : Nat) :
    ((List.range n).foldl (fun a p => if c p then a.put p (v p) else a) m).get z k = if k < n ∧ c k then v k else m.get z k := by
  induction n with
  | zero => simp
  | succ n ih =>
    rw [List.range_succ, List.foldl_append]
    simp only [List.foldl_cons, List.foldl_nil]
    by_cases hc : c n
    · rw [if_pos hc, NMap.get_put, ih]
      by_cases hk : k = n
      · subst hk; simp [hc]
      · have hlt : k < n ↔ k < n + 1 := by omega
        simp only [if_neg hk, hlt]
    · rw [if_neg hc, ih]
      congr 1
      simp only [eq_iff_iff]
      constructor
      · exact fun ⟨h, hk⟩ => ⟨by omega, hk⟩
      · rintro ⟨h, hk⟩
        have : k ≠ n := fun e => hc (e ▸ hk)
        exact ⟨by omega, hk⟩

/-- A PFC frame that names a priority pauses it for its time from now (R94). -/
theorem pfcFrame_completes {s : State} {port : Nat} {f : List Byte} (hport : port < s.d.nLanes) (hup : s.d.borderUp port = true)
    (hclock : s.d.tmu.refOk = true) (hgood : frameGood f = true) (htype : bytesAt f 12 2 = 0x8808) (hop : bytesAt f 14 2 = 0x0101)
    (hen : s.d.fld F.PRT_BORDER_PFC_EN port = 1) : Completes (.borderPfcArrival port f) s (fun t =>
      Only noLanes s t (fun _ _ => False) ∧ (∀ l, l ≠ port → t.d.lane l = s.d.lane l) ∧ Counts s t (16 + port) 4 1
      ∧ (∃ x, t.d.lane port = { s.d.lane port with paused := x })
      ∧ ∀ p, p < 8 → (t.d.lane port).paused.get 0 p =
          if bytesAt f 17 1 / 2 ^ p % 2 = 1 then s.d.tmu.total + s.d.quanta port (bytesAt f (18 + 2 * p) 2)
          else (s.d.lane port).paused.get 0 p) := by
  set d := s.d.frameIn port f with hd
  set paused := (List.range 8).foldl (fun a p => if bytesAt f 17 1 / 2 ^ p % 2 = 1 then
    a.put p (s.d.tmu.total + s.d.quanta port (bytesAt f (18 + 2 * p) 2)) else a) (s.d.lane port).paused with hpaused
  have hlogs : s.d.Logs d := s.d.logs_frameIn port f
  have hfld : ∀ (g : Fld) (i : Nat), g.rf.logging = false → d.fld g i = s.d.fld g i := fun g i hg => Dev.Within.fld hlogs g i hg
  have hlane : ∀ l, d.lane l = s.d.lane l := Dev.lane_congr (congrArg Net.lanes hlogs.net)
  have htmu : d.tmu = s.d.tmu := by have e := congrArg Dev.tmu hlogs.still; exact e
  have hquanta : ∀ n, d.quanta port n = s.d.quanta port n := fun n => by
    unfold Dev.quanta Dev.borderWidth
    rw [hfld _ _ rfl]
  have hexec := exec_borderPfcArrival hport hup hclock (f := f)
  have hctl : d.macControl port f = d.pfcFrame port f := if_pos ⟨hop, by
    unfold Dev.flag
    rw [hfld _ _ rfl, hen]
    rfl⟩
  rw [hgood, if_pos rfl, if_pos htype, ← hd, hctl] at hexec
  have hport' : (d.pfcFrame port f).lane port = { s.d.lane port with paused := paused } := by
    unfold Dev.pfcFrame
    rw [Dev.lane_modLane, if_pos rfl, hlane]
    simp only [htmu, hquanta]
    rfl
  refine ⟨_, hexec, ⟨⟨rfl, rfl⟩, ?_, fun r i hr _ => ?_⟩, fun l hl => ?_, ?_, ⟨_, hport'⟩, fun p hp => ?_⟩
  · have e := congrArg (fun d : Dev => noLanes d.still) hlogs.still
    exact e
  · exact (Dev.rd_modLane _ _ _ _ _).trans (hlogs.regs r i hr)
  · refine ((Dev.lane_modLane _ _ _ _).trans (if_neg hl)).trans (hlane l)
  · exact counts_of_logs (Dev.Logs.refl s.d) rfl ((Dev.fld_modLane _ _ _ _ _).trans (Dev.fld_countEv_of_lt _ (by decide) _ _ _))
  · show ((d.pfcFrame port f).lane port).paused.get 0 p = _
    rw [hport']
    show paused.get 0 p = _
    rw [hpaused, NMap.get_foldl_put (fun p => bytesAt f 17 1 / 2 ^ p % 2 = 1)]
    simp [hp]

/-! ## PRT_BORDER (R93) -/

/-- Two fields share no bit of their word. -/
def Fld.Apart (f g : Fld) : Prop := f.hi < g.lo ∨ g.hi < f.lo

/-- The word of plain fields that are put one after another. -/
def putFields (w : Word) (fs : List Fld) (a : Word) : Word := fs.foldl (fun a f => setBits a f.hi f.lo (bitsOf w f.hi f.lo)) a

theorem bitsOf_putFields_of_apart {w : Word} {g : Fld} (hg : g.lo ≤ g.hi) : ∀ {fs : List Fld} (a : Word),
    (∀ f ∈ fs, f.lo ≤ f.hi ∧ f.Apart g) → bitsOf (putFields w fs a) g.hi g.lo = bitsOf a g.hi g.lo
  | [], _, _ => rfl
  | f :: fs, a, h => by
    obtain ⟨hf, hap⟩ := h f List.mem_cons_self
    exact (bitsOf_putFields_of_apart hg _ fun f hf => h f (List.mem_cons_of_mem _ hf)).trans
      (bitsOf_setBits_of_disjoint _ _ _ _ _ _ hf hg hap.symm)

/-- A plain field reads what was written in it. -/
theorem bitsOf_putFields {w : Word} {g : Fld} : ∀ {fs : List Fld} (a : Word), fs.Pairwise Fld.Apart →
    (∀ f ∈ fs, f.lo ≤ f.hi ∧ f.hi < 64) → g ∈ fs → bitsOf (putFields w fs a) g.hi g.lo = bitsOf w g.hi g.lo
  | [], _, _, _, hg => absurd hg List.not_mem_nil
  | f :: fs, a, hp, hw, hg => by
    obtain ⟨hfirst, hrest⟩ := List.pairwise_cons.1 hp
    rcases List.mem_cons.1 hg with rfl | hg
    · obtain ⟨hl, hh⟩ := hw g List.mem_cons_self
      refine (bitsOf_putFields_of_apart hl _ fun f hf => ⟨(hw f (List.mem_cons_of_mem _ hf)).1, (hfirst f hf).symm⟩).trans ?_
      exact (bitsOf_setBits _ _ _ _ hl hh).trans (Nat.mod_eq_of_lt (bitsOf_lt _ _ _))
    · have hput := bitsOf_putFields (w := w) (setBits a f.hi f.lo (bitsOf w f.hi f.lo)) hrest (fun f hf => hw f (List.mem_cons_of_mem _ hf)) hg
      exact hput

theorem Dev.written_border (d : Dev) (i : Nat) (w : Word) :
    d.written .PRT_BORDER i w = putFields w (RF.fields .PRT_BORDER) (d.rd .PRT_BORDER i) := rfl

theorem Dev.fld_plainWrite_border (d : Dev) (i : Nat) (w : Word) {g : Fld} (hg : g ∈ RF.fields .PRT_BORDER) (hr : g.rf = .PRT_BORDER) :
    (d.plainWrite .PRT_BORDER i w).fld g i = bitsOf w g.hi g.lo := by
  unfold Dev.fld Dev.plainWrite
  rw [hr, Dev.rd_wr_self, Dev.written_border]
  exact bitsOf_putFields _ (by unfold Fld.Apart; decide) (by decide) hg

/-- A write that reaches its register completes with OK once the register's own operation is done. -/
theorem Dev.regRow_reaches {s : State} {m : Master} {r : RF} {i : Nat} {w : Word} (h : Reaches s m r i w) (op : Dev → Dev) :
    s.d.regRow m r i w op = (op s.d).emitOut (.reg 0 0) := by
  unfold Dev.regRow Dev.regWith
  simp only [h.allowed, h.present, h.encoded, Bool.false_eq_true, if_false]
  rfl

theorem answers_emitOut {t : State} {d : Dev} {st : Nat} (h : t.d = d.emitOut (.reg st 0)) : Answers t st := by
  unfold Answers
  rw [h]
  exact List.getLast?_concat

theorem exec_prtBorderWrite {s : State} {m : Master} {port : Nat} {w : Word} (h : Reaches s m .PRT_BORDER port w) (hp : port < 1024) :
    exec (.prtBorderWrite m port w) s = .next { s with d := (s.d.wrBorder port w).emitOut (.reg 0 0) } := by
  show execPrtBorderWrite m port w s = _
  unfold execPrtBorderWrite
  rw [decide_eq_true hp, ifUnit_true, onDev_eq, Dev.regRow_reaches h]

namespace Dev.Soft
variable {a d : Dev}

theorem drainPkt (h : a.Soft d) (id : Nat) : a.Soft (d.drainPkt id) := by
  unfold Dev.drainPkt
  split
  · exact h
  · split
    · exact h.endPkt _
    · exact (h.modPkt _ _).trimBuf _

theorem cutSend (h : a.Soft d) (l : Nat) : a.Soft (d.cutSend l) := by
  have hlow := h.whenSome (d.lane l).txLow (f := fun i d => d.drainPkt i) fun i => h.drainPkt i
  exact hlow.whenSome _ (f := fun i d => d.drainPkt i) fun i => hlow.drainPkt i

theorem dropQueued (h : a.Soft d) (l : Nat) : a.Soft (d.dropQueued l) :=
  h.each _ fun _ _ p h => (h.discardOther p).endPkt _

end Dev.Soft

/-- A port that goes down: registers but counters, the notice log and amounts in use stay, and of the rest only packets, lanes
and the ports to flush change. -/
theorem Dev.portLost_keeps (d : Dev) (p : Nat) : noNetFlush (d.portLost p).still = noNetFlush d.still
    ∧ (∀ r i, r.busy = false → (d.portLost p).rd r i = d.rd r i)
    ∧ p ∈ (d.portLost p).tab.flush ∧ ((d.portLost p).lane p).paused = [] := by
  have hsoft : d.Soft ((d.cutSend p).dropQueued p) := ((Dev.Soft.refl d).cutSend p).dropQueued p
  refine ⟨?_, fun r i hr => ?_, ?_, ?_⟩
  · have e := congrArg (fun d : Dev => noNetFlush d.still) hsoft.hard
    exact e
  · exact (Dev.rd_of_regs rfl rfl r i).trans (hsoft.regs r i hr)
  · show p ∈ List.erase _ p ++ [p]
    simp
  · unfold Dev.portLost
    have hlane := ((d.cutSend p).dropQueued p).lane_modLane p (fun x => { x with paused := [], xoff := 0, txLow := none, txHigh := none }) p
    exact congrArg Lane.paused (hlane.trans (if_pos rfl))

section
variable {s : State} {m : Master} {port : Nat} {w : Word} (h : Reaches s m .PRT_BORDER port w) (hp : port < 1024)
include h hp

/-- A configuration that fits is taken (R93). -/
theorem prtBorderWrite_fits (hen : bitsOf w 63 63 = 1) (hfits : s.d.borderFits port (2 ^ bitsOf w 62 61) = true) :
    Completes (.prtBorderWrite m port w) s (fun t => Answers t 0
      ∧ t.d.fld F.PRT_BORDER_EN port = 1 ∧ t.d.fld F.PRT_BORDER_WIDTH port = bitsOf w 62 61
      ∧ t.d.fld F.PRT_BORDER_PROD port = bitsOf w 58 47 ∧ t.d.fld F.PRT_BORDER_PVID port = bitsOf w 46 35
      ∧ t.d.fld F.PRT_BORDER_PCP_TC port = bitsOf w 23 0 ∧ Only id s t (fun r i => r = .PRT_BORDER ∧ i = port)) := by
  have hw : s.d.wrBorder port w = s.d.plainWrite .PRT_BORDER port w := by
    have hone : fldOf F.PRT_BORDER_EN w = 1 := hen
    have hfit : s.d.borderFits port (2 ^ fldOf F.PRT_BORDER_WIDTH w) = true := hfits
    unfold Dev.wrBorder
    rw [if_neg (by simp [hfit]), if_neg (by simp [hone])]
  have hexec := exec_prtBorderWrite h hp
  rw [hw] at hexec
  have hfld : ∀ g ∈ RF.fields .PRT_BORDER, g.rf = .PRT_BORDER →
      ((s.d.plainWrite .PRT_BORDER port w).emitOut (.reg 0 0)).fld g port = bitsOf w g.hi g.lo := fun g hg hr =>
    (Dev.fld_emitOut _ _ _ _).trans (s.d.fld_plainWrite_border port w hg hr)
  exact ⟨_, hexec, answers_emitOut rfl, (hfld F.PRT_BORDER_EN (by decide) rfl).trans hen, hfld F.PRT_BORDER_WIDTH (by decide) rfl,
    hfld F.PRT_BORDER_PROD (by decide) rfl, hfld F.PRT_BORDER_PVID (by decide) rfl, hfld F.PRT_BORDER_PCP_TC (by decide) rfl,
    ⟨rfl, rfl⟩, rfl, fun r i _ hr => (Dev.rd_emitOut _ _ _ _).trans (Dev.rd_wr_of_ne _ _ _ _ _ _ hr)⟩

/-- A configuration that does not fit is discarded, and raises BORDER_CONFIG (R93). -/
theorem prtBorderWrite_refused (hen : bitsOf w 63 63 = 1) (hfits : s.d.borderFits port (2 ^ bitsOf w 62 61) = false) :
    Completes (.prtBorderWrite m port w) s (fun t => Answers t 0
      ∧ Only id s t (fun _ _ => False) ∧ (Heard s → Raises s t 0x25 1 0 (port * 2 ^ 48))) := by
  have hw : s.d.wrBorder port w = s.d.notice N.BORDER_CONFIG Src.core 0 (port * 2 ^ 48) := by
    have hdata : laneData port = port * 2 ^ 48 := by unfold laneData; rw [Nat.mod_eq_of_lt hp]
    have hone : fldOf F.PRT_BORDER_EN w = 1 := hen
    have hfit : s.d.borderFits port (2 ^ fldOf F.PRT_BORDER_WIDTH w) = false := hfits
    unfold Dev.wrBorder
    rw [if_pos (by simp [hone, hfit]), hdata]
  have hexec := exec_prtBorderWrite h hp
  rw [hw] at hexec
  have hlogs : s.d.Logs (s.d.notice N.BORDER_CONFIG Src.core 0 (port * 2 ^ 48)) := (Dev.Logs.refl s.d).notice _ _ _ _
  refine ⟨_, hexec, answers_emitOut rfl, ⟨⟨rfl, rfl⟩, ?_, fun r i hr _ => (Dev.rd_emitOut _ _ _ _).trans (hlogs.regs r i hr)⟩,
    (Dev.Follows.refl s.d).raises (Dev.Follows.of_regs rfl rfl rfl rfl)⟩
  have e := congrArg Dev.still hlogs.still
  exact e

/-- A border port that is switched off goes down (R93, R96, R349). -/
theorem prtBorderWrite_off (hen : bitsOf w 63 63 = 0) (hborder : s.d.isBorderPort port = true) :
    Completes (.prtBorderWrite m port w) s (fun t => Answers t 0 ∧ t.d.fld F.PRT_BORDER_EN port = 0 ∧ port ∈ t.d.tab.flush
      ∧ (t.d.lane port).paused = [] ∧ Only noNetFlush s t (fun r i => r.busy = true ∨ r = .PRT_BORDER ∧ i = port)) := by
  have hw : s.d.wrBorder port w = (s.d.portLost port).plainWrite .PRT_BORDER port w := by
    have hzero : fldOf F.PRT_BORDER_EN w = 0 := hen
    unfold Dev.wrBorder
    rw [if_neg (by simp [hzero]), if_pos ⟨hborder, hzero⟩]
  have hexec := exec_prtBorderWrite h hp
  rw [hw] at hexec
  obtain ⟨hstill, hregs, hflush, hpaused⟩ := s.d.portLost_keeps port
  refine ⟨_, hexec, answers_emitOut rfl, ?_, hflush, hpaused, ⟨rfl, rfl⟩, hstill, fun r i _ hr => ?_⟩
  · refine (Dev.fld_emitOut _ _ _ _).trans (((s.d.portLost port).fld_plainWrite_border port w (g := F.PRT_BORDER_EN) (by decide) rfl).trans ?_)
    exact hen
  · obtain ⟨hbusy, hother⟩ := not_or.1 hr
    exact ((Dev.rd_emitOut _ _ _ _).trans (Dev.rd_wr_of_ne _ _ _ _ _ _ hother)).trans (hregs r i (Bool.eq_false_iff.2 hbusy))

end

end Sys2Proof.Machine
end

section
/-! Packets of border ports (R97, R98): what charging cells leaves alone, the queue of a border port, and ETH_ENCAP out. -/

namespace Sys2Proof.Machine
open Sys2Proof.Claims

/-! ## What counting and charging leave alone -/

/-- `d'` comes after `d` by counts and charges of cells: the packets held and those made stay, and names in use stay below the
next. -/
structure Dev.SamePkts (d d' : Dev) : Prop where
  soft : d.Soft d'
  pkts : d'.net.pkts = d.net.pkts
  outbox : d'.net.outbox = d.net.outbox
  names : d.net.nextId ≤ d'.net.nextId

namespace Dev.SamePkts
variable {a b c d : Dev}

theorem refl (d : Dev) : d.SamePkts d := ⟨.refl d, rfl, rfl, le_rfl⟩

theorem trans (h : a.SamePkts b) (k : b.SamePkts c) : a.SamePkts c :=
  ⟨h.soft.trans k.soft, k.pkts.trans h.pkts, k.outbox.trans h.outbox, h.names.trans k.names⟩

/-- Counting leaves what stands on lanes and in buffers. -/
theorem of_logs (h : a.Logs b) : a.SamePkts b where
  soft := ⟨by have e := congrArg Dev.hard h.still; exact e, fun l => congrArg Lane.still (Dev.lane_congr (congrArg Net.lanes h.net) l),
    fun r i hr => h.regs r i (RF.logging_of_not_busy hr)⟩
  pkts := congrArg Net.pkts h.net
  outbox := congrArg Net.outbox h.net
  names := (congrArg Net.nextId h.net).ge

theorem countWrd (d : Dev) (c : Nat) : d.SamePkts (d.countWrd c) := of_logs ((Dev.Logs.refl d).count _ _ _)

theorem setLv (d : Dev) (k : Nat) (x : LaneVl) : d.SamePkts (d.setLv k x) := ⟨(Dev.Soft.refl d).setLv k x, rfl, rfl, le_rfl⟩

theorem addBuf (d : Dev) (b : Buf) : d.SamePkts (d.addBuf b).2 := ⟨(Dev.Soft.refl d).addBuf b, rfl, rfl, Nat.le_succ _⟩

/-- Cells drawn for a production count in what it uses, and over its quota in a counter. -/
theorem addUsed_count (d : Dev) (prod n : Nat) (o : Bool) :
    d.SamePkts ((d.addUsed prod n).when o (fun d => d.countWrd C.QUOTA_OVER)) := by
  have hused : d.SamePkts (d.addUsed prod n) := ⟨(Dev.Soft.refl d).addUsed prod n, rfl, rfl, le_rfl⟩
  cases o with
  | false => exact hused
  | true => exact hused.trans (countWrd _ _)

theorem chargeCommon (d : Dev) (n prod : Nat) : d.SamePkts (d.chargeCommon n prod).2 := (addUsed_count d prod n _).trans (addBuf _ _)

theorem chargeSource (d : Dev) (k : Nat) (p : Pkt) : ∀ x, d.chargeSource k p = some x → d.SamePkts x.2 := by
  intro x hx
  unfold Dev.chargeSource at hx
  dsimp only at hx
  split at hx
  · cases hx
    exact (setLv d _ _).trans (addBuf _ _)
  · split at hx
    · cases hx
      exact ((setLv d _ _).trans (addUsed_count _ _ _ _)).trans (addBuf _ _)
    · cases hx

theorem freeBuf (d : Dev) (id : Nat) : d.SamePkts (d.freeBuf id) := by
  have hfrees : d.Frees (d.freeBuf id) := Dev.Frees.freeBuf (Dev.Within.refl d) id
  refine ⟨(Dev.Soft.refl d).freeBuf id, ?_, ?_, Eq.ge ?_⟩
  · have e := congrArg (fun x : Dev => x.net.pkts) hfrees.still
    exact e
  · have e := congrArg (fun x : Dev => x.net.outbox) hfrees.still
    exact e
  · have e := congrArg (fun x : Dev => x.net.nextId) hfrees.still
    exact e

theorem setBufs (d : Dev) (m : NMap Buf) : d.SamePkts { d with net := { d.net with bufs := m } } :=
  ⟨(Dev.Soft.refl d).setBufs m, rfl, rfl, le_rfl⟩

theorem countMark (d : Dev) (p : Pkt) (l m : Nat) : d.SamePkts (d.countMark p l m) := by
  have hself := Dev.Logs.refl d
  have hcount : d.Logs (if m = 1 then d.countPort l C.MARK_T1 else if m = 2 then d.countPort l C.MARK_T2 else d) := by
    split
    · exact hself.count _ _ _
    · split
      · exact hself.count _ _ _
      · exact hself
  unfold Dev.countMark
  dsimp only
  split
  · exact of_logs (hcount.countEv _ _ _ _)
  · exact of_logs hcount

end Dev.SamePkts

namespace Dev.Soft
variable {d d' : Dev} (h : d.Soft d')
include h

theorem nLanes : d'.nLanes = d.nLanes := by unfold Dev.nLanes; rw [h.fuse]

theorem ltype (l : Nat) : d'.ltype l = d.ltype l := by
  have hwas : (d'.lane l).wasType = (d.lane l).wasType := by have e := congrArg Lane.wasType (h.lane l); exact e
  unfold Dev.ltype
  rw [hwas, h.fld _ _ rfl]

theorem isBorderPort (l : Nat) : d'.isBorderPort l = d.isBorderPort l := by
  unfold Dev.isBorderPort Dev.flag
  rw [h.nLanes, h.ltype, h.fld _ _ rfl]

theorem ownFn (fn : Nat) : d'.ownFn fn = d.ownFn fn := Dev.ownFn_congr (h.regs _ _ rfl) fn

end Dev.Soft

theorem Dev.ltype_of_isBorderPort {d : Dev} {l : Nat} (h : d.isBorderPort l = true) : d.ltype l = 2 := by
  unfold Dev.isBorderPort at h
  simp only [Bool.and_eq_true, beq_iff_eq] at h
  exact h.1.2

/-! ## A packet joins a border port's queue (R41, R108) -/

theorem extractLsb'_setBits {w : Nat} (h : BitVec w) {hi lo off n : Nat} (v : Nat) (hl : lo ≤ hi) (hd : hi < off) :
    (setBits h hi lo v).extractLsb' off n = h.extractLsb' off n := by
  apply BitVec.eq_of_getLsbD_eq
  intro i _
  rw [BitVec.getLsbD_extractLsb', BitVec.getLsbD_extractLsb', getLsbD_setBits _ _ _ _ _ hl, if_neg (by omega)]

/-- A header with its CM cleared. -/
def sansCm (h : BitVec 128) : BitVec 128 := setBits h 28 27 0

theorem sansCm_setBits (h : BitVec 128) (m : Nat) : sansCm (setBits h 28 27 m) = sansCm h := by
  apply BitVec.eq_of_getLsbD_eq
  intro i _
  unfold sansCm
  rw [getLsbD_setBits _ _ _ _ _ (by decide), getLsbD_setBits _ _ _ _ _ (by decide), getLsbD_setBits _ _ _ _ _ (by decide)]
  split
  · rfl
  · rfl

section
variable {h h' : BitVec 128} (e : sansCm h' = sansCm h)
include e

theorem extractLsb'_of_sansCm {off : Nat} (ho : 28 < off) (n : Nat) : h'.extractLsb' off n = h.extractLsb' off n := by
  rw [← extractLsb'_setBits h' 0 (show 27 ≤ 28 by decide) ho, ← extractLsb'_setBits h 0 (show 27 ≤ 28 by decide) ho]
  exact congrArg (BitVec.extractLsb' off n) e

theorem bitsOf_of_sansCm {hi lo : Nat} (hl : lo ≤ hi) (hlo : 28 < lo) : bitsOf h' hi lo = bitsOf h hi lo := by
  rw [← bitsOf_setBits_of_disjoint h' 28 27 0 hi lo (by decide) hl (.inr hlo),
    ← bitsOf_setBits_of_disjoint h 28 27 0 hi lo (by decide) hl (.inr hlo)]
  exact congrArg (bitsOf · hi lo) e

end

/-- `q` is the packet `p` in the queue of lane `l`: CM may be marked, but header fields besides it, payload and lane of arrival
stay. -/
structure Pkt.Joins (p : Pkt) (l : Nat) (q : Pkt) : Prop where
  hdr : sansCm q.hdr = sansCm p.hdr
  inl : q.inl = p.inl
  pay : q.pay = p.pay
  body : q.body = p.body
  place : ∃ k, q.place = .queue l k

namespace Pkt.Joins
variable {p q : Pkt} {l : Nat} (h : p.Joins l q)
include h

theorem dst : q.dst = p.dst := extractLsb'_of_sansCm h.hdr (by decide) 32
theorem src : q.src = p.src := extractLsb'_of_sansCm h.hdr (by decide) 32
theorem prod : q.prod = p.prod := bitsOf_of_sansCm h.hdr (by decide) (by decide)
theorem opc : q.opc = p.opc := bitsOf_of_sansCm h.hdr (by decide) (by decide)

end Pkt.Joins

/-- A packet in queue `k` of lane `l`, with its CM and its stamp. -/
def Pkt.queued (p : Pkt) (l k cm stamp : Nat) : Pkt := { p.setHdr 28 27 cm with place := .queue l k, stamp := stamp }

theorem Pkt.joins_queued (p : Pkt) (l k cm stamp : Nat) : p.Joins l (p.queued l k cm stamp) := ⟨sansCm_setBits _ _, rfl, rfl, rfl, k, rfl⟩

/-- A packet joins the queue of a border lane: nothing else that the device holds or makes changes. -/
theorem Dev.enqueue_border {d : Dev} {id l : Nat} {p : Pkt} (hp : d.pkt id = some p) (hl : d.ltype l = 2) :
    ∃ g : Pkt → Pkt, (∀ q, (g q).id = q.id ∧ q.Joins l (g q))
      ∧ (d.enqueue id l).net.pkts = d.net.pkts.map (fun q => if q.id = id then g q else q)
      ∧ (d.enqueue id l).net.outbox = d.net.outbox ∧ d.net.nextId ≤ (d.enqueue id l).net.nextId := by
  set m := max p.cmIn (d.queueMark l p.vl (d.depth l p.qIdx + p.cells)) with hm
  set d1 := d.countMark p l (d.queueMark l p.vl (d.depth l p.qIdx + p.cells)) with hd1
  have hsame : d.SamePkts d1 := Dev.SamePkts.countMark d p l _
  have hid : p.id = id := Dev.id_of_pkt hp
  have htype : (d.markPkt p l).ltype l = 2 := ((Dev.Soft.refl d).markPkt p l).ltype l |>.trans hl
  have hqueue : d.enqueue id l = (d1.modPkt id (fun x => x.setHdr 28 27 m)).moveTo id (.queue l p.qIdx) := by
    have hcheck : (d.markPkt p l).egressCheck p l = none := if_neg (by rw [htype]; omega)
    unfold Dev.enqueue
    simp only [hp, hcheck, htype]
    rw [if_neg (by omega), ← hid]
    rfl
  refine ⟨fun q => q.queued l p.qIdx m d1.net.nextStamp,
    fun q => ⟨rfl, q.joins_queued _ _ _ _⟩, ?_, ?_, ?_⟩
  · rw [hqueue, ← hsame.pkts]
    show (d1.net.pkts.map _).map _ = _
    rw [List.map_map]
    refine List.map_congr_left fun q _ => ?_
    by_cases hq : q.id = id
    · simp [hq, Pkt.setHdr, Pkt.queued, Dev.modPkt]
    · simp [hq]
  · rw [hqueue]
    exact hsame.outbox
  · rw [hqueue]
    exact hsame.names

/-- A device of one packet finds it by its name. -/
theorem Dev.pkt_of_single {d : Dev} {p : Pkt} (h : d.net.pkts = [p]) : d.pkt p.id = some p := by
  unfold Dev.pkt
  rw [h]
  simp

/-- The one packet of a device, in no queue yet, joins a border port's queue (R97, R98). -/
theorem Dev.toBorder_single {d : Dev} {p : Pkt} {out : Nat} (hp : d.net.pkts = [p]) (hl : d.ltype out = 2)
    (hplace : ∀ x k, p.place ≠ .queue x k) (hcells : p.cells ≤ 4096) :
    ∃ q, (d.toBorder p.id out).net.pkts = [q] ∧ q.id = p.id ∧ p.Joins out q ∧ (d.toBorder p.id out).net.outbox = d.net.outbox := by
  have hroom : d.borderCells out = 0 := by
    unfold Dev.borderCells
    rw [hp, List.foldl_cons, List.foldl_nil]
    split
    · next x k e => exact absurd e (hplace x k)
    · rfl
  set x := (d.freeBuf p.buf).chargeCommon p.cells p.prod with hx
  have hsame : d.SamePkts x.2 := (Dev.SamePkts.freeBuf d p.buf).trans (Dev.SamePkts.chargeCommon _ _ _)
  set p1 : Pkt := { p.setRw 31 31 0 with buf := x.1 } with hp1
  set d1 := x.2.modPkt p.id (fun p => { p.setRw 31 31 0 with buf := x.1 }) with hd1
  have hpkts : d1.net.pkts = [p1] := by
    show x.2.net.pkts.map _ = _
    rw [hsame.pkts, hp]
    simp [hp1]
  have htype : d1.ltype out = 2 := (hsame.soft.modPkt _ _).ltype out |>.trans hl
  have hto : d.toBorder p.id out = d1.enqueue p.id out := by
    unfold Dev.toBorder
    simp only [Dev.pkt_of_single hp]
    rw [if_neg (by omega)]
  obtain ⟨g, hg, hmap, hout, -⟩ := Dev.enqueue_border (Dev.pkt_of_single hpkts) htype
  obtain ⟨hid, hhdr, hinl, hpay, hbody, hqueue⟩ := hg p1
  rw [hto]
  refine ⟨g p1, hmap.trans ?_, hid, ⟨hhdr, hinl, hpay, hbody, hqueue⟩, hout.trans hsame.outbox⟩
  rw [hpkts]
  simp

/-! ## ETH_ENCAP out (R97) -/

theorem Pkt.cells_le (p : Pkt) : p.cells ≤ 32 := by
  have hlen : p.len < 128 := bitsOf_lt _ _ _
  unfold Pkt.cells Pkt.flits ceilDiv
  omega

/-- An ETH_ENCAP that names a border port joins its queue. -/
theorem ethEncap_completes {s : State} {p : Pkt} {out : Nat} (hp : s.d.net.pkts = [p]) (hplace : p.place = .atFn 0) (hopc : p.opc = 0x01)
    (hnamed : bitOf p.rw 10 = true) (hout : bitsOf p.rw 9 0 = out) (hport : s.d.isBorderPort out = true) :
    Completes (.ethEncap p.id) s (fun t => Rest s t ∧ ∃ q x, t.d.net.pkts = [q] ∧ q.id = p.id ∧ q.place = .queue out x
      ∧ q.pay = p.pay ∧ q.body = p.body ∧ q.dst = p.dst) := by
  subst hout
  have hexec : exec (.ethEncap p.id) s = .next { s with d := s.d.toBorder p.id (bitsOf p.rw 9 0) } := by
    show execEthEncap p.id s = _
    unfold execEthEncap
    rw [onDev_eq, Dev.pkt_of_single hp]
    dsimp only
    rw [if_pos ⟨hplace, hopc⟩, if_pos ⟨hnamed, hport⟩]
  obtain ⟨q, hpkts, hid, hjoins, -⟩ := Dev.toBorder_single hp (Dev.ltype_of_isBorderPort hport) (by simp [hplace])
    (p.cells_le.trans (by decide))
  obtain ⟨x, hx⟩ := hjoins.place
  exact ⟨_, hexec, ⟨rfl, rfl⟩, q, x, hpkts, hid, hx, hjoins.pay, hjoins.body, hjoins.dst⟩

end Sys2Proof.Machine
end

section
/-! The ETH_ENCAP of a frame (R51, R97): it carries the frame, and takes at most 18 cells. -/

namespace Sys2Proof.Machine
open Sys2Proof.Claims

/-! ## Bytes laid out in flits -/

theorem ofBytes_zeros (n : Nat) : ofBytes (List.replicate n 0) = 0 := by
  induction n with
  | zero => rfl
  | succ n ih => rw [List.replicate_succ, ofBytes_cons, ih]; simp

/-- Bytes read as one number and spelled again: they stand first, and zeros fill up. -/
theorem bytesOf_bytesAt (bs : List Byte) (n : Nat) : bytesOf n (bytesAt bs 0 n) = bs.take n ++ List.replicate (n - bs.length) 0 := by
  have hlen : (bs.take n ++ List.replicate (n - bs.length) (0 : Byte)).length = n := by simp; omega
  have hnum : bytesAt bs 0 n = ofBytes (bs.take n ++ List.replicate (n - bs.length) 0) := by
    unfold bytesAt
    dsimp only
    rw [ofBytes_append, ofBytes_zeros, List.drop_zero, List.length_replicate, List.length_take,
      show n - min n bs.length = n - bs.length by omega, Nat.add_zero]
  conv_lhs => rw [hnum, ← hlen]
  rw [hlen]
  exact (congrArg (bytesOf · _) hlen.symm).trans (bytesOf_ofBytes _)

/-- A list laid out in a first part of `n` bytes and a rest stands at the front of both. -/
theorem take_prefix_parts {bs r : List Byte} {n m : Nat} (h : (bs.drop n).take m <+: r) :
    bs.take (n + m) <+: bytesOf n (bytesAt bs 0 n) ++ r := by
  rw [bytesOf_bytesAt, List.take_add]
  rcases Nat.le_total n bs.length with hle | hle
  · rw [Nat.sub_eq_zero_of_le hle, List.replicate_zero, List.append_nil]
    exact (List.prefix_append_right_inj _).2 h
  · rw [List.drop_eq_nil_of_le hle, List.take_nil, List.append_nil, List.append_assoc]
    exact List.prefix_append _ _

theorem bytesAt_toNat {w : Nat} (bs : List Byte) {n : Nat} (hw : w = 8 * n) : (BitVec.ofNat w (bytesAt bs 0 n)).toNat = bytesAt bs 0 n := by
  rw [BitVec.toNat_ofNat]
  refine Nat.mod_eq_of_lt ((bytesAt_lt bs 0 n).trans_eq ?_)
  rw [hw, Nat.pow_mul]

theorem take_prefix_splitBody (n : Nat) (bs : List Byte) :
    bs.take (60 * n) <+: (splitBody n bs).flatMap (fun b => bytesOf 60 b.toNat) := by
  induction n generalizing bs with
  | zero => exact List.nil_prefix
  | succ n ih =>
    rw [show 60 * (n + 1) = 60 + 60 * n by ring, splitBody, List.flatMap_cons, bytesAt_toNat bs (show 480 = 8 * 60 from rfl)]
    exact take_prefix_parts (ih _)

/-- A packet whose payload is laid out from a list has it in front. -/
theorem prefix_bytes {p : Pkt} {bs : List Byte} {n : Nat} (hpay : p.pay = BitVec.ofNat 320 (bytesAt bs 0 40))
    (hbody : p.body = splitBody n (bs.drop 40)) (hn : bs.length ≤ 40 + 60 * n) : bs <+: p.bytes := by
  unfold Pkt.bytes
  rw [hpay, hbody, bytesAt_toNat bs (show 320 = 8 * 40 from rfl)]
  have hparts := take_prefix_parts (take_prefix_splitBody n (bs.drop 40))
  rwa [List.take_of_length_le hn] at hparts

/-! ## The frame in its packet -/

section
variable (d : Dev) (l tc : Nat) (mark : Bool) (f : List Byte) (dst : BitVec 32) (opx : Nat)

/-- The payload of a frame's packet: the port and the frame's length, and the frame without its FCS. -/
def encapBytes (l : Nat) (f : List Byte) : List Byte := bytesOf 4 (l * 2 ^ 22 + (f.length - 4)) ++ f.take (f.length - 4)

theorem length_encapBytes : (encapBytes l f).length = f.length - 4 + 4 := by
  unfold encapBytes
  rw [List.length_append, length_bytesOf, List.length_take]
  omega

/-- The packet of a frame, field by field. -/
structure Dev.Encaps (p : Pkt) : Prop where
  hdr : ∃ g tc, sansCm p.hdr = sansCm (mkHdr dst (d.ownFn 0) (d.fld F.PRT_BORDER_PROD l) g 0x01 (lenFor (f.length - 4 + 4)) tc)
  inl : p.inl = l
  pay : p.pay = BitVec.ofNat 320 (bytesAt (encapBytes l f) 0 40)
  body : p.body = splitBody (lenFor (f.length - 4 + 4)) ((encapBytes l f).drop 40)
  place : p.place = .ingress

theorem Dev.encapOf_encaps : d.Encaps l f dst (d.encapOf l tc mark f dst opx) := by
  have hquota : ∀ p : Pkt, d.Encaps l f dst p → d.Encaps l f dst (d.quotaMark p) := fun p h => by
    obtain ⟨⟨g, tc, hhdr⟩, hinl, hpay, hbody, hplace⟩ := h
    unfold Dev.quotaMark
    split
    · exact ⟨⟨g, tc, (sansCm_setBits _ _).trans hhdr⟩, hinl, hpay, hbody, hplace⟩
    · exact ⟨⟨g, tc, hhdr⟩, hinl, hpay, hbody, hplace⟩
  exact hquota _ ⟨⟨d.fld F.GLB_PROD_GEN (d.fld F.PRT_BORDER_PROD l), tc, sansCm_setBits _ _⟩, rfl, rfl, rfl, rfl⟩

end

theorem Pkt.cells_pos (p : Pkt) : 1 ≤ p.cells := by
  unfold Pkt.cells Pkt.flits ceilDiv
  omega

theorem mkHdr_len (dst src : BitVec 32) (prod gen opc len tc : Nat) : bitsOf (mkHdr dst src prod gen opc len tc) 35 29 = len % 128 := by
  unfold bitsOf
  rw [mkHdr_toNat, Nat.shiftRight_eq_div_pow]
  omega

section
variable {d : Dev} {l : Nat} {f : List Byte} {dst : BitVec 32} {p : Pkt} (h : d.Encaps l f dst p) (hgood : f.length ≤ 4180)
include h hgood

theorem Dev.Encaps.frame : p.frame = f.take (f.length - 4) := by
  obtain ⟨r, hr⟩ : encapBytes l f <+: p.bytes := prefix_bytes h.pay h.body (by rw [length_encapBytes]; unfold lenFor ceilDiv; omega)
  have hat : p.at 4 4 = (l * 2 ^ 22 + (f.length - 4)) % 256 ^ 4 := by
    have hmgmt := mgmtPkt_at d 0 0 0 0 0 0 (encapBytes l f) (m := 0) (n := 4) (by decide) (by decide)
    have hpay : p.at 4 4 = bitsOf p.pay 319 288 := bitsOf_append p.rw p.pay (by decide) (by decide)
    have hpay' : (d.mgmtPkt 0 0 0 0 0 0 (encapBytes l f)).at (0 + 4) 4 = bitsOf (BitVec.ofNat 320 (bytesAt (encapBytes l f) 0 40)) 319 288 :=
      bitsOf_append _ _ (by decide) (by decide)
    rw [hpay, h.pay, ← hpay', hmgmt]
    exact (bytesAt_front _ _).trans (ofBytes_bytesOf _ _)
  have hlen : p.at 4 4 % 8192 = f.length - 4 := by rw [hat]; omega
  have hfront : (p.bytes.drop 4).take (f.length - 4) = f.take (f.length - 4) := by
    rw [← hr]
    unfold encapBytes
    rw [List.append_assoc, List.drop_left' (length_bytesOf _ _), List.take_append_of_le_length (by rw [List.length_take]; omega),
      List.take_take, Nat.min_self]
  unfold Pkt.frame Pkt.bytesFrom ethBase
  rw [hlen]
  dsimp only
  rw [hfront, List.length_take, Nat.min_eq_left (Nat.sub_le _ _), Nat.sub_self, List.replicate_zero, List.append_nil]

theorem Dev.Encaps.cells_le : p.cells ≤ 18 := by
  obtain ⟨g, tc, hhdr⟩ := h.hdr
  have hlen : p.len = lenFor (f.length - 4 + 4) % 128 := (bitsOf_of_sansCm hhdr (by decide) (by decide)).trans (mkHdr_len _ _ _ _ _ _ _)
  unfold Pkt.cells Pkt.flits
  rw [hlen]
  unfold lenFor ceilDiv
  omega

end

/-- The packet that a port makes of a frame carries it. -/
theorem carries_of_encaps {s : State} {d : Dev} {port : Nat} {f : List Byte} {dst : BitVec 32} {p : Pkt} (hs : s.d.Soft d)
    (h : d.Encaps port f dst p) (hgood : f.length ≤ 4180) : Carries s port f p := by
  obtain ⟨g, tc, hhdr⟩ := h.hdr
  have hprod : d.fld F.PRT_BORDER_PROD port < 4096 := bitsOf_lt _ _ _
  refine ⟨?_, ?_, ?_, h.inl, h.frame hgood⟩
  · exact (bitsOf_of_sansCm hhdr (by decide) (by decide)).trans (mkHdr_opc _ _ _ _ _ _ _)
  · refine (bitsOf_of_sansCm hhdr (by decide) (by decide)).trans ((mkHdr_prod _ _ _ _ _ _ _).trans ?_)
    rw [Nat.mod_eq_of_lt hprod, hs.fld _ _ rfl]
  · exact ((extractLsb'_of_sansCm hhdr (by decide) 32).trans (mkHdr_src _ _ _ _ _ _ _)).trans (hs.ownFn 0)

/-- A packet carries its frame in a queue too. -/
theorem Pkt.Joins.carries {s : State} {port l : Nat} {f : List Byte} {p q : Pkt} (h : p.Joins l q) (hp : Carries s port f p) :
    Carries s port f q := by
  have hat : q.at 4 4 = p.at 4 4 := by
    have e : ∀ r : Pkt, r.at 4 4 = bitsOf r.pay 319 288 := fun r => bitsOf_append r.rw r.pay (by decide) (by decide)
    rw [e, e, h.pay]
  have hframe : q.frame = p.frame := by
    unfold Pkt.frame Pkt.bytesFrom Pkt.bytes
    rw [hat, h.pay, h.body]
  exact ⟨h.opc.trans hp.opc, h.prod.trans hp.prod, h.src.trans hp.src, h.inl.trans hp.arrival, hframe.trans hp.frame⟩

end Sys2Proof.Machine
end

section
/-! What a border port admits (R98), and frames delivered to one port or flooded (R95, R99). -/

namespace Sys2Proof.Machine
open Sys2Proof.Claims

/-! ## Ingress quota (R98) -/

theorem Dev.shareLimit_of_logs {d d' : Dev} (h : d.Logs d') : d'.shareLimit = d.shareLimit := by
  unfold Dev.shareLimit Dev.sharedFree Dev.sharedTotal Dev.sharedUsed Dev.setAside
  rw [h.net, Dev.Within.fld h _ _ rfl, Dev.Within.fld h _ _ rfl]

section
variable {s : State} {d : Dev} {port : Nat} {p : Pkt} (hd : s.d.Logs d)
include hd

theorem Dev.lv_of_logs (k : Nat) : d.lv k = s.d.lv k := by
  unfold Dev.lv
  rw [hd.net]

theorem borderBuf_room (hroom : IngressRoom s port) (hcells : p.cells ≤ 18) :
    ∃ x, d.borderBuf port p = some x ∧ d.SamePkts x.2 := by
  unfold Dev.borderBuf
  rcases hcharge : d.chargeSource (lvKey port 5) p with _ | x
  · rcases hroom with hpfc | hreserve
    · have hflag : d.flag F.PRT_BORDER_PFC_EN port = true := by
        unfold Dev.flag
        rw [Dev.Within.fld hd _ _ rfl, hpfc]
        rfl
      exact ⟨_, if_pos hflag, Dev.SamePkts.chargeCommon _ _ _⟩
    · have hfits : (d.lv (lvKey port 5)).resUsed + p.cells ≤ (d.lv (lvKey port 5)).resCap := by
        rw [Dev.lv_of_logs hd, show lvKey port 5 = 8 * port + 5 by unfold lvKey; omega]
        omega
      unfold Dev.chargeSource at hcharge
      dsimp only at hcharge
      rw [if_pos hfits] at hcharge
      cases hcharge
  · exact ⟨x, rfl, Dev.SamePkts.chargeSource _ _ _ _ hcharge⟩

theorem borderBuf_full (hfull : IngressFull s port) : d.borderBuf port p = none := by
  obtain ⟨hpfc, hreserve, hshare⟩ := hfull
  have hpos := p.cells_pos
  have hkey : lvKey port 5 = 8 * port + 5 := by unfold lvKey; omega
  have hcharge : d.chargeSource (lvKey port 5) p = none := by
    unfold Dev.chargeSource
    dsimp only
    rw [Dev.lv_of_logs hd, hkey, if_neg (by omega), Dev.shareLimit_of_logs hd, if_neg (by omega)]
  unfold Dev.borderBuf Dev.flag
  rw [hcharge, Dev.Within.fld hd _ _ rfl, hpfc]
  rfl

end

/-! ## To one port -/

section
variable {s : State} {d : Dev} {port : Nat} {f : List Byte} (hd : s.d.Logs d) (hlen : f.length ≤ 4180) (tc : Nat) (mark : Bool) (out : Nat)
include hd

include hlen in
/-- A frame with room at ingress stands at its egress port (R98). -/
theorem borderLocal_room (hempty : s.d.net.pkts = []) (hroom : IngressRoom s port) (hout : s.d.isBorderPort out = true) :
    ∃ q, (d.borderLocal port tc mark f out).net.pkts = [q] ∧ Carries s port f q ∧ (∃ k, q.place = .queue out k)
      ∧ (d.borderLocal port tc mark f out).net.outbox = s.d.net.outbox := by
  set p := d.encapOf port tc mark f (d.ownFn 0) (1024 + out) with hp
  have hencaps : d.Encaps port f (d.ownFn 0) p := d.encapOf_encaps port tc mark f _ _
  have hbase : s.d.SamePkts d := Dev.SamePkts.of_logs hd
  obtain ⟨x, hbuf, hsame⟩ := borderBuf_room hd hroom (hencaps.cells_le hlen)
  set p1 : Pkt := { p with buf := x.1, id := x.2.net.nextId, frcIn := x.2.tmu.frc } with hp1
  set d1 := (x.2.addPkt { p with buf := x.1 }).2 with hd1
  have heq : d.borderLocal port tc mark f out = d1.toBorder p1.id out := by
    unfold Dev.borderLocal Dev.borderAdmit
    simp only [← hp, hbuf]
    rfl
  have hpkts : d1.net.pkts = [p1] := by
    show x.2.net.pkts ++ [_] = _
    rw [hsame.pkts, hbase.pkts, hempty]
    rfl
  have htype : d1.ltype out = 2 :=
    (((hbase.trans hsame).soft.addPkt _).ltype out).trans (Dev.ltype_of_isBorderPort hout)
  have hplace : ∀ y k, p1.place ≠ .queue y k := fun y k e => by
    have hin : p.place = .queue y k := e
    rw [hencaps.place] at hin
    cases hin
  have hcells : p1.cells ≤ 4096 := (hencaps.cells_le hlen).trans (by decide)
  obtain ⟨q, hq, -, hjoins, hbox⟩ := Dev.toBorder_single hpkts htype hplace hcells
  have hcarries : Carries s port f p1 := by
    obtain ⟨hopc, hprod, hsrc, hinl, hframe⟩ := carries_of_encaps hbase.soft hencaps hlen
    exact ⟨hopc, hprod, hsrc, hinl, hframe⟩
  rw [heq]
  exact ⟨q, hq, hjoins.carries hcarries, hjoins.place, hbox.trans (hsame.outbox.trans hbase.outbox)⟩

/-- A frame that finds no quota and no PFC is dropped and counted (R98). -/
theorem borderLocal_full (hfull : IngressFull s port) : d.borderLocal port tc mark f out
    = (d.countPort port C.BORDER_ING_DROP).countDrop (d.encapOf port tc mark f (d.ownFn 0) (1024 + out)) := by
  unfold Dev.borderLocal Dev.borderAdmit
  simp only [borderBuf_full hd hfull]

end

/-! ## Flooding -/

/-- The ports that a flood from port `l` goes to (R95). -/
def Dev.floodOuts (d : Dev) (l : Nat) : List Nat :=
  (List.range d.nLanes).filter (fun x => x != l && d.isBorderPort x && d.fld F.PRT_BORDER_PROD x == d.fld F.PRT_BORDER_PROD l)

/-- One copy of a flooded packet joins the queue of a port. -/
def Dev.floodTo (p : Pkt) (d : Dev) (x : Nat) : Dev := (d.addPkt p).2.enqueue (d.addPkt p).1 x

theorem Dev.mem_floodOuts {d : Dev} {l x : Nat} : x ∈ d.floodOuts l ↔ x < d.nLanes ∧ x ≠ l ∧ d.isBorderPort x = true
    ∧ d.fld F.PRT_BORDER_PROD x = d.fld F.PRT_BORDER_PROD l := by
  simp [Dev.floodOuts, and_assoc]

theorem Dev.Soft.floodOuts {d d' : Dev} (h : d.Soft d') (l : Nat) : d'.floodOuts l = d.floodOuts l := by
  have hfld : ∀ x, d'.fld F.PRT_BORDER_PROD x = d.fld F.PRT_BORDER_PROD x := fun x => h.fld _ _ rfl
  unfold Dev.floodOuts
  simp only [h.nLanes, h.isBorderPort, hfld]

/-- One copy of a flooded packet is added, under a fresh name, in a border port's queue. -/
theorem Dev.floodTo_pkts {d : Dev} (p : Pkt) {x : Nat} (hx : d.ltype x = 2) (hfresh : ∀ q ∈ d.net.pkts, q.id < d.net.nextId) :
    ∃ q, p.Joins x q ∧ (d.floodTo p x).net.pkts = d.net.pkts ++ [q] ∧ (d.floodTo p x).net.outbox = d.net.outbox
      ∧ q.id < (d.floodTo p x).net.nextId ∧ d.net.nextId ≤ (d.floodTo p x).net.nextId := by
  set p1 : Pkt := { p with id := d.net.nextId, frcIn := d.tmu.frc } with hp1
  have hpkt : (d.addPkt p).2.pkt (d.addPkt p).1 = some p1 := by
    have hnone : d.net.pkts.find? (fun q => q.id == d.net.nextId) = none :=
      List.find?_eq_none.2 fun q hq => by simp [(hfresh q hq).ne]
    show (d.net.pkts ++ [p1]).find? (fun q => q.id == d.net.nextId) = some p1
    rw [List.find?_append, hnone]
    simp [hp1]
  have htype : (d.addPkt p).2.ltype x = 2 := (((Dev.Soft.refl d).addPkt p).ltype x).trans hx
  obtain ⟨g, hg, hmap, hbox, hnames⟩ := Dev.enqueue_border hpkt htype
  obtain ⟨hid, hhdr, hinl, hpay, hbody, hplace⟩ := hg p1
  have hlast : d.net.nextId < (d.floodTo p x).net.nextId := hnames
  have hold : d.net.pkts.map (fun q => if q.id = d.net.nextId then g q else q) = d.net.pkts :=
    (List.map_congr_left fun q hq => if_neg (hfresh q hq).ne).trans (List.map_id _)
  refine ⟨g p1, ⟨hhdr, hinl, hpay, hbody, hplace⟩, hmap.trans ?_, hbox, hid.trans_lt hlast, hlast.le⟩
  show (d.net.pkts ++ [p1]).map (fun q => if q.id = d.net.nextId then g q else q) = _
  rw [List.map_append, hold]
  simp [hp1]

/-- A flood adds one copy in the queue of each of its ports, and nothing else. -/
theorem Dev.floodTo_each (p : Pkt) (outs : List Nat) : ∀ {d : Dev}, (∀ x ∈ outs, d.ltype x = 2) →
    (∀ q ∈ d.net.pkts, q.id < d.net.nextId) → ∃ l, (d.each outs (Dev.floodTo p)).net.pkts = d.net.pkts ++ l
      ∧ (d.each outs (Dev.floodTo p)).net.outbox = d.net.outbox
      ∧ (∀ x ∈ outs, ∃ q ∈ l, p.Joins x q) ∧ ∀ q ∈ l, ∃ x ∈ outs, p.Joins x q := by
  induction outs with
  | nil => exact fun _ _ => ⟨[], (List.append_nil _).symm, rfl, by simp, by simp⟩
  | cons x outs ih =>
    intro d htype hfresh
    obtain ⟨q, hjoins, hpkts, hbox, hid, hnames⟩ := d.floodTo_pkts p (htype x List.mem_cons_self) hfresh
    have hsoft : d.Soft (d.floodTo p x) := ((Dev.Soft.refl d).addPkt p).enqueue _ _
    have hfresh' : ∀ r ∈ (d.floodTo p x).net.pkts, r.id < (d.floodTo p x).net.nextId := by
      intro r hr
      rw [hpkts, List.mem_append, List.mem_singleton] at hr
      rcases hr with hr | rfl
      · exact (hfresh r hr).trans_le hnames
      · exact hid
    obtain ⟨l, hl, hlbox, hto, hfrom⟩ :=
      ih (fun y hy => (hsoft.ltype y).trans (htype y (List.mem_cons_of_mem x hy))) hfresh'
    refine ⟨q :: l, hl.trans (by rw [hpkts, List.append_assoc]; rfl), hlbox.trans hbox, ?_, ?_⟩
    · intro y hy
      rcases List.mem_cons.1 hy with rfl | hy
      · exact ⟨q, List.mem_cons_self, hjoins⟩
      · obtain ⟨r, hr, hj⟩ := hto y hy
        exact ⟨r, List.mem_cons_of_mem q hr, hj⟩
    · intro r hr
      rcases List.mem_cons.1 hr with rfl | hr
      · exact ⟨x, List.mem_cons_self, hjoins⟩
      · obtain ⟨y, hy, hj⟩ := hfrom r hr
        exact ⟨y, List.mem_cons_of_mem x hy, hj⟩

/-- With no packet held, a flood that is admitted is full at no port: its cells are stored once, and a copy goes to each. -/
theorem Dev.flood_of_empty {d d1 : Dev} {l tc b : Nat} {mark : Bool} {f : List Byte} (hempty : d.net.pkts = [])
    (hcells : (d.encapOf l tc mark f (d.ownFn 0) 1024).cells ≤ 4096)
    (hbuf : d.borderBuf l (d.encapOf l tc mark f (d.ownFn 0) 1024) = some (b, d1)) (houts : d.floodOuts l ≠ []) :
    ∃ b2 d2, d1.SamePkts d2
      ∧ d.flood l tc mark f = d2.each (d.floodOuts l) (Dev.floodTo { d.encapOf l tc mark f (d.ownFn 0) 1024 with buf := b2 }) := by
  set p := d.encapOf l tc mark f (d.ownFn 0) 1024 with hp
  have hroom : ∀ x, ¬ 4096 < d.borderCells x + p.cells := fun x => by
    have hzero : d.borderCells x = 0 := by unfold Dev.borderCells; rw [hempty]; rfl
    omega
  set y := (d1.freeBuf b).chargeCommon p.cells (d.fld F.PRT_BORDER_PROD l) with hy
  have hy1 : d1.SamePkts y.2 := (Dev.SamePkts.freeBuf d1 b).trans (Dev.SamePkts.chargeCommon _ _ _)
  refine ⟨y.1, _, hy1.trans (Dev.SamePkts.setBufs y.2 (match y.2.net.bufs.find y.1 with
    | some x => y.2.net.bufs.put y.1 { x with refs := (d.floodOuts l).length }
    | none => y.2.net.bufs)), ?_⟩
  unfold Dev.flood Dev.borderAdmit
  extract_lets prod outs full ok
  have hne : ¬ outs.isEmpty = true := fun e => houts (List.isEmpty_iff.1 e)
  have hfull : full = [] := List.filter_eq_nil_iff.2 fun x _ => by simp [hroom x]
  have hok : ok = outs := List.filter_eq_self.2 fun x _ => by simp [hroom x]
  rw [if_neg hne, hbuf, hfull, hok]
  exact if_neg hne

/-- What a flood of a frame leaves: a copy at each other port of the production, and no packet elsewhere. -/
structure Floods (s : State) (port : Nat) (f : List Byte) (d : Dev) : Prop where
  outbox : d.net.outbox = s.d.net.outbox
  reach : ∀ x ∈ s.d.floodOuts port, ∃ p ∈ d.net.pkts, Carries s port f p ∧ ∃ q, p.place = .queue x q
  only : ∀ p ∈ d.net.pkts, Carries s port f p ∧ ∃ x q, p.place = .queue x q ∧ x ≠ port

/-- A frame that is flooded with room at ingress reaches each other port of its production. -/
theorem flood_room {s : State} {d : Dev} {port : Nat} {f : List Byte} (hd : s.d.Logs d) (hlen : f.length ≤ 4180)
    (hempty : s.d.net.pkts = []) (hroom : IngressRoom s port) (tc : Nat) (mark : Bool) :
    Floods s port f (d.flood port tc mark f) := by
  have hbase : s.d.SamePkts d := Dev.SamePkts.of_logs hd
  have hnone : d.net.pkts = [] := hbase.pkts.trans hempty
  have houts : d.floodOuts port = s.d.floodOuts port := hbase.soft.floodOuts port
  by_cases hno : d.floodOuts port = []
  · have hflood : d.flood port tc mark f = d := if_pos (List.isEmpty_iff.2 hno)
    rw [hflood]
    exact ⟨hbase.outbox, by simp [← houts, hno], by simp [hnone]⟩
  · set p := d.encapOf port tc mark f (d.ownFn 0) 1024 with hp
    have hencaps : d.Encaps port f (d.ownFn 0) p := d.encapOf_encaps port tc mark f _ _
    obtain ⟨⟨b, d1⟩, hbuf, hsame1⟩ := borderBuf_room hd hroom (hencaps.cells_le hlen)
    obtain ⟨b2, d2, hsame2, hflood⟩ := Dev.flood_of_empty hnone ((hencaps.cells_le hlen).trans (by decide)) hbuf hno
    have hsame : s.d.SamePkts d2 := (hbase.trans hsame1).trans hsame2
    have hnone2 : d2.net.pkts = [] := hsame.pkts.trans hempty
    have htype : ∀ x ∈ d.floodOuts port, d2.ltype x = 2 := fun x hx => by
      obtain ⟨-, -, hborder, -⟩ := Dev.mem_floodOuts.1 (houts ▸ hx)
      exact (hsame.soft.ltype x).trans (Dev.ltype_of_isBorderPort hborder)
    obtain ⟨l, hl, hbox, hto, hfrom⟩ := Dev.floodTo_each { p with buf := b2 } _ htype (by simp [hnone2])
    have hcarries : Carries s port f { p with buf := b2 } := by
      obtain ⟨hopc, hprod, hsrc, hinl, hframe⟩ := carries_of_encaps hbase.soft hencaps hlen
      exact ⟨hopc, hprod, hsrc, hinl, hframe⟩
    rw [hnone2, List.nil_append] at hl
    refine ⟨by rw [hflood, hbox, hsame.outbox], fun x hx => ?_, fun q hq => ?_⟩
    · obtain ⟨q, hq, hjoins⟩ := hto x (houts ▸ hx)
      exact ⟨q, by rw [hflood, hl]; exact hq, hjoins.carries hcarries, hjoins.place⟩
    · rw [hflood, hl] at hq
      obtain ⟨x, hx, hjoins⟩ := hfrom q hq
      obtain ⟨k, hk⟩ := hjoins.place
      obtain ⟨-, hother, -⟩ := Dev.mem_floodOuts.1 hx
      exact ⟨hjoins.carries hcarries, x, k, hk, hother⟩

end Sys2Proof.Machine
end

section
/-! A frame looked up (R95): what BORDER_FRAME_ARRIVAL does with a good frame, by what its lookup finds. -/

namespace Sys2Proof.Machine
open Sys2Proof.Claims

/-! ## What telling PFC leaves -/

/-- A device but for its lanes and what it sends. -/
def Dev.sansPfc (d : Dev) : Dev := { d with out := [], net := { d.net with lanes := [] } }

theorem Dev.sansPfc_pfcPort (d : Dev) (l : Nat) : (d.pfcPort l).sansPfc = d.sansPfc := by
  unfold Dev.pfcPort
  split
  · refine Dev.each_keeps Dev.sansPfc _ (fun d pri => ?_) _ d
    dsimp only
    split
    · rfl
    · split
      · rfl
      · rfl
  · rfl

theorem Dev.sansPfc_pfcAll (d : Dev) : d.pfcAll.sansPfc = d.sansPfc := Dev.each_keeps Dev.sansPfc _ Dev.sansPfc_pfcPort _ d

section
variable (d : Dev)

theorem Dev.pkts_pfcAll : d.pfcAll.net.pkts = d.net.pkts := by
  have e := congrArg (fun d : Dev => d.net.pkts) d.sansPfc_pfcAll
  exact e

theorem Dev.tab_pfcAll : d.pfcAll.tab = d.tab := by
  have e := congrArg Dev.tab d.sansPfc_pfcAll
  exact e

theorem Dev.fld_pfcAll (g : Fld) (i : Nat) : d.pfcAll.fld g i = d.fld g i := by
  have hregs : d.pfcAll.regs = d.regs := by have e := congrArg Dev.regs d.sansPfc_pfcAll; exact e
  have hfuse : d.pfcAll.fuse = d.fuse := by have e := congrArg Dev.fuse d.sansPfc_pfcAll; exact e
  exact Dev.fld_of_regs hregs hfuse g i

end

/-! ## The frame's way to its lookup -/

section
variable {s : State} {port : Nat} {f : List Byte} (h : BorderCase s port f)
include h

theorem length_le_of_borderCase : f.length ≤ 4180 := by
  have hgood := h.good
  unfold frameGood at hgood
  simp only [Bool.and_eq_true, decide_eq_true_eq] at hgood
  exact hgood.1.2

theorem police_passes (tc n : Nat) : (s.d.frameIn port f).police port 5 tc n = (0, s.d.frameIn port f) := by
  have hoff : (s.d.frameIn port f).flag F.PRT_POL_EN (port * 8 + 5) = false := by
    unfold Dev.flag
    rw [Dev.Within.fld (s.d.logs_frameIn port f) _ _ rfl, Nat.mul_comm, h.unpoliced]
    rfl
  unfold Dev.police
  dsimp only
  rw [hoff]
  rfl

/-- Once its source is learned, or passed over, a good frame is looked up. -/
theorem exec_borderFrame {d1 : Dev} (hl : learnAtFrame port (frameVid s port f) (frameSa f) (s.d.frameIn port f, s.mem) = (true, d1, s.mem)) :
    ∃ tc, exec (.borderFrameArrival port f) s
      = .next { s with d := (d1.borderLookup port (frameVid s port f) tc false f).settle.pfcAll } := by
  set d0 := s.d.frameIn port f with hd0
  have hfld : ∀ (g : Fld) (i : Nat), g.rf.logging = false → d0.fld g i = s.d.fld g i :=
    fun g i hg => Dev.Within.fld (s.d.logs_frameIn port f) g i hg
  have hvid : (if frameTagged f = true then bytesAt f 14 2 % 4096 else d0.fld F.PRT_BORDER_PVID port) = frameVid s port f := by
    unfold frameVid
    rw [hfld _ _ rfl]
  have hlive : ¬ d0.fld F.GLB_PROD_STATE (d0.fld F.PRT_BORDER_PROD port) ≠ 1 := by
    rw [hfld F.PRT_BORDER_PROD _ rfl, hfld _ _ rfl, h.live]
    decide
  have hpolice : ∀ tc n, d0.police port 5 tc n = (0, d0) := police_passes h
  have hingress : ∃ tc, borderIngress port f (d0, s.mem) = (d1.borderLookup port (frameVid s port f) tc false f, s.mem) := by
    refine ⟨d1.tcMap port (d0.fld F.PRT_BORDER_PCP_TC port
      / 8 ^ (if frameTagged f then bytesAt f 14 2 / 8192 else d0.fld F.PRT_BORDER_DEF_PCP port) % 8), ?_⟩
    unfold borderIngress
    simp only [hvid, if_neg hlive, hpolice, hl]
    rfl
  obtain ⟨tc, hingress⟩ := hingress
  have hframe : borderFrame port f (s.d, s.mem) = ((d1.borderLookup port (frameVid s port f) tc false f).settle.pfcAll, s.mem) := by
    unfold borderFrame
    dsimp only
    rw [if_neg (by simp [h.up, h.reference]), if_neg (by simp [h.good]), if_neg h.data, ← hd0, hingress]
  refine ⟨tc, (exec_borderFrameArrival h.here).trans ?_⟩
  rw [hframe]

/-- With nothing learned on the port, the frame is looked up as it came in. -/
theorem exec_borderFrame_unlearned (hoff : s.d.fld F.PRT_LEARN_LEARN_EN port = 0) : ∃ tc, exec (.borderFrameArrival port f) s
    = .next { s with d := ((s.d.frameIn port f).borderLookup port (frameVid s port f) tc false f).settle.pfcAll } := by
  have hflag : (s.d.frameIn port f).flag F.PRT_LEARN_LEARN_EN port = false := by
    unfold Dev.flag
    rw [Dev.Within.fld (s.d.logs_frameIn port f) _ _ rfl, hoff]
    rfl
  have hpass : (s.d.frameIn port f).learning port (frameVid s port f) (frameSa f) = (.pass, s.d.frameIn port f) := by
    unfold Dev.learning
    rw [hflag]
    rfl
  have hcmd : (s.d.frameIn port f).tab.cmd = none :=
    (congrArg Tabs.cmd (s.d.soft_frameIn port f).tab).trans h.tables
  refine exec_borderFrame h ?_
  unfold learnAtFrame learn
  simp only [hcmd, hpass]

/-! ## What the lookup finds -/

section
variable {d : Dev} (hs : s.d.Soft d)
include hs

/-- An unsteered frame is looked up in the exact-match table by its destination. -/
theorem not_steered : ¬ (frameDa f = d.fld F.PRT_BORDER_MAC_STEER_MAC port ∧ ((frameType f).1 = 0x0800 ∨ (frameType f).1 = 0x86DD)) := by
  rw [hs.fld _ _ rfl]
  exact fun e => h.unsteered e.1

variable {vid : Nat} (tc : Nat)

theorem borderLookup_miss (hr : d.exactLook (exKey (s.d.fld F.PRT_BORDER_PROD port) vid (frameDa f)) = (.miss, d)) :
    d.borderLookup port vid tc false f = if isGroup (frameDa f) ∨ d.flag F.PRT_BORDER_UNK_FLOOD port then d.flood port tc false f
      else d.dropFrame port C.BORDER_UNK_DROP f := by
  unfold Dev.borderLookup
  simp only [if_neg (not_steered h hs), hs.fld F.PRT_BORDER_PROD _ rfl, hr]

theorem borderLookup_port {out : Nat} (hr : d.exactLook (exKey (s.d.fld F.PRT_BORDER_PROD port) vid (frameDa f)) = (.port out, d)) :
    d.borderLookup port vid tc false f = if d.isBorderPort out then d.borderLocal port tc false f out
      else (d.dropFrame port C.BORDER_NO_PORT f).notice N.BORDER_NO_PORT Src.core 0 0 := by
  unfold Dev.borderLookup
  simp only [if_neg (not_steered h hs), hs.fld F.PRT_BORDER_PROD _ rfl, hr]

end
end

theorem Dev.exFind_congr {d d' : Dev} (ht : d'.tab = d.tab) (hc : d'.compat = d.compat) (key : Nat) : d'.exFind key = d.exFind key := by
  unfold Dev.exFind Dev.exWays Dev.ent
  rw [ht, hc]

theorem Dev.Soft.compat {d d' : Dev} (h : d.Soft d') : d'.compat = d.compat := by
  unfold Dev.compat Dev.flag
  rw [h.fld _ _ rfl]

theorem Dev.Soft.exFind {d d' : Dev} (h : d.Soft d') (key : Nat) : d'.exFind key = d.exFind key := Dev.exFind_congr h.tab h.compat key

theorem Dev.exactLook_none {d : Dev} {key : Nat} (h : d.exFind key = none) : d.exactLook key = (.miss, d) := by
  unfold Dev.exactLook Dev.exLook
  rw [h]

theorem Dev.exactLook_local {d : Dev} {key i : Nat} {e : BitVec 512} (h : d.exFind key = some i) (he : d.ent 1 i = some e)
    (hp : d.badParity 1 i = false) (hk : exKind e = 0) : d.exactLook key = (.port (exLane e), d) := by
  have hlook : d.look 1 i = (some e, d) := by
    unfold Dev.look
    rw [he, hp]
    rfl
  unfold Dev.exactLook Dev.exLook
  simp only [h, hlook, hk]
  rfl

/-! ## The cases of R95 -/

section
variable {s : State} {port : Nat} {f : List Byte} (h : BorderCase s port f) (hoff : s.d.fld F.PRT_LEARN_LEARN_EN port = 0)
include h hoff

section
variable (hmiss : s.d.exFind (exKey (s.d.fld F.PRT_BORDER_PROD port) (frameVid s port f) (frameDa f)) = none)
include hmiss

/-- An unknown destination that is not flooded is dropped and counted. -/
theorem unknown_dropped (hgroup : isGroup (frameDa f) = false) (hflood : s.d.fld F.PRT_BORDER_UNK_FLOOD port = 0) :
    Completes (.borderFrameArrival port f) s (fun t => Rest s t ∧ t.d.net.pkts = [] ∧ Counts s t (16 + port) 35 1) := by
  obtain ⟨tc, hexec⟩ := exec_borderFrame_unlearned h hoff
  set d0 := s.d.frameIn port f with hd0
  have hlogs : s.d.Logs d0 := s.d.logs_frameIn port f
  have hsoft : s.d.Soft d0 := s.d.soft_frameIn port f
  have hflag : d0.flag F.PRT_BORDER_UNK_FLOOD port = false := by
    unfold Dev.flag
    rw [hsoft.fld _ _ rfl, hflood]
    rfl
  have hlook : d0.borderLookup port (frameVid s port f) tc false f = d0.dropFrame port C.BORDER_UNK_DROP f := by
    rw [borderLookup_miss h hsoft _ (Dev.exactLook_none ((hsoft.exFind _).trans hmiss))]
    exact if_neg (by simp [hgroup, hflag])
  have hnet : (d0.dropFrame port C.BORDER_UNK_DROP f).net = s.d.net := (d0.logs_dropFrame port f _).net.trans hlogs.net
  rw [hlook, Dev.settle_of_empty ((congrArg Net.outbox hnet).trans h.calm.1)] at hexec
  refine ⟨_, hexec, ⟨rfl, rfl⟩, ?_, ?_⟩
  · exact (Dev.pkts_pfcAll _).trans ((congrArg Net.pkts hnet).trans h.empty)
  · exact counts_of_logs hlogs (s.d.fld_frameIn_count port f (by decide) (by decide))
      ((Dev.fld_pfcAll _ _ _).trans (d0.fld_dropFrame_count port f (by decide)))

/-- A group destination, or an unknown one that is flooded, goes to each other port of the production. -/
theorem unknown_flooded (hflood : isGroup (frameDa f) = true ∨ s.d.fld F.PRT_BORDER_UNK_FLOOD port = 1) (hroom : IngressRoom s port) :
    Completes (.borderFrameArrival port f) s (fun t => Rest s t
      ∧ (∀ x, x < s.d.nLanes → x ≠ port → s.d.isBorderPort x = true → s.d.fld F.PRT_BORDER_PROD x = s.d.fld F.PRT_BORDER_PROD port →
          ∃ p ∈ t.d.net.pkts, Carries s port f p ∧ ∃ q, p.place = .queue x q)
      ∧ ∀ p ∈ t.d.net.pkts, Carries s port f p ∧ ∃ x q, p.place = .queue x q ∧ x ≠ port) := by
  obtain ⟨tc, hexec⟩ := exec_borderFrame_unlearned h hoff
  set d0 := s.d.frameIn port f with hd0
  have hsoft : s.d.Soft d0 := s.d.soft_frameIn port f
  have hflag : isGroup (frameDa f) = true ∨ d0.flag F.PRT_BORDER_UNK_FLOOD port = true := by
    refine hflood.imp id fun e => ?_
    unfold Dev.flag
    rw [hsoft.fld _ _ rfl, e]
    rfl
  have hlook : d0.borderLookup port (frameVid s port f) tc false f = d0.flood port tc false f := by
    rw [borderLookup_miss h hsoft _ (Dev.exactLook_none ((hsoft.exFind _).trans hmiss))]
    exact if_pos hflag
  obtain ⟨hbox, hreach, honly⟩ := flood_room (s.d.logs_frameIn port f) (length_le_of_borderCase h) h.empty hroom tc false
  rw [hlook, Dev.settle_of_empty (hbox.trans h.calm.1)] at hexec
  refine ⟨_, hexec, ⟨rfl, rfl⟩, ?_, ?_⟩
  · simp only [Dev.pkts_pfcAll]
    exact fun x hx hne hborder hprod => hreach x (Dev.mem_floodOuts.2 ⟨hx, hne, hborder, hprod⟩)
  · simp only [Dev.pkts_pfcAll]
    exact honly

end

section
variable {i out : Nat} {e : BitVec 512}
  (hfind : s.d.exFind (exKey (s.d.fld F.PRT_BORDER_PROD port) (frameVid s port f) (frameDa f)) = some i) (he : s.d.ent 1 i = some e)
  (hparity : s.d.badParity 1 i = false) (hkind : exKind e = 0) (hlane : exLane e = out) (hout : s.d.isBorderPort out = true)
include hfind he hparity hkind hlane hout

/-- A known destination on a border port: the frame is admitted for that port. -/
theorem exec_borderFrame_local : ∃ tc, exec (.borderFrameArrival port f) s
    = .next { s with d := ((s.d.frameIn port f).borderLocal port tc false f out).settle.pfcAll } := by
  obtain ⟨tc, hexec⟩ := exec_borderFrame_unlearned h hoff
  set d0 := s.d.frameIn port f with hd0
  have hsoft : s.d.Soft d0 := s.d.soft_frameIn port f
  have hent : d0.ent 1 i = some e := (Dev.ent_of_tab hsoft.tab 1 i).trans he
  have hbad : d0.badParity 1 i = false := by
    unfold Dev.badParity
    rw [hsoft.tab]
    exact hparity
  have hlook : d0.borderLookup port (frameVid s port f) tc false f = d0.borderLocal port tc false f out := by
    rw [borderLookup_port h hsoft _ (Dev.exactLook_local ((hsoft.exFind _).trans hfind) hent hbad hkind), hlane]
    exact if_pos ((hsoft.isBorderPort out).trans hout)
  rw [hlook] at hexec
  exact ⟨tc, hexec⟩

theorem local_delivered (hroom : IngressRoom s port) : Completes (.borderFrameArrival port f) s (fun t => Rest s t
    ∧ ∃ p q, t.d.net.pkts = [p] ∧ Carries s port f p ∧ p.place = .queue out q) := by
  obtain ⟨tc, hexec⟩ := exec_borderFrame_local h hoff hfind he hparity hkind hlane hout
  obtain ⟨q, hpkts, hcarries, ⟨k, hk⟩, hbox⟩ :=
    borderLocal_room (s.d.logs_frameIn port f) (length_le_of_borderCase h) tc false out h.empty hroom hout
  rw [Dev.settle_of_empty (hbox.trans h.calm.1)] at hexec
  exact ⟨_, hexec, ⟨rfl, rfl⟩, q, k, (Dev.pkts_pfcAll _).trans hpkts, hcarries, hk⟩

theorem local_dropped (hfull : IngressFull s port) : Completes (.borderFrameArrival port f) s (fun t => Rest s t
    ∧ t.d.net.pkts = [] ∧ Counts s t (16 + port) 22 1) := by
  obtain ⟨tc, hexec⟩ := exec_borderFrame_local h hoff hfind he hparity hkind hlane hout
  set d0 := s.d.frameIn port f with hd0
  have hlogs : s.d.Logs d0 := s.d.logs_frameIn port f
  set p := d0.encapOf port tc false f (d0.ownFn 0) (1024 + out) with hp
  set d1 := (d0.countPort port C.BORDER_ING_DROP).countDrop p with hd1
  have hnet : d1.net = s.d.net :=
    (((Dev.Logs.refl d0).count _ _ _).countDrop p).net.trans hlogs.net
  have hcount : d1.fld F.CNT_VAL_VALUE (cntIdx (16 + port) C.BORDER_ING_DROP)
      = (d0.count (16 + port) C.BORDER_ING_DROP 1).fld F.CNT_VAL_VALUE (cntIdx (16 + port) C.BORDER_ING_DROP) := by
    have hinl : p.inl = port := (d0.encapOf_encaps port tc false f (d0.ownFn 0) (1024 + out)).inl
    rw [hd1]
    unfold Dev.countDrop
    rw [hinl]
    split
    · rfl
    · exact Dev.fld_countEv_of_lt _ (by decide) _ _ _
  rw [borderLocal_full hlogs tc false out hfull, Dev.settle_of_empty ((congrArg Net.outbox hnet).trans h.calm.1)] at hexec
  refine ⟨_, hexec, ⟨rfl, rfl⟩, ?_, ?_⟩
  · exact (Dev.pkts_pfcAll _).trans ((congrArg Net.pkts hnet).trans h.empty)
  · exact counts_of_logs hlogs (s.d.fld_frameIn_count port f (by decide) (by decide)) ((Dev.fld_pfcAll _ _ _).trans hcount)

end
end

end Sys2Proof.Machine
end

section
/-! Learning of a frame's source (R96): a lookup keeps the tables, and a source that is new takes a free way. -/

namespace Sys2Proof.Machine
open Sys2Proof.Claims

/-! ## What looking up and delivering a frame may change -/

namespace Dev.Soft
variable {a d : Dev}

theorem toBorder (h : a.Soft d) (id l : Nat) : a.Soft (d.toBorder id l) := by
  unfold Dev.toBorder
  split
  · exact h
  · split
    · exact ((h.count _ _ _).countEv _ _ _ _).endPkt _
    · exact (((h.freeBuf _).chargeCommon _ _).modPkt _ _).enqueue _ _

theorem exLook (h : a.Soft d) (key : Nat) : a.Soft (d.exLook key).2 := by
  unfold Dev.exLook
  split
  · exact h
  · next i _ =>
    have hlook := h.look 1 i
    split
    · next e => rw [e] at hlook; exact hlook
    · next e => rw [e] at hlook; exact hlook

theorem exactLook (h : a.Soft d) (key : Nat) : a.Soft (d.exactLook key).2 := by
  have hlook := h.exLook key
  unfold Dev.exactLook
  split
  · next e => rw [e] at hlook; exact hlook
  · next e => rw [e] at hlook; exact hlook

theorem tcamIp (h : a.Soft d) (dom : Nat) (f : List Byte) : a.Soft (d.tcamIp dom f).2 := by
  unfold Dev.tcamIp
  rcases frameType f with ⟨t, o⟩
  dsimp only
  split
  · next e =>
    have hdev := congrArg Prod.snd e
    exact hdev ▸ h.tcamFind _ _ _
  · next e =>
    have hdev := congrArg Prod.snd e
    exact hdev ▸ h.tcamFind _ _ _

theorem borderAdmit (h : a.Soft d) (l : Nat) (p : Pkt) {f : Nat → Dev → Dev} (hf : ∀ b d, a.Soft d → a.Soft (f b d)) :
    a.Soft (d.borderAdmit l p f) := by
  have hbuf : ∀ x, d.borderBuf l p = some x → a.Soft x.2 := by
    intro x hx
    unfold Dev.borderBuf at hx
    split at hx
    · next y hy => cases hx; exact h.chargeSource _ _ _ hy
    · split at hx
      · cases hx; exact h.chargeCommon _ _
      · cases hx
  unfold Dev.borderAdmit
  split
  · exact (h.count _ _ _).countDrop _
  · next b d1 hx => exact hf b d1 (hbuf _ hx)

theorem dropFrame (h : a.Soft d) (l c : Nat) (f : List Byte) : a.Soft (d.dropFrame l c f) := (h.count _ _ _).countEv _ _ _ _

theorem flood (h : a.Soft d) (l tc : Nat) (mark : Bool) (f : List Byte) : a.Soft (d.flood l tc mark f) := by
  unfold Dev.flood
  dsimp only
  split
  · exact h
  · refine h.borderAdmit _ _ fun b d hd => ?_
    have hfull : ∀ (full : List Nat) (p : Pkt),
        a.Soft ((d.each full (fun d x => (d.countPort x C.BORDER_EGR_DROP).countEv (16 + x) 5 1 p.ctx)).freeBuf b) :=
      fun full p => (hd.each full fun _ _ _ hx => (hx.count _ _ _).countEv _ _ _ _).freeBuf b
    split
    · exact hfull _ _
    · exact (((hfull _ _).chargeCommon _ _).setBufs _).each _ fun _ _ _ hx => (hx.addPkt _).enqueue _ _

theorem borderLookup (h : a.Soft d) (l vid tc : Nat) (mark : Bool) (f : List Byte) : a.Soft (d.borderLookup l vid tc mark f) := by
  unfold Dev.borderLookup
  extract_lets prod t r d1
  have hr : a.Soft d1 := by
    show a.Soft (if _ then _ else _ : BorderTo × Dev).2
    split
    · exact h.tcamIp _ _
    · exact h.exactLook _
  split
  · split
    · exact hr.flood _ _ _ _
    · exact hr.dropFrame _ _ _
  · exact hr.dropFrame _ _ _
  · split
    · exact hr.borderAdmit _ _ fun b d hd => (hd.addPkt _).toBorder _ _
    · exact (hr.dropFrame _ _ _).notice _ _ _ _
  · exact hr.borderAdmit _ _ fun b d hd => (hd.addPkt _).forward _

end Dev.Soft

/-! ## A new source -/

theorem Dev.fld_setEnt (d : Dev) (t i : Nat) (e : BitVec 512) (g : Fld) (j : Nat) : (d.setEnt t i e).fld g j = d.fld g j :=
  Dev.fld_of_regs rfl rfl g j

/-- A free way is one of those given; which is a free value. -/
theorem Dev.pickFree_of_ne_nil (d : Dev) {l : List Nat} (h : l ≠ []) : ∃ i d', d.pickFree l = some (i, d') ∧ i ∈ l ∧ d.Soft d' := by
  match l, h with
  | [x], _ => exact ⟨x, d, rfl, List.mem_singleton_self x, .refl d⟩
  | x :: y :: l, _ =>
    have hlt : d.freeNat.1 % (x :: y :: l).length < (x :: y :: l).length := Nat.mod_lt _ (Nat.succ_pos _)
    refine ⟨(x :: y :: l)[d.freeNat.1 % (x :: y :: l).length], d.freeNat.2, ?_, List.getElem_mem hlt, (Dev.Soft.refl d).freeNat⟩
    show Option.map _ _ = _
    rw [List.getElem?_eq_getElem hlt]
    rfl

/-- The key of a frame's source on its port. -/
def sourceKey (s : State) (port : Nat) (f : List Byte) : Nat :=
  exKey (s.d.fld F.PRT_BORDER_PROD port) (frameVid s port f) (frameSa f)

theorem sourceKey_lt (s : State) (port : Nat) (f : List Byte) : sourceKey s port f < 2 ^ 72 := exKey_lt _ _ _

section
variable {s : State} {port : Nat} {f : List Byte} (h : BorderCase s port f)
include h

variable {way : Nat} (hon : s.d.fld F.PRT_LEARN_LEARN_EN port = 1) (hgroup : isGroup (frameSa f) = false)
  (hnew : s.d.exFind (sourceKey s port f) = none) (hway : way ∈ s.d.exWays (sourceKey s port f)) (hfree : s.d.ent 1 way = none)
  (hroom : s.d.fld F.PRT_LEARN_LEARNED port < s.d.fld F.PRT_LEARN_LEARN_LIMIT port)
include hon hgroup hnew hway hfree hroom

/-- A new source takes a free way of its key, and the port's count. -/
theorem learnAtFrame_new : ∃ i d', i ∈ s.d.exWays (sourceKey s port f) ∧ s.d.ent 1 i = none ∧ s.d.Soft d'
    ∧ learnAtFrame port (frameVid s port f) (frameSa f) (s.d.frameIn port f, s.mem)
      = (true, (d'.addLearned port 1).setEnt 1 i (learnedEntry (sourceKey s port f) port), s.mem) := by
  have hsoft : s.d.Soft (s.d.frameIn port f) := s.d.soft_frameIn port f
  generalize s.d.frameIn port f = d0 at hsoft ⊢
  have hkey : exKey (d0.fld F.PRT_BORDER_PROD port) (frameVid s port f) (frameSa f) = sourceKey s port f := by
    rw [hsoft.fld _ _ rfl]
    rfl
  have hlearn : d0.flag F.PRT_LEARN_LEARN_EN port = true := by
    unfold Dev.flag
    rw [hsoft.fld _ _ rfl, hon]
    rfl
  have hopen : d0.dmaOpen = false := by
    unfold Dev.dmaOpen
    rw [hsoft.fld _ _ rfl, h.noImage.2]
    rfl
  have hlook : d0.exLook (sourceKey s port f) = (none, d0) := by
    unfold Dev.exLook
    rw [hsoft.exFind, hnew]
  have hlimit : d0.learnRoom port = true := by
    unfold Dev.learnRoom
    rw [hsoft.fld _ _ rfl, hsoft.fld _ _ rfl]
    exact decide_eq_true hroom
  have hways : d0.exWays (sourceKey s port f) = s.d.exWays (sourceKey s port f) := by
    unfold Dev.exWays
    rw [hsoft.compat]
  have hent : ∀ j, d0.ent 1 j = s.d.ent 1 j := Dev.ent_of_tab hsoft.tab 1
  obtain ⟨i, d', hpick, hi, hd'⟩ := d0.pickFree_of_ne_nil
    (List.ne_nil_of_mem (List.mem_filter.2 ⟨hways ▸ hway, by rw [hent, hfree]; rfl⟩ :
      way ∈ (d0.exWays (sourceKey s port f)).filter (fun i => (d0.ent 1 i).isNone)))
  have hexFree : d0.exFree (sourceKey s port f) = some (i, d') := hpick
  obtain ⟨hiway, hifree⟩ := List.mem_filter.1 hi
  have hlearning : d0.learning port (frameVid s port f) (frameSa f) = (.new, d0) := by
    unfold Dev.learning
    simp [hkey, hlearn, hopen, hgroup, hlook, hlimit, hexFree]
  have hcmd : d0.tab.cmd = none := (congrArg Tabs.cmd hsoft.tab).trans h.tables
  have hnoShadow : ((d'.addLearned port 1).setEnt 1 i (learnedEntry (sourceKey s port f) port)).compat = false := by
    have hother : (d'.addLearned port 1).fld F.TBL_DMA_LOCK_COMPAT 0 = d'.fld F.TBL_DMA_LOCK_COMPAT 0 :=
      Dev.fld_setFld_of_ne d' F.PRT_LEARN_LEARNED _ port _ _ (by decide) (by decide) (.inl fun e => RF.noConfusion e.1)
    have hset : ((d'.addLearned port 1).setEnt 1 i (learnedEntry (sourceKey s port f) port)).fld F.TBL_DMA_LOCK_COMPAT 0 = 0 := by
      rw [Dev.fld_setEnt, hother, (hsoft.trans hd').fld _ _ rfl, h.noImage.1]
    unfold Dev.compat Dev.flag
    rw [hset]
    rfl
  refine ⟨i, d', hways ▸ hiway, ?_, hsoft.trans hd', ?_⟩
  · rw [← hent]
    exact Option.isNone_iff_eq_none.1 hifree
  · unfold learnAtFrame learn learnPut
    simp only [hcmd, hlearning, hkey, hexFree, hnoShadow]
    rfl

/-- A source that is new to the table is learned on its port (R96). -/
theorem newSource_learned : Completes (.borderFrameArrival port f) s (fun t => Rest s t
    ∧ t.d.fld F.PRT_LEARN_LEARNED port = s.d.fld F.PRT_LEARN_LEARNED port + 1
    ∧ ∃ i ∈ s.d.exWays (sourceKey s port f), s.d.ent 1 i = none
      ∧ (∃ e, t.d.ent 1 i = some e ∧ exKeyOf e = sourceKey s port f ∧ exLane e = port ∧ exKind e = 0 ∧ exStatic e = false)
      ∧ ∀ j, j ≠ i → t.d.ent 1 j = s.d.ent 1 j) := by
  obtain ⟨i, d', hi, hnone, hsoft, hlearned⟩ := learnAtFrame_new h hon hgroup hnew hway hfree hroom
  have hport : port < 1024 := by
    have hlanes : s.d.nLanes ≤ 1024 := by unfold Dev.nLanes; split <;> decide
    exact h.here.trans_le hlanes
  have hfields := learnedEntry_fields (key := sourceKey s port f) (sourceKey_lt s port f) hport
  generalize learnedEntry (sourceKey s port f) port = e at hfields hlearned
  obtain ⟨hkey, hlane, hkind, hstatic⟩ := hfields
  obtain ⟨tc, hexec⟩ := exec_borderFrame h hlearned
  set d1 := (d'.addLearned port 1).setEnt 1 i e with hd1
  have hlook : d1.Soft (d1.borderLookup port (frameVid s port f) tc false f).settle :=
    ((Dev.Soft.refl d1).borderLookup _ _ _ _ _).settle
  have hcount : d1.fld F.PRT_LEARN_LEARNED port = s.d.fld F.PRT_LEARN_LEARNED port + 1 := by
    have hlimit : s.d.fld F.PRT_LEARN_LEARN_LIMIT port < 2 ^ 20 := bitsOf_lt _ _ _
    have hself : (d'.addLearned port 1).fld F.PRT_LEARN_LEARNED port = (d'.fld F.PRT_LEARN_LEARNED port + 1) % 2 ^ 20 :=
      Dev.fld_setFld_self d' F.PRT_LEARN_LEARNED port _ (by decide) (by decide)
    rw [hd1, Dev.fld_setEnt, hself, hsoft.fld _ _ rfl]
    omega
  have hent : ∀ j, (d1.borderLookup port (frameVid s port f) tc false f).settle.pfcAll.ent 1 j
      = if j = i then some e else s.d.ent 1 j := fun j => by
    rw [Dev.ent_of_tab ((Dev.tab_pfcAll _).trans hlook.tab), hd1, Dev.ent_setEnt]
    exact congrArg (if j = i then some e else ·) (Dev.ent_of_tab (d' := d'.addLearned port 1) hsoft.tab 1 j)
  have hafter : (d1.borderLookup port (frameVid s port f) tc false f).settle.pfcAll.fld F.PRT_LEARN_LEARNED port
      = s.d.fld F.PRT_LEARN_LEARNED port + 1 := (Dev.fld_pfcAll _ _ _).trans ((hlook.fld F.PRT_LEARN_LEARNED port rfl).trans hcount)
  generalize (d1.borderLookup port (frameVid s port f) tc false f).settle.pfcAll = d2 at hexec hent hafter
  refine ⟨_, hexec, ⟨rfl, rfl⟩, hafter, i, hi, hnone, ⟨e, ?_, hkey, hlane, hkind, hstatic⟩, ?_⟩
  · rw [hent, if_pos rfl]
  · intro j hj
    rw [hent, if_neg hj]

end

end Sys2Proof.Machine
end

section
/-! The statement about border Ethernet. -/

namespace Sys2Proof.Claims
open Sys2Proof.Machine

/-- Settles O36: each command's outcome is a named device, and the clauses read off what its operations change. -/
theorem borderEthernet : Obligations.BorderEthernet := by
  intro s m port f
  refine ⟨fun hport hup hclock hbad => badFrame_completes hport hup hclock hbad,
    fun h => ⟨fun hoff hmiss => ⟨unknown_dropped h hoff hmiss, unknown_flooded h hoff hmiss⟩,
      fun i e out hoff hfind he hparity hkind hlane hout =>
        ⟨local_delivered h hoff hfind he hparity hkind hlane hout, local_dropped h hoff hfind he hparity hkind hlane hout⟩,
      fun way hon hgroup hnew hway hfree hroom => newSource_learned h hon hgroup hnew hway hfree hroom⟩,
    fun hport hup hclock hgood htype hop hen => pfcFrame_completes hport hup hclock hgood htype hop hen,
    fun w h hen hport => ⟨prtBorderWrite_fits h hport hen, prtBorderWrite_refused h hport hen⟩,
    fun w h hoff hport hborder => prtBorderWrite_off h hport hoff hborder,
    macAgeTick_heldBack, macAgeTick_static,
    fun i e hidle hage hent hi hlearned =>
      ⟨macAgeTick_ages hidle hage hent hi hlearned, macAgeTick_drops hidle hage hent hi hlearned⟩,
    macFlush_up, macFlush_heldBack, macFlush_completes,
    fun p out hp hplace hopc hnamed hout hport => ethEncap_completes hp hplace hopc hnamed hout hport⟩

end Sys2Proof.Claims
end

section
/-! The gap timer on a NEXT of more than 24 bits (R112): numbers are compared modulo 2^24, so nothing is skipped and no GAP_REPORT is
made, where PacketTimers asks for one. -/

namespace Sys2Proof.Machine
open Sys2Proof.Claims

/-! ## A gap that is none modulo 2^24 -/

/-- Where the lowest held number is NEXT modulo 2^24, a gap expiry treats no PSN as skipped: delivery alone goes on. -/
theorem Dev.expireGap_of_delta_zero {d : Dev} {k : CtxKey} {c : Ctx} {p : Pkt} (hc : d.ctx k = some c) (hp : d.lowestHeld c = some p)
    (h0 : delta p.rsqNo c.next 24 = 0) : d.expireGap k = (d.modCtx k (fun c => { c with next := p.rsqNo })).runCtx k := by
  have hskip : d.skipTo c p = some d := if_pos h0
  unfold Dev.expireGap
  rw [hc, Dev.whenSome_some, hp]
  show d.moveGap k c p = _
  unfold Dev.moveGap
  rw [hskip, Dev.whenSome_some]

/-- The command of a running gap timer: the expiry, those that wait for a context, and what was made. -/
theorem exec_rsqGapExpiry {s : State} {src dst : BitVec 32} {vl : Nat} {pv : Bool} {c : Ctx} (hc : s.d.ctx ⟨src, dst, vl, pv⟩ = some c)
    (hgap : c.gapOn = true) :
    exec (.rsqGapExpiry src dst vl pv) s = .next { s with d := ((s.d.expireGap ⟨src, dst, vl, pv⟩).rsqRetry).settle } := by
  show execRsqGapExpiry src dst vl pv s = _
  unfold execRsqGapExpiry
  rw [onDev_eq]
  dsimp only
  rw [hc]
  dsimp only
  rw [if_pos hgap]

/-! ## The state -/

/-- A bulk packet of PSN 13 that its context holds for lane 70. -/
def bulkHeld : Pkt :=
  { id := 1, hdr := mkHdr 0x00002001 0x00300001 9 1 0xC0 0 3 ||| 13#128, rw := 0x43000000, vl := 5, vlIn := 5, pay := 0, inl := 5,
    place := .held 70 43, rsqNo := 13, numbered := true }

/-- Its context, whose gap timer runs with NEXT at 2^24 + 13: another number than 13, and the same one modulo 2^24. -/
def wideNext : Ctx :=
  { src := 0x00300001, dst := 0x00002001, vl := 5, pv := true, lane := 70, next := 2 ^ 24 + 13, learning := false, gapOn := true, arr := 0,
    hold := none }

/-- Both of them, on a device with lane 70 UP and cells in the Prompter's reserve for VL5. -/
def wideNextState : State :=
  { d := ({ net := { pkts := [bulkHeld], nextId := 2, ctxs := [wideNext], lvs := [(8 * 1024 + 5, { resCap := 18 })] } } : Dev).setFld
      F.PRT_LINK_STAT_STATE 70 3 }

theorem calm_wideNextState : Calm wideNextState := ⟨rfl, rfl⟩

/-- The expiry leaves one packet: that which was held, now in its queue. -/
theorem pkts_expireGap_wideNextState : (((wideNextState.d.expireGap ⟨0x00300001, 0x00002001, 5, true⟩).rsqRetry).settle).net.pkts
    = [{ bulkHeld with place := .queue 70 43 }] := by
  rw [Dev.expireGap_of_delta_zero (c := wideNext) (p := bulkHeld) (by decide +kernel) (by decide +kernel) (by decide)]
  decide +kernel

end Sys2Proof.Machine

namespace Sys2Proof.Claims
open Sys2Proof.Machine

/-- Refutes O30: in the clause of the gap timer on a bulk flow, whose hypothesis compares NEXT and the held number as natural numbers
where R112 compares them modulo 2^24. With NEXT at 2^24 + 13 and 13 held no PSN is skipped, so no GAP_REPORT stands before the packet
released. No such state comes from a device that numbers as R109 and R111 say, where NEXT keeps to 24 bits: the clause lacks that bound. -/
theorem not_packetTimers : ¬ Obligations.PacketTimers := by
  intro h
  have hctx : wideNextState.d.ctx ⟨0x00300001, 0x00002001, 5, true⟩ = some wideNext := by decide +kernel
  obtain ⟨-, -, -, hrsq⟩ := h wideNextState calm_wideNextState
  obtain ⟨-, hgap, -⟩ := hrsq _ _ _ _ _ hctx
  have hwaits : ∀ p ∈ wideNextState.d.net.pkts, ¬ Waiting p := by
    rintro p hp ⟨l, q, hplace⟩
    obtain rfl : p = bulkHeld := List.mem_singleton.1 hp
    cases hplace
  obtain ⟨t, hexec, -, -, -, -, hreport⟩ := hgap bulkHeld 70 43 rfl rfl (by decide) (by decide +kernel) rfl (by decide) (by decide +kernel)
    (by decide) (by decide) rfl hwaits (fun _ => by decide +kernel)
  obtain ⟨g, p, hg, hp, -, hstamp, -⟩ := hreport rfl
  cases (exec_rsqGapExpiry hctx rfl).symm.trans hexec
  have hone : ∀ q, q ∈ (((wideNextState.d.expireGap ⟨0x00300001, 0x00002001, 5, true⟩).rsqRetry).settle).net.pkts →
      q = { bulkHeld with place := .queue 70 43 } := fun q hq => by
    rw [pkts_expireGap_wideNextState] at hq
    exact List.mem_singleton.1 hq
  rw [hone g hg, hone p hp] at hstamp
  exact lt_irrefl _ hstamp

end Sys2Proof.Claims
end

section
/-! What an operation on one port's scheduler leaves alone, and what a write of a queue's rate or owner makes of the port
(R121, R122, R132, R133). -/

namespace Sys2Proof.Machine
open Sys2Proof.Claims

/-! ## What an operation on one port leaves alone -/

@[simp] theorem Dev.port_modPort (d : Dev) (l : Nat) (f : Port → Port) (j : Nat) :
    (d.modPort l f).port j = if j = l then f (d.port l) else d.port j := NMap.get_put _ _ _ _ _

/-- Guarantee notices are logging alone (R135). -/
theorem Dev.Logs.guaranteeMove {a d : Dev} (h : a.Logs d) (prod cls tier res idx was old granted new : Nat) :
    a.Logs (d.guaranteeMove prod cls tier res idx was old granted new) := by
  unfold Dev.guaranteeMove
  split
  · exact h.noticeLim _ _ _ _ _
  · split
    · exact h.noticeLim _ _ _ _ _
    · exact h

theorem Dev.Logs.guaranteeChange {a d : Dev} (h : a.Logs d) (prod cls tier res idx was granted committed : Nat) :
    a.Logs (d.guaranteeChange prod cls tier res idx was granted committed) := h.guaranteeMove _ _ _ _ _ _ _ _ _

/-- A device but for registers, logs, outputs and ports. -/
def Dev.sansPorts (d : Dev) : Dev := { d.still with net := { d.net with ports := [] } }

/-- `d'` is `d` with one port's scheduler, logs and the registers that `may` names changed. -/
structure Dev.AtPort (l : Nat) (may : RF → Nat → Prop) (d d' : Dev) : Prop where
  still : d'.sansPorts = d.sansPorts
  port : ∀ p, p ≠ l → d'.port p = d.port p
  regs : ∀ r i, r.logging = false → ¬ may r i → d'.rd r i = d.rd r i

namespace Dev.AtPort
variable {l : Nat} {may : RF → Nat → Prop} {a d d' : Dev}

theorem refl (d : Dev) : Dev.AtPort l may d d := ⟨rfl, fun _ _ => rfl, fun _ _ _ _ => rfl⟩

theorem trans (h : Dev.AtPort l may a d) (k : Dev.AtPort l may d d') : Dev.AtPort l may a d' :=
  ⟨k.still.trans h.still, fun p hp => (k.port p hp).trans (h.port p hp), fun r i hr hm => (k.regs r i hr hm).trans (h.regs r i hr hm)⟩

theorem mono {may' : RF → Nat → Prop} (h : Dev.AtPort l may a d) (hm : ∀ r i, may r i → may' r i) : Dev.AtPort l may' a d :=
  ⟨h.still, h.port, fun r i hr hn => h.regs r i hr fun hmay => hn (hm r i hmay)⟩

theorem fld (h : Dev.AtPort l may a d) (f : Fld) (i : Nat) (hf : f.rf.logging = false) (hm : ¬ may f.rf i) : d.fld f i = a.fld f i :=
  congrArg (bitsOf · _ _) (h.regs _ _ hf hm)

theorem logs (h : Dev.AtPort l may a d) (hl : d.Logs d') : Dev.AtPort l may a d' := by
  refine h.trans ⟨?_, fun p _ => congrArg (fun n : Net => n.ports.get {} p) hl.net, fun r i hr _ => hl.regs r i hr⟩
  have e := congrArg Dev.sansPorts hl.still
  exact e

theorem wr (h : Dev.AtPort l may a d) {r : RF} {i : Nat} (hm : may r i) (w : Word) : Dev.AtPort l may a (d.wr r i w) := by
  refine h.trans ⟨rfl, fun _ _ => rfl, fun r' j _ hn => Dev.rd_wr_of_ne _ _ _ _ _ _ ?_⟩
  rintro ⟨rfl, rfl⟩
  exact hn hm

theorem setFld (h : Dev.AtPort l may a d) (f : Fld) {i : Nat} (hm : may f.rf i) (v : Nat) : Dev.AtPort l may a (d.setFld f i v) :=
  h.wr hm _

theorem modPort (h : Dev.AtPort l may a d) (f : Port → Port) : Dev.AtPort l may a (d.modPort l f) :=
  h.trans ⟨rfl, fun _ hp => (Dev.port_modPort _ _ _ _).trans (if_neg hp), fun _ _ _ _ => Dev.rd_of_regs rfl rfl _ _⟩

theorem emitOut (h : Dev.AtPort l may a d) (o : Out) : Dev.AtPort l may a (d.emitOut o) :=
  h.trans ⟨rfl, fun _ _ => rfl, fun _ _ _ _ => Dev.rd_emitOut _ _ _ _⟩

theorem each {α : Type} {f : Dev → α → Dev} {xs : List α} (h : Dev.AtPort l may a d)
    (hf : ∀ d, ∀ x ∈ xs, Dev.AtPort l may a d → Dev.AtPort l may a (f d x)) : Dev.AtPort l may a (d.each xs f) := by
  induction xs generalizing d with
  | nil => exact h
  | cons x xs ih =>
    exact ih (hf d x List.mem_cons_self h) fun d y hy => hf d y (List.mem_cons_of_mem _ hy)

theorem bRerate (h : Dev.AtPort l may a d) (is : List BucketId) {f : Dev → Dev}
    (hf : ∀ d, Dev.AtPort l may a d → Dev.AtPort l may a (f d)) : Dev.AtPort l may a (d.bRerate l is f) := by
  unfold Dev.bRerate
  refine each (hf _ (h.each fun d i _ hd => ?_)) fun d i _ hd => ?_
  · split
    · exact hd
    · exact hd.modPort _
  · split
    · exact hd.modPort _
    · split
      · exact hd.modPort _
      · exact hd

theorem portOnly {s : State} (h : Dev.AtPort l may s.d d) : PortOnly s { s with d := d } l may :=
  ⟨⟨⟨rfl, rfl⟩, h.still, h.regs⟩, h.port⟩

end Dev.AtPort

/-! ## Fields of a queue's registers -/

theorem qi_eq (l q : Nat) : 64 * l + q = qi l q := by unfold qi; omega

theorem qi_inj {l q k : Nat} (h : qi l q = qi l k) : q = k := by unfold qi at h; omega

/-- A field that a plain write puts in the word reads what was written. -/
theorem Dev.fld_plainWrite {d : Dev} {r : RF} {i : Nat} {w : Word} {fs : List Fld} (hw : d.written r i w = putFields w fs (d.rd r i))
    (hp : fs.Pairwise Fld.Apart) (hs : ∀ f ∈ fs, f.lo ≤ f.hi ∧ f.hi < 64) {g : Fld} (hg : g ∈ fs) (hr : g.rf = r) :
    (d.plainWrite r i w).fld g i = bitsOf w g.hi g.lo := by
  unfold Dev.fld Dev.plainWrite
  rw [hr, Dev.rd_wr_self, hw]
  exact bitsOf_putFields _ hp hs hg

theorem Dev.fld_plainWrite_qrate (d : Dev) (i : Nat) (w : Word) {g : Fld} (hg : g ∈ RF.fields .PRT_QRATE) (hr : g.rf = .PRT_QRATE) :
    (d.plainWrite .PRT_QRATE i w).fld g i = bitsOf w g.hi g.lo :=
  Dev.fld_plainWrite rfl (by unfold Fld.Apart; decide) (by decide) hg hr

theorem Dev.fld_plainWrite_qown (d : Dev) (i : Nat) (w : Word) {g : Fld} (hg : g ∈ [F.PRT_QOWN_PROD, F.PRT_QOWN_TIER])
    (hr : g.rf = .PRT_QOWN) : (d.plainWrite .PRT_QOWN i w).fld g i = bitsOf w g.hi g.lo :=
  Dev.fld_plainWrite rfl (by unfold Fld.Apart; decide) (by decide) hg hr

/-- Entering buckets afresh keeps what the change of the rate leaves in a field. -/
theorem Dev.fld_bRerate {f : Dev → Dev} {g : Fld} {i v : Nat} (hf : ∀ d, (f d).fld g i = v) (d : Dev) (l : Nat) (is : List BucketId) :
    (d.bRerate l is f).fld g i = v := by
  refine (Dev.each_keeps (fun d => d.fld g i) _ (fun d x => ?_) _ _).trans (hf _)
  split
  · exact Dev.fld_of_regs rfl rfl _ _
  · split
    · exact Dev.fld_of_regs rfl rfl _ _
    · rfl

/-! ## Commitments -/

theorem Dev.commits_congr {d d' : Dev} {l : Nat} (h : ∀ k, d'.fld F.PRT_QRATE_MIN_RATE (qi l k) = d.fld F.PRT_QRATE_MIN_RATE (qi l k)) :
    d'.commits l = d.commits l := by
  unfold Dev.commits
  simp only [h]

theorem Dev.mem_commits {d : Dev} {l k c : Nat} :
    (k, c) ∈ d.commits l ↔ k < 64 ∧ c = d.fld F.PRT_QRATE_MIN_RATE (qi l k) ∧ c ≠ 0 := by
  unfold Dev.commits
  simp only [List.mem_filterMap, List.mem_range]
  constructor
  · rintro ⟨q, hq, h⟩
    split at h
    · cases h
    · next hne =>
      cases h
      exact ⟨hq, rfl, hne⟩
  · rintro ⟨hk, rfl, hne⟩
    exact ⟨k, hk, if_neg hne⟩

/-- COMMITTED is what its parts come to, modulo the width of its field. -/
theorem Dev.fld_recommit (d : Dev) (l : Nat) : (d.recommit l).fld F.PRT_SCHED_COMMITTED l =
    (d.fld F.PRT_SCHED_VL7_RATE l + d.fld F.PRT_SCHED_COLL_RATE l + (d.commits l).foldl (fun a x => a + x.2) 0) % 2 ^ 14 :=
  Dev.fld_setFld_self _ _ _ _ (by decide) (by decide)

theorem Dev.fld_recommit_of_ne (d : Dev) (l : Nat) {g : Fld} (hg : g.rf ≠ .PRT_SCHED) (i : Nat) : (d.recommit l).fld g i = d.fld g i :=
  congrArg (bitsOf · _ _) (Dev.rd_setFld_of_ne _ _ _ _ _ _ fun e => hg e.1)

/-- The registers of a queue's rate and owner. -/
def QueueRegs (l q : Nat) (r : RF) (i : Nat) : Prop := r = .PRT_QRATE ∧ i = qi l q ∨ r = .PRT_QOWN ∧ i = qi l q

/-- A rate that is admitted is entered, and the port's COMMITTED follows (R121, R122, R133). -/
theorem Dev.wrQrate_admitted {d : Dev} {l q : Nat} {w : Word}
    (hvl : fldOf F.PRT_QRATE_MIN_RATE w ≠ 0 → q / 8 ∈ [1, 2, 5, 6])
    (hfits : d.fld F.PRT_QRATE_MIN_RATE (qi l q) < fldOf F.PRT_QRATE_MIN_RATE w → d.breached l = false
      ∧ d.commitsFit l ((d.commits l).filter (fun x => x.1 ≠ q) ++ [(q, fldOf F.PRT_QRATE_MIN_RATE w)])
          (d.fld F.PRT_SCHED_VL7_RATE l) (d.fld F.PRT_SCHED_COLL_RATE l) (d.port l).order = true) :
    ∃ d1 : Dev, d.wrQrate l q w = d1.recommit l ∧ Dev.AtPort l (QueueRegs l q) d d1
      ∧ ∀ g ∈ RF.fields .PRT_QRATE, g.rf = .PRT_QRATE → d1.fld g (qi l q) = bitsOf w g.hi g.lo := by
  have hadmit : ¬ (fldOf F.PRT_QRATE_MIN_RATE w ≠ 0 ∧ !decide (q / 8 ∈ [1, 2, 5, 6])
      ∨ d.fld F.PRT_QRATE_MIN_RATE (qi l q) < fldOf F.PRT_QRATE_MIN_RATE w ∧ (d.breached l ∨
        !d.commitsFit l ((d.commits l).filter (fun x => x.1 ≠ q) ++
            (if fldOf F.PRT_QRATE_MIN_RATE w = 0 then [] else [(q, fldOf F.PRT_QRATE_MIN_RATE w)]))
          (d.fld F.PRT_SCHED_VL7_RATE l) (d.fld F.PRT_SCHED_COLL_RATE l) (d.port l).order)) := by
    rintro (⟨hne, hbad⟩ | ⟨hlt, hno⟩)
    · simp [hvl hne] at hbad
    · obtain ⟨hwhole, hfit⟩ := hfits hlt
      have hne : fldOf F.PRT_QRATE_MIN_RATE w ≠ 0 := by omega
      rw [if_neg hne, hwhole, hfit] at hno
      simp at hno
  unfold Dev.wrQrate
  dsimp only
  rw [if_neg hadmit]
  set d1 := d.bRerate l [.maxOf q, .minOf q] (fun d => d.plainWrite .PRT_QRATE (qi l q) w)
  have hrate : Dev.AtPort l (QueueRegs l q) d d1 :=
    (Dev.AtPort.refl d).bRerate _ fun d hd => hd.wr (.inl ⟨rfl, rfl⟩) _
  have hentered : ∀ g ∈ RF.fields .PRT_QRATE, g.rf = .PRT_QRATE → d1.fld g (qi l q) = bitsOf w g.hi g.lo := fun g hg hr =>
    Dev.fld_bRerate (fun d => d.fld_plainWrite_qrate _ w hg hr) _ _ _
  have hown : ∀ {f : Fld}, f.rf = .PRT_QOWN → QueueRegs l q f.rf (qi l q) := fun hf => .inr ⟨hf, rfl⟩
  refine ⟨_, rfl, ((hrate.setFld F.PRT_QOWN_GRANTED (hown rfl) _).setFld F.PRT_QOWN_BREACHED (hown rfl) _).logs
    ((Dev.Logs.refl _).guaranteeMove _ _ _ _ _ _ _ _ _), fun g hg hr => ?_⟩
  have hne : ∀ (f : Fld) (d : Dev) (v : Nat), f.rf = .PRT_QOWN → (d.setFld f (qi l q) v).fld g (qi l q) = d.fld g (qi l q) :=
    fun f d v hf => congrArg (bitsOf · _ _) (Dev.rd_setFld_of_ne _ _ _ _ _ _ (by rw [hr, hf]; rintro ⟨⟨⟩, -⟩))
  rw [((Dev.Logs.refl _).guaranteeMove _ _ _ _ _ _ _ _ _).fld g _ (by rw [hr]; rfl), hne _ _ _ rfl, hne _ _ _ rfl]
  exact hentered g hg hr

/-- A minimum rate on a VL that has none is refused (R121, R133). -/
theorem Dev.wrQrate_refused {d : Dev} {l q : Nat} {w : Word} (hne : fldOf F.PRT_QRATE_MIN_RATE w ≠ 0) (hvl : q / 8 ∉ [1, 2, 5, 6]) :
    d.wrQrate l q w = d.rateRefused l (d.fld F.PRT_QOWN_PROD (qi l q)) := by
  unfold Dev.wrQrate
  exact if_pos (.inl ⟨hne, by simp [hvl]⟩)

/-! ## QRATE_WRITE and QOWN_WRITE -/

theorem laneData_of_lt {l : Nat} (h : l < 1024) : laneData l = l * 2 ^ 48 := by unfold laneData; rw [Nat.mod_eq_of_lt h]

/-- What a register-write command leaves where its operation changes registers and logs alone. -/
theorem only_of_logs {s : State} {a d : Dev} {may : RF → Nat → Prop} (hs : a.still = s.d.still)
    (hr : ∀ r i, ¬ may r i → a.rd r i = s.d.rd r i) (hl : a.Logs d) (o : Out) : Only id s { s with d := d.emitOut o } may := by
  refine ⟨⟨rfl, rfl⟩, ?_, fun r i hlog hm => ((Dev.rd_emitOut _ _ _ _).trans (hl.regs r i hlog)).trans (hr r i hm)⟩
  have e := congrArg Dev.still hl.still
  exact (show d.still = a.still from e).trans hs

section
variable {s : State} {m : Master} {port q : Nat} {w : Word} (hport : port < 1024) (hq : q < 64)
include hport hq

theorem exec_qrateWrite (h : Reaches s m .PRT_QRATE (qi port q) w) :
    exec (.qrateWrite m port q w) s = .next { s with d := (s.d.wrQrate port q w).emitOut (.reg 0 0) } := by
  show execQrateWrite m port q w s = _
  unfold execQrateWrite
  rw [decide_eq_true ⟨hport, hq⟩, ifUnit_true, onDev_eq, Dev.regRow_reaches h]

theorem exec_qownWrite (h : Reaches s m .PRT_QOWN (qi port q) w) :
    exec (.qownWrite m port q w) s = .next { s with d := (s.d.wrQown port q w).emitOut (.reg 0 0) } := by
  show execQownWrite m port q w s = _
  unfold execQownWrite
  rw [decide_eq_true ⟨hport, hq⟩, ifUnit_true, onDev_eq, Dev.regRow_reaches h]

/-- A rate that fits is committed (R121, R133). -/
theorem qrateWrite_fits (h : Reaches s m .PRT_QRATE (qi port q) w) (hfits : RateFits s port q w) :
    Completes (.qrateWrite m port q w) s (fun t => Answers t 0
      ∧ t.d.fld F.PRT_QRATE_MIN_RATE (qi port q) = bitsOf w 63 50 ∧ t.d.fld F.PRT_QRATE_MAX_RATE (qi port q) = bitsOf w 49 36
      ∧ t.d.fld F.PRT_QRATE_WEIGHT (qi port q) = bitsOf w 35 28 ∧ t.d.fld F.PRT_QRATE_BURST (qi port q) = bitsOf w 27 12
      ∧ t.d.fld F.PRT_SCHED_COMMITTED port = (s.d.fld F.PRT_SCHED_VL7_RATE port + s.d.fld F.PRT_SCHED_COLL_RATE port
          + (t.d.commits port).foldl (fun a x => a + x.2) 0) % 2 ^ 14
      ∧ PortOnly s t port (fun r i => r = .PRT_QRATE ∧ i = qi port q ∨ r = .PRT_QOWN ∧ i = qi port q ∨ r = .PRT_SCHED ∧ i = port)) := by
  unfold RateFits at hfits
  rw [qi_eq] at hfits
  obtain ⟨d1, hwr, hat, hfld⟩ := Dev.wrQrate_admitted (d := s.d) (l := port) (q := q) (w := w)
    (fun hne => (hfits.resolve_left hne).1) (fun hlt => by
      obtain ⟨-, hle | hfit⟩ := hfits.resolve_left (fun e => absurd (hlt.trans_eq e) (Nat.not_lt_zero _))
      · exact absurd hlt (Nat.not_lt.2 hle)
      · exact hfit)
  have hexec := exec_qrateWrite hport hq h
  rw [hwr] at hexec
  have hrate : ∀ g ∈ RF.fields .PRT_QRATE, g.rf = .PRT_QRATE →
      ((d1.recommit port).emitOut (.reg 0 0)).fld g (qi port q) = bitsOf w g.hi g.lo := fun g hg hr =>
    ((Dev.fld_emitOut _ _ _ _).trans (d1.fld_recommit_of_ne port (by rw [hr]; decide) _)).trans (hfld g hg hr)
  have hcommits : ((d1.recommit port).emitOut (.reg 0 0)).commits port = d1.commits port := Dev.commits_congr fun k =>
    (Dev.fld_emitOut _ _ _ _).trans (d1.fld_recommit_of_ne port (by decide) _)
  have hport' : Dev.AtPort port (fun r i => r = .PRT_QRATE ∧ i = qi port q ∨ r = .PRT_QOWN ∧ i = qi port q ∨ r = .PRT_SCHED ∧ i = port) s.d
      ((d1.recommit port).emitOut (.reg 0 0)) :=
    ((hat.mono fun _ _ => Or.imp_right .inl).setFld F.PRT_SCHED_COMMITTED (.inr (.inr ⟨rfl, rfl⟩)) _).emitOut _
  refine ⟨_, hexec, answers_emitOut rfl, hrate F.PRT_QRATE_MIN_RATE (by decide) rfl, hrate F.PRT_QRATE_MAX_RATE (by decide) rfl,
    hrate F.PRT_QRATE_WEIGHT (by decide) rfl, hrate F.PRT_QRATE_BURST (by decide) rfl, ?_, hport'.portOnly⟩
  have hsched : ∀ g : Fld, g.rf = .PRT_SCHED → d1.fld g port = s.d.fld g port := fun g hg =>
    hat.fld g port (by rw [hg]; rfl) (by rw [hg]; rintro (⟨⟨⟩, -⟩ | ⟨⟨⟩, -⟩))
  rw [hcommits, Dev.fld_emitOut, Dev.fld_recommit, hsched _ rfl, hsched _ rfl]

/-- A minimum rate on a VL that has none is refused with its notice (R121, R133). -/
theorem qrateWrite_refused (h : Reaches s m .PRT_QRATE (qi port q) w) (hne : bitsOf w 63 50 ≠ 0) (hvl : q / 8 ∉ [1, 2, 5, 6]) :
    Completes (.qrateWrite m port q w) s (fun t => Answers t 0
      ∧ t.d.fld F.PRT_SCHED_REFUSED port = min (s.d.fld F.PRT_SCHED_REFUSED port + 1) 255
      ∧ Only id s t (fun r i => r = .PRT_SCHED ∧ i = port)
      ∧ (Heard s → Raises s t 0x33 1 (s.d.fld F.PRT_QOWN_PROD (qi port q)) (port * 2 ^ 48))) := by
  have hexec := exec_qrateWrite hport hq h
  rw [Dev.wrQrate_refused hne hvl, Dev.rateRefused, laneData_of_lt hport] at hexec
  refine ⟨_, hexec, answers_emitOut rfl, ?_, only_of_logs (a := s.d.bumpSat F.PRT_SCHED_REFUSED port 1) rfl
    (fun r i hr => Dev.rd_setFld_of_ne _ _ _ _ _ _ hr) ((Dev.Logs.refl _).notice _ _ _ _) _,
    (Dev.Follows.wr s.d (by decide) (by decide) _ _).raises (Dev.Follows.of_regs rfl rfl rfl rfl)⟩
  rw [Dev.fld_emitOut, Dev.fld_notice _ _ _ _ _ rfl]
  exact (Dev.fld_setFld_self _ _ _ _ (by decide) (by decide)).trans (Nat.mod_eq_of_lt (by show min _ 255 < 256; omega))

/-- An owner changes while its queue has no minimum rate (R121). -/
theorem qownWrite_free (h : Reaches s m .PRT_QOWN (qi port q) w) (hmin : s.d.fld F.PRT_QRATE_MIN_RATE (qi port q) = 0) :
    Completes (.qownWrite m port q w) s (fun t => Answers t 0
      ∧ t.d.fld F.PRT_QOWN_PROD (qi port q) = bitsOf w 63 52 ∧ t.d.fld F.PRT_QOWN_TIER (qi port q) = bitsOf w 51 50
      ∧ Only id s t (fun r i => r = .PRT_QOWN ∧ i = qi port q)) := by
  have hwr : s.d.wrQown port q w = s.d.plainWrite .PRT_QOWN (qi port q) w := if_neg (not_not.2 hmin)
  have hexec := exec_qownWrite hport hq h
  rw [hwr] at hexec
  have hfld : ∀ g ∈ [F.PRT_QOWN_PROD, F.PRT_QOWN_TIER], g.rf = .PRT_QOWN →
      ((s.d.plainWrite .PRT_QOWN (qi port q) w).emitOut (.reg 0 0)).fld g (qi port q) = bitsOf w g.hi g.lo := fun g hg hr =>
    (Dev.fld_emitOut _ _ _ _).trans (s.d.fld_plainWrite_qown _ w hg hr)
  exact ⟨_, hexec, answers_emitOut rfl, hfld F.PRT_QOWN_PROD (by decide) rfl, hfld F.PRT_QOWN_TIER (by decide) rfl,
    only_of_logs (a := s.d.plainWrite .PRT_QOWN (qi port q) w) rfl (fun r i hr => Dev.rd_wr_of_ne _ _ _ _ _ _ hr) (Dev.Logs.refl _) _⟩

/-- An owner stays while its queue has a minimum rate, and the write raises RATE_REFUSED (R121). -/
theorem qownWrite_refused (h : Reaches s m .PRT_QOWN (qi port q) w) (hmin : s.d.fld F.PRT_QRATE_MIN_RATE (qi port q) ≠ 0) :
    Completes (.qownWrite m port q w) s (fun t => Answers t 0 ∧ Only id s t (fun _ _ => False)
      ∧ (Heard s → Raises s t 0x33 1 (s.d.fld F.PRT_QOWN_PROD (qi port q)) (port * 2 ^ 48))) := by
  have hwr : s.d.wrQown port q w = s.d.notice N.RATE_REFUSED Src.core (s.d.fld F.PRT_QOWN_PROD (qi port q)) (port * 2 ^ 48) := by
    rw [← laneData_of_lt hport]
    exact if_pos hmin
  have hexec := exec_qownWrite hport hq h
  rw [hwr] at hexec
  exact ⟨_, hexec, answers_emitOut rfl, only_of_logs rfl (fun _ _ _ => rfl) ((Dev.Logs.refl s.d).notice _ _ _ _) _,
    (Dev.Follows.refl s.d).raises (Dev.Follows.of_regs rfl rfl rfl rfl)⟩

end

end Sys2Proof.Machine
end

section
/-! What capacity that falls leaves of a port's commitments: shares by tier, and GRANTED of every queue (R134, R135). -/

namespace Sys2Proof.Machine
open Sys2Proof.Claims

/-! ## Shares -/

theorem foldl_snd_eq_sum (l : List (Nat × Nat)) : l.foldl (fun a x => a + x.2) 0 = (l.map (·.2)).sum := by
  rw [List.sum_eq_foldl, List.foldl_map]

theorem cutShare_of_fits {l : List (Nat × Nat)} {left den : Nat} (h : (l.map (·.2)).sum * den ≤ left) : cutShare l left den = l := by
  unfold cutShare
  exact if_pos (by rw [foldl_snd_eq_sum]; exact h)

/-- A share is no more than the commitment. -/
theorem le_of_mem_cutShare {l : List (Nat × Nat)} {left den k g : Nat} (h : (k, g) ∈ cutShare l left den) : ∃ c, (k, c) ∈ l ∧ g ≤ c := by
  unfold cutShare at h
  dsimp only at h
  split at h
  · exact ⟨g, h, le_refl g⟩
  · next hcut =>
    obtain ⟨⟨k', c⟩, hc, he⟩ := List.mem_map.1 h
    cases he
    exact ⟨c, hc, Nat.div_le_of_le_mul (by rw [Nat.mul_comm]; exact Nat.mul_le_mul_right c (Nat.le_of_not_le hcut))⟩

theorem exists_mem_cutShare {l : List (Nat × Nat)} {k c : Nat} (h : (k, c) ∈ l) (left den : Nat) : ∃ g, (k, g) ∈ cutShare l left den := by
  unfold cutShare
  dsimp only
  split
  · exact ⟨c, h⟩
  · exact ⟨_, List.mem_map.2 ⟨_, h, rfl⟩⟩

/-- Different classes of a list come to no more than the list. -/
theorem sum_filter_classes_le {α : Type} (f v : α → Nat) {ts : List Nat} (hts : ts.Nodup) (l : List α) :
    (ts.map fun t => ((l.filter (fun x => f x == t)).map v).sum).sum ≤ (l.map v).sum := by
  induction l with
  | nil => simp
  | cons x l ih =>
    have hone : (ts.map fun t => if t = f x then v x else 0).sum ≤ v x := by
      have hcount := List.nodup_iff_count_le_one.1 hts (f x)
      rw [List.sum_map_eq_nsmul_single (f x) _ fun t ht _ => if_neg ht, if_pos rfl, nsmul_eq_mul]
      exact (Nat.mul_le_mul_right _ hcount).trans_eq (Nat.one_mul _)
    have hstep : ∀ t, (((x :: l).filter (fun x => f x == t)).map v).sum
        = (if t = f x then v x else 0) + ((l.filter (fun x => f x == t)).map v).sum := fun t => by
      by_cases h : t = f x <;> simp [h, Ne.symm]
    simp only [hstep, List.sum_map_add, List.map_cons, List.sum_cons]
    exact Nat.add_le_add hone ih

/-! ## Tiers -/

/-- The minimum rates of a tier. -/
def Dev.ofTier (d : Dev) (l t : Nat) : List (Nat × Nat) := (d.commits l).filter (fun x => d.fld F.PRT_QOWN_TIER (qi l x.1) == t)

section
variable {d : Dev} {l den : Nat}

theorem Dev.grantTiers_cons (left t : Nat) (ts : List Nat) : d.grantTiers l den left (t :: ts) =
    cutShare (d.ofTier l t) left den ++ d.grantTiers l den (left - ((d.ofTier l t).map (·.2)).sum * den) ts := by
  rw [← foldl_snd_eq_sum]
  rfl

theorem Dev.le_of_mem_grantTiers {k g : Nat} {ts : List Nat} : ∀ {left : Nat}, (k, g) ∈ d.grantTiers l den left ts →
    ∃ c, (k, c) ∈ d.commits l ∧ g ≤ c := by
  induction ts with
  | nil => exact fun h => absurd h List.not_mem_nil
  | cons t ts ih =>
    intro left h
    rw [Dev.grantTiers_cons] at h
    rcases List.mem_append.1 h with h | h
    · obtain ⟨c, hc, hle⟩ := le_of_mem_cutShare h
      exact ⟨c, List.mem_of_mem_filter hc, hle⟩
    · exact ih h

theorem Dev.exists_mem_grantTiers {k c : Nat} (hc : (k, c) ∈ d.commits l) {ts : List Nat} : ∀ {left : Nat},
    d.fld F.PRT_QOWN_TIER (qi l k) ∈ ts → ∃ g, (k, g) ∈ d.grantTiers l den left ts := by
  induction ts with
  | nil => exact fun h => absurd h List.not_mem_nil
  | cons t ts ih =>
    intro left h
    rw [Dev.grantTiers_cons]
    rcases List.mem_cons.1 h with h | h
    · obtain ⟨g, hg⟩ := exists_mem_cutShare (l := d.ofTier l t) (List.mem_filter.2 ⟨hc, beq_iff_eq.2 h⟩) left den
      exact ⟨g, List.mem_append_left _ hg⟩
    · obtain ⟨g, hg⟩ := ih h
      exact ⟨g, List.mem_append_right _ hg⟩

/-- Where what is left carries the tiers whole, each minimum rate is granted whole. -/
theorem Dev.mem_commits_of_mem_grantTiers {k g : Nat} {ts : List Nat} : ∀ {left : Nat},
    (ts.map fun t => ((d.ofTier l t).map (·.2)).sum).sum * den ≤ left → (k, g) ∈ d.grantTiers l den left ts → (k, g) ∈ d.commits l := by
  induction ts with
  | nil => exact fun _ h => absurd h List.not_mem_nil
  | cons t ts ih =>
    intro left hfit h
    rw [List.map_cons, List.sum_cons, Nat.add_mul] at hfit
    rw [Dev.grantTiers_cons] at h
    rcases List.mem_append.1 h with h | h
    · rw [cutShare_of_fits (by omega)] at h
      exact List.mem_of_mem_filter h
    · exact ih (by omega) h

end

/-! ## What a port is granted -/

/-- What is granted of VL7_RATE. -/
def Dev.vl7Share (d : Dev) (l : Nat) : Nat :=
  if (d.port l).suspended ∨ (d.ltype l ≤ 1 ∧ d.fld F.PRT_PEER_LEVEL l < 2) then 0
  else min (d.fld F.PRT_SCHED_VL7_RATE l) ((d.admitCap l).1 / (d.admitCap l).2)

/-- What every committed minimum rate is granted, by queue. -/
def Dev.minShares (d : Dev) (l : Nat) : List (Nat × Nat) :=
  d.grantTiers l (d.admitCap l).2
    ((d.admitCap l).1 - d.vl7Share l * (d.admitCap l).2 - (d.port l).coll.foldl (fun a x => a + x.2) 0 * (d.admitCap l).2) [0, 1, 2, 3]

/-- One queue's grant is entered, and a breach or its end is told (R135). -/
def Dev.grantMin (l : Nat) (d : Dev) (x : Nat × Nat) : Dev :=
  let i := qi l x.1
  let c := d.fld F.PRT_QRATE_MIN_RATE i
  let was := d.fld F.PRT_QOWN_GRANTED i
  let d := (d.setFld F.PRT_QOWN_GRANTED i x.2).setFld F.PRT_QOWN_BREACHED i (bit (decide (x.2 < c)))
  d.guaranteeChange (d.fld F.PRT_QOWN_PROD i) 4 (d.fld F.PRT_QOWN_TIER i) 0 l was x.2 c

theorem Dev.vl7Share_le (d : Dev) (l : Nat) : d.vl7Share l ≤ d.fld F.PRT_SCHED_VL7_RATE l := by
  unfold Dev.vl7Share
  split
  · exact Nat.zero_le _
  · exact Nat.min_le_left _ _

/-- GRANTED is worked out for VL7 and collectives first, then for the queues one by one. -/
theorem Dev.recomputePort_shape (d : Dev) (l : Nat) : ∃ d1 : Dev, d.recomputePort l = d1.each (d.minShares l) (Dev.grantMin l)
    ∧ Dev.AtPort l (fun _ _ => False) d d1 ∧ (d1.port l).grVl7 = d.vl7Share l := by
  refine ⟨_, rfl, ?_, ?_⟩
  · exact (((Dev.AtPort.refl d).modPort _).logs ((Dev.Logs.refl _).guaranteeChange _ _ _ _ _ _ _ _)).each fun d x _ hd =>
      hd.logs ((Dev.Logs.refl d).guaranteeChange _ _ _ _ _ _ _ _)
  · have hport : ∀ {a b : Dev}, a.Logs b → (b.port l).grVl7 = (a.port l).grVl7 := fun h =>
      congrArg (fun n : Net => (n.ports.get {} l).grVl7) h.net
    rw [Dev.each_keeps (fun d => (d.port l).grVl7) _ fun d x => hport ((Dev.Logs.refl d).guaranteeChange _ _ _ _ _ _ _ _),
      hport ((Dev.Logs.refl _).guaranteeChange _ _ _ _ _ _ _ _), Dev.port_modPort, if_pos rfl]
    rfl

section
variable {d : Dev} {l : Nat}

theorem Dev.le_of_mem_minShares {k g : Nat} (h : (k, g) ∈ d.minShares l) : k < 64 ∧ g ≤ d.fld F.PRT_QRATE_MIN_RATE (qi l k) := by
  obtain ⟨c, hc, hle⟩ := Dev.le_of_mem_grantTiers h
  obtain ⟨hk, rfl, -⟩ := Dev.mem_commits.1 hc
  exact ⟨hk, hle⟩

theorem Dev.exists_mem_minShares {k : Nat} (hk : k < 64) (hmin : d.fld F.PRT_QRATE_MIN_RATE (qi l k) ≠ 0) : ∃ g, (k, g) ∈ d.minShares l := by
  have htier : d.fld F.PRT_QOWN_TIER (qi l k) < 4 := bitsOf_lt _ _ _
  exact Dev.exists_mem_grantTiers (Dev.mem_commits.2 ⟨hk, rfl, hmin⟩) (by simp; omega)

/-- Where the port's capacity carries all commitments, every minimum rate is granted whole. -/
theorem Dev.eq_of_mem_minShares {k g : Nat} (hfit : (d.fld F.PRT_SCHED_VL7_RATE l + ((d.port l).coll.map (·.2)).sum
      + ((d.commits l).map (·.2)).sum) * (d.admitCap l).2 ≤ (d.admitCap l).1)
    (h : (k, g) ∈ d.minShares l) : g = d.fld F.PRT_QRATE_MIN_RATE (qi l k) := by
  have htiers := Nat.mul_le_mul_right (d.admitCap l).2 (sum_filter_classes_le (fun x => d.fld F.PRT_QOWN_TIER (qi l x.1)) (·.2)
    (ts := [0, 1, 2, 3]) (by decide) (d.commits l))
  have hvl7 := Nat.mul_le_mul_right (d.admitCap l).2 (d.vl7Share_le l)
  rw [Nat.add_mul, Nat.add_mul] at hfit
  have hmem := Dev.mem_commits_of_mem_grantTiers (by rw [foldl_snd_eq_sum]; exact htiers.trans (by omega)) h
  exact (Dev.mem_commits.1 hmem).2.1

/-! ## Grants as the registers show them -/

/-- A queue's registers show a grant: its amount, and whether it falls short of the minimum rate. -/
def Dev.Granted (d : Dev) (l k g : Nat) : Prop :=
  d.fld F.PRT_QOWN_GRANTED (qi l k) = g % 2 ^ 14
  ∧ d.fld F.PRT_QOWN_BREACHED (qi l k) = bit (decide (g < d.fld F.PRT_QRATE_MIN_RATE (qi l k)))

theorem Dev.atPort_grantMin (d : Dev) (l : Nat) (x : Nat × Nat) :
    Dev.AtPort l (fun r i => r = .PRT_QOWN ∧ i = qi l x.1) d (d.grantMin l x) :=
  (((Dev.AtPort.refl d).setFld F.PRT_QOWN_GRANTED ⟨rfl, rfl⟩ _).setFld F.PRT_QOWN_BREACHED ⟨rfl, rfl⟩ _).logs
    ((Dev.Logs.refl _).guaranteeChange _ _ _ _ _ _ _ _)

theorem Dev.granted_grantMin (d : Dev) (l : Nat) (x : Nat × Nat) : (d.grantMin l x).Granted l x.1 x.2 := by
  have hlogs : ∀ {a b : Dev}, a.Logs b → ∀ f : Fld, f.rf = .PRT_QOWN → b.fld f (qi l x.1) = a.fld f (qi l x.1) := fun h f hf =>
    h.fld f _ (by rw [hf]; rfl)
  have hmin : (d.grantMin l x).fld F.PRT_QRATE_MIN_RATE (qi l x.1) = d.fld F.PRT_QRATE_MIN_RATE (qi l x.1) :=
    (d.atPort_grantMin l x).fld _ _ rfl (by rintro ⟨⟨⟩, -⟩)
  have hbit : ∀ b : Bool, bit b % 2 = bit b := by decide
  refine ⟨(hlogs ((Dev.Logs.refl _).guaranteeChange _ _ _ _ _ _ _ _) _ rfl).trans ?_,
    (hlogs ((Dev.Logs.refl _).guaranteeChange _ _ _ _ _ _ _ _) _ rfl).trans ?_⟩
  · rw [Dev.fld_setFld_of_ne _ _ _ _ _ _ (by decide) (by decide) (.inr (.inl (by decide)))]
    exact Dev.fld_setFld_self _ _ _ _ (by decide) (by decide)
  · rw [hmin]
    exact (Dev.fld_setFld_self _ _ _ _ (by decide) (by decide)).trans (hbit _)

/-- Another queue's grant leaves a queue's registers as they are. -/
theorem Dev.Granted.grantMin {k g : Nat} (h : d.Granted l k g) {x : Nat × Nat} (hk : k ≠ x.1) : (d.grantMin l x).Granted l k g := by
  have hkeep : ∀ f : Fld, f.rf.logging = false → (d.grantMin l x).fld f (qi l k) = d.fld f (qi l k) := fun f hf =>
    (d.atPort_grantMin l x).fld f _ hf fun e => hk (qi_inj e.2)
  unfold Dev.Granted
  rw [hkeep _ rfl, hkeep _ rfl, hkeep _ rfl]
  exact h

/-- A queue that grants name shows one of them: the last to be entered. -/
theorem Dev.granted_each {k c : Nat} {gs : List (Nat × Nat)} (h : (k, c) ∈ gs) :
    ∃ g, (k, g) ∈ gs ∧ (d.each gs (Dev.grantMin l)).Granted l k g := by
  induction gs using List.reverseRecOn with
  | nil => exact absurd h List.not_mem_nil
  | append_singleton gs x ih =>
    have hlast : d.each (gs ++ [x]) (Dev.grantMin l) = (d.each gs (Dev.grantMin l)).grantMin l x := List.foldl_concat _ _ _ _
    rw [hlast]
    by_cases hk : k = x.1
    · subst hk
      exact ⟨x.2, by simp, Dev.granted_grantMin _ _ _⟩
    · have hmem : (k, c) ∈ gs := (List.mem_append.1 h).resolve_right fun e => hk (congrArg Prod.fst (List.mem_singleton.1 e))
      obtain ⟨g, hg, hshown⟩ := ih hmem
      exact ⟨g, List.mem_append_left _ hg, hshown.grantMin hk⟩

end

/-! ## GRANTED_RECOMPUTE of a port -/

/-- What a port's recomputation leaves alone, and what it shows (R134, R135). -/
theorem Dev.recomputePort_grants (d : Dev) (l : Nat) : Dev.AtPort l (fun r i => r = .PRT_QOWN ∧ i / 64 = l) d (d.recomputePort l)
    ∧ ((d.recomputePort l).port l).grVl7 = d.vl7Share l
    ∧ ∀ k, k < 64 → d.fld F.PRT_QRATE_MIN_RATE (qi l k) ≠ 0 → ∃ g, (k, g) ∈ d.minShares l ∧ (d.recomputePort l).Granted l k g := by
  obtain ⟨d1, heq, hbefore, hvl7⟩ := d.recomputePort_shape l
  rw [heq]
  refine ⟨(hbefore.mono fun _ _ => False.elim).each fun d x hx hd => hd.trans ((d.atPort_grantMin l x).mono ?_), ?_, fun k hk hmin => ?_⟩
  · rintro r i ⟨rfl, rfl⟩
    have hlt := (Dev.le_of_mem_minShares hx).1
    exact ⟨rfl, by unfold qi; omega⟩
  · refine (Dev.each_keeps (fun d => (d.port l).grVl7) _ (fun d x => ?_) _ _).trans hvl7
    have hnet : (d.grantMin l x).net = d.net := ((Dev.Logs.refl _).guaranteeChange _ _ _ _ _ _ _ _).net
    exact congrArg (fun n : Net => (n.ports.get {} l).grVl7) hnet
  · obtain ⟨c, hc⟩ := Dev.exists_mem_minShares hk hmin
    exact Dev.granted_each hc

/-- What a port is granted when its capacity has changed (R134). -/
theorem grantedRecompute_port {s : State} {port : Nat} (hport : port < s.d.nLanes) :
    Completes (.grantedRecompute (.port port)) s (fun t =>
      PortOnly s t port (fun r i => r = .PRT_QOWN ∧ i / 64 = port)
      ∧ (t.d.port port).grVl7 ≤ s.d.fld F.PRT_SCHED_VL7_RATE port
      ∧ (∀ k, k < 64 → s.d.fld F.PRT_QRATE_MIN_RATE (qi port k) ≠ 0 →
          t.d.fld F.PRT_QOWN_GRANTED (qi port k) ≤ s.d.fld F.PRT_QRATE_MIN_RATE (qi port k)
          ∧ (t.d.fld F.PRT_QOWN_BREACHED (qi port k) = 1 ↔
              t.d.fld F.PRT_QOWN_GRANTED (qi port k) < s.d.fld F.PRT_QRATE_MIN_RATE (qi port k)))
      ∧ ((s.d.fld F.PRT_SCHED_VL7_RATE port + ((s.d.port port).coll.map (·.2)).sum + ((s.d.commits port).map (·.2)).sum)
            * (s.d.admitCap port).2 ≤ (s.d.admitCap port).1 →
          ∀ k, k < 64 → s.d.fld F.PRT_QRATE_MIN_RATE (qi port k) ≠ 0 →
            t.d.fld F.PRT_QOWN_GRANTED (qi port k) = s.d.fld F.PRT_QRATE_MIN_RATE (qi port k))) := by
  obtain ⟨hat, hvl7, hgrants⟩ := s.d.recomputePort_grants port
  have hexec : exec (.grantedRecompute (.port port)) s = .next { s with d := s.d.recomputePort port } := by
    show execGrantedRecompute (.port port) s = _
    unfold execGrantedRecompute
    dsimp only
    rw [decide_eq_true hport, ifUnit_true, onDev_eq]
  have hgrant : ∀ k, k < 64 → s.d.fld F.PRT_QRATE_MIN_RATE (qi port k) ≠ 0 →
      ∃ g, (k, g) ∈ s.d.minShares port ∧ g ≤ s.d.fld F.PRT_QRATE_MIN_RATE (qi port k)
        ∧ (s.d.recomputePort port).fld F.PRT_QOWN_GRANTED (qi port k) = g
        ∧ (s.d.recomputePort port).fld F.PRT_QOWN_BREACHED (qi port k) = bit (decide (g < s.d.fld F.PRT_QRATE_MIN_RATE (qi port k))) := by
    intro k hk hmin
    obtain ⟨g, hg, hamount, hshort⟩ := hgrants k hk hmin
    have hle := (Dev.le_of_mem_minShares hg).2
    have hwidth : s.d.fld F.PRT_QRATE_MIN_RATE (qi port k) < 2 ^ 14 := bitsOf_lt _ _ _
    rw [Nat.mod_eq_of_lt (hle.trans_lt hwidth)] at hamount
    rw [hat.fld F.PRT_QRATE_MIN_RATE _ rfl (by rintro ⟨⟨⟩, -⟩)] at hshort
    exact ⟨g, hg, hle, hamount, hshort⟩
  refine ⟨_, hexec, hat.portOnly, hvl7.trans_le (s.d.vl7Share_le port), fun k hk hmin => ?_, fun hfit k hk hmin => ?_⟩
  · obtain ⟨g, -, hle, hamount, hshort⟩ := hgrant k hk hmin
    rw [hamount, hshort]
    exact ⟨hle, by by_cases h : g < s.d.fld F.PRT_QRATE_MIN_RATE (qi port k) <;> simp [bit, h]⟩
  · obtain ⟨g, hg, -, hamount, -⟩ := hgrant k hk hmin
    exact hamount.trans (Dev.eq_of_mem_minShares hfit hg)

end Sys2Proof.Machine
end

section
/-! A Loom that carries what its images reserve (R134, R199), and the statement about rates, owners and grants. -/

namespace Sys2Proof.Machine
open Sys2Proof.Claims

/-! ## Reservations of a Loom -/

theorem Dev.Logs.looms {d d' : Dev} (h : d.Logs d') : d'.looms = d.looms := by have e := congrArg Dev.looms h.still; exact e

/-- What each production's images reserve of a Loom's rate. -/
def loomRates (l : List Image) : List (Nat × Nat) := ((l.map (·.prod)).dedup).map (fun p => (p, reserved l p Image.redRate))

/-- A value worked out for each key is found at its key. -/
theorem find?_map_pair {f : Nat → Nat} {p : Nat} {ps : List Nat} (h : p ∈ ps) :
    (ps.map (fun p => (p, f p))).find? (fun y => y.1 == p) = some (p, f p) := by
  induction ps with
  | nil => exact absurd h List.not_mem_nil
  | cons a ps ih =>
    rw [List.map_cons]
    by_cases ha : a = p
    · subst ha
      exact List.find?_cons_of_pos (beq_self_eq_true a)
    · rw [List.find?_cons_of_neg (by simpa using ha)]
      exact ih ((List.mem_cons.1 h).resolve_left fun e => ha e.symm)

theorem sum_loomRates (l : List Image) : ((loomRates l).map (·.2)).sum = reservedAll l Image.redRate := by
  unfold reservedAll loomRates
  rw [List.map_map, List.sum_eq_foldl, List.foldl_map]
  rfl

/-- A Loom that carries all reservations, with no image that lacks its engines, cuts no grant (R134). -/
theorem Dev.grants_recomputeLoom {d : Dev} {k : Nat} (hwhole : ∀ i ∈ (d.loom k).imgs, i.lack = false)
    (hfit : reservedAll (d.loom k).imgs Image.redRate * (d.loomCap k).2 ≤ (d.loomCap k).1) : ((d.recomputeLoom k).loom k).grants = [] := by
  have hcan : (d.loom k).imgs.filter (fun i => !i.lack) = (d.loom k).imgs := List.filter_eq_self.2 fun i hi => by simp [hwhole i hi]
  have hcut : cutShare (loomRates (d.loom k).imgs) (d.loomCap k).1 (d.loomCap k).2 = loomRates (d.loom k).imgs :=
    cutShare_of_fits (by rw [sum_loomRates]; exact hfit)
  unfold Dev.recomputeLoom
  dsimp only
  rw [Dev.each_keeps (fun d => (d.loom k).grants) _ fun d q => congrArg (fun m : NMap Loom => (m.get {} k).grants) ?_]
  · rw [hcan]
    unfold Dev.modLoom
    rw [Dev.loom_setLoom, if_pos rfl]
    refine List.foldlRecOn (motive := (· = [])) _ _ rfl fun a ha q hq => ?_
    subst ha
    obtain ⟨x, hx, rfl⟩ := List.mem_map.1 hq
    obtain ⟨y, hy, rfl⟩ := List.mem_map.1 hx
    obtain ⟨p, hp, rfl⟩ := List.mem_map.1 hy
    have hfind := find?_map_pair (f := fun p => reserved (d.loom k).imgs p Image.redRate) hp
    refine if_neg (Nat.not_lt.2 ?_)
    change _ ≤ min _ (((cutShare (loomRates (d.loom k).imgs) (d.loomCap k).1 (d.loomCap k).2).find? fun y => y.1 == p).elim 0 (·.2))
    rw [hcut]
    unfold loomRates
    dsimp only
    rw [hfind]
    exact le_min (le_refl _) (le_refl _)
  · have hguarantee : ∀ t g c, (d.guarantee t q.1 3 0 1 k g c).looms = d.looms := fun _ _ _ =>
      ((Dev.Logs.refl d).noticeLim _ _ _ _ _).looms
    split
    · exact hguarantee _ _ _
    · split
      · exact hguarantee _ _ _
      · rfl

theorem grantedRecompute_loom {s : State} {k : Nat} (hk : k < 4) (hwhole : ∀ i ∈ (s.d.loom k).imgs, i.lack = false)
    (hfit : reservedAll (s.d.loom k).imgs Image.redRate * (s.d.loomCap k).2 ≤ (s.d.loomCap k).1) :
    Completes (.grantedRecompute (.loom k)) s (fun t => Rest s t ∧ (t.d.loom k).grants = []) := by
  have hexec : exec (.grantedRecompute (.loom k)) s = .next { s with d := s.d.recomputeLoom k } := by
    show execGrantedRecompute (.loom k) s = _
    unfold execGrantedRecompute
    dsimp only
    rw [decide_eq_true hk, ifUnit_true, onDev_eq]
  exact ⟨_, hexec, ⟨rfl, rfl⟩, Dev.grants_recomputeLoom hwhole hfit⟩

end Sys2Proof.Machine

namespace Sys2Proof.Claims
open Sys2Proof.Machine

/-- Settles O33: a write that is admitted enters its word and the port's sum follows, a refused one changes REFUSED and the log alone;
after a recomputation each queue shows the share that its tier left it, and a capacity that carries all commitments cuts none. -/
theorem ratesAndGrants : Obligations.RatesAndGrants := by
  intro s m port q w hport hq
  simp only [qi_eq]
  exact ⟨fun h => ⟨qrateWrite_fits hport hq h, qrateWrite_refused hport hq h⟩,
    fun h => ⟨qownWrite_free hport hq h, qownWrite_refused hport hq h⟩, grantedRecompute_port, fun k hk => grantedRecompute_loom hk⟩

end Sys2Proof.Claims
end

section
/-! A Loom as its packets find it (R141, R145, R200, R202): the binding that accepts a packet, the checks at entry, and what the
taking of a packet leaves alone. -/

namespace Sys2Proof.Machine
open Sys2Proof.Claims

/-! ## The binding that a packet finds -/

theorem atLoom_of_atFn {s : State} {p : Pkt} {k vl opc : Nat} (h : AtFn s p (0x10 + k) vl opc) (hk : k < 4) :
    s.d.atLoom p.id opc = some (k, p) := by
  have hfn : 0x10 ≤ 0x10 + k ∧ 0x10 + k ≤ 0x13 ∧ p.opc = opc ∧ p.whole = true := ⟨by omega, by omega, h.opc, h.whole⟩
  unfold Dev.atLoom
  rw [pkt_of_atFn h]
  simp only [h.place]
  rw [if_pos hfn, Nat.add_sub_cancel_left]

/-- A group that is VALID has no cast entry in error, so its lookup notes nothing (R89). -/
theorem Dev.meetCast_of_valid {d : Dev} {ens : Bool} {g : Nat} (h : d.groupValid ens g = true) : d.meetCast ens g = d := by
  cases ens with
  | true => rfl
  | false =>
    have hcast : (d.ent 4 g).isSome = true ∧ d.badParity 4 g = false := by simpa [Dev.groupValid] using h
    obtain ⟨e, he⟩ := Option.isSome_iff_exists.1 hcast.1
    have hlook : d.look 4 g = (some e, d) := by simp [Dev.look, he, hcast.2]
    exact congrArg Prod.snd hlook

section
variable {d : Dev} {k dir : Nat} {p : Pkt} {i : Image} {b : Bind} {c : Chan}

theorem Dev.accepts_some (h : d.accepts k p dir = some (i, b, c)) :
    d.groupValid p.cEns p.cGroup = true ∧ d.bind k p.prod p.cEns p.cGroup = some b := by
  unfold Dev.accepts at h
  split at h
  · next hbind =>
    split at h
    · obtain ⟨hok, hsome⟩ := Option.ite_none_right_eq_some.1 h
      simp only [Bool.and_eq_true] at hok
      cases hsome
      exact ⟨hok.1.1.1, hbind⟩
    · cases h
  · cases h

theorem Dev.meetCast_of_accepts (h : d.accepts k p dir = some (i, b, c)) : d.meetCast p.cEns p.cGroup = d :=
  Dev.meetCast_of_valid (Dev.accepts_some h).1

end

theorem Dev.is_of_bind {d : Dev} {k prod g : Nat} {ens : Bool} {b : Bind} (h : d.bind k prod ens g = some b) : b.is prod ens g = true :=
  List.find?_some (p := fun b : Bind => b.is prod ens g) h

theorem Dev.bind_is {d : Dev} {k prod g : Nat} {ens : Bool} {b : Bind} (h : d.bind k prod ens g = some b) :
    b.prod = prod ∧ b.ens = ens ∧ b.group = g := by
  simpa [Bind.is, and_assoc] using Dev.is_of_bind h

/-- A binding that changes, but for what names it, is found as it has become. -/
theorem Dev.bind_modBind {d : Dev} {k prod g : Nat} {ens : Bool} {b : Bind} {f : Bind → Bind} (h : d.bind k prod ens g = some b)
    (hf : ∀ b, (f b).is prod ens g = b.is prod ens g) : (d.modBind k prod ens g f).bind k prod ens g = some (f b) := by
  have hb := Dev.is_of_bind h
  have hsame : (fun x : Bind => (if x.is prod ens g then f x else x).is prod ens g) = fun x => x.is prod ens g := by
    funext x
    split
    · exact hf x
    · rfl
  unfold Dev.bind at h ⊢
  unfold Dev.modBind Dev.modLoom
  rw [Dev.loom_setLoom, if_pos rfl, List.find?_map, Function.comp_def, hsame, h]
  simp [hb]

/-! ## What an operation on one Loom leaves alone -/

theorem Dev.bind_of_looms {d d' : Dev} (h : d'.looms = d.looms) (k prod : Nat) (ens : Bool) (g : Nat) :
    d'.bind k prod ens g = d.bind k prod ens g := by
  unfold Dev.bind Dev.loom
  rw [h]

/-- A change of a Loom that leaves its bindings. -/
theorem Dev.bind_modLoom (d : Dev) (k j prod : Nat) (ens : Bool) (g : Nat) {f : Loom → Loom} (hf : ∀ x, (f x).binds = x.binds) :
    (d.modLoom k f).bind j prod ens g = d.bind j prod ens g := by
  unfold Dev.bind Dev.modLoom
  rw [Dev.loom_setLoom]
  split
  · next hj => rw [hf, hj]
  · rfl

/-- `d'` is `d` but for Loom `k`, packets, and the registers that the packet path writes. -/
structure Dev.Weaves (k : Nat) (d d' : Dev) : Prop where
  others : ∀ j, j ≠ k → d'.loom j = d.loom j
  still : noLoom d'.still = noLoom d.still
  regs : ∀ r i, r.busy = false → d'.rd r i = d.rd r i

namespace Dev.Weaves
variable {k : Nat} {a d d' : Dev}

theorem refl (d : Dev) : d.Weaves k d := ⟨fun _ _ => rfl, rfl, fun _ _ _ => rfl⟩

theorem modLoom (h : a.Weaves k d) (f : Loom → Loom) : a.Weaves k (d.modLoom k f) where
  others j hj := by
    unfold Dev.modLoom
    rw [Dev.loom_setLoom, if_neg hj]
    exact h.others j hj
  still := h.still
  regs r i hr := (Dev.rd_setLoom _ _ _ _ _).trans (h.regs r i hr)

theorem soft (h : a.Weaves k d) (hs : d.Soft d') : a.Weaves k d' where
  others j hj := by
    refine Eq.trans ?_ (h.others j hj)
    unfold Dev.loom
    rw [hs.looms]
  still := by
    have e := congrArg (fun d : Dev => noLoom d.still) hs.hard
    have e' : noLoom d'.still = noLoom d.still := by
      have hout := hs.out
      exact e
    exact e'.trans h.still
  regs r i hr := (hs.regs r i hr).trans (h.regs r i hr)

end Dev.Weaves

section
variable {s : State} {p : Pkt} {k : Nat} {b' : Bind} {d : Dev}

theorem binds_of_weaves (hw : s.d.Weaves k d) (hb : d.bind k p.prod p.cEns p.cGroup = some b') : Binds s { s with d := d } p k b' where
  rest := ⟨rfl, rfl⟩
  bind := hb
  others := hw.others
  frame := ⟨⟨rfl, rfl⟩, hw.still, fun r i _ hr => hw.regs r i (Bool.eq_false_iff.2 hr)⟩

/-- A packet that has been taken ends, and what it changed at its binding stands. -/
theorem taken_endPkt {fn vl opc : Nat} (h : AtFn s p fn vl opc) (hn : d.net = s.d.net) (hw : s.d.Weaves k d)
    (hb : d.bind k p.prod p.cEns p.cGroup = some b') :
    (d.endPkt p.id).net.pkts = [] ∧ (d.endPkt p.id).net.outbox = [] ∧ Binds s { s with d := d.endPkt p.id } p k b' := by
  have hend : d.Soft (d.endPkt p.id) := (Dev.Soft.refl d).endPkt p.id
  have hat := atFn_of_net h hn
  exact ⟨pkts_endPkt_of_atFn hat, outbox_endPkt_of_atFn hat,
    binds_of_weaves (hw.soft hend) ((Dev.bind_of_looms hend.looms _ _ _ _).trans hb)⟩

end

/-! ## Checks at entry (R145) -/

theorem memberIs_of_groupCa {s : State} {p : Pkt} (hmem : s.d.groupCa s.mem p.cEns p.cGroup p.cMember = some p.src.toNat) :
    s.d.memberIs s.mem p = true := by
  unfold Dev.memberIs
  rw [hmem]
  exact beq_self_eq_true _

section
variable {s : State} {p : Pkt} {k opc : Nat} {i : Image} {b : Bind} {c : Chan} (h : AtLoom s p k 0 opc i b c)
include h

/-- A packet of the op in progress passes. -/
theorem collEntry_inOp {e : BitVec 512} {tile : Nat} (hin : InOp s p b e tile) (ht : (if opc = 0x30 then p.cWord else 0) = tile)
    (f : Image → Bind → Chan → BitVec 512 → Dev) : s.d.collEntry s.mem k p f = f i b c e := by
  have hexp : expects e (if p.opc = 0x30 then p.cWord else 0) p.cMember = true := by
    rw [h.here.opc, ht]
    exact hin.expected
  simp [Dev.collEntry, Dev.meetCast_of_accepts h.accepts, h.accepts, memberIs_of_groupCa hin.sender, hin.op, hin.cur, hexp]

/-- A member's packet for another op is outside the window of op CUR. -/
theorem collEntry_window (hmem : s.d.groupCa s.mem p.cEns p.cGroup p.cMember = some p.src.toNat) (hcur : b.cur ≠ p.cSeq)
    (f : Image → Bind → Chan → BitVec 512 → Dev) : s.d.collEntry s.mem k p f = s.d.refuseWindow k p b.cur := by
  simp only [Dev.collEntry, Dev.meetCast_of_accepts h.accepts, h.accepts, memberIs_of_groupCa hmem, beq_eq_false_iff_ne.2 hcur]
  cases b.desc <;> simp

end

end Sys2Proof.Machine
end

section
/-! Packets that a Loom makes (R59, R102, R143, R145, R146): their fields, and how they come to be sent. -/

namespace Sys2Proof.Machine
open Sys2Proof.Claims

/-! ## Fields of the head payload -/

/-- A field past the route word is read from the payload after it. -/
theorem Pkt.at_of_pay (p : Pkt) {off n : Nat} (h4 : 4 ≤ off) (hn : 1 ≤ n) (h : off + n ≤ 44) :
    p.at off n = p.pay.toNat / 2 ^ (8 * (44 - off - n)) % 2 ^ (8 * n) := by
  have hlo : 352 - 8 * (off + n) = 8 * (44 - off - n) := by omega
  have hwidth : 351 - 8 * off - 8 * (44 - off - n) + 1 = 8 * n := by omega
  unfold Pkt.at
  rw [bitsOf_append _ _ (by omega) (by omega), hlo]
  unfold bitsOf
  rw [hwidth, Nat.shiftRight_eq_div_pow]

/-- A packet of the device's own that nothing answers, whatever becomes of it: on VL4, and without a PSN. -/
structure Pkt.Closing (p : Pkt) : Prop where
  internal : p.internal = true
  vl : p.vl = 4
  plain : p.psnValid = false

theorem answerContrib_fields (p : Pkt) {status : Nat} (hs : status < 16) (reason count src : Nat) :
    (answerContrib p status reason count src).opc = 0x43 ∧ (answerContrib p status reason count src).dst = p.src
      ∧ (answerContrib p status reason count src).status = status := by
  refine ⟨mkHdr_opc _ _ _ _ _ _ _, mkHdr_dst _ _ _ _ _ _ _, ?_⟩
  show bitsOf (BitVec.ofNat 32 (status * 2 ^ 20 + 24)) 23 20 = status
  rw [bitsOf_ofNat (by omega), Nat.shiftRight_eq_div_pow]
  omega

/-- Nothing answers a SEND.STATUS of the Loom's own. -/
theorem answerContrib_closing (p : Pkt) {status : Nat} (hs : status < 16) (reason count src : Nat) :
    (answerContrib p status reason count src).Closing where
  internal := decide_eq_true (Nat.le_add_right 1024 src)
  vl := rfl
  plain := by
    show (BitVec.ofNat 32 (status * 2 ^ 20 + 24)).getLsbD 30 = false
    rw [BitVec.getLsbD_ofNat, Nat.testBit_lt_two_pow (by omega), Bool.and_false]

section
variable (d : Dev) (k dst prod gen opc vl status : Nat) (ens : Bool) (group opseq member low w12 : Nat) (data : List Byte)

theorem Dev.collPkt_hdr : (d.collPkt k dst prod gen opc vl status ens group opseq member low w12 data).opc = opc % 256
    ∧ (d.collPkt k dst prod gen opc vl status ens group opseq member low w12 data).dst = BitVec.ofNat 32 dst :=
  ⟨mkHdr_opc _ _ _ _ _ _ _, mkHdr_dst _ _ _ _ _ _ _⟩

theorem Dev.collPkt_pay : (d.collPkt k dst prod gen opc vl status ens group opseq member low w12 data).pay.toNat
    = (bit ens * 2 ^ 15 + group) % 2 ^ 16 * 2 ^ 304 + opseq % 2 ^ 16 * 2 ^ 288
      + (member % 2 ^ 18 * 2 ^ 14 + low % 2 ^ 14) % 2 ^ 32 * 2 ^ 256 + w12 % 2 ^ 32 * 2 ^ 224 + bytesAt data 0 28 := by
  have hdata : bytesAt data 0 28 < 2 ^ 224 := (bytesAt_lt data 0 28).trans_eq (by rw [show 224 = 8 * 28 by rfl, Nat.pow_mul])
  show (mkPay _).toNat = _
  unfold mkPay
  simp only [List.foldl_cons, List.foldl_nil, BitVec.toNat_ofNat]
  omega

/-- OPSEQ, MEMBER and the word at offset 12 are where R143 puts them. -/
theorem Dev.collPkt_at : (d.collPkt k dst prod gen opc vl status ens group opseq member low w12 data).at 6 2 = opseq % 65536
    ∧ (d.collPkt k dst prod gen opc vl status ens group opseq member low w12 data).at 8 4 / 2 ^ 14 = member % 2 ^ 18
    ∧ (d.collPkt k dst prod gen opc vl status ens group opseq member low w12 data).at 12 4 = w12 % 2 ^ 32 := by
  have hdata : bytesAt data 0 28 < 2 ^ 224 := (bytesAt_lt data 0 28).trans_eq (by rw [show 224 = 8 * 28 by rfl, Nat.pow_mul])
  have hpay := d.collPkt_pay k dst prod gen opc vl status ens group opseq member low w12 data
  rw [Pkt.at_of_pay _ (by omega) (by omega) (by omega), Pkt.at_of_pay _ (by omega) (by omega) (by omega),
    Pkt.at_of_pay _ (by omega) (by omega) (by omega), hpay]
  omega

end

/-! ## How packets come to be sent -/

/-- The end of a packet leaves what the device has made. -/
theorem Dev.outbox_endPkt (d : Dev) (id : Nat) : (d.endPkt id).net.outbox = d.net.outbox := by
  cases h : d.pkt id with
  | none => unfold Dev.endPkt; rw [h]
  | some p =>
    have e := congrArg (fun d : Dev => d.net.outbox) (Dev.Frees.endPkt h).still
    exact e

theorem Dev.pkts_endPkt_of_only {d : Dev} {p : Pkt} (h : d.net.pkts = [p]) : (d.endPkt p.id).net.pkts = [] := by
  have e := congrArg (fun d : Dev => d.net.pkts) (Dev.Frees.endPkt (Dev.pkt_of_single h)).still
  refine e.trans ?_
  show d.net.pkts.filter _ = []
  rw [h]
  simp

/-- A packet that ends frees its cells, and of the registers only USED of productions changes. -/
theorem Dev.rd_endPkt (d : Dev) (id : Nat) {r : RF} (hr : r ≠ .WRD_PROD) (i : Nat) : (d.endPkt id).rd r i = d.rd r i := by
  cases h : d.pkt id with
  | none => unfold Dev.endPkt; rw [h]
  | some p =>
    have hc : r.counted = false := by simpa [RF.counted] using hr
    exact ((Dev.Frees.endPkt h).regs r i hc).trans (Dev.rd_dropPkt _ _ _ _)

theorem Dev.fld_endPkt (d : Dev) (id : Nat) {f : Fld} (hf : f.rf ≠ .WRD_PROD) (i : Nat) : (d.endPkt id).fld f i = d.fld f i :=
  congrArg (bitsOf · _ _) (d.rd_endPkt id hf i)

theorem Dev.Logs.meetCast {a d : Dev} (h : a.Logs d) (ens : Bool) (g : Nat) : a.Logs (d.meetCast ens g) := by
  unfold Dev.meetCast
  split
  · exact h
  · unfold Dev.look Dev.noteParity
    split
    · exact h
    · split
      · exact (h.count _ _ _).noticeLim _ _ _ _ _
      · exact h

namespace Dev.Soft
variable {a d d' : Dev}

theorem meetCast (h : a.Soft d) (ens : Bool) (g : Nat) : a.Soft (d.meetCast ens g) := by
  unfold Dev.meetCast
  split
  · exact h
  · exact h.look _ _

theorem carveReadCount (h : a.Soft d) (pair off n : Nat) : a.Soft (d.carveReadCount pair off n) := by
  refine h.whenSome _ fun k => ?_
  exact ((h.when _ (h.countStack _ _ _)).countStack _ _ _).countEv _ _ _ _

theorem readMember (h : a.Soft d) (ens : Bool) (g i : Nat) : a.Soft (d.readMember ens g i) := by
  unfold Dev.readMember
  split
  · exact h.carveReadCount _ _ _
  · exact h

theorem sendShared (h : a.Soft d) (m : Mem) (ens : Bool) (g : Nat) (to_ : List Nat) (mk : Nat → Nat → Pkt) :
    a.Soft (d.sendShared m ens g to_ mk) := by
  have hread := (h.meetCast ens g).each to_ (f := fun d i => d.readMember ens g i) fun _ _ i hb => hb.readMember ens g i
  unfold Dev.sendShared
  dsimp only
  split
  · exact hread
  · exact (hread.addBuf _).setOutbox _

theorem refuseColl (h : a.Soft d) (p : Pkt) (status reason : Nat) : a.Soft (d.refuseColl p status reason) := by
  unfold Dev.refuseColl
  dsimp only
  split
  · exact h.endPkt _
  · exact (h.send _).endPkt _

theorem refuseDenied (h : a.Soft d) (k : Nat) (p : Pkt) (reason : Nat) : a.Soft (d.refuseDenied k p reason) :=
  ((h.countLoom _ _ _).noticeLim _ _ _ _ _).refuseColl _ _ _

theorem refuseShape (h : a.Soft d) (k : Nat) (p : Pkt) : a.Soft (d.refuseShape k p) := (h.noticeLim _ _ _ _ _).refuseColl _ _ _

theorem refuseWindow (h : a.Soft d) (k : Nat) (p : Pkt) (cur : Nat) : a.Soft (d.refuseWindow k p cur) :=
  (h.countLoom _ _ _).refuseColl _ _ _

end Dev.Soft

/-! ## What a group's members are read from (R136, R139) -/

/-- `d'` has what the members of a group are read from as `d` has it. -/
structure Dev.KeepsGroups (d d' : Dev) : Prop where
  tab : d'.tab = d.tab
  ecc : d'.ecc = d.ecc
  rebuilding : d'.rebuilding = d.rebuilding
  regs : ∀ r i, r.busy = false → d'.rd r i = d.rd r i

theorem Dev.Soft.keepsGroups {d d' : Dev} (h : d.Soft d') : d.KeepsGroups d' where
  tab := h.tab
  ecc := by have e := congrArg Dev.ecc h.hard; exact e
  rebuilding := by have e := congrArg Dev.rebuilding h.hard; exact e
  regs := h.regs

namespace Dev.KeepsGroups
variable {d d' : Dev}

theorem trans {a : Dev} (h : a.KeepsGroups d) (h' : d.KeepsGroups d') : a.KeepsGroups d' :=
  ⟨h'.tab.trans h.tab, h'.ecc.trans h.ecc, h'.rebuilding.trans h.rebuilding, fun r i hr => (h'.regs r i hr).trans (h.regs r i hr)⟩

theorem modLoom (d : Dev) (k : Nat) (f : Loom → Loom) : d.KeepsGroups (d.modLoom k f) :=
  ⟨rfl, rfl, rfl, fun _ _ _ => Dev.rd_setLoom _ _ _ _ _⟩

theorem ent (h : d.KeepsGroups d') (t i : Nat) : d'.ent t i = d.ent t i := Dev.ent_of_tab h.tab t i

theorem fld (h : d.KeepsGroups d') (f : Fld) (hf : f.rf.busy = false) (i : Nat) : d'.fld f i = d.fld f i :=
  congrArg (bitsOf · _ _) (h.regs _ _ hf)

theorem flag (h : d.KeepsGroups d') (f : Fld) (hf : f.rf.busy = false) (i : Nat) : d'.flag f i = d.flag f i := by
  unfold Dev.flag
  rw [h.fld f hf]

theorem badParity (h : d.KeepsGroups d') (t i : Nat) : d'.badParity t i = d.badParity t i := by
  unfold Dev.badParity
  rw [h.tab]

theorem groupValid (h : d.KeepsGroups d') (ens : Bool) (g : Nat) : d'.groupValid ens g = d.groupValid ens g := by
  unfold Dev.groupValid
  rw [h.flag _ rfl, h.ent, h.badParity]

theorem groupCount (h : d.KeepsGroups d') (ens : Bool) (g : Nat) : d'.groupCount ens g = d.groupCount ens g := by
  unfold Dev.groupCount
  rw [h.flag _ rfl, h.regs .TBL_ENS_A _ rfl, h.regs .TBL_ENS_B _ rfl, h.ent]

theorem carveRead (h : d.KeepsGroups d') (m : Mem) (pair off n : Nat) : d'.carveRead m pair off n = d.carveRead m pair off n := by
  have hserves : (fun k => d'.stackUp k && !d'.eccAt (carveAt k off) n) = fun k => d.stackUp k && !d.eccAt (carveAt k off) n := by
    funext k
    unfold Dev.stackUp Dev.siteUp Dev.eccAt
    rw [Dev.site_congr (h.regs _ _ rfl), h.rebuilding, h.ecc]
  unfold Dev.carveRead Dev.carveStack
  rw [hserves]

theorem lookup (h : d.KeepsGroups d') (t i : Nat) : (d'.look t i).1 = (d.look t i).1 := by
  unfold Dev.look
  rw [h.ent, h.badParity]
  split
  · rfl
  · split <;> rfl

theorem groupCa (h : d.KeepsGroups d') (m : Mem) (ens : Bool) (g i : Nat) : d'.groupCa m ens g i = d.groupCa m ens g i := by
  unfold Dev.groupCa Dev.castMember
  rw [h.groupCount, h.regs .TBL_ENS_A _ rfl, h.regs .TBL_ENS_B _ rfl, h.lookup]
  simp only [h.carveRead]

end Dev.KeepsGroups

/-- A refusal answers what it refuses with SEND.STATUS, but for ARRIVE. -/
theorem Dev.mem_outbox_refuseColl (d : Dev) {p : Pkt} (hp : p.opc ≠ 0x32) (status reason : Nat) :
    answerContrib p status reason 0 0 ∈ (d.refuseColl p status reason).net.outbox := by
  unfold Dev.refuseColl
  dsimp only
  rw [if_neg hp, Dev.outbox_endPkt]
  exact d.mem_outbox_send _

/-- A packet with the buffer that it shares with its copies. -/
def Pkt.inBuf (p : Pkt) (n : Nat) : Pkt := { p with buf := n }

/-- A member that the group has is sent its copy. -/
theorem Dev.mem_outbox_sendShared {d : Dev} {m : Mem} {ens : Bool} {g i ca : Nat} {to_ : List Nat} (hi : i ∈ to_)
    (hca : d.groupCa m ens g i = some ca) (mk : Nat → Nat → Pkt) :
    ∃ n, (mk ca i).inBuf n ∈ (d.sendShared m ens g to_ mk).net.outbox := by
  have hsoft : d.Soft ((d.meetCast ens g).each to_ (fun d i => d.readMember ens g i)) :=
    ((Dev.Soft.refl d).meetCast ens g).each to_ fun _ _ i hb => hb.readMember ens g i
  have hmem : mk ca i ∈ to_.filterMap (fun i => (((d.meetCast ens g).each to_ (fun d i => d.readMember ens g i)).groupCa m ens g i).map
      (fun ca => mk ca i)) :=
    List.mem_filterMap.2 ⟨i, hi, by rw [hsoft.keepsGroups.groupCa, hca]; rfl⟩
  unfold Dev.sendShared
  dsimp only
  split
  · next hnil =>
    rw [hnil] at hmem
    cases hmem
  · next hcons =>
    rw [hcons] at hmem ⊢
    exact ⟨_, List.mem_append_right _ (List.mem_map_of_mem hmem)⟩

end Sys2Proof.Machine
end

section
/-! CONTRIB, A2A.ROWS and ARRIVE at a Loom (R144 to R150), and what comes from the stage above (R147, R148, R201). -/

namespace Sys2Proof.Machine
open Sys2Proof.Claims

/-! ## What the slots of a binding leave alone -/

/-- `d'` is `d` but for Loom `k`, its bindings apart, and what counting and logging write. -/
structure Dev.Tiled (k : Nat) (d d' : Dev) : Prop where
  net : d'.net = d.net
  weaves : d.Weaves k d'
  bind : ∀ j prod ens g, d'.bind j prod ens g = d.bind j prod ens g

namespace Dev.Tiled
variable {k : Nat} {a d d' : Dev}

theorem refl (d : Dev) : d.Tiled k d := ⟨rfl, Dev.Weaves.refl d, fun _ _ _ _ => rfl⟩

theorem logs (h : a.Tiled k d) (hl : d.Logs d') : a.Tiled k d' :=
  ⟨hl.net.trans h.net, h.weaves.soft (Dev.SamePkts.of_logs hl).soft,
    fun j prod ens g => (Dev.bind_of_looms hl.looms j prod ens g).trans (h.bind j prod ens g)⟩

theorem modLoom (h : a.Tiled k d) {f : Loom → Loom} (hf : ∀ x, (f x).binds = x.binds) : a.Tiled k (d.modLoom k f) :=
  ⟨h.net, h.weaves.modLoom f, fun j prod ens g => (d.bind_modLoom k j prod ens g hf).trans (h.bind j prod ens g)⟩

theorem tileWrite (h : a.Tiled k d) (i : Image) (n : Nat) (bs : List Byte) : a.Tiled k (d.tileWrite k i n bs) := h.modLoom fun _ => rfl
theorem tileJunk (h : a.Tiled k d) (i : Image) (n m : Nat) : a.Tiled k (d.tileJunk k i n m) := h.modLoom fun _ => rfl
theorem writeHeader (h : a.Tiled k d) (i : Image) (c : Chan) (x : Area) : a.Tiled k (d.writeHeader k i c x) := h.tileWrite _ _ _

theorem ite {q : Prop} [Decidable q] {d₁ d₂ : Dev} (h₁ : a.Tiled k d₁) (h₂ : a.Tiled k d₂) : a.Tiled k (if q then d₁ else d₂) := by
  split
  · exact h₁
  · exact h₂

end Dev.Tiled

theorem Dev.logs_countMx (d : Dev) (k : Nat) (a : Area) (i : Nat) : d.Logs (d.countMx k a i) := by
  unfold Dev.countMx
  split
  · unfold Dev.countMxTile
    dsimp only
    split
    · exact ((Dev.Logs.refl d).count _ _ _).count _ _ _
    · exact Dev.Logs.refl d
  · exact Dev.Logs.refl d

/-- A packet that changes its binding and the slots there ends, and the binding is found as it has become. -/
theorem tiled_endPkt {s : State} {p : Pkt} {k fn vl opc : Nat} {b : Bind} {f : Bind → Bind} {d : Dev} (h : AtFn s p fn vl opc)
    (hb : s.d.bind k p.prod p.cEns p.cGroup = some b) (hf : ∀ b, (f b).is p.prod p.cEns p.cGroup = b.is p.prod p.cEns p.cGroup)
    (ht : (s.d.modBind k p.prod p.cEns p.cGroup f).Tiled k d) :
    (d.endPkt p.id).net.pkts = [] ∧ (d.endPkt p.id).net.outbox = [] ∧ Binds s { s with d := d.endPkt p.id } p k (f b) := by
  have hmod : s.d.Weaves k (s.d.modBind k p.prod p.cEns p.cGroup f) := (Dev.Weaves.refl s.d).modLoom _
  refine taken_endPkt h ht.net ⟨fun j hj => ?_, ht.weaves.still.trans hmod.still, fun r i hr => ?_⟩ ?_
  · exact (ht.weaves.others j hj).trans (hmod.others j hj)
  · exact (ht.weaves.regs r i hr).trans (hmod.regs r i hr)
  · exact (ht.bind _ _ _ _).trans (Dev.bind_modBind hb hf)

/-! ## Duplicates and refusals -/

/-- A duplicate is counted and ends, and nothing else changes. -/
theorem duplicate_endPkt {s : State} {p : Pkt} {fn vl opc : Nat} (h : AtFn s p fn vl opc) (k : Nat) :
    ((s.d.countLoom k C.COLL_DUP 1).endPkt p.id).net.pkts = [] ∧ ((s.d.countLoom k C.COLL_DUP 1).endPkt p.id).net.outbox = []
      ∧ Quiet s { s with d := (s.d.countLoom k C.COLL_DUP 1).endPkt p.id }
      ∧ Counts s { s with d := (s.d.countLoom k C.COLL_DUP 1).endPkt p.id } (1056 + k) 6 1 := by
  have hat := atFn_of_net h ((Dev.Logs.refl s.d).count (1056 + k) C.COLL_DUP 1).net
  refine ⟨pkts_endPkt_of_atFn hat, outbox_endPkt_of_atFn hat, ⟨rfl, rfl, ((Dev.Soft.refl s.d).countLoom k C.COLL_DUP 1).endPkt p.id⟩, ?_⟩
  exact counts_of_logs (Dev.Logs.refl s.d) rfl (fld_endPkt_of_atFn hat _ (by decide) _)

/-- A refused contribution is answered, and nothing changes beside what the packet path writes. -/
theorem refuseColl_answers {c : Instr} {s : State} {d : Dev} {p : Pkt} {status reason : Nat}
    (hm : MakesThenRoutes c s (d.refuseColl p status reason)) (hs : s.d.Soft d) (hp : p.opc ≠ 0x32) (hst : status < 16) :
    Completes c s (fun t => Quiet s t) ∧ SendsSome c s (fun q => q.opc = 0x43 ∧ q.dst = p.src ∧ q.status = status) :=
  ⟨completes_of_makes hm ⟨rfl, rfl, (hs.refuseColl _ _ _).settle⟩,
    sendsSome_of_makes hm (d.mem_outbox_refuseColl hp status reason) (answerContrib_fields p hst reason 0 0)⟩

/-! ## CONTRIB (R144 to R147) -/

/-- The area of the tile of a chunk: the one that is open, or one that opens. -/
def Dev.areaOf (d : Dev) (p : Pkt) (b : Bind) (e : BitVec 512) : Area :=
  (b.tiles.find? (fun a => a.tile == p.cWord)).getD
    { word := dAword e, opseq := b.cur, tile := p.cWord, len := p.cLow % 1024 + 1, poison := !b.dead.isEmpty, openAt := d.tmu.total,
      size := storageBytes (dAword e) (accCount (dAword e) (p.cLow % 1024 + 1)) (opMembers e (d.groupCount b.ens b.group)) }

/-- The chunk of a CONTRIB enters an area. -/
def Area.enter (a : Area) (p : Pkt) : Area := { a with ins := a.ins ++ [(p.cMember, p.cLow / 1024, p.cData)] }

/-- The tiles of a binding with a chunk entered. -/
def Dev.tilesWith (d : Dev) (p : Pkt) (b : Bind) (e : BitVec 512) : List Area :=
  b.tiles.filter (fun x => x.tile ≠ p.cWord) ++ [(d.areaOf p b e).enter p]

theorem Dev.takeChunk_tiled (d : Dev) (k : Nat) (p : Pkt) (i : Image) (b : Bind) (c : Chan) (e : BitVec 512) :
    ∃ d₁, d.takeChunk k p i b c e = d₁.endPkt p.id
      ∧ (d.modBind k p.prod p.cEns p.cGroup (fun x => { x with tiles := d.tilesWith p b e })).Tiled k d₁ := by
  refine ⟨_, rfl, ?_⟩
  refine Dev.Tiled.logs ?_ (Dev.logs_countMx _ _ _ _)
  refine Dev.Tiled.logs ?_ (((Dev.Logs.refl _).count _ _ _).countEv _ _ _ _)
  have hslot : ∀ {a d : Dev}, a.Tiled k d → ∀ x : Area, a.Tiled k (d.writeHeader k i c x) := fun h x => h.writeHeader i c x
  refine Dev.Tiled.ite (Dev.Tiled.tileWrite (hslot ?_ _) _ _ _) (hslot ?_ _)
  · exact Dev.Tiled.ite ((Dev.Tiled.refl _).tileJunk _ _ _) (Dev.Tiled.refl _)
  · exact Dev.Tiled.ite ((Dev.Tiled.refl _).tileJunk _ _ _) (Dev.Tiled.refl _)

section
variable {s : State} {p : Pkt} {k : Nat} {i : Image} {b : Bind} {c : Chan} {e : BitVec 512}

variable (h : AtLoom s p k 0 0x30 i b c)
include h

theorem contrib_otherOp (hmem : s.d.groupCa s.mem p.cEns p.cGroup p.cMember = some p.src.toNat) (hcur : b.cur ≠ p.cSeq) :
    Completes (.contrib p.id) s (fun t => Quiet s t)
    ∧ SendsSome (.contrib p.id) s (fun q => q.opc = 0x43 ∧ q.dst = p.src ∧ q.status = 2) := by
  have hm : MakesThenRoutes (.contrib p.id) s (s.d.refuseWindow k p b.cur) := by
    refine ⟨?_, rfl⟩
    show contribMade p.id s = _
    simp only [contribMade, onDevM_eq, atLoom_of_atFn h.here h.loom, Dev.whenSome_some]
    rw [collEntry_window h hmem hcur]
  exact refuseColl_answers hm ((Dev.Soft.refl s.d).countLoom _ _ _) (by rw [h.here.opc]; decide) (by decide)

variable (hin : InOp s p b e p.cWord)
include hin

theorem contrib_misshapen (hshape : contribShape b e p = false) : Completes (.contrib p.id) s (fun t => Quiet s t)
    ∧ SendsSome (.contrib p.id) s (fun q => q.opc = 0x43 ∧ q.dst = p.src ∧ q.status = 7) := by
  have hm : MakesThenRoutes (.contrib p.id) s (s.d.refuseShape k p) := by
    refine ⟨?_, rfl⟩
    show contribMade p.id s = _
    simp only [contribMade, onDevM_eq, atLoom_of_atFn h.here h.loom, Dev.whenSome_some]
    rw [collEntry_inOp h hin rfl]
    simp [hshape]
  exact refuseColl_answers hm ((Dev.Soft.refl s.d).noticeLim _ _ _ _ _) (by rw [h.here.opc]; decide) (by decide)

theorem contrib_closed (hshape : contribShape b e p = true) (hclosed : p.cWord ∈ b.closed) :
    Completes (.contrib p.id) s (fun t => t.d.net.pkts = [] ∧ t.d.looms = s.d.looms ∧ Counts s t (1056 + k) 6 1 ∧ Quiet s t) := by
  have hm : MakesThenRoutes (.contrib p.id) s ((s.d.countLoom k C.COLL_DUP 1).endPkt p.id) := by
    refine ⟨?_, rfl⟩
    show contribMade p.id s = _
    simp only [contribMade, onDevM_eq, atLoom_of_atFn h.here h.loom, Dev.whenSome_some]
    rw [collEntry_inOp h hin rfl]
    simp [hshape, hclosed]
  obtain ⟨hpkts, hout, hquiet, hcounts⟩ := duplicate_endPkt h.here k
  exact completes_of_makesNothing hm hout ⟨hpkts, hquiet.soft.looms, hcounts, hquiet⟩

omit hin in
/-- A chunk that is reduced into its slot: its tile's area is the last of those open. -/
theorem contrib_reduced (hm : MakesThenRoutes (.contrib p.id) s (s.d.takeChunk k p i b c e)) :
    Completes (.contrib p.id) s (fun t => t.d.net.pkts = [] ∧ Binds s t p k { b with tiles := s.d.tilesWith p b e }) := by
  obtain ⟨d₁, htake, htiled⟩ := s.d.takeChunk_tiled k p i b c e
  obtain ⟨hpkts, hout, hbinds⟩ := tiled_endPkt (f := fun b' => { b' with tiles := s.d.tilesWith p b e }) h.here
    (Dev.accepts_some h.accepts).2 (fun _ => rfl) htiled
  rw [htake] at hm
  exact completes_of_makesNothing hm hout ⟨hpkts, hbinds⟩

/-- The first chunk of a tile opens it, where no tile is open that the window could not hold with it. -/
theorem contrib_opens (hshape : contribShape b e p = true) (hclosed : p.cWord ∉ b.closed) (htiles : b.tiles = []) :
    Completes (.contrib p.id) s (fun t => t.d.net.pkts = [] ∧ ∃ b' a, Binds s t p k b' ∧ b'.tiles = [a] ∧ a.tile = p.cWord
      ∧ a.word = dAword e ∧ a.opseq = b.cur ∧ a.len = p.cLow % 1024 + 1 ∧ a.ins = [(p.cMember, p.cLow / 1024, p.cData)]
      ∧ a.openAt = s.d.tmu.total ∧ a.poison = !b.dead.isEmpty ∧ b'.cur = b.cur ∧ b'.desc = b.desc) := by
  have hm : MakesThenRoutes (.contrib p.id) s (s.d.takeChunk k p i b c e) := by
    refine ⟨?_, rfl⟩
    show contribMade p.id s = _
    simp only [contribMade, onDevM_eq, atLoom_of_atFn h.here h.loom, Dev.whenSome_some]
    rw [collEntry_inOp h hin rfl]
    simp [hshape, hclosed, htiles]
  have harea : (s.d.areaOf p b e).ins = [] ∧ (s.d.areaOf p b e).tile = p.cWord := by simp [Dev.areaOf, htiles]
  refine (contrib_reduced h hm).mono fun t ⟨hpkts, hbinds⟩ => ⟨hpkts, _, (s.d.areaOf p b e).enter p, hbinds, ?_, harea.2, ?_⟩
  · simp [Dev.tilesWith, htiles]
  · simp [Area.enter, Dev.areaOf, htiles]

/-- A chunk that the open tile has not yet enters its area. -/
theorem contrib_enters {a : Area} (hshape : contribShape b e p = true) (hclosed : p.cWord ∉ b.closed) (htiles : b.tiles = [a])
    (htile : a.tile = p.cWord) (hnew : a.has p.cMember (p.cLow / 1024) = false) :
    Completes (.contrib p.id) s (fun t => t.d.net.pkts = [] ∧ ∃ b', Binds s t p k b'
      ∧ b'.tiles = [{ a with ins := a.ins ++ [(p.cMember, p.cLow / 1024, p.cData)] }]) := by
  have hm : MakesThenRoutes (.contrib p.id) s (s.d.takeChunk k p i b c e) := by
    refine ⟨?_, rfl⟩
    show contribMade p.id s = _
    simp only [contribMade, onDevM_eq, atLoom_of_atFn h.here h.loom, Dev.whenSome_some]
    rw [collEntry_inOp h hin rfl]
    simp [hshape, hclosed, htiles, htile, hnew]
  refine (contrib_reduced h hm).mono fun t ⟨hpkts, hbinds⟩ => ⟨hpkts, _, hbinds, ?_⟩
  simp [Dev.tilesWith, Dev.areaOf, Area.enter, htiles, htile]

end

/-! ## A2A.ROWS (R149, R150) -/

theorem Bind.is_addRows (b : Bind) (src dst seg : Nat) (rs : List Nat) (prod : Nat) (ens : Bool) (g : Nat) :
    (b.addRows src dst seg rs).is prod ens g = b.is prod ens g := by
  unfold Bind.addRows
  refine List.foldlRecOn (motive := fun x : Bind => x.is prod ens g = b.is prod ens g) rs _ rfl fun x hx r _ => ?_
  split
  · exact hx
  · exact hx

/-- The rows of a packet that lie within the capacity of its op. -/
def goodRows (e : BitVec 512) (p : Pkt) : List Nat := (rowsOf e p).filter (fun r => decide (r < dCap e))

/-- The bytes of a packet's rows that are delivered. -/
def goodData (e : BitVec 512) (p : Pkt) : List Byte :=
  if dRowBytes e ≤ 4096 then p.cData.take ((goodRows e p).length * dRowBytes e) else p.cData

/-- The A2A.DELIVER that carries the rows of a packet to a member. -/
def deliverPkt (d : Dev) (k : Nat) (i : Image) (b : Bind) (e : BitVec 512) (p : Pkt) (ca j : Nat) : Pkt :=
  d.collPkt k ca b.prod i.gen 0x41 4 St.OK b.ens b.group b.cur j p.cLow
    (p.cMember * 2 ^ 14 + p.aSeg * 2 ^ 12 + (dRowBytes e / 64 - 1) * 16 + bit false) (goodData e p)

theorem deliverPkt_fields (d : Dev) (k : Nat) (i : Image) (b : Bind) (e : BitVec 512) (p : Pkt) (ca j : Nat) :
    (deliverPkt d k i b e p ca j).opc = 0x41 ∧ (deliverPkt d k i b e p ca j).dst = BitVec.ofNat 32 ca
      ∧ (deliverPkt d k i b e p ca j).vl = 4 ∧ (deliverPkt d k i b e p ca j).at 6 2 = b.cur % 65536 := by
  unfold deliverPkt
  exact ⟨(Dev.collPkt_hdr ..).1, (Dev.collPkt_hdr ..).2, rfl, (Dev.collPkt_at ..).1⟩

section
variable {s : State} {p : Pkt} {k : Nat} {i : Image} {b : Bind} {c : Chan} {e : BitVec 512} (h : AtLoom s p k 0 0x31 i b c)
  (hin : InOp s p b e 0) (hshape : rowsShape e (s.d.groupCount b.ens b.group) p = true)
include h hin hshape

theorem a2aRows_duplicate (hdup : b.rowDup e p = true) :
    Completes (.a2aRows p.id) s (fun t => t.d.net.pkts = [] ∧ Quiet s t ∧ Counts s t (1056 + k) 6 1) := by
  have hm : MakesThenRoutes (.a2aRows p.id) s ((s.d.countLoom k C.COLL_DUP 1).endPkt p.id) := by
    refine ⟨?_, rfl⟩
    show a2aRowsMade p.id s = _
    simp only [a2aRowsMade, onDevM_eq, atLoom_of_atFn h.here h.loom, Dev.whenSome_some]
    rw [collEntry_inOp h hin rfl]
    simp [hshape, hdup]
  obtain ⟨hpkts, hout, hquiet, hcounts⟩ := duplicate_endPkt h.here k
  exact completes_of_makesNothing hm hout ⟨hpkts, hquiet, hcounts⟩

/-- Rows that are new enter the binding, and those within the capacity are delivered. -/
theorem a2aRows_makes (hdup : b.rowDup e p = false) : ∃ d₁,
    (s.d.modBind k p.prod p.cEns p.cGroup (fun b => b.addRows p.cMember p.aPeer p.aSeg (rowsOf e p))).Logs d₁
    ∧ MakesThenRoutes (.a2aRows p.id) s ((if (goodRows e p).isEmpty then d₁
        else d₁.sendDeliver s.mem k i.gen b e p.cMember p.aPeer p.cLow p.aSeg false (goodData e p)).endPkt p.id) := by
  obtain ⟨hprod, hens, hgroup⟩ := Dev.bind_is (Dev.accepts_some h.accepts).2
  refine ⟨_, ((Dev.Logs.refl _).count (1056 + k) C.CONTRIB_64B (ceilDiv p.cLen 64)).countEv (1056 + k) 16 (ceilDiv p.cLen 64) p.ctx,
    ?_, rfl⟩
  show a2aRowsMade p.id s = _
  simp only [a2aRowsMade, onDevM_eq, atLoom_of_atFn h.here h.loom, Dev.whenSome_some]
  rw [collEntry_inOp h hin rfl, if_neg (by simp [hshape]), if_neg (by simp [hdup])]
  rw [← hprod, ← hens, ← hgroup]
  rfl

theorem a2aRows_entered (hdup : b.rowDup e p = false) : Completes (.a2aRows p.id) s (fun t =>
    Binds s t p k (b.addRows p.cMember p.aPeer p.aSeg (rowsOf e p))) := by
  obtain ⟨d₁, hlogs, hm⟩ := a2aRows_makes h hin hshape hdup
  have hd₁ := (Dev.SamePkts.of_logs hlogs).soft
  have hsent := hd₁.sendShared s.mem b.ens b.group [p.aPeer]
  have hall : (s.d.modBind k p.prod p.cEns p.cGroup (fun b => b.addRows p.cMember p.aPeer p.aSeg (rowsOf e p))).Soft
      ((if (goodRows e p).isEmpty then d₁
        else d₁.sendDeliver s.mem k i.gen b e p.cMember p.aPeer p.cLow p.aSeg false (goodData e p)).endPkt p.id).settle := by
    refine (Dev.Soft.endPkt ?_ _).settle
    split
    · exact hd₁
    · exact hsent _
  refine completes_of_makes hm (binds_of_weaves (((Dev.Weaves.refl s.d).modLoom _).soft hall) ?_)
  rw [Dev.bind_of_looms hall.looms]
  exact Dev.bind_modBind (Dev.accepts_some h.accepts).2 fun b => b.is_addRows _ _ _ _ _ _ _

theorem a2aRows_delivers (hdup : b.rowDup e p = false) {ca : Nat} (hcap : p.cLow < dCap e) (hrow : p.cLow ∈ rowsOf e p)
    (hca : s.d.groupCa s.mem b.ens b.group p.aPeer = some ca) :
    SendsSome (.a2aRows p.id) s (fun q => q.opc = 0x41 ∧ q.dst = BitVec.ofNat 32 ca ∧ q.vl = 4 ∧ q.at 6 2 = b.cur % 65536) := by
  obtain ⟨d₁, hlogs, hm⟩ := a2aRows_makes h hin hshape hdup
  have hsome : (goodRows e p).isEmpty = false :=
    List.isEmpty_eq_false_iff.2 (List.ne_nil_of_mem (List.mem_filter.2 ⟨hrow, decide_eq_true hcap⟩))
  rw [hsome, if_neg Bool.false_ne_true] at hm
  have hca₁ : d₁.groupCa s.mem b.ens b.group p.aPeer = some ca := by
    exact (((Dev.KeepsGroups.modLoom s.d k _).trans (Dev.SamePkts.of_logs hlogs).soft.keepsGroups).groupCa ..).trans hca
  obtain ⟨n, hmem⟩ := Dev.mem_outbox_sendShared (List.mem_singleton.2 rfl) hca₁ (deliverPkt d₁ k i b e p)
  refine sendsSome_of_makes hm ((Dev.outbox_endPkt _ _).symm ▸ hmem) ?_
  exact deliverPkt_fields d₁ k i b e p ca p.aPeer

end

/-! ## ARRIVE (R148, R149) -/

section
variable {s : State} {p : Pkt} {k : Nat} {i : Image} {b : Bind} {c : Chan} {e : BitVec 512} (h : AtLoom s p k 0 0x32 i b c)
  (hin : InOp s p b e 0)
include h hin

theorem arrive_again (hagain : b.arrived.any (fun x => x.1 == p.cMember) = true) :
    Completes (.arrive p.id) s (fun t => t.d.net.pkts = [] ∧ Quiet s t ∧ Counts s t (1056 + k) 6 1) := by
  obtain ⟨hpkts, hout, hquiet, hcounts⟩ := duplicate_endPkt h.here k
  refine ⟨_, ?_, hpkts, hquiet, hcounts⟩
  show execArrive p.id s = _
  simp only [execArrive, onDevM_eq, atLoom_of_atFn h.here h.loom, Dev.whenSome_some]
  rw [collEntry_inOp h hin rfl, if_pos hagain, Dev.settle_of_empty hout]

theorem arrive_entered (hnew : b.arrived.any (fun x => x.1 == p.cMember) = false) :
    Completes (.arrive p.id) s (fun t => t.d.net.pkts = []
      ∧ Binds s t p k { b with arrived := b.arrived ++ [(p.cMember, p.cWord)] }) := by
  obtain ⟨hprod, hens, hgroup⟩ := Dev.bind_is (Dev.accepts_some h.accepts).2
  obtain ⟨hpkts, hout, hbinds⟩ := tiled_endPkt (f := fun b => { b with arrived := b.arrived ++ [(p.cMember, p.cWord)] }) h.here
    (Dev.accepts_some h.accepts).2 (fun _ => rfl) (Dev.Tiled.refl _)
  refine ⟨_, ?_, hpkts, hbinds⟩
  show execArrive p.id s = _
  simp only [execArrive, onDevM_eq, atLoom_of_atFn h.here h.loom, Dev.whenSome_some]
  rw [collEntry_inOp h hin rfl, if_neg (by simp [hnew]), hprod, hens, hgroup, Dev.settle_of_empty hout]

end

/-! ## From the stage above (R147, R148, R201) -/

section
variable {s : State} {p : Pkt} {k : Nat} {i : Image} {b : Bind} {c : Chan}

/-- The area that the first RESULT of a tile opens. -/
def Dev.upArea (d : Dev) (p : Pkt) (b : Bind) : Area :=
  { word := (b.desc.map dAword).getD 0, opseq := b.cur, tile := p.cWord, len := p.cLow % 1024 + 1, openAt := d.tmu.total,
    size := 64 * (p.cLow % 1024 + 1) }

/-- An area with what a RESULT brings: POISON, or a chunk that it has not yet. -/
def Area.above (a : Area) (p : Pkt) : Area :=
  if p.status = St.POISON then { a with poison := true }
  else if a.has 0 (p.cLow / 1024) then a else { a with ins := a.ins ++ [(0, p.cLow / 1024, p.cData)] }

/-- A binding with the area of an upper stage's tile; chunks sent up for it are done with once it is whole or POISON. -/
def Bind.withUp (b : Bind) (t : Nat) (a : Area) : Bind :=
  { b with up := b.up.filter (fun x => x.tile ≠ t) ++ [a],
           sent := if a.poison || a.memberDone 0 then b.sent.filter (fun x => x.1 ≠ t) else b.sent }

theorem Dev.upArea_above (d : Dev) (p : Pkt) (b : Bind) : ((d.upArea p b).above p).tile = p.cWord
    ∧ (p.status = 1 → ((d.upArea p b).above p).poison = true)
    ∧ (p.status = 0 → ((d.upArea p b).above p).poison = false ∧ ((d.upArea p b).above p).ins = [(0, p.cLow / 1024, p.cData)]) := by
  have hempty : (d.upArea p b).has 0 (p.cLow / 1024) = false := rfl
  unfold Area.above
  rw [hempty]
  refine ⟨?_, fun h1 => ?_, fun h0 => ?_⟩
  · split <;> rfl
  · rw [if_pos (show p.status = St.POISON from h1)]
  · rw [if_neg (show p.status ≠ St.POISON by rw [h0]; decide)]
    exact ⟨rfl, rfl⟩

theorem exec_result (h : AtLoom s p k 3 0x40 i b c) (hcur : b.cur = p.cSeq) (hup : b.up = []) : ∃ d₁,
    (s.d.modBind k p.prod p.cEns p.cGroup (fun b' => b'.withUp p.cWord ((s.d.upArea p b).above p))).Tiled k d₁
    ∧ exec (.result p.id) s = .next { s with d := d₁.endPkt p.id } := by
  obtain ⟨hprod, hens, hgroup⟩ := Dev.bind_is (Dev.accepts_some h.accepts).2
  have htiled := Dev.Tiled.refl (k := k) (s.d.modBind k p.prod p.cEns p.cGroup (fun b' => b'.withUp p.cWord ((s.d.upArea p b).above p)))
  have hheader := htiled.writeHeader i c ((s.d.upArea p b).above p)
  refine ⟨_, Dev.Tiled.ite (q := p.status = St.POISON) hheader
    (hheader.tileWrite i (slotAddr c p.cWord + 64 + 4096 * (p.cLow / 1024)) p.cData), ?_⟩
  show execResult p.id s = _
  simp only [execResult, onDev_eq, atLoom_of_atFn h.here h.loom, Dev.whenSome_some, Dev.meetCast_of_accepts h.accepts, h.accepts]
  rw [if_neg (by simp [hcur]), hup, hprod, hens, hgroup]
  rfl

theorem result_opens (h : AtLoom s p k 3 0x40 i b c) (hcur : b.cur = p.cSeq) (hup : b.up = []) :
    Completes (.result p.id) s (fun t => t.d.net.pkts = [] ∧ ∃ b' a, Binds s t p k b' ∧ b'.up = [a] ∧ a.tile = p.cWord
      ∧ (p.status = 1 → a.poison = true)
      ∧ (p.status = 0 → a.poison = false ∧ a.ins = [(0, p.cLow / 1024, p.cData)])) := by
  obtain ⟨d₁, htiled, hexec⟩ := exec_result h hcur hup
  obtain ⟨hpkts, -, hbinds⟩ := tiled_endPkt (f := fun b' => b'.withUp p.cWord ((s.d.upArea p b).above p)) h.here
    (Dev.accepts_some h.accepts).2 (fun _ => rfl) htiled
  refine ⟨_, hexec, hpkts, _, _, hbinds, ?_, s.d.upArea_above p b⟩
  simp [Bind.withUp, hup]

/-- What a RELEASE makes of a binding, by its KIND: a barrier's end, or chunks of a tile that are done with. -/
def Bind.released (b : Bind) (p : Pkt) : Bind :=
  if p.cLow / 2 ^ 12 = 0 then { b with upRelease := true }
  else if p.cLow / 2 ^ 12 = 1 then { b with sent := b.sent.filter (fun x => x.1 ≠ p.cWord) }
  else b

theorem Bind.is_released (b : Bind) (p : Pkt) (prod : Nat) (ens : Bool) (g : Nat) : (b.released p).is prod ens g = b.is prod ens g := by
  unfold Bind.released
  split
  · rfl
  · split <;> rfl

theorem release_taken (h : AtLoom s p k 3 0x42 i b c) (hcur : b.cur = p.cSeq) :
    Completes (.release p.id) s (fun t => t.d.net.pkts = [] ∧ Binds s t p k (b.released p)) := by
  obtain ⟨hprod, hens, hgroup⟩ := Dev.bind_is (Dev.accepts_some h.accepts).2
  obtain ⟨hpkts, -, hbinds⟩ := tiled_endPkt (f := fun b => b.released p) h.here (Dev.accepts_some h.accepts).2
    (fun b => b.is_released p _ _ _) (Dev.Tiled.refl _)
  refine ⟨_, ?_, hpkts, hbinds⟩
  show execRelease p.id s = _
  simp only [execRelease, onDev_eq, atLoom_of_atFn h.here h.loom, Dev.whenSome_some, Dev.meetCast_of_accepts h.accepts, h.accepts,
    Option.orElse_some]
  rw [if_neg (by simp [hcur]), hprod, hens, hgroup]
  rfl

/-- The refused chunk of a stage's own contribution is sent again (R147). -/
theorem sendStatus_resends (h : AtLoom s p k 2 0x43 i b c) (hcur : b.cur = p.cSeq) {x : Nat × Nat × Nat × List Byte}
    (hx : b.sent.find? (fun y => y.1 == p.cWord && y.2.1 == p.cLow / 1024) = some x) (hst : p.status = 2) :
    Completes (.sendStatus p.id) s (fun t => Quiet s t)
    ∧ SendsSome (.sendStatus p.id) s (fun q => q.opc = 0x30 ∧ q.vl = 3 ∧ q.dst = BitVec.ofNat 32 (Config.upperHost b.prod b.ens b.group)
        ∧ q.at 6 2 = b.cur % 65536 ∧ q.at 8 4 / 2 ^ 14 = c.member % 2 ^ 18 ∧ q.at 12 4 = x.1 % 2 ^ 32) := by
  have hm : MakesThenRoutes (.sendStatus p.id) s ((s.d.sendUp k i.gen c.member b x.1 x.2.1 x.2.2.1 x.2.2.2).endPkt p.id) := by
    refine ⟨?_, rfl⟩
    show sendStatusMade p.id s = _
    simp only [sendStatusMade, onDev_eq, atLoom_of_atFn h.here h.loom, Dev.whenSome_some, Dev.meetCast_of_accepts h.accepts, h.accepts, hx]
    rw [if_pos ⟨hcur, hst⟩]
  have hsent : s.d.Soft (s.d.sendUp k i.gen c.member b x.1 x.2.1 x.2.2.1 x.2.2.2) := (Dev.Soft.refl s.d).send _
  refine ⟨completes_of_makes hm ⟨rfl, rfl, (hsent.endPkt _).settle⟩,
    sendsSome_of_makes hm ((Dev.outbox_endPkt _ _).symm ▸ s.d.mem_outbox_send _) ?_⟩
  obtain ⟨hopc, hdst⟩ := s.d.collPkt_hdr k (Config.upperHost b.prod b.ens b.group) b.prod i.gen 0x30 3 St.OK b.ens b.group b.cur c.member
    (x.2.1 * 1024 + (x.2.2.1 - 1)) x.1 x.2.2.2
  exact ⟨hopc, rfl, hdst, Dev.collPkt_at ..⟩

end

end Sys2Proof.Machine
end

section
/-! A Loom's named counters (R339) while the device routes an answer to a contribution: no part of the packet path counts there. -/

namespace Sys2Proof.Machine
open Sys2Proof.Claims

/-- A counter keeps its value while another unit counts. -/
theorem Dev.fld_count_of_inst_ne (d : Dev) {inst inst' idx j : Nat} (h : inst' ≠ inst) (hidx : idx < 64) (hj : j < 64) (n : Nat) :
    (d.count inst' j n).fld F.CNT_VAL_VALUE (cntIdx inst idx) = d.fld F.CNT_VAL_VALUE (cntIdx inst idx) := by
  have hset : ∀ (d : Dev) (f : Fld) (j v : Nat), f.lo ≤ f.hi → j < 64 →
      (d.setFld f (cntIdx inst' j) v).fld F.CNT_VAL_VALUE (cntIdx inst idx) = d.fld F.CNT_VAL_VALUE (cntIdx inst idx) := by
    intro d f j v hf hj
    refine Dev.fld_setFld_of_ne _ _ _ _ _ _ hf (by decide) (.inl fun e => ?_)
    have hi := e.2
    unfold cntIdx at hi
    omega
  unfold Dev.count
  split
  · rfl
  · split
    · rfl
    · split
      · unfold Dev.addCount
        dsimp only
        split
        · exact hset _ _ _ _ (by decide) hj
        · split
          · next hchain => exact (hset _ _ _ _ (by decide) (by omega)).trans (hset _ _ _ _ (by decide) hj)
          · exact (hset _ _ _ _ (by decide) hj).trans (hset _ _ _ _ (by decide) hj)
      · exact Dev.fld_of_regs rfl rfl _ _

/-- `d'` has made nothing more than `d`, and Loom `k` reads the same in its counter `c`. -/
structure Dev.Spares (k c : Nat) (d d' : Dev) : Prop where
  value : d'.fld F.CNT_VAL_VALUE (cntIdx (1056 + k) c) = d.fld F.CNT_VAL_VALUE (cntIdx (1056 + k) c)
  outbox : d'.net.outbox = d.net.outbox

namespace Dev.Spares
variable {k c : Nat} {a d d' : Dev}

theorem refl (d : Dev) : d.Spares k c d := ⟨rfl, rfl⟩

theorem of_regs (h : a.Spares k c d) (hr : d'.regs = d.regs) (hf : d'.fuse = d.fuse) (ho : d'.net.outbox = d.net.outbox) :
    a.Spares k c d' := ⟨(Dev.fld_of_regs hr hf _ _).trans h.value, ho.trans h.outbox⟩

theorem each {α : Type} {f : Dev → α → Dev} (h : a.Spares k c d) (l : List α) (hf : ∀ d x, a.Spares k c d → a.Spares k c (f d x)) :
    a.Spares k c (d.each l f) := by
  induction l generalizing d with
  | nil => exact h
  | cons x l ih => exact ih (hf d x h)

theorem noticeLim (h : a.Spares k c d) (t src prod data key : Nat) : a.Spares k c (d.noticeLim t src prod data key) :=
  ⟨(d.fld_noticeLim_count t src prod data key _).trans h.value,
    (congrArg Net.outbox ((Dev.Logs.refl d).noticeLim t src prod data key).net).trans h.outbox⟩

theorem setFld (h : a.Spares k c d) {f : Fld} (hf : f.rf ≠ .CNT_VAL) (i v : Nat) : a.Spares k c (d.setFld f i v) :=
  ⟨(congrArg (bitsOf · _ _) (Dev.rd_setFld_of_ne _ _ _ _ _ _ fun e => hf e.1.symm)).trans h.value, h.outbox⟩

theorem modPkt (h : a.Spares k c d) (id : Nat) (f : Pkt → Pkt) : a.Spares k c (d.modPkt id f) := h.of_regs rfl rfl rfl
theorem moveTo (h : a.Spares k c d) (id : Nat) (pl : Place) : a.Spares k c (d.moveTo id pl) := h.of_regs rfl rfl rfl
theorem setLv (h : a.Spares k c d) (j : Nat) (x : LaneVl) : a.Spares k c (d.setLv j x) := h.of_regs rfl rfl rfl
theorem addBuf (h : a.Spares k c d) (b : Buf) : a.Spares k c (d.addBuf b).2 := h.of_regs rfl rfl rfl

theorem addUsed (h : a.Spares k c d) (q n : Nat) : a.Spares k c (d.addUsed q n) := h.setFld (by decide) _ _

theorem endPkt (h : a.Spares k c d) (id : Nat) : a.Spares k c (d.endPkt id) :=
  ⟨(d.fld_endPkt id (by decide) _).trans h.value, (d.outbox_endPkt id).trans h.outbox⟩

section
variable (hc : c < 64)
include hc

/-! ### Counting in other units -/

theorem count (h : a.Spares k c d) {inst j : Nat} (hi : inst < 1056) (hj : j < 64) (n : Nat) : a.Spares k c (d.count inst j n) :=
  ⟨(d.fld_count_of_inst_ne (by omega) hc hj n).trans h.value, (congrArg Net.outbox ((Dev.Logs.refl d).count inst j n).net).trans h.outbox⟩

theorem countWrd (h : a.Spares k c d) {j : Nat} (hj : j < 64) : a.Spares k c (d.countWrd j) := h.count hc (by decide) hj 1

theorem countEv (h : a.Spares k c d) {inst : Nat} (hi : inst < 1056) (ev n : Nat) (x : EvCtx) : a.Spares k c (d.countEv inst ev n x) := by
  have hall : ∀ js : List Nat, (∀ j ∈ js, j < 16) → ∀ {d : Dev}, a.Spares k c d →
      a.Spares k c (d.each js (fun d j => if d.filterPass inst j ev x then d.count inst (48 + j) n else d)) := by
    intro js hjs
    induction js with
    | nil => exact fun h => h
    | cons j js ih =>
      intro d h
      have hj : j < 16 := hjs j List.mem_cons_self
      refine ih (fun x hx => hjs x (List.mem_cons_of_mem _ hx)) ?_
      dsimp only
      split
      · exact h.count hc hi (by omega) n
      · exact h
  exact hall _ (fun j hj => List.mem_range.1 hj) h

theorem noteParity (h : a.Spares k c d) (t i : Nat) : a.Spares k c (d.noteParity t i) :=
  (h.count hc (by decide) (by decide) _).noticeLim _ _ _ _ _

theorem look (h : a.Spares k c d) (t i : Nat) : a.Spares k c (d.look t i).2 := by
  unfold Dev.look
  split
  · exact h
  · split
    · exact h.noteParity hc t i
    · exact h

theorem meetCast (h : a.Spares k c d) (ens : Bool) (g : Nat) : a.Spares k c (d.meetCast ens g) := by
  unfold Dev.meetCast
  split
  · exact h
  · exact h.look hc _ _

/-! ### Routing (R62 to R72) -/

theorem tcamCoord (h : a.Spares k c d) (p t : Nat) : a.Spares k c (d.tcamCoord p t).2 :=
  h.each _ fun _ x hd => hd.noteParity hc 0 x.1

theorem routeEntry (h : a.Spares k c d) (t n : Nat) (v s : Fld) : a.Spares k c (d.routeEntry t n v s).2 := by
  unfold Dev.routeEntry
  split
  · exact h
  · split
    · exact h.noteParity hc t n
    · exact h

theorem arithmetic (h : a.Spares k c d) (t : Nat) : a.Spares k c (d.arithmetic t).2 := by
  unfold Dev.arithmetic
  split
  · exact h
  · split
    · exact h.routeEntry hc _ _ _ _
    · exact h.routeEntry hc _ _ _ _

theorem routeSet (h : a.Spares k c d) (p : Pkt) : a.Spares k c (d.routeSet p).2 := by
  have hcoord := h.tcamCoord hc p.prod p.dst.toNat
  unfold Dev.routeSet
  split
  · next e =>
    rw [e] at hcoord
    split <;> exact hcoord
  · next d₁ e =>
    rw [e] at hcoord
    have harith := Dev.Spares.arithmetic hc hcoord p.dst.toNat
    split
    · next e₂ => rw [e₂] at harith; exact harith
    · next e₂ => rw [e₂] at harith; exact harith

theorem members (h : a.Spares k c d) (s : Nat) : a.Spares k c (d.members s).2 := (h.look hc 2 (2 * s)).look hc 2 (2 * s + 1)

omit hc in
theorem checkSpray (h : a.Spares k c d) (s : Nat) (ms : List (Nat × List Nat)) : a.Spares k c (d.checkSpray s ms) := by
  refine h.each _ fun d m hd => ?_
  split
  · exact hd
  · split
    · exact hd
    · exact hd.noticeLim _ _ _ _ _

theorem select (h : a.Spares k c d) (p : Pkt) (s : Nat) (o : Bool) : a.Spares k c (d.select p s o).2 := by
  have hms : a.Spares k c ((d.members s).2.checkSpray s (d.members s).1) := (h.members hc s).checkSpray _ _
  unfold Dev.select
  dsimp only
  split
  · exact hms
  · split
    · split
      · exact hms
      · have hptr : ∀ (q : Prop) [Decidable q] (v : NMap Nat), a.Spares k c (if q then
            { ((d.members s).2.checkSpray s (d.members s).1) with
              net := { ((d.members s).2.checkSpray s (d.members s).1).net with sprayPtr := v } }
            else (d.members s).2.checkSpray s (d.members s).1) := by
          intro q _ v
          split
          · exact hms.of_regs rfl rfl rfl
          · exact hms
        split
        · exact hptr _ _
        · exact hptr _ _
    · split
      · exact hms
      · split
        · exact hms
        · exact hms

/-! ### A packet that nothing answers: discarded, charged, queued -/

section
variable {p : Pkt} (hp : p.Closing)
include hp

theorem discardOther (h : a.Spares k c d) : a.Spares k c (d.discardOther p) := by
  unfold Dev.discardOther
  rw [if_pos hp.internal]
  exact h.count hc (by decide) (by decide) _

theorem discardAs (h : a.Spares k c d) (j : Nat) : a.Spares k c (d.discardAs p j) := by
  unfold Dev.discardAs
  rw [if_pos hp.internal]
  exact h.count hc (by decide) (by decide) _

omit hc in
theorem countDrop (h : a.Spares k c d) : a.Spares k c (d.countDrop p) := by
  unfold Dev.countDrop
  rwa [if_pos hp.internal]

omit hc in
theorem refuse {drop : Dev → Dev} (h : a.Spares k c (drop d)) (st : Nat) : a.Spares k c (d.refuse p st drop) := by
  have hreq : p.isReq = false := by simp [Pkt.isReq, hp.vl]
  have hcontrib : p.isContrib = false := by simp [Pkt.isContrib, hp.vl]
  unfold Dev.refuse
  rw [hreq, hcontrib]
  exact h.endPkt _

omit hc in
theorem refuseReq {drop : Dev → Dev} (h : a.Spares k c (drop d)) (st : Nat) : a.Spares k c (d.refuseReq p st drop) := by
  have hreq : p.isReq = false := by simp [Pkt.isReq, hp.vl]
  unfold Dev.refuseReq
  rw [hreq]
  exact h.endPkt _

theorem countStale (h : a.Spares k c d) : a.Spares k c (d.countStale p) := by
  unfold Dev.countStale
  rw [if_pos hp.internal, if_pos hp.internal]
  split
  · exact h.count hc (by decide) (by decide) _
  · exact h.count hc (by decide) (by decide) _

theorem refuseGen (h : a.Spares k c d) (st : Nat) : a.Spares k c (d.refuseGen p st) := by
  have hstale : a.Spares k c (if st = St.GEN_STALE then d.countStale p else d) := by
    split
    · exact h.countStale hc hp
    · exact h
  unfold Dev.refuseGen
  refine Dev.Spares.refuse hp ?_ st
  split
  · exact hstale.discardAs hc hp _
  · exact hstale.countDrop hp

theorem unsupported (h : a.Spares k c d) : a.Spares k c (d.unsupported p) :=
  Dev.Spares.refuse (drop := fun d => d.discardOther p) hp (h.discardOther hc hp) _

theorem refuseRoute (h : a.Spares k c d) (cause s : Nat) : a.Spares k c (d.refuseRoute p cause s) := by
  have hmis : d.miscast p s = false := by simp [Dev.miscast, hp.vl]
  have hnote : a.Spares k c (d.noteRoute p cause (p.laneData + s * 2 ^ 32 + p.dst.toNat)) := by
    unfold Dev.noteRoute
    split
    · exact h.noticeLim _ _ _ _ _
    · exact h
    · exact h.noticeLim _ _ _ _ _
    · exact h.noticeLim _ _ _ _ _
  unfold Dev.refuseRoute
  rw [hmis, if_neg (by simp)]
  exact Dev.Spares.refuse (drop := fun d => d.discardAs p (routeCounter cause)) hp (hnote.discardAs hc hp _) _

theorem toLoom (h : a.Spares k c d) (fn : Nat) : a.Spares k c (d.toLoom p fn) := by
  unfold Dev.toLoom
  rw [if_pos (.inr (.inl hp.vl))]
  split
  · exact h.refuseGen hc hp _
  · exact h.moveTo _ _

theorem toPrompter (h : a.Spares k c d) : a.Spares k c (d.toPrompter p) := by
  unfold Dev.toPrompter
  rw [if_neg (by simp [hp.vl])]
  split
  · exact h.moveTo _ _
  · exact h.unsupported hc hp

theorem toBolt (h : a.Spares k c d) : a.Spares k c (d.toBolt p) := by
  unfold Dev.toBolt
  rw [if_neg (by simp [hp.vl])]
  exact h.unsupported hc hp

theorem toLocal (h : a.Spares k c d) : a.Spares k c (d.toLocal p) := by
  unfold Dev.toLocal
  dsimp only
  rw [if_neg (by simp [hp.vl])]
  split
  · exact h.toBolt hc hp
  · split
    · exact h.toLoom hc hp _
    · split
      · exact h.toPrompter hc hp
      · split
        · exact h.unsupported hc hp
        · exact Dev.Spares.refuseReq (drop := fun d => d.discardAs p C.FN_REFUSED) hp (h.discardAs hc hp _) _

end

theorem countMark (h : a.Spares k c d) (p : Pkt) {l : Nat} (hl : l < 1024) (m : Nat) : a.Spares k c (d.countMark p l m) := by
  have hmark : a.Spares k c (if m = 1 then d.countPort l C.MARK_T1 else if m = 2 then d.countPort l C.MARK_T2 else d) := by
    split
    · exact h.count hc (by omega) (by decide) _
    · split
      · exact h.count hc (by omega) (by decide) _
      · exact h
  unfold Dev.countMark
  dsimp only
  split
  · exact hmark.countEv hc (by omega) _ _ _
  · exact hmark

theorem enqueue (h : a.Spares k c d) {id l : Nat} (hp : ∀ p, d.pkt id = some p → p.Closing) (hl : l < 1024) :
    a.Spares k c (d.enqueue id l) := by
  unfold Dev.enqueue
  split
  · exact h
  · next p hpkt =>
    have hclosing := hp p hpkt
    have hmark : a.Spares k c (d.markPkt p l) := (h.countMark hc p hl _).modPkt _ _
    dsimp only
    split
    · exact hmark.refuseGen hc hclosing _
    · rw [if_neg (by simp [hclosing.vl, hclosing.plain])]
      exact hmark.moveTo _ _

theorem chargeSource (h : a.Spares k c d) (j : Nat) (p : Pkt) {x : Nat × Dev} (hx : d.chargeSource j p = some x) : a.Spares k c x.2 := by
  unfold Dev.chargeSource at hx
  dsimp only at hx
  split at hx
  · cases hx
    exact (h.setLv _ _).addBuf _
  · split at hx
    · cases hx
      refine Dev.Spares.addBuf ?_ _
      unfold Dev.when
      split
      · exact ((h.setLv _ _).addUsed _ _).countWrd hc (by decide)
      · exact (h.setLv _ _).addUsed _ _
    · cases hx

omit hc in
theorem chargeColl (h : a.Spares k c d) (id : Nat) {x : Dev} (hx : d.chargeColl id = some x) : a.Spares k c x := by
  unfold Dev.chargeColl at hx
  split at hx
  · cases hx; exact h
  · split at hx
    · cases hx; exact h
    · split at hx
      · cases hx; exact h.of_regs rfl rfl rfl
      · cases hx

theorem chargeOut (h : a.Spares k c d) (p : Pkt) {x : Nat × Dev} (hx : d.chargeOut p = some x) : a.Spares k c x.2 := by
  unfold Dev.chargeOut at hx
  split at hx
  · exact h.chargeSource hc _ _ hx
  · obtain ⟨y, hy, rfl⟩ := Option.map_eq_some_iff.1 hx
    exact h.chargeColl _ hy

end

end Dev.Spares

/-! ## The lane that a packet takes -/

theorem mem_of_bestBy {α : Type} {l : List α} {key : α → Int} {x : α} (h : bestBy l key = some x) : x ∈ l := by
  have hpick := mem_of_foldl_pick (f := fun o x => match o with | none => some x | some y => if key y < key x then some x else some y)
    (fun o x => ?_) l none h
  · exact hpick.resolve_left (by simp)
  · cases o with
    | none => exact .inr rfl
    | some y =>
      by_cases hlt : key y < key x
      · exact .inr (if_pos hlt)
      · exact .inl (if_neg hlt)

/-- The first that passes of those that pass another test, or else the first of these, or else one that is there anyway. -/
theorem mem_of_find_orElse {α : Type} {l : List α} {f g : α → Bool} {b : α} (hb : b ∈ l) :
    (((l.filter f).find? g).orElse (fun _ => (l.filter f).head?)).getD b ∈ l := by
  cases hg : (l.filter f).find? g with
  | some x => exact (List.mem_filter.1 (List.mem_of_find?_eq_some hg)).1
  | none =>
    cases hh : (l.filter f).head? with
    | some x => exact (List.mem_filter.1 (List.mem_of_head? hh)).1
    | none => exact hb

theorem exists_mem_of_find_orElse {α β : Type} {l : List (α × List β)} {f g : α × List β → Bool} {b : α × List β} {x : β} (hb : b ∈ l)
    (hx : x ∈ ((((l.filter f).find? g).orElse (fun _ => (l.filter f).head?)).getD b).2) : ∃ m ∈ l, x ∈ m.2 :=
  ⟨_, mem_of_find_orElse hb, hx⟩

theorem Dev.lt_of_mem_eligibleLanes {d : Dev} {p : Pkt} {o : Bool} {ls : List Nat} {l : Nat} (h : l ∈ d.eligibleLanes p o ls) : l < 1024 := by
  have hlanes : d.nLanes ≤ 1024 := by unfold Dev.nLanes; split <;> omega
  unfold Dev.eligibleLanes at h
  split at h
  · cases h
  · have hserves := (List.mem_filter.1 h).2
    simp only [Dev.baseEligible, Dev.inService, Bool.and_eq_true, decide_eq_true_eq] at hserves
    omega

/-- Selection takes a lane of the part. -/
theorem Dev.lane_of_select {d d' : Dev} {p : Pkt} {s l n : Nat} {o : Bool} (h : d.select p s o = (.lane l n, d')) : l < 1024 := by
  unfold Dev.select at h
  dsimp only at h
  split at h
  · cases h
  · split at h
    · split at h
      · cases h
      · next b hb =>
        split at h
        · cases h
        · next x hx =>
          cases h
          obtain ⟨_, hpick, hmem⟩ := exists_mem_of_find_orElse (mem_of_bestBy hb) (mem_of_bestBy hx)
          obtain ⟨m, hm, rfl⟩ := List.mem_map.1 (List.mem_filter.1 hpick).1
          obtain ⟨y, hy, hscore⟩ := List.mem_filterMap.1 hmem
          obtain ⟨v, -, rfl⟩ := Option.map_eq_some_iff.1 hscore
          obtain ⟨ms, -, rfl⟩ := List.mem_map.1 (List.mem_filter.1 hm).1
          exact Dev.lt_of_mem_eligibleLanes hy
    · split at h
      · cases h
      · next m hm =>
        split at h
        · cases h
        · next y hy =>
          cases h
          have hel := List.mem_of_getElem? hm
          obtain ⟨ms, -, rfl⟩ := List.mem_map.1 (List.mem_filter.1 hel).1
          exact Dev.lt_of_mem_eligibleLanes (List.mem_of_getElem? hy)

end Sys2Proof.Machine
end

section
/-! What becomes of the answer to a contribution that a Loom has made (R145, R146), as the counters of the Loom see it. -/

namespace Sys2Proof.Machine
open Sys2Proof.Claims

/-! ## Changes of the packet on its way -/

/-- A field of the route word beside PSN_VALID. -/
theorem Pkt.psnValid_setRw (p : Pkt) {hi lo : Nat} (v : Nat) (hl : lo ≤ hi) (h : hi < 30 ∨ 30 < lo) :
    (p.setRw hi lo v).psnValid = p.psnValid := by
  unfold Pkt.psnValid Pkt.setRw bitOf
  rw [getLsbD_setBits _ _ _ _ _ hl, if_neg (by omega)]

namespace Pkt.Closing
variable {p : Pkt} (hp : p.Closing)
include hp

theorem setRw {hi lo : Nat} (v : Nat) (hl : lo ≤ hi) (h : hi < 30 ∨ 30 < lo) : (p.setRw hi lo v).Closing :=
  ⟨hp.internal, hp.vl, (p.psnValid_setRw v hl h).trans hp.plain⟩

theorem leaving (d : Dev) (l : Nat) (o : Bool) : (d.leaving p l o none).Closing := by
  have hvl : { p with vl := d.vlOut p l }.Closing := ⟨hp.internal, by simp [Dev.vlOut, hp.vl], hp.plain⟩
  have hdetour : (if d.detourOut p l o then { p with vl := d.vlOut p l }.setRw 31 31 1 else { p with vl := d.vlOut p l }).Closing := by
    split
    · exact hvl.setRw _ (by decide) (.inr (by decide))
    · exact hvl
  unfold Dev.leaving
  rw [if_pos hp.internal]
  exact hdetour.setRw _ (by decide) (.inl (by decide))

theorem quotaMark (d : Dev) : (d.quotaMark p).Closing := by
  unfold Dev.quotaMark
  split
  · exact ⟨hp.internal, hp.vl, hp.plain⟩
  · exact hp

theorem numberPkt (d : Dev) (n : Nat) : d.numberPkt p n = some (none, d) := by
  simp [Dev.numberPkt, Pkt.takesPsn, hp.vl]

end Pkt.Closing

theorem Dev.eq_of_pkt_modPkt {d : Dev} {i : Nat} {g x : Pkt} (h : (d.modPkt i (fun _ => g)).pkt i = some x) : x = g := by
  have hid := Dev.id_of_pkt h
  obtain ⟨y, -, hy⟩ := List.mem_map.1 (List.mem_of_find?_eq_some h)
  by_cases hyi : y.id = i
  · rw [if_pos hyi] at hy
    exact hy.symm
  · rw [if_neg hyi] at hy
    exact absurd (hy ▸ hid) hyi

/-! ## Routing it -/

namespace Dev.Spares
variable {k c : Nat} {a d : Dev} (hc : c < 64) {p : Pkt} (hp : p.Closing)
include hc hp

theorem takeLane (h : a.Spares k c d) {l : Nat} (hl : l < 1024) (n : Nat) (o : Bool) : a.Spares k c (d.takeLane p l n o) := by
  have hmark : (if p.buf = 0 then d.quotaMark p else p).Closing := by
    split
    · exact hp.quotaMark d
    · exact hp
  unfold Dev.takeLane
  rw [hp.numberPkt]
  dsimp only
  split
  · exact h
  · next y hy =>
    refine Dev.Spares.enqueue hc ((h.chargeOut hc _ hy).modPkt _ _) (fun x hx => ?_) hl
    rw [Dev.eq_of_pkt_modPkt hx]
    obtain ⟨hinternal, hvl, hplain⟩ := hmark.leaving d l o
    exact ⟨hinternal, hvl, hplain⟩

theorem proceed (h : a.Spares k c d) (r : Route) : a.Spares k c (d.proceed p r) := by
  unfold Dev.proceed
  split
  · exact h
  · split
    · exact h.toLocal hc hp
    · next s o =>
      have hsel := h.select hc p s o
      split
      · next e =>
        rw [e] at hsel
        exact hsel.takeLane hc hp (Dev.lane_of_select e) _ _
      · next e => rw [e] at hsel; exact hsel
      · next e =>
        rw [e] at hsel
        exact hsel.refuseRoute hc hp _ _

theorem routed (h : a.Spares k c d) (r : Route) : a.Spares k c (d.routed p r) :=
  Dev.Spares.proceed (p := { p with route := some r }) hc ⟨hp.internal, hp.vl, hp.plain⟩ (h.modPkt _ _) r

omit hp in
theorem forward (h : a.Spares k c d) {i : Nat} (hp : ∀ p, d.pkt i = some p → p.Closing) : a.Spares k c (d.forward i) := by
  unfold Dev.forward
  split
  · exact h
  · next p hpkt =>
    have hclosing := hp p hpkt
    split
    · exact h.proceed hc hclosing _
    · split
      · exact h.routed hc hclosing _
      · split
        · next hhops => simp [hclosing.internal] at hhops
        · have hset := h.routeSet hc p
          split
          · next e =>
            rw [e] at hset
            exact hset.refuseRoute hc hclosing _ _
          · next e =>
            rw [e] at hset
            exact hset.routed hc hclosing _

end Dev.Spares

theorem Dev.sendMade_of_empty {d : Dev} (h : d.net.outbox = []) : d.sendMade = d := by
  have hnet : { d.net with outbox := [] } = d.net := by rw [← h]
  unfold Dev.sendMade
  rw [h, Dev.each_nil, hnet]

/-- A Loom's counter is as it was once the one packet that the device has made is routed. -/
theorem Dev.fld_settle_of_closing {d : Dev} {q : Pkt} (hpkts : d.net.pkts = []) (hout : d.net.outbox = [q]) (hq : q.Closing)
    (k : Nat) {c : Nat} (hc : c < 64) :
    d.settle.fld F.CNT_VAL_VALUE (cntIdx (1056 + k) c) = d.fld F.CNT_VAL_VALUE (cntIdx (1056 + k) c) := by
  obtain ⟨d₁, hd₁, hmade, hempty, hregs, hfuse⟩ : ∃ d₁ : Dev,
      d₁.pkt d.net.nextId = some { q with id := d.net.nextId, frcIn := d.tmu.frc }
      ∧ d.sendMade = d₁.forward d.net.nextId ∧ d₁.net.outbox = [] ∧ d₁.regs = d.regs ∧ d₁.fuse = d.fuse := by
    refine ⟨({ d with net := { d.net with outbox := [] } }.addPkt q).2, ?_, ?_, rfl, rfl, rfl⟩
    · exact Dev.pkt_of_single (p := { q with id := d.net.nextId, frcIn := d.tmu.frc }) (by simp [Dev.addPkt, hpkts])
    · unfold Dev.sendMade
      rw [hout]
      rfl
  have hspares : d₁.Spares k c (d₁.forward d.net.nextId) := by
    refine (Dev.Spares.refl d₁).forward hc fun p hp => ?_
    cases hd₁.symm.trans hp
    exact ⟨hq.internal, hq.vl, hq.plain⟩
  have hsettle : d.settle = d₁.forward d.net.nextId := by
    unfold Dev.settle
    rw [hmade, Dev.sendMade_of_empty (hspares.outbox.trans hempty)]
  rw [hsettle]
  exact hspares.value.trans (Dev.fld_of_regs hregs hfuse _ _)

end Sys2Proof.Machine
end

section
/-! CONTRIB that no binding accepts (R145, R202): refused with REASON 1, and counted once. -/

namespace Sys2Proof.Machine
open Sys2Proof.Claims

/-! ## No binding after the lookup of the group -/

theorem Dev.accepts_of_invalid {d : Dev} {p : Pkt} (h : d.groupValid p.cEns p.cGroup = false) (k dir : Nat) : d.accepts k p dir = none := by
  cases ha : d.accepts k p dir with
  | none => rfl
  | some x =>
    obtain ⟨i, b, c⟩ := x
    exact absurd (h.symm.trans (Dev.accepts_some ha).1) Bool.false_ne_true

theorem Dev.accepts_meetCast {d : Dev} {k dir : Nat} {p : Pkt} (h : d.accepts k p dir = none) :
    (d.meetCast p.cEns p.cGroup).accepts k p dir = none := by
  cases hv : d.groupValid p.cEns p.cGroup with
  | true => rwa [Dev.meetCast_of_valid hv]
  | false =>
    have hkeeps := ((Dev.Soft.refl d).meetCast p.cEns p.cGroup).keepsGroups
    exact Dev.accepts_of_invalid ((hkeeps.groupValid _ _).trans hv) _ _

/-! ## The count of a refusal -/

/-- The one packet of a Loom is refused: its COLL_REFUSED counts as it did before the answer went. -/
theorem fld_refuseDenied {s : State} {p : Pkt} {k fn vl opc : Nat} (h : AtFn s p fn vl opc) (hp : opc ≠ 0x32) (reason : Nat) :
    (s.d.refuseDenied k p reason).settle.fld F.CNT_VAL_VALUE (cntIdx (1056 + k) C.COLL_REFUSED)
      = (s.d.count (1056 + k) C.COLL_REFUSED 1).fld F.CNT_VAL_VALUE (cntIdx (1056 + k) C.COLL_REFUSED) := by
  obtain ⟨d₁, hd₁, hlogs, hval⟩ : ∃ d₁, s.d.refuseDenied k p reason = d₁.refuseColl p St.DENIED reason ∧ s.d.Logs d₁
      ∧ d₁.fld F.CNT_VAL_VALUE (cntIdx (1056 + k) C.COLL_REFUSED)
        = (s.d.count (1056 + k) C.COLL_REFUSED 1).fld F.CNT_VAL_VALUE (cntIdx (1056 + k) C.COLL_REFUSED) :=
    ⟨_, rfl, ((Dev.Logs.refl s.d).count _ _ _).noticeLim _ _ _ _ _, Dev.fld_noticeLim_count _ _ _ _ _ _ _⟩
  have hat := atFn_of_net h hlogs.net
  have hsend : s.d.refuseDenied k p reason = (d₁.send (answerContrib p St.DENIED reason 0 0)).endPkt p.id := by
    rw [hd₁]
    unfold Dev.refuseColl
    rw [if_neg (by rwa [h.opc])]
  have hout : (s.d.refuseDenied k p reason).net.outbox = [answerContrib p St.DENIED reason 0 0] := by
    rw [hsend, Dev.outbox_endPkt]
    show d₁.net.outbox ++ _ = _
    rw [hat.calm.1, List.nil_append]
  have hpkts : (s.d.refuseDenied k p reason).net.pkts = [] := by
    rw [hsend]
    exact Dev.pkts_endPkt_of_only hat.only
  rw [Dev.fld_settle_of_closing hpkts hout (answerContrib_closing p (by decide) _ _ _) k (by decide), hsend]
  exact (Dev.fld_endPkt _ _ (by decide) _).trans hval

/-- A CONTRIB that the Loom has no binding for is answered DENIED, and counted. -/
theorem contrib_unbound {s : State} {p : Pkt} {k : Nat} (hk : k < 4) (h : AtFn s p (0x10 + k) p.vl 0x30) (ha : s.d.accepts k p 0 = none) :
    Completes (.contrib p.id) s (fun t => Quiet s t ∧ Counts s t (1056 + k) 7 1)
    ∧ SendsSome (.contrib p.id) s (fun q => q.opc = 0x43 ∧ q.dst = p.src ∧ q.status = 2) := by
  have hm : MakesThenRoutes (.contrib p.id) s ((s.d.meetCast p.cEns p.cGroup).refuseDenied k p 1) := by
    refine ⟨?_, rfl⟩
    show contribMade p.id s = _
    simp only [contribMade, onDevM_eq, atLoom_of_atFn h hk, Dev.whenSome_some, Dev.collEntry, Dev.accepts_meetCast ha]
  have hlogs := (Dev.Logs.refl s.d).meetCast p.cEns p.cGroup
  have hsoft := (Dev.Soft.refl s.d).meetCast p.cEns p.cGroup
  have hvalue := ((Dev.Spares.refl (k := k) (c := C.COLL_REFUSED) s.d).meetCast (by decide) p.cEns p.cGroup).value
  obtain ⟨-, hsends⟩ := refuseColl_answers (d := ((s.d.meetCast p.cEns p.cGroup).countLoom k C.COLL_REFUSED 1).noticeLim _ _ _ _ _) hm
    ((hsoft.countLoom _ _ _).noticeLim _ _ _ _ _) (by rw [h.opc]; decide) (by decide)
  refine ⟨completes_of_makes hm ⟨⟨rfl, rfl, (hsoft.refuseDenied _ _ _).settle⟩, ?_⟩, hsends⟩
  exact counts_of_logs hlogs hvalue (fld_refuseDenied (atFn_of_net h hlogs.net) (by decide) 1)

end Sys2Proof.Machine

namespace Sys2Proof.Claims
open Sys2Proof.Machine

/-- Settles O43: what the checks of Loom entry make of each packet, by the binding, the op and the sender that it names. -/
theorem collectivePackets : Obligations.CollectivePackets := by
  intro s p k i b c
  refine ⟨fun e h hin => ⟨?_, ?_, ?_, ?_⟩, ?_, ?_, fun e h hin hshape => ⟨?_, fun hnew => ⟨?_, ?_⟩⟩, fun e h hin => ⟨?_, ?_⟩, ?_,
    fun h hcur => ⟨fun hkind => ?_, fun hkind => ?_⟩, ?_⟩
  · exact contrib_opens h hin
  · exact fun a => contrib_enters h hin
  · exact contrib_closed h hin
  · exact contrib_misshapen h hin
  · exact contrib_otherOp
  · exact contrib_unbound
  · exact a2aRows_duplicate h hin hshape
  · exact a2aRows_entered h hin hshape hnew
  · exact fun ca => a2aRows_delivers h hin hshape hnew
  · exact arrive_entered h hin
  · exact arrive_again h hin
  · exact result_opens
  · have htaken := release_taken h hcur
    rwa [Bind.released, if_pos hkind] at htaken
  · have htaken := release_taken h hcur
    rwa [Bind.released, if_neg (by omega), if_pos hkind] at htaken
  · exact fun x h hcur hx hst => sendStatus_resends h hcur hx hst

end Sys2Proof.Claims
end

section
/-! What the packet path keeps, packaged once: a property that its elementary changes keep holds on wherever packets are routed,
resequenced, answered and discarded (R57 to R76, R99 to R112, R218). -/

namespace Sys2Proof.Machine

/-! ## The elementary changes -/

/-- A counter that the packet path counts in. Of the memory fabric's these are LEDGER_STALL and the programmable ones (R339, R342). -/
def pathCounts (inst idx : Nat) : Prop := idx < 64 ∧ (inst = 3 → idx = C.LEDGER_STALL ∨ 48 ≤ idx)

/-- Counts of the packet path and limited notices keep the property. -/
structure LoggingKeeps (R : Dev → Prop) : Prop where
  count : ∀ {d : Dev} {inst idx : Nat} (n : Nat), pathCounts inst idx → R d → R (d.count inst idx n)
  noticeLim : ∀ {d : Dev} (ty src prod data key : Nat), R d → R (d.noticeLim ty src prod data key)

/-- So do free values, amounts in use, and changes of the Wardrobe that leave packets made, flows and contexts. -/
structure CarriageKeeps (R : Dev → Prop) : Prop extends LoggingKeeps R where
  fresh : ∀ {d : Dev} (n : Nat), R d → R { d with fresh := n }
  inUse : ∀ {d : Dev} {f : Fld} (i v : Nat), f.rf.busy = true ∧ f.rf.logging = false → R d → R (d.setFld f i v)
  carry : ∀ {d : Dev} (n : Net), (n.outbox, n.flows, n.ctxs) = (d.net.outbox, d.net.flows, d.net.ctxs) → R d → R { d with net := n }

/-- So does every change of the Wardrobe. -/
structure RoutingKeeps (R : Dev → Prop) : Prop extends CarriageKeeps R where
  net : ∀ {d : Dev} (n : Net), R d → R { d with net := n }

/-- A pass over a list keeps what its steps keep. -/
theorem Dev.each_induct {α : Type} {R : Dev → Prop} {f : Dev → α → Dev} {l : List α} (hf : ∀ d, ∀ x ∈ l, R d → R (f d x)) :
    ∀ {d : Dev}, R d → R (d.each l f) := by
  induction l with
  | nil => exact fun h => h
  | cons x l ih =>
    exact fun h => ih (fun d y hy => hf d y (List.mem_cons_of_mem _ hy)) (hf _ x List.mem_cons_self h)

/-! ## Counting and looking up -/

namespace LoggingKeeps
variable {R : Dev → Prop} (hR : LoggingKeeps R) {d : Dev} (h : R d)
include hR h

theorem countGlb {c : Nat} (hc : c < 64) : R (d.countGlb c) := hR.count 1 ⟨hc, by simp⟩ h
theorem countTbl {c : Nat} (hc : c < 64) : R (d.countTbl c) := hR.count 1 ⟨hc, by simp⟩ h
theorem countWrd {c : Nat} (hc : c < 64) : R (d.countWrd c) := hR.count 1 ⟨hc, by simp⟩ h
theorem countPort (l : Nat) {c : Nat} (hc : c < 64) : R (d.countPort l c) := hR.count 1 ⟨hc, by omega⟩ h

theorem countEv (inst ev n : Nat) (x : EvCtx) : R (d.countEv inst ev n x) := by
  refine Dev.each_induct (fun d j hj hd => ?_) h
  have hj : j < 16 := List.mem_range.1 hj
  split
  · exact hR.count n ⟨by omega, fun _ => .inr (by omega)⟩ hd
  · exact hd

theorem discardAs (p : Pkt) {c : Nat} (hc : c < 64) : R (d.discardAs p c) := by
  unfold Dev.discardAs
  split
  · exact hR.countGlb h (by decide)
  · exact hR.countEv (hR.countPort h _ hc) _ _ _ _

theorem discardOther (p : Pkt) : R (d.discardOther p) := by
  unfold Dev.discardOther
  split
  · exact hR.countGlb h (by decide)
  · exact hR.countEv (hR.countPort h _ (by decide)) _ _ _ _

theorem countDrop (p : Pkt) : R (d.countDrop p) := by
  unfold Dev.countDrop
  split
  · exact h
  · exact hR.countEv h _ _ _ _

theorem countStale (p : Pkt) : R (d.countStale p) := by
  unfold Dev.countStale
  split
  · split
    · exact hR.countGlb h (by decide)
    · exact hR.countPort h _ (by decide)
  · split
    · exact hR.countGlb h (by decide)
    · exact hR.countPort h _ (by decide)

theorem countMark (p : Pkt) (l m : Nat) : R (d.countMark p l m) := by
  have hmark : R (if m = 1 then d.countPort l C.MARK_T1 else if m = 2 then d.countPort l C.MARK_T2 else d) := by
    split
    · exact hR.countPort h _ (by decide)
    · split
      · exact hR.countPort h _ (by decide)
      · exact h
  unfold Dev.countMark
  dsimp only
  split
  · exact hR.countEv hmark _ _ _ _
  · exact hmark

theorem noteParity (t i : Nat) : R (d.noteParity t i) := hR.noticeLim _ _ _ _ _ (hR.countTbl h (by decide))

theorem look (t i : Nat) : R (d.look t i).2 := by
  unfold Dev.look
  split
  · exact h
  · split
    · exact hR.noteParity h t i
    · exact h

theorem swatchAt (prod addr : Nat) : R (d.swatchAt prod addr).2 := by
  unfold Dev.swatchAt
  dsimp only
  split
  · exact h
  · split
    · exact hR.noteParity h _ _
    · exact h

theorem tcamCoord (p t : Nat) : R (d.tcamCoord p t).2 := by
  unfold Dev.tcamCoord Dev.tcamFind
  exact Dev.each_induct (R := R) (fun _ x _ hd => hR.noteParity hd 0 x.1) h

theorem routeEntry (t n : Nat) (v s : Fld) : R (d.routeEntry t n v s).2 := by
  unfold Dev.routeEntry
  split
  · exact h
  · split
    · exact hR.noteParity h t n
    · exact h

theorem arithmetic (t : Nat) : R (d.arithmetic t).2 := by
  unfold Dev.arithmetic
  split
  · exact h
  · split
    · exact hR.routeEntry h _ _ _ _
    · exact hR.routeEntry h _ _ _ _

theorem routeSet (p : Pkt) : R (d.routeSet p).2 := by
  have hcoord := hR.tcamCoord h p.prod p.dst.toNat
  unfold Dev.routeSet
  split
  · next e =>
    rw [e] at hcoord
    split <;> exact hcoord
  · next d₁ e =>
    rw [e] at hcoord
    have harith := hR.arithmetic hcoord p.dst.toNat
    split
    · next e₂ => rw [e₂] at harith; exact harith
    · next e₂ => rw [e₂] at harith; exact harith

theorem members (s : Nat) : R (d.members s).2 := hR.look (hR.look h 2 (2 * s)) 2 (2 * s + 1)

theorem checkSpray (s : Nat) (ms : List (Nat × List Nat)) : R (d.checkSpray s ms) := by
  refine Dev.each_induct (fun d m _ hd => ?_) h
  split
  · exact hd
  · split
    · exact hd
    · exact hR.noticeLim _ _ _ _ _ hd

theorem noteRoute (p : Pkt) (cause data : Nat) : R (d.noteRoute p cause data) := by
  unfold Dev.noteRoute
  split
  · exact hR.noticeLim _ _ _ _ _ h
  · exact h
  · exact hR.noticeLim _ _ _ _ _ h
  · exact hR.noticeLim _ _ _ _ _ h

end LoggingKeeps

theorem routeCounter_lt (cause : Nat) : routeCounter cause < 64 := by
  unfold routeCounter
  split <;> decide

/-! ## Cells, queues and lanes -/

namespace CarriageKeeps
variable {R : Dev → Prop} (hR : CarriageKeeps R) {d : Dev} (h : R d)
include hR h

theorem modPkt (id : Nat) (f : Pkt → Pkt) : R (d.modPkt id f) := hR.carry _ rfl h
theorem stamp : R d.stamp.2 := hR.carry _ rfl h
theorem moveTo (id : Nat) (pl : Place) : R (d.moveTo id pl) := hR.modPkt (hR.stamp h) _ _
theorem setLv (k : Nat) (x : LaneVl) : R (d.setLv k x) := hR.carry _ rfl h
theorem addBuf (b : Buf) : R (d.addBuf b).2 := hR.carry _ rfl h
theorem setBufs (m : NMap Buf) : R { d with net := { d.net with bufs := m } } := hR.carry _ rfl h
theorem setOrigins (l : List Origin) : R (d.setOrigins l) := hR.carry _ rfl h

theorem addUsed_when (q n : Nat) (o : Bool) : R ((d.addUsed q n).when o (fun d => d.countWrd C.QUOTA_OVER)) := by
  have hused : R (d.addUsed q n) := hR.inUse _ _ ⟨rfl, rfl⟩ h
  cases o with
  | false => exact hused
  | true => exact hR.countWrd hused (by decide)

theorem grant (k : Nat) : R (d.grant k) := by
  have hback : R (d.giveBack k) := by
    unfold Dev.giveBack
    dsimp only
    split
    · exact h
    · exact hR.setLv h _ _
  unfold Dev.grant
  split
  · unfold Dev.grantShared
    dsimp only
    split
    · exact hR.setLv hback _ _
    · exact hback
  · exact h

theorem returnCells (b : Buf) (n : Nat) : R (d.returnCells b n) := by
  have hused : R (if b.pool = .coll ∨ b.pool = .collDue then d else d.whenSome b.prod (fun q d => d.subUsed q n)) := by
    split
    · exact h
    · cases b.prod with
      | none => exact h
      | some q => exact hR.inUse _ _ ⟨rfl, rfl⟩ h
  unfold Dev.returnCells
  dsimp only
  split
  · exact hR.grant (hR.setLv hused _ _) _
  · exact hR.grant (hR.setLv hused _ _) _
  · exact hR.grant (hR.setLv hused _ _) _
  · exact hused
  · exact hused
  · exact hused

theorem freeBuf (id : Nat) : R (d.freeBuf id) := by
  unfold Dev.freeBuf
  split
  · exact h
  · split
    · exact hR.setBufs h _
    · exact hR.returnCells (hR.setBufs h _) _ _

theorem trimBuf (id : Nat) : R (d.trimBuf id) := by
  unfold Dev.trimBuf
  split
  · exact h
  · split
    · exact hR.returnCells (hR.setBufs h _) _ _
    · exact h

theorem endPkt (id : Nat) : R (d.endPkt id) := by
  unfold Dev.endPkt
  split
  · exact h
  · next p _ =>
    have hgone : R ((d.freeBuf p.buf).dropPkt id) := hR.carry _ rfl (hR.freeBuf h p.buf)
    exact hR.carry _ rfl (hR.trimBuf hgone p.buf)

theorem chargeSource (k : Nat) (p : Pkt) {x : Nat × Dev} (hx : d.chargeSource k p = some x) : R x.2 := by
  unfold Dev.chargeSource at hx
  dsimp only at hx
  split at hx
  · cases hx
    exact hR.addBuf (hR.setLv h _ _) _
  · split at hx
    · cases hx
      exact hR.addBuf (hR.addUsed_when (hR.setLv h _ _) _ _ _) _
    · cases hx

theorem chargeColl (id : Nat) {x : Dev} (hx : d.chargeColl id = some x) : R x := by
  unfold Dev.chargeColl at hx
  split at hx
  · cases hx; exact h
  · split at hx
    · cases hx; exact h
    · split at hx
      · cases hx; exact hR.setBufs h _
      · cases hx

theorem chargeOut (p : Pkt) {x : Nat × Dev} (hx : d.chargeOut p = some x) : R x.2 := by
  unfold Dev.chargeOut at hx
  split at hx
  · exact hR.chargeSource h _ _ hx
  · obtain ⟨y, hy, rfl⟩ := Option.map_eq_some_iff.1 hx
    exact hR.chargeColl h _ hy

theorem assignPsn (p : Pkt) {x : Nat × Dev} (hx : d.assignPsn p = some x) : R x.2 := by
  unfold Dev.assignPsn at hx
  dsimp only at hx
  split at hx
  · cases hx; exact hR.setOrigins h _
  · have hfree : R d.freeNat.2 := hR.fresh _ h
    split at hx
    · cases hx
    · split at hx
      · cases hx; exact hR.setOrigins hfree _
      · cases hx; exact hR.setOrigins hfree _

theorem numberPkt (p : Pkt) (n : Nat) {x : Option Nat × Dev} (hx : d.numberPkt p n = some x) : R x.2 := by
  unfold Dev.numberPkt at hx
  split at hx
  · obtain ⟨y, hy, rfl⟩ := Option.map_eq_some_iff.1 hx
    exact hR.assignPsn h _ hy
  · cases hx; exact h

theorem stallPkt (p : Pkt) : R (d.stallPkt p) := by
  unfold Dev.stallPkt
  split
  · exact h
  · exact hR.noticeLim _ _ _ _ _ (hR.countWrd (hR.modPkt h _ _) (by decide))

theorem select (p : Pkt) (s : Nat) (o : Bool) : R (d.select p s o).2 := by
  have hms : R ((d.members s).2.checkSpray s (d.members s).1) := hR.checkSpray (hR.members h s) _ _
  unfold Dev.select
  dsimp only
  split
  · exact hms
  · split
    · split
      · exact hms
      · have hptr : ∀ (q : Prop) [Decidable q] (v : NMap Nat), R (if q then
            { ((d.members s).2.checkSpray s (d.members s).1) with
              net := { ((d.members s).2.checkSpray s (d.members s).1).net with sprayPtr := v } }
            else (d.members s).2.checkSpray s (d.members s).1) := by
          intro q _ v
          split
          · exact hR.carry _ rfl hms
          · exact hms
        split
        · exact hptr _ _
        · exact hptr _ _
    · split
      · exact hms
      · split
        · exact hms
        · exact hms

theorem markPkt (p : Pkt) (l : Nat) : R (d.markPkt p l) := hR.modPkt (hR.countMark h _ _ _) _ _

theorem discarded (p : Pkt) : R ((d.discardOther p).endPkt p.id) := hR.endPkt (hR.discardOther h _) _

theorem letGo (p : Pkt) (lane : Nat) : R (d.letGo p lane) := by
  unfold Dev.letGo
  split
  · exact hR.moveTo h _ _
  · split
    · exact hR.moveTo h _ _
    · exact hR.discarded h _

end CarriageKeeps

/-! ## Answers and refusals -/

namespace RoutingKeeps
variable {R : Dev → Prop} (hR : RoutingKeeps R) {d : Dev} (h : R d)
include hR h

theorem send (p : Pkt) : R (d.send p) := hR.net _ h
theorem modCtx (k : CtxKey) (f : Ctx → Ctx) : R (d.modCtx k f) := hR.net _ h
theorem setCtxs (l : List Ctx) : R (d.setCtxs l) := hR.net _ h
theorem setFlow (f : Flow) : R (d.setFlow f) := hR.net _ h
theorem countPoison (dst : BitVec 32) (prod : Nat) : R (d.countPoison dst prod) := hR.net _ h

/-- A request is answered and counted. -/
theorem answered (p q : Pkt) : R (((d.send q).countEv 3 10 1 p.ctx).countDrop p) := hR.countDrop (hR.countEv (hR.send h q) _ _ _ _) _

theorem refuse (p : Pkt) (st : Nat) {drop : Dev → Dev} (hd : R (drop d)) : R (d.refuse p st drop) := by
  unfold Dev.refuse
  refine hR.endPkt ?_ _
  split
  · exact hR.answered h _ _
  · split
    · exact hR.countDrop (hR.send h _) _
    · exact hd

theorem refuseReq (p : Pkt) (st : Nat) {drop : Dev → Dev} (hd : R (drop d)) : R (d.refuseReq p st drop) := by
  unfold Dev.refuseReq
  refine hR.endPkt ?_ _
  split
  · exact hR.answered h _ _
  · exact hd

theorem refuseGen (p : Pkt) (st : Nat) : R (d.refuseGen p st) := by
  have hstale : R (if st = St.GEN_STALE then d.countStale p else d) := by
    split
    · exact hR.countStale h _
    · exact h
  unfold Dev.refuseGen
  refine hR.refuse hstale _ _ ?_
  split
  · exact hR.discardAs hstale _ (by decide)
  · exact hR.countDrop hstale _

theorem unsupported (p : Pkt) : R (d.unsupported p) := hR.refuse h _ _ (hR.discardOther h p)

theorem refuseRoute (p : Pkt) (cause s : Nat) : R (d.refuseRoute p cause s) := by
  have hnote := hR.noteRoute h p cause (p.laneData + s * 2 ^ 32 + p.dst.toNat)
  unfold Dev.refuseRoute
  split
  · exact hR.endPkt (hR.send h _) _
  · exact hR.refuse hnote _ _ (hR.discardAs hnote _ (routeCounter_lt cause))

theorem completeReq (p : Pkt) (st lane : Nat) : R (d.completeReq p st lane) := by
  unfold Dev.completeReq
  refine hR.endPkt ?_ _
  split
  · exact hR.send h _
  · exact hR.countEv (hR.send h _) _ _ _ _

/-! ## Resequencing (R109 to R112, R218) -/

theorem raiseErr (src dst : BitVec 32) (st : Nat) (w : Bool) : R (d.raiseErr src dst st w) := by
  unfold Dev.raiseErr
  dsimp only
  split
  · exact h
  · exact hR.setFlow h _

theorem noteLedger : R d.noteLedger := hR.inUse _ _ ⟨rfl, rfl⟩ (hR.inUse _ _ ⟨rfl, rfl⟩ h)

theorem ledgerAdd (p : Pkt) : R (d.ledgerAdd p) := hR.noteLedger (hR.net _ (hR.setFlow h _))

theorem addCtx (c : Ctx) : R (d.addCtx c) := hR.inUse _ _ ⟨rfl, rfl⟩ (hR.inUse _ _ ⟨rfl, rfl⟩ (hR.net _ h))

theorem deliver1 (c : Ctx) (p : Pkt) {x : Dev} (hx : d.deliver1 c p = some x) : R x := by
  unfold Dev.deliver1 at hx
  dsimp only at hx
  split at hx
  · split at hx
    · cases hx; exact hR.completeReq (hR.countPoison h _ _) _ _ _
    split at hx
    · cases hx; exact hR.completeReq (hR.raiseErr h _ _ _ _) _ _ _
    split at hx
    · cases hx
      split
      · exact hR.completeReq (hR.raiseErr h _ _ _ _) _ _ _
      · exact hR.discarded h _
    split at hx
    · cases hx
    split at hx
    · split at hx
      · cases hx; exact hR.completeReq (hR.setFlow h _) _ _ _
      · cases hx
    split at hx
    · cases hx
    split at hx
    · cases hx; exact hR.completeReq (hR.setFlow h _) _ _ _
    split at hx
    · cases hx
    · cases hx; exact hR.letGo (hR.ledgerAdd h _) _ _
  · split at hx
    · cases hx; exact hR.discarded h _
    · cases hx; exact hR.letGo h _ _

omit h in
theorem advance (n : Nat) : ∀ {d : Dev} (_ : R d) (k : CtxKey), R (Dev.advance n d k) := by
  induction n with
  | zero => exact fun h _ => h
  | succ n ih =>
    intro d h k
    unfold Dev.advance
    split
    · exact h
    · split
      · exact h
      · split
        · exact hR.modCtx h _ _
        · split
          · next hx => exact ih (hR.modCtx (hR.deliver1 h _ _ hx) _ _) k
          · refine hR.modCtx ?_ _ _
            split
            · exact hR.noticeLim _ _ _ _ _ (hR.count 1 ⟨by decide, fun _ => .inl rfl⟩ h)
            · exact h

theorem runCtx (k : CtxKey) : R (d.runCtx k) := hR.advance _ h k

theorem gapReport (c : Ctx) (p : Pkt) (first n : Nat) {x : Dev} (hx : d.gapReport c p first n = some x) : R x := by
  unfold Dev.gapReport at hx
  dsimp only at hx
  split at hx
  · cases hx; exact h
  · obtain ⟨y, hy, rfl⟩ := Option.map_eq_some_iff.1 hx
    exact hR.net _ (hR.countMark (hR.chargeSource h _ _ hy) _ _ _)

theorem skipGap (c : Ctx) (p : Pkt) (n : Nat) {x : Dev} (hx : d.skipGap c p n = some x) : R x := by
  have hcount : R (d.count 2 C.RSQ_GAP n) := hR.count n ⟨by decide, by simp⟩ h
  unfold Dev.skipGap at hx
  dsimp only at hx
  split at hx
  · exact hR.gapReport h _ _ _ _ hx
  · cases hx
    split
    · exact hR.raiseErr hcount _ _ _ _
    · exact hcount

theorem expireGap (k : CtxKey) : R (d.expireGap k) := by
  unfold Dev.expireGap
  cases d.ctx k with
  | none => exact h
  | some c =>
    show R (d.passGap k c (d.lowestHeld c))
    cases d.lowestHeld c with
    | none => exact hR.modCtx h _ _
    | some p =>
      show R (d.moveGap k c p)
      unfold Dev.moveGap
      cases hx : d.skipTo c p with
      | none => exact h
      | some x =>
        have hskip : R x := by
          unfold Dev.skipTo at hx
          split at hx
          · cases hx; exact h
          · exact hR.skipGap h _ _ _ hx
        exact hR.runCtx (hR.modCtx hskip _ _) _

theorem lateOrDup (c : Ctx) (p : Pkt) : R (d.lateOrDup c p) := by
  unfold Dev.lateOrDup
  split
  · split
    · exact hR.completeReq (hR.countPoison h _ _) _ _ _
    · exact hR.completeReq h _ _ _
  · split
    · exact hR.letGo h _ _
    · exact hR.endPkt h _

/-- The PSNs skipped by an overrun are treated, and NEXT moves past them. -/
theorem skipped (k : CtxKey) (c : Ctx) (p : Pkt) (n : Nat) (f : Ctx → Ctx) :
    R (d.whenSome (d.skipGap c p n) (fun x _ => x.modCtx k f)) := by
  cases hx : d.skipGap c p n with
  | none => exact h
  | some x => exact hR.modCtx (hR.skipGap h _ _ _ hx) _ _

omit h in
theorem overrunTo (n : Nat) : ∀ {d : Dev} (_ : R d) (k : CtxKey) (p : Pkt) (u : Nat), R (Dev.overrunTo n d k p u) := by
  induction n with
  | zero => exact fun h _ _ _ => h
  | succ n ih =>
    intro d h k p u
    unfold Dev.overrunTo
    split
    · exact h
    · split
      · exact h
      · split
        · exact h
        · split
          · split
            · exact ih (hR.expireGap h _) _ _ _
            · exact hR.skipped h _ _ _ _ _
          · exact hR.skipped h _ _ _ _ _

theorem rsqFeed (c : Ctx) (p : Pkt) (l q : Nat) : R (d.rsqFeed c p l q) := by
  have hheld : R (d.modPkt p.id (fun x => { x with place := .held l q })) := hR.modPkt h _ _
  unfold Dev.rsqFeed
  dsimp only
  split
  · split
    · exact hR.lateOrDup (hR.countWrd h (by decide)) _ _
    · split
      · exact hR.runCtx hheld _
      · exact hR.modCtx hheld _ _
  · split
    · split
      · exact hR.moveTo h _ _
      · have hover : R (if p.overrun then d else (d.modPkt p.id (fun x => { x with overrun := true })).countWrd C.RSQ_OVERRUN) := by
          split
          · exact h
          · exact hR.countWrd (hR.modPkt h _ _) (by decide)
        have hpast := hR.overrunTo ((d.heldOf c.ckey).length + 1) hover c.ckey
          { p with place := .rsqWait l q } ((p.rsqNo + 2 ^ 24 - 4096) % 2 ^ 24)
        split
        · exact hpast
        · split
          · exact hR.moveTo hpast _ _
          · exact hR.runCtx (hR.modPkt hpast _ _) _
    · exact hR.lateOrDup (hR.countWrd h (by decide)) _ _

theorem rsqJoin (c : Ctx) (p : Pkt) (l q : Nat) : R (d.rsqJoin c p l q) := by
  have hnumber : R (d.rsqNumber c p) := by
    unfold Dev.rsqNumber
    split
    · exact hR.modPkt h _ _
    · exact hR.modCtx (hR.modPkt h _ _) _ _
  unfold Dev.rsqJoin
  dsimp only
  split
  · exact hR.modPkt hnumber _ _
  · exact hR.rsqFeed hnumber _ _ _ _

theorem rsqOpen (p : Pkt) (l q : Nat) : R (d.rsqOpen p l q) := by
  unfold Dev.rsqOpen
  dsimp only
  split
  · exact hR.modPkt (hR.addCtx h _) _ _
  · exact hR.runCtx (hR.modPkt (hR.addCtx h _) _ _) _

theorem rsqPlace (id l q : Nat) : R (d.rsqPlace id l q) := by
  unfold Dev.rsqPlace
  split
  · exact h
  · split
    · exact hR.rsqJoin h _ _ _ _
    · split
      · exact hR.moveTo (hR.noticeLim _ _ _ _ _ (hR.countWrd h (by decide))) _ _
      · exact hR.rsqOpen h _ _ _

/-! ## Routing (R43 to R76) -/

theorem enqueue (id l : Nat) : R (d.enqueue id l) := by
  unfold Dev.enqueue
  split
  · exact h
  · next p _ =>
    have hmark := hR.markPkt h p l
    dsimp only
    split
    · exact hR.refuseGen hmark _ _
    · split
      · exact hR.rsqPlace hmark _ _ _
      · exact hR.moveTo hmark _ _

theorem toBolt (p : Pkt) : R (d.toBolt p) := by
  unfold Dev.toBolt
  split
  · split
    · exact hR.refuseGen h _ _
    · exact hR.rsqPlace h _ _ _
  · exact hR.unsupported h _

theorem toLoom (p : Pkt) (fn : Nat) : R (d.toLoom p fn) := by
  unfold Dev.toLoom
  split
  · split
    · exact hR.refuseGen h _ _
    · exact hR.moveTo h _ _
  · exact hR.unsupported h _

theorem toPrompter (p : Pkt) : R (d.toPrompter p) := by
  unfold Dev.toPrompter
  split
  · split
    · exact hR.discarded h _
    · exact hR.moveTo h _ _
  · split
    · exact hR.moveTo h _ _
    · exact hR.unsupported h _

theorem toLocal (p : Pkt) : R (d.toLocal p) := by
  unfold Dev.toLocal
  generalize bitsOf p.dst 7 0 = fn
  dsimp only
  split
  · exact hR.moveTo h _ _
  · split
    · exact hR.toBolt h _
    · split
      · exact hR.toLoom h _ _
      · split
        · exact hR.toPrompter h _
        · split
          · exact hR.unsupported h _
          · exact hR.refuseReq h _ _ (hR.discardAs h _ (by decide))

theorem takeLane (p : Pkt) (l n : Nat) (o : Bool) : R (d.takeLane p l n o) := by
  unfold Dev.takeLane
  split
  · exact hR.stallPkt h _
  · next hn =>
    dsimp only
    split
    · exact h
    · next hc => exact hR.enqueue (hR.modPkt (hR.chargeOut (hR.numberPkt h _ _ hn) _ hc) _ _) _ _

theorem proceed (p : Pkt) (r : Route) : R (d.proceed p r) := by
  unfold Dev.proceed
  split
  · exact h
  · split
    · exact hR.toLocal h _
    · next s o =>
      have hsel := hR.select h p s o
      split
      · next e => rw [e] at hsel; exact hR.takeLane hsel _ _ _ _
      · next e => rw [e] at hsel; exact hsel
      · next e => rw [e] at hsel; exact hR.refuseRoute hsel _ _ _

theorem routed (p : Pkt) (r : Route) : R (d.routed p r) := hR.proceed (hR.modPkt h _ _) _ _

theorem forward (id : Nat) : R (d.forward id) := by
  unfold Dev.forward
  split
  · exact h
  · next p _ =>
    split
    · exact hR.proceed h _ _
    · split
      · exact hR.routed h _ _
      · split
        · exact hR.endPkt (hR.discardAs (hR.noticeLim _ _ _ _ _ h) _ (by decide)) _
        · have hset := hR.routeSet h p
          split
          · next e => rw [e] at hset; exact hR.refuseRoute hset _ _ _
          · next e => rw [e] at hset; exact hR.routed hset _ _

theorem settle : R d.settle := by
  have hmade : ∀ {d : Dev}, R d → R d.sendMade := fun h =>
    Dev.each_induct (R := R) (fun d p _ hd => hR.forward (d := (d.addPkt p).2) (hR.net _ hd) _) (hR.net _ h)
  exact hmade (hmade h)

end RoutingKeeps

end Sys2Proof.Machine
end

section
/-! What routing leaves of the notice relay and of FLAG_TIMEOUT (R218, R333), and what a completion of the device's own leaves of the
terminals' accounts: it takes no part in VL1 flows and their contexts (R109, R218). -/

namespace Sys2Proof.Machine
open Sys2Proof.Claims

/-! ## The relay, and a counter that the packet path does not count in -/

/-- A counter keeps its value while another counts that is not the low half of its pair. -/
theorem Dev.fld_count_of_apart (d : Dev) {inst idx i : Nat} (hself : cntIdx inst idx ≠ i) (hpair : idx % 2 = 0 → cntIdx inst idx + 1 ≠ i)
    (n : Nat) : (d.count inst idx n).fld F.CNT_VAL_VALUE i = d.fld F.CNT_VAL_VALUE i := by
  have hset : ∀ (d : Dev) (f : Fld) (j v : Nat), f.lo ≤ f.hi → j ≠ i →
      (d.setFld f j v).fld F.CNT_VAL_VALUE i = d.fld F.CNT_VAL_VALUE i :=
    fun d f j v hf hj => Dev.fld_setFld_of_ne _ _ _ _ _ _ hf (by decide) (.inl fun e => hj e.2.symm)
  have hvalue := hset d F.CNT_VAL_VALUE (cntIdx inst idx) (d.fld F.CNT_VAL_VALUE (cntIdx inst idx) + n) (by decide) hself
  unfold Dev.count
  split
  · rfl
  · split
    · rfl
    · split
      · unfold Dev.addCount
        dsimp only
        split
        · exact hvalue
        · split
          · next hchain => exact (hset _ _ _ _ (by decide) (hpair hchain.1)).trans hvalue
          · exact (hset _ _ _ _ (by decide) hself).trans hvalue
      · exact Dev.fld_of_regs rfl rfl _ _

/-- `d'` comes after `d` on the packet path: the relay has only grown, and FLAG_TIMEOUT reads the same. -/
structure Dev.Tells (d d' : Dev) : Prop where
  relay : d.relay <+: d'.relay
  flagTimeout : d'.fld F.CNT_VAL_VALUE (cntIdx 3 C.FLAG_TIMEOUT) = d.fld F.CNT_VAL_VALUE (cntIdx 3 C.FLAG_TIMEOUT)

theorem Dev.relay_noticeLim (d : Dev) (ty src prod data key : Nat) : d.relay <+: (d.noticeLim ty src prod data key).relay := by
  have hnotice := (Dev.Follows.notice { d with limits := d.limits.put (ty * 2 ^ 32 + key) d.tmu.total } ty src prod data).relay
  unfold Dev.noticeLim
  dsimp only
  split
  · split
    · exact List.prefix_refl _
    · exact hnotice
  · exact hnotice

theorem routingKeeps_tells (a : Dev) : RoutingKeeps (fun d => a.Tells d) where
  count := fun {d inst idx} n hpath h => by
    obtain ⟨hlt, hmem⟩ := hpath
    have hvalue : (d.count inst idx n).fld F.CNT_VAL_VALUE (cntIdx 3 C.FLAG_TIMEOUT) = d.fld F.CNT_VAL_VALUE (cntIdx 3 C.FLAG_TIMEOUT) := by
      unfold C.LEDGER_STALL at hmem
      refine d.fld_count_of_apart ?_ (fun heven => ?_) n <;> (unfold cntIdx C.FLAG_TIMEOUT; omega)
    exact ⟨(d.relay_count inst idx n).symm ▸ h.relay, hvalue.trans h.flagTimeout⟩
  noticeLim := fun ty src prod data key h =>
    ⟨h.relay.trans (Dev.relay_noticeLim _ ty src prod data key), (Dev.fld_noticeLim_count _ ty src prod data key _).trans h.flagTimeout⟩
  fresh := fun _ h => ⟨h.relay, (Dev.fld_of_regs rfl rfl _ _).trans h.flagTimeout⟩
  inUse := fun {d f} i v hf h => by
    have hrd : (d.setFld f i v).rd .CNT_VAL (cntIdx 3 C.FLAG_TIMEOUT) = d.rd .CNT_VAL (cntIdx 3 C.FLAG_TIMEOUT) := by
      refine Dev.rd_setFld_of_ne _ _ _ _ _ _ fun e => ?_
      have hlog := hf.2
      rw [← e.1] at hlog
      cases hlog
    exact ⟨h.relay, (congrArg (bitsOf · _ _) hrd).trans h.flagTimeout⟩
  carry := fun _ _ h => ⟨h.relay, (Dev.fld_of_regs rfl rfl _ _).trans h.flagTimeout⟩
  net := fun _ h => ⟨h.relay, (Dev.fld_of_regs rfl rfl _ _).trans h.flagTimeout⟩

theorem Dev.Tells.refl (d : Dev) : d.Tells d := ⟨List.prefix_refl _, rfl⟩

/-- Routing what the device has made raises notices, and takes none back. -/
theorem Dev.Follows.settle (d : Dev) : d.Follows d.settle :=
  have hsoft := d.soft_settle
  ⟨((routingKeeps_tells d).settle (Dev.Tells.refl d)).relay, hsoft.tmu, hsoft.regs _ _ rfl, hsoft.regs _ _ rfl⟩

/-! ## Contexts of other keys -/

/-- A context's update that keeps its key. -/
theorem Dev.ctx_modCtx (d : Dev) (k j : CtxKey) {f : Ctx → Ctx} (hf : ∀ c, (f c).ckey = c.ckey) :
    (d.modCtx k f).ctx j = if j = k then (d.ctx j).map f else d.ctx j := by
  have hkey : ∀ c : Ctx, (if c.ckey = k then f c else c).ckey = c.ckey := fun c => by
    split
    · exact hf c
    · rfl
  show (d.net.ctxs.map (fun c => if c.ckey = k then f c else c)).find? (fun c => c.ckey == j) = _
  have hfind : (fun c : Ctx => c.ckey == j) ∘ (fun c => if c.ckey = k then f c else c) = fun c => c.ckey == j :=
    funext fun c => by show ((if c.ckey = k then f c else c).ckey == j) = _; rw [hkey]
  rw [List.find?_map, hfind]
  unfold Dev.ctx
  cases hc : d.net.ctxs.find? (fun c => c.ckey == j) with
  | none => split <;> rfl
  | some c =>
    have hcj : c.ckey = j := by simpa using List.find?_some hc
    rw [← hcj]
    show some (if c.ckey = k then f c else c) = _
    split <;> rfl

/-- `d'` has made nothing more than `d`, and the flows and the contexts of requests are as before. -/
structure Dev.KeepsFlows (d d' : Dev) : Prop where
  outbox : d'.net.outbox = d.net.outbox
  flows : d'.net.flows = d.net.flows
  requests : ∀ k : CtxKey, k.vl = 1 → d'.ctx k = d.ctx k

namespace Dev.KeepsFlows
variable {a b c d : Dev}

theorem of_net (h : (b.net.outbox, b.net.flows, b.net.ctxs) = (a.net.outbox, a.net.flows, a.net.ctxs)) : a.KeepsFlows b := by
  obtain ⟨hout, hflows, hctxs⟩ : b.net.outbox = a.net.outbox ∧ b.net.flows = a.net.flows ∧ b.net.ctxs = a.net.ctxs := by
    simpa only [Prod.mk.injEq] using h
  exact ⟨hout, hflows, fun k _ => by unfold Dev.ctx; rw [hctxs]⟩

theorem trans (h : a.KeepsFlows b) (k : b.KeepsFlows c) : a.KeepsFlows c :=
  ⟨k.outbox.trans h.outbox, k.flows.trans h.flows, fun j hj => (k.requests j hj).trans (h.requests j hj)⟩

/-- A context of another VL changes. -/
theorem modCtx (d : Dev) {k : CtxKey} (hk : k.vl ≠ 1) {f : Ctx → Ctx} (hf : ∀ c, (f c).ckey = c.ckey) : d.KeepsFlows (d.modCtx k f) :=
  ⟨rfl, rfl, fun j hj => (d.ctx_modCtx k j hf).trans (if_neg fun e : j = k => hk (e ▸ hj))⟩

/-- A context of another VL opens. -/
theorem addCtx (d : Dev) {x : Ctx} (hx : x.vl ≠ 1) : d.KeepsFlows (d.addCtx x) := by
  refine ⟨rfl, rfl, fun j hj => ?_⟩
  have hne : (x.ckey == j) = false := beq_eq_false_iff_ne.2 fun e => hx ((congrArg CtxKey.vl e).trans hj)
  show (d.net.ctxs ++ [x]).find? (fun c => c.ckey == j) = _
  rw [List.find?_append, List.find?_singleton, hne]
  cases h : d.ctx j with
  | none => unfold Dev.ctx at h; rw [h]; rfl
  | some c => unfold Dev.ctx at h; rw [h]; rfl

end Dev.KeepsFlows

theorem carriageKeeps_net (a : Dev) :
    CarriageKeeps (fun d => (d.net.outbox, d.net.flows, d.net.ctxs) = (a.net.outbox, a.net.flows, a.net.ctxs)) where
  count := fun {d inst idx} n _ h => by rwa [((Dev.Logs.refl d).count inst idx n).net]
  noticeLim := fun {d} ty src prod data key h => by rwa [((Dev.Logs.refl d).noticeLim ty src prod data key).net]
  fresh := fun _ h => h
  inUse := fun _ _ _ h => h
  carry := fun _ hn h => hn.trans h

theorem carriageKeeps_keepsFlows (a : Dev) : CarriageKeeps (fun d => a.KeepsFlows d) where
  count := fun {d} _ _ n hp h => h.trans (.of_net ((carriageKeeps_net d).count n hp rfl))
  noticeLim := fun {d} ty src prod data key h => h.trans (.of_net ((carriageKeeps_net d).noticeLim ty src prod data key rfl))
  fresh := fun _ h => h.trans (.of_net rfl)
  inUse := fun _ _ _ h => h.trans (.of_net rfl)
  carry := fun _ hn h => h.trans (.of_net hn)

/-- A context of another VL delivers: its packets are no requests. -/
theorem Dev.KeepsFlows.advance (n : Nat) : ∀ {a d : Dev} (_ : a.KeepsFlows d) {k : CtxKey}, k.vl ≠ 1 → a.KeepsFlows (Dev.advance n d k) := by
  induction n with
  | zero => exact fun h _ _ => h
  | succ n ih =>
    intro a d h k hk
    unfold Dev.advance
    split
    · exact h
    · split
      · exact h
      · split
        · exact h.trans (.modCtx d hk fun _ => rfl)
        · next c _ _ _ p hp =>
          have hvl : p.vl ≠ 1 := by
            have hkey : p.ckey = k := by
              have hheld := (List.mem_filter.1 (List.mem_of_find?_eq_some hp)).2
              simp only [Bool.and_eq_true, beq_iff_eq] at hheld
              exact hheld.2
            intro hone
            apply hk
            rw [← hkey]
            show (if p.vl = 6 then 5 else p.vl) = 1
            rw [hone]
            rfl
          have hdeliver : d.deliver1 c p = some (if p.vl = 2 ∧ p.bad then (d.discardOther p).endPkt p.id else d.letGo p (p.rsqLane c.lane)) := by
            unfold Dev.deliver1
            dsimp only
            rw [if_neg hvl]
            split <;> rfl
          rw [hdeliver]
          dsimp only
          have hgone : a.KeepsFlows (if p.vl = 2 ∧ p.bad then (d.discardOther p).endPkt p.id else d.letGo p (p.rsqLane c.lane)) := by
            split
            · exact (carriageKeeps_keepsFlows a).discarded h p
            · exact (carriageKeeps_keepsFlows a).letGo h p _
          refine ih (hgone.trans (.modCtx _ hk ?_)) hk
          exact fun _ => rfl

/-! ## A completion on its way -/

/-- A completion of the device's own. -/
structure Pkt.Completing (p : Pkt) : Prop where
  internal : p.internal = true
  own : p.own = true
  vl : p.vl = 2
  opc : p.opc = 0x21

section
variable {R : Dev → Prop} (hR : CarriageKeeps R) {d : Dev} (h : R d) {p : Pkt} (hp : p.Completing)
include hR h hp

/-- What refuses a completion makes nothing of it. -/
theorem CarriageKeeps.refuse_completing (st : Nat) {drop : Dev → Dev} (hd : ∀ {d}, R d → R (drop d)) :
    R (d.refuse p st drop) ∧ R (d.refuseReq p st drop) := by
  have hreq : p.isReq = false := by simp [Pkt.isReq, hp.vl]
  have hcontrib : p.isContrib = false := by simp [Pkt.isContrib, hp.vl]
  unfold Dev.refuse Dev.refuseReq
  rw [hreq, hcontrib]
  exact ⟨hR.endPkt (hd h) _, hR.endPkt (hd h) _⟩

theorem CarriageKeeps.unsupported_completing : R (d.unsupported p) := (hR.refuse_completing h hp _ fun hd => hR.discardOther hd p).1

theorem CarriageKeeps.refuseRoute_completing (cause s : Nat) : R (d.refuseRoute p cause s) := by
  have hmis : d.miscast p s = false := by simp [Dev.miscast, hp.vl]
  unfold Dev.refuseRoute
  rw [hmis, if_neg (by simp)]
  exact (hR.refuse_completing (hR.noteRoute h p cause _) hp _ fun hd => hR.discardAs hd p (routeCounter_lt cause)).1

/-- Of the functions of the device FN 0x00 alone may take a completion. -/
theorem CarriageKeeps.toLocal_completing : R (d.toLocal p) := by
  have hunsupported := hR.unsupported_completing h hp
  unfold Dev.toLocal
  generalize bitsOf p.dst 7 0 = fn
  dsimp only
  rw [if_neg (by simp [hp.vl])]
  split
  · unfold Dev.toBolt
    rw [if_neg (by simp [hp.vl])]
    exact hunsupported
  · split
    · unfold Dev.toLoom
      rw [if_neg (by simp [hp.vl, hp.opc])]
      exact hunsupported
    · split
      · unfold Dev.toPrompter
        rw [if_neg (by simp [hp.vl]), if_neg (by simp [hp.opc])]
        exact hunsupported
      · split
        · exact hunsupported
        · exact (hR.refuse_completing h hp _ fun hd => hR.discardAs hd p (by decide)).2

end

/-- A packet as it leaves on a lane is still the device's own, and on VL2 where it was. -/
theorem Dev.leaving_vl2 (d : Dev) {p : Pkt} (hp : p.vl = 2) (l : Nat) (o : Bool) (psn : Option Nat) :
    (d.leaving p l o psn).vl = 2 ∧ (d.leaving p l o psn).own = p.own := by
  have hvl : d.vlOut p l = 2 := by simp [Dev.vlOut, hp]
  unfold Dev.leaving
  cases psn <;> dsimp only <;> split <;> split <;> exact ⟨hvl, rfl⟩

/-- A packet of another VL opens a context. -/
theorem Dev.KeepsFlows.rsqOpen {a d : Dev} (h : a.KeepsFlows d) {p : Pkt} (hp : p.ckey.vl ≠ 1) (l q : Nat) : a.KeepsFlows (d.rsqOpen p l q) := by
  unfold Dev.rsqOpen
  dsimp only
  split
  · exact (carriageKeeps_keepsFlows a).modPkt (h.trans (.addCtx d hp)) _ _
  · exact Dev.KeepsFlows.advance _ ((carriageKeeps_keepsFlows a).modPkt (h.trans (.addCtx d hp)) _ _) hp

/-- A packet is marked in its header. -/
theorem Dev.pkt_markPkt (d : Dev) {id : Nat} {p : Pkt} (h : d.pkt id = some p) (l : Nat) : (d.markPkt p l).pkt id
    = some (p.setHdr 28 27 (max p.cmIn (d.queueMark l p.vl (d.depth l p.qIdx + p.cells)))) := by
  refine Dev.pkt_modPkt_self (p := p) ?_ fun _ => rfl
  unfold Dev.pkt at h ⊢
  rwa [(Dev.SamePkts.countMark d p l _).pkts]

section
variable {a : Dev} (hctx : ∀ k : CtxKey, k.vl = 2 → a.ctx k = none) {d : Dev}
    (h : (d.net.outbox, d.net.flows, d.net.ctxs) = (a.net.outbox, a.net.flows, a.net.ctxs))
include hctx h

/-- A completion that finds no context opens one of its own. -/
theorem Dev.KeepsFlows.rsqPlace {id : Nat} (hp : ∀ p, d.pkt id = some p → p.vl = 2) (l q : Nat) : a.KeepsFlows (d.rsqPlace id l q) := by
  have hself : a.KeepsFlows d := .of_net h
  unfold Dev.rsqPlace
  split
  · exact hself
  · next p hpkt =>
    have hkey : p.ckey.vl = 2 := by
      show (if p.vl = 6 then 5 else p.vl) = 2
      rw [hp p hpkt]
      rfl
    have hnone : d.ctx p.ckey = none := by
      have hctxs : d.net.ctxs = a.net.ctxs := congrArg (fun x => x.2.2) h
      rw [← hctx _ hkey]
      unfold Dev.ctx
      rw [hctxs]
    rw [hnone]
    dsimp only
    split
    · exact (carriageKeeps_keepsFlows a).moveTo ((carriageKeeps_keepsFlows a).noticeLim _ _ _ _ _
        ((carriageKeeps_keepsFlows a).countWrd hself (by decide))) _ _
    · exact hself.rsqOpen (by simp [hkey]) l q

theorem Dev.KeepsFlows.enqueue {id : Nat} (hp : ∀ p, d.pkt id = some p → p.vl = 2 ∧ p.own = true) (l : Nat) :
    a.KeepsFlows (d.enqueue id l) := by
  unfold Dev.enqueue
  split
  · exact .of_net h
  · next p hpkt =>
    obtain ⟨hvl, hown⟩ := hp p hpkt
    have hmark := (carriageKeeps_net a).markPkt h p l
    have hcheck : (d.markPkt p l).egressCheck p l = none := by simp [Dev.egressCheck, hown]
    dsimp only
    rw [hcheck]
    dsimp only
    split
    · refine Dev.KeepsFlows.rsqPlace hctx hmark (fun x hx => ?_) l _
      rw [d.pkt_markPkt hpkt l] at hx
      cases hx
      exact hvl
    · exact .of_net ((carriageKeeps_net a).moveTo hmark _ _)

theorem Dev.KeepsFlows.takeLane {p : Pkt} (hp : p.vl = 2) (hown : p.own = true) (l n : Nat) (o : Bool) : a.KeepsFlows (d.takeLane p l n o) := by
  unfold Dev.takeLane
  split
  · exact .of_net ((carriageKeeps_net a).stallPkt h p)
  · next x hx =>
    dsimp only
    split
    · exact .of_net h
    · next y hy =>
      have hcharged := (carriageKeeps_net a).chargeOut ((carriageKeeps_net a).numberPkt h _ _ hx) _ hy
      refine Dev.KeepsFlows.enqueue hctx ((carriageKeeps_net a).modPkt hcharged _ _) (fun z hz => ?_) l
      have hmark : (if p.buf = 0 then d.quotaMark p else p).vl = 2 ∧ (if p.buf = 0 then d.quotaMark p else p).own = true := by
        split
        · unfold Dev.quotaMark
          split <;> exact ⟨hp, hown⟩
        · exact ⟨hp, hown⟩
      obtain ⟨hleft, hleftOwn⟩ := d.leaving_vl2 hmark.1 l o x.1
      rw [Dev.eq_of_pkt_modPkt hz]
      exact ⟨hleft, hleftOwn.trans hmark.2⟩

theorem Dev.KeepsFlows.proceed {p : Pkt} (hp : p.Completing) (r : Route) : a.KeepsFlows (d.proceed p r) := by
  unfold Dev.proceed
  split
  · exact .of_net h
  · split
    · exact .of_net ((carriageKeeps_net a).toLocal_completing h hp)
    · next s o =>
      have hsel := (carriageKeeps_net a).select h p s o
      split
      · next e => rw [e] at hsel; exact Dev.KeepsFlows.takeLane hctx hsel hp.vl hp.own _ _ _
      · next e => rw [e] at hsel; exact .of_net hsel
      · next e => rw [e] at hsel; exact .of_net ((carriageKeeps_net a).refuseRoute_completing hsel hp _ _)

theorem Dev.KeepsFlows.routed {p : Pkt} (hp : p.Completing) (r : Route) : a.KeepsFlows (d.routed p r) :=
  Dev.KeepsFlows.proceed (p := { p with route := some r }) hctx ((carriageKeeps_net a).modPkt h _ _) ⟨hp.internal, hp.own, hp.vl, hp.opc⟩ r

theorem Dev.KeepsFlows.forward {i : Nat} (hp : ∀ p, d.pkt i = some p → p.Completing) : a.KeepsFlows (d.forward i) := by
  unfold Dev.forward
  split
  · exact .of_net h
  · next p hpkt =>
    have hcomp := hp p hpkt
    split
    · exact Dev.KeepsFlows.proceed hctx h hcomp _
    · split
      · exact Dev.KeepsFlows.routed hctx h hcomp _
      · split
        · next hhops => simp [hcomp.internal] at hhops
        · have hset := (carriageKeeps_net a).routeSet h p
          split
          · next e => rw [e] at hset; exact .of_net ((carriageKeeps_net a).refuseRoute_completing hset hcomp _ _)
          · next e => rw [e] at hset; exact Dev.KeepsFlows.routed hctx hset hcomp _

end

/-- The one packet made, a completion, is routed: flows and contexts of requests are as before. -/
theorem Dev.settle_keepsFlows {d : Dev} {q : Pkt} (hpkts : d.net.pkts = []) (hout : d.net.outbox = [q]) (hq : q.Completing)
    (hctx : ∀ k : CtxKey, k.vl = 2 → d.ctx k = none) :
    d.settle.net.flows = d.net.flows ∧ ∀ k : CtxKey, k.vl = 1 → d.settle.ctx k = d.ctx k := by
  obtain ⟨d₁, hd₁, hmade, hempty, hflows, hctxs⟩ : ∃ d₁ : Dev,
      d₁.pkt d.net.nextId = some { q with id := d.net.nextId, frcIn := d.tmu.frc }
      ∧ d.sendMade = d₁.forward d.net.nextId ∧ d₁.net.outbox = [] ∧ d₁.net.flows = d.net.flows ∧ ∀ k, d₁.ctx k = d.ctx k := by
    refine ⟨({ d with net := { d.net with outbox := [] } }.addPkt q).2, ?_, ?_, rfl, rfl, fun _ => rfl⟩
    · exact Dev.pkt_of_single (p := { q with id := d.net.nextId, frcIn := d.tmu.frc }) (by simp [Dev.addPkt, hpkts])
    · unfold Dev.sendMade
      rw [hout]
      rfl
  have hkeeps : d₁.KeepsFlows (d₁.forward d.net.nextId) := by
    refine Dev.KeepsFlows.forward (fun k hk => (hctxs k).trans (hctx k hk)) rfl fun p hp => ?_
    cases hd₁.symm.trans hp
    exact ⟨hq.internal, hq.own, hq.vl, hq.opc⟩
  have hsettle : d.settle = d₁.forward d.net.nextId := by
    unfold Dev.settle
    rw [hmade, Dev.sendMade_of_empty (hkeeps.outbox.trans hempty)]
  rw [hsettle]
  exact ⟨hkeeps.flows.trans hflows, fun k hk => (hkeeps.requests k hk).trans (hctxs k)⟩

end Sys2Proof.Machine
end

section
/-! A request held at NEXT that its terminal completes (R218): FENCE and FLAG_HOLD_EXPIRY. -/

namespace Sys2Proof.Machine
open Sys2Proof.Claims

/-! ## Flows (R218) -/

theorem Dev.flow_congr {d d' : Dev} (h : d'.net.flows = d.net.flows) (src dst : BitVec 32) : d'.flow src dst = d.flow src dst := by
  unfold Dev.flow
  rw [h]

theorem Dev.flow_ends (d : Dev) (src dst : BitVec 32) : (d.flow src dst).src = src ∧ (d.flow src dst).dst = dst := by
  unfold Dev.flow
  cases h : d.net.flows.find? (fun f => f.src == src && f.dst == dst) with
  | none => exact ⟨rfl, rfl⟩
  | some f => simpa using List.find?_some h

theorem Dev.flow_setFlow {f : Flow} {src dst : BitVec 32} (d : Dev) (hf : f.src = src ∧ f.dst = dst) : (d.setFlow f).flow src dst = f := by
  obtain ⟨rfl, rfl⟩ := hf
  have hnone : (d.net.flows.filter (fun g => !(g.src == f.src && g.dst == f.dst))).find? (fun g => g.src == f.src && g.dst == f.dst) = none := by
    refine List.find?_eq_none.2 fun g hg hkey => ?_
    have hother := (List.mem_filter.1 hg).2
    rw [hkey] at hother
    cases hother
  show ((d.net.flows.filter (fun g => !(g.src == f.src && g.dst == f.dst)) ++ [f]).find? (fun g => g.src == f.src && g.dst == f.dst)).getD _ = f
  rw [List.find?_append, hnone]
  simp

/-- Both ERR of a flow are OK again. -/
def Dev.resetErr (d : Dev) (src dst : BitVec 32) : Dev := d.setFlow { d.flow src dst with errW := 0, errA := 0 }

theorem Dev.flow_resetErr (d : Dev) (src dst : BitVec 32) :
    (d.resetErr src dst).flow src dst = { d.flow src dst with errW := 0, errA := 0 } := d.flow_setFlow (d.flow_ends src dst)

theorem Dev.Logs.soft {d d' : Dev} (h : d.Logs d') : d.Soft d' := (Dev.SamePkts.of_logs h).soft

/-! ## The answer to a request (R59, R214) -/

section
variable (p : Pkt) (opc status src : Nat)

theorem answerReq_rw : (answerReq p opc status src).status = status % 16 ∧ bitsOf (answerReq p opc status src).rw 5 0 = 12 := by
  obtain ⟨b, hb, hrw⟩ : ∃ b < 2, (answerReq p opc status src).rw = BitVec.ofNat 32 (status * 2 ^ 20 + b * 2 ^ 16 + 12) := by
    refine ⟨_, ?_, rfl⟩
    unfold bit
    split <;> decide
  unfold Pkt.status bitsOf
  rw [hrw, BitVec.toNat_ofNat, Nat.shiftRight_eq_div_pow, Nat.shiftRight_eq_div_pow]
  omega

theorem mkPay_pair (m n v m' n' v' : Nat) : mkPay [(m, n, v), (m', n', v')]
    = BitVec.ofNat 320 (v % 2 ^ (8 * n) * 2 ^ (8 * (44 - m - n)) + v' % 2 ^ (8 * n') * 2 ^ (8 * (44 - m' - n'))) := by
  unfold mkPay
  rw [List.foldl_cons, List.foldl_cons, List.foldl_nil, Nat.zero_add]

/-- A packet that carries a TAG and an ADDR and no more. -/
theorem Pkt.tag_addr {q : Pkt} {tag addr : Nat} (hq : q.pay = mkPay [(4, 2, tag), (8, 8, addr)]) :
    q.at 4 2 = tag % 2 ^ 16 ∧ q.at 8 8 = addr % 2 ^ 64 := by
  rw [Pkt.at_of_pay _ (by omega) (by omega) (by omega), Pkt.at_of_pay _ (by omega) (by omega) (by omega), hq, mkPay_pair, BitVec.toNat_ofNat]
  omega

theorem Pkt.at_lt (m n : Nat) (hn : 1 ≤ n) (h : m + n ≤ 44) : p.at m n < 2 ^ (8 * n) := by
  have hlt := bitsOf_lt (p.rw ++ p.pay) (351 - 8 * m) (352 - 8 * (m + n))
  rwa [show 351 - 8 * m - (352 - 8 * (m + n)) + 1 = 8 * n by omega] at hlt

/-- The answer to a request repeats its ends, PROD, GEN, TC, TAG and ADDR, and carries no data. -/
theorem answerReq_reply (ho : opc < 256) : Reply p opc (status % 16) 0 (answerReq p opc status src) := by
  obtain ⟨hstatus, hpad⟩ := answerReq_rw p opc status src
  obtain ⟨htag, haddr⟩ := Pkt.tag_addr (q := answerReq p opc status src) rfl
  refine ⟨⟨mkHdr_dst _ _ _ _ _ _ _, mkHdr_src _ _ _ _ _ _ _⟩, (mkHdr_opc _ _ _ _ _ _ _).trans (Nat.mod_eq_of_lt ho), hstatus,
    ⟨?_, ?_, ?_, rfl⟩, ?_, ?_, ?_⟩
  · exact (mkHdr_prod _ _ _ _ _ _ _).trans (Nat.mod_eq_of_lt p.prod_lt)
  · exact (mkHdr_gen _ _ _ _ _ _ _).trans (Nat.mod_eq_of_lt p.gen_lt)
  · exact (mkHdr_tc _ _ _ _ _ _ _).trans (Nat.mod_eq_of_lt p.tc_lt)
  · exact htag.trans (Nat.mod_eq_of_lt (p.at_lt 4 2 (by omega) (by omega)))
  · exact haddr.trans (Nat.mod_eq_of_lt (p.at_lt 8 8 (by omega) (by omega)))
  · have hlen : (answerReq p opc status src).len = 0 := mkHdr_len _ _ _ _ _ _ _
    unfold Pkt.memLen
    rw [hlen, hpad]

/-- A completion by the device is of its own. -/
theorem answerReq_completing : (answerReq p 0x21 status src).Completing :=
  ⟨decide_eq_true (Nat.le_add_right 1024 src), rfl, rfl, mkHdr_opc _ _ _ _ _ _ _⟩

end

/-! ## The end of a hold -/

/-- A context whose held request has been completed, with no packet in its window. -/
def Ctx.passed (c : Ctx) : Ctx := { c with next := (c.next + 1) % 2 ^ 24, hold := none, full := false, gapOn := false }

/-- The held request is completed, and NEXT passes it. -/
def Dev.endHold (d : Dev) (p : Pkt) (c : Ctx) (st : Nat) : Dev := ((d.completeReq p st c.lane).passHeld c.ckey).rsqRetry

/-- The one packet is completed: it is gone, and its completion is made. -/
theorem Dev.completeReq_net {d : Dev} {p : Pkt} (h : d.net.pkts = [p]) (st lane : Nat) :
    (d.completeReq p st lane).net.pkts = []
    ∧ (d.completeReq p st lane).net.outbox = d.net.outbox ++ [answerReq p 0x21 st (if lane = boltLane then 1 else 0)]
    ∧ (d.completeReq p st lane).net.flows = d.net.flows ∧ (d.completeReq p st lane).net.ctxs = d.net.ctxs := by
  obtain ⟨d₁, hd₁, hnet⟩ : ∃ d₁ : Dev, d.completeReq p st lane = d₁.endPkt p.id
      ∧ d₁.net = (d.send (answerReq p 0x21 st (if lane = boltLane then 1 else 0))).net := by
    refine ⟨_, rfl, ?_⟩
    split
    · rfl
    · exact ((Dev.Logs.refl _).countEv _ _ _ _).net
  have hpkts : d₁.net.pkts = [p] := (congrArg Net.pkts hnet).trans h
  have hstill := (Dev.Frees.endPkt (Dev.pkt_of_single hpkts)).still
  rw [hd₁]
  refine ⟨Dev.pkts_endPkt_of_only hpkts, (d₁.outbox_endPkt _).trans (congrArg Net.outbox hnet), ?_, ?_⟩
  · have e : (d₁.endPkt p.id).net.flows = d₁.net.flows := by have e := congrArg (fun x : Dev => x.net.flows) hstill; exact e
    rw [e, hnet]
    rfl
  · have e : (d₁.endPkt p.id).net.ctxs = d₁.net.ctxs := by have e := congrArg (fun x : Dev => x.net.ctxs) hstill; exact e
    rw [e, hnet]
    rfl

theorem Dev.heldOf_of_empty {d : Dev} (h : d.net.pkts = []) (k : CtxKey) : d.heldOf k = [] := by
  unfold Dev.heldOf
  rw [h]
  rfl

/-- With no packet left, NEXT of the one context moves on and its hold ends. -/
theorem Dev.passHeld_of_empty {d : Dev} {c : Ctx} (hpkts : d.net.pkts = []) (hctxs : d.net.ctxs = [c]) (hlearn : c.learning = false) :
    d.passHeld c.ckey = d.setCtxs [c.passed] := by
  have hmod : d.modCtx c.ckey (fun c => { c with next := (c.next + 1) % 2 ^ 24, hold := none, gapOn := false })
      = d.setCtxs [{ c with next := (c.next + 1) % 2 ^ 24, hold := none, gapOn := false }] := by
    unfold Dev.modCtx
    rw [hctxs]
    simp
  have hheld : (d.setCtxs [{ c with next := (c.next + 1) % 2 ^ 24, hold := none, gapOn := false }]).heldOf c.ckey = [] :=
    Dev.heldOf_of_empty hpkts _
  have hctx : (d.setCtxs [{ c with next := (c.next + 1) % 2 ^ 24, hold := none, gapOn := false }]).ctx c.ckey
      = some { c with next := (c.next + 1) % 2 ^ 24, hold := none, gapOn := false } := by
    simp [Dev.ctx, Dev.setCtxs, Ctx.ckey]
  unfold Dev.passHeld
  rw [hmod]
  unfold Dev.runCtx
  rw [hheld]
  unfold Dev.advance
  rw [hctx]
  dsimp only
  rw [hheld]
  simp [hlearn, Dev.modCtx, Dev.setCtxs, Ctx.ckey, Ctx.passed]

theorem Dev.rsqRetry_of_empty {d : Dev} (h : d.net.pkts = []) : d.rsqRetry = d := by
  unfold Dev.rsqRetry
  rw [h]
  rfl

theorem Dev.endHold_eq {d : Dev} {p : Pkt} {c : Ctx} (hpkts : d.net.pkts = [p]) (hctxs : d.net.ctxs = [c]) (hlearn : c.learning = false)
    (st : Nat) : d.endHold p c st = (d.completeReq p st c.lane).setCtxs [c.passed] := by
  obtain ⟨hgone, -, -, hkept⟩ := Dev.completeReq_net hpkts st c.lane
  unfold Dev.endHold
  rw [Dev.passHeld_of_empty hgone (hkept.trans hctxs) hlearn, Dev.rsqRetry_of_empty (d := (d.completeReq p st c.lane).setCtxs [c.passed]) hgone]

/-! ## What the terminal makes of the hold -/

section
variable {s : State} {p : Pkt} {c : Ctx} (h : HeldAtNext s p c)
include h

theorem ckey_of_heldAtNext : p.ckey = ⟨p.src, p.dst, 1, p.psnValid⟩ := by
  unfold Pkt.ckey
  rw [h.vl]
  rfl

theorem heldAt_of_heldAtNext : s.d.heldAt p.ckey = some (c, p) := by
  obtain ⟨hctxs, hkey, hhold, -⟩ := h.context
  have hctx : s.d.ctx p.ckey = some c := by simp [Dev.ctx, hctxs, hkey]
  unfold Dev.heldAt
  rw [hctx]
  simp [hhold, Dev.pkt_of_single h.only]

/-- The hold ends as R218 says, where both ERR of the flow were reset before, and at most counts besides. -/
theorem holdEnds_of_makes {i : Instr} {d : Dev} {st : Nat} (hm : MakesThenRoutes i s (d.endHold p c st))
    (hlogs : (s.d.resetErr p.src p.dst).Logs d) : HoldEnds i s { s with d := (d.endHold p c st).settle } p c (st % 16) := by
  obtain ⟨hctxs, hkey, hhold, hlearn⟩ := h.context
  have hnet := hlogs.net
  have hpkts : d.net.pkts = [p] := (congrArg Net.pkts hnet).trans h.only
  have hdctxs : d.net.ctxs = [c] := (congrArg Net.ctxs hnet).trans hctxs
  have hend := Dev.endHold_eq hpkts hdctxs hlearn st
  obtain ⟨hgone, hout, hflows, -⟩ := Dev.completeReq_net hpkts st c.lane
  have hmade : (d.endHold p c st).net.outbox = [answerReq p 0x21 st (if c.lane = boltLane then 1 else 0)] := by
    have hcalm : d.net.outbox = [] := (congrArg Net.outbox hnet).trans h.calm.1
    rw [hend]
    exact hout.trans (by rw [hcalm]; rfl)
  have hvl : c.passed.ckey.vl = 1 := by
    show c.ckey.vl = 1
    rw [hkey, ckey_of_heldAtNext h]
  obtain ⟨hsettled, hrequests⟩ := Dev.settle_keepsFlows (d := d.endHold p c st) (by rw [hend]; exact hgone) hmade
    (answerReq_completing p st _) fun k hk => by
      have hne : (c.passed.ckey == k) = false := beq_eq_false_iff_ne.2 fun e => by rw [e, hk] at hvl; cases hvl
      rw [hend]
      show [c.passed].find? (fun c => c.ckey == k) = none
      rw [List.find?_singleton, hne]
      rfl
  have hflow : (d.endHold p c st).settle.flow p.src p.dst = { s.d.flow p.src p.dst with errW := 0, errA := 0 } := by
    rw [Dev.flow_congr (d := s.d.resetErr p.src p.dst), Dev.flow_resetErr]
    rw [hsettled, hend]
    exact hflows.trans (congrArg Net.flows hnet)
  refine ⟨⟨rfl, rfl, ?_⟩, sendsSome_of_makes hm (hmade ▸ List.mem_singleton_self _) (answerReq_reply p 0x21 st _ (by decide)), ?_, ?_, ?_⟩
  · rw [hend]
    have hsoft : s.d.Soft d := ((Dev.Soft.refl s.d).setFlow _).trans hlogs.soft
    exact ((hsoft.completeReq p st c.lane).setCtxs _).settle
  · have hself : (c.passed.ckey == p.ckey) = true := beq_iff_eq.2 hkey
    show (d.endHold p c st).settle.ctx p.ckey = some c.passed
    rw [hrequests _ (hkey ▸ hvl), hend]
    show [c.passed].find? (fun c => c.ckey == p.ckey) = _
    rw [List.find?_singleton, hself]
    rfl
  · show ((d.endHold p c st).settle.flow p.src p.dst).errA = 0 ∧ _
    rw [hflow]
    exact ⟨rfl, rfl⟩
  · show ((d.endHold p c st).settle.flow p.src p.dst).outA = _ ∧ _
    rw [hflow]
    exact ⟨rfl, rfl⟩

/-! ## FENCE and FLAG_HOLD_EXPIRY -/

theorem fence_makes (hopc : p.opc = 0x15) : MakesThenRoutes (.fence p.id) s (if (s.d.flow p.src p.dst).outA = 0 then
    (s.d.resetErr p.src p.dst).endHold p c (s.d.flow p.src p.dst).errA else s.d) := by
  refine ⟨?_, rfl⟩
  show fenceMade p.id s = _
  simp only [fenceMade, onDev_eq, Dev.pkt_of_single h.only, heldAt_of_heldAtNext h, hopc, true_and]
  rfl

theorem fence_completes (hopc : p.opc = 0x15) (hout : (s.d.flow p.src p.dst).outA = 0) :
    Completes (.fence p.id) s (fun t => HoldEnds (.fence p.id) s t p c ((s.d.flow p.src p.dst).errA % 16)) := by
  have hm := fence_makes h hopc
  rw [if_pos hout] at hm
  exact completes_of_makes hm (holdEnds_of_makes h hm (Dev.Logs.refl _))

theorem fence_waits (hopc : p.opc = 0x15) (hout : (s.d.flow p.src p.dst).outA ≠ 0) : Completes (.fence p.id) s (fun t => t = s) := by
  have hm := fence_makes h hopc
  rw [if_neg hout] at hm
  exact completes_of_makesNothing hm h.calm.1 rfl

theorem flagHoldExpiry_completes (hopc : p.opc = 0x12 ∨ p.opc = 0x15 ∨ p.opc = 0x16) :
    Completes (.flagHoldExpiry p.src p.dst p.psnValid) s (fun t =>
      HoldEnds (.flagHoldExpiry p.src p.dst p.psnValid) s t p c 6 ∧ Counts s t 3 2 1) := by
  have hm : MakesThenRoutes (.flagHoldExpiry p.src p.dst p.psnValid) s
      (((s.d.resetErr p.src p.dst).countMem C.FLAG_TIMEOUT).endHold p c St.TIMEOUT) := by
    refine ⟨?_, rfl⟩
    show flagHoldExpiryMade p.src p.dst p.psnValid s = _
    simp only [flagHoldExpiryMade, onDev_eq, ← ckey_of_heldAtNext h, heldAt_of_heldAtNext h]
    rw [if_pos hopc]
    rfl
  have hlogs : (s.d.resetErr p.src p.dst).Logs ((s.d.resetErr p.src p.dst).countMem C.FLAG_TIMEOUT) := (Dev.Logs.refl _).count _ _ _
  refine completes_of_makes hm ⟨holdEnds_of_makes h hm hlogs, ?_⟩
  obtain ⟨hone, -, -, hlearn⟩ := h.context
  have hpkts : ((s.d.resetErr p.src p.dst).countMem C.FLAG_TIMEOUT).net.pkts = [p] := (congrArg Net.pkts hlogs.net).trans h.only
  have hctxs : ((s.d.resetErr p.src p.dst).countMem C.FLAG_TIMEOUT).net.ctxs = [c] := (congrArg Net.ctxs hlogs.net).trans hone
  have hkeeps := routingKeeps_tells ((s.d.resetErr p.src p.dst).countMem C.FLAG_TIMEOUT)
  rw [Dev.endHold_eq hpkts hctxs hlearn]
  have htells := hkeeps.settle (hkeeps.setCtxs (hkeeps.completeReq (Dev.Tells.refl _) p St.TIMEOUT c.lane) [c.passed])
  exact counts_of_logs (s := { s with d := s.d.resetErr p.src p.dst }) (Dev.Logs.refl _) rfl htells.flagTimeout

end

end Sys2Proof.Machine
end

section
/-! A response at its ingress (R218): what the terminal's accounting makes of it. -/

namespace Sys2Proof.Machine
open Sys2Proof.Claims

/-! ## Contexts with no packet in their window -/

/-- A packet that stands in no window and waits for none. -/
def Pkt.Unwindowed (p : Pkt) : Prop := p.isHeld = false ∧ ∀ l q, p.place ≠ .rsqWait l q

/-- A context with no packet in its window delivers nothing. -/
theorem Dev.runCtx_of_unheld {d : Dev} (h : ∀ p ∈ d.net.pkts, p.isHeld = false) (k : CtxKey) : ∃ l, d.runCtx k = d.setCtxs l := by
  have hheld : d.heldOf k = [] := List.filter_eq_nil_iff.2 fun p hp => by simp [h p hp]
  unfold Dev.runCtx
  rw [hheld]
  unfold Dev.advance
  split
  · exact ⟨d.net.ctxs, rfl⟩
  · split
    · exact ⟨d.net.ctxs, rfl⟩
    · rw [hheld]
      exact ⟨_, rfl⟩

/-- A flow that tries again has nothing to deliver. -/
theorem Dev.retryFlow_of_unwindowed {d : Dev} (h : ∀ p ∈ d.net.pkts, p.Unwindowed) (src dst : BitVec 32) :
    ∃ l, d.retryFlow src dst = d.setCtxs l := by
  have hrun : ∀ {x : Dev} (k : CtxKey), (∃ l, x = d.setCtxs l) → ∃ l, x.runCtx k = d.setCtxs l := by
    rintro _ k ⟨l, rfl⟩
    exact Dev.runCtx_of_unheld (d := d.setCtxs l) (fun p hp => (h p hp).1) k
  have hretry : ∀ {x : Dev}, (∃ l, x = d.setCtxs l) → x.rsqRetry = x := by
    rintro _ ⟨l, rfl⟩
    unfold Dev.rsqRetry
    rw [List.filterMap_eq_nil_iff.2 fun p hp => ?_]
    · rfl
    · split
      · next hplace => exact absurd hplace ((h p hp).2 _ _)
      · rfl
  have hfull : ∃ l, ((d.runCtx ⟨src, dst, 1, true⟩).runCtx ⟨src, dst, 1, false⟩).retryFull = d.setCtxs l := by
    have htwo := hrun ⟨src, dst, 1, false⟩ (hrun ⟨src, dst, 1, true⟩ ⟨d.net.ctxs, rfl⟩)
    unfold Dev.retryFull
    split
    · exact htwo
    · exact Dev.each_induct (R := fun x => ∃ l, x = d.setCtxs l) (fun _ _ _ hx => hrun _ hx) htwo
  unfold Dev.retryFlow
  rw [hretry hfull]
  exact hfull

/-! ## The flow of a ledger entry that retires -/

theorem Dev.flow_ledgerDrop (d : Dev) (l : Led) : (d.ledgerDrop l).flow l.src l.dst
    = { d.flow l.src l.dst with outA := (d.flow l.src l.dst).outA - 1, outW := (d.flow l.src l.dst).outW - bit l.writing } :=
  d.flow_setFlow (d.flow_ends l.src l.dst)

theorem Dev.flow_raiseErr (d : Dev) (src dst : BitVec 32) (st : Nat) (w : Bool) : (d.raiseErr src dst st w).flow src dst
    = if st = St.OK then d.flow src dst else { d.flow src dst with
        errA := St.join (d.flow src dst).errA st, errW := if w then St.join (d.flow src dst).errW st else (d.flow src dst).errW } := by
  unfold Dev.raiseErr
  dsimp only
  split
  · rfl
  · exact d.flow_setFlow (d.flow_ends src dst)

theorem Dev.net_raiseErr (d : Dev) (src dst : BitVec 32) (st : Nat) (w : Bool) :
    (d.raiseErr src dst st w).net.pkts = d.net.pkts ∧ (d.raiseErr src dst st w).net.ledger = d.net.ledger := by
  unfold Dev.raiseErr
  dsimp only
  split
  · exact ⟨rfl, rfl⟩
  · exact ⟨rfl, rfl⟩

/-! ## RESPONSE_AT_INGRESS -/

theorem Dev.soft_responseTaken (d : Dev) (p : Pkt) : d.Soft (d.responseTaken p) := by
  unfold Dev.responseTaken Dev.responseIn
  refine Dev.Soft.modPkt ?_ _ _
  split
  · exact .refl d
  · exact (((Dev.Soft.refl d).ledgerDrop _).raiseErr _ _ _ _).retryFlow _ _

section
variable {s : State} {p : Pkt} {lane : Nat} (h : AtIngress s p (.respIn lane))
include h

theorem unwindowed_of_respIn : ∀ x ∈ s.d.net.pkts, x.Unwindowed := by
  intro x hx
  rw [h.only, List.mem_singleton] at hx
  subst hx
  exact ⟨by simp [Pkt.isHeld, h.place], by simp [h.place]⟩

theorem exec_responseAtIngress : exec (.responseAtIngress p.id) s = .next { s with d := ((s.d.responseTaken p).forward p.id).settle } := by
  show execResponseAtIngress p.id s = _
  simp only [execResponseAtIngress, onDev_eq, Dev.pkt_of_single h.only, h.place]

theorem responseAtIngress_quiet : Completes (.responseAtIngress p.id) s (fun t => Quiet s t) :=
  ⟨_, exec_responseAtIngress h, rfl, rfl, ((s.d.soft_responseTaken p).forward _).settle⟩

/-- The one entry that the response matches retires. -/
theorem responseIn_matching {l : Led} (hledger : s.d.net.ledger = [l]) (hsrc : l.src = p.dst) (hdst : l.dst = p.src) (htag : l.tag = p.at 4 2) :
    ∃ cs, s.d.responseIn p = ((s.d.ledgerDrop l).raiseErr l.src l.dst p.status l.writing).setCtxs cs := by
  have hfind : s.d.ledgerFind p.dst p.src p.tag = some l := by simp [Dev.ledgerFind, hledger, hsrc, hdst, htag, Pkt.tag]
  have hpkts := (Dev.net_raiseErr (s.d.ledgerDrop l) l.src l.dst p.status l.writing).1
  unfold Dev.responseIn
  rw [hfind]
  exact Dev.retryFlow_of_unwindowed (fun x hx => unwindowed_of_respIn h x (hpkts ▸ hx)) _ _

omit h in
theorem responseIn_unmatched (hno : ∀ l ∈ s.d.net.ledger, ¬ (l.src = p.dst ∧ l.dst = p.src ∧ l.tag = p.at 4 2)) :
    s.d.responseIn p = s.d := by
  have hfind : s.d.ledgerFind p.dst p.src p.tag = none :=
    List.find?_eq_none.2 fun l hl hmatch => hno l hl (by simpa [and_assoc, Pkt.tag] using hmatch)
  unfold Dev.responseIn
  rw [hfind]

/-- The response stands at ingress, and the ledger is as its accounting has left it. -/
theorem responseTaken_stands {d : Dev} (hin : s.d.responseIn p = d) (hpkts : d.net.pkts = s.d.net.pkts) :
    (s.d.responseTaken p).net.ledger = d.net.ledger ∧ (s.d.responseTaken p).pkt p.id = some { p with place := .ingress }
      ∧ (s.d.responseTaken p).net.flows = d.net.flows := by
  unfold Dev.responseTaken
  rw [hin]
  exact ⟨rfl, Dev.pkt_modPkt_self (Dev.pkt_of_single (hpkts.trans h.only)) (fun _ => rfl), rfl⟩

theorem responseAtIngress_retires {l : Led} (hledger : s.d.net.ledger = [l]) (hsrc : l.src = p.dst) (hdst : l.dst = p.src)
    (htag : l.tag = p.at 4 2) {d : Dev} (hd : d = s.d.responseTaken p) :
    exec (.responseAtIngress p.id) s = .next { s with d := (d.forward p.id).settle } ∧ d.net.ledger = []
      ∧ d.pkt p.id = some { p with place := .ingress } ∧ s.d.Soft d
      ∧ (d.flow l.src l.dst).outA = (s.d.flow l.src l.dst).outA - 1
      ∧ (d.flow l.src l.dst).outW = (s.d.flow l.src l.dst).outW - (if l.writing then 1 else 0)
      ∧ (p.status = 0 → (d.flow l.src l.dst).errA = (s.d.flow l.src l.dst).errA ∧ (d.flow l.src l.dst).errW = (s.d.flow l.src l.dst).errW)
      ∧ (p.status ≠ 0 → (d.flow l.src l.dst).errA = St.join (s.d.flow l.src l.dst).errA p.status
          ∧ (d.flow l.src l.dst).errW = if l.writing then St.join (s.d.flow l.src l.dst).errW p.status else (s.d.flow l.src l.dst).errW) := by
  obtain ⟨cs, hin⟩ := responseIn_matching h hledger hsrc hdst htag
  obtain ⟨hpkts, hdropped⟩ := Dev.net_raiseErr (s.d.ledgerDrop l) l.src l.dst p.status l.writing
  obtain ⟨hleft, hstands, hflows⟩ := responseTaken_stands h hin hpkts
  have hempty : eraseOne s.d.net.ledger l = [] := by simp [hledger, eraseOne]
  have hflow : d.flow l.src l.dst = ((s.d.ledgerDrop l).raiseErr l.src l.dst p.status l.writing).flow l.src l.dst := by
    rw [hd]
    exact Dev.flow_congr hflows _ _
  rw [Dev.flow_raiseErr, Dev.flow_ledgerDrop] at hflow
  subst hd
  refine ⟨exec_responseAtIngress h, hleft.trans (hdropped.trans hempty), hstands, s.d.soft_responseTaken p, ?_, ?_, fun h0 => ?_,
    fun h0 => ?_⟩
  · rw [hflow]
    split <;> rfl
  · rw [hflow]
    split <;> rfl
  · rw [hflow, if_pos (show p.status = St.OK from h0)]
    exact ⟨rfl, rfl⟩
  · rw [hflow, if_neg (show p.status ≠ St.OK from h0)]
    exact ⟨rfl, rfl⟩

theorem responseAtIngress_orphan (hno : ∀ l ∈ s.d.net.ledger, ¬ (l.src = p.dst ∧ l.dst = p.src ∧ l.tag = p.at 4 2)) {d : Dev}
    (hd : d = s.d.responseTaken p) : exec (.responseAtIngress p.id) s = .next { s with d := (d.forward p.id).settle }
      ∧ d.net.ledger = s.d.net.ledger ∧ d.pkt p.id = some { p with place := .ingress } ∧ s.d.Soft d := by
  obtain ⟨hleft, hstands, -⟩ := responseTaken_stands h (responseIn_unmatched hno) rfl
  subst hd
  exact ⟨exec_responseAtIngress h, hleft, hstands, s.d.soft_responseTaken p⟩

end

end Sys2Proof.Machine
end

section
/-! Moves of ownership (R209, R220, R221): SWATCH_XFER and MOVE_LIMIT_EXPIRY, and the statement about memory ordering. -/

namespace Sys2Proof.Machine
open Sys2Proof.Claims

/-! ## What a move leaves -/

theorem Dev.ent_setEnt_of_ne (d : Dev) (e : BitVec 512) {a j t i : Nat} (h : tblKey a j ≠ tblKey t i) : (d.setEnt t i e).ent a j = d.ent a j := by
  show (d.tab.ent.put (tblKey t i) e).find (tblKey a j) = _
  rw [NMap.find_put, if_neg h]
  rfl

/-- A step that has changed packets and table entries, and then what the packet path may change. -/
theorem only_noMoves_of_soft {s t : State} {d : Dev} (hrest : Rest s t) (hstill : noMoves d.still = noMoves s.d.still) (hregs : d.regs = s.d.regs)
    (hsoft : d.Soft t.d) : Only noMoves s t (fun r _ => r.busy = true) := by
  have hfuse : d.fuse = s.d.fuse := by have e := congrArg Dev.fuse hstill; exact e
  refine ⟨hrest, ?_, fun r i _ hr => ?_⟩
  · have e := congrArg (fun d : Dev => noMoves d.still) hsoft.hard
    exact Eq.trans e hstill
  · exact (hsoft.regs r i (by simpa using hr)).trans (Dev.rd_of_regs hregs hfuse r i)

theorem only_noMoves_of_quiet {s t : State} (h : Quiet s t) : Only noMoves s t (fun r _ => r.busy = true) :=
  only_noMoves_of_soft ⟨h.pending, h.mem⟩ rfl rfl h.soft

/-! ## SWATCH_XFER -/

theorem loggingKeeps_soft (a : Dev) : LoggingKeeps (fun d => a.Soft d) where
  count := fun n _ h => h.count _ _ n
  noticeLim := fun ty src prod data key h => h.noticeLim ty src prod data key

/-- An entry that the lookup finds holds the address. -/
theorem Dev.swatchAt_some {d : Dev} {prod addr i : Nat} {e : BitVec 512} (h : (d.swatchAt prod addr).1 = some (i, e)) :
    d.swatchAt prod addr = (some (i, e), d) ∧ addr / 4096 ≤ swLimit e := by
  unfold Dev.swatchAt at h ⊢
  dsimp only at h ⊢
  split at h
  · cases h
  · next x hx =>
    split at h
    · cases h
    · next hparity =>
      cases h
      have hit := List.find?_some hx
      simp only [Bool.and_eq_true, decide_eq_true_eq] at hit
      rw [if_neg hparity]
      exact ⟨rfl, hit.2.2⟩

section
variable {d : Dev} {p : Pkt} (hopc : p.opc = 0x16)
include hopc

/-- Only its opcode's row tells a SWATCH_XFER's layout and extent. -/
theorem xfer_shape : p.layoutOk = true ∧ p.extent = 1 := by
  unfold Pkt.layoutOk Pkt.extent
  rw [hopc]
  exact ⟨rfl, rfl⟩

theorem Dev.swatchCheck_xfer_none (h : (d.swatchAt p.prod p.addr).1 = none) : d.swatchCheck p = (.inl St.DENIED, (d.swatchAt p.prod p.addr).2) := by
  obtain ⟨x, hx⟩ : ∃ x, d.swatchAt p.prod p.addr = (none, x) := ⟨_, Prod.ext h rfl⟩
  unfold Dev.swatchCheck
  rw [(xfer_shape hopc).1, hx]
  rfl

/-- An entry found is moved by its owner, at its target, while it is OWNED (R209, R220). -/
theorem Dev.swatchCheck_xfer {i : Nat} {e : BitVec 512} (h : (d.swatchAt p.prod p.addr).1 = some (i, e)) : d.swatchCheck p
    = if p.dst.toNat = swTarget e ∧ swOwner e / 256 = bitsOf p.src 31 8 ∧ swState e = 0 then (.inr (i, e), d) else (.inl St.DENIED, d) := by
  obtain ⟨hat, hlimit⟩ := Dev.swatchAt_some h
  obtain ⟨hlayout, hextent⟩ := xfer_shape hopc
  have hallows : d.swatchAllows i e p = (swOwner e / 256 == bitsOf p.src 31 8 && swState e == 0) := by simp [Dev.swatchAllows, hopc]
  unfold Dev.swatchCheck
  rw [hlayout, hat, hextent]
  dsimp only
  rw [hallows, if_neg (by simp), if_neg (by simpa using hlimit)]
  by_cases hdst : p.dst.toNat = swTarget e
  · by_cases how : swOwner e / 256 = bitsOf p.src 31 8
    · by_cases hst : swState e = 0
      · simp [hdst, how, hst]
      · simp [hdst, how, hst]
    · simp [hdst, how]
  · simp [hdst]

end

/-- The move that a SWATCH_XFER asks for, as the entry's move is kept (R220). -/
def Pkt.move (p : Pkt) : Move := ⟨BitVec.ofNat 32 (p.at 16 4), p.at 20 1 % 2 == 1, p.src, p.tag, p.tc, p.gen, p.addr⟩

theorem Pkt.move_fields (p : Pkt) : p.move.newOwner.toNat = p.at 16 4 ∧ p.move.newMode = bitOf (BitVec.ofNat 8 (p.at 20 1)) 0
    ∧ p.move.owner = p.src ∧ p.move.tag = p.at 4 2 := by
  refine ⟨(BitVec.toNat_ofNat _ _).trans (Nat.mod_eq_of_lt (p.at_lt 16 4 (by omega) (by omega))), ?_, rfl, rfl⟩
  show (p.at 20 1 % 2 == 1) = (BitVec.ofNat 8 (p.at 20 1)).getLsbD 0
  rw [BitVec.getLsbD_ofNat, Nat.testBit_zero]
  rfl

/-- The request translated, as it stands at ingress (R209). -/
theorem Pkt.translate_fields (p : Pkt) (e : BitVec 512) : (p.translate e).hdr = p.hdr ∧ (p.translate e).xlated = true
    ∧ (p.translate e).addr = (swLocal e * 4096 + (p.addr - swBase e * 4096)) % 2 ^ 64 := by
  refine ⟨rfl, ?_, ?_⟩
  · show bitOf (setBits p.rw 19 19 1) 19 = true
    unfold bitOf
    rw [getLsbD_setBits _ _ _ _ _ (by decide)]
    rfl
  · have hset := bitsOf_setBits p.pay 287 224 (swLocal e * 4096 + (p.addr - swBase e * 4096)) (by decide) (by decide)
    show (p.translate e).at 8 8 = _
    rw [Pkt.at_of_pay _ (by decide) (by decide) (by decide)]
    unfold bitsOf at hset
    rw [Nat.shiftRight_eq_div_pow] at hset
    exact hset

section
variable {s : State} {p : Pkt} {lane : Nat} (h : AtIngress s p (.xferIn lane)) (hvl : p.vl = 1) (hopc : p.opc = 0x16)
include h

theorem swatchXfer_refuses {st : Nat} {d : Dev} (hcheck : s.d.swatchCheck p = (.inl st, d)) :
    MakesThenRoutes (.swatchXfer p.id) s (d.refuse p st (fun d => d)) := by
  refine ⟨?_, rfl⟩
  show swatchXferMade p.id s = _
  simp only [swatchXferMade, onDev_eq, Dev.pkt_of_single h.only, h.place, hcheck]

theorem swatchXfer_starts {i : Nat} {e : BitVec 512} {d : Dev} (hcheck : s.d.swatchCheck p = (.inr (i, e), d)) :
    MakesThenRoutes (.swatchXfer p.id) s ((d.moveStart p i e).forward p.id) := by
  refine ⟨?_, rfl⟩
  show swatchXferMade p.id s = _
  simp only [swatchXferMade, onDev_eq, Dev.pkt_of_single h.only, h.place, hcheck]

include hvl hopc

omit hopc in
/-- A request refused is answered DENIED, and nothing moves. -/
theorem swatchXfer_denied {d : Dev} (hcheck : s.d.swatchCheck p = (.inl St.DENIED, d)) (hsoft : s.d.Soft d) :
    BoltAnswers (.swatchXfer p.id) s p 0x21 2 := by
  have hm := swatchXfer_refuses h hcheck
  have hmem : answerReq p 0x21 St.DENIED 0 ∈ (d.refuse p St.DENIED (fun d => d)).net.outbox := by
    have hreq : p.isReq = true := by simp [Pkt.isReq, hvl]
    have hlogs : (d.send (answerReq p 0x21 St.DENIED 0)).Logs (((d.send (answerReq p 0x21 St.DENIED 0)).countEv 3 10 1 p.ctx).countDrop p) :=
      ((Dev.Logs.refl _).countEv _ _ _ _).countDrop p
    unfold Dev.refuse
    rw [Dev.outbox_endPkt, if_pos hreq, hlogs.net]
    exact d.mem_outbox_send _
  exact ⟨completes_of_makes hm ⟨rfl, rfl, (hsoft.refuse _ _ hsoft).settle⟩,
    sendsSome_of_makes hm hmem (answerReq_reply p 0x21 St.DENIED 0 (by decide))⟩

theorem swatchXfer_none (hat : (s.d.swatchAt p.prod p.addr).1 = none) : BoltAnswers (.swatchXfer p.id) s p 0x21 2 :=
  swatchXfer_denied h hvl (Dev.swatchCheck_xfer_none hopc hat) ((loggingKeeps_soft s.d).swatchAt (.refl s.d) _ _)

theorem swatchXfer_wrong {i : Nat} {e : BitVec 512} (hat : (s.d.swatchAt p.prod p.addr).1 = some (i, e))
    (hno : ¬ (p.dst.toNat = swTarget e ∧ swOwner e / 256 = bitsOf p.src 31 8 ∧ swState e = 0)) : BoltAnswers (.swatchXfer p.id) s p 0x21 2 := by
  have hcheck := Dev.swatchCheck_xfer hopc hat
  rw [if_neg hno] at hcheck
  exact swatchXfer_denied h hvl hcheck (.refl _)

omit hvl in
theorem swatchXfer_moves {i : Nat} {e : BitVec 512} (hat : (s.d.swatchAt p.prod p.addr).1 = some (i, e))
    (hok : p.dst.toNat = swTarget e ∧ swOwner e / 256 = bitsOf p.src 31 8 ∧ swState e = 0) :
    MakesThenRoutes (.swatchXfer p.id) s ((s.d.moveStart p i e).forward p.id) :=
  swatchXfer_starts h ((Dev.swatchCheck_xfer hopc hat).trans (if_pos hok))

theorem swatchXfer_only : Completes (.swatchXfer p.id) s (fun t => Rest s t ∧ Only noMoves s t (fun r _ => r.busy = true)) := by
  have hdenied : BoltAnswers (.swatchXfer p.id) s p 0x21 2 → Completes (.swatchXfer p.id) s (fun t => Rest s t
      ∧ Only noMoves s t (fun r _ => r.busy = true)) :=
    fun ha => ha.1.mono fun t hq => ⟨⟨hq.pending, hq.mem⟩, only_noMoves_of_quiet hq⟩
  cases hat : (s.d.swatchAt p.prod p.addr).1 with
  | none => exact hdenied (swatchXfer_none h hvl hopc hat)
  | some x =>
    obtain ⟨i, e⟩ := x
    by_cases hok : p.dst.toNat = swTarget e ∧ swOwner e / 256 = bitsOf p.src 31 8 ∧ swState e = 0
    · exact completes_of_makes (swatchXfer_moves h hopc hat hok)
        ⟨⟨rfl, rfl⟩, only_noMoves_of_soft (d := s.d.moveStart p i e) ⟨rfl, rfl⟩ rfl rfl ((Dev.Soft.refl _).forward _).settle⟩
    · exact hdenied (swatchXfer_wrong h hvl hopc hat hok)

omit hvl hopc in
/-- The entry is MOVING, the move is kept, and the request stands at ingress translated. -/
theorem moveStart_spec (i : Nat) (e : BitVec 512) : (s.d.moveStart p i e).ent 3 i = some (setData e 4 32 31 1)
    ∧ (∀ a j, tblKey a j ≠ tblKey 3 i → (s.d.moveStart p i e).ent a j = s.d.ent a j)
    ∧ (∃ mv : Move, (s.d.moveStart p i e).tab.moves.find i = some mv ∧ mv.newOwner.toNat = p.at 16 4
        ∧ mv.newMode = bitOf (BitVec.ofNat 8 (p.at 20 1)) 0 ∧ mv.owner = p.src ∧ mv.tag = p.at 4 2)
    ∧ ∃ q, (s.d.moveStart p i e).pkt p.id = some q ∧ q.place = .ingress ∧ q.hdr = p.hdr ∧ q.xlated = true
      ∧ q.addr = (swLocal e * 4096 + (p.addr - swBase e * 4096)) % 2 ^ 64 := by
  obtain ⟨hhdr, hxlated, haddr⟩ := p.translate_fields e
  refine ⟨(s.d.ent_setEnt 3 i i _).trans (if_pos rfl), fun a j hne => s.d.ent_setEnt_of_ne _ hne, ⟨p.move, ?_, p.move_fields⟩,
    { p.translate e with place := .ingress }, ?_, rfl, hhdr, hxlated, haddr⟩
  · exact (NMap.find_put _ _ _ _).trans (if_pos rfl)
  · exact Dev.pkt_modPkt_self (p := p) (Dev.pkt_of_single h.only) (f := fun p => { p.translate e with place := .ingress }) (fun _ => rfl)

end

/-! ## MOVE_LIMIT_EXPIRY -/

/-- The completion that the owner gets for a move that has run out. -/
def Move.timeout (mv : Move) (e : BitVec 512) : Pkt :=
  { id := 0, hdr := mkHdr mv.owner (BitVec.ofNat 32 (swTarget e)) (swProd e) mv.gen 0x21 0 mv.tc,
    rw := BitVec.ofNat 32 (St.TIMEOUT * 2 ^ 20 + 2 ^ 16 + 12), vl := 2,
    pay := mkPay [(4, 2, mv.tag), (8, 8, mv.addr)], inl := 1024, own := true }

theorem Move.timeout_rw (mv : Move) (e : BitVec 512) : (mv.timeout e).status = 6 ∧ bitOf (mv.timeout e).rw 16 = true := by
  have hrw : (mv.timeout e).rw = BitVec.ofNat 32 (St.TIMEOUT * 2 ^ 20 + 2 ^ 16 + 12) := rfl
  unfold Pkt.status
  rw [hrw]
  decide

/-- The move is over: the entry is OWNED again, and the owner's completion is made. -/
def Dev.moveLapsed (d : Dev) (i : Nat) (mv : Move) (e : BitVec 512) : Dev :=
  ({ d.setEnt 3 i (setData e 4 32 31 0) with
      tab := { (d.setEnt 3 i (setData e 4 32 31 0)).tab with moves := d.tab.moves.erase i } } : Dev).send (mv.timeout e)

section
variable {s : State} {i : Nat} {mv : Move} {e : BitVec 512} (hmv : s.d.tab.moves.find i = some mv) (he : s.d.ent 3 i = some e)
include hmv he

theorem moveLimitExpiry_makes : MakesThenRoutes (.moveLimitExpiry i) s
    ((s.d.moveLapsed i mv e).notice N.SWATCH_XFER_LOST Src.memory (swProd e) 0) := by
  refine ⟨?_, rfl⟩
  show moveLimitExpiryMade i s = _
  simp only [moveLimitExpiryMade, onDev_eq, hmv, he]
  rfl

theorem moveLimitExpiry_completes : Completes (.moveLimitExpiry i) s (fun t => t.d.ent 3 i = some (setData e 4 32 31 0)
    ∧ t.d.tab.moves.find i = none ∧ (∀ a j, tblKey a j ≠ tblKey 3 i → t.d.ent a j = s.d.ent a j)
    ∧ (Heard s → Raises s t 0x51 3 (swProd e) 0) ∧ Only noMoves s t (fun r _ => r.busy = true)) := by
  have hsoft : (s.d.moveLapsed i mv e).Soft ((s.d.moveLapsed i mv e).notice N.SWATCH_XFER_LOST Src.memory (swProd e) 0).settle :=
    (Dev.soft_notice _ _ _ _ _).settle
  have hent : ∀ a j, ((s.d.moveLapsed i mv e).notice N.SWATCH_XFER_LOST Src.memory (swProd e) 0).settle.ent a j
      = (s.d.setEnt 3 i (setData e 4 32 31 0)).ent a j := fun a j => Dev.ent_of_tab hsoft.tab a j
  refine completes_of_makes (moveLimitExpiry_makes hmv he) ⟨?_, ?_, fun a j hne => ?_, fun hs => ?_, ?_⟩
  · exact (hent 3 i).trans ((s.d.ent_setEnt 3 i i _).trans (if_pos rfl))
  · show ((s.d.moveLapsed i mv e).notice N.SWATCH_XFER_LOST Src.memory (swProd e) 0).settle.tab.moves.find i = none
    rw [hsoft.tab]
    exact (NMap.find_erase _ _ _).trans (if_pos rfl)
  · exact (hent a j).trans (s.d.ent_setEnt_of_ne _ hne)
  · have hraised : Raises s { s with d := ((s.d.moveLapsed i mv e).notice N.SWATCH_XFER_LOST Src.memory (swProd e) 0).settle }
        N.SWATCH_XFER_LOST Src.memory (swProd e) 0 :=
      Dev.Follows.raises (a := s.d.moveLapsed i mv e) (Dev.Follows.of_regs rfl rfl rfl rfl) (Dev.Follows.settle _) hs
    exact hraised
  · exact only_noMoves_of_soft (d := s.d.moveLapsed i mv e) ⟨rfl, rfl⟩ rfl rfl hsoft

theorem moveLimitExpiry_answers : SendsSome (.moveLimitExpiry i) s (fun q => q.dst = mv.owner ∧ q.src.toNat = swTarget e ∧ q.opc = 0x21
    ∧ q.status = 6 ∧ bitOf q.rw 16 = true ∧ q.at 4 2 = mv.tag % 2 ^ 16) := by
  have hlogs : (s.d.moveLapsed i mv e).Logs ((s.d.moveLapsed i mv e).notice N.SWATCH_XFER_LOST Src.memory (swProd e) 0) :=
    (Dev.Logs.refl _).notice _ _ _ _
  refine sendsSome_of_makes (q := mv.timeout e) (moveLimitExpiry_makes hmv he) ?_
    ⟨mkHdr_dst _ _ _ _ _ _ _, ?_, mkHdr_opc _ _ _ _ _ _ _, mv.timeout_rw e |>.1, mv.timeout_rw e |>.2, (Pkt.tag_addr rfl).1⟩
  · rw [hlogs.net]
    exact Dev.mem_outbox_send _ _
  · have hsrc : (mv.timeout e).src = BitVec.ofNat 32 (swTarget e) := mkHdr_src _ _ _ _ _ _ _
    rw [hsrc]
    exact (BitVec.toNat_ofNat _ _).trans (Nat.mod_eq_of_lt (bitsOf_lt _ _ _))

end

end Sys2Proof.Machine

namespace Sys2Proof.Claims
open Sys2Proof.Machine

/-- Settles O49: a hold that ends is its terminal's completion and a context with nothing held; a response settles its ledger entry before
it is routed; a move is the entry's own words, and routing changes no table. -/
theorem memoryOrdering : Obligations.MemoryOrdering := by
  intro s p c
  refine ⟨fence_completes, fence_waits, flagHoldExpiry_completes, fun lane h => ⟨?_, ?_, ?_⟩, fun lane h hvl hopc => ⟨?_, ?_, ?_⟩,
    fun i mv e _ hmv he => ⟨?_, ?_⟩⟩
  · exact fun l hledger hsrc hdst htag d hd => responseAtIngress_retires h hledger hsrc hdst htag hd
  · exact fun hno d hd => responseAtIngress_orphan h hno hd
  · exact responseAtIngress_quiet h
  · refine fun i e hat => ⟨fun hdst how hst d hd => ?_, fun hno => swatchXfer_wrong h hvl hopc hat fun ⟨hdst, how, hst⟩ =>
      hno.elim (· hdst) (·.elim (· how) (· hst))⟩
    subst hd
    exact ⟨exec_of_makes (swatchXfer_moves h hopc hat ⟨hdst, how, hst⟩), moveStart_spec h i e⟩
  · exact swatchXfer_none h hvl hopc
  · exact swatchXfer_only h hvl hopc
  · exact moveLimitExpiry_completes hmv he
  · exact moveLimitExpiry_answers hmv he

end Sys2Proof.Claims
end

section
/-! What the loss of a lane's packets keeps: whatever the elementary changes of the packet path keep holds on where a lane's packets
are cut short, drained and discarded, and its link starts over (R39, R101, R349). -/

namespace Sys2Proof.Machine

namespace RoutingKeeps
variable {R : Dev → Prop} (hR : RoutingKeeps R) {d : Dev} (h : R d)
include hR h

theorem rsqRetry : R d.rsqRetry := by
  refine Dev.each_induct (R := R) (fun d x _ hd => ?_) h
  split
  · exact hd
  · split
    · split
      · exact hd
      · exact hR.rsqPlace hd _ _ _
    · split
      · exact hR.rsqPlace hd _ _ _
      · exact hd

theorem retryFull : R d.retryFull := by
  unfold Dev.retryFull
  split
  · exact h
  · exact Dev.each_induct (R := R) (fun _ c _ hd => hR.runCtx hd c.ckey) h

theorem retryFlow (src dst : BitVec 32) : R (d.retryFlow src dst) :=
  hR.rsqRetry (hR.retryFull (hR.runCtx (hR.runCtx h _) _))

theorem ledgerDrop (l : Led) : R (d.ledgerDrop l) := hR.noteLedger (hR.net _ (hR.setFlow h _))

theorem lateReq (p : Pkt) (src : Nat) : R (d.lateReq p src) := by
  unfold Dev.lateReq
  split
  · exact hR.retryFlow (hR.countEv (hR.send (hR.raiseErr (hR.ledgerDrop h _) _ _ _ _) _) _ _ _ _) _ _
  · exact h

theorem unlist (p : Pkt) : R (d.unlist p) := by
  unfold Dev.unlist
  split
  · exact hR.retryFlow (hR.ledgerDrop h _) _ _
  · exact h

theorem stompPkt (id : Nat) : R (d.stompPkt id) := by
  have hbad := hR.modPkt h id (fun p => { p with bad := true, whole := true })
  unfold Dev.stompPkt Dev.stompAs
  dsimp only
  split
  · exact hbad
  · next p _ =>
    split
    · exact hbad
    · exact hbad
    · split
      · exact hR.lateReq hbad _ _
      · split
        · refine hR.endPkt ?_ _
          split
          · exact hR.lateReq hbad _ _
          · exact hR.unlist (hR.discardOther hbad _) _
        · split
          · exact hbad
          · exact hR.endPkt (hR.discardOther hbad _) _
    · exact hR.endPkt (hR.lateReq hbad _ _) _
    · exact hR.endPkt hbad _
    · exact hR.endPkt (hR.discardOther hbad _) _

theorem drainPkt (id : Nat) : R (d.drainPkt id) := by
  unfold Dev.drainPkt
  split
  · exact h
  · split
    · exact hR.endPkt h _
    · exact hR.trimBuf (hR.modPkt h _ _) _

omit hR in
theorem whenSome (o : Option Nat) {f : Nat → Dev → Dev} (hf : ∀ i {d}, R d → R (f i d)) : R (d.whenSome o f) := by
  cases o with
  | none => exact h
  | some i => exact hf i h

theorem cutReceive (l : Nat) : R (d.cutReceive l) :=
  whenSome (whenSome h _ fun i _ hd => hR.stompPkt hd i) _ fun i _ hd => hR.stompPkt hd i

theorem cutSend (l : Nat) : R (d.cutSend l) :=
  whenSome (whenSome h _ fun i _ hd => hR.drainPkt hd i) _ fun i _ hd => hR.drainPkt hd i

theorem dropQueued (l : Nat) : R (d.dropQueued l) := Dev.each_induct (R := R) (fun _ p _ hd => hR.discarded hd p) h

theorem closeCredit (l : Nat) : R (d.closeCredit l) := Dev.each_induct (R := R) (fun _ _ _ hd => hR.setLv hd _ _) (hR.net _ h)

theorem openCredit (l : Nat) (fabric : Bool) : R (d.openCredit l fabric) := Dev.each_induct (R := R) (fun _ _ _ hd => hR.setLv hd _ _) h

theorem modLane (l : Nat) (f : Lane → Lane) : R (d.modLane l f) := hR.net _ h

theorem leaveService (l : Nat) : R (d.leaveService l) :=
  hR.modLane (hR.closeCredit (hR.dropQueued (hR.cutSend (hR.cutReceive h l) l) l) l) l _

omit h in
theorem noteLost {f : Dev → Dev} (hf : R (f d)) : R (d.noteLost f) := hR.net _ hf

theorem endLost (l : Nat) : R (d.endLost l) := by
  unfold Dev.endLost
  dsimp only
  split
  · exact hR.net _ h
  · exact h

theorem declareDue (m : Mem) : R (d.declareDue m) := Dev.each_induct (R := R) (fun _ _ _ hd => hR.net _ hd) (hR.net _ h)

end RoutingKeeps

end Sys2Proof.Machine
end

section
/-! What a lane's change of state leaves alone, and what an exit from UP records (R250, R251, R265). -/

namespace Sys2Proof.Machine
open Sys2Proof.Claims

/-- `d'` comes after `d`: of the registers only counters, the notice log and those named have changed, and of what stands beside
them only what `f` hides. -/
structure Dev.Alters (f : Dev → Dev) (may : RF → Nat → Prop) (d d' : Dev) : Prop where
  still : f d'.still = f d.still
  regs : ∀ r i, r.logging = false → ¬ may r i → d'.rd r i = d.rd r i
  follows : d.Follows d'

/-- The registers that the packet path writes. -/
def busyRegs (r : RF) (_ : Nat) : Prop := r.busy = true

namespace Dev.Alters
variable {f : Dev → Dev} {may may' : RF → Nat → Prop} {a b c d : Dev}

theorem refl (d : Dev) : Dev.Alters f may d d := ⟨rfl, fun _ _ _ _ => rfl, .refl d⟩

theorem trans (h : Dev.Alters f may a b) (k : Dev.Alters f may b c) : Dev.Alters f may a c :=
  ⟨k.still.trans h.still, fun r i hl hm => (k.regs r i hl hm).trans (h.regs r i hl hm), h.follows.trans k.follows⟩

theorem mono (h : Dev.Alters f may a b) (hm : ∀ r i, may r i → may' r i) : Dev.Alters f may' a b :=
  ⟨h.still, fun r i hl hr => h.regs r i hl fun e => hr (hm r i e), h.follows⟩

/-- What hides the ports to flush too shows less. -/
theorem flushing (h : Dev.Alters noNet may a b) : Dev.Alters noNetFlush may a b := by
  have e : noNetFlush (noNet b.still) = noNetFlush (noNet a.still) := congrArg noNetFlush h.still
  exact ⟨e, h.regs, h.follows⟩

theorem only {s t : State} (h : Dev.Alters f may s.d t.d) (hr : Rest s t) : Only f s t may := ⟨hr, h.still, h.regs⟩

theorem fld (h : Dev.Alters f may a b) {g : Fld} (hl : g.rf.logging = false) {i : Nat} (hm : ¬ may g.rf i) : b.fld g i = a.fld g i :=
  congrArg (bitsOf · _ _) (h.regs _ _ hl hm)

theorem setFld (d : Dev) {g : Fld} {i : Nat} (v : Nat) (hm : may g.rf i) (h1 : g.rf ≠ .TMU_RATE) (h2 : g.rf ≠ .SEC_STATE) :
    Dev.Alters f may d (d.setFld g i v) :=
  ⟨rfl, fun _ _ _ hr => Dev.rd_setFld_of_ne _ _ _ _ _ _ fun e => hr (by rwa [e.1, e.2]), .wr d h1 h2 _ _⟩

theorem notice (d : Dev) (ty src prod data : Nat) : Dev.Alters f may d (d.notice ty src prod data) := by
  have hlogs : d.Logs (d.notice ty src prod data) := (Dev.Logs.refl d).notice ty src prod data
  have hstill : (d.notice ty src prod data).still = d.still := by have e := congrArg Dev.still hlogs.still; exact e
  exact ⟨congrArg f hstill, fun r i hl _ => hlogs.regs r i hl, .notice d _ _ _ _⟩

theorem net (d : Dev) (n : Net) : Dev.Alters noNet may d { d with net := n } :=
  ⟨rfl, fun _ _ _ _ => Dev.rd_of_regs rfl rfl _ _, .of_regs rfl rfl rfl rfl⟩

theorem modLane (d : Dev) (l : Nat) (g : Lane → Lane) : Dev.Alters noNet may d (d.modLane l g) := net d _

/-- A step of the packet path that takes back no notice. -/
theorem of_soft (hb : ∀ r i, busyRegs r i → may r i) (h : a.Soft b) (hr : a.relay <+: b.relay) : Dev.Alters noNet may a b := by
  have hstill : noNet b.still = noNet a.still := by have e := congrArg (fun d : Dev => noNet d.still) h.hard; exact e
  exact ⟨hstill, fun r i _ hm => h.regs r i (Bool.eq_false_iff.2 fun e => hm (hb r i e)), hr, h.tmu, h.regs _ _ rfl, h.regs _ _ rfl⟩

end Dev.Alters

theorem routingKeeps_alters {may : RF → Nat → Prop} (hb : ∀ r i, busyRegs r i → may r i) (a : Dev) :
    RoutingKeeps (fun d => Dev.Alters noNet may a d) where
  count := fun {d} inst idx n _ h =>
    h.trans (.of_soft hb ((Dev.Soft.refl d).count inst idx n) ((d.relay_count inst idx n).symm ▸ List.prefix_refl _))
  noticeLim := fun {d} ty src prod data key h =>
    h.trans (.of_soft hb ((Dev.Soft.refl d).noticeLim ty src prod data key) (d.relay_noticeLim ty src prod data key))
  fresh := fun _ h => h.trans ⟨rfl, fun _ _ _ _ => Dev.rd_of_regs rfl rfl _ _, .of_regs rfl rfl rfl rfl⟩
  inUse := fun {d} _ i v hf h => h.trans (.of_soft hb ((Dev.Soft.refl d).setFld hf.1 i v) (List.prefix_refl _))
  carry := fun n _ h => h.trans (.net _ n)
  net := fun n h => h.trans (.net _ n)

/-- A lane's operations on the packet path, from any device. -/
theorem keepsBusy (a : Dev) : RoutingKeeps (fun d => Dev.Alters noNet busyRegs a d) := routingKeeps_alters (fun _ _ h => h) a

/-- The packet path leaves every field of another register. -/
theorem Dev.Alters.fld_kept {f : Dev → Dev} {a b : Dev} (h : Dev.Alters f busyRegs a b) {g : Fld} (hb : g.rf.busy = false) (i : Nat) :
    b.fld g i = a.fld g i :=
  h.fld (RF.logging_of_not_busy hb) (Bool.eq_false_iff.1 hb)

theorem laneRegs_of_busy {l : Nat} (r : RF) (i : Nat) (h : busyRegs r i) : laneRegs l r i := .inl h

theorem keepsLane (l : Nat) (a : Dev) : RoutingKeeps (fun d => Dev.Alters noNet (laneRegs l) a d) :=
  routingKeeps_alters laneRegs_of_busy a

/-! ## The registers of a lane -/

theorem Dev.rd_setFld_of_rf (d : Dev) {f : Fld} {r : RF} (i j v : Nat) (h : r ≠ f.rf) : (d.setFld f i v).rd r j = d.rd r j :=
  Dev.rd_setFld_of_ne _ _ _ _ _ _ fun e => h e.1

theorem Dev.fld_setFld_of_rf (d : Dev) {f g : Fld} (i j v : Nat) (h : g.rf ≠ f.rf) : (d.setFld f i v).fld g j = d.fld g j :=
  congrArg (bitsOf · _ _) (d.rd_setFld_of_rf i j v h)

section
variable {f : Dev → Dev} (d : Dev) (l : Nat)

theorem laneRegs_stat : laneRegs l .PRT_LINK_STAT l := .inr (.inl ⟨rfl, rfl⟩)
theorem laneRegs_refCtl (i : Nat) : laneRegs l .GLB_REF_CTL i := .inr (.inr (.inl rfl))
theorem laneRegs_linkCtl : laneRegs l .PRT_LINK_CTL l := .inr (.inr (.inr (.inl ⟨rfl, rfl⟩)))
theorem laneRegs_wngStat : laneRegs l .WNG_LANE_STAT (wngLane l) := .inr (.inr (.inr (.inr ⟨.inl rfl, rfl⟩)))
theorem laneRegs_wngCtl : laneRegs l .WNG_LANE_CTL (wngLane l) := .inr (.inr (.inr (.inr ⟨.inr rfl, rfl⟩)))

theorem Dev.Alters.setStat (g : Fld) (hg : g.rf = .PRT_LINK_STAT) (v : Nat) : Dev.Alters f (laneRegs l) d (d.setFld g l v) :=
  .setFld d v (by rw [hg]; exact laneRegs_stat l) (by rw [hg]; decide) (by rw [hg]; decide)

theorem Dev.Alters.setRetrain (v : Nat) : Dev.Alters f (laneRegs l) d (d.setFld F.WNG_LANE_CTL_RETRAIN (wngLane l) v) :=
  .setFld d v (laneRegs_wngCtl l) (by decide) (by decide)

theorem Dev.Alters.setOstate (v : Nat) : Dev.Alters f (laneRegs l) d (d.setOstate l v) :=
  .setFld d v (laneRegs_wngStat l) (by decide) (by decide)

theorem Dev.Alters.setRecall (v : Nat) : Dev.Alters f (laneRegs l) d (d.setFld F.PRT_LINK_CTL_RECALL l v) :=
  .setFld d v (laneRegs_linkCtl l) (by decide) (by decide)

theorem Dev.Alters.setState (st : Nat) : Dev.Alters f (laneRegs l) d (d.setState l st) := by
  have hst : Dev.Alters f (laneRegs l) d (d.setFld F.PRT_LINK_STAT_STATE l st) := .setStat d l _ rfl st
  unfold Dev.setState
  dsimp only
  split
  · exact hst
  · exact hst.trans (.setRetrain _ l 0)

theorem Dev.Alters.refLaneDown : Dev.Alters f (laneRegs l) d (d.refLaneDown l) := by
  unfold Dev.refLaneDown
  split
  · exact Dev.Alters.trans (.setFld d 3 (laneRegs_refCtl l 0) (by decide) (by decide)) (.notice _ _ _ _ _)
  · exact .refl d

/-! ## An exit from UP (R250, R265) -/

/-- A lane out of UP, before its notice: CAUSE, STATE and DOWNS. -/
def Dev.exitNoted (cause dest : Nat) : Dev :=
  ((d.setFld F.PRT_LINK_STAT_CAUSE l cause).setState l dest).bumpSat F.PRT_LINK_STAT_DOWNS l 1

theorem Dev.Alters.exitNoted (cause dest : Nat) : Dev.Alters f (laneRegs l) d (d.exitNoted l cause dest) :=
  ((Dev.Alters.setStat d l F.PRT_LINK_STAT_CAUSE rfl cause).trans (.setState _ l dest)).trans (.setStat _ l F.PRT_LINK_STAT_DOWNS rfl _)

variable {d l}

theorem Dev.exitUp_of_up (h : d.lstate l = 3) (cause dest : Nat) : d.exitUp l cause dest
    = ((d.exitNoted l cause dest).notice N.LINK_DOWN Src.core 0 (laneData l + cause * 2 ^ 44 + dest * 2 ^ 40)).refLaneDown l := by
  unfold Dev.exitUp
  rw [h]
  rfl

theorem Dev.Alters.exitUp (h : d.lstate l = 3) (cause dest : Nat) : Dev.Alters f (laneRegs l) d (d.exitUp l cause dest) := by
  rw [Dev.exitUp_of_up h]
  exact ((Dev.Alters.exitNoted d l cause dest).trans (.notice _ _ _ _ _)).trans (.refLaneDown _ l)

/-- DOWNS counts an exit from UP, and stays at its largest value (R265). -/
theorem Dev.downs_exitUp (h : d.lstate l = 3) (cause dest : Nat) :
    (d.exitUp l cause dest).fld F.PRT_LINK_STAT_DOWNS l = min (d.fld F.PRT_LINK_STAT_DOWNS l + 1) 65535 := by
  have hkept : ((d.setFld F.PRT_LINK_STAT_CAUSE l cause).setState l dest).fld F.PRT_LINK_STAT_DOWNS l = d.fld F.PRT_LINK_STAT_DOWNS l := by
    have hset : ∀ (d : Dev) (g : Fld) (v : Nat), g.lo ≤ g.hi → F.PRT_LINK_STAT_DOWNS.hi < g.lo →
        (d.setFld g l v).fld F.PRT_LINK_STAT_DOWNS l = d.fld F.PRT_LINK_STAT_DOWNS l := fun d g v hg hlo =>
      Dev.fld_setFld_of_ne _ _ _ _ _ _ hg (by decide) (.inr (.inl hlo))
    unfold Dev.setState
    dsimp only
    split
    · rw [hset _ _ _ (by decide) (by decide), hset _ _ _ (by decide) (by decide)]
    · rw [Dev.fld_setFld_of_rf _ _ _ _ (by decide), hset _ _ _ (by decide) (by decide), hset _ _ _ (by decide) (by decide)]
  have hnoted : (d.exitNoted l cause dest).fld F.PRT_LINK_STAT_DOWNS l = min (d.fld F.PRT_LINK_STAT_DOWNS l + 1) 65535 := by
    unfold Dev.exitNoted Dev.bumpSat
    rw [hkept, Dev.fld_setFld_self _ _ _ _ (by decide) (by decide)]
    exact Nat.mod_eq_of_lt (Nat.lt_succ_of_le (Nat.min_le_right _ _))
  have hafter : (d.exitUp l cause dest).fld F.PRT_LINK_STAT_DOWNS l = (d.exitNoted l cause dest).fld F.PRT_LINK_STAT_DOWNS l := by
    rw [Dev.exitUp_of_up h]
    unfold Dev.refLaneDown
    split
    · rw [Dev.fld_notice _ _ _ _ _ rfl, Dev.fld_setFld_of_rf _ _ _ _ (by decide), Dev.fld_notice _ _ _ _ _ rfl]
    · rw [Dev.fld_notice _ _ _ _ _ rfl]
  exact hafter.trans hnoted

end

theorem Dev.flag_of_fld {d : Dev} {g : Fld} {i n : Nat} (h : d.fld g i = n) : d.flag g i = (n == 1) := congrArg (· == 1) h

theorem Dev.nLanes_le (d : Dev) : d.nLanes ≤ 1024 := by unfold Dev.nLanes; split <;> omega

/-- A lane has left UP where what follows its exit is of the packet path. -/
theorem leavesUpBut_of_exitUp {f : Dev → Dev} {s t : State} {lane cause dest : Nat} (hlane : lane < s.d.nLanes) (hup : s.d.lstate lane = 3)
    (hc : cause < 16) (hd : dest < 16) (hrest : Rest s t) (h : Dev.Alters f busyRegs (s.d.exitUp lane cause dest) t.d) :
    LeavesUpBut f s t lane cause dest := by
  have hkept : ∀ g : Fld, g.rf = .PRT_LINK_STAT → t.d.fld g lane = (s.d.exitUp lane cause dest).fld g lane := fun g hg =>
    h.fld_kept (by rw [hg]; rfl) lane
  obtain ⟨hstate, hcause⟩ := s.d.fld_exitUp lane hc hd
  refine ⟨(hkept _ rfl).trans hstate, (hkept _ rfl).trans hcause, (hkept _ rfl).trans (Dev.downs_exitUp hup cause dest), ?_,
    (Dev.Alters.exitUp hup cause dest).trans (h.mono laneRegs_of_busy) |>.only hrest⟩
  rw [← laneData_of_lt (hlane.trans_le s.d.nLanes_le)]
  refine (Dev.Alters.exitNoted (f := noNet) s.d lane cause dest).follows.raises (.trans ?_ h.follows)
  rw [Dev.exitUp_of_up hup]
  exact (Dev.Alters.refLaneDown (f := noNet) _ lane).follows

/-- A lane that fails leaves UP, and the rest is of the packet path (R265). -/
theorem Dev.laneFail_alters {d : Dev} {l : Nat} (hup : d.lstate l = 3) (cause : Nat) :
    Dev.Alters noNet busyRegs (d.exitUp l cause 6) (d.laneFail l cause) := by
  have hR := keepsBusy (d.exitUp l cause 6)
  have hstop : Dev.Alters noNet busyRegs (d.exitUp l cause 6) (d.laneStop l cause) := by
    unfold Dev.laneStop
    rw [if_pos (by omega)]
    exact hR.net _ (hR.leaveService (.refl _) l)
  unfold Dev.laneFail
  rw [hup]
  exact hR.endLost (hR.modLane hstop l _) l

theorem Dev.Alters.flush (d : Dev) (n : Net) (l : List Nat) :
    Dev.Alters noNetFlush busyRegs d { d with net := n, tab := { d.tab with flush := l } } :=
  ⟨rfl, fun _ _ _ _ => Dev.rd_of_regs rfl rfl _ _, .of_regs rfl rfl rfl rfl⟩

/-- A border port that goes down: packets, lanes and the ports to flush change, and the registers of the packet path. -/
theorem Dev.portLost_alters (d : Dev) (p : Nat) : Dev.Alters noNetFlush busyRegs d (d.portLost p) := by
  have hdropped := (keepsBusy d).dropQueued ((keepsBusy d).cutSend (.refl d) p) p
  unfold Dev.portLost
  generalize (d.cutSend p).dropQueued p = x at hdropped ⊢
  exact hdropped.flushing.trans (.flush x _ _)

/-- A border lane that goes DOWN leaves UP, and its port with it; the rest is of the packet path (R250, R349). -/
theorem Dev.borderDown_alters (d : Dev) (l cause : Nat) :
    Dev.Alters noNetFlush busyRegs (d.exitUp l cause 0) (d.borderDown l cause) := by
  have hclose := (keepsBusy (d.exitUp l cause 0)).closeCredit (.refl _) l
  unfold Dev.borderDown
  dsimp only
  cases d.borderPortOf l with
  | none => exact hclose.flushing
  | some p => exact hclose.flushing.trans (Dev.portLost_alters _ p)

end Sys2Proof.Machine
end

section
/-! Lanes that leave UP: heartbeats that lapse, light and lock that are lost, block lock (R250, R264, R265, R304). -/

namespace Sys2Proof.Machine
open Sys2Proof.Claims

section
variable {s : State} {lane : Nat} (h : lane < s.d.nLanes)
include h

theorem exec_hbLapse : exec (.hbLapse lane) s = .next { s with
    d := s.d.when (s.d.ltype lane == 1 && !s.d.hbWithin lane (40000 * 65536)) (fun d => (d.laneFail lane 4).settle) } := by
  show execHbLapse lane s = _
  rw [execHbLapse, decide_eq_true h, ifUnit_true, onDev_eq]

theorem exec_losDetect : exec (.losDetect lane) s = .next { s with d := (s.d.los lane).settle.declareDue s.mem } := by
  show execLosDetect lane s = _
  rw [execLosDetect, decide_eq_true h, ifUnit_true, onDevM_eq]

theorem exec_lockLoss : exec (.lockLoss lane) s = .next { s with d := (s.d.lockLost lane).settle.declareDue s.mem } := by
  show execLockLoss lane s = _
  rw [execLockLoss, decide_eq_true h, ifUnit_true, onDevM_eq]

theorem exec_borderBlockLockChange (locked : Bool) :
    exec (.borderBlockLockChange lane locked) s = .next { s with d := (s.d.borderLock lane locked).settle } := by
  show execBorderBlockLockChange lane locked s = _
  rw [execBorderBlockLockChange, decide_eq_true h, ifUnit_true, onDev_eq]

theorem exec_heartbeatSend : exec (.heartbeatSend lane) s = .next { s with
    d := s.d.when (s.d.pastRoll lane) (fun d => d.modLane lane (fun x => { x with hbDue := true })) } := by
  show execHeartbeatSend lane s = _
  rw [execHeartbeatSend, decide_eq_true h, ifUnit_true, onDev_eq]

end

/-! ## A native lane that fails -/

section
variable {s : State} {lane : Nat} (h : InState s lane 3)
include h

/-- A lane that fails leaves UP for FAILED, whatever the packet path makes of what it carried. -/
theorem leavesUp_of_laneFail {t : State} {cause : Nat} (hc : cause < 16) (hrest : Rest s t)
    (ht : Dev.Alters noNet busyRegs (s.d.laneFail lane cause) t.d) : LeavesUp s t lane cause 6 :=
  leavesUpBut_of_exitUp h.1 h.2 hc (by decide) hrest ((Dev.laneFail_alters h.2 cause).trans ht)

/-- A fabric-facing lane without heartbeat for 40 µs goes FAILED (R265). -/
theorem hbLapse_fails (htype : s.d.ltype lane = 1) (hb : s.d.hbWithin lane (40000 * 65536) = false) :
    Completes (.hbLapse lane) s (fun t => LeavesUp s t lane 4 6) := by
  have hexec := exec_hbLapse h.1
  rw [htype, hb] at hexec
  exact ⟨_, hexec, leavesUp_of_laneFail h (by decide) ⟨rfl, rfl⟩ ((keepsBusy _).settle (.refl _))⟩

theorem hbLapse_holds (hno : s.d.ltype lane = 0 ∨ s.d.hbWithin lane (40000 * 65536) = true) :
    Completes (.hbLapse lane) s (fun t => t = s) := by
  have hexec := exec_hbLapse h.1
  have hcond : (s.d.ltype lane == 1 && !s.d.hbWithin lane (40000 * 65536)) = false := by
    rcases hno with e | e <;> simp [e]
  rw [hcond] at hexec
  exact ⟨s, hexec, rfl⟩

/-- Loss of light fails the lane, with the cause that the neighbour's DRAINING leaves (R265, R304). -/
theorem losDetect_fails {cause : Nat} (hc : cause < 16) (hlos : s.d.los lane = s.d.laneFail lane cause) :
    Completes (.losDetect lane) s (fun t => LeavesUp s t lane cause 6) := by
  have hexec := exec_losDetect h.1
  rw [hlos] at hexec
  exact ⟨_, hexec, leavesUp_of_laneFail h hc ⟨rfl, rfl⟩ ((keepsBusy _).declareDue ((keepsBusy _).settle (.refl _)) _)⟩

theorem lockLoss_fails (htype : s.d.ltype lane ≤ 1) : Completes (.lockLoss lane) s (fun t => LeavesUp s t lane 2 6) := by
  have hexec := exec_lockLoss h.1
  have hlost : s.d.lockLost lane = s.d.laneFail lane 2 := if_neg (by omega)
  rw [hlost] at hexec
  exact ⟨_, hexec, leavesUp_of_laneFail h (by decide) ⟨rfl, rfl⟩ ((keepsBusy _).declareDue ((keepsBusy _).settle (.refl _)) _)⟩

end

section
variable {d : Dev} {l : Nat} (h : d.ltype l ≤ 1)
include h

/-- DRAINING was never heard: CAUSE is LOS. -/
theorem Dev.los_of_silent (hdrain : (d.lane l).drainAt = none) : d.los l = d.laneFail l 1 := by
  simp [Dev.los, hdrain, show d.ltype l ≠ 2 by omega]

/-- DRAINING was heard within 50 µs: CAUSE is COMMAND. -/
theorem Dev.los_of_draining {at_ : Nat} (hdrain : (d.lane l).drainAt = some at_) (hwithin : d.since at_ ≤ 50000 * 65536) :
    d.los l = d.laneFail l 6 := by
  simp [Dev.los, hdrain, show d.ltype l ≠ 2 by omega, show d.since at_ ≤ 3276800000 from hwithin]

/-- DRAINING was heard too long ago: CAUSE is LOS. -/
theorem Dev.los_of_drained {at_ : Nat} (hdrain : (d.lane l).drainAt = some at_) (hpast : 50000 * 65536 < d.since at_) :
    d.los l = d.laneFail l 1 := by
  simp [Dev.los, hdrain, show d.ltype l ≠ 2 by omega, show ¬ d.since at_ ≤ 3276800000 from Nat.not_le.2 hpast]

end

/-! ## A border lane (R250) -/

section
variable {s : State} {lane : Nat} (h : lane < s.d.nLanes)
include h

section
variable (htype : s.d.ltype lane = 2) (hup : s.d.lstate lane = 3)

omit h in
include htype hup in
theorem Dev.borderLock_lost : s.d.borderLock lane false = s.d.borderDown lane 2 := by
  simp [Dev.borderLock, htype, hup]

include hup in
theorem borderLeavesUp_of_borderDown {t : State} (hrest : Rest s t) (ht : Dev.Alters noNet busyRegs (s.d.borderDown lane 2) t.d) :
    BorderLeavesUp s t lane 2 :=
  leavesUpBut_of_exitUp h hup (by decide) (by decide) hrest ((Dev.borderDown_alters s.d lane 2).trans ht.flushing)

include htype hup

theorem borderBlockLockChange_lost : Completes (.borderBlockLockChange lane false) s (fun t => BorderLeavesUp s t lane 2) := by
  have hexec := exec_borderBlockLockChange h false
  rw [Dev.borderLock_lost htype hup] at hexec
  exact ⟨_, hexec, borderLeavesUp_of_borderDown h hup ⟨rfl, rfl⟩ ((keepsBusy _).settle (.refl _))⟩

theorem losDetect_border : Completes (.losDetect lane) s (fun t => BorderLeavesUp s t lane 2) := by
  have hexec := exec_losDetect h
  have hlos : s.d.los lane = s.d.borderDown lane 2 := (if_pos htype).trans (Dev.borderLock_lost htype hup)
  rw [hlos] at hexec
  exact ⟨_, hexec, borderLeavesUp_of_borderDown h hup ⟨rfl, rfl⟩ ((keepsBusy _).declareDue ((keepsBusy _).settle (.refl _)) _)⟩

theorem lockLoss_border : Completes (.lockLoss lane) s (fun t => BorderLeavesUp s t lane 2) := by
  have hexec := exec_lockLoss h
  have hlost : s.d.lockLost lane = s.d.borderDown lane 2 := (if_pos htype).trans (Dev.borderLock_lost htype hup)
  rw [hlost] at hexec
  exact ⟨_, hexec, borderLeavesUp_of_borderDown h hup ⟨rfl, rfl⟩ ((keepsBusy _).declareDue ((keepsBusy _).settle (.refl _)) _)⟩

end

/-- Block lock on a lane that is UP changes nothing. -/
theorem borderBlockLockChange_up (hcalm : Calm s) (hup : s.d.lstate lane = 3) :
    Completes (.borderBlockLockChange lane true) s (fun t => t = s) := by
  have hexec := exec_borderBlockLockChange h true
  have hlock : s.d.borderLock lane true = s.d := by simp [Dev.borderLock, hup]
  rw [hlock, Dev.settle_of_empty hcalm.1] at hexec
  exact ⟨s, hexec, rfl⟩

/-- Block lock brings an enabled border lane UP on a Wing that runs, with the reference, its heaters and its laser (R250). -/
theorem borderBlockLockChange_gained (htype : s.d.fld F.PRT_LINK_CTL_TYPE lane = 2) (hen : s.d.fld F.PRT_LINK_CTL_EN lane = 1)
    (hsite : s.d.site (1 + lane / 64) = 1) (hdown : s.d.lstate lane ≠ 3) (href : s.d.tmu.refOk = true) (hlaser : s.d.laserLost lane = false)
    (hclamp : ∀ x ∈ (s.d.wing (lane / 64)).clamped, x ≠ lane % 64 ∧ x ≠ 120 + lane % 64 / 8) :
    Completes (.borderBlockLockChange lane true) s (fun t => t.d.lstate lane = 3 ∧ Only noNet s t (laneRegs lane)) := by
  have hexec := exec_borderBlockLockChange h true
  have hring : lane % 64 ∉ (s.d.wing (lane / 64)).clamped := fun hx => (hclamp _ hx).1 rfl
  have hswitch : 120 + laneGroup lane ∉ (s.d.wing (lane / 64)).clamped := fun hx => (hclamp _ hx).2 rfl
  have hup : s.d.siteUp (wingSite (lane / 64)) = true := by
    unfold Dev.siteUp wingSite
    rw [Nat.add_comm, hsite]
    rfl
  have hflag : s.d.flag F.PRT_LINK_CTL_EN lane = true := Dev.flag_of_fld hen
  have hlock : s.d.borderLock lane true = ((s.d.setState lane 3).setOstate lane 1).openCredit lane false := by
    simp [Dev.borderLock, htype, hflag, hup, hdown, href, hring, hswitch, hlaser]
  rw [hlock] at hexec
  have hset : Dev.Alters noNet (laneRegs lane) s.d ((s.d.setState lane 3).setOstate lane 1) :=
    (Dev.Alters.setState s.d lane 3).trans (.setOstate _ lane 1)
  have hafter : Dev.Alters noNet busyRegs ((s.d.setState lane 3).setOstate lane 1)
      (((s.d.setState lane 3).setOstate lane 1).openCredit lane false).settle :=
    (keepsBusy _).settle ((keepsBusy _).openCredit (.refl _) lane false)
  refine ⟨_, hexec, ?_, (hset.trans (hafter.mono laneRegs_of_busy)).only ⟨rfl, rfl⟩⟩
  exact (hafter.fld_kept rfl lane).trans ((Dev.fld_setFld_of_rf _ _ _ _ (by decide)).trans (s.d.fld_setState lane (by decide)).1)

end

end Sys2Proof.Machine
end

section
/-! Training, its timer, and the retry of a lane that failed (R231, R251, R252, R254). -/

namespace Sys2Proof.Machine
open Sys2Proof.Claims

/-! ## TRAINING -/

section
variable (d : Dev) (l : Nat) (fresh : Bool)

theorem Dev.Alters.enterTraining : Dev.Alters noNet (laneRegs l) d (d.enterTraining l fresh) := by
  have hclosed := (keepsLane l d).modLane ((keepsLane l d).closeCredit (.refl d) l) l
    (fun x => { x.afterDown with absentRun := fresh || x.absentRun, fecS := (d.closeCredit l).flag F.WNG_LANE_CTL_FEC (wngLane l) })
  exact (hclosed.trans (.setState _ l 1)).trans (.setOstate _ l 1)

/-- A lane that enters TRAINING: its state and its optics. -/
theorem Dev.fld_enterTraining : (d.enterTraining l fresh).fld F.PRT_LINK_STAT_STATE l = 1
    ∧ (d.enterTraining l fresh).fld F.WNG_LANE_STAT_OSTATE (wngLane l) = 1 :=
  ⟨(Dev.fld_setFld_of_rf _ _ _ _ (by decide)).trans (Dev.fld_setState _ l (by decide)).1,
    Dev.fld_setFld_self _ _ _ _ (by decide) (by decide)⟩

end

/-! ## The initial credit (R101, R102) -/

/-- A pass that sets each listed VL of a lane leaves it as set. -/
theorem Dev.lv_each_setLv {g : Dev → Nat → LaneVl} (hg : ∀ d k x v, g (d.setLv k x) v = g d v) (l v : Nat) (vs : List Nat) :
    ∀ d : Dev, d.lv (lvKey l v) = g d v ∨ v ∈ vs → (d.each vs (fun d v => d.setLv (lvKey l v) (g d v))).lv (lvKey l v) = g d v := by
  induction vs with
  | nil => exact fun d h => h.resolve_right (List.not_mem_nil)
  | cons u vs ih =>
    intro d h
    rw [Dev.each_cons, ← hg d (lvKey l u) (g d u) v]
    refine ih _ ?_
    by_cases e : v = u
    · subst e
      exact .inl (by rw [hg]; simp [Dev.lv, Dev.setLv])
    · have hkey : lvKey l v ≠ lvKey l u := fun k => e (by unfold lvKey at k; omega)
      rcases h with h | h
      · exact .inl (by rw [hg, ← h]; simp [Dev.lv, Dev.setLv, hkey])
      · exact .inr ((List.mem_cons.1 h).resolve_left e)

/-- A lane's account of one VL when its link comes up (R101, R102). -/
def Dev.advertised (d : Dev) (fabric : Bool) (v : Nat) : LaneVl :=
  let t := if fabric ∧ 1 ≤ v ∧ v ≤ 6 then d.detCells else 0
  { resCap := d.resCells v, detCap := t, nGrant := 4 * d.resCells v, dGrant := 4 * t }

/-- What the lane grants its peer when its link comes up (R102). -/
theorem Dev.nGrant_openCredit (d : Dev) (l v : Nat) (fabric : Bool) (hv : v < 8) :
    ((d.openCredit l fabric).lv (8 * l + v)).nGrant = 4 * max 18 (bitsOf (d.rd .WRD_RES 0) (8 * v + 7) (8 * v)) := by
  exact congrArg LaneVl.nGrant (Dev.lv_each_setLv (g := fun d => d.advertised fabric)
    (fun d k x v => by simp [Dev.advertised, Dev.resCells, Dev.detCells]) l v (List.range 8) d (.inr (List.mem_range.2 hv)))

section
variable {s : State} {lane : Nat} (h : InState s lane 1)
include h

theorem exec_trainingDone : exec (.trainingDone lane) s = .next { s with
    d := s.d.when s.d.tmu.refOk (fun d => (d.enterRollCall lane).setFld F.WNG_LANE_CTL_RETRAIN (wngLane lane) 0) } := by
  show execTrainingDone lane s = _
  rw [execTrainingDone, decide_eq_true h.1, ifUnit_true, onDev_eq, h.2]
  rfl

theorem trainingDone_waits (href : s.d.tmu.refOk = false) : exec (.trainingDone lane) s = .next s := by
  rw [exec_trainingDone h, href]
  rfl

/-- The PHY is trained: roll call begins, with the initial credit (R251, R252, R254). -/
theorem trainingDone_completes (href : s.d.tmu.refOk = true) : Completes (.trainingDone lane) s (fun t => t.d.lstate lane = 2
    ∧ (∀ v, v < 8 → (t.d.lv (8 * lane + v)).nGrant = 4 * max 18 (bitsOf (s.d.rd .WRD_RES 0) (8 * v + 7) (8 * v)))
    ∧ t.d.fld F.WNG_LANE_CTL_RETRAIN (lane / 64 * 65 + lane % 64) = 0 ∧ Only noNet s t (laneRegs lane)) := by
  have hexec := exec_trainingDone h
  rw [href] at hexec
  have hopen := (keepsLane lane s.d).modLane ((keepsLane lane s.d).openCredit (.refl s.d) lane (s.d.ltype lane == 1)) lane
    (fun x => { x with rttArm := true })
  have hlvs : ∀ (d : Dev) (st : Nat), (d.setState lane st).net = d.net := fun d st => by
    unfold Dev.setState
    dsimp only
    split <;> rfl
  refine ⟨_, hexec, ?_, fun v hv => ?_, Dev.fld_setFld_self _ _ _ _ (by decide) (by decide),
    ((hopen.trans (.setState _ lane 2)).trans (.setRetrain _ lane 0)).only ⟨rfl, rfl⟩⟩
  · exact (Dev.fld_setFld_of_rf _ _ _ _ (by decide)).trans (Dev.fld_setState _ lane (by decide)).1
  · rw [← s.d.nGrant_openCredit lane v (s.d.ltype lane == 1) hv]
    show ((((s.d.openCredit lane (s.d.ltype lane == 1)).modLane lane _).setState lane 2).net.lvs.get {} (8 * lane + v)).nGrant = _
    rw [hlvs]
    rfl

/-- Training starts over after 10 ms, with the FEC mode latched anew (R231, R251). -/
theorem trainTimeout_completes : Completes (.trainTimeout lane) s (fun t => t.d.lstate lane = 1 ∧ t.d.fld F.PRT_LINK_STAT_CAUSE lane = 9
    ∧ t.d.lane lane = { s.d.lane lane with fecS := s.d.fld F.WNG_LANE_CTL_FEC (lane / 64 * 65 + lane % 64) == 1 }
    ∧ (∀ l, l ≠ lane → t.d.lane l = s.d.lane l) ∧ Only noLanes s t (fun r i => r = .PRT_LINK_STAT ∧ i = lane)) := by
  have hexec : exec (.trainTimeout lane) s = .next { s with
      d := (s.d.setFld F.PRT_LINK_STAT_CAUSE lane 9).modLane lane (fun x => { x with fecS := s.d.flag F.WNG_LANE_CTL_FEC (wngLane lane) }) } := by
    show execTrainTimeout lane s = _
    rw [execTrainTimeout, decide_eq_true h.1, ifUnit_true, onDev_eq, h.2]
    rfl
  refine ⟨_, hexec, ?_, ?_, ?_, fun l hl => ?_, ⟨rfl, rfl⟩, rfl, fun r i _ hr => ?_⟩
  · exact (Dev.fld_modLane _ _ _ _ _).trans ((Dev.fld_setFld_of_ne _ _ _ _ _ _ (by decide) (by decide) (.inr (by decide))).trans h.2)
  · exact (Dev.fld_modLane _ _ _ _ _).trans (Dev.fld_setFld_self _ _ _ _ (by decide) (by decide))
  · exact (Dev.lane_modLane _ _ _ _).trans (if_pos rfl)
  · exact (Dev.lane_modLane _ _ _ _).trans (if_neg hl)
  · exact (Dev.rd_modLane _ _ _ _ _).trans (Dev.rd_setFld_of_ne _ _ _ _ _ _ hr)

end

/-! ## ROLL_CALL and its timers (R251, R257) -/

section
variable {s : State} {lane : Nat} (h : InState s lane 2)
include h

theorem rollCallSend_completes : Completes (.rollCallSend lane) s
    (fun t => t = { s with d := s.d.setLane lane { s.d.lane lane with rollDue := true } }) := by
  refine ⟨_, ?_, rfl⟩
  show execRollCallSend lane s = _
  rw [execRollCallSend, decide_eq_true h.1, ifUnit_true, onDev_eq, h.2]
  rfl

/-- Without completion after 100 µs the lane trains again (R251). -/
theorem rollCallTimeout_completes : Completes (.rollCallTimeout lane) s (fun t => t.d.lstate lane = 1
    ∧ t.d.fld F.PRT_LINK_CTL_RECALL lane = 0 ∧ Only noNet s t (laneRegs lane)) := by
  set d1 := (s.d.cutReceive lane).cutSend lane
  set d2 := (d1.enterTraining lane false).setFld F.PRT_LINK_CTL_RECALL lane 0
  have hexec : exec (.rollCallTimeout lane) s = .next { s with d := d2.settle } := by
    show execRollCallTimeout lane s = _
    rw [execRollCallTimeout, decide_eq_true h.1, ifUnit_true, onDev_eq, h.2]
    rfl
  have hcut : Dev.Alters noNet (laneRegs lane) s.d d1 := (keepsLane lane s.d).cutSend ((keepsLane lane s.d).cutReceive (.refl s.d) lane) lane
  have hset : Dev.Alters noNet (laneRegs lane) s.d d2 := (hcut.trans (.enterTraining d1 lane false)).trans (.setRecall _ lane 0)
  have hafter : Dev.Alters noNet busyRegs d2 d2.settle := (keepsBusy d2).settle (.refl d2)
  refine ⟨_, hexec, ?_, ?_, (hset.trans (hafter.mono laneRegs_of_busy)).only ⟨rfl, rfl⟩⟩
  · exact (hafter.fld_kept rfl lane).trans
      ((Dev.fld_setFld_of_rf _ _ _ _ (by decide)).trans (d1.fld_enterTraining lane false).1)
  · exact (hafter.fld_kept rfl lane).trans (Dev.fld_setFld_self _ _ _ _ (by decide) (by decide))

end

/-! ## FAILED (R251) -/

section
variable {s : State} {lane : Nat} (h : InState s lane 6)
include h

theorem exec_failedRetry : exec (.failedRetry lane) s = .next { s with
    d := if !s.d.flag F.PRT_LINK_CTL_EN lane ∨ 2 ≤ s.d.fld F.PRT_LINK_CTL_TYPE lane then s.d.startLane lane
      else s.d.when (s.d.mayTrain lane) (fun d => d.enterTraining lane true) } := by
  show execFailedRetry lane s = _
  rw [execFailedRetry, decide_eq_true h.1, ifUnit_true, onDev_eq, h.2]
  rfl

section
variable (hen : s.d.fld F.PRT_LINK_CTL_EN lane = 1) (htype : s.d.fld F.PRT_LINK_CTL_TYPE lane ≤ 1)
include hen htype

theorem exec_failedRetry_enabled : exec (.failedRetry lane) s = .next { s with
    d := s.d.when (s.d.mayTrain lane) (fun d => d.enterTraining lane true) } := by
  have hflag : s.d.flag F.PRT_LINK_CTL_EN lane = true := Dev.flag_of_fld hen
  rw [exec_failedRetry h, if_neg (by simp only [hflag]; simp; omega)]

theorem failedRetry_trains (hmay : s.d.mayTrain lane = true) : Completes (.failedRetry lane) s (fun t => t.d.lstate lane = 1
    ∧ t.d.fld F.WNG_LANE_STAT_OSTATE (lane / 64 * 65 + lane % 64) = 1 ∧ Only noNet s t (laneRegs lane)) := by
  have hexec := exec_failedRetry_enabled h hen htype
  rw [hmay] at hexec
  obtain ⟨hstate, hoptics⟩ := s.d.fld_enterTraining lane true
  exact ⟨_, hexec, hstate, hoptics, (Dev.Alters.enterTraining s.d lane true).only ⟨rfl, rfl⟩⟩

theorem failedRetry_waits (hmay : s.d.mayTrain lane = false) : Completes (.failedRetry lane) s (fun t => t = s) := by
  have hexec := exec_failedRetry_enabled h hen htype
  rw [hmay] at hexec
  exact ⟨s, hexec, rfl⟩

end

/-- A lane that is switched off goes DOWN. -/
theorem failedRetry_off (hen : s.d.fld F.PRT_LINK_CTL_EN lane = 0) (htype : s.d.fld F.PRT_LINK_CTL_TYPE lane ≠ 3) :
    Completes (.failedRetry lane) s (fun t => t.d.lstate lane = 0 ∧ Only noNet s t (laneRegs lane)) := by
  have hexec := exec_failedRetry h
  have hflag : s.d.flag F.PRT_LINK_CTL_EN lane = false := Dev.flag_of_fld hen
  have hstart : s.d.startLane lane = ((s.d.setState lane 0).setOstate lane 0).setFld F.WNG_LANE_CTL_RETRAIN (wngLane lane) 0 := by
    simp [Dev.startLane, htype, hflag]
  rw [if_pos (.inl (by rw [hflag]; rfl)), hstart] at hexec
  refine ⟨_, hexec, ?_,
    (((Dev.Alters.setState s.d lane 0).trans (.setOstate _ lane 0)).trans (.setRetrain _ lane 0)).only ⟨rfl, rfl⟩⟩
  exact (Dev.fld_setFld_of_rf _ _ _ _ (by decide)).trans
    ((Dev.fld_setFld_of_rf _ _ _ _ (by decide)).trans (s.d.fld_setState lane (by decide)).1)

end

end Sys2Proof.Machine
end

section
/-! Messages between a lane and its neighbour: heartbeats, ROLL_CALL, and the seating check that ends roll call (R257, R258, R260,
R264, R282). -/

namespace Sys2Proof.Machine
open Sys2Proof.Claims

/-- The message that waits first is the one taken. -/
theorem Dev.takeMsg_first {d : Dev} {l : Nat} {hb : Bool} {pay : BitVec 352} {rest : List LinkMsg}
    (h : (d.lane l).linkRx = ⟨hb, pay⟩ :: rest) :
    d.takeMsg l hb = some (⟨hb, pay⟩, d.setLane l { d.lane l with linkRx := rest }) := by
  simp [Dev.takeMsg, Dev.modLane, h, eraseOne]

/-! ## Heartbeats (R264) -/

section
variable {s : State} {lane : Nat} (h : lane < s.d.nLanes) (hlow : 3 ≤ s.d.lstate lane) (hhigh : s.d.lstate lane ≤ 5)
  (htype : s.d.ltype lane ≤ 1)
include h hlow hhigh htype

theorem heartbeatSend_completes : Completes (.heartbeatSend lane) s
    (fun t => t = { s with d := s.d.setLane lane { s.d.lane lane with hbDue := true } }) := by
  have hexec := exec_heartbeatSend h
  have hpast : s.d.pastRoll lane = true := decide_eq_true ⟨hlow, hhigh, htype⟩
  rw [hpast] at hexec
  exact ⟨_, hexec, rfl⟩

/-- A heartbeat from the neighbour restarts the lapse, and its DRAINING is remembered (R264, R304). -/
theorem heartbeat_counts {pay : BitVec 352} {rest : List LinkMsg} (hfirst : (s.d.lane lane).linkRx = ⟨true, pay⟩ :: rest)
    (hca : bitsOf pay 319 288 / 256 = s.d.fld F.PRT_PEER_CA lane) :
    Completes (.heartbeat lane) s (fun t => t = { s with d := (s.d.setLane lane { s.d.lane lane with linkRx := rest }).setLane lane {
      s.d.lane lane with
        linkRx := rest
        hbAt := some s.d.tmu.total
        drainAt := if bitsOf pay 223 216 / 2 % 2 = 1 then some s.d.tmu.total else (s.d.lane lane).drainAt } }) := by
  have hcounts : (s.d.setLane lane { s.d.lane lane with linkRx := rest }).hbCounts lane ⟨true, pay⟩ = true := by
    have hstate : (s.d.setLane lane { s.d.lane lane with linkRx := rest }).lstate lane = s.d.lstate lane := Dev.fld_setLane _ _ _ _ _
    have hlt : (s.d.setLane lane { s.d.lane lane with linkRx := rest }).ltype lane = s.d.ltype lane := by simp [Dev.ltype]
    simp [Dev.hbCounts, Dev.pastRoll, hstate, hlt, hlow, hhigh, htype, hca]
  refine ⟨_, ?_, rfl⟩
  show execHeartbeat lane s = _
  rw [execHeartbeat, decide_eq_true h, ifUnit_true, onDev_eq, Dev.takeMsg_first hfirst]
  simp [hcounts, Dev.modLane]

end

/-! ## The seating check (R258) -/

section
variable {d : Dev} {l : Nat}

theorem Dev.planCheck_bounds (d : Dev) (l : Nat) : 3 ≤ (d.planCheck l).1 ∧ (d.planCheck l).1 ≤ 5 := by
  unfold Dev.planCheck
  dsimp only
  repeat' split
  all_goals omega

theorem Dev.planCheck_version (h : d.fld F.PRT_PEER_VERSION l ≠ 1) : d.planCheck l = (4, true) := if_pos h

theorem Dev.planCheck_unplanned (h : d.fld F.PRT_PEER_VERSION l = 1) (hex : d.fld F.PRT_SEAT_EXPECT l = 0) :
    d.planCheck l = (5, false) := (if_neg (not_not.2 h)).trans (if_pos hex)

theorem Dev.planCheck_planned (h : d.fld F.PRT_PEER_VERSION l = 1) (hex : d.fld F.PRT_SEAT_EXPECT l = 1) (htype : d.ltype l = 1)
    (hyef : d.fld F.PRT_PEER_YEFEDRA l = 1) (hca : d.fld F.PRT_SEAT_CA l = d.fld F.PRT_PEER_CA l)
    (hlane : d.fld F.PRT_SEAT_PEER_LANE l = d.fld F.PRT_PEER_LANE l) : d.planCheck l = (3, false) := by
  simp [Dev.planCheck, Dev.flag, h, hex, htype, hyef, hca, hlane]

/-- What a lift that takes effect leaves alone: whatever neither FENCED and a lift that is due nor LIFT shows (R282). -/
theorem Dev.liftStep_keeps {β : Type} {g : Dev → β}
    (hup : ∀ d l, g ((d.setFld F.PRT_LINK_STAT_FENCED l 0).modLane l (fun x => { x with liftDue := false })) = g d)
    (hlift : ∀ d l, g (d.setFld F.PRT_FENCE_LIFT l 0) = g d) (d : Dev) (ca : Nat) : g (d.liftStep ca) = g d := by
  unfold Dev.liftStep
  extract_lets ls e
  have he : g e = g d := by
    show g (if _ then _ else _) = _
    split
    · rfl
    · exact Dev.each_keeps g _ hup _ _
  split
  · exact he
  · exact (Dev.each_keeps g _ hlift _ _).trans he

/-- A lane in the state that the check gives, before its notice or its lift. -/
def Dev.entered (d : Dev) (l st : Nat) : Dev := (d.setState l st).modLane l (fun x => { x with absentRun := false, fell := x.fell && st != 3 })

theorem Dev.Alters.entered (d : Dev) (l st : Nat) : Dev.Alters noNet (laneRegs l) d (d.entered l st) :=
  (Dev.Alters.setState d l st).trans (.modLane _ l _)

theorem Dev.enterChecked_eq (d : Dev) (l st : Nat) : d.enterChecked l st
    = if st = 4 then (d.entered l st).notice N.MISCAST Src.core 0 (castData l (d.fld F.PRT_PEER_CA l) (d.fld F.PRT_PEER_LANE l))
      else if st = 5 then (d.entered l st).notice N.NEIGHBOUR_EXTRA Src.core 0 (castData l (d.fld F.PRT_PEER_CA l) (d.fld F.PRT_PEER_LANE l))
      else if ((d.entered l st).lane l).liftDue then (d.entered l st).liftStep ((d.entered l st).peerCa l) else d.entered l st := rfl

theorem Dev.lane_setState (d : Dev) (l st j : Nat) : (d.setState l st).lane j = d.lane j := by
  unfold Dev.setState
  dsimp only
  split <;> rfl

theorem Dev.lane_entered (d : Dev) (l st : Nat) : (d.entered l st).lane l = { d.lane l with
    absentRun := false, fell := (d.lane l).fell && st != 3 } := by
  unfold Dev.entered
  rw [Dev.lane_modLane, if_pos rfl, Dev.lane_setState]

/-- What of a lane neither a notice nor a lift that takes effect changes: its state and cause, its neighbour, and its messages. -/
def Dev.seated (d : Dev) (l : Nat) : Nat × Nat × Word × List LinkMsg :=
  (d.fld F.PRT_LINK_STAT_STATE l, d.fld F.PRT_LINK_STAT_CAUSE l, d.rd .PRT_PEER l, (d.lane l).linkRx)

theorem Dev.seated_notice (d : Dev) (l ty src prod data : Nat) : (d.notice ty src prod data).seated l = d.seated l := by
  have hlane : (d.notice ty src prod data).net = d.net := ((Dev.Logs.refl d).notice ty src prod data).net
  unfold Dev.seated
  rw [Dev.fld_notice _ _ _ _ _ rfl, Dev.fld_notice _ _ _ _ _ rfl, (d.soft_notice ty src prod data).regs _ _ rfl,
    Dev.lane_congr (congrArg Net.lanes hlane)]

theorem Dev.seated_liftStep (d : Dev) (l ca : Nat) : (d.liftStep ca).seated l = d.seated l := by
  refine Dev.liftStep_keeps (g := fun d => d.seated l) (fun d j => ?_) (fun d j => ?_) d ca
  · have hlinkRx : (((d.setFld F.PRT_LINK_STAT_FENCED j 0).modLane j (fun x => { x with liftDue := false })).lane l).linkRx
        = (d.lane l).linkRx := by
      rw [Dev.lane_modLane]
      split
      · next e => rw [e]; rfl
      · rfl
    unfold Dev.seated
    rw [hlinkRx, Dev.fld_modLane, Dev.fld_modLane, Dev.rd_modLane, Dev.fld_setFld_of_ne _ _ _ _ _ _ (by decide) (by decide) (.inr (by decide)),
      Dev.fld_setFld_of_ne _ _ _ _ _ _ (by decide) (by decide) (.inr (by decide)), Dev.rd_setFld_of_rf _ _ _ _ (by decide)]
  · unfold Dev.seated
    rw [Dev.fld_setFld_of_rf _ _ _ _ (by decide), Dev.fld_setFld_of_rf _ _ _ _ (by decide),
      Dev.rd_setFld_of_rf _ _ _ _ (by decide)]
    rfl

/-- The lane shows the state that the check gave it, and its cause, neighbour and messages are as before. -/
theorem Dev.seated_enterChecked (d : Dev) (l : Nat) {st : Nat} (hst : st < 16) :
    (d.enterChecked l st).seated l = (st, d.fld F.PRT_LINK_STAT_CAUSE l, d.rd .PRT_PEER l, (d.lane l).linkRx) := by
  have hentered : (d.entered l st).seated l = (st, d.fld F.PRT_LINK_STAT_CAUSE l, d.rd .PRT_PEER l, (d.lane l).linkRx) := by
    obtain ⟨hstate, hcause⟩ := d.fld_setState l hst
    have hpeer : (d.entered l st).rd .PRT_PEER l = d.rd .PRT_PEER l := (Dev.Alters.entered d l st).regs _ _ rfl (by simp [laneRegs, RF.busy])
    unfold Dev.seated
    rw [hpeer, Dev.lane_entered]
    unfold Dev.entered
    rw [Dev.fld_modLane, Dev.fld_modLane, hstate, hcause]
  rw [Dev.enterChecked_eq]
  split
  · exact (Dev.seated_notice _ _ _ _ _ _).trans hentered
  · split
    · exact (Dev.seated_notice _ _ _ _ _ _).trans hentered
    · split
      · exact (Dev.seated_liftStep _ _ _).trans hentered
      · exact hentered

/-- With no lift due, the check's outcome changes the lane's own registers alone. -/
theorem Dev.Alters.enterChecked (h : (d.lane l).liftDue = false) (st : Nat) : Dev.Alters noNet (laneRegs l) d (d.enterChecked l st) := by
  have hentered := Dev.Alters.entered d l st
  rw [Dev.enterChecked_eq, Dev.lane_entered, h]
  split
  · exact hentered.trans (.notice _ _ _ _ _)
  · split
    · exact hentered.trans (.notice _ _ _ _ _)
    · exact hentered

end

/-! ## Roll call completes (R257, R262, R279) -/

section
variable (d : Dev) (l : Nat) (pay : BitVec 352)

/-- PRT_PEER as a ROLL_CALL gives it. -/
def Dev.peerNoted : Dev :=
  (((((d.setFld F.PRT_PEER_CA l (msgField pay 4 4 / 256)).setFld F.PRT_PEER_LANE l (msgField pay 8 2)).setFld
    F.PRT_PEER_VERSION l (msgField pay 10 1)).setFld F.PRT_PEER_LEVEL_PEER l (msgField pay 11 1)).setFld
    F.PRT_PEER_LEVEL l (min (d.fld F.GLB_LINK_CTL_LEVEL_CAP 0) (msgField pay 11 1))).setFld F.PRT_PEER_YEFEDRA l (msgField pay 16 1 / 2 % 2)

/-- A lane to a fenced neighbour is fenced. -/
def Dev.fencedWith : Dev :=
  if d.ltype l = 1 ∧ d.flag F.PRT_PEER_YEFEDRA l ∧ d.fencedPeer l then
    (d.setFld F.PRT_LINK_STAT_FENCED l 1).modLane l (fun x => { x with liftDue := false })
  else d

/-- A lane whose roll call has completed, before the check. -/
def Dev.rollEnded : Dev := (((d.peerNoted l pay).setFld F.PRT_LINK_CTL_RECALL l 0).setFld F.WNG_LANE_CTL_RETRAIN (wngLane l) 0).fencedWith l

/-- A lane that the check has judged: CAUSE where the version is at fault. -/
def Dev.judged : Dev := if (d.planCheck l).2 then d.setFld F.PRT_LINK_STAT_CAUSE l 8 else d

theorem Dev.completeRollCall_eq (hb : Bool) : d.completeRollCall l ⟨hb, pay⟩
    = ((d.rollEnded l pay).judged l).enterChecked l ((d.rollEnded l pay).planCheck l).1 := rfl

variable {d l pay}

theorem Dev.fld_setFld_of_disjoint (d : Dev) (f g : Fld) (i v : Nat) (hl : f.lo ≤ f.hi) (hg : g.lo ≤ g.hi) (h : g.hi < f.lo ∨ f.hi < g.lo) :
    (d.setFld f i v).fld g i = d.fld g i := Dev.fld_setFld_of_ne _ _ _ _ _ _ hl hg (.inr h)

theorem msgField_lt (pay : BitVec 352) (m n : Nat) (hn : 1 ≤ n) (h : m + n ≤ 44) : msgField pay m n < 2 ^ (8 * n) := by
  have hlt := bitsOf_lt pay (351 - 8 * m) (352 - 8 * (m + n))
  rwa [show 351 - 8 * m - (352 - 8 * (m + n)) + 1 = 8 * n by omega] at hlt

theorem Dev.fld_peerNoted (d : Dev) (l : Nat) (pay : BitVec 352) : (d.peerNoted l pay).fld F.PRT_PEER_CA l = msgField pay 4 4 / 256
    ∧ (d.peerNoted l pay).fld F.PRT_PEER_LANE l = msgField pay 8 2 % 1024 ∧ (d.peerNoted l pay).fld F.PRT_PEER_VERSION l = msgField pay 10 1
    ∧ (d.peerNoted l pay).fld F.PRT_PEER_LEVEL l = min (d.fld F.GLB_LINK_CTL_LEVEL_CAP 0) (msgField pay 11 1)
    ∧ (d.peerNoted l pay).fld F.PRT_PEER_YEFEDRA l = msgField pay 16 1 / 2 % 2 := by
  have hca := msgField_lt pay 4 4 (by decide) (by decide)
  have hversion := msgField_lt pay 10 1 (by decide) (by decide)
  have hcap : d.fld F.GLB_LINK_CTL_LEVEL_CAP 0 < 2 ^ 2 := bitsOf_lt _ _ _
  unfold Dev.peerNoted
  simp (disch := decide) only [Dev.fld_setFld_of_disjoint, Dev.fld_setFld_self]
  simp only [F.PRT_PEER_CA, F.PRT_PEER_LANE, F.PRT_PEER_VERSION, F.PRT_PEER_LEVEL, F.PRT_PEER_YEFEDRA]
  omega

theorem Dev.Alters.peerNoted (d : Dev) (l : Nat) (pay : BitVec 352) :
    Dev.Alters noNet (fun r i => r = .PRT_PEER ∧ i = l) d (d.peerNoted l pay) := by
  have hset : ∀ (d : Dev) (g : Fld) (v : Nat), g.rf = .PRT_PEER → Dev.Alters noNet (fun r i => r = .PRT_PEER ∧ i = l) d (d.setFld g l v) :=
    fun d g v hg => .setFld d v ⟨hg, rfl⟩ (by rw [hg]; decide) (by rw [hg]; decide)
  exact (((((hset d _ _ rfl).trans (hset _ _ _ rfl)).trans (hset _ _ _ rfl)).trans (hset _ _ _ rfl)).trans (hset _ _ _ rfl)).trans (hset _ _ _ rfl)

theorem Dev.Alters.fencedWith (d : Dev) (l : Nat) : Dev.Alters noNet (laneRegs l) d (d.fencedWith l) := by
  unfold Dev.fencedWith
  split
  · exact (Dev.Alters.setStat d l F.PRT_LINK_STAT_FENCED rfl 1).trans (.modLane _ l _)
  · exact .refl d

theorem Dev.Alters.rollEnded (d : Dev) (l : Nat) (pay : BitVec 352) :
    Dev.Alters noNet (laneRegs l) (d.peerNoted l pay) (d.rollEnded l pay) :=
  ((Dev.Alters.setRecall _ l 0).trans (.setRetrain _ l 0)).trans (.fencedWith _ l)

theorem Dev.Alters.judged (d : Dev) (l : Nat) : Dev.Alters noNet (laneRegs l) d (d.judged l) := by
  unfold Dev.judged
  split
  · exact .setStat d l F.PRT_LINK_STAT_CAUSE rfl 8
  · exact .refl d

/-- What roll call's end leaves of the lane: its messages and the type it had; and it makes no lift due. -/
theorem Dev.lane_rollEnded (d : Dev) (l : Nat) (pay : BitVec 352) : ((d.rollEnded l pay).lane l).linkRx = (d.lane l).linkRx
    ∧ (d.rollEnded l pay).ltype l = d.ltype l ∧ ((d.lane l).liftDue = false → ((d.rollEnded l pay).lane l).liftDue = false) := by
  set e := ((d.peerNoted l pay).setFld F.PRT_LINK_CTL_RECALL l 0).setFld F.WNG_LANE_CTL_RETRAIN (wngLane l) 0
  have htype : e.fld F.PRT_LINK_CTL_TYPE l = d.fld F.PRT_LINK_CTL_TYPE l :=
    (Dev.fld_setFld_of_rf _ _ _ _ (by decide)).trans ((Dev.fld_setFld_of_disjoint _ _ _ _ _ (by decide) (by decide) (by decide)).trans
      ((Dev.Alters.peerNoted d l pay).fld rfl (fun e => nomatch e.1)))
  show ((e.fencedWith l).lane l).linkRx = _ ∧ (e.fencedWith l).ltype l = _ ∧ (_ → ((e.fencedWith l).lane l).liftDue = false)
  unfold Dev.fencedWith
  split
  · refine ⟨by rw [Dev.lane_modLane, if_pos rfl]; rfl, ?_, fun _ => by rw [Dev.lane_modLane, if_pos rfl]⟩
    unfold Dev.ltype
    rw [Dev.lane_modLane, if_pos rfl, Dev.fld_modLane, Dev.fld_setFld_of_rf _ _ _ _ (by decide), htype]
    rfl
  · refine ⟨rfl, ?_, fun h => h⟩
    unfold Dev.ltype
    rw [htype]
    rfl

end

/-! ## A ROLL_CALL that has come (R257) -/

section
variable (d : Dev) (l : Nat) (pay : BitVec 352) (rest : List LinkMsg)

/-- The message is taken, and its sender noted. -/
def Dev.rollHeard : Dev := (d.setLane l { d.lane l with linkRx := rest }).modLane l
  (fun x => { x with peerSeen := true, lastCa := BitVec.ofNat 32 (msgField pay 4 4) })

/-- Its PLAN_GEN is compared with the device's: PLAN_SKEW is raised once. -/
def Dev.skewNoted : Dev :=
  if msgField pay 12 4 ≠ d.fld F.GLB_LINK_CTL_PLAN_GEN 0 ∧ !(d.lane l).skewRaised then
    (d.notice N.PLAN_SKEW Src.core 0 (msgField pay 12 4 * 2 ^ 32 + d.fld F.GLB_LINK_CTL_PLAN_GEN 0)).modLane l
      (fun x => { x with skewRaised := true })
  else d

/-- The message is taken and noted. -/
def Dev.rollTaken : Dev := (d.rollHeard l pay rest).skewNoted l pay

variable {d l pay rest} {may : RF → Nat → Prop}

theorem Dev.lane_rollHeard : (d.rollHeard l pay rest).lane l = { d.lane l with
    linkRx := rest, peerSeen := true, lastCa := BitVec.ofNat 32 (msgField pay 4 4) } := by
  unfold Dev.rollHeard
  rw [Dev.lane_modLane, if_pos rfl, Dev.lane_setLane, if_pos rfl]

theorem Dev.Alters.rollTaken (d : Dev) (l : Nat) (pay : BitVec 352) (rest : List LinkMsg) :
    Dev.Alters noNet may d (d.rollTaken l pay rest) := by
  have hheard : Dev.Alters noNet may d (d.rollHeard l pay rest) := .net d _
  refine hheard.trans ?_
  unfold Dev.rollTaken Dev.skewNoted
  split
  · exact Dev.Alters.trans (.notice _ _ _ _ _) (.modLane _ l _)
  · exact .refl _

/-- The lane after it: the rest of its messages, and what roll call does not touch. -/
theorem Dev.lane_rollTaken (d : Dev) (l : Nat) (pay : BitVec 352) (rest : List LinkMsg) : ((d.rollTaken l pay rest).lane l).linkRx = rest
    ∧ ((d.rollTaken l pay rest).lane l).wasType = (d.lane l).wasType ∧ ((d.rollTaken l pay rest).lane l).liftDue = (d.lane l).liftDue := by
  unfold Dev.rollTaken Dev.skewNoted
  split
  · rw [Dev.lane_modLane, if_pos rfl, Dev.lane_congr (congrArg Net.lanes ((Dev.Logs.refl _).notice _ _ _ _).net), Dev.lane_rollHeard]
    exact ⟨rfl, rfl, rfl⟩
  · rw [Dev.lane_rollHeard]
    exact ⟨rfl, rfl, rfl⟩

theorem Dev.fld_rollTaken (d : Dev) (l : Nat) (pay : BitVec 352) (rest : List LinkMsg) {g : Fld} (hg : g.rf.logging = false) (i : Nat) :
    (d.rollTaken l pay rest).fld g i = d.fld g i :=
  (Dev.Alters.rollTaken (may := fun _ _ => False) d l pay rest).fld hg not_false

theorem Dev.ltype_rollTaken (d : Dev) (l : Nat) (pay : BitVec 352) (rest : List LinkMsg) : (d.rollTaken l pay rest).ltype l = d.ltype l := by
  obtain ⟨-, hwas, -⟩ := d.lane_rollTaken l pay rest
  unfold Dev.ltype
  rw [hwas, Dev.fld_rollTaken _ _ _ _ rfl]

end

section
variable {s : State} {lane : Nat} {pay : BitVec 352} {rest : List LinkMsg} (hlane : lane < s.d.nLanes) (hruns : s.d.linkRuns lane = true)
  (hfirst : (s.d.lane lane).linkRx = ⟨false, pay⟩ :: rest)
include hlane hruns hfirst

theorem exec_rollCall : exec (.rollCall lane) s = .next { s with
    d := if s.d.lstate lane = 2 then
        if msgField pay 16 1 % 2 = 1 ∧ msgField pay 20 4 = s.d.ownCa then (s.d.rollTaken lane pay rest).completeRollCall lane ⟨false, pay⟩
        else s.d.rollTaken lane pay rest
      else (s.d.rollTaken lane pay rest).modLane lane (fun x => { x with rollDue := true }) } := by
  have hruns' : (s.d.setLane lane { s.d.lane lane with linkRx := rest }).linkRuns lane = true := by
    have htype : (s.d.setLane lane { s.d.lane lane with linkRx := rest }).ltype lane = s.d.ltype lane := by simp [Dev.ltype]
    have hstate : (s.d.setLane lane { s.d.lane lane with linkRx := rest }).lstate lane = s.d.lstate lane := Dev.fld_setLane _ _ _ _ _
    unfold Dev.linkRuns
    rw [htype, hstate]
    exact hruns
  have hstate : (s.d.rollTaken lane pay rest).lstate lane = s.d.lstate lane := s.d.fld_rollTaken lane pay rest rfl lane
  have hown : (s.d.rollTaken lane pay rest).ownCa = s.d.ownCa := s.d.fld_rollTaken lane pay rest rfl 0
  rw [← hstate, ← hown]
  show execRollCall lane s = _
  rw [execRollCall, decide_eq_true hlane, ifUnit_true, onDev_eq, Dev.takeMsg_first hfirst]
  dsimp only
  rw [hruns']
  rfl

/-- A lane past roll call answers with its own ROLL_CALL, and reports a skewed plan once. -/
theorem rollCall_answered (hstate : s.d.lstate lane ≠ 2) : Completes (.rollCall lane) s (fun t => (t.d.lane lane).rollDue = true
    ∧ (t.d.lane lane).linkRx = rest ∧ Only noNet s t (fun _ _ => False)
    ∧ (msgField pay 12 4 ≠ s.d.fld F.GLB_LINK_CTL_PLAN_GEN 0 → (s.d.lane lane).skewRaised = false → Heard s →
        Raises s t 0x74 1 0 (msgField pay 12 4 * 2 ^ 32 + s.d.fld F.GLB_LINK_CTL_PLAN_GEN 0))) := by
  have hexec := exec_rollCall hlane hruns hfirst
  rw [if_neg hstate] at hexec
  obtain ⟨hrest, -, -⟩ := s.d.lane_rollTaken lane pay rest
  have hmod := Dev.lane_modLane (s.d.rollTaken lane pay rest) lane (fun x => { x with rollDue := true }) lane
  rw [if_pos rfl] at hmod
  have hframe : Dev.Alters noNet (fun _ _ => False) s.d ((s.d.rollTaken lane pay rest).modLane lane (fun x => { x with rollDue := true })) :=
    (Dev.Alters.rollTaken s.d lane pay rest).trans (.modLane _ lane _)
  refine ⟨_, hexec, congrArg Lane.rollDue hmod, (congrArg Lane.linkRx hmod).trans hrest,
    hframe.only ⟨rfl, rfl⟩, fun hskew hraised hheard => ?_⟩
  have hgen : (s.d.rollHeard lane pay rest).fld F.GLB_LINK_CTL_PLAN_GEN 0 = s.d.fld F.GLB_LINK_CTL_PLAN_GEN 0 := Dev.fld_of_regs rfl rfl _ _
  have htaken : s.d.rollTaken lane pay rest = ((s.d.rollHeard lane pay rest).notice N.PLAN_SKEW Src.core 0
      (msgField pay 12 4 * 2 ^ 32 + s.d.fld F.GLB_LINK_CTL_PLAN_GEN 0)).modLane lane (fun x => { x with skewRaised := true }) := by
    unfold Dev.rollTaken Dev.skewNoted
    rw [hgen, Dev.lane_rollHeard, if_pos ⟨hskew, by rw [hraised]; rfl⟩]
  refine Dev.Follows.raises (a := s.d.rollHeard lane pay rest) (.of_regs rfl rfl rfl rfl) ?_ hheard
  rw [htaken]
  exact .of_regs rfl rfl rfl rfl

end

/-! ## Roll call completes with a message (R257, R258) -/

theorem Dev.lane_judged (d : Dev) (l j : Nat) : (d.judged l).lane j = d.lane j := by
  unfold Dev.judged
  split <;> rfl

theorem castData_of_lt {l : Nat} (h : l < 1024) (ca n : Nat) : castData l ca n = l * 2 ^ 48 + ca * 2 ^ 24 + n * 2 ^ 14 := by
  unfold castData
  rw [laneData_of_lt h]

/-- PRT_PEER reads what the neighbour's ROLL_CALL gives. -/
theorem peerFrom_of_peerNoted {s t : State} {d : Dev} {lane : Nat} {pay : BitVec 352}
    (hcap : d.fld F.GLB_LINK_CTL_LEVEL_CAP 0 = s.d.fld F.GLB_LINK_CTL_LEVEL_CAP 0)
    (hpeer : t.d.rd .PRT_PEER lane = (d.peerNoted lane pay).rd .PRT_PEER lane) : PeerFrom s t lane pay := by
  have hfld : ∀ g : Fld, g.rf = .PRT_PEER → t.d.fld g lane = (d.peerNoted lane pay).fld g lane := fun g hg => by
    unfold Dev.fld
    rw [hg, hpeer]
  obtain ⟨hca, hpeerLane, hversion, hlevel, hyefedra⟩ := d.fld_peerNoted lane pay
  exact ⟨(hfld _ rfl).trans hca, (hfld _ rfl).trans hpeerLane, (hfld _ rfl).trans hversion, (hfld _ rfl).trans (hcap ▸ hlevel),
    (hfld _ rfl).trans hyefedra⟩

section
variable {s : State} {lane : Nat} {pay : BitVec 352} {rest : List LinkMsg} (h : RollCallDue s lane pay rest)

/-- The device once a message has ended a lane's roll call, before the check. -/
def Dev.rollDone (d : Dev) (l : Nat) (pay : BitVec 352) (rest : List LinkMsg) : Dev := (d.rollTaken l pay rest).rollEnded l pay

theorem Dev.Alters.rollDone (d : Dev) (l : Nat) (pay : BitVec 352) (rest : List LinkMsg) :
    Dev.Alters noNet (fun r i => laneRegs l r i ∨ r = .PRT_PEER ∧ i = l) d ((d.rollDone l pay rest).judged l) :=
  ((Dev.Alters.rollTaken d l pay rest).trans ((Dev.Alters.peerNoted _ l pay).mono fun _ _ => .inr)).trans
    (((Dev.Alters.rollEnded _ l pay).trans (.judged _ l)).mono fun _ _ => .inl)

theorem Dev.fld_peer_rollDone (d : Dev) (l : Nat) (pay : BitVec 352) (rest : List LinkMsg) {g : Fld} (hg : g.rf = .PRT_PEER) :
    (d.rollDone l pay rest).fld g l = ((d.rollTaken l pay rest).peerNoted l pay).fld g l :=
  (Dev.Alters.rollEnded _ l pay).fld (by rw [hg]; rfl) (by rw [hg]; simp [laneRegs, RF.busy])

theorem Dev.fld_seat_rollDone (d : Dev) (l : Nat) (pay : BitVec 352) (rest : List LinkMsg) {g : Fld} (hg : g.rf = .PRT_SEAT) :
    (d.rollDone l pay rest).fld g l = d.fld g l :=
  ((Dev.Alters.rollEnded _ l pay).fld (by rw [hg]; rfl) (by rw [hg]; simp [laneRegs, RF.busy])).trans
    (((Dev.Alters.peerNoted _ l pay).fld (by rw [hg]; rfl) (by rw [hg]; simp)).trans (d.fld_rollTaken l pay rest (by rw [hg]; rfl) l))

include h

theorem exec_rollCall_due : exec (.rollCall lane) s = .next { s with
    d := ((s.d.rollDone lane pay rest).judged lane).enterChecked lane ((s.d.rollDone lane pay rest).planCheck lane).1 } := by
  obtain ⟨hlane, hstate⟩ := h.state
  have hruns : s.d.linkRuns lane = true := by simp [Dev.linkRuns, h.reference, h.native, hstate]
  have hexec := exec_rollCall hlane hruns h.first
  rwa [if_pos hstate, if_pos h.seen, Dev.completeRollCall_eq] at hexec

/-- A notice of the check names the lane, and the neighbour as its ROLL_CALL gave it (R258). -/
theorem raises_of_entered {t : State} {st ty : Nat} (ht : t.d = (((s.d.rollDone lane pay rest).judged lane).entered lane st).notice ty
      Src.core 0 (castData lane (((s.d.rollDone lane pay rest).judged lane).fld F.PRT_PEER_CA lane)
        (((s.d.rollDone lane pay rest).judged lane).fld F.PRT_PEER_LANE lane))) (hheard : Heard s) :
    Raises s t ty 1 0 (lane * 2 ^ 48 + msgField pay 4 4 / 256 * 2 ^ 24 + msgField pay 8 2 % 1024 * 2 ^ 14) := by
  have hpeer : ∀ g : Fld, g.rf = .PRT_PEER → ((s.d.rollDone lane pay rest).judged lane).fld g lane
      = ((s.d.rollTaken lane pay rest).peerNoted lane pay).fld g lane := fun g hg =>
    ((Dev.Alters.judged _ lane).fld (by rw [hg]; rfl) (by rw [hg]; simp [laneRegs, RF.busy])).trans (s.d.fld_peer_rollDone lane pay rest hg)
  obtain ⟨hca, hpeerLane, -, -, -⟩ := (s.d.rollTaken lane pay rest).fld_peerNoted lane pay
  rw [hpeer _ rfl, hpeer _ rfl, hca, hpeerLane, castData_of_lt (h.state.1.trans_le s.d.nLanes_le)] at ht
  exact ((Dev.Alters.rollDone s.d lane pay rest).follows.trans (Dev.Alters.entered _ lane st).follows).raises (ht ▸ .refl _) hheard

/-- Roll call completes: the neighbour is known, and the lane stands as the check of R258 says. -/
theorem rollCall_completes : Completes (.rollCall lane) s (fun t => PeerFrom s t lane pay ∧ (t.d.lane lane).linkRx = rest
    ∧ 3 ≤ t.d.lstate lane ∧ t.d.lstate lane ≤ 5
    ∧ ((s.d.lane lane).liftDue = false → Only noNet s t (fun r i => laneRegs lane r i ∨ r = .PRT_PEER ∧ i = lane))
    ∧ (msgField pay 10 1 ≠ 1 → t.d.lstate lane = 4 ∧ t.d.fld F.PRT_LINK_STAT_CAUSE lane = 8
        ∧ (Heard s → Raises s t 0x71 1 0 (lane * 2 ^ 48 + msgField pay 4 4 / 256 * 2 ^ 24 + msgField pay 8 2 % 1024 * 2 ^ 14)))
    ∧ (msgField pay 10 1 = 1 → s.d.fld F.PRT_SEAT_EXPECT lane = 0 → t.d.lstate lane = 5
        ∧ (Heard s → Raises s t 0x72 1 0 (lane * 2 ^ 48 + msgField pay 4 4 / 256 * 2 ^ 24 + msgField pay 8 2 % 1024 * 2 ^ 14)))
    ∧ (msgField pay 10 1 = 1 → s.d.fld F.PRT_SEAT_EXPECT lane = 1 → s.d.ltype lane = 1 → msgField pay 16 1 / 2 % 2 = 1 →
        s.d.fld F.PRT_SEAT_CA lane = msgField pay 4 4 / 256 → s.d.fld F.PRT_SEAT_PEER_LANE lane = msgField pay 8 2 % 1024 →
        t.d.lstate lane = 3)) := by
  set e := s.d.rollDone lane pay rest
  obtain ⟨hlow, hhigh⟩ := e.planCheck_bounds lane
  obtain ⟨hrest, -, hlift⟩ := s.d.lane_rollTaken lane pay rest
  obtain ⟨hlinks, htype, hnolift⟩ := (s.d.rollTaken lane pay rest).lane_rollEnded lane pay
  obtain ⟨hca, hpeerLane, hversion, -, hyefedra⟩ := (s.d.rollTaken lane pay rest).fld_peerNoted lane pay
  have hpeer : ∀ {g : Fld}, g.rf = .PRT_PEER → e.fld g lane = ((s.d.rollTaken lane pay rest).peerNoted lane pay).fld g lane :=
    s.d.fld_peer_rollDone lane pay rest
  have hseat : ∀ {g : Fld}, g.rf = .PRT_SEAT → e.fld g lane = s.d.fld g lane := s.d.fld_seat_rollDone lane pay rest
  have hseated := (e.judged lane).seated_enterChecked lane (st := (e.planCheck lane).1) (by omega)
  simp only [Dev.seated, Prod.mk.injEq] at hseated
  obtain ⟨hstate, hcause, hword, hmsgs⟩ := hseated
  refine ⟨_, exec_rollCall_due h, peerFrom_of_peerNoted (s.d.fld_rollTaken lane pay rest rfl 0) (hword.trans ?_), hmsgs.trans ?_,
    hlow.trans_eq hstate.symm, hstate.trans_le hhigh, fun hdue => ?_, fun hv => ?_, fun hv hex => ?_, fun hv hex ht hy hc hl => hstate.trans ?_⟩
  · exact ((Dev.Alters.rollEnded _ lane pay).trans (.judged _ lane)).regs _ _ rfl (by simp [laneRegs, RF.busy])
  · exact (congrArg Lane.linkRx (e.lane_judged lane lane)).trans (hlinks.trans hrest)
  · have hoff : ((e.judged lane).lane lane).liftDue = false :=
      (congrArg Lane.liftDue (e.lane_judged lane lane)).trans (hnolift (hlift.trans hdue))
    exact ((Dev.Alters.rollDone s.d lane pay rest).trans ((Dev.Alters.enterChecked hoff _).mono fun _ _ => .inl)).only ⟨rfl, rfl⟩
  · have hcheck := e.planCheck_version (l := lane) (by rw [hpeer rfl, hversion]; exact hv)
    have hset : e.judged lane = e.setFld F.PRT_LINK_STAT_CAUSE lane 8 := by unfold Dev.judged; rw [hcheck]; rfl
    refine ⟨hstate.trans (congrArg Prod.fst hcheck), hcause.trans ?_, raises_of_entered h (st := 4) ?_⟩
    · rw [hset]
      exact Dev.fld_setFld_self _ _ _ _ (by decide) (by decide)
    · show Dev.enterChecked _ _ _ = _
      rw [hcheck]
      exact (Dev.enterChecked_eq _ _ _).trans (if_pos rfl)
  · have hcheck := e.planCheck_unplanned (l := lane) ((hpeer rfl).trans (hversion.trans hv)) ((hseat rfl).trans hex)
    refine ⟨hstate.trans (congrArg Prod.fst hcheck), raises_of_entered h (st := 5) ?_⟩
    show Dev.enterChecked _ _ _ = _
    rw [hcheck]
    exact (Dev.enterChecked_eq _ _ _).trans ((if_neg (by decide)).trans (if_pos rfl))
  · refine congrArg Prod.fst (e.planCheck_planned (l := lane) ((hpeer rfl).trans (hversion.trans hv)) ((hseat rfl).trans hex) ?_
      ((hpeer rfl).trans (hyefedra.trans hy)) ?_ ?_)
    · exact htype.trans ((s.d.ltype_rollTaken lane pay rest).trans ht)
    · rw [hseat rfl, hpeer rfl, hca]
      exact hc
    · rw [hseat rfl, hpeer rfl, hpeerLane]
      exact hl

end

/-! ## A neighbour that stays away (R260) -/

theorem absentTimeout_completes {s : State} {lane : Nat} (h : lane < s.d.nLanes) (hrun : (s.d.lane lane).absentRun = true)
    (hex : s.d.fld F.PRT_SEAT_EXPECT lane ≠ 0) : Completes (.absentTimeout lane) s (fun t => t.d.fld F.PRT_LINK_STAT_CAUSE lane = 7
      ∧ (t.d.lane lane).absentRun = false ∧ Only noNet s t (fun r i => r = .PRT_LINK_STAT ∧ i = lane)
      ∧ (Heard s → Raises s t 0x73 1 0
          (lane * 2 ^ 48 + s.d.fld F.PRT_SEAT_CA lane * 2 ^ 24 + s.d.fld F.PRT_SEAT_PEER_LANE lane * 2 ^ 14))) := by
  set d1 := (s.d.setFld F.PRT_LINK_STAT_CAUSE lane 7).modLane lane (fun x => { x with absentRun := false })
  set data := lane * 2 ^ 48 + s.d.fld F.PRT_SEAT_CA lane * 2 ^ 24 + s.d.fld F.PRT_SEAT_PEER_LANE lane * 2 ^ 14
  have hseat : ∀ g : Fld, g.rf = .PRT_SEAT → d1.fld g lane = s.d.fld g lane := fun g hg =>
    (Dev.fld_modLane _ _ _ _ _).trans (Dev.fld_setFld_of_rf _ _ _ _ (by rw [hg]; decide))
  have hexec : exec (.absentTimeout lane) s = .next { s with d := d1.notice N.NEIGHBOUR_MISSING Src.core 0 data } := by
    show execAbsentTimeout lane s = _
    rw [execAbsentTimeout, decide_eq_true h, ifUnit_true, onDev_eq, hrun, show (s.d.fld F.PRT_SEAT_EXPECT lane != 0) = true by simpa using hex]
    show Host.Outcome.next { s with d := d1.notice N.NEIGHBOUR_MISSING Src.core 0 (castData lane (d1.fld F.PRT_SEAT_CA lane)
      (d1.fld F.PRT_SEAT_PEER_LANE lane)) } = _
    rw [castData_of_lt (h.trans_le s.d.nLanes_le), hseat _ rfl, hseat _ rfl]
  have hmissed : Dev.Alters noNet (fun r i => r = .PRT_LINK_STAT ∧ i = lane) s.d d1 :=
    Dev.Alters.trans (.setFld s.d 7 ⟨rfl, rfl⟩ (by decide) (by decide)) (.modLane _ lane _)
  refine ⟨_, hexec, ?_, ?_, (hmissed.trans (.notice _ _ _ _ _)).only ⟨rfl, rfl⟩, hmissed.follows.raises (.refl _)⟩
  · exact (Dev.fld_notice _ _ _ _ _ rfl _).trans
      ((Dev.fld_modLane _ _ _ _ _).trans (Dev.fld_setFld_self _ _ _ _ (by decide) (by decide)))
  · have hlane : (d1.notice N.NEIGHBOUR_MISSING Src.core 0 data).lane lane = d1.lane lane :=
      Dev.lane_congr (congrArg Net.lanes ((Dev.Logs.refl d1).notice _ _ _ _).net) lane
    exact (congrArg Lane.absentRun hlane).trans (congrArg Lane.absentRun ((Dev.lane_modLane _ _ _ _).trans (if_pos rfl)))

end Sys2Proof.Machine

namespace Sys2Proof.Claims
open Sys2Proof.Machine

/-- Settles O38: a lane's exit from UP is its registers and a notice, and what follows is of the packet path, which leaves both; roll call's
end is PRT_PEER and the check of R258 on it. -/
theorem laneStates : Obligations.LaneStates := by
  intro s lane hcalm
  refine ⟨fun h => ⟨trainingDone_waits h, trainingDone_completes h, trainTimeout_completes h⟩,
    fun h => ⟨rollCallSend_completes h, rollCallTimeout_completes h⟩, fun _ _ h => rollCall_completes h,
    fun _ _ h hruns hstate hfirst => rollCall_answered h hruns hfirst hstate, absentTimeout_completes,
    fun h => ⟨failedRetry_trains h, failedRetry_off h, failedRetry_waits h⟩,
    fun h hlow hhigh htype => ⟨heartbeatSend_completes h hlow hhigh htype, fun _ _ => heartbeat_counts h hlow hhigh htype⟩,
    fun h htype => ⟨hbLapse_fails h, hbLapse_holds h, fun hdrain => losDetect_fails h (by decide) (Dev.los_of_silent htype hdrain),
      fun _ hdrain hwithin => losDetect_fails h (by decide) (Dev.los_of_draining htype hdrain hwithin),
      fun _ hdrain hpast => losDetect_fails h (by decide) (Dev.los_of_drained htype hdrain hpast), lockLoss_fails h htype⟩,
    borderBlockLockChange_gained, fun h => borderBlockLockChange_up h hcalm,
    fun h htype hup => ⟨borderBlockLockChange_lost h htype hup, losDetect_border h htype hup, lockLoss_border h htype hup⟩⟩

end Sys2Proof.Claims
end

section
/-! What the operations of the time unit leave alone (R266 to R271): the running minute that closes, changes of SYNC, and steps. -/

namespace Sys2Proof.Machine
open Sys2Proof.Claims

/-- A notice leaves every counter. -/
theorem Dev.fld_notice_count (d : Dev) (ty src prod data i : Nat) :
    (d.notice ty src prod data).fld F.CNT_VAL_VALUE i = d.fld F.CNT_VAL_VALUE i := by
  have hlog : ∀ bits, (d.logNotice bits none).rd .CNT_VAL i = d.rd .CNT_VAL i := fun bits => by
    rw [Dev.logNotice_eq]
    show (d.nlogWritten bits none).rd .CNT_VAL i = _
    unfold Dev.nlogWritten
    iterate 5 rw [Dev.rd_setFld_of_rf _ _ _ _ (by decide)]
  refine congrArg (bitsOf · _ _) ?_
  unfold Dev.notice Dev.noticeSev
  split
  · rfl
  · exact hlog _

/-! ## A device that comes after another -/

/-- `d'` comes after `d`: of what stands beside the registers only what `f` hides has changed, of the registers only counters, the
notice log and those that `may` names; the relay has only grown, and the counters of the time unit stand. -/
structure Dev.Moves (f : Dev → Dev) (may : RF → Nat → Prop) (d d' : Dev) : Prop where
  still : f d'.still = f d.still
  regs : ∀ r i, r.logging = false → ¬ may r i → d'.rd r i = d.rd r i
  relay : d.relay <+: d'.relay
  counts : ∀ c < 64, d'.fld F.CNT_VAL_VALUE (cntIdx 4 c) = d.fld F.CNT_VAL_VALUE (cntIdx 4 c)

namespace Dev.Moves
variable {f g : Dev → Dev} {may may' : RF → Nat → Prop} {a b c d : Dev}

theorem refl (d : Dev) : Dev.Moves f may d d := ⟨rfl, fun _ _ _ _ => rfl, List.prefix_refl _, fun _ _ => rfl⟩

theorem trans (h : Dev.Moves f may a b) (k : Dev.Moves f may b c) : Dev.Moves f may a c where
  still := k.still.trans h.still
  regs := fun r i hl hm => (k.regs r i hl hm).trans (h.regs r i hl hm)
  relay := h.relay.trans k.relay
  counts := fun c hc => (k.counts c hc).trans (h.counts c hc)

theorem mono (h : Dev.Moves f may a b) (hm : ∀ r i, may r i → may' r i) : Dev.Moves f may' a b :=
  { h with regs := fun r i hl hr => h.regs r i hl fun e => hr (hm r i e) }

/-- What hides more shows less. -/
theorem hide (h : Dev.Moves f may a b) (hg : ∀ d, g (f d) = g d) : Dev.Moves g may a b :=
  { h with still := by rw [← hg b.still, h.still, hg] }

theorem fld (h : Dev.Moves f may a b) (x : Fld) (i : Nat) (hl : x.rf.logging = false) (hm : ¬ may x.rf i) : b.fld x i = a.fld x i :=
  congrArg (bitsOf · _ _) (h.regs _ _ hl hm)

theorem only {s t : State} (h : Dev.Moves f may s.d t.d) (hr : Rest s t) : Only f s t may := ⟨hr, h.still, h.regs⟩

/-- The same after counting and logging. -/
theorem only_of_logs {s t : State} (hl : s.d.Logs a) (h : Dev.Moves f may a t.d) (hr : Rest s t) : Only f s t may := by
  have hstill : a.still = s.d.still := by have e := congrArg Dev.still hl.still; exact e
  exact ⟨hr, h.still.trans (congrArg f hstill), fun r i hlog hm => (h.regs r i hlog hm).trans (hl.regs r i hlog)⟩

theorem each {α : Type} {l : List α} {step : Dev → α → Dev} (h : Dev.Moves f may a d)
    (hs : ∀ d, ∀ x ∈ l, Dev.Moves f may d (step d x)) : Dev.Moves f may a (d.each l step) :=
  Dev.each_induct (R := fun d => Dev.Moves f may a d) (fun d x hx hd => hd.trans (hs d x hx)) h

/-! ### Single changes -/

/-- A change of nothing that a register, a notice or a counter shows. -/
theorem of_regs (hs : f b.still = f a.still) (hg : b.regs = a.regs) (hf : b.fuse = a.fuse) (hr : b.relay = a.relay) :
    Dev.Moves f may a b :=
  ⟨hs, fun _ _ _ _ => Dev.rd_of_regs hg hf _ _, hr ▸ List.prefix_refl _, fun _ _ => Dev.fld_of_regs hg hf _ _⟩

theorem wr (d : Dev) {r : RF} {i : Nat} (hm : may r i) (hr : r ≠ .CNT_VAL) (w : Word) : Dev.Moves f may d (d.wr r i w) where
  still := rfl
  regs := fun _ _ _ hn => Dev.rd_wr_of_ne _ _ _ _ _ _ fun e => hn (by rwa [e.1, e.2])
  relay := List.prefix_refl _
  counts := fun _ _ => congrArg (bitsOf · _ _) (Dev.rd_wr_of_ne _ _ _ _ _ _ fun e => hr e.1.symm)

theorem setFld (d : Dev) {x : Fld} {i : Nat} (hm : may x.rf i) (hr : x.rf ≠ .CNT_VAL) (v : Nat) : Dev.Moves f may d (d.setFld x i v) :=
  .wr d hm hr _

theorem notice (d : Dev) (ty src prod data : Nat) : Dev.Moves f may d (d.notice ty src prod data) where
  still := (Dev.Alters.notice (f := f) (may := may) d ty src prod data).still
  regs := (Dev.Alters.notice (f := f) (may := may) d ty src prod data).regs
  relay := (Dev.Follows.notice d ty src prod data).relay
  counts := fun _ _ => d.fld_notice_count ty src prod data _

theorem emitOut (d : Dev) (o : Out) : Dev.Moves f may d (d.emitOut o) := of_regs rfl rfl rfl rfl

theorem freeNat (d : Dev) : Dev.Moves f may d d.freeNat.2 := of_regs rfl rfl rfl rfl

/-- Another unit counts. -/
theorem count (d : Dev) {inst idx : Nat} (hi : inst ≠ 4) (hx : idx < 64) (n : Nat) : Dev.Moves f may d (d.count inst idx n) where
  still := by
    have e := congrArg (fun d : Dev => f d.still) ((Dev.Logs.refl d).count inst idx n).still
    exact e
  regs := fun r i hl _ => ((Dev.Logs.refl d).count inst idx n).regs r i hl
  relay := (d.relay_count inst idx n).symm ▸ List.prefix_refl _
  counts := fun _ hc => d.fld_count_of_inst_ne hi hc hx n

end Dev.Moves

end Sys2Proof.Machine
end

section
/-! The running minute that closes, T, and changes of SYNC (R266 to R271, R307). -/

namespace Sys2Proof.Machine
open Sys2Proof.Claims

/-! ## Notices on the way -/

/-- A notice raised on the way from `s` to `t` is one that the step has raised, where T is at the end what it was then. -/
theorem Dev.Moves.raises {f g : Dev → Dev} {may may' : RF → Nat → Prop} {s t : State} {a : Dev} {ty src prod data : Nat}
    (h : Dev.Moves f may s.d a) (hm : ¬ may .SEC_STATE 0) (ht : Dev.Moves g may' (a.notice ty src prod data) t.d)
    (htime : t.d.timeNs = a.timeNs) (hs : Heard s) : Raises s t ty src prod data := by
  have ha : a.fld F.SEC_STATE_SECURITY 0 ≠ 2 := by rwa [h.fld _ 0 rfl hm]
  obtain ⟨x, hx, hrem, hbits⟩ := a.logNotice_relay (noticeBits ty (N.severity ty) src prod data a.timeNs) none
  obtain ⟨before, hb⟩ := h.relay
  obtain ⟨after, haf⟩ := ht.relay
  rw [Dev.notice_heard ha, hx, ← hb] at haf
  exact ⟨before ++ [x] ++ after, by simp [← haf], x, by simp, hrem, by rw [hbits, htime]⟩

/-! ## T (R267) -/

/-- T is fixed by FRC, the last step or change of RATE, and RATE. -/
theorem Dev.timeFull_congr {d d' : Dev} (hf : d'.tmu.frc = d.tmu.frc) (hb : d'.tmu.base = d.tmu.base) (hs : d'.tmu.baseFrc = d.tmu.baseFrc)
    (hr : d'.rd .TMU_RATE 0 = d.rd .TMU_RATE 0) : d'.timeFull = d.timeFull := by
  have hrate : d'.fld F.TMU_RATE_RATE 0 = d.fld F.TMU_RATE_RATE 0 := congrArg (bitsOf · _ _) hr
  unfold Dev.timeFull
  rw [hf, hb, hs, hrate]

theorem Dev.timeFull_of_tmu {d d' : Dev} (h : d'.tmu = d.tmu) (hr : d'.rd .TMU_RATE 0 = d.rd .TMU_RATE 0) : d'.timeFull = d.timeFull :=
  Dev.timeFull_congr (by rw [h]) (by rw [h]) (by rw [h]) hr

/-- Where T has just been fixed, it is what it was fixed to, modulo its width. -/
theorem Dev.timeFull_of_base {d : Dev} (h : d.tmu.baseFrc = d.tmu.frc) : d.timeFull = d.tmu.base % 2 ^ 112 := by
  have hadv : (d.tmu.frc + 2 ^ 64 - d.tmu.baseFrc % 2 ^ 64) % 2 ^ 64 = 0 := by rw [h]; omega
  unfold Dev.timeFull wrapTo
  dsimp only
  rw [hadv]
  simp only [Nat.cast_zero, Int.zero_mul, Int.add_zero, Int.zero_ediv]
  omega

theorem wrapTo_lt (w : Nat) (x : Int) : wrapTo w x < 2 ^ w := by
  have h := Int.emod_lt_of_pos x (show (0 : Int) < 2 ^ w by positivity)
  have h0 := Int.emod_nonneg x (show (2 ^ w : Int) ≠ 0 by positivity)
  unfold wrapTo
  zify
  rw [Int.toNat_of_nonneg h0]
  exact_mod_cast h

theorem wrapTo_cast (w : Nat) (x : Int) : (wrapTo w x : Int) = x % 2 ^ w :=
  Int.toNat_of_nonneg (Int.emod_nonneg x (by positivity))

theorem Dev.timeFull_lt (d : Dev) : d.timeFull < 2 ^ 112 := wrapTo_lt _ _

/-! ## The minute (R307) -/

/-- The first word of the entry that closes the running minute. -/
def Dev.minuteWord (d : Dev) : Nat :=
  d.pwr.seq % 2 ^ 24 * 2 ^ 40 + 2 ^ 39 + bit d.syncedNow * 2 ^ 38 + bit d.pwr.incomplete * 2 ^ 37 + bit d.pwr.over_ * 2 ^ 36
    + bit d.pwr.inst * 2 ^ 35 + bit d.pwr.unmet * 2 ^ 34 + d.pwr.energy % 2 ^ 28

/-- The registers with two words of an entry. -/
def Dev.enterMinute (d : Dev) (n : Nat) (a b : Word) : Dev := (d.wr .PWR_LOG_A n a).wr .PWR_LOG_B n b

theorem Dev.rd_enterMinute (d : Dev) (n : Nat) (a b : Word) : (d.enterMinute n a b).rd .PWR_LOG_A n = a :=
  (Dev.rd_wr_of_ne _ _ _ _ _ _ (by rintro ⟨⟨⟩, -⟩)).trans (Dev.rd_wr_self _ _ _ _)

theorem Dev.pwr_enterMinute (d : Dev) (n : Nat) (a b : Word) : (d.enterMinute n a b).pwr = d.pwr := rfl

theorem Dev.Moves.enterMinute {f : Dev → Dev} {may : RF → Nat → Prop} (hm : ∀ r i, minuteRegs r → may r i) (d : Dev) (n : Nat)
    (a b : Word) : Dev.Moves f may d (d.enterMinute n a b) :=
  (Dev.Moves.wr d (hm _ _ (.inl rfl)) (by decide) _).trans (.wr _ (hm _ _ (.inr rfl)) (by decide) _)

/-- The registers with the entry of the running minute. -/
def Dev.minuteEntered (d : Dev) : Dev :=
  d.enterMinute (d.pwr.seq % 2 ^ 24 % 64) (BitVec.ofNat 64 d.minuteWord)
    (BitVec.ofNat 64 (d.pwr.peak % 2 ^ 16 * 2 ^ 48 + (if d.syncedNow then d.timeNs else d.frcNs) % 2 ^ 48))

/-- The running minute made new, with its SEQ. -/
def Pwr.minuteAfter (x : Pwr) (unmet : Bool) (seq : Nat) : Pwr :=
  { x with energy := 0, peak := 0, over_ := false, inst := false, incomplete := false, unmet := unmet, seq := seq }

theorem Dev.closeMinute_eq (d : Dev) : ∃ (data : Nat) (unmet : Bool), d.closeMinute =
    (d.minuteEntered.notice N.PWR_MINUTE Src.power 0 data).modPwr (fun x => x.minuteAfter unmet (d.pwr.seq % 2 ^ 24 + 1)) := ⟨_, _, rfl⟩

theorem Dev.rd_modPwr (d : Dev) (g : Pwr → Pwr) (r : RF) (i : Nat) : (d.modPwr g).rd r i = d.rd r i := Dev.rd_of_regs rfl rfl _ _

theorem Dev.pwr_closeMinute (d : Dev) : ∃ unmet, d.closeMinute.pwr = d.pwr.minuteAfter unmet (d.pwr.seq % 2 ^ 24 + 1) := by
  obtain ⟨data, unmet, hclose⟩ := d.closeMinute_eq
  have hkept : (d.minuteEntered.notice N.PWR_MINUTE Src.power 0 data).pwr = d.pwr := by
    rw [(d.minuteEntered.soft_notice N.PWR_MINUTE Src.power 0 data).pwr, Dev.minuteEntered, Dev.pwr_enterMinute]
  refine ⟨unmet, ?_⟩
  rw [hclose, Dev.modPwr, hkept]

section
variable {f : Dev → Dev} {may : RF → Nat → Prop}

theorem Dev.Moves.modPwr (hf : ∀ d x, f { d with pwr := x } = f d) (d : Dev) (g : Pwr → Pwr) : Dev.Moves f may d (d.modPwr g) :=
  .of_regs (hf d.still _) rfl rfl rfl

theorem Dev.Moves.closeMinute (hf : ∀ d x, f { d with pwr := x } = f d) (hm : ∀ r i, minuteRegs r → may r i) (d : Dev) :
    Dev.Moves f may d d.closeMinute := by
  have hentered : Dev.Moves f may d d.minuteEntered := .enterMinute hm d _ _ _
  obtain ⟨data, unmet, hclose⟩ := d.closeMinute_eq
  rw [hclose]
  exact (hentered.trans (.notice _ N.PWR_MINUTE Src.power 0 data)).trans (.modPwr hf _ _)

end

/-- A device without its time unit and its packets. -/
def noTmuNet (d : Dev) : Dev := { d with tmu := {}, net := {} }

theorem Dev.Moves.closes (d : Dev) : Dev.Moves noPwr (fun r _ => minuteRegs r) d d.closeMinute :=
  .closeMinute (fun _ _ => rfl) (fun _ _ h => h) d

/-- What `noPwr` shows of two devices alike. -/
theorem Dev.Moves.tmu_of_noPwr {may : RF → Nat → Prop} {d d' : Dev} (h : Dev.Moves noPwr may d d') : d'.tmu = d.tmu := by
  have e := congrArg Dev.tmu h.still
  exact e

theorem Dev.tmu_closeMinute (d : Dev) : d.closeMinute.tmu = d.tmu := (Dev.Moves.closes d).tmu_of_noPwr

theorem Dev.rd_closeMinute (d : Dev) {r : RF} (hl : r.logging = false) (hm : ¬ minuteRegs r) (i : Nat) : d.closeMinute.rd r i = d.rd r i :=
  (Dev.Moves.closes d).regs r i hl hm

theorem Dev.fld_closeMinute (d : Dev) {g : Fld} (hl : g.rf.logging = false) (hm : ¬ minuteRegs g.rf) (i : Nat) :
    d.closeMinute.fld g i = d.fld g i := congrArg (bitsOf · _ _) (d.rd_closeMinute hl hm i)

theorem Dev.minuteWord_lt (d : Dev) : d.minuteWord < 2 ^ 64 := by
  have hbit : ∀ b : Bool, bit b ≤ 1 := by decide
  have h1 := hbit d.syncedNow
  have h2 := hbit d.pwr.incomplete
  have h3 := hbit d.pwr.over_
  have h4 := hbit d.pwr.inst
  have h5 := hbit d.pwr.unmet
  unfold Dev.minuteWord
  omega

/-- The entry's SEQ, VALID, INCOMPLETE and ENERGY. -/
theorem Dev.minuteWord_fields (d : Dev) : bitsOf (BitVec.ofNat 64 d.minuteWord) 63 40 = d.pwr.seq % 2 ^ 24
    ∧ bitsOf (BitVec.ofNat 64 d.minuteWord) 39 39 = 1 ∧ bitsOf (BitVec.ofNat 64 d.minuteWord) 37 37 = bit d.pwr.incomplete
    ∧ bitsOf (BitVec.ofNat 64 d.minuteWord) 27 0 = d.pwr.energy % 2 ^ 28 := by
  simp only [bitsOf_ofNat d.minuteWord_lt, Nat.shiftRight_eq_div_pow]
  have hbit : ∀ b : Bool, bit b ≤ 1 := by decide
  have h1 := hbit d.syncedNow
  have h2 := hbit d.pwr.incomplete
  have h3 := hbit d.pwr.over_
  have h4 := hbit d.pwr.inst
  have h5 := hbit d.pwr.unmet
  unfold Dev.minuteWord
  refine ⟨?_, ?_, ?_, ?_⟩ <;> omega

theorem Dev.rd_closeMinute_log (d : Dev) : d.closeMinute.rd .PWR_LOG_A (d.pwr.seq % 64) = BitVec.ofNat 64 d.minuteWord := by
  have hindex : d.pwr.seq % 2 ^ 24 % 64 = d.pwr.seq % 64 := by omega
  have hentered : d.minuteEntered.rd .PWR_LOG_A (d.pwr.seq % 64) = BitVec.ofNat 64 d.minuteWord := by
    rw [← hindex]
    exact d.rd_enterMinute _ _ _
  obtain ⟨data, unmet, hclose⟩ := d.closeMinute_eq
  rw [hclose]
  exact (Dev.rd_modPwr _ _ _ _).trans (((d.minuteEntered.soft_notice _ _ _ _).regs _ _ rfl).trans hentered)

/-- The minute has its entry where what follows leaves it and the running minute. -/
theorem Dev.Moves.minuteLogged {s t : State} (h : Dev.Moves noTmuNet (fun r _ => ¬ minuteRegs r) s.d.closeMinute t.d) :
    MinuteLogged s t s.d.pwr.incomplete := by
  have hword : t.d.rd .PWR_LOG_A (s.d.pwr.seq % 64) = BitVec.ofNat 64 s.d.minuteWord :=
    (h.regs _ _ rfl (not_not_intro (.inl rfl))).trans s.d.rd_closeMinute_log
  obtain ⟨hseq, hvalid, hinc, henergy⟩ := s.d.minuteWord_fields
  have hpwr : t.d.pwr = s.d.closeMinute.pwr := by have e := congrArg Dev.pwr h.still; exact e
  obtain ⟨unmet, hnext⟩ := s.d.pwr_closeMinute
  have hfld : ∀ g : Fld, g.rf = .PWR_LOG_A → t.d.fld g (s.d.pwr.seq % 64) = bitsOf (BitVec.ofNat 64 s.d.minuteWord) g.hi g.lo := fun g hg => by
    unfold Dev.fld
    rw [hg, hword]
  exact ⟨(hfld _ rfl).trans hseq, (hfld _ rfl).trans hvalid, (hfld _ rfl).trans hinc, (hfld _ rfl).trans henergy,
    by rw [hpwr, hnext]; exact ⟨rfl, rfl⟩⟩

end Sys2Proof.Machine
end

section
/-! Changes of SYNCED, the registers of the time unit but for a step, and the servo's watchdog (R267, R268, R271). -/

namespace Sys2Proof.Machine
open Sys2Proof.Claims

/-! ## SYNCED (R271) -/

theorem syncedNow_iff {s : State} : s.d.syncedNow = true ↔ Synced s := by
  unfold Dev.syncedNow Dev.flag Synced MaySync
  simp only [Bool.and_eq_true, beq_iff_eq, bne_iff_ne]
  tauto

theorem Dev.syncedNow_of_sync {d : Dev} (h : d.fld F.TMU_CTL_SYNC 0 = 0) : d.syncedNow = false := by
  unfold Dev.syncedNow Dev.flag
  rw [h]
  rfl

section
variable {d : Dev} {f : Dev → Dev}

theorem Dev.syncEdge_same (h : (f d).syncedNow = d.syncedNow) : d.syncEdge f = f d := if_pos h

/-- SYNCED falls: the minute closes in the time that stood. -/
theorem Dev.syncEdge_falls (hd : d.syncedNow = true) (hf : ∀ x, (f x).syncedNow = false) : d.syncEdge f = f d.closeMinute := by
  have hne : ¬ (f d).syncedNow = d.syncedNow := by rw [hd, hf]; decide
  unfold Dev.syncEdge
  rw [if_neg hne]
  dsimp only
  rw [hf]
  rfl

/-- SYNCED rises: TIME_SYNC is raised, and suspended orders may resume. -/
theorem Dev.syncEdge_rises (hd : d.syncedNow = false) (hf : (f d).syncedNow = true) (hc : (f d.closeMinute).syncedNow = true) :
    d.syncEdge f = ((f d.closeMinute).notice N.TIME_SYNC Src.time 0 0).markResume := by
  have hne : ¬ (f d).syncedNow = d.syncedNow := by rw [hd, hf]; decide
  unfold Dev.syncEdge
  rw [if_neg hne]
  dsimp only
  rw [hc]
  rfl

/-- What the change leaves true, from the device as it was and with the minute closed, and what TIME_SYNC and the orders that resume
keep, holds after it. -/
theorem Dev.syncEdge_keeps {R : Dev → Prop} (h : R (f d)) (hc : R (f d.closeMinute))
    (hr : ∀ x, R x → R ((x.notice N.TIME_SYNC Src.time 0 0).markResume)) : R (d.syncEdge f) := by
  unfold Dev.syncEdge
  split
  · exact h
  · dsimp only
    split
    · exact hr _ hc
    · exact hc

end

/-! ## Ports -/

section
variable {f : Dev → Dev} {may : RF → Nat → Prop} (hf : ∀ d x, f { d with net := { d.net with ports := x } } = f d)
include hf

theorem Dev.Moves.modPort (d : Dev) (l : Nat) (g : Port → Port) : Dev.Moves f may d (d.modPort l g) := .of_regs (hf d.still _) rfl rfl rfl

theorem Dev.Moves.markResume (d : Dev) : Dev.Moves f may d d.markResume := by
  unfold Dev.markResume
  split
  · exact (Dev.Moves.refl d).each fun d l _ => .modPort hf d l _
  · exact .refl d

end

/-- A device without its ports. -/
def noPorts (d : Dev) : Dev := { d with net := { d.net with ports := [] } }

theorem Dev.Moves.rises (x : Dev) : Dev.Moves noPorts (fun _ _ => False) x ((x.notice N.TIME_SYNC Src.time 0 0).markResume) :=
  (Dev.Moves.notice x _ _ _ _).trans (.markResume (fun _ _ => rfl) _)

/-! ## TMU_CTL, where DOMAIN stays (R271) -/

theorem Dev.fld_plainWrite_ctl (d : Dev) (w : Word) {g : Fld} (hg : g ∈ RF.fields .TMU_CTL) (hr : g.rf = .TMU_CTL) :
    (d.plainWrite .TMU_CTL 0 w).fld g 0 = bitsOf w g.hi g.lo :=
  Dev.fld_plainWrite rfl (by unfold Fld.Apart; decide) (by decide) hg hr

theorem Dev.rd_plainWrite_of_ne (d : Dev) {r r' : RF} (h : r' ≠ r) (i j : Nat) (w : Word) : (d.plainWrite r i w).rd r' j = d.rd r' j :=
  Dev.rd_wr_of_ne _ _ _ _ _ _ fun e => h e.1

/-- The registers that closing the minute and TMU_CTL take. -/
def ctlRegs (r : RF) (_ : Nat) : Prop := r = .TMU_CTL ∨ minuteRegs r

theorem Dev.Moves.plainWrite {f : Dev → Dev} {may : RF → Nat → Prop} (d : Dev) {r : RF} {i : Nat} (hm : may r i)
    (hr : r ≠ .CNT_VAL) (w : Word) : Dev.Moves f may d (d.plainWrite r i w) := .wr d hm hr _

/-- A write of TMU_CTL that leaves DOMAIN. -/
def Dev.ctlKept (d : Dev) (w : Word) : Dev := d.syncEdge (fun d => d.plainWrite .TMU_CTL 0 w)

theorem Dev.Moves.ctlKept (d : Dev) (w : Word) : Dev.Moves noPwrPort ctlRegs d (d.ctlKept w) := by
  have hwrite : ∀ x : Dev, Dev.Moves noPwrPort ctlRegs x (x.plainWrite .TMU_CTL 0 w) := fun x => .plainWrite x (.inl rfl) (by decide) w
  refine Dev.syncEdge_keeps (R := fun x => Dev.Moves noPwrPort ctlRegs d x) (hwrite d) ?_ fun x hx => hx.trans ?_
  · exact (Dev.Moves.closeMinute (fun _ _ => rfl) (fun _ _ => .inr) d).trans (hwrite _)
  · exact ((Dev.Moves.rises x).hide fun _ => rfl).mono fun _ _ h => h.elim

theorem Dev.fld_ctlKept (d : Dev) (w : Word) {g : Fld} (hg : g ∈ RF.fields .TMU_CTL) (hr : g.rf = .TMU_CTL) :
    (d.ctlKept w).fld g 0 = bitsOf w g.hi g.lo := by
  refine Dev.syncEdge_keeps (R := fun x => x.fld g 0 = bitsOf w g.hi g.lo) (d.fld_plainWrite_ctl w hg hr)
    (d.closeMinute.fld_plainWrite_ctl w hg hr) fun x hx => ?_
  exact ((Dev.Moves.rises x).fld g 0 (by rw [hr]; rfl) not_false).trans hx

/-- SYNCED after a write that leaves DOMAIN: SYNC is what is written. -/
theorem Dev.syncedNow_ctlWritten {d x : Dev} {w : Word} (hdom : bitsOf w 61 54 = d.fld F.TMU_CTL_DOMAIN 0)
    (hstat : x.rd .TMU_STAT 0 = d.rd .TMU_STAT 0) : (x.plainWrite .TMU_CTL 0 w).syncedNow
      = (bitsOf w 63 63 == 1 && d.flag F.TMU_STAT_VALID 0 && d.flag F.TMU_STAT_LOCKED 0 && d.fld F.TMU_CTL_DOMAIN 0 != 0) := by
  have hkept : ∀ g : Fld, g.rf = .TMU_STAT → (x.plainWrite .TMU_CTL 0 w).flag g 0 = d.flag g 0 := fun g hg => by
    unfold Dev.flag Dev.fld
    rw [hg, x.rd_plainWrite_of_ne (by decide), hstat]
  have hput : ∀ g ∈ RF.fields .TMU_CTL, g.rf = .TMU_CTL → (x.plainWrite .TMU_CTL 0 w).fld g 0 = bitsOf w g.hi g.lo :=
    fun g => x.fld_plainWrite_ctl w
  unfold Dev.syncedNow
  rw [hkept F.TMU_STAT_VALID rfl, hkept F.TMU_STAT_LOCKED rfl, hput F.TMU_CTL_DOMAIN (by decide) rfl,
    show bitsOf w F.TMU_CTL_DOMAIN.hi F.TMU_CTL_DOMAIN.lo = _ from hdom]
  congr 3
  exact congrArg (· == 1) (hput F.TMU_CTL_SYNC (by decide) rfl)

theorem Dev.rises_timeNs (x : Dev) : ((x.notice N.TIME_SYNC Src.time 0 0).markResume).timeNs = x.timeNs := by
  have hmoves := Dev.Moves.rises x
  have htmu : ((x.notice N.TIME_SYNC Src.time 0 0).markResume).tmu = x.tmu := by have e := congrArg Dev.tmu hmoves.still; exact e
  unfold Dev.timeNs
  rw [Dev.timeFull_of_tmu htmu (hmoves.regs _ _ rfl not_false)]

/-- The register that a change of SYNC takes. -/
def syncRegs (r : RF) (_ : Nat) : Prop := r = .TMU_CTL

/-- The minute has its entry where what follows changes TMU_CTL alone of the registers. -/
theorem minuteLogged_of_closed {f : Dev → Dev} {s t : State} (hf : ∀ d, noTmuNet (f d) = noTmuNet d)
    (h : Dev.Moves f syncRegs s.d.closeMinute t.d) : MinuteLogged s t s.d.pwr.incomplete := by
  refine ((h.hide hf).mono fun r i hr hm => ?_).minuteLogged
  have hctl : r = .TMU_CTL := hr
  rcases hm with rfl | rfl <;> cases hctl

theorem Dev.rd_closeMinute_stat (d : Dev) : d.closeMinute.rd .TMU_STAT 0 = d.rd .TMU_STAT 0 :=
  d.rd_closeMinute rfl (by rintro (⟨⟨⟩⟩ | ⟨⟨⟩⟩)) 0

section
variable {d : Dev} {w : Word} (hdom : bitsOf w 61 54 = d.fld F.TMU_CTL_DOMAIN 0)
include hdom

theorem Dev.ctlKept_rises (hoff : d.syncedNow = false) (hon : (d.plainWrite .TMU_CTL 0 w).syncedNow = true) :
    d.ctlKept w = ((d.closeMinute.plainWrite .TMU_CTL 0 w).notice N.TIME_SYNC Src.time 0 0).markResume := by
  refine Dev.syncEdge_rises hoff hon ?_
  rw [Dev.syncedNow_ctlWritten hdom rfl] at hon
  rw [Dev.syncedNow_ctlWritten hdom d.rd_closeMinute_stat, hon]

omit hdom in
theorem Dev.ctlKept_falls (hon : d.syncedNow = true) (hclear : bitsOf w 63 63 = 0) :
    d.ctlKept w = d.closeMinute.plainWrite .TMU_CTL 0 w :=
  Dev.syncEdge_falls hon fun x => Dev.syncedNow_of_sync ((x.fld_plainWrite_ctl w (g := F.TMU_CTL_SYNC) (by decide) rfl).trans hclear)

end

section
variable {s : State} {m : Master} {data : Word} (h : Reaches s m .TMU_CTL 0 data)
include h

theorem exec_tmuCtlWrite : exec (.tmuCtlWrite m data) s = .next { s with d := (s.d.wrTmuCtl data).emitOut (.reg 0 0) } := by
  show execTmuCtlWrite m data s = _
  unfold execTmuCtlWrite
  rw [onDev_eq, Dev.regRow_reaches h]

end

section
variable {s : State} {w : Word} (hdom : bitsOf w 61 54 = s.d.fld F.TMU_CTL_DOMAIN 0)
include hdom

/-- SYNC is set where everything else stands for SYNCED: the minute closes, and TIME_SYNC is raised. -/
theorem ctlKept_syncs (hmay : MaySync s) (hsync : s.d.fld F.TMU_CTL_SYNC 0 = 0) (hset : bitsOf w 63 63 = 1) {t : State}
    (ht : Dev.Moves id syncRegs (s.d.ctlKept w) t.d) (htime : t.d.timeNs = (s.d.ctlKept w).timeNs) :
    MinuteLogged s t s.d.pwr.incomplete ∧ (Heard s → Raises s t 0x75 4 0 0) := by
  obtain ⟨hvalid, hlocked, hne⟩ := hmay
  have hon : (s.d.plainWrite .TMU_CTL 0 w).syncedNow = true := by
    rw [Dev.syncedNow_ctlWritten hdom rfl]
    simp [Dev.flag, hset, hvalid, hlocked, hne]
  have hrises := Dev.ctlKept_rises hdom (Dev.syncedNow_of_sync hsync) hon
  set x := s.d.closeMinute.plainWrite .TMU_CTL 0 w with hx
  have hwrite : Dev.Moves noPorts syncRegs s.d.closeMinute x := .plainWrite _ rfl (by decide) w
  have hresume : Dev.Moves noPorts syncRegs (x.notice N.TIME_SYNC Src.time 0 0) t.d := by
    rw [hrises] at ht
    exact (Dev.Moves.markResume (fun _ _ => rfl) _).trans (ht.hide fun _ => rfl)
  refine ⟨minuteLogged_of_closed (f := noPorts) (fun _ => rfl) ((hwrite.trans (.notice _ _ _ _ _)).trans hresume), fun hheard => ?_⟩
  have hbefore : Dev.Moves noPwrPort ctlRegs s.d x :=
    (Dev.Moves.closeMinute (fun _ _ => rfl) (fun _ _ => .inr) s.d).trans ((hwrite.hide fun _ => rfl).mono fun _ _ => .inl)
  refine hbefore.raises (by rintro (⟨⟨⟩⟩ | ⟨⟨⟨⟩⟩ | ⟨⟨⟩⟩⟩)) hresume ?_ hheard
  rw [htime, hrises, x.rises_timeNs]

end

theorem Dev.timeNs_congr {d d' : Dev} (h : d'.timeFull = d.timeFull) : d'.timeNs = d.timeNs := congrArg (· / 2 ^ 48 % 2 ^ 64) h

theorem Dev.timeNs_emitOut (d : Dev) (o : Out) : (d.emitOut o).timeNs = d.timeNs :=
  Dev.timeNs_congr (Dev.timeFull_of_tmu rfl (Dev.rd_emitOut d o _ _))

theorem Dev.Moves.tmu_of_id {may : RF → Nat → Prop} {d d' : Dev} (h : Dev.Moves id may d d') : d'.tmu = d.tmu := by
  have e := congrArg Dev.tmu h.still
  exact e

theorem Dev.Moves.timeFull_of_id {may : RF → Nat → Prop} {d d' : Dev} (h : Dev.Moves id may d d') (hm : ¬ may .TMU_RATE 0) :
    d'.timeFull = d.timeFull := Dev.timeFull_of_tmu h.tmu_of_id (h.regs _ _ rfl hm)

section
variable {s : State} {m : Master} {data : Word} (h : Reaches s m .TMU_CTL 0 data)
include h

/-- A write of TMU_CTL that leaves DOMAIN enters its word, and SYNCED may rise or fall with SYNC (R271). -/
theorem tmuCtlWrite_kept (hdom : bitsOf data 61 54 = s.d.fld F.TMU_CTL_DOMAIN 0) : Completes (.tmuCtlWrite m data) s (fun t => Answers t 0
    ∧ t.d.fld F.TMU_CTL_SYNC 0 = bitsOf data 63 63 ∧ t.d.fld F.TMU_CTL_SERVO 0 = bitsOf data 62 62
    ∧ t.d.fld F.TMU_CTL_DOMAIN 0 = bitsOf data 61 54 ∧ t.d.fld F.TMU_CTL_HOLD 0 = bitsOf data 53 40
    ∧ (MaySync s → s.d.fld F.TMU_CTL_SYNC 0 = 0 → bitsOf data 63 63 = 1 →
        MinuteLogged s t s.d.pwr.incomplete ∧ (Heard s → Raises s t 0x75 4 0 0))
    ∧ (Synced s → bitsOf data 63 63 = 0 → MinuteLogged s t s.d.pwr.incomplete)
    ∧ Only noPwrPort s t (fun r _ => r = .TMU_CTL ∨ minuteRegs r)) := by
  have hexec := exec_tmuCtlWrite h
  rw [show s.d.wrTmuCtl data = s.d.ctlKept data from if_pos hdom] at hexec
  have hfld : ∀ g ∈ RF.fields .TMU_CTL, g.rf = .TMU_CTL →
      ((s.d.ctlKept data).emitOut (.reg 0 0)).fld g 0 = bitsOf data g.hi g.lo := fun g hg hr =>
    (Dev.fld_emitOut _ _ _ _).trans (s.d.fld_ctlKept data hg hr)
  refine ⟨_, hexec, answers_emitOut rfl, hfld F.TMU_CTL_SYNC (by decide) rfl, hfld F.TMU_CTL_SERVO (by decide) rfl,
    hfld F.TMU_CTL_DOMAIN (by decide) rfl, hfld F.TMU_CTL_HOLD (by decide) rfl, fun hmay hsync hset =>
      ctlKept_syncs hdom hmay hsync hset (.emitOut _ _) (Dev.timeNs_emitOut _ _), fun hsynced hclear => ?_,
    ((Dev.Moves.ctlKept s.d data).trans (.emitOut _ _)).only ⟨rfl, rfl⟩⟩
  refine minuteLogged_of_closed (f := id) (fun _ => rfl) (Dev.Moves.trans ?_ (.emitOut _ _))
  rw [Dev.ctlKept_falls (syncedNow_iff.2 hsynced) hclear]
  exact .plainWrite _ rfl (by decide) data

end

/-! ## Hardware clears SYNC (R271) -/

/-- The device with SYNC cleared and the servo's count of Sync intervals at its start. -/
def Dev.unsynced (d : Dev) : Dev := ({ d with tmu := { d.tmu with good := 0 } } : Dev).setFld F.TMU_CTL_SYNC 0 0

theorem Dev.clearSync_of_sync {d : Dev} (h : d.fld F.TMU_CTL_SYNC 0 = 1) : d.clearSync = d.unsynced.notice N.TIME_UNSYNC Src.time 0 0 :=
  if_pos (beq_iff_eq.2 ((Dev.fld_of_regs rfl rfl _ _).trans h))

theorem Dev.clearSync_of_not {d : Dev} (h : d.fld F.TMU_CTL_SYNC 0 ≠ 1) : d.clearSync = { d with tmu := { d.tmu with good := 0 } } :=
  if_neg fun e => h ((Dev.fld_of_regs rfl rfl _ _).symm.trans (beq_iff_eq.1 e))

theorem Dev.fld_sync_ne_one {d : Dev} (h : d.fld F.TMU_CTL_SYNC 0 ≠ 1) : d.fld F.TMU_CTL_SYNC 0 = 0 := by
  have hlt : d.fld F.TMU_CTL_SYNC 0 < 2 := bitsOf_lt _ _ _
  omega

section
variable {f : Dev → Dev} {may : RF → Nat → Prop}

theorem Dev.Moves.setTmu (hf : ∀ d x, f { d with tmu := x } = f d) (d : Dev) (x : Tmu) : Dev.Moves f may d { d with tmu := x } :=
  .of_regs (hf d.still x) rfl rfl rfl

theorem Dev.Moves.unsynced (hf : ∀ d x, f { d with tmu := x } = f d) (hm : may .TMU_CTL 0) (d : Dev) : Dev.Moves f may d d.unsynced :=
  (Dev.Moves.setTmu hf d _).trans (.setFld _ hm (by decide) _)

theorem Dev.Moves.clearSync (hf : ∀ d x, f { d with tmu := x } = f d) (hm : may .TMU_CTL 0) (d : Dev) : Dev.Moves f may d d.clearSync := by
  by_cases h : d.fld F.TMU_CTL_SYNC 0 = 1
  · rw [Dev.clearSync_of_sync h]
    exact (Dev.Moves.unsynced hf hm d).trans (.notice _ _ _ _ _)
  · rw [Dev.clearSync_of_not h]
    exact .setTmu hf d _

end

theorem Dev.tmu_clearSync (d : Dev) : d.clearSync.tmu = { d.tmu with good := 0 } := by
  by_cases h : d.fld F.TMU_CTL_SYNC 0 = 1
  · rw [Dev.clearSync_of_sync h]
    exact (d.unsynced.soft_notice _ _ _ _).tmu
  · rw [Dev.clearSync_of_not h]

theorem Dev.sync_clearSync (d : Dev) : d.clearSync.fld F.TMU_CTL_SYNC 0 = 0 := by
  by_cases h : d.fld F.TMU_CTL_SYNC 0 = 1
  · rw [Dev.clearSync_of_sync h, Dev.fld_notice _ _ _ _ _ rfl]
    exact Dev.fld_setFld_self _ _ _ _ (by decide) (by decide)
  · rw [Dev.clearSync_of_not h]
    exact (Dev.fld_of_regs rfl rfl _ _).trans (Dev.fld_sync_ne_one h)

/-- What is left of SYNCED where hardware clears SYNC: the servo's count starts anew, TIME_UNSYNC tells of a SYNC of 1, and the minute
has its entry where time was synchronised. -/
structure Unsyncs (s t : State) : Prop where
  sync : t.d.fld F.TMU_CTL_SYNC 0 = 0
  heard : s.d.fld F.TMU_CTL_SYNC 0 = 1 → Heard s → Raises s t 0x76 4 0 0
  minute : Synced s → MinuteLogged s t s.d.pwr.incomplete
  tmu : t.d.tmu = { s.d.tmu with good := 0 }
  only : Only (fun d => { noPwr d with tmu := {} }) s t (fun r _ => r = .TMU_CTL ∨ minuteRegs r)

/-- A device but for its power measurement and its time unit. -/
def noPwrTmu (d : Dev) : Dev := { noPwr d with tmu := {} }

section
variable {g : Dev → Dev} (hg : ∀ x, Dev.Moves id syncRegs x (g x)) (hsync : ∀ x, x.fld F.TMU_CTL_SYNC 0 = 0 → (g x).fld F.TMU_CTL_SYNC 0 = 0)
include hg hsync

/-- Hardware clears SYNC, and a change of TMU_CTL that does not set it follows. -/
theorem unsyncs_of_syncEdge {s t : State} (hrest : Rest s t) (ht : Dev.Moves id (fun _ _ => False) (s.d.syncEdge fun d => g d.clearSync) t.d) :
    Unsyncs s t := by
  have hclear : ∀ x : Dev, (g x.clearSync).fld F.TMU_CTL_SYNC 0 = 0 := fun x => hsync _ x.sync_clearSync
  obtain ⟨x, hx, htmu, hkept, hmoves, hedge⟩ : ∃ x, (Synced s → x = s.d.closeMinute) ∧ x.tmu = s.d.tmu
      ∧ x.fld F.TMU_CTL_SYNC 0 = s.d.fld F.TMU_CTL_SYNC 0 ∧ Dev.Moves noPwrTmu ctlRegs s.d x
      ∧ s.d.syncEdge (fun d => g d.clearSync) = g x.clearSync := by
    cases hnow : s.d.syncedNow with
    | false =>
      refine ⟨s.d, fun hs => ?_, rfl, rfl, .refl _, Dev.syncEdge_same (by rw [hnow, Dev.syncedNow_of_sync (hclear _)])⟩
      rw [syncedNow_iff.2 hs] at hnow
      cases hnow
    | true =>
      exact ⟨s.d.closeMinute, fun _ => rfl, s.d.tmu_closeMinute, s.d.fld_closeMinute rfl (by rintro (⟨⟨⟩⟩ | ⟨⟨⟩⟩)) 0,
        .closeMinute (fun _ _ => rfl) (fun _ _ => .inr) _, Dev.syncEdge_falls hnow fun y => Dev.syncedNow_of_sync (hclear y)⟩
  rw [hedge] at ht
  have hafter : Dev.Moves id syncRegs x.clearSync t.d := (hg _).trans (ht.mono fun _ _ => False.elim)
  refine ⟨(ht.fld _ 0 rfl not_false).trans (hclear x), fun hs hheard => ?_, fun hs => ?_, ?_, ?_⟩
  · rw [Dev.clearSync_of_sync (hkept.trans hs)] at hafter
    have hbefore : Dev.Moves noPwrTmu ctlRegs s.d x.unsynced := hmoves.trans (.unsynced (fun _ _ => rfl) (.inl rfl) x)
    refine hbefore.raises (by rintro (⟨⟨⟩⟩ | ⟨⟨⟨⟩⟩ | ⟨⟨⟩⟩⟩)) hafter ?_ hheard
    exact (Dev.timeNs_congr (hafter.timeFull_of_id (by rintro ⟨⟩))).trans (Dev.Follows.notice _ _ _ _ _).timeNs
  · refine minuteLogged_of_closed (f := noTmu) (fun _ => rfl) ?_
    rw [← hx hs]
    exact (Dev.Moves.clearSync (fun _ _ => rfl) rfl x).trans (hafter.hide fun _ => rfl)
  · rw [hafter.tmu_of_id, x.tmu_clearSync, htmu]
  · exact ((hmoves.trans (.clearSync (fun _ _ => rfl) (.inl rfl) x)).trans ((hafter.hide fun _ => rfl).mono fun _ _ => .inl)).only hrest

end

/-- The servo's watchdog expires: HOLD of 0 disables it, and any other clears SYNC (R271). -/
theorem servoHoldExpiry_disabled {s : State} (h : s.d.fld F.TMU_CTL_HOLD 0 = 0) : Completes .servoHoldExpiry s (fun t => t = s) := by
  refine ⟨s, ?_, rfl⟩
  show execServoHoldExpiry s = _
  rw [execServoHoldExpiry, onDev_eq, h]
  rfl

theorem servoHoldExpiry_unsyncs {s : State} (h : s.d.fld F.TMU_CTL_HOLD 0 ≠ 0) : Completes .servoHoldExpiry s (fun t => Unsyncs s t) := by
  have hexec : exec .servoHoldExpiry s = .next { s with d := s.d.syncEdge fun d => id d.clearSync } := by
    show execServoHoldExpiry s = _
    rw [execServoHoldExpiry, onDev_eq, bne_iff_ne.2 h, Dev.when_true]
    rfl
  exact ⟨_, hexec, unsyncs_of_syncEdge (g := id) (fun _ => .refl _) (fun _ => id) ⟨rfl, rfl⟩ (.refl _)⟩

/-! ## TMU_CTL, where DOMAIN changes (R271) -/

theorem Dev.mem_roPorts {d : Dev} {l : Nat} :
    l ∈ d.roPorts ↔ ∃ x ∈ d.net.ports, (x.2.order.isSome = true ∨ x.2.pendingOrder.isSome = true) ∧ x.1 = l := by
  unfold Dev.roPorts
  rw [List.mem_filterMap]
  refine exists_congr fun x => and_congr_right fun _ => ?_
  split
  · next h => simp [h]
  · next h => simp [h]

theorem roBusy_iff {s : State} : s.d.roBusy = true ↔ OrdersLive s := by
  unfold Dev.roBusy OrdersLive
  simp only [List.any_eq_true, Dev.mem_roPorts, Bool.or_eq_true, beq_iff_eq]
  constructor
  · rintro ⟨l, ⟨x, hx, hord, rfl⟩, hst⟩
    exact ⟨x, hx, hord, hst⟩
  · rintro ⟨x, hx, hord, hst⟩
    exact ⟨x.1, ⟨x, hx, hord, rfl⟩, hst⟩

section
variable {s : State} {m : Master} {data : Word} (h : Reaches s m .TMU_CTL 0 data) (hdom : bitsOf data 61 54 ≠ s.d.fld F.TMU_CTL_DOMAIN 0)
include h hdom

/-- A write of TMU_CTL that changes DOMAIN clears SYNC and enters the rest. -/
theorem tmuCtlWrite_moved (hfree : ¬ OrdersLive s) : Completes (.tmuCtlWrite m data) s (fun t => Answers t 0
    ∧ t.d.fld F.TMU_CTL_SYNC 0 = 0 ∧ t.d.fld F.TMU_CTL_DOMAIN 0 = bitsOf data 61 54
    ∧ t.d.fld F.TMU_CTL_SERVO 0 = bitsOf data 62 62 ∧ t.d.fld F.TMU_CTL_HOLD 0 = bitsOf data 53 40
    ∧ (s.d.fld F.TMU_CTL_SYNC 0 = 1 → Heard s → Raises s t 0x76 4 0 0)
    ∧ (Synced s → MinuteLogged s t s.d.pwr.incomplete) ∧ t.d.tmu = { s.d.tmu with good := 0 }
    ∧ Only (fun d => { noPwr d with tmu := {} }) s t (fun r _ => r = .TMU_CTL ∨ minuteRegs r)) := by
  set w := setBits data F.TMU_CTL_SYNC.hi F.TMU_CTL_SYNC.lo 0 with hw
  have hexec := exec_tmuCtlWrite h
  have hwr : s.d.wrTmuCtl data = s.d.syncEdge (fun d => d.clearSync.plainWrite .TMU_CTL 0 w) := by
    unfold Dev.wrTmuCtl
    rw [if_neg (show ¬ fldOf F.TMU_CTL_DOMAIN data = _ from hdom), if_neg fun e => hfree (roBusy_iff.1 e)]
  rw [hwr] at hexec
  have hsyncBit : bitsOf w 63 63 = 0 := bitsOf_setBits data 63 63 0 (by decide) (by decide)
  have hrest : ∀ hi lo, lo ≤ hi → hi < 63 → bitsOf w hi lo = bitsOf data hi lo := fun hi lo hl hh =>
    bitsOf_setBits_of_disjoint data 63 63 0 hi lo (by decide) hl (.inl hh)
  have hfld : ∀ g ∈ RF.fields .TMU_CTL, g.rf = .TMU_CTL →
      ((s.d.syncEdge (fun d => d.clearSync.plainWrite .TMU_CTL 0 w)).emitOut (.reg 0 0)).fld g 0 = bitsOf w g.hi g.lo := fun g hg hr =>
    (Dev.fld_emitOut _ _ _ _).trans (Dev.syncEdge_keeps (R := fun x => x.fld g 0 = bitsOf w g.hi g.lo) (Dev.fld_plainWrite_ctl _ w hg hr)
      (Dev.fld_plainWrite_ctl _ w hg hr) fun x hx => ((Dev.Moves.rises x).fld g 0 (by rw [hr]; rfl) not_false).trans hx)
  obtain ⟨hsync, hheard, hminute, htmu, honly⟩ := unsyncs_of_syncEdge (s := s)
    (t := { s with d := (s.d.syncEdge (fun d => d.clearSync.plainWrite .TMU_CTL 0 w)).emitOut (.reg 0 0) })
    (g := fun x => x.plainWrite .TMU_CTL 0 w) (fun x => .plainWrite x rfl (by decide) w)
    (fun x _ => (x.fld_plainWrite_ctl w (g := F.TMU_CTL_SYNC) (by decide) rfl).trans hsyncBit) ⟨rfl, rfl⟩ (.emitOut _ _)
  exact ⟨_, hexec, answers_emitOut rfl, hsync,
    (hfld F.TMU_CTL_DOMAIN (by decide) rfl).trans (hrest 61 54 (by decide) (by decide)),
    (hfld F.TMU_CTL_SERVO (by decide) rfl).trans (hrest 62 62 (by decide) (by decide)),
    (hfld F.TMU_CTL_HOLD (by decide) rfl).trans (hrest 53 40 (by decide) (by decide)), hheard, hminute, htmu, honly⟩

/-- It is refused while a running order is aligned to the time of the present DOMAIN. -/
theorem tmuCtlWrite_refused (hlive : OrdersLive s) : Completes (.tmuCtlWrite m data) s (fun t => Answers t 0
    ∧ Only id s t (fun _ _ => False) ∧ (Heard s → Raises s t 0x77 4 0 0)) := by
  have hexec := exec_tmuCtlWrite h
  have hwr : s.d.wrTmuCtl data = s.d.notice N.TIME_DOMAIN_REFUSED Src.time 0 0 := by
    unfold Dev.wrTmuCtl
    rw [if_neg (show ¬ fldOf F.TMU_CTL_DOMAIN data = _ from hdom), if_pos (roBusy_iff.2 hlive)]
  rw [hwr] at hexec
  exact ⟨_, hexec, answers_emitOut rfl, ((Dev.Moves.notice s.d _ _ _ _).trans (.emitOut _ _)).only ⟨rfl, rfl⟩,
    (Dev.Follows.refl s.d).raises (.of_regs rfl rfl rfl rfl)⟩

end

/-! ## TMU_RATE and TMU_NOW (R267, R268) -/

/-- A write of TMU_RATE enters RATE, and T does not jump. -/
theorem tmuRateWrite_completes {s : State} {m : Master} {data : Word} (h : Reaches s m .TMU_RATE 0 data) :
    Completes (.tmuRateWrite m data) s (fun t => Answers t 0
      ∧ t.d.fld F.TMU_RATE_RATE 0 = bitsOf data 39 0 ∧ t.d.timeFull = s.d.timeFull ∧ t.d.tmu.frc = s.d.tmu.frc
      ∧ Only noTmu s t (fun r i => r = .TMU_RATE ∧ i = 0)) := by
  have hexec : exec (.tmuRateWrite m data) s = .next { s with d := (s.d.wrTmuRate data).emitOut (.reg 0 0) } := by
    show execTmuRateWrite m data s = _
    unfold execTmuRateWrite
    rw [onDev_eq, Dev.regRow_reaches h]
  have hwrite : Dev.Moves noTmu (fun r i => r = .TMU_RATE ∧ i = 0) s.d (s.d.wrTmuRate data) :=
    (Dev.Moves.plainWrite s.d ⟨rfl, rfl⟩ (by decide) data).trans (.setTmu (fun _ _ => rfl) _ _)
  have hrate : (s.d.wrTmuRate data).fld F.TMU_RATE_RATE 0 = bitsOf data 39 0 :=
    (Dev.fld_of_regs rfl rfl _ _).trans (Dev.fld_plainWrite (fs := [F.TMU_RATE_RATE]) rfl (by simp) (by decide) (by simp) rfl)
  have htime : (s.d.wrTmuRate data).timeFull = s.d.timeFull :=
    (Dev.timeFull_of_base rfl).trans (Nat.mod_eq_of_lt s.d.timeFull_lt)
  exact ⟨_, hexec, answers_emitOut rfl, (Dev.fld_emitOut _ _ _ _).trans hrate,
    (Dev.timeFull_of_tmu rfl (Dev.rd_emitOut _ _ _ _)).trans htime, rfl, (hwrite.trans (.emitOut _ _)).only ⟨rfl, rfl⟩⟩

/-- A read of TMU_NOW gives T in ns, and latches its fraction. -/
theorem tmuNowRead_completes {s : State} {m : Master} (h : s.d.regRefused m .TMU_NOW 0 none = none) :
    Completes (.tmuNowRead m) s (fun t => t.d.out = s.d.out ++ [.reg 0 (BitVec.ofNat 64 s.d.timeNs)]
      ∧ t.d.tmu = { s.d.tmu with latch := s.d.timeFull / 2 ^ 32 % 65536 } ∧ Only noTmu s t (fun _ _ => False)) := by
  have hexec : exec (.tmuNowRead m) s = .next { s with d := s.d.latchNow.emitOut (.reg 0 (BitVec.ofNat 64 s.d.timeNs)) } := by
    show execTmuNowRead m s = _
    rw [execTmuNowRead, onDev_eq, h]
    rfl
  exact ⟨_, hexec, rfl, rfl, ((Dev.Moves.setTmu (fun _ _ => rfl) s.d _).trans (.emitOut _ _)).only ⟨rfl, rfl⟩⟩

end Sys2Proof.Machine
end

section
/-! A step of T (R267, R269, R275, R307): TMU_OFFSET, and what follows at launch entries and running orders. -/

namespace Sys2Proof.Machine
open Sys2Proof.Claims

/-! ## The parts of a step -/

/-- T stepped in a new minute, with VALID and STEPS. -/
def Dev.stepped (d : Dev) (x : Int) : Dev := ((d.closeMinute.stepTime x).setFld F.TMU_STAT_VALID 0 1).bumpSat F.TMU_STAT_STEPS 0 1

/-- TIME_SYNC is raised where the step makes SYNCED rise. -/
def Dev.stepTold (d : Dev) (x : Int) : Dev :=
  if !d.syncedNow ∧ (d.stepped x).syncedNow then (d.stepped x).notice N.TIME_SYNC Src.time 0 0 else d.stepped x

/-- Launch entries, as port × 64 + entry, that will fire late. -/
def Dev.markLate (d : Dev) (is : List Nat) : Dev :=
  d.each is (fun d i => d.modPort (i / 64) (fun p => { p with late := p.late.filter (· ≠ i % 64) ++ [i % 64] }))

/-- Running orders move to the time that now stands. -/
def Dev.moveOrders (d : Dev) : Dev := d.markResume.each d.roPorts (fun d l => d.moveGates l id)

theorem Dev.wrTmuOffset_eq (d : Dev) (w : Word) {x : Int} (hx : x = w.toInt * 65536 + d.fld F.TMU_OFFSET_FINE_STEP_FRAC 0) :
    d.wrTmuOffset w = ((d.stepTold x).markLate (d.waitingLaunches.filter (fun i =>
      (d.stepTold x).launchDue ((d.stepTold x).fld F.PRT_LAUNCH_TIME i)))).moveOrders := by
  rw [hx]
  rfl

/-! ## What they leave alone -/

/-- The register that running orders show their place in. -/
def roRegs (r : RF) (_ : Nat) : Prop := r = .PRT_RO_CTL

/-- The register that a step of T takes. -/
def statRegs (r : RF) (_ : Nat) : Prop := r = .TMU_STAT

/-- The registers that a step of T takes with the minute it closes and the orders it moves. -/
def stepRegs (r : RF) (_ : Nat) : Prop := r = .TMU_STAT ∨ minuteRegs r ∨ r = .PRT_RO_CTL

theorem Dev.Moves.roEntry {f : Dev → Dev} (d : Dev) (l : Nat) : Dev.Moves f roRegs d (d.roEntry l) := by
  unfold Dev.roEntry
  split
  · exact .refl d
  · exact .setFld d rfl (by decide) _

theorem Dev.Moves.moveGates {f : Dev → Dev} (d : Dev) (l : Nat) : Dev.Moves f roRegs d (d.moveGates l id) := by
  unfold Dev.moveGates
  exact (Dev.Moves.roEntry d l).trans (.count _ (by omega) (by decide) _)

theorem Dev.Moves.moveOrders (d : Dev) : Dev.Moves noPorts roRegs d d.moveOrders :=
  (Dev.Moves.markResume (fun _ _ => rfl) d).each fun d l _ => .moveGates d l

theorem Dev.Moves.markLate (d : Dev) (is : List Nat) : Dev.Moves noPorts roRegs d (d.markLate is) :=
  (Dev.Moves.refl d).each fun d _ _ => .modPort (fun _ _ => rfl) d _ _

/-- From the step on, only ports and the place of their orders change, and TIME_SYNC may be raised. -/
theorem Dev.Moves.afterStep (d : Dev) (x : Int) (is : List Nat) :
    Dev.Moves noPorts roRegs (d.stepTold x) ((d.stepTold x).markLate is).moveOrders :=
  (Dev.Moves.markLate _ is).trans (.moveOrders _)

theorem Dev.Moves.told (d : Dev) (x : Int) : Dev.Moves noPorts roRegs (d.stepped x) (d.stepTold x) := by
  unfold Dev.stepTold
  split
  · exact .notice _ _ _ _ _
  · exact .refl _

theorem Dev.Moves.stepTime {f : Dev → Dev} {may : RF → Nat → Prop} (hf : ∀ d x, f { d with tmu := x } = f d) (d : Dev) (x : Int) :
    Dev.Moves f may d (d.stepTime x) := .setTmu hf d _

/-- The step in the minute that it opens. -/
theorem Dev.Moves.steppedFromClose (d : Dev) (x : Int) : Dev.Moves noTmu statRegs d.closeMinute (d.stepped x) :=
  ((Dev.Moves.stepTime (fun _ _ => rfl) _ x).trans (.setFld _ rfl (by decide) _)).trans (.setFld _ rfl (by decide) _)

theorem Dev.Moves.stepped (d : Dev) (x : Int) : Dev.Moves noTmuPort stepRegs d (d.stepped x) :=
  (Dev.Moves.closeMinute (fun _ _ => rfl) (fun _ _ h => .inr (.inl h)) d).trans
    (((Dev.Moves.steppedFromClose d x).hide fun _ => rfl).mono fun _ _ => .inl)

theorem Dev.Moves.wrTmuOffset (d : Dev) (w : Word) : Dev.Moves noTmuPort stepRegs d (d.wrTmuOffset w) := by
  have hro : ∀ r i, roRegs r i → stepRegs r i := fun _ _ h => .inr (.inr h)
  rw [d.wrTmuOffset_eq w rfl]
  exact (Dev.Moves.stepped d _).trans
    ((((Dev.Moves.told d _).trans (.afterStep d _ _)).hide fun _ => rfl).mono hro)

/-! ## T, VALID and STEPS after a step -/

theorem Dev.tmu_stepped (d : Dev) (x : Int) :
    (d.stepped x).tmu = { d.tmu with base := wrapTo 112 ((d.timeFull : Int) + x * 2 ^ 32), baseFrc := d.tmu.frc } := by
  have htime : d.closeMinute.timeFull = d.timeFull :=
    Dev.timeFull_of_tmu d.tmu_closeMinute (d.rd_closeMinute rfl (by rintro (⟨⟨⟩⟩ | ⟨⟨⟩⟩)) 0)
  show ({ d.closeMinute.tmu with
    base := wrapTo 112 ((d.closeMinute.timeFull : Int) + x * 2 ^ 32), baseFrc := d.closeMinute.tmu.frc } : Tmu) = _
  rw [htime, d.tmu_closeMinute]

/-- T has moved by the step, modulo its width. -/
theorem Dev.timeFull_stepped (d : Dev) (x : Int) : ((d.stepped x).timeFull : Int) = ((d.timeFull : Int) + x * 2 ^ 32) % 2 ^ 112 := by
  have hbase : (d.stepped x).timeFull = wrapTo 112 ((d.timeFull : Int) + x * 2 ^ 32) := by
    rw [Dev.timeFull_of_base (by rw [d.tmu_stepped]), d.tmu_stepped]
    exact Nat.mod_eq_of_lt (wrapTo_lt _ _)
  rw [hbase, wrapTo_cast]

theorem Dev.fld_stepTime (d : Dev) (x : Int) (g : Fld) (i : Nat) : (d.stepTime x).fld g i = d.fld g i := Dev.fld_of_regs rfl rfl _ _

theorem Dev.fld_stepTime_stat (d : Dev) (x : Int) {g : Fld} (hg : g.rf = .TMU_STAT) : (d.closeMinute.stepTime x).fld g 0 = d.fld g 0 :=
  (d.closeMinute.fld_stepTime x g 0).trans (d.fld_closeMinute (by rw [hg]; rfl) (by rw [hg]; rintro (⟨⟨⟩⟩ | ⟨⟨⟩⟩)) 0)

theorem Dev.valid_stepped (d : Dev) (x : Int) : (d.stepped x).fld F.TMU_STAT_VALID 0 = 1 :=
  (Dev.fld_setFld_of_ne _ _ _ _ _ _ (by decide) (by decide) (.inr (by decide))).trans
    (Dev.fld_setFld_self _ _ _ _ (by decide) (by decide))

theorem Dev.locked_stepped (d : Dev) (x : Int) : (d.stepped x).fld F.TMU_STAT_LOCKED 0 = d.fld F.TMU_STAT_LOCKED 0 :=
  ((Dev.fld_setFld_of_ne _ _ _ _ _ _ (by decide) (by decide) (.inr (by decide))).trans
    (Dev.fld_setFld_of_ne _ _ _ _ _ _ (by decide) (by decide) (.inr (by decide)))).trans (d.fld_stepTime_stat x rfl)

/-- STEPS counts the step, and stays at its largest value. -/
theorem Dev.steps_stepped (d : Dev) (x : Int) : (d.stepped x).fld F.TMU_STAT_STEPS 0 = min (d.fld F.TMU_STAT_STEPS 0 + 1) 65535 := by
  have hbefore : ((d.closeMinute.stepTime x).setFld F.TMU_STAT_VALID 0 1).fld F.TMU_STAT_STEPS 0 = d.fld F.TMU_STAT_STEPS 0 :=
    (Dev.fld_setFld_of_ne _ _ _ _ _ _ (by decide) (by decide) (.inr (by decide))).trans (d.fld_stepTime_stat x rfl)
  unfold Dev.stepped Dev.bumpSat
  rw [hbefore, Dev.fld_setFld_self _ _ _ _ (by decide) (by decide)]
  exact Nat.mod_eq_of_lt (Nat.lt_succ_of_le (Nat.min_le_right _ _))

theorem Dev.stepped_synced {d : Dev} (x : Int) (hsync : d.fld F.TMU_CTL_SYNC 0 = 1) (hlocked : d.fld F.TMU_STAT_LOCKED 0 = 1)
    (hdom : d.fld F.TMU_CTL_DOMAIN 0 ≠ 0) : (d.stepped x).syncedNow = true := by
  have hctl : ∀ g : Fld, g.rf = .TMU_CTL → (d.stepped x).fld g 0 = d.fld g 0 := fun g hg =>
    (Dev.Moves.stepped d x).fld g 0 (by rw [hg]; rfl) (by rw [hg]; rintro (⟨⟨⟩⟩ | ⟨⟨⟨⟩⟩ | ⟨⟨⟩⟩⟩ | ⟨⟨⟩⟩))
  unfold Dev.syncedNow Dev.flag
  rw [hctl F.TMU_CTL_SYNC rfl, hctl F.TMU_CTL_DOMAIN rfl, d.valid_stepped, d.locked_stepped, hsync, hlocked]
  simpa using hdom

/-! ## Launch entries that a step passes (R275) -/

/-- A port's late entries are still late when more are marked. -/
theorem Dev.late_of_late {d : Dev} {l k : Nat} (is : List Nat) (h : k ∈ (d.port l).late) : k ∈ ((d.markLate is).port l).late := by
  refine Dev.each_induct (R := fun d => k ∈ (d.port l).late) (fun d i _ hd => ?_) h
  rw [Dev.port_modPort]
  split
  · next hl =>
    subst hl
    by_cases hk : k = i % 64
    · simp [hk]
    · simp [hk, hd]
  · exact hd

theorem Dev.late_markLate (d : Dev) {is : List Nat} {i : Nat} (h : i ∈ is) : i % 64 ∈ ((d.markLate is).port (i / 64)).late := by
  induction is generalizing d with
  | nil => cases h
  | cons j is ih =>
    rcases List.mem_cons.1 h with rfl | h
    · refine Dev.late_of_late is ?_
      rw [Dev.port_modPort, if_pos rfl]
      simp
    · exact ih _ h

theorem Dev.late_moveOrders (d : Dev) (l : Nat) : (d.moveOrders.port l).late = (d.port l).late := by
  have hgates : ∀ (d : Dev) (j : Nat), ((d.moveGates j id).port l).late = (d.port l).late := fun d j => by
    have hnet : (d.moveGates j id).net = d.net := by
      have hentry : (d.roEntry j).net = d.net := by
        unfold Dev.roEntry
        split <;> rfl
      exact ((Dev.Logs.refl (d.roEntry j)).count _ _ _).net.trans hentry
    unfold Dev.port
    rw [hnet]
  have hresume : (d.markResume.port l).late = (d.port l).late := by
    unfold Dev.markResume
    split
    · refine Dev.each_keeps (fun d => (d.port l).late) _ (fun d j => ?_) _ d
      rw [Dev.port_modPort]
      split
      · next h => rw [h]
      · rfl
    · rfl
  exact (Dev.each_keeps (fun d => (d.port l).late) _ hgates _ _).trans hresume

/-- An armed entry whose TIME is not due is among those that wait. -/
theorem Dev.mem_waitingLaunches {d : Dev} {i : Nat} (hv : d.fld F.PRT_LAUNCH_VALID i = 1)
    (hdue : d.launchDue (d.fld F.PRT_LAUNCH_TIME i) = false) : i ∈ d.waitingLaunches := by
  have hlisted : ∃ w, d.regs.find (RF.key .PRT_LAUNCH i) = some w := by
    cases hfind : d.regs.find (RF.key .PRT_LAUNCH i) with
    | some w => exact ⟨w, rfl⟩
    | none =>
      have hreset : d.rd .PRT_LAUNCH i = RF.tableReset .PRT_LAUNCH := by
        show (d.regs.find (RF.key .PRT_LAUNCH i)).getD _ = _
        rw [hfind]
        rfl
      have hzero : d.fld F.PRT_LAUNCH_VALID i = 0 := by
        show bitsOf (d.rd .PRT_LAUNCH i) 63 63 = 0
        rw [hreset]
        decide
      rw [hzero] at hv
      cases hv
  obtain ⟨w, hw⟩ := hlisted
  have hnum : keyNum (RF.key .PRT_LAUNCH i) = RF.num .PRT_LAUNCH := by
    unfold keyNum RF.key
    rw [Nat.mul_comm, Nat.mul_add_mod, Nat.mod_eq_of_lt (RF.num_lt _)]
  have hidx : keyIdx (RF.key .PRT_LAUNCH i) = i := by
    have hlt := RF.num_lt .PRT_LAUNCH
    unfold keyIdx RF.key
    omega
  refine List.mem_filter.2 ⟨List.mem_filterMap.2 ⟨_, NMap.mem_of_find hw, ?_⟩, ?_⟩
  · rw [if_pos hnum, hidx]
  · rw [Dev.flag_of_fld hv, hdue]
    rfl

/-! ## TMU_OFFSET_STEP -/

theorem Dev.launchDue_congr {d d' : Dev} (h : d'.timeFull = d.timeFull) (t : Nat) : d'.launchDue t = d.launchDue t := by
  unfold Dev.launchDue Dev.now48
  rw [Dev.timeNs_congr h]

theorem Dev.Moves.tmu_of_noPorts {may : RF → Nat → Prop} {d d' : Dev} (h : Dev.Moves noPorts may d d') : d'.tmu = d.tmu := by
  have e := congrArg Dev.tmu h.still
  exact e

theorem Dev.Moves.timeFull_of_noPorts {d d' : Dev} (h : Dev.Moves noPorts roRegs d d') : d'.timeFull = d.timeFull :=
  Dev.timeFull_of_tmu h.tmu_of_noPorts (h.regs _ _ rfl (by rintro ⟨⟩))

section
variable {s : State} {m : Master} {data : Word}

/-- The step that a write of TMU_OFFSET makes, in units of 2^-16 ns. -/
def Dev.offsetStep (d : Dev) (w : Word) : Int := w.toInt * 65536 + d.fld F.TMU_OFFSET_FINE_STEP_FRAC 0

theorem Dev.port_emitOut (d : Dev) (o : Out) (l : Nat) : (d.emitOut o).port l = d.port l := rfl

/-- What a step leaves to the end of its command: T, the registers but for the place of orders, and the minute. -/
theorem Dev.Moves.restOfStep (d : Dev) (w : Word) :
    Dev.Moves noPorts roRegs (d.stepTold (d.offsetStep w)) ((d.wrTmuOffset w).emitOut (.reg 0 0)) := by
  rw [d.wrTmuOffset_eq w rfl]
  exact (Dev.Moves.afterStep d _ _).trans (.emitOut _ _)

/-- Entries that the step passes are late. -/
theorem Dev.late_wrTmuOffset {d : Dev} {w : Word} {i : Nat} (hv : d.fld F.PRT_LAUNCH_VALID i = 1)
    (hdue : d.launchDue (d.fld F.PRT_LAUNCH_TIME i) = false)
    (hpassed : (d.stepTold (d.offsetStep w)).launchDue (d.fld F.PRT_LAUNCH_TIME i) = true) :
    i % 64 ∈ ((d.wrTmuOffset w).port (i / 64)).late := by
  have htime : (d.stepTold (d.offsetStep w)).fld F.PRT_LAUNCH_TIME i = d.fld F.PRT_LAUNCH_TIME i :=
    ((Dev.Moves.told d _).fld _ i rfl (by rintro ⟨⟩)).trans
      ((Dev.Moves.stepped d _).fld _ i rfl (by rintro (⟨⟨⟩⟩ | ⟨⟨⟨⟩⟩ | ⟨⟨⟩⟩⟩ | ⟨⟨⟩⟩)))
  rw [d.wrTmuOffset_eq w rfl, Dev.late_moveOrders]
  refine Dev.late_markLate _ (List.mem_filter.2 ⟨Dev.mem_waitingLaunches hv hdue, ?_⟩)
  rw [← htime] at hpassed
  exact hpassed

/-- A write of TMU_OFFSET steps T in a new minute; launch entries that it passes will be late (R267, R269, R275). -/
theorem tmuOffsetStep_completes (h : Reaches s m .TMU_OFFSET 0 data) : Completes (.tmuOffsetStep m data) s (fun t => Answers t 0
    ∧ (t.d.timeFull : Int) = ((s.d.timeFull : Int) + (data.toInt * 2 ^ 16 + s.d.fld F.TMU_OFFSET_FINE_STEP_FRAC 0) * 2 ^ 32) % 2 ^ 112
    ∧ t.d.tmu.frc = s.d.tmu.frc ∧ t.d.fld F.TMU_STAT_VALID 0 = 1
    ∧ t.d.fld F.TMU_STAT_STEPS 0 = min (s.d.fld F.TMU_STAT_STEPS 0 + 1) 65535 ∧ MinuteLogged s t s.d.pwr.incomplete
    ∧ (s.d.fld F.TMU_STAT_VALID 0 = 0 → s.d.fld F.TMU_CTL_SYNC 0 = 1 → s.d.fld F.TMU_STAT_LOCKED 0 = 1 → s.d.fld F.TMU_CTL_DOMAIN 0 ≠ 0 →
        Heard s → Raises s t 0x75 4 0 0)
    ∧ (∀ l k, k < 64 → s.d.fld F.PRT_LAUNCH_VALID (l * 64 + k) = 1 → s.d.launchDue (s.d.fld F.PRT_LAUNCH_TIME (l * 64 + k)) = false →
        t.d.launchDue (s.d.fld F.PRT_LAUNCH_TIME (l * 64 + k)) = true → k ∈ (t.d.port l).late)
    ∧ Only noTmuPort s t (fun r _ => r = .TMU_STAT ∨ minuteRegs r ∨ r = .PRT_RO_CTL)) := by
  have hexec : exec (.tmuOffsetStep m data) s = .next { s with d := (s.d.wrTmuOffset data).emitOut (.reg 0 0) } := by
    show execTmuOffsetStep m data s = _
    unfold execTmuOffsetStep
    rw [onDev_eq, Dev.regRow_reaches h]
  set x := s.d.offsetStep data with hx
  have hrest := Dev.Moves.restOfStep s.d data
  rw [← hx] at hrest
  have hafter := (Dev.Moves.told s.d x).trans hrest
  have hstat : ∀ g : Fld, g.rf = .TMU_STAT → ((s.d.wrTmuOffset data).emitOut (.reg 0 0)).fld g 0 = (s.d.stepped x).fld g 0 := fun g hg =>
    hafter.fld g 0 (by rw [hg]; rfl) (by rw [hg]; rintro ⟨⟩)
  refine ⟨_, hexec, answers_emitOut rfl, ?_, ?_, (hstat _ rfl).trans (s.d.valid_stepped x), (hstat _ rfl).trans (s.d.steps_stepped x), ?_,
    fun hvalid hsync hlocked hdom hheard => ?_, fun l k hk hv hdue hpassed => ?_,
    ((Dev.Moves.wrTmuOffset s.d data).trans (.emitOut _ _)).only ⟨rfl, rfl⟩⟩
  · exact (congrArg _ hafter.timeFull_of_noPorts).trans (s.d.timeFull_stepped x)
  · exact (congrArg Tmu.frc hafter.tmu_of_noPorts).trans (by rw [s.d.tmu_stepped])
  · refine Dev.Moves.minuteLogged (((((Dev.Moves.steppedFromClose s.d x).hide fun _ => rfl).mono ?_).trans ((hafter.hide fun _ => rfl).mono ?_)))
    · rintro r i hr (rfl | rfl) <;> cases hr
    · rintro r i hr (rfl | rfl) <;> cases hr
  · have htold : s.d.stepTold x = (s.d.stepped x).notice N.TIME_SYNC Src.time 0 0 := by
      have hwas : s.d.syncedNow = false := by
        unfold Dev.syncedNow
        rw [Dev.flag_of_fld hvalid]
        simp
      unfold Dev.stepTold
      rw [hwas, Dev.stepped_synced x hsync hlocked hdom]
      exact if_pos ⟨rfl, rfl⟩
    rw [htold] at hrest
    exact (Dev.Moves.stepped s.d x).raises (by rintro (⟨⟨⟩⟩ | ⟨⟨⟨⟩⟩ | ⟨⟨⟩⟩⟩ | ⟨⟨⟩⟩)) hrest
      (Dev.timeNs_congr hafter.timeFull_of_noPorts) hheard
  · have hdiv : (l * 64 + k) / 64 = l := by omega
    have hmod : (l * 64 + k) % 64 = k := by omega
    rw [Dev.launchDue_congr hrest.timeFull_of_noPorts] at hpassed
    have hlate := Dev.late_wrTmuOffset hv hdue hpassed
    rw [hdiv, hmod] at hlate
    show k ∈ (((s.d.wrTmuOffset data).emitOut (.reg 0 0)).port l).late
    rwa [Dev.port_emitOut]

end

end Sys2Proof.Machine
end

section
/-! The servo adjusts time by an estimate (R270): a step or a slew, and its judgement of SYNC. -/

namespace Sys2Proof.Machine
open Sys2Proof.Claims

/-! ## What the servo changes -/

/-- The registers that the servo's adjustments take, and those of the packet path. -/
def servoRegs (r : RF) (_ : Nat) : Prop := r.busy = true ∨ r = .TMU_RATE ∨ r = .TMU_OFFSET_FINE ∨ r = .TMU_STAT ∨ r = .TMU_CTL
  ∨ minuteRegs r ∨ r = .PRT_RO_CTL

theorem Dev.Moves.wrTmuRate {f : Dev → Dev} {may : RF → Nat → Prop} (hf : ∀ d x, f { d with tmu := x } = f d) (hm : may .TMU_RATE 0)
    (d : Dev) (w : Word) : Dev.Moves f may d (d.wrTmuRate w) :=
  (Dev.Moves.plainWrite d hm (by decide) w).trans (.setTmu hf _ _)

theorem Dev.Moves.servoStep (d : Dev) (x : Int) : Dev.Moves noTmuPort servoRegs d (d.servoStep x) := by
  refine Dev.Moves.trans (.setFld d (.inr (.inr (.inl rfl))) (by decide) _) ((Dev.Moves.wrTmuOffset _ _).mono ?_)
  rintro r - (h | h | h)
  · exact .inr (.inr (.inr (.inl h)))
  · exact .inr (.inr (.inr (.inr (.inr (.inl h)))))
  · exact .inr (.inr (.inr (.inr (.inr (.inr h)))))

theorem Dev.Moves.servoSlew (d : Dev) : Dev.Moves noTmuPort servoRegs d d.servoSlew :=
  (Dev.Moves.freeNat d).trans (.wrTmuRate (fun _ _ => rfl) (.inr (.inl rfl)) _ _)

theorem Dev.Moves.servoSync (d : Dev) (on : Nat) : Dev.Moves noPwrPort ctlRegs d (d.servoSync on) := by
  have hset : ∀ x : Dev, Dev.Moves noPwrPort ctlRegs x (x.setFld F.TMU_CTL_SYNC 0 on) := fun x => .setFld x (.inl rfl) (by decide) on
  unfold Dev.servoSync
  split
  · exact .refl d
  · refine Dev.syncEdge_keeps (R := fun x => Dev.Moves noPwrPort ctlRegs d x) (hset d) ?_ fun x hx => hx.trans ?_
    · exact (Dev.Moves.closeMinute (fun _ _ => rfl) (fun _ _ => .inr) d).trans (hset _)
    · exact ((Dev.Moves.rises x).hide fun _ => rfl).mono fun _ _ h => h.elim

theorem Dev.sync_servoSync (d : Dev) : (d.servoSync 1).fld F.TMU_CTL_SYNC 0 = 1 := by
  have hset : ∀ x : Dev, (x.setFld F.TMU_CTL_SYNC 0 1).fld F.TMU_CTL_SYNC 0 = 1 := fun x =>
    Dev.fld_setFld_self _ _ _ _ (by decide) (by decide)
  unfold Dev.servoSync
  split
  · assumption
  · exact Dev.syncEdge_keeps (R := fun x => x.fld F.TMU_CTL_SYNC 0 = 1) (hset d) (hset _) fun x hx =>
      ((Dev.Moves.rises x).fld _ 0 rfl not_false).trans hx

theorem Dev.Moves.tmu_of_noPwrPort {may : RF → Nat → Prop} {d d' : Dev} (h : Dev.Moves noPwrPort may d d') : d'.tmu = d.tmu := by
  have e := congrArg Dev.tmu h.still
  exact e

/-! ## T and the count of Sync intervals -/

/-- A step writes where T and FRC stood, and nothing else of the time unit. -/
theorem Dev.tmu_wrTmuOffset (d : Dev) (w : Word) : ∃ b, (d.wrTmuOffset w).tmu = { d.tmu with base := b, baseFrc := d.tmu.frc } := by
  refine ⟨wrapTo 112 ((d.timeFull : Int) + d.offsetStep w * 2 ^ 32), ?_⟩
  rw [d.wrTmuOffset_eq w rfl, ((Dev.Moves.told d _).trans (.afterStep d _ _)).tmu_of_noPorts]
  exact d.tmu_stepped _

theorem Dev.tmu_servoStep (d : Dev) (x : Int) : ∃ b, (d.servoStep x).tmu = { d.tmu with base := b, baseFrc := d.tmu.frc } :=
  Dev.tmu_wrTmuOffset _ _

theorem Dev.tmu_servoSlew (d : Dev) : ∃ b, d.servoSlew.tmu = { d.tmu with base := b, baseFrc := d.tmu.frc } := ⟨_, rfl⟩

/-- The count of Sync intervals in a row within ±5 ns, after one with an estimate. -/
def Dev.goodAfter (d : Dev) (est : Int) : Nat := if est.natAbs ≤ 5 * 65536 then d.tmu.good + 1 else 0

/-- The servo's count of Sync intervals in a row is `n`. -/
def Dev.setGood (d : Dev) (n : Nat) : Dev := { d with tmu := { d.tmu with good := n } }

theorem Dev.servoJudge_eq (d : Dev) (est : Int) : d.servoJudge est = if 16 ≤ d.goodAfter est then (d.setGood (d.goodAfter est)).servoSync 1
    else if 50 * 65536 < est.natAbs then (d.setGood (d.goodAfter est)).servoSync 0 else d.setGood (d.goodAfter est) := rfl

theorem Dev.tmu_servoJudge (d : Dev) (est : Int) : (d.servoJudge est).tmu = { d.tmu with good := d.goodAfter est } := by
  have hsync : ∀ (x : Dev) on, (x.servoSync on).tmu = x.tmu := fun x on => (Dev.Moves.servoSync x on).tmu_of_noPwrPort
  have hset : ∀ n, (d.setGood n).tmu = { d.tmu with good := n } := fun _ => rfl
  rw [d.servoJudge_eq]
  split
  · rw [hsync, hset]
  · split
    · rw [hsync, hset]
    · exact hset _

theorem Dev.sync_servoJudge {d : Dev} {est : Int} (h : 16 ≤ d.goodAfter est) : (d.servoJudge est).fld F.TMU_CTL_SYNC 0 = 1 := by
  rw [d.servoJudge_eq, if_pos h]
  exact Dev.sync_servoSync _

theorem Dev.Moves.servoJudge (d : Dev) (est : Int) : Dev.Moves noTmuPort servoRegs d (d.servoJudge est) := by
  have hsync : ∀ (x : Dev) on, Dev.Moves noTmuPort servoRegs x (x.servoSync on) := fun x on => by
    refine ((Dev.Moves.servoSync x on).hide fun _ => rfl).mono ?_
    rintro r - (h | h)
    · exact .inr (.inr (.inr (.inr (.inl h))))
    · exact .inr (.inr (.inr (.inr (.inr (.inl h)))))
  have hgood : ∀ n, Dev.Moves noTmuPort servoRegs d (d.setGood n) := fun _ => .setTmu (fun _ _ => rfl) d _
  rw [d.servoJudge_eq]
  split
  · exact (hgood _).trans (hsync _ _)
  · split
    · exact (hgood _).trans (hsync _ _)
    · exact hgood _

/-- The servo adjusts time: what it changes, and what becomes of its count of Sync intervals and of SYNC. -/
structure Dev.Adjusted (d d' : Dev) : Prop where
  moves : Dev.Moves noTmuPort servoRegs d d'
  tmu : ∃ b n, d'.tmu = { d.tmu with base := b, baseFrc := d.tmu.frc, good := n } ∧ (n = 0 ∨ n = d.tmu.good + 1)
  sync : 16 ≤ d'.tmu.good → d'.fld F.TMU_CTL_SYNC 0 = 1

theorem Dev.adjusted_servoAdjust (d : Dev) (origin : Nat) (corrs : List Nat) : d.Adjusted (d.servoAdjust origin corrs) := by
  obtain ⟨est, y, hy, hmoves, b, htmu⟩ : ∃ est y, d.servoAdjust origin corrs = y.servoJudge est ∧ Dev.Moves noTmuPort servoRegs d y
      ∧ ∃ b, y.tmu = { d.tmu with base := b, baseFrc := d.tmu.frc } := by
    refine ⟨_, _, rfl, ?_⟩
    split
    · exact ⟨(Dev.Moves.freeNat d).trans (.servoStep _ _), Dev.tmu_servoStep _ _⟩
    · exact ⟨(Dev.Moves.freeNat d).trans (.servoSlew _), Dev.tmu_servoSlew _⟩
  have hjudge := y.tmu_servoJudge est
  rw [hy]
  refine ⟨hmoves.trans (.servoJudge y est), ⟨b, y.goodAfter est, by rw [hjudge, htmu], ?_⟩, fun h => ?_⟩
  · unfold Dev.goodAfter
    rw [htmu]
    split
    · exact .inr rfl
    · exact .inl rfl
  · rw [hjudge] at h
    exact Dev.sync_servoJudge h

end Sys2Proof.Machine
end

section
/-! The counters of the time unit while the device routes a packet of its own on VL7 (R49, R58, R73, R339): the packet path counts
there only what it corrects or discards by R274. -/

namespace Sys2Proof.Machine
open Sys2Proof.Claims

/-- `d'` has made nothing more than `d`, and the time unit's counters read the same. -/
structure Dev.Passes (d d' : Dev) : Prop where
  counts : ∀ c < 64, d'.fld F.CNT_VAL_VALUE (cntIdx 4 c) = d.fld F.CNT_VAL_VALUE (cntIdx 4 c)
  outbox : d'.net.outbox = d.net.outbox

/-- A TIME.PTP message that the device has made. -/
structure Pkt.OwnTime (p : Pkt) : Prop where
  internal : p.internal = true
  own : p.own = true
  vl : p.vl = 7
  opc : p.opc = 0x50
  plain : p.psnValid = false

namespace Dev.Passes
variable {a d d' : Dev}

theorem refl (d : Dev) : d.Passes d := ⟨fun _ _ => rfl, rfl⟩

theorem trans (h : a.Passes d) (k : d.Passes d') : a.Passes d' :=
  ⟨fun c hc => (k.counts c hc).trans (h.counts c hc), k.outbox.trans h.outbox⟩

theorem of_regs (hr : d'.regs = d.regs) (hf : d'.fuse = d.fuse) (ho : d'.net.outbox = d.net.outbox) : d.Passes d' :=
  ⟨fun _ _ => Dev.fld_of_regs hr hf _ _, ho⟩

theorem each {α : Type} (l : List α) {f : Dev → α → Dev} (hf : ∀ d x, Dev.Passes d (f d x)) (d : Dev) : d.Passes (d.each l f) :=
  Dev.each_induct (R := fun x => d.Passes x) (fun y x _ hy => hy.trans (hf y x)) (refl d)

theorem noticeLim (d : Dev) (ty src prod data key : Nat) : d.Passes (d.noticeLim ty src prod data key) :=
  ⟨fun _ _ => d.fld_noticeLim_count ty src prod data key _, congrArg Net.outbox ((Dev.Logs.refl d).noticeLim ty src prod data key).net⟩

theorem count (d : Dev) {inst idx : Nat} (hi : inst ≠ 4) (hx : idx < 64) : d.Passes (d.count inst idx 1) :=
  ⟨fun _ hc => d.fld_count_of_inst_ne hi hc hx 1, congrArg Net.outbox ((Dev.Logs.refl d).count inst idx 1).net⟩

theorem setFld (d : Dev) {f : Fld} (hf : f.rf ≠ .CNT_VAL) (i v : Nat) : d.Passes (d.setFld f i v) :=
  ⟨fun _ _ => congrArg (bitsOf · _ _) (Dev.rd_setFld_of_ne _ _ _ _ _ _ fun e => hf e.1.symm), rfl⟩

theorem modPkt (d : Dev) (id : Nat) (f : Pkt → Pkt) : d.Passes (d.modPkt id f) := of_regs rfl rfl rfl
theorem moveTo (d : Dev) (id : Nat) (pl : Place) : d.Passes (d.moveTo id pl) := of_regs rfl rfl rfl
theorem setLv (d : Dev) (k : Nat) (x : LaneVl) : d.Passes (d.setLv k x) := of_regs rfl rfl rfl
theorem addBuf (d : Dev) (b : Buf) : d.Passes (d.addBuf b).2 := of_regs rfl rfl rfl

theorem endPkt (d : Dev) (id : Nat) : d.Passes (d.endPkt id) := ⟨fun _ _ => d.fld_endPkt id (by decide) _, d.outbox_endPkt id⟩

/-! ### Lookups -/

theorem noteParity (d : Dev) (t i : Nat) : d.Passes (d.noteParity t i) := (count d (by decide) (by decide)).trans (noticeLim _ _ _ _ _ _)

theorem look (d : Dev) (t i : Nat) : d.Passes (d.look t i).2 := by
  unfold Dev.look
  split
  · exact refl d
  · split
    · exact noteParity d t i
    · exact refl d

theorem routeEntry (d : Dev) (t n : Nat) (v s : Fld) : d.Passes (d.routeEntry t n v s).2 := by
  unfold Dev.routeEntry
  split
  · exact refl d
  · split
    · exact noteParity d t n
    · exact refl d

theorem arithmetic (d : Dev) (t : Nat) : d.Passes (d.arithmetic t).2 := by
  unfold Dev.arithmetic
  split
  · exact refl d
  · split
    · exact routeEntry d _ _ _ _
    · exact routeEntry d _ _ _ _

theorem tcamCoord (d : Dev) (prod dst : Nat) : d.Passes (d.tcamCoord prod dst).2 := by
  exact each _ (fun d (x : Nat × BitVec 512) => noteParity d 0 x.1) d

/-- Resolution passes, whatever it comes to. -/
theorem routeSet (d : Dev) (p : Pkt) : d.Passes (d.routeSet p).2 := by
  have hcoord := tcamCoord d p.prod p.dst.toNat
  unfold Dev.routeSet
  split
  next e =>
    rw [e] at hcoord
    split <;> exact hcoord
  next d₁ e =>
    rw [e] at hcoord
    have harith := hcoord.trans (arithmetic d₁ p.dst.toNat)
    split
    next e₂ => rw [e₂] at harith; exact harith
    next e₂ => rw [e₂] at harith; exact harith

theorem members (d : Dev) (s : Nat) : d.Passes (d.members s).2 := (look d 2 (2 * s)).trans (look _ 2 (2 * s + 1))

theorem checkSpray (d : Dev) (s : Nat) (ms : List (Nat × List Nat)) : d.Passes (d.checkSpray s ms) := by
  refine each _ (fun d m => ?_) d
  split
  · exact refl d
  · split
    · exact refl d
    · exact noticeLim d _ _ _ _ _

theorem noteRoute (d : Dev) (p : Pkt) (cause data : Nat) : d.Passes (d.noteRoute p cause data) := by
  unfold Dev.noteRoute
  split
  · exact noticeLim d _ _ _ _ _
  · exact refl d
  · exact noticeLim d _ _ _ _ _
  · exact noticeLim d _ _ _ _ _

/-- The cells of an internal source. -/
theorem chargeSource (d : Dev) (k : Nat) (p : Pkt) {x : Nat × Dev} (hx : d.chargeSource k p = some x) : d.Passes x.2 := by
  have hshare : ∀ (d : Dev) n o, d.Passes ((d.addUsed p.prod n).when o (fun d => d.countWrd C.QUOTA_OVER)) := by
    intro d n o
    have hused : d.Passes (d.addUsed p.prod n) := setFld d (by decide) _ _
    cases o with
    | false => exact hused
    | true => exact hused.trans (count (inst := 2) (idx := C.QUOTA_OVER) _ (by decide) (by decide))
  unfold Dev.chargeSource at hx
  dsimp only at hx
  split at hx
  · cases hx
    exact (setLv d _ _).trans (addBuf _ _)
  · split at hx
    · cases hx
      exact ((setLv d _ _).trans (hshare _ _ _)).trans (addBuf _ _)
    · cases hx

theorem chargeColl (d : Dev) (id : Nat) {x : Dev} (hx : d.chargeColl id = some x) : d.Passes x := by
  unfold Dev.chargeColl at hx
  split at hx
  · cases hx; exact refl d
  · split at hx
    · cases hx; exact refl d
    · split at hx
      · cases hx; exact of_regs rfl rfl rfl
      · cases hx

theorem chargeOut (d : Dev) (p : Pkt) {x : Nat × Dev} (hx : d.chargeOut p = some x) : d.Passes x.2 := by
  unfold Dev.chargeOut at hx
  split at hx
  · exact chargeSource d _ _ hx
  · obtain ⟨y, hy, rfl⟩ := Option.map_eq_some_iff.1 hx
    exact chargeColl d _ hy

/-! ### What becomes of the message -/

section
variable {p : Pkt} (hp : p.OwnTime)
include hp

/-- A packet on VL7 takes a lane by its flow's hash. -/
theorem select (d : Dev) (s : Nat) (o : Bool) : d.Passes (d.select p s o).2 := by
  have hms : d.Passes ((d.members s).2.checkSpray s (d.members s).1) := (members d s).trans (checkSpray _ _ _)
  have hflow : ¬ p.perPacket = true := by simp [Pkt.perPacket, hp.vl]
  unfold Dev.select
  dsimp only
  rw [if_neg hflow]
  split
  · exact hms
  · split
    · exact hms
    · split <;> exact hms

theorem discardAs (d : Dev) (c : Nat) : d.Passes (d.discardAs p c) := by
  unfold Dev.discardAs
  rw [if_pos hp.internal]
  exact count d (by decide) (by decide)

theorem discardOther (d : Dev) : d.Passes (d.discardOther p) := by
  unfold Dev.discardOther
  rw [if_pos hp.internal]
  exact count d (by decide) (by decide)

theorem refuse (d : Dev) (st : Nat) {drop : Dev → Dev} (hd : d.Passes (drop d)) : d.Passes (d.refuse p st drop) := by
  have hreq : p.isReq = false := by simp [Pkt.isReq, hp.vl]
  have hcontrib : p.isContrib = false := by simp [Pkt.isContrib, hp.vl]
  unfold Dev.refuse
  rw [hreq, hcontrib]
  exact hd.trans (endPkt _ _)

theorem refuseReq (d : Dev) (st : Nat) {drop : Dev → Dev} (hd : d.Passes (drop d)) : d.Passes (d.refuseReq p st drop) := by
  have hreq : p.isReq = false := by simp [Pkt.isReq, hp.vl]
  unfold Dev.refuseReq
  rw [hreq]
  exact hd.trans (endPkt _ _)

theorem unsupported (d : Dev) : d.Passes (d.unsupported p) := refuse hp d _ (discardOther hp d)

theorem refuseRoute (d : Dev) (cause s : Nat) : d.Passes (d.refuseRoute p cause s) := by
  have hmis : d.miscast p s = false := by simp [Dev.miscast, hp.vl]
  have hnote := noteRoute d p cause (p.laneData + s * 2 ^ 32 + p.dst.toNat)
  unfold Dev.refuseRoute
  rw [if_neg (by simp [hmis])]
  exact hnote.trans (refuse hp _ _ (discardAs hp _ _))

/-- At this device, FN 0x00 alone takes it. -/
theorem toLocal (d : Dev) : d.Passes (d.toLocal p) := by
  unfold Dev.toLocal
  generalize bitsOf p.dst 7 0 = fn
  dsimp only
  rw [if_neg (by simp [hp.vl])]
  split
  · unfold Dev.toBolt
    rw [if_neg (by simp [hp.vl])]
    exact unsupported hp d
  · split
    · unfold Dev.toLoom
      rw [if_neg (by simp [hp.vl, hp.opc])]
      exact unsupported hp d
    · split
      · unfold Dev.toPrompter
        rw [if_neg (by simp [hp.vl]), if_pos (.inr hp.opc)]
        exact moveTo d _ _
      · split
        · exact unsupported hp d
        · exact refuseReq hp d _ (discardAs hp d _)

end

/-- It joins its lane's queue unmarked and unchecked. -/
theorem enqueue (d : Dev) {id l : Nat} (hp : ∀ p, d.pkt id = some p → p.OwnTime) : d.Passes (d.enqueue id l) := by
  unfold Dev.enqueue
  split
  · exact refl d
  next p hpkt =>
    have hown := hp p hpkt
    have hmark : d.Passes (d.markPkt p l) := by
      have hnone : ∀ depth, d.queueMark l p.vl depth = 0 := fun depth => if_pos (.inr hown.vl)
      unfold Dev.markPkt Dev.countMark
      rw [hnone]
      exact modPkt d _ _
    have hcheck : (d.markPkt p l).egressCheck p l = none := by
      unfold Dev.egressCheck
      rw [if_neg (by simp [hown.own])]
    dsimp only
    rw [hcheck]
    dsimp only
    rw [if_neg (by simp [hown.vl, hown.plain])]
    exact hmark.trans (moveTo _ _ _)

end Dev.Passes

namespace Pkt.OwnTime
variable {p : Pkt} (hp : p.OwnTime)
include hp

theorem setRw {hi lo : Nat} (v : Nat) (hl : lo ≤ hi) (h : hi < 30 ∨ 30 < lo) : (p.setRw hi lo v).OwnTime :=
  ⟨hp.internal, hp.own, hp.vl, hp.opc, (p.psnValid_setRw v hl h).trans hp.plain⟩

theorem withRoute (r : Option Route) : { p with route := r }.OwnTime := ⟨hp.internal, hp.own, hp.vl, hp.opc, hp.plain⟩

theorem numberPkt (d : Dev) (n : Nat) : d.numberPkt p n = some (none, d) := by
  simp [Dev.numberPkt, Pkt.takesPsn, Pkt.perPacket, hp.vl]

theorem quotaMark (d : Dev) : (d.quotaMark p).OwnTime := by
  unfold Dev.quotaMark
  split
  · exact ⟨hp.internal, hp.own, hp.vl, (bitsOf_setBits_of_disjoint _ _ _ _ _ _ (by decide) (by decide) (.inr (by decide))).trans hp.opc,
      hp.plain⟩
  · exact hp

theorem leaving (d : Dev) (l : Nat) (o : Bool) (b : Nat) : { d.leaving p l o none with buf := b }.OwnTime := by
  have hturn : { p with vl := d.vlOut p l }.OwnTime := ⟨hp.internal, hp.own, by simp [Dev.vlOut, hp.vl], hp.opc, hp.plain⟩
  have hdetour : (if d.detourOut p l o then { p with vl := d.vlOut p l }.setRw 31 31 1 else { p with vl := d.vlOut p l }).OwnTime := by
    split
    · exact hturn.setRw _ (by decide) (.inr (by decide))
    · exact hturn
  obtain ⟨hinternal, hown, hvl, hopc, hplain⟩ := hdetour.setRw (hi := 29) (lo := 24) 16 (by decide) (.inl (by decide))
  unfold Dev.leaving
  rw [if_pos hp.internal]
  exact ⟨hinternal, hown, hvl, hopc, hplain⟩

end Pkt.OwnTime

/-! ## Routing it -/

namespace Dev.Passes
variable {p : Pkt} (hp : p.OwnTime)

section
include hp

theorem takeLane (d : Dev) (l n : Nat) (o : Bool) : d.Passes (d.takeLane p l n o) := by
  have hmark : (if p.buf = 0 then d.quotaMark p else p).OwnTime := by
    split
    · exact hp.quotaMark d
    · exact hp
  unfold Dev.takeLane
  rw [hp.numberPkt]
  dsimp only
  split
  · exact refl d
  · next y hy =>
    refine (chargeOut d _ hy).trans ((modPkt _ _ _).trans (enqueue _ fun x hx => ?_))
    rw [Dev.eq_of_pkt_modPkt hx]
    exact hmark.leaving d l o _

theorem proceed (d : Dev) (r : Route) : d.Passes (d.proceed p r) := by
  unfold Dev.proceed
  split
  · exact refl d
  · split
    · exact toLocal hp d
    next s o =>
      have hsel := select hp d s o
      split
      next e =>
        rw [e] at hsel
        exact hsel.trans (takeLane hp _ _ _ _)
      next e =>
        rw [e] at hsel
        exact hsel
      next e =>
        rw [e] at hsel
        exact hsel.trans (refuseRoute hp _ _ _)

theorem routed (d : Dev) (r : Route) : d.Passes (d.routed p r) := (modPkt d _ _).trans (proceed (hp.withRoute _) _ r)

end

theorem forward (d : Dev) {i : Nat} (hp : ∀ p, d.pkt i = some p → p.OwnTime) : d.Passes (d.forward i) := by
  unfold Dev.forward
  split
  · exact refl d
  next p hpkt =>
    have hown := hp p hpkt
    split
    · exact proceed hown d _
    · split
      · exact routed hown d _
      · split
        next hhops => simp [hown.internal] at hhops
        · have hset := routeSet d p
          split
          next e =>
            rw [e] at hset
            exact hset.trans (refuseRoute hown _ _ _)
          next e =>
            rw [e] at hset
            exact hset.trans (routed hown _ _)

end Dev.Passes

/-- A message of the device's own, alone among packets, is routed without a count in the time unit. -/
theorem Dev.passes_settle {d : Dev} {q : Pkt} (hpkts : d.net.pkts = []) (hout : d.net.outbox = [q]) (hq : q.OwnTime) :
    ∀ c < 64, d.settle.fld F.CNT_VAL_VALUE (cntIdx 4 c) = d.fld F.CNT_VAL_VALUE (cntIdx 4 c) := by
  obtain ⟨d₁, hd₁, hmade, hempty, hregs, hfuse⟩ : ∃ d₁ : Dev,
      d₁.pkt d.net.nextId = some { q with id := d.net.nextId, frcIn := d.tmu.frc }
      ∧ d.sendMade = d₁.forward d.net.nextId ∧ d₁.net.outbox = [] ∧ d₁.regs = d.regs ∧ d₁.fuse = d.fuse := by
    refine ⟨({ d with net := { d.net with outbox := [] } }.addPkt q).2, ?_, ?_, rfl, rfl, rfl⟩
    · exact Dev.pkt_of_single (p := { q with id := d.net.nextId, frcIn := d.tmu.frc }) (by simp [Dev.addPkt, hpkts])
    · unfold Dev.sendMade
      rw [hout]
      rfl
  have hpasses : d₁.Passes (d₁.forward d.net.nextId) := by
    refine Dev.Passes.forward d₁ fun p hp => ?_
    cases hd₁.symm.trans hp
    exact ⟨hq.internal, hq.own, hq.vl, hq.opc, hq.plain⟩
  have hsettle : d.settle = d₁.forward d.net.nextId := by
    unfold Dev.settle
    rw [hmade, Dev.sendMade_of_empty (hpasses.outbox.trans hempty)]
  rw [hsettle]
  exact fun c hc => (hpasses.counts c hc).trans (Dev.fld_of_regs hregs hfuse _ _)

/-- So the packet path is all that changes. -/
theorem Dev.Moves.settle {d : Dev} {q : Pkt} (hpkts : d.net.pkts = []) (hout : d.net.outbox = [q]) (hq : q.OwnTime) :
    Dev.Moves noNet busyRegs d d.settle := by
  obtain ⟨hstill, hregs, hfollows⟩ := (keepsBusy d).settle (.refl d)
  exact ⟨hstill, hregs, hfollows.relay, Dev.passes_settle hpkts hout hq⟩

end Sys2Proof.Machine
end

section
/-! TIME.PTP at FN 0x00 (R53, R270, R274): whether the message is discarded, counted, or taken by the servo. -/

namespace Sys2Proof.Machine
open Sys2Proof.Claims

/-! ## The message -/

theorem Pkt.opx_pod (p : Pkt) : p.opx / 256 % 256 = bitsOf p.rw 15 8 := by
  unfold Pkt.opx bitsOf
  simp only [Nat.shiftRight_eq_div_pow]
  omega

theorem Pkt.opx_domain (p : Pkt) : p.opx % 256 = bitsOf p.rw 7 0 := by
  unfold Pkt.opx bitsOf
  simp only [Nat.shiftRight_eq_div_pow]
  omega

/-- Its messageType is Sync or Delay_Req. -/
def Pkt.ptpEvents (p : Pkt) : Bool := (p.ptpType.map ptpEvent).getD false

/-- The device once a message that ends here is corrected as delivered. -/
def Dev.ptpCounted (d : Dev) (p : Pkt) : Dev := if p.ptpEvents then d.countTmu C.PTP_CORRECTED else d

/-- The message as corrected on its delivery. -/
def Dev.ptpHeld (d : Dev) (p : Pkt) : Pkt := if p.ptpEvents then d.correct { p with frcOut := d.tmu.frc } else p

/-- What TIME_PTP makes of a whole message, before the packet ends. -/
def Dev.ptpTaken (d : Dev) (p : Pkt) : Dev :=
  match d.ptpDrop p with
  | some c => d.countTmu c
  | none =>
    if p.opx / 256 % 256 ≠ d.fld F.TMU_CTL_DOMAIN 0 then d.countTmu C.TIME_FOREIGN
    else if (d.ptpCounted p).flag F.TMU_CTL_SERVO 0 ∧ !(d.ptpCounted p).prompterHalt ∧ p.opx % 256 = Config.ptpDomain % 256 then
      (d.ptpCounted p).servoTake p (d.ptpHeld p)
    else d.ptpCounted p

/-! ## Whether it is discarded -/

theorem Dev.ptpDrop_of_pdelay {d : Dev} {p : Pkt} {k : Nat} (ht : p.ptpType = some k) (hk : k = 2 ∨ k = 3 ∨ k = 0xA) :
    d.ptpDrop p = some C.PTP_PDELAY_DROP := by
  have hpdelay : ptpPdelay k = true := by rcases hk with rfl | rfl | rfl <;> rfl
  unfold Dev.ptpDrop
  rw [ht]
  exact if_pos hpdelay

theorem ptpEvent_iff {k : Nat} : ptpEvent k = true ↔ k = 0 ∨ k = 1 := by simp [ptpEvent]
theorem ptpPdelay_iff {k : Nat} : ptpPdelay k = true ↔ k ∈ [2, 3, 0xA] := by simp [ptpPdelay, or_assoc]

theorem Dev.ptpDrop_of_noTime {d : Dev} {p : Pkt} {k : Nat} (ht : p.ptpType = some k) (hk : k = 0 ∨ k = 1)
    (hlock : d.fld F.TMU_STAT_LOCKED 0 = 0) : d.ptpDrop p = some C.PTP_NO_TIME := by
  have hpdelay : ¬ ptpPdelay k = true := by rcases hk with rfl | rfl <;> decide
  have hnotime : (ptpEvent k && !d.flag F.TMU_STAT_LOCKED 0) = true := by simp [ptpEvent_iff.2 hk, Dev.flag, hlock]
  unfold Dev.ptpDrop
  rw [ht]
  exact (if_neg hpdelay).trans (if_pos hnotime)

theorem Dev.ptpDrop_eq_none {d : Dev} {p : Pkt}
    (h : ∀ k, p.ptpType = some k → k ∉ [2, 3, 0xA] ∧ (k = 0 ∨ k = 1 → d.fld F.TMU_STAT_LOCKED 0 = 1)) : d.ptpDrop p = none := by
  unfold Dev.ptpDrop
  cases ht : p.ptpType with
  | none => rfl
  | some k =>
    obtain ⟨hpdelay, hlock⟩ := h k ht
    have hnotime : ¬ (ptpEvent k && !d.flag F.TMU_STAT_LOCKED 0) = true := by
      intro hev
      rw [Bool.and_eq_true, ptpEvent_iff] at hev
      simp [Dev.flag, hlock hev.1] at hev
    exact (if_neg fun e => hpdelay (ptpPdelay_iff.1 e)).trans (if_neg hnotime)

/-! ## The command -/

section
variable {s : State} {p : Pkt}

theorem timePtp_makes {vl : Nat} (h : AtFn s p 0 vl 0x50) : MakesThenRoutes (.timePtp p.id) s ((s.d.ptpTaken p).endPkt p.id) := by
  refine ⟨?_, rfl⟩
  show timePtpMade p.id s = _
  simp only [timePtpMade, onDev_eq, pkt_of_atFn h, Dev.whenSome_some]
  rw [show (p.place == .atFn 0 && p.opc == 0x50 && p.whole) = true by simp [h.place, h.opc, h.whole]]
  rfl

theorem ptpTaken_of_drop {c : Nat} (h : s.d.ptpDrop p = some c) : s.d.ptpTaken p = s.d.countTmu c := by
  unfold Dev.ptpTaken
  rw [h]

theorem ptpTaken_of_foreign (h : s.d.ptpDrop p = none) (hpod : bitsOf p.rw 15 8 ≠ s.d.fld F.TMU_CTL_DOMAIN 0) :
    s.d.ptpTaken p = s.d.countTmu C.TIME_FOREIGN := by
  unfold Dev.ptpTaken
  rw [h]
  exact if_pos (by rwa [p.opx_pod])

theorem Dev.Logs.tmu {d d' : Dev} (h : d.Logs d') : d'.tmu = d.tmu := by have e := congrArg Dev.tmu h.still; exact e

theorem logs_ptpCounted (d : Dev) (p : Pkt) : d.Logs (d.ptpCounted p) := by
  unfold Dev.ptpCounted
  split
  · exact (Dev.Logs.refl d).count _ _ _
  · exact .refl d

/-- A message of the device's own pod that is kept is the servo's where it runs and the domain is its own. -/
theorem ptpTaken_of_kept (h : s.d.ptpDrop p = none) (hpod : bitsOf p.rw 15 8 = s.d.fld F.TMU_CTL_DOMAIN 0) :
    s.d.ptpTaken p = if (s.d.fld F.TMU_CTL_SERVO 0 = 1 ∧ s.d.prompterHalt = false) ∧ bitsOf p.rw 7 0 = Config.ptpDomain % 256 then
      (s.d.ptpCounted p).servoTake p (s.d.ptpHeld p) else s.d.ptpCounted p := by
  have hlogs := logs_ptpCounted s.d p
  have hservo : (s.d.ptpCounted p).fld F.TMU_CTL_SERVO 0 = s.d.fld F.TMU_CTL_SERVO 0 := congrArg (bitsOf · _ _) (hlogs.regs _ _ rfl)
  have hhalt : (s.d.ptpCounted p).prompterHalt = s.d.prompterHalt := by have e := congrArg Dev.prompterHalt hlogs.still; exact e
  unfold Dev.ptpTaken
  rw [h]
  dsimp only
  rw [if_neg (by simp [p.opx_pod, hpod]), Dev.flag, hservo, hhalt, p.opx_domain]
  simp only [beq_iff_eq, Bool.not_eq_eq_eq_not, Bool.not_true, and_assoc]

theorem ptpTaken_of_servo {k : Nat} (h : ServoTakes s p k) : s.d.ptpTaken p = (s.d.ptpCounted p).servoTake p (s.d.ptpHeld p) := by
  rw [ptpTaken_of_kept h.kept h.pod]
  exact if_pos ⟨h.runs, h.domain⟩

theorem Dev.servoFollow_of_not (h : ¬ FollowsSync s p) {d : Dev} (ht : d.tmu = s.d.tmu) : d.servoFollow p = d := by
  unfold Dev.servoFollow
  rw [ht]
  split
  next key corr e => exact if_neg fun (hk : key = p.ptpKey) => h ⟨corr, hk ▸ e⟩
  · rfl

theorem Dev.servoResp_of_not (h : ¬ AnswersReq s p) {d : Dev} (ht : d.tmu = s.d.tmu) : d.servoResp p = d := by
  unfold Dev.servoResp
  rw [ht]
  exact if_neg h

/-- The servo takes a Sync, the Follow_Up that it waits for and the answer to its Delay_Req, and nothing else. -/
theorem ptpTaken_of_idle (hsync : ¬ ServoTakes s p 0) (hfollow : ¬ (ServoTakes s p 8 ∧ FollowsSync s p))
    (hresp : ¬ (ServoTakes s p 9 ∧ AnswersReq s p)) (h : s.d.ptpDrop p = none) (hpod : bitsOf p.rw 15 8 = s.d.fld F.TMU_CTL_DOMAIN 0) :
    s.d.ptpTaken p = s.d.ptpCounted p := by
  have htmu : (s.d.ptpCounted p).tmu = s.d.tmu := (logs_ptpCounted s.d p).tmu
  rw [ptpTaken_of_kept h hpod]
  split
  next hears =>
    have htakes : ∀ k, p.ptpType = some k → ServoTakes s p k := fun k ht => ⟨hears.1, ht, h, hpod, hears.2⟩
    unfold Dev.servoTake
    split
    next ht => exact absurd (htakes 0 ht) hsync
    next ht => exact Dev.servoFollow_of_not (fun hf => hfollow ⟨htakes 8 ht, hf⟩) htmu
    next ht => exact Dev.servoResp_of_not (fun hr => hresp ⟨htakes 9 ht, hr⟩) htmu
    · rfl
  · rfl

/-- A message that the servo does not take is counted at most. -/
theorem logs_ptpTaken (hsync : ¬ ServoTakes s p 0) (hfollow : ¬ (ServoTakes s p 8 ∧ FollowsSync s p))
    (hresp : ¬ (ServoTakes s p 9 ∧ AnswersReq s p)) : s.d.Logs (s.d.ptpTaken p) := by
  have hcount : ∀ c, s.d.Logs (s.d.countTmu c) := fun c => (Dev.Logs.refl s.d).count _ _ _
  cases hdrop : s.d.ptpDrop p with
  | some c => rw [ptpTaken_of_drop hdrop]; exact hcount c
  | none =>
    by_cases hpod : bitsOf p.rw 15 8 = s.d.fld F.TMU_CTL_DOMAIN 0
    · rw [ptpTaken_of_idle hsync hfollow hresp hdrop hpod]
      exact logs_ptpCounted s.d p
    · rw [ptpTaken_of_foreign hdrop hpod]
      exact hcount _

end

end Sys2Proof.Machine
end

section
/-! What the servo leaves when it takes a Sync, its Follow_Up, or the answer to its Delay_Req (R270), and what TIME_PTP counts. -/

namespace Sys2Proof.Machine
open Sys2Proof.Claims

/-! ## The packet ends, and what is made is routed -/

theorem Dev.Moves.endPkt (d : Dev) (id : Nat) : Dev.Moves noNet busyRegs d (d.endPkt id) := by
  cases hp : d.pkt id with
  | none => unfold Dev.endPkt; rw [hp]; exact .refl d
  | some p =>
    have hfrees := Dev.Frees.endPkt hp
    have hrelay : (d.endPkt id).relay = d.relay := by have e := congrArg Dev.relay hfrees.still; exact e
    have hstill : noNet (d.endPkt id).still = noNet d.still := by have e := congrArg (fun x : Dev => noNet x.still) hfrees.still; exact e
    exact ⟨hstill, fun r i _ hr => d.rd_endPkt id (fun e => hr (by rw [e]; rfl)) i, hrelay ▸ List.prefix_refl _,
      fun _ _ => d.fld_endPkt id (by decide) _⟩

theorem Dev.Moves.net (d : Dev) (n : Net) {f : Dev → Dev} {may : RF → Nat → Prop} (hf : ∀ d n, f { d with net := n } = f d) :
    Dev.Moves f may d { d with net := n } := .of_regs (hf d.still n) rfl rfl rfl

theorem Dev.Moves.tmu_of_noNet {may : RF → Nat → Prop} {d d' : Dev} (h : Dev.Moves noNet may d d') : d'.tmu = d.tmu := by
  have e := congrArg Dev.tmu h.still
  exact e

theorem Dev.Moves.net_of_noTmu {may : RF → Nat → Prop} {d d' : Dev} (h : Dev.Moves noTmu may d d') : d'.net = d.net := by
  have e := congrArg Dev.net h.still
  exact e

theorem Dev.Moves.pkts_of_noTmuPort {may : RF → Nat → Prop} {d d' : Dev} (h : Dev.Moves noTmuPort may d d') :
    d'.net.pkts = d.net.pkts ∧ d'.net.outbox = d.net.outbox := by
  have e := congrArg (fun x : Dev => (x.net.pkts, x.net.outbox)) h.still
  exact Prod.mk.inj e

/-- The device `d` ends its one packet, and routes what it has made. -/
def Dev.closed (d : Dev) (p : Pkt) : Dev := (d.endPkt p.id).settle

section
variable {d : Dev} {p q : Pkt}

theorem Dev.closed_of_empty (hout : d.net.outbox = []) : d.closed p = d.endPkt p.id :=
  Dev.settle_of_empty ((d.outbox_endPkt p.id).trans hout)

theorem Dev.Moves.closed_of_empty (hout : d.net.outbox = []) : Dev.Moves noNet busyRegs d (d.closed p) := by
  rw [Dev.closed_of_empty hout]
  exact .endPkt d p.id

theorem Dev.pkts_closed (hpkts : d.net.pkts = [p]) (hout : d.net.outbox = []) : (d.closed p).net.pkts = [] := by
  rw [Dev.closed_of_empty hout]
  exact Dev.pkts_endPkt_of_only hpkts

theorem Dev.Moves.closed_of_made (hpkts : d.net.pkts = [p]) (hout : d.net.outbox = [q]) (hq : q.OwnTime) :
    Dev.Moves noNet busyRegs d (d.closed p) :=
  (Dev.Moves.endPkt d p.id).trans (.settle (Dev.pkts_endPkt_of_only hpkts) ((d.outbox_endPkt p.id).trans hout) hq)

end

/-! ## What the servo takes -/

/-- The servo holds what a Sync brings. -/
def Dev.syncTaken (d : Dev) (p q : Pkt) : Dev :=
  { d with tmu := { d.tmu with syncIn := some (ptpTime (d.timeUnits - d.residence p.frcIn d.tmu.frc)),
                               syncWait := if p.twoStep then some (p.ptpKey, q.ptpCorr) else none } }

/-- The servo sends a Delay_Req, and counts its sequence number up. -/
def Dev.reqSent (d : Dev) (q : Pkt) : Dev :=
  { d.send q with tmu := { d.tmu with reqSeq := (d.tmu.reqSeq + 1) % 65536 } }

/-- The servo waits for no Follow_Up any more. -/
def Dev.waitOver (d : Dev) : Dev := { d with tmu := { d.tmu with syncWait := none } }

theorem Dev.servoUse_oneStep (d : Dev) {p : Pkt} (q : Pkt) (h : p.twoStep = false) : d.servoUse p q
    = ((d.syncTaken p q).servoAdjust q.ptpStamp [q.ptpCorr]).reqSent ((d.syncTaken p q).delayReq p) := by
  unfold Dev.servoUse
  dsimp only
  rw [if_neg (show ¬ p.twoStep = true by simp [h])]
  rfl

theorem Dev.servoUse_twoStep (d : Dev) {p : Pkt} (q : Pkt) (h : p.twoStep = true) :
    d.servoUse p q = (d.syncTaken p q).reqSent ((d.syncTaken p q).delayReq p) := by
  unfold Dev.servoUse
  dsimp only
  rw [if_pos h]
  rfl

theorem Dev.servoFollow_of_waits {d : Dev} {p : Pkt} {c : Nat} (h : d.tmu.syncWait = some (p.ptpKey, c)) :
    d.servoFollow p = d.waitOver.servoAdjust p.ptpStamp [c, p.ptpCorr] := by
  unfold Dev.servoFollow
  rw [h]
  exact if_pos rfl

theorem Dev.ownTime_delayReq (d : Dev) (p : Pkt) : (d.delayReq p).OwnTime :=
  ⟨rfl, rfl, rfl, mkHdr_opc _ _ _ _ _ _ _, by
    unfold Pkt.psnValid bitOf Dev.delayReq
    rw [BitVec.getLsbD_ofNat]
    simp only [Bool.and_eq_false_iff]
    exact .inr (Nat.testBit_lt_two_pow (by omega))⟩

theorem Dev.Moves.syncTaken (d : Dev) (p q : Pkt) : Dev.Moves noTmu (fun _ _ => False) d (d.syncTaken p q) := .setTmu (fun _ _ => rfl) d _
theorem Dev.Moves.waitOver (d : Dev) : Dev.Moves noTmu (fun _ _ => False) d d.waitOver := .setTmu (fun _ _ => rfl) d _

theorem Dev.Moves.reqSent (d : Dev) (q : Pkt) : Dev.Moves noTmuNet busyRegs d (d.reqSent q) :=
  (Dev.Moves.net d _ fun _ _ => rfl).trans (.setTmu (fun _ _ => rfl) (d.send q) _)

/-! ## The servo's share of the step -/

section
variable {d : Dev} {p q : Pkt} (hpkts : d.net.pkts = [p]) (hout : d.net.outbox = []) (hq : q.OwnTime)
include hpkts hout hq

theorem Dev.Moves.closed_reqSent : Dev.Moves noNet busyRegs (d.reqSent q) ((d.reqSent q).closed p) :=
  .closed_of_made hpkts (show d.net.outbox ++ [q] = [q] by rw [hout]; rfl) hq

theorem Dev.Moves.sent : Dev.Moves noTmuNet busyRegs d ((d.reqSent q).closed p) :=
  (Dev.Moves.reqSent d q).trans ((Dev.Moves.closed_reqSent hpkts hout hq).hide fun _ => rfl)

theorem Dev.tmu_sent : ((d.reqSent q).closed p).tmu = { d.tmu with reqSeq := (d.tmu.reqSeq + 1) % 65536 } := by
  rw [(Dev.Moves.closed_reqSent hpkts hout hq).tmu_of_noNet]
  rfl

end

/-- What an adjustment of time by the servo may change. -/
def noServo (d : Dev) : Dev := { d with tmu := {}, pwr := {}, net := {} }

/-- An adjustment between a change of the time unit and the packet path. -/
theorem adjusts_of_adjusted {s t : State} {x y z : Dev} (hlogs : s.d.Logs x) (hheld : Dev.Moves noTmu (fun _ _ => False) x y)
    (hgood : y.tmu.good = s.d.tmu.good) (hadj : y.Adjusted z) (hend : Dev.Moves noTmuNet busyRegs z t.d)
    (hkeep : t.d.tmu.good = z.tmu.good) (hrest : Rest s t) : Adjusts s t := by
  obtain ⟨hmoves, ⟨b, n, htmu, hn⟩, hsync⟩ := hadj
  have hzn : z.tmu.good = n := by rw [htmu]
  have hchange : Dev.Moves noServo servoRegs x t.d :=
    ((hheld.hide fun _ => rfl).mono fun _ _ h => h.elim).trans ((hmoves.hide fun _ => rfl).trans
      ((hend.hide fun _ => rfl).mono fun _ _ h => .inl h))
  refine ⟨?_, fun h => ?_, hchange.only_of_logs hlogs hrest⟩
  · rw [hkeep, hzn, ← hgood]
    exact hn
  · rw [hend.fld F.TMU_CTL_SYNC 0 rfl Bool.false_ne_true]
    exact hsync (hkeep ▸ h)

end Sys2Proof.Machine
end

section
/-! The clauses of TIME.PTP at FN 0x00 (R270, R274): the step's outcome, its counts, and what the servo has taken. -/

namespace Sys2Proof.Machine
open Sys2Proof.Claims

/-- The outcome of TIME_PTP on the one packet of the device. -/
def ptpDone (s : State) (p : Pkt) : State := { s with d := (s.d.ptpTaken p).closed p }

/-- A count stands in the outcome where all else that the step does is no count of the time unit. -/
theorem ptpDone_counts {s : State} {p : Pkt} {c : Nat} (hc : c < 64) {f : Dev → Dev} {may : RF → Nat → Prop}
    (hmoves : Dev.Moves f may (s.d.countTmu c) (ptpDone s p).d) : Counts s (ptpDone s p) 4 c 1 :=
  counts_of_logs (Dev.Logs.refl s.d) rfl (hmoves.counts c hc)

section
variable {s : State} {p : Pkt} {vl : Nat} (h : AtFn s p 0 vl 0x50)
include h

/-! ## A message that the servo does not take -/

theorem ptpDone_of_logs (hlogs : s.d.Logs (s.d.ptpTaken p)) : (ptpDone s p).d.net.pkts = [] ∧ Quiet s (ptpDone s p) := by
  have hout : (s.d.ptpTaken p).net.outbox = [] := hlogs.net ▸ h.calm.1
  have hpkts : (s.d.ptpTaken p).net.pkts = [p] := hlogs.net ▸ h.only
  have hclosed := Dev.closed_of_empty (p := p) hout
  refine ⟨Dev.pkts_closed hpkts hout, rfl, rfl, ?_⟩
  show s.d.Soft ((s.d.ptpTaken p).closed p)
  rw [hclosed]
  exact hlogs.soft.endPkt p.id

/-- One that is only counted. -/
theorem ptpDone_counts_of_taken {c : Nat} (hc : c < 64) (htaken : s.d.ptpTaken p = s.d.countTmu c) : Counts s (ptpDone s p) 4 c 1 := by
  have hlogs : s.d.Logs (s.d.countTmu c) := (Dev.Logs.refl s.d).count _ _ _
  refine ptpDone_counts hc (f := noNet) (may := busyRegs) ?_
  show Dev.Moves noNet busyRegs _ ((s.d.ptpTaken p).closed p)
  rw [htaken]
  exact .closed_of_empty (hlogs.net ▸ h.calm.1)

/-! ## What is counted (R274) -/

theorem ptpDone_pdelay {k : Nat} (ht : p.ptpType = some k) (hk : k = 2 ∨ k = 3 ∨ k = 0xA) : Counts s (ptpDone s p) 4 1 1 :=
  ptpDone_counts_of_taken h (by decide) (ptpTaken_of_drop (Dev.ptpDrop_of_pdelay ht hk))

theorem ptpDone_noTime {k : Nat} (ht : p.ptpType = some k) (hk : k = 0 ∨ k = 1) (hlock : s.d.fld F.TMU_STAT_LOCKED 0 = 0) :
    Counts s (ptpDone s p) 4 2 1 :=
  ptpDone_counts_of_taken h (by decide) (ptpTaken_of_drop (Dev.ptpDrop_of_noTime ht hk hlock))

theorem ptpDone_foreign (hpod : bitsOf p.rw 15 8 ≠ s.d.fld F.TMU_CTL_DOMAIN 0)
    (hkept : ∀ k, p.ptpType = some k → k ∉ [2, 3, 0xA] ∧ (k = 0 ∨ k = 1 → s.d.fld F.TMU_STAT_LOCKED 0 = 1)) :
    Counts s (ptpDone s p) 4 0 1 :=
  ptpDone_counts_of_taken h (by decide) (ptpTaken_of_foreign (Dev.ptpDrop_eq_none hkept) hpod)

/-! ## A Sync that the servo takes -/

/-- The device with a Sync counted and held. -/
def syncHeld (s : State) (p : Pkt) : Dev := (s.d.ptpCounted p).syncTaken p (s.d.ptpHeld p)

/-- Then time is adjusted, unless a Follow_Up is to come. -/
def syncUsed (s : State) (p : Pkt) : Dev :=
  if p.twoStep then syncHeld s p else (syncHeld s p).servoAdjust (s.d.ptpHeld p).ptpStamp [(s.d.ptpHeld p).ptpCorr]

omit h in
theorem ptpTaken_of_sync (hs : ServoTakes s p 0) : s.d.ptpTaken p = (syncUsed s p).reqSent ((syncHeld s p).delayReq p) := by
  have htake : (s.d.ptpCounted p).servoTake p (s.d.ptpHeld p) = (s.d.ptpCounted p).servoUse p (s.d.ptpHeld p) := by
    simp only [Dev.servoTake, hs.type]
  rw [ptpTaken_of_servo hs, htake]
  unfold syncUsed
  split
  next htwo => exact Dev.servoUse_twoStep _ _ htwo
  next hone => exact Dev.servoUse_oneStep _ _ (by simpa using hone)

omit h in
theorem syncHeld_tmu : (syncHeld s p).tmu = { s.d.tmu with
    syncIn := some (ptpTime (s.d.timeUnits - s.d.residence p.frcIn s.d.tmu.frc)),
    syncWait := if p.twoStep then some (p.ptpKey, (s.d.ptpHeld p).ptpCorr) else none } := by
  have hlogs := logs_ptpCounted s.d p
  have hrate := hlogs.regs .TMU_RATE 0 rfl
  have htime : (s.d.ptpCounted p).timeUnits = s.d.timeUnits := congrArg (· / 2 ^ 32) (Dev.timeFull_of_tmu hlogs.tmu hrate)
  have hslope : (s.d.ptpCounted p).fld F.TMU_RATE_RATE 0 = s.d.fld F.TMU_RATE_RATE 0 := congrArg (bitsOf · _ _) hrate
  have hres : (s.d.ptpCounted p).residence p.frcIn s.d.tmu.frc = s.d.residence p.frcIn s.d.tmu.frc := by
    unfold Dev.residence
    rw [hslope]
  unfold syncHeld Dev.syncTaken
  dsimp only
  rw [hlogs.tmu, htime, hres]

omit h in
/-- An adjustment apart, the servo holds the Sync. -/
theorem syncUsed_moves : Dev.Moves noTmuPort servoRegs (syncHeld s p) (syncUsed s p) := by
  unfold syncUsed
  split
  · exact .refl _
  · exact ((syncHeld s p).adjusted_servoAdjust _ _).moves

omit h in
theorem syncUsed_tmu : (syncUsed s p).tmu.syncIn = (syncHeld s p).tmu.syncIn ∧ (syncUsed s p).tmu.syncWait = (syncHeld s p).tmu.syncWait
    ∧ (syncUsed s p).tmu.reqSeq = (syncHeld s p).tmu.reqSeq := by
  unfold syncUsed
  split
  · exact ⟨rfl, rfl, rfl⟩
  · obtain ⟨b, n, htmu, -⟩ := ((syncHeld s p).adjusted_servoAdjust (s.d.ptpHeld p).ptpStamp [(s.d.ptpHeld p).ptpCorr]).tmu
    rw [htmu]
    exact ⟨rfl, rfl, rfl⟩

theorem syncUsed_net : (syncUsed s p).net.pkts = [p] ∧ (syncUsed s p).net.outbox = [] := by
  obtain ⟨hpkts, hout⟩ := (syncUsed_moves (s := s) (p := p)).pkts_of_noTmuPort
  have hnet : (syncHeld s p).net = s.d.net :=
    (Dev.Moves.syncTaken (s.d.ptpCounted p) p (s.d.ptpHeld p)).net_of_noTmu.trans (logs_ptpCounted s.d p).net
  exact ⟨by rw [hpkts, hnet, h.only], by rw [hout, hnet, h.calm.1]⟩

theorem ptpDone_of_sync (hs : ServoTakes s p 0) : Dev.Moves noTmuNet busyRegs (syncUsed s p) (ptpDone s p).d
    ∧ (ptpDone s p).d.tmu = { (syncUsed s p).tmu with reqSeq := ((syncUsed s p).tmu.reqSeq + 1) % 65536 } := by
  obtain ⟨hpkts, hout⟩ := syncUsed_net h
  have hown := (syncHeld s p).ownTime_delayReq p
  have hdone : (ptpDone s p).d = ((syncUsed s p).reqSent ((syncHeld s p).delayReq p)).closed p := by rw [← ptpTaken_of_sync hs]; rfl
  rw [hdone]
  exact ⟨.sent hpkts hout hown, Dev.tmu_sent hpkts hout hown⟩

theorem ptpDone_sync_held (hs : ServoTakes s p 0) :
    (ptpDone s p).d.tmu.syncIn = some (ptpTime (s.d.timeUnits - s.d.residence p.frcIn s.d.tmu.frc))
    ∧ (ptpDone s p).d.tmu.reqSeq = (s.d.tmu.reqSeq + 1) % 65536
    ∧ (ptpDone s p).d.tmu.syncWait = if p.twoStep then some (p.ptpKey, (s.d.ptpHeld p).ptpCorr) else none := by
  obtain ⟨-, htmu⟩ := ptpDone_of_sync h hs
  obtain ⟨hin, hwait, hseq⟩ := syncUsed_tmu (s := s) (p := p)
  rw [htmu]
  dsimp only
  rw [hin, hwait, hseq, syncHeld_tmu]
  exact ⟨rfl, rfl, rfl⟩

theorem ptpDone_sync_oneStep (hs : ServoTakes s p 0) (hone : p.twoStep = false) : Adjusts s (ptpDone s p) := by
  obtain ⟨hmoves, htmu⟩ := ptpDone_of_sync h hs
  have hused : syncUsed s p = (syncHeld s p).servoAdjust (s.d.ptpHeld p).ptpStamp [(s.d.ptpHeld p).ptpCorr] := if_neg (by simp [hone])
  have hadj : (syncHeld s p).Adjusted (syncUsed s p) := hused ▸ Dev.adjusted_servoAdjust _ _ _
  refine adjusts_of_adjusted (logs_ptpCounted s.d p) (.syncTaken _ p (s.d.ptpHeld p)) ?_ hadj hmoves ?_ ⟨rfl, rfl⟩
  · have e := congrArg Tmu.good (syncHeld_tmu (s := s) (p := p))
    exact e
  · rw [htmu]

theorem ptpDone_sync_twoStep (hs : ServoTakes s p 0) (htwo : p.twoStep = true) :
    (ptpDone s p).d.timeFull = s.d.timeFull ∧ (ptpDone s p).d.tmu.good = s.d.tmu.good ∧ Only noTmuNet s (ptpDone s p) busyRegs := by
  obtain ⟨hmoves, htmu⟩ := ptpDone_of_sync h hs
  have hused : syncUsed s p = syncHeld s p := if_pos htwo
  rw [hused] at hmoves htmu
  have hchange : Dev.Moves noTmuNet busyRegs (s.d.ptpCounted p) (ptpDone s p).d :=
    (((Dev.Moves.syncTaken (s.d.ptpCounted p) p (s.d.ptpHeld p)).hide fun _ => rfl).mono fun _ _ e => e.elim).trans hmoves
  have honly := hchange.only_of_logs (logs_ptpCounted s.d p) ⟨rfl, rfl⟩
  have hrate : (ptpDone s p).d.rd .TMU_RATE 0 = s.d.rd .TMU_RATE 0 := honly.regs _ _ rfl Bool.false_ne_true
  rw [syncHeld_tmu] at htmu
  exact ⟨Dev.timeFull_congr (by rw [htmu]) (by rw [htmu]) (by rw [htmu]) hrate, by rw [htmu], honly⟩

/-- A Sync or Delay_Req of the device's pod is counted as corrected, whatever the servo does with it. -/
theorem ptpDone_corrected {k : Nat} (ht : p.ptpType = some k) (hk : k = 0 ∨ k = 1) (hlock : s.d.fld F.TMU_STAT_LOCKED 0 = 1)
    (hpod : bitsOf p.rw 15 8 = s.d.fld F.TMU_CTL_DOMAIN 0) : Counts s (ptpDone s p) 4 3 1 := by
  have hcounted : s.d.ptpCounted p = s.d.countTmu C.PTP_CORRECTED := if_pos (by simp [Pkt.ptpEvents, ht, ptpEvent_iff.2 hk])
  by_cases hs : ServoTakes s p 0
  · obtain ⟨hmoves, -⟩ := ptpDone_of_sync h hs
    refine ptpDone_counts (c := 3) (f := noServo) (may := servoRegs) (by decide) ?_
    refine Dev.Moves.trans (hcounted ▸ (((Dev.Moves.syncTaken (s.d.ptpCounted p) p (s.d.ptpHeld p)).hide fun _ => rfl).mono fun _ _ e => e.elim))
      ((syncUsed_moves.hide fun _ => rfl).trans ((hmoves.hide fun _ => rfl).mono fun _ _ e => .inl e))
  · have hkept : s.d.ptpDrop p = none := Dev.ptpDrop_eq_none fun j hj => by
      obtain rfl : k = j := Option.some.inj (ht.symm.trans hj)
      exact ⟨by rcases hk with rfl | rfl <;> decide, fun _ => hlock⟩
    have hother : ∀ j, ServoTakes s p j → j = k := fun j hj => Option.some.inj (hj.type.symm.trans ht)
    refine ptpDone_counts_of_taken h (by decide) ((ptpTaken_of_idle hs ?_ ?_ hkept hpod).trans hcounted)
    · exact fun e => by have := hother 8 e.1; omega
    · exact fun e => by have := hother 9 e.1; omega

end

end Sys2Proof.Machine
end

section
/-! TIME.PTP at FN 0x00 (R270): Follow_Up and Delay_Resp as the servo takes them, and its Delay_Req. -/

namespace Sys2Proof.Machine
open Sys2Proof.Claims

section
variable {s : State} {p : Pkt}

/-! ## Follow_Up and Delay_Resp -/

/-- A message that is no event is not corrected. -/
theorem ptpCounted_of_general {k : Nat} (ht : p.ptpType = some k) (hk : ptpEvent k = false) : s.d.ptpCounted p = s.d := by
  have hgeneral : p.ptpEvents = false := by simp [Pkt.ptpEvents, ht, hk]
  unfold Dev.ptpCounted
  rw [hgeneral]
  rfl

theorem ptpTaken_of_followUp {c : Nat} (hs : ServoTakes s p 8) (hwait : s.d.tmu.syncWait = some (p.ptpKey, c)) :
    s.d.ptpTaken p = s.d.waitOver.servoAdjust p.ptpStamp [c, p.ptpCorr] := by
  rw [ptpTaken_of_servo hs, ptpCounted_of_general hs.type rfl]
  simp only [Dev.servoTake, hs.type]
  exact Dev.servoFollow_of_waits hwait

theorem ptpTaken_of_delayResp (hs : ServoTakes s p 9) (hans : AnswersReq s p) :
    s.d.ptpTaken p = { s.d with tmu := { s.d.tmu with delayResp := some (p.ptpStamp, p.ptpCorr) } } := by
  rw [ptpTaken_of_servo hs, ptpCounted_of_general hs.type rfl]
  simp only [Dev.servoTake, hs.type]
  exact if_pos hans

section
variable {vl : Nat} (h : AtFn s p 0 vl 0x50)
include h

theorem ptpDone_followUp (hs : ServoTakes s p 8) (hf : FollowsSync s p) : (ptpDone s p).d.net.pkts = [] ∧ (ptpDone s p).d.tmu.syncWait = none
    ∧ (ptpDone s p).d.tmu.syncIn = s.d.tmu.syncIn ∧ Adjusts s (ptpDone s p) := by
  obtain ⟨c, hwait⟩ := hf
  have hadj : s.d.waitOver.Adjusted (s.d.ptpTaken p) := by
    rw [ptpTaken_of_followUp hs hwait]
    exact Dev.adjusted_servoAdjust _ _ _
  obtain ⟨hpkts, hout⟩ := hadj.moves.pkts_of_noTmuPort
  obtain ⟨b, n, htmu, -⟩ := hadj.tmu
  have hout' : (s.d.ptpTaken p).net.outbox = [] := hout.trans h.calm.1
  have hend : Dev.Moves noNet busyRegs (s.d.ptpTaken p) (ptpDone s p).d := .closed_of_empty hout'
  have hdone : (ptpDone s p).d.tmu = (s.d.ptpTaken p).tmu := hend.tmu_of_noNet
  refine ⟨Dev.pkts_closed (hpkts.trans h.only) hout', ?_, ?_,
    adjusts_of_adjusted (.refl s.d) (.waitOver s.d) rfl hadj (hend.hide fun _ => rfl) (congrArg Tmu.good hdone) ⟨rfl, rfl⟩⟩
  · rw [hdone, htmu]
    rfl
  · rw [hdone, htmu]
    rfl

theorem ptpDone_delayResp (hs : ServoTakes s p 9) (hans : AnswersReq s p) : (ptpDone s p).d.net.pkts = []
    ∧ (ptpDone s p).d.tmu = { s.d.tmu with delayResp := some (p.ptpStamp, p.ptpCorr) } ∧ Only noTmuNet s (ptpDone s p) busyRegs := by
  have htaken := ptpTaken_of_delayResp hs hans
  have hnet : (s.d.ptpTaken p).net = s.d.net := by rw [htaken]
  have hout : (s.d.ptpTaken p).net.outbox = [] := hnet ▸ h.calm.1
  have hheld : Dev.Moves noTmuNet busyRegs s.d (s.d.ptpTaken p) := by
    rw [htaken]
    exact .setTmu (fun _ _ => rfl) s.d _
  have hend : Dev.Moves noNet busyRegs (s.d.ptpTaken p) (ptpDone s p).d := .closed_of_empty hout
  exact ⟨Dev.pkts_closed (hnet ▸ h.only) hout, by rw [hend.tmu_of_noNet, htaken], (hheld.trans (hend.hide fun _ => rfl)).only ⟨rfl, rfl⟩⟩

end

/-! ## The Delay_Req -/

/-- Where byte 8 of a Delay_Req stands in its head payload. -/
theorem delayReq_pay (d : Dev) : (d.delayReq p).pay.toNat >>> 280 % 2 ^ 8 = p.opx % 2 ^ 8 := by
  show (mkPay _).toNat >>> 280 % 2 ^ 8 = _
  unfold mkPay
  generalize Config.clockIdentity = identity
  simp only [List.foldl_cons, List.foldl_nil, BitVec.toNat_ofNat, Nat.shiftRight_eq_div_pow]
  omega

/-- Byte 8 of a Delay_Req, domainNumber, is the low byte of OPX of the Sync. -/
theorem delayReq_domain (d : Dev) : (d.delayReq p).bytesFrom 8 1 = [BitVec.ofNat 8 p.opx] := by
  have hbyte : (d.delayReq p).bytes[4]? = some (BitVec.ofNat 8 p.opx) := by
    unfold Pkt.bytes
    rw [List.getElem?_append_left (by rw [length_bytesOf]; decide), getElem?_bytesOf _ _ _ (by decide)]
    refine congrArg some (BitVec.eq_of_toNat_eq ?_)
    rw [BitVec.toNat_ofNat, BitVec.toNat_ofNat]
    exact delayReq_pay d
  have htake : ((d.delayReq p).bytes.drop 4).take 1 = [BitVec.ofNat 8 p.opx] := by
    rw [List.take_one, List.head?_drop, hbyte]
    rfl
  unfold Pkt.bytesFrom
  dsimp only
  rw [htake]
  rfl
/-- The servo answers a Sync with a Delay_Req. -/
theorem timePtp_sends {vl : Nat} (h : AtFn s p 0 vl 0x50) (hs : ServoTakes s p 0) :
    SendsSome (.timePtp p.id) s (fun q => q.dst = p.src ∧ q.src = s.d.ownFn 0 ∧ q.opc = 0x50 ∧ q.vl = 7
      ∧ q.bytesFrom 8 1 = [BitVec.ofNat 8 p.opx]) := by
  have hin : (syncHeld s p).delayReq p ∈ ((s.d.ptpTaken p).endPkt p.id).net.outbox := by
    rw [Dev.outbox_endPkt, ptpTaken_of_sync hs]
    exact (syncUsed s p).mem_outbox_send _
  have hroute : (syncHeld s p).rd .TBL_ROUTE_CTL 0 = s.d.rd .TBL_ROUTE_CTL 0 :=
    ((Dev.Moves.syncTaken (s.d.ptpCounted p) p (s.d.ptpHeld p)).regs _ _ rfl not_false).trans ((logs_ptpCounted s.d p).regs _ _ rfl)
  exact sendsSome_of_makes (timePtp_makes h) hin ⟨mkHdr_dst _ _ _ _ _ _ _, (mkHdr_src _ _ _ _ _ _ _).trans (Dev.ownFn_congr hroute 0),
    mkHdr_opc _ _ _ _ _ _ _, rfl, delayReq_domain _⟩

/-! ## The whole of it -/

theorem timePtp_completes {vl : Nat} (h : AtFn s p 0 vl 0x50) {Q : State → Prop} (hq : Q (ptpDone s p)) : Completes (.timePtp p.id) s Q :=
  completes_of_makes (timePtp_makes h) hq

end

end Sys2Proof.Machine
end

section
namespace Sys2Proof.Claims
open Sys2Proof.Machine

/-- Settles O54: a clause for each command, and for TIME.PTP one for each way that the message goes. -/
theorem timeUnit : Obligations.TimeUnit := by
  unfold Obligations.TimeUnit
  intro s m data
  refine ⟨tmuRateWrite_completes, tmuOffsetStep_completes, fun h => ⟨tmuCtlWrite_kept h, tmuCtlWrite_moved h, tmuCtlWrite_refused h⟩,
    tmuNowRead_completes, servoHoldExpiry_disabled, fun h => ?_, fun p vl h => ⟨timePtp_completes h ?_, timePtp_sends h⟩⟩
  · obtain ⟨t, hexec, hsync, hheard, hminute, htmu, honly⟩ := servoHoldExpiry_unsyncs h
    exact ⟨t, hexec, hsync, hheard, hminute, htmu, honly⟩
  · refine ⟨⟨rfl, rfl⟩, fun h0 h8 h9 => ptpDone_of_logs h (logs_ptpTaken h0 h8 h9), fun k => ptpDone_pdelay h, fun k => ptpDone_noTime h,
      ptpDone_foreign h, fun k => ptpDone_corrected h, fun hs => ?_, ptpDone_followUp h, ptpDone_delayResp h⟩
    obtain ⟨hin, hseq, hwait⟩ := ptpDone_sync_held h hs
    refine ⟨hin, hseq, fun hone => ⟨?_, ptpDone_sync_oneStep h hs hone⟩,
      fun htwo => ⟨⟨(s.d.ptpHeld p).ptpCorr, ?_⟩, ptpDone_sync_twoStep h hs htwo⟩⟩
    · rw [hwait, if_neg (by simp [hone])]
    · rw [hwait, if_pos htwo]

end Sys2Proof.Claims
end
